-- ==== Sys2Proof/Word.lean ====
section
/-! DEFINITION. The word types of the Llynon and the finite tables the state is made of (R10, R14, R16). -/
namespace Sys2Proof

/-- One byte of memory or of a record. -/
abbrev Byte := BitVec 8
/-- One 32-bit instruction word or lane word. -/
abbrev Half := BitVec 32
/-- A scalar value, wN[63:0]. -/
abbrev Word := BitVec 64
/-- A whole register entry, queue entry or 64-byte record. -/
abbrev Vec := BitVec 512
/-- A 48-bit virtual address; the program counter and lk (R38, R48). -/
abbrev Addr := BitVec 48

/-- A finite table from numbers to values: pairs with strictly rising keys. A key that is not
listed holds the table's default, which each reader names. -/
abbrev Tab (α : Type) := List (Nat × α)

end Sys2Proof
end

