-- ==== Sys2Proof/Config.lean ====
section
/-! DEFINITION. What one module or its firmware fixes, and the free values: constants without a body, of which nothing
can be proved. -/
namespace Sys2Proof.Config

/-- The device's ID within its pod (R9, R147), fixed for a module. -/
opaque deviceId : BitVec 8
/-- The device's pod identifier (R358, R361). -/
opaque podId : BitVec 16
/-- Operator key indices provisioned in fuses (R361). -/
opaque provisioned : Nat → Bool
/-- The operators' public keys, provisioned in fuses, by key index (R361). -/
opaque operatorKey : Nat → Nat × Nat
/-- The device identity key, and the secret number that each of its signatures takes (R12, R372, R374, R377). -/
opaque deviceKey : Nat
opaque signNonce : List Byte → Nat
/-- The device root that a reset draws, by the count of resets (R370, R403). -/
opaque deviceRoot : Nat → List Byte
/-- Scratchpad bytes after a change of S, which the spec leaves undefined (R47): by epoch and place. -/
opaque scratchByte : Nat → Nat → Byte
/-- Whether a device of the pod holds a peer context at a moment (R281, R346): by device and issue number. -/
opaque peerHolds : Nat → Nat → Bool
/-- A peer's answer to a request for frames (R281): a frame, or its refusal; by device and issue number. -/
opaque peerFrames : Nat → Nat → Option Nat
/-- Where an address of the context's space on another device lies there (R338, R342), by device, address and issue
number; none where an access there fails its translation or protection. -/
opaque peerTranslate : Nat → Nat → Nat → Option Nat
/-- Which of the checks of R271 and R272 such an address fails where it is mapped there, or that it is not mapped (R342). -/
opaque peerFault : Nat → Nat → Nat → Nat
/-- An estimate of energy in nJ (R147), by core and the state's count of such estimates. -/
opaque energy : Nat → Nat → Nat
/-- Cycles that an access, an engine or the firmware takes beyond what the spec fixes (R32, R150, R191, R397), by the
state's count of such delays. -/
opaque delay : Nat → Nat
/-- Slice and set of a line within its partition's share of the L2: the hash that R278 leaves open, as one number, taken modulo the
sets of the share. -/
opaque l2Hash : Nat → Nat
/-- The verdict of the firmware on a hot patch's signature and format (R381). -/
opaque patchValid : List Byte → Bool
/-- Fields of a hot patch, whose layout the spec does not give (R381): base and new version, accepted
save-layout versions, converter flag, and replaced entries. -/
opaque patchBase : List Byte → Nat
opaque patchVersion : List Byte → BitVec 16
opaque patchLayouts : List Byte → List Nat
opaque patchConverts : List Byte → Bool
/-- Functions that must be inactive, and the layout that the converter writes (R381). -/
opaque patchMask : List Byte → BitVec 256
opaque patchLayout : List Byte → Nat
/-- Bytes of the firmware's mailboxes and of the function table's entries that no patch has replaced (R381, R400), by offset in the
readback window: the spec does not give them. -/
opaque firmwareByte : Nat → Byte
opaque patchEntries : List Byte → List (BitVec 8 × List Byte)

/-- Bytes of HBM that the firmware reserves (R265): the top 64 GiB (assumption 10). -/
def reservedBytes : Nat := 64 * 2 ^ 30
/-- Bytes of HBM in all (R11, R265). -/
def hbmBytes : Nat := 576 * 2 ^ 30
/-- First reserved byte. -/
def reservedBase : Nat := hbmBytes - reservedBytes

end Sys2Proof.Config
end

