-- ==== Sys2Proof/Syntax.lean ====
section
/-! DEFINITION. The instruction set whole: one constructor per row of the opcode table. Core instructions
(R48 to R57) carry the fields of their format, engine commands (R180, R213, R335) the command word's open fields
and the operand record, and the events the subject they concern. -/
namespace Sys2Proof

/-- The open fields of a 256-bit engine command word (R180, R213, R335): engine code and opcode are the
constructor's; bits [227:224] are zero in every command a queue holds (R131). -/
structure Cmd where
  /-- Gate term, bits [239:236]; 0 for none (R135). -/
  gate : BitVec 4
  /-- Counter to pulse, bits [235:232]; 0 for none (R135). -/
  cnt : BitVec 4
  /-- Bits [231:228]: LASTUSE, ROUNDOK, REASSOC, LITERAL (R213). -/
  marks : BitVec 4
  /-- Body, bits [223:0]. -/
  body : BitVec 224
  /-- The 512-bit operand record, op0 in the lowest doubleword. -/
  opr : Vec
  deriving DecidableEq, Repr

/-- The header of a Rypel Link flit (R349), and whether the flit authenticates: AES-GCM's verdict on the wire's
bits is the event's own datum (assumption 12). -/
structure Flit where
  ks : Bool
  ctr : Nat
  seq : Nat
  ack : Nat
  reserved : BitVec 3
  kind : BitVec 4
  good : Bool
  deriving DecidableEq, Repr

/-- What a data flit carries for the Trestle (R290, R291, R343, R362, R281): how route packets fill a payload is
internal to the link (R349). -/
inductive LinkMessage where
  /-- Nothing that this device acts on. -/
  | empty
  /-- A remote store of one entry by a peer context of device `dev` to physical address `addr`, under a leaf of ATTR `attr`. -/
  | store (dev addr attr : Nat) (bytes : List Byte)
  /-- A remote load of `n` bytes by such a context, and a remote AMO, CAS or JOIN: operation 0 to 6 as R127 numbers them, 7 for CAS; and
  the owning device's answer, the bytes read or none where they are lost (R116, R126, R290). -/
  | fetch (dev addr attr n : Nat)
  | atomic (dev addr attr op : Nat) (b c : Word)
  | answer (dev : Nat) (bytes : Option (List Byte))
  /-- An active message for a core of this device (R346). -/
  | active (dev core slot target handler : Nat) (serial : BitVec 128) (payload : Vec)
  /-- A member of a collective joins with its command and its input bytes; `at_` is the start of its command, in quarters of a nanosecond
(R343). -/
  | join (dev tag : Nat) (serial : BitVec 128) (at_ opcode : Nat) (body : BitVec 224) (map : BitVec 256) (input : List Byte)
  /-- A member's command has ended because two members differ: every member's ends so; `at_` is the first start of theirs (R343). -/
  | differ (dev tag : Nat) (serial : BitVec 128) (at_ : Nat)
  /-- A member withdraws from a collective that it had joined (R334). -/
  | withdraw (dev tag : Nat) (serial : BitVec 128)
  /-- A claim on an expert's slot and the token that follows it, sent by a dispatch of device `dev` (R340). -/
  | token (dev : Nat) (serial : BitVec 128) (line : Nat) (bytes header : List Byte)
  /-- A request of a peer's memory-management firmware (R272, R281 to R284): map; one leaf more for frames given; invalidate, with
  one leaf less; a new ATTR for frames given. -/
  | map (dev : Nat) (serial : BitVec 128) (size count attr : Nat)
  | addLeaf (dev : Nat) (serial : BitVec 128) (base length : Nat)
  | invalidate (dev : Nat) (serial : BitVec 128) (base length : Nat) (release : Bool)
  | retag (dev : Nat) (serial : BitVec 128) (base length attr : Nat)
  /-- A claim on a serial for the pod's arbiter, and the arbiter's reply (R362): expiry, whether many devices may redeem, and a mark
  of the claim, which the reply returns with the serial. -/
  | claim (dev : Nat) (serial : BitVec 128) (expiry : Nat) (group : Bool) (mark : Nat)
  | verdict (dev : Nat) (serial : BitVec 128) (mark status : Nat)
  deriving DecidableEq, Repr

/-- What an event concerns: numbers that name its subject, and the data it brings. A command's word and operand
record stand in the queue entry that starts. -/
structure Arg where
  n : Nat
  m : Nat
  k : Nat
  flag : Bool
  bytes : List Byte
  flit : Flit
  msg : LinkMessage
  deriving DecidableEq, Repr

/-- The flit, and the subject, of an event that brings none. -/
def Flit.none : Flit := { ks := false, ctr := 0, seq := 0, ack := 0, reserved := 0, kind := 0, good := false }
def Arg.none : Arg :=
  { n := 0, m := 0, k := 0, flag := false, bytes := [], flit := Flit.none, msg := .empty }

/-- The instructions, commands and events of the machine, one constructor per row of the opcode table: core
instructions with open fields, core instructions without, engine commands, events. -/
inductive Instr where
  /-- ADD (R70). -/
  | add (rd : BitVec 7) (ra : BitVec 7) (rb : BitVec 7) (ta : BitVec 1) (tb : BitVec 1)
  /-- SUB (R70). -/
  | sub (rd : BitVec 7) (ra : BitVec 7) (rb : BitVec 7) (ta : BitVec 1) (tb : BitVec 1)
  /-- AND (R70). -/
  | and (rd : BitVec 7) (ra : BitVec 7) (rb : BitVec 7) (ta : BitVec 1) (tb : BitVec 1)
  /-- OR (R70). -/
  | or (rd : BitVec 7) (ra : BitVec 7) (rb : BitVec 7) (ta : BitVec 1) (tb : BitVec 1)
  /-- XOR (R70). -/
  | xor (rd : BitVec 7) (ra : BitVec 7) (rb : BitVec 7) (ta : BitVec 1) (tb : BitVec 1)
  /-- SHL (R70). -/
  | shl (rd : BitVec 7) (ra : BitVec 7) (rb : BitVec 7) (ta : BitVec 1) (tb : BitVec 1)
  /-- SHR (R70). -/
  | shr (rd : BitVec 7) (ra : BitVec 7) (rb : BitVec 7) (ta : BitVec 1) (tb : BitVec 1)
  /-- SRA (R70). -/
  | sra (rd : BitVec 7) (ra : BitVec 7) (rb : BitVec 7) (ta : BitVec 1) (tb : BitVec 1)
  /-- MUL (R71). -/
  | mul (rd : BitVec 7) (ra : BitVec 7) (rb : BitVec 7) (ta : BitVec 1) (tb : BitVec 1)
  /-- MULH (R71). -/
  | mulh (rd : BitVec 7) (ra : BitVec 7) (rb : BitVec 7) (ta : BitVec 1) (tb : BitVec 1)
  /-- MULHU (R71). -/
  | mulhu (rd : BitVec 7) (ra : BitVec 7) (rb : BitVec 7) (ta : BitVec 1) (tb : BitVec 1)
  /-- DIV (R72). -/
  | div (rd : BitVec 7) (ra : BitVec 7) (rb : BitVec 7) (ta : BitVec 1) (tb : BitVec 1)
  /-- DIVU (R72). -/
  | divu (rd : BitVec 7) (ra : BitVec 7) (rb : BitVec 7) (ta : BitVec 1) (tb : BitVec 1)
  /-- REM (R72). -/
  | rem (rd : BitVec 7) (ra : BitVec 7) (rb : BitVec 7) (ta : BitVec 1) (tb : BitVec 1)
  /-- REMU (R72). -/
  | remu (rd : BitVec 7) (ra : BitVec 7) (rb : BitVec 7) (ta : BitVec 1) (tb : BitVec 1)
  /-- MIN (R73). -/
  | min (rd : BitVec 7) (ra : BitVec 7) (rb : BitVec 7) (ta : BitVec 1) (tb : BitVec 1)
  /-- MAX (R73). -/
  | max (rd : BitVec 7) (ra : BitVec 7) (rb : BitVec 7) (ta : BitVec 1) (tb : BitVec 1)
  /-- MINU (R73). -/
  | minu (rd : BitVec 7) (ra : BitVec 7) (rb : BitVec 7) (ta : BitVec 1) (tb : BitVec 1)
  /-- MAXU (R73). -/
  | maxu (rd : BitVec 7) (ra : BitVec 7) (rb : BitVec 7) (ta : BitVec 1) (tb : BitVec 1)
  /-- SLT (R73). -/
  | slt (rd : BitVec 7) (ra : BitVec 7) (rb : BitVec 7) (ta : BitVec 1) (tb : BitVec 1)
  /-- SLTU (R73). -/
  | sltu (rd : BitVec 7) (ra : BitVec 7) (rb : BitVec 7) (ta : BitVec 1) (tb : BitVec 1)
  /-- SEQ (R73). -/
  | seq (rd : BitVec 7) (ra : BitVec 7) (rb : BitVec 7) (ta : BitVec 1) (tb : BitVec 1)
  /-- SNE (R73). -/
  | sne (rd : BitVec 7) (ra : BitVec 7) (rb : BitVec 7) (ta : BitVec 1) (tb : BitVec 1)
  /-- CLZ (R74). -/
  | clz (rd : BitVec 7) (ra : BitVec 7) (ta : BitVec 1)
  /-- POPC (R74). -/
  | popc (rd : BitVec 7) (ra : BitVec 7) (ta : BitVec 1)
  /-- REV (R74). -/
  | rev (rd : BitVec 7) (ra : BitVec 7) (ta : BitVec 1)
  /-- SEXT_B (R74). -/
  | sextB (rd : BitVec 7) (ra : BitVec 7) (ta : BitVec 1)
  /-- SEXT_H (R74). -/
  | sextH (rd : BitVec 7) (ra : BitVec 7) (ta : BitVec 1)
  /-- SEXT_W (R74). -/
  | sextW (rd : BitVec 7) (ra : BitVec 7) (ta : BitVec 1)
  /-- ZEXT_W (R74). -/
  | zextW (rd : BitVec 7) (ra : BitVec 7) (ta : BitVec 1)
  /-- ADDI (R75). -/
  | addi (rd : BitVec 7) (ra : BitVec 7) (ta : BitVec 1) (imm : BitVec 11)
  /-- ANDI (R75). -/
  | andi (rd : BitVec 7) (ra : BitVec 7) (ta : BitVec 1) (imm : BitVec 11)
  /-- ORI (R75). -/
  | ori (rd : BitVec 7) (ra : BitVec 7) (ta : BitVec 1) (imm : BitVec 11)
  /-- XORI (R75). -/
  | xori (rd : BitVec 7) (ra : BitVec 7) (ta : BitVec 1) (imm : BitVec 11)
  /-- SHLI (R75). -/
  | shli (rd : BitVec 7) (ra : BitVec 7) (ta : BitVec 1) (imm : BitVec 6)
  /-- SHRI (R75). -/
  | shri (rd : BitVec 7) (ra : BitVec 7) (ta : BitVec 1) (imm : BitVec 6)
  /-- SRAI (R75). -/
  | srai (rd : BitVec 7) (ra : BitVec 7) (ta : BitVec 1) (imm : BitVec 6)
  /-- SLTI (R75). -/
  | slti (rd : BitVec 7) (ra : BitVec 7) (ta : BitVec 1) (imm : BitVec 11)
  /-- MOVI (R76). -/
  | movi (rd : BitVec 7) (imm : BitVec 19)
  /-- LDPC (R77). -/
  | ldpc (rd : BitVec 7) (imm : BitVec 19)
  /-- LEA (R78). -/
  | lea (rd : BitVec 7) (ra : BitVec 7) (rb : BitVec 7) (sh : BitVec 3) (ta : BitVec 1) (tb : BitVec 1)
  /-- SEL (R79). -/
  | sel (rd : BitVec 7) (ra : BitVec 7) (rb : BitVec 7) (rc : BitVec 5)
  /-- FADD_F32 (R80). -/
  | faddF32 (rd : BitVec 7) (ra : BitVec 7) (rb : BitVec 7) (ta : BitVec 1) (tb : BitVec 1)
  /-- FSUB_F32 (R80). -/
  | fsubF32 (rd : BitVec 7) (ra : BitVec 7) (rb : BitVec 7) (ta : BitVec 1) (tb : BitVec 1)
  /-- FMUL_F32 (R80). -/
  | fmulF32 (rd : BitVec 7) (ra : BitVec 7) (rb : BitVec 7) (ta : BitVec 1) (tb : BitVec 1)
  /-- FDIV_F32 (R80). -/
  | fdivF32 (rd : BitVec 7) (ra : BitVec 7) (rb : BitVec 7) (ta : BitVec 1) (tb : BitVec 1)
  /-- FMIN_F32 (R80). -/
  | fminF32 (rd : BitVec 7) (ra : BitVec 7) (rb : BitVec 7) (ta : BitVec 1) (tb : BitVec 1)
  /-- FMAX_F32 (R80). -/
  | fmaxF32 (rd : BitVec 7) (ra : BitVec 7) (rb : BitVec 7) (ta : BitVec 1) (tb : BitVec 1)
  /-- FSQRT_F32 (R80). -/
  | fsqrtF32 (rd : BitVec 7) (ra : BitVec 7) (ta : BitVec 1)
  /-- FADD_F64 (R80). -/
  | faddF64 (rd : BitVec 7) (ra : BitVec 7) (rb : BitVec 7) (ta : BitVec 1) (tb : BitVec 1)
  /-- FSUB_F64 (R80). -/
  | fsubF64 (rd : BitVec 7) (ra : BitVec 7) (rb : BitVec 7) (ta : BitVec 1) (tb : BitVec 1)
  /-- FMUL_F64 (R80). -/
  | fmulF64 (rd : BitVec 7) (ra : BitVec 7) (rb : BitVec 7) (ta : BitVec 1) (tb : BitVec 1)
  /-- FDIV_F64 (R80). -/
  | fdivF64 (rd : BitVec 7) (ra : BitVec 7) (rb : BitVec 7) (ta : BitVec 1) (tb : BitVec 1)
  /-- FMIN_F64 (R80). -/
  | fminF64 (rd : BitVec 7) (ra : BitVec 7) (rb : BitVec 7) (ta : BitVec 1) (tb : BitVec 1)
  /-- FMAX_F64 (R80). -/
  | fmaxF64 (rd : BitVec 7) (ra : BitVec 7) (rb : BitVec 7) (ta : BitVec 1) (tb : BitVec 1)
  /-- FSQRT_F64 (R80). -/
  | fsqrtF64 (rd : BitVec 7) (ra : BitVec 7) (ta : BitVec 1)
  /-- FFMA_F32 (R81). -/
  | ffmaF32 (rd : BitVec 7) (ra : BitVec 7) (rb : BitVec 7) (rc : BitVec 5)
  /-- FFMA_F64 (R81). -/
  | ffmaF64 (rd : BitVec 7) (ra : BitVec 7) (rb : BitVec 7) (rc : BitVec 5)
  /-- FEQ_F32 (R82). -/
  | feqF32 (rd : BitVec 7) (ra : BitVec 7) (rb : BitVec 7) (ta : BitVec 1) (tb : BitVec 1)
  /-- FLT_F32 (R82). -/
  | fltF32 (rd : BitVec 7) (ra : BitVec 7) (rb : BitVec 7) (ta : BitVec 1) (tb : BitVec 1)
  /-- FLE_F32 (R82). -/
  | fleF32 (rd : BitVec 7) (ra : BitVec 7) (rb : BitVec 7) (ta : BitVec 1) (tb : BitVec 1)
  /-- FUN_F32 (R82). -/
  | funF32 (rd : BitVec 7) (ra : BitVec 7) (rb : BitVec 7) (ta : BitVec 1) (tb : BitVec 1)
  /-- FEQ_F64 (R82). -/
  | feqF64 (rd : BitVec 7) (ra : BitVec 7) (rb : BitVec 7) (ta : BitVec 1) (tb : BitVec 1)
  /-- FLT_F64 (R82). -/
  | fltF64 (rd : BitVec 7) (ra : BitVec 7) (rb : BitVec 7) (ta : BitVec 1) (tb : BitVec 1)
  /-- FLE_F64 (R82). -/
  | fleF64 (rd : BitVec 7) (ra : BitVec 7) (rb : BitVec 7) (ta : BitVec 1) (tb : BitVec 1)
  /-- FUN_F64 (R82). -/
  | funF64 (rd : BitVec 7) (ra : BitVec 7) (rb : BitVec 7) (ta : BitVec 1) (tb : BitVec 1)
  /-- FCVT_F64_F32 (R83). -/
  | fcvtF64F32 (rd : BitVec 7) (ra : BitVec 7) (mode : BitVec 3) (ta : BitVec 1)
  /-- FCVT_F32_F64 (R83). -/
  | fcvtF32F64 (rd : BitVec 7) (ra : BitVec 7) (mode : BitVec 3) (ta : BitVec 1)
  /-- FCVT_I64_F32 (R83). -/
  | fcvtI64F32 (rd : BitVec 7) (ra : BitVec 7) (mode : BitVec 3) (ta : BitVec 1)
  /-- FCVT_U64_F32 (R83). -/
  | fcvtU64F32 (rd : BitVec 7) (ra : BitVec 7) (mode : BitVec 3) (ta : BitVec 1)
  /-- FCVT_I64_F64 (R83). -/
  | fcvtI64F64 (rd : BitVec 7) (ra : BitVec 7) (mode : BitVec 3) (ta : BitVec 1)
  /-- FCVT_U64_F64 (R83). -/
  | fcvtU64F64 (rd : BitVec 7) (ra : BitVec 7) (mode : BitVec 3) (ta : BitVec 1)
  /-- FCVT_F32_I64 (R83). -/
  | fcvtF32I64 (rd : BitVec 7) (ra : BitVec 7) (mode : BitVec 3) (ta : BitVec 1)
  /-- FCVT_F32_U64 (R83). -/
  | fcvtF32U64 (rd : BitVec 7) (ra : BitVec 7) (mode : BitVec 3) (ta : BitVec 1)
  /-- FCVT_F64_I64 (R83). -/
  | fcvtF64I64 (rd : BitVec 7) (ra : BitVec 7) (mode : BitVec 3) (ta : BitVec 1)
  /-- FCVT_F64_U64 (R83). -/
  | fcvtF64U64 (rd : BitVec 7) (ra : BitVec 7) (mode : BitVec 3) (ta : BitVec 1)
  /-- FCVT_I32_F32 (R83). -/
  | fcvtI32F32 (rd : BitVec 7) (ra : BitVec 7) (mode : BitVec 3) (ta : BitVec 1)
  /-- FCVT_I32_F64 (R83). -/
  | fcvtI32F64 (rd : BitVec 7) (ra : BitVec 7) (mode : BitVec 3) (ta : BitVec 1)
  /-- FCVT_BF16_F32 (R83). -/
  | fcvtBf16F32 (rd : BitVec 7) (ra : BitVec 7) (mode : BitVec 3) (ta : BitVec 1)
  /-- FCVT_F32_BF16 (R83). -/
  | fcvtF32Bf16 (rd : BitVec 7) (ra : BitVec 7) (mode : BitVec 3) (ta : BitVec 1)
  /-- FCLASS_F32 (R85). -/
  | fclassF32 (rd : BitVec 7) (ra : BitVec 7) (ta : BitVec 1)
  /-- FCLASS_F64 (R85). -/
  | fclassF64 (rd : BitVec 7) (ra : BitVec 7) (ta : BitVec 1)
  /-- BC_EQZ (R87). -/
  | bcEqz (ra : BitVec 7) (ta : BitVec 1) (n : BitVec 15)
  /-- BC_NEZ (R87). -/
  | bcNez (ra : BitVec 7) (ta : BitVec 1) (n : BitVec 15)
  /-- BC_LTZ (R87). -/
  | bcLtz (ra : BitVec 7) (ta : BitVec 1) (n : BitVec 15)
  /-- BC_GEZ (R87). -/
  | bcGez (ra : BitVec 7) (ta : BitVec 1) (n : BitVec 15)
  /-- BC_GTZ (R87). -/
  | bcGtz (ra : BitVec 7) (ta : BitVec 1) (n : BitVec 15)
  /-- BC_LEZ (R87). -/
  | bcLez (ra : BitVec 7) (ta : BitVec 1) (n : BitVec 15)
  /-- BC_FULL (R87). -/
  | bcFull (ra : BitVec 7) (n : BitVec 15)
  /-- BC_EMPTY (R87). -/
  | bcEmpty (ra : BitVec 7) (n : BitVec 15)
  /-- J (R88). -/
  | j (n : BitVec 26)
  /-- CALL (R88). -/
  | call (n : BitVec 26)
  /-- JR (R89). -/
  | jr (ra : BitVec 7) (ta : BitVec 1)
  /-- CALLR (R89). -/
  | callr (ra : BitVec 7) (ta : BitVec 1)
  /-- LOOP (R90). -/
  | loop (ra : BitVec 7) (stop : BitVec 12) (level : BitVec 1)
  /-- FORK (R93). -/
  | fork (ra : BitVec 7) (ta : BitVec 1) (n : BitVec 15)
  /-- JOIN (R95). -/
  | join (ra : BitVec 7) (ta : BitVec 1)
  /-- COUPLE (R97). -/
  | couple (rd : BitVec 7) (ra : BitVec 7) (ta : BitVec 1)
  /-- GANGID (R99). -/
  | gangid (rd : BitVec 7)
  /-- LD (R121). -/
  | ld (rd : BitVec 7) (ra : BitVec 7) (sz : BitVec 2) (p : BitVec 3) (ta : BitVec 1) (off : BitVec 6)
  /-- LDX (R121). -/
  | ldx (rd : BitVec 7) (ra : BitVec 7) (sz : BitVec 2) (p : BitVec 3) (ta : BitVec 1) (off : BitVec 6)
  /-- LD_ACQ (R121). -/
  | ldAcq (rd : BitVec 7) (ra : BitVec 7) (sz : BitVec 2) (p : BitVec 3) (ta : BitVec 1) (off : BitVec 6)
  /-- ST (R121). -/
  | st (rs : BitVec 7) (ra : BitVec 7) (sz : BitVec 2) (p : BitVec 3) (ta : BitVec 1) (off : BitVec 6)
  /-- ST_REL (R121). -/
  | stRel (rs : BitVec 7) (ra : BitVec 7) (sz : BitVec 2) (p : BitVec 3) (ta : BitVec 1) (off : BitVec 6)
  /-- VLD (R122). -/
  | vld (rd : BitVec 7) (ra : BitVec 7) (p : BitVec 3) (ta : BitVec 1) (off : BitVec 6)
  /-- VST (R122). -/
  | vst (rs : BitVec 7) (ra : BitVec 7) (p : BitVec 3) (ta : BitVec 1) (off : BitVec 6)
  /-- VLDS (R123). -/
  | vlds (rd : BitVec 7) (ra : BitVec 7) (rb : BitVec 7) (ta : BitVec 1) (tb : BitVec 1)
  /-- VGATH (R123). -/
  | vgath (rd : BitVec 7) (ra : BitVec 7) (rb : BitVec 7) (sh : BitVec 3) (ta : BitVec 1) (tb : BitVec 1)
  /-- VSCAT (R123). -/
  | vscat (rs : BitVec 7) (ra : BitVec 7) (rb : BitVec 7) (sh : BitVec 3) (ta : BitVec 1) (tb : BitVec 1)
  /-- PREF (R124). -/
  | pref (ra : BitVec 7) (p : BitVec 3) (ta : BitVec 1) (off : BitVec 6)
  /-- FENCE_RW (R125). -/
  | fenceRw (p : BitVec 7)
  /-- FENCE_ACQ (R125). -/
  | fenceAcq (p : BitVec 7)
  /-- FENCE_REL (R125). -/
  | fenceRel (p : BitVec 7)
  /-- FENCE_SS (R125). -/
  | fenceSs (p : BitVec 7)
  /-- AMO_ADD (R127). -/
  | amoAdd (rd : BitVec 7) (ra : BitVec 7) (rb : BitVec 7) (ta : BitVec 1) (tb : BitVec 1)
  /-- AMO_AND (R127). -/
  | amoAnd (rd : BitVec 7) (ra : BitVec 7) (rb : BitVec 7) (ta : BitVec 1) (tb : BitVec 1)
  /-- AMO_OR (R127). -/
  | amoOr (rd : BitVec 7) (ra : BitVec 7) (rb : BitVec 7) (ta : BitVec 1) (tb : BitVec 1)
  /-- AMO_XOR (R127). -/
  | amoXor (rd : BitVec 7) (ra : BitVec 7) (rb : BitVec 7) (ta : BitVec 1) (tb : BitVec 1)
  /-- AMO_MIN (R127). -/
  | amoMin (rd : BitVec 7) (ra : BitVec 7) (rb : BitVec 7) (ta : BitVec 1) (tb : BitVec 1)
  /-- AMO_MAX (R127). -/
  | amoMax (rd : BitVec 7) (ra : BitVec 7) (rb : BitVec 7) (ta : BitVec 1) (tb : BitVec 1)
  /-- AMO_SWP (R127). -/
  | amoSwp (rd : BitVec 7) (ra : BitVec 7) (rb : BitVec 7) (ta : BitVec 1) (tb : BitVec 1)
  /-- CAS (R128). -/
  | cas (rd : BitVec 7) (ra : BitVec 7) (rb : BitVec 7) (rc : BitVec 5)
  /-- VADD_I32 (R103). -/
  | vaddI32 (rd : BitVec 7) (ra : BitVec 7) (rb : BitVec 7) (ta : BitVec 1) (tb : BitVec 1)
  /-- VSUB_I32 (R103). -/
  | vsubI32 (rd : BitVec 7) (ra : BitVec 7) (rb : BitVec 7) (ta : BitVec 1) (tb : BitVec 1)
  /-- VAND (R103). -/
  | vand (rd : BitVec 7) (ra : BitVec 7) (rb : BitVec 7) (ta : BitVec 1) (tb : BitVec 1)
  /-- VOR (R103). -/
  | vor (rd : BitVec 7) (ra : BitVec 7) (rb : BitVec 7) (ta : BitVec 1) (tb : BitVec 1)
  /-- VXOR (R103). -/
  | vxor (rd : BitVec 7) (ra : BitVec 7) (rb : BitVec 7) (ta : BitVec 1) (tb : BitVec 1)
  /-- VSHL (R103). -/
  | vshl (rd : BitVec 7) (ra : BitVec 7) (rb : BitVec 7) (ta : BitVec 1) (tb : BitVec 1)
  /-- VSHR (R103). -/
  | vshr (rd : BitVec 7) (ra : BitVec 7) (rb : BitVec 7) (ta : BitVec 1) (tb : BitVec 1)
  /-- VSRA (R103). -/
  | vsra (rd : BitVec 7) (ra : BitVec 7) (rb : BitVec 7) (ta : BitVec 1) (tb : BitVec 1)
  /-- VADD_F32 (R104). -/
  | vaddF32 (rd : BitVec 7) (ra : BitVec 7) (rb : BitVec 7) (ta : BitVec 1) (tb : BitVec 1)
  /-- VSUB_F32 (R104). -/
  | vsubF32 (rd : BitVec 7) (ra : BitVec 7) (rb : BitVec 7) (ta : BitVec 1) (tb : BitVec 1)
  /-- VMUL_F32 (R104). -/
  | vmulF32 (rd : BitVec 7) (ra : BitVec 7) (rb : BitVec 7) (ta : BitVec 1) (tb : BitVec 1)
  /-- VMIN_F32 (R104). -/
  | vminF32 (rd : BitVec 7) (ra : BitVec 7) (rb : BitVec 7) (ta : BitVec 1) (tb : BitVec 1)
  /-- VMAX_F32 (R104). -/
  | vmaxF32 (rd : BitVec 7) (ra : BitVec 7) (rb : BitVec 7) (ta : BitVec 1) (tb : BitVec 1)
  /-- VMUL_I32 (R104). -/
  | vmulI32 (rd : BitVec 7) (ra : BitVec 7) (rb : BitVec 7) (ta : BitVec 1) (tb : BitVec 1)
  /-- VMIN_I32 (R104). -/
  | vminI32 (rd : BitVec 7) (ra : BitVec 7) (rb : BitVec 7) (ta : BitVec 1) (tb : BitVec 1)
  /-- VMAX_I32 (R104). -/
  | vmaxI32 (rd : BitVec 7) (ra : BitVec 7) (rb : BitVec 7) (ta : BitVec 1) (tb : BitVec 1)
  /-- VFMA_F32 (R105). -/
  | vfmaF32 (rd : BitVec 7) (ra : BitVec 7) (rb : BitVec 7) (rc : BitVec 5)
  /-- VCMP_EQ_I32 (R106). -/
  | vcmpEqI32 (rd : BitVec 7) (ra : BitVec 7) (rb : BitVec 7) (ta : BitVec 1) (tb : BitVec 1)
  /-- VCMP_LT_I32 (R106). -/
  | vcmpLtI32 (rd : BitVec 7) (ra : BitVec 7) (rb : BitVec 7) (ta : BitVec 1) (tb : BitVec 1)
  /-- VCMP_LTU_I32 (R106). -/
  | vcmpLtuI32 (rd : BitVec 7) (ra : BitVec 7) (rb : BitVec 7) (ta : BitVec 1) (tb : BitVec 1)
  /-- VCMP_EQ_F32 (R106). -/
  | vcmpEqF32 (rd : BitVec 7) (ra : BitVec 7) (rb : BitVec 7) (ta : BitVec 1) (tb : BitVec 1)
  /-- VCMP_LT_F32 (R106). -/
  | vcmpLtF32 (rd : BitVec 7) (ra : BitVec 7) (rb : BitVec 7) (ta : BitVec 1) (tb : BitVec 1)
  /-- VCMP_LE_F32 (R106). -/
  | vcmpLeF32 (rd : BitVec 7) (ra : BitVec 7) (rb : BitVec 7) (ta : BitVec 1) (tb : BitVec 1)
  /-- VCMP_UN_F32 (R106). -/
  | vcmpUnF32 (rd : BitVec 7) (ra : BitVec 7) (rb : BitVec 7) (ta : BitVec 1) (tb : BitVec 1)
  /-- VSEL (R107). -/
  | vsel (rd : BitVec 7) (ra : BitVec 7) (rb : BitVec 7) (rc : BitVec 5)
  /-- VRED_ADD_I32 (R108). -/
  | vredAddI32 (rd : BitVec 7) (ra : BitVec 7) (ta : BitVec 1)
  /-- VRED_ADD_F32 (R108). -/
  | vredAddF32 (rd : BitVec 7) (ra : BitVec 7) (ta : BitVec 1)
  /-- VRED_MAX_F32 (R108). -/
  | vredMaxF32 (rd : BitVec 7) (ra : BitVec 7) (ta : BitVec 1)
  /-- VRED_MIN_F32 (R108). -/
  | vredMinF32 (rd : BitVec 7) (ra : BitVec 7) (ta : BitVec 1)
  /-- VRED_MAX_I32 (R108). -/
  | vredMaxI32 (rd : BitVec 7) (ra : BitVec 7) (ta : BitVec 1)
  /-- VRED_MIN_I32 (R108). -/
  | vredMinI32 (rd : BitVec 7) (ra : BitVec 7) (ta : BitVec 1)
  /-- VRED_OR (R108). -/
  | vredOr (rd : BitVec 7) (ra : BitVec 7) (ta : BitVec 1)
  /-- VRED_AND (R108). -/
  | vredAnd (rd : BitVec 7) (ra : BitVec 7) (ta : BitVec 1)
  /-- VPERM (R109). -/
  | vperm (rd : BitVec 7) (ra : BitVec 7) (rb : BitVec 7) (ta : BitVec 1) (tb : BitVec 1)
  /-- VBCAST (R109). -/
  | vbcast (rd : BitVec 7) (ra : BitVec 7) (ta : BitVec 1)
  /-- VINS (R109). -/
  | vins (rd : BitVec 7) (ra : BitVec 7) (rb : BitVec 7) (ta : BitVec 1) (tb : BitVec 1)
  /-- VEXT (R109). -/
  | vext (rd : BitVec 7) (ra : BitVec 7) (rb : BitVec 7) (ta : BitVec 1) (tb : BitVec 1)
  /-- VRCP_F32 (R110). -/
  | vrcpF32 (rd : BitVec 7) (ra : BitVec 7) (ta : BitVec 1)
  /-- VRSQ_F32 (R110). -/
  | vrsqF32 (rd : BitVec 7) (ra : BitVec 7) (ta : BitVec 1)
  /-- VEXP2_F32 (R110). -/
  | vexp2F32 (rd : BitVec 7) (ra : BitVec 7) (ta : BitVec 1)
  /-- VLOG2_F32 (R110). -/
  | vlog2F32 (rd : BitVec 7) (ra : BitVec 7) (ta : BitVec 1)
  /-- VPACK_BF16 (R111). -/
  | vpackBf16 (rd : BitVec 7) (ra : BitVec 7) (rb : BitVec 7) (ta : BitVec 1) (tb : BitVec 1)
  /-- VUNPACK_BF16 (R111). -/
  | vunpackBf16 (rd : BitVec 7) (ra : BitVec 7) (rb : BitVec 7) (ta : BitVec 1) (tb : BitVec 1)
  /-- VZMASK (R112). -/
  | vzmask (rd : BitVec 7) (ra : BitVec 7) (ta : BitVec 1)
  /-- QPUSH (R131). -/
  | qpush (q : BitVec 5) (rd : BitVec 7) (wc : BitVec 7) (ws : BitVec 5) (tb : BitVec 1)
  /-- QPOP (R132). -/
  | qpop (q : BitVec 5) (rd : BitVec 7)
  /-- QPOP_STATUS (R132). -/
  | qpopStatus (q : BitVec 5) (rd : BitVec 7) (ws : BitVec 7)
  /-- QPOP_TRAP (R132). -/
  | qpopTrap (q : BitVec 5) (rd : BitVec 7)
  /-- QPOP_TRAP_STATUS (R132). -/
  | qpopTrapStatus (q : BitVec 5) (rd : BitVec 7) (ws : BitVec 7)
  /-- QTEST (R133). -/
  | qtest (q : BitVec 5) (rd : BitVec 7)
  /-- EVT_TERM (R137). -/
  | evtTerm (n : BitVec 5) (ra : BitVec 7) (ta : BitVec 1)
  /-- EVT_CNT (R137). -/
  | evtCnt (n : BitVec 5) (ra : BitVec 7) (rb : BitVec 7) (ta : BitVec 1) (tb : BitVec 1)
  /-- EVT_ARM (R137). -/
  | evtArm (n : BitVec 5) (ra : BitVec 7) (ta : BitVec 1)
  /-- EVT_READ (R137). -/
  | evtRead (n : BitVec 5) (rd : BitVec 7)
  /-- EVT_WAIT (R137). -/
  | evtWait (n : BitVec 5)
  /-- SYS_GET (R147). -/
  | sysGet (rd : BitVec 7) (aux : BitVec 6)
  /-- SYS_SET (R147). -/
  | sysSet (ra : BitVec 7) (aux : BitVec 6)
  /-- TIME (R148). -/
  | time (rd : BitVec 7)
  /-- TRAP (R148). -/
  | trap (ra : BitVec 7) (aux : BitVec 6)
  /-- THR_START (R138). -/
  | thrStart (rd : BitVec 7) (ra : BitVec 7)
  /-- THR_STOP (R139). -/
  | thrStop (rd : BitVec 7) (ra : BitVec 7)
  /-- THR_RESUME (R139). -/
  | thrResume (rd : BitVec 7) (ra : BitVec 7)
  /-- THR_RESUME_NEXT (R139). -/
  | thrResumeNext (rd : BitVec 7) (ra : BitVec 7)
  /-- THR_SWAP (R139). -/
  | thrSwap (rd : BitVec 7) (ra : BitVec 7)
  /-- THR_SWAP_IN (R139). -/
  | thrSwapIn (rd : BitVec 7) (ra : BitVec 7)
  /-- NWRITE (R141). -/
  | nwrite (rd : BitVec 7) (ra : BitVec 7)
  /-- ARRIVE_CLU (R144). -/
  | arriveClu (rd : BitVec 7) (ra : BitVec 7)
  /-- ARRIVE_DECK (R144). -/
  | arriveDeck (rd : BitVec 7) (ra : BitVec 7)
  /-- ARRIVE_DEV (R144). -/
  | arriveDev (rd : BitVec 7) (ra : BitVec 7)
  /-- WAIT (R145). -/
  | wait (ra : BitVec 7)
  /-- WAKE (R142). -/
  | wake (rd : BitVec 7) (ra : BitVec 7)
  /-- NWAIT_NBR (R143). -/
  | nwaitNbr (rd : BitVec 7)
  /-- NWAIT_NTF (R143). -/
  | nwaitNtf (rd : BitVec 7)
  /-- SAMPLE (R148). -/
  | sample (ra : BitVec 7)
  /-- LAUNCH (R307). -/
  | launch (rd : BitVec 7) (ra : BitVec 7)
  /-- LAUNCH_WAIT (R307). -/
  | launchWait (rd : BitVec 7) (ra : BitVec 7)
  /-- LAUNCH_QUERY (R307). -/
  | launchQuery (rd : BitVec 7) (ra : BitVec 7)
  /-- LAUNCH_AGE (R307). -/
  | launchAge (rd : BitVec 7) (ra : BitVec 7)
  /-- CANCEL_LAUNCH (R308). -/
  | cancelLaunch (rd : BitVec 7) (ra : BitVec 7)
  /-- CANCEL_GRAPH (R308). -/
  | cancelGraph (rd : BitVec 7) (ra : BitVec 7)
  /-- CANCEL_PHASE (R308). -/
  | cancelPhase (rd : BitVec 7) (ra : BitVec 7)
  /-- CANCEL_JOB (R308). -/
  | cancelJob (rd : BitVec 7) (ra : BitVec 7)
  /-- CANCEL_GRAPH_REWIND (R308). -/
  | cancelGraphRewind (rd : BitVec 7) (ra : BitVec 7)
  /-- ROUND (R309). -/
  | round (rd : BitVec 7) (ra : BitVec 7) (n : BitVec 6)
  /-- PARK (R310). -/
  | park (rd : BitVec 7) (ra : BitVec 7)
  /-- MEM_MAP (R281). -/
  | memMap (rd : BitVec 7) (ra : BitVec 7) (attr : BitVec 2) (p : BitVec 2)
  /-- MEM_MAP_ALIAS (R281). -/
  | memMapAlias (rd : BitVec 7) (ra : BitVec 7) (attr : BitVec 2) (p : BitVec 2)
  /-- MEM_MAP_REMOTE (R281). -/
  | memMapRemote (rd : BitVec 7) (ra : BitVec 7) (attr : BitVec 2) (p : BitVec 2)
  /-- MEM_UNMAP (R282). -/
  | memUnmap (rd : BitVec 7) (ra : BitVec 7)
  /-- MEM_ATTR (R283). -/
  | memAttr (rd : BitVec 7) (ra : BitVec 7) (attr : BitVec 2) (p : BitVec 2)
  /-- QFENCE (R256). -/
  | qfence (q : BitVec 3)
  /-- RWT_LOAD (R257). -/
  | rwtLoad (rd : BitVec 7) (ra : BitVec 7)
  /-- RWT_CTL (R258). -/
  | rwtCtl (rd : BitVec 7) (ra : BitVec 7)
  /-- RWT_CTL_GET (R258). -/
  | rwtCtlGet (rd : BitVec 7)
  /-- SBIND (R194). -/
  | sbind (rd : BitVec 7) (ra : BitVec 7) (n : BitVec 3)
  /-- SNEXT (R195). -/
  | snext (rd : BitVec 7) (n : BitVec 3)
  /-- SNEXT_STATUS (R195). -/
  | snextStatus (rd : BitVec 7) (ws : BitVec 7) (n : BitVec 3)
  /-- SDONE (R196). -/
  | sdone (rd : BitVec 7) (n : BitVec 3)
  /-- AM_SEND (R346). -/
  | amSend (rd : BitVec 7) (ra : BitVec 7)
  /-- AM_HANDLER (R345). -/
  | amHandler (rd : BitVec 7) (ra : BitVec 7)
  /-- LNK_STATUS (R348). -/
  | lnkStatus (rd : BitVec 7) (ra : BitVec 7)
  /-- WRT_PRESENT (R372). -/
  | wrtPresent (rd : BitVec 7) (ra : BitVec 7)
  /-- WRT_PRESENT_TOKEN (R372). -/
  | wrtPresentToken (rd : BitVec 7) (ra : BitVec 7)
  /-- WRT_PRESENT_REVOKE (R372). -/
  | wrtPresentRevoke (rd : BitVec 7) (ra : BitVec 7)
  /-- WRT_SPLIT (R373). -/
  | wrtSplit (rd : BitVec 7) (ra : BitVec 7)
  /-- WRT_DELEGATE (R374). -/
  | wrtDelegate (rd : BitVec 7) (ra : BitVec 7)
  /-- WRT_SURRENDER (R375). -/
  | wrtSurrender (rd : BitVec 7) (ra : BitVec 7)
  /-- WRT_QUERY (R376). -/
  | wrtQuery (rd : BitVec 7) (ra : BitVec 7) (n : BitVec 4)
  /-- CODE_ADMIT (R377). -/
  | codeAdmit (rd : BitVec 7) (ra : BitVec 7)
  /-- ATTEST (R377). -/
  | attest (rd : BitVec 7) (ra : BitVec 7)
  /-- ONCE (R100). With the word that follows it (R57). -/
  | once (w : BitVec 32)
  /-- RET (R89). -/
  | ret
  /-- ENDS (R96). -/
  | ends
  /-- SPLIT (R98). -/
  | split
  /-- NOP (R148). -/
  | nop
  /-- THR_STOP_SELF (R139). -/
  | thrStopSelf
  /-- THR_YIELD (R140). -/
  | thrYield
  /-- ACC_ZERO (R244). -/
  | accZero
  /-- ACC_LOAD (R244). -/
  | accLoad
  /-- ACC_STORE (R244). -/
  | accStore
  /-- MMA_E4M3_E4M3 (R242). -/
  | mmaE4m3E4m3
  /-- MMA_E4M3_E5M2 (R242). -/
  | mmaE4m3E5m2
  /-- MMA_E5M2_E4M3 (R242). -/
  | mmaE5m2E4m3
  /-- MMA_EC8_EC8 (R242). -/
  | mmaEc8Ec8
  /-- MMA_EC8_E4M3 (R242). -/
  | mmaEc8E4m3
  /-- MMA_BF16_BF16 (R242). -/
  | mmaBf16Bf16
  /-- MMA_F32_F32 (R242). -/
  | mmaF32F32
  /-- MMA_I8_I8 (R242). -/
  | mmaI8I8
  /-- MMA_SP_E4M3_E4M3 (R242). -/
  | mmaSpE4m3E4m3
  /-- MMA_SP_BF16_BF16 (R242). -/
  | mmaSpBf16Bf16
  /-- NEST_EW (R247). -/
  | nestEw
  /-- NEST_RED (R248). -/
  | nestRed
  /-- TRANSPOSE (R250). -/
  | transpose
  /-- SCALE (R251). -/
  | scale
  /-- ENC8 (R252). -/
  | enc8
  /-- DEC8 (R253). -/
  | dec8
  /-- COMPRESS (R254). -/
  | compress
  /-- TE_MARK (R255). -/
  | teMark
  /-- COPY (R183). -/
  | copy
  /-- COPY_2D (R183). -/
  | copy2d
  /-- COPY_3D (R183). -/
  | copy3d
  /-- COPY_GATHER (R183). -/
  | copyGather
  /-- FILL (R183). -/
  | fill
  /-- SCHED_LOAD (R184). -/
  | schedLoad
  /-- RTE_LIST (R339). -/
  | rteList
  /-- RTE_DISPATCH (R340). -/
  | rteDispatch
  /-- RTE_COMBINE (R341). -/
  | rteCombine
  /-- COLL_ALLRED (R344). -/
  | collAllred
  /-- COLL_ALLGATH (R344). -/
  | collAllgath
  /-- COLL_REDSCAT (R344). -/
  | collRedscat
  /-- COLL_BCAST (R344). -/
  | collBcast
  /-- INSTRUCTION_COMPLETION (R26): core n, slot m. -/
  | instructionCompletion
  /-- LONG_LATENCY_ARRIVAL (R32): outstanding arrival n. -/
  | longLatencyArrival
  /-- ONCE_POST_LANDING (R100): post n. -/
  | oncePostLanding
  /-- STORE_VISIBLE (R150): pending entry n; with the flag set, the next element of started command n. -/
  | storeVisible
  /-- TRAP_RECORD_ENQUEUE (R165): record n. -/
  | trapRecordEnqueue
  /-- COUPLE_TIMEOUT (R97): core n, slot m. -/
  | coupleTimeout
  /-- STRAND_STEAL (R40): core n, slot m. -/
  | strandSteal
  /-- NWRITE_LANDING (R141): value n. -/
  | nwriteLanding
  /-- WAKE_DELIVERY (R142): value n. -/
  | wakeDelivery
  /-- EXPIRY_NOTICE (R164): partition n. -/
  | expiryNotice
  /-- PREEMPT_SWAP_OUT (R169): core n, slot m. -/
  | preemptSwapOut
  /-- THREAD_RESTORE (R172): partition n, record m. -/
  | threadRestore
  /-- DIVERTED_MESSAGE_REPLAY (R173): partition n. -/
  | divertedMessageReplay
  /-- COMMAND_COMPLETION_COPY (R191): started command n. -/
  | commandCompletionCopy
  /-- COMMAND_COMPLETION_TILE (R239): started command n. -/
  | commandCompletionTile
  /-- COMMAND_COMPLETION_ROUTE (R332): started command n. -/
  | commandCompletionRoute
  /-- REWRITE_WINDOW_ENTRY (R222): core n. -/
  | rewriteWindowEntry
  /-- REWRITE_HEAD_RELEASE (R224): core n. -/
  | rewriteHeadRelease
  /-- REWRITE_GROUP_COMMIT (R234): core n. -/
  | rewriteGroupCommit
  /-- REWRITE_GROUP_REPLAY (R235): core n. -/
  | rewriteGroupReplay
  /-- DISPATCHER_DECISION (R299). -/
  | dispatcherDecision
  /-- HEAD_AGE_LIMIT (R301): partition n, queue m. -/
  | headAgeLimit
  /-- END_OF_STREAM_APPEND (R297): partition n, channel key m. -/
  | endOfStreamAppend
  /-- CORE_MOVE (R302): core n, partition m. -/
  | coreMove
  /-- CORE_LEND (R369): core n, partition m. -/
  | coreLend
  /-- Q7_BACKLOG_DELIVERY (R130): core n. -/
  | q7BacklogDelivery
  /-- CORRECTED (R313): source n. -/
  | corrected
  /-- DECK_FENCE (R325): deck n. -/
  | deckFence
  /-- INJECTION_FIRE (R327): injection n. -/
  | injectionFire
  /-- L2_WRITE_BACK (R277): line n. -/
  | l2WriteBack
  /-- AM_ARRIVAL (R347): message n. -/
  | amArrival
  /-- AM_HANDLER_START (R347): core n. -/
  | amHandlerStart
  /-- COLLECTIVE_TIMEOUT (R343): started command n. -/
  | collectiveTimeout
  /-- DATA_FLIT_RECEIVE (R351): port n, the flit and its message. -/
  | dataFlitReceive
  /-- NAK_RECEIVE (R352): port n, the flit. -/
  | nakReceive
  /-- REPLAY_TIMEOUT (R351): port n. -/
  | replayTimeout
  /-- KEY_SWITCH_START (R353): port n; with the flag set, the peer's: the next key is installed for the receive direction. -/
  | keySwitchStart
  /-- KEY_SWITCH_MARKER_RECEIVE (R353): port n, the flit. -/
  | keySwitchMarkerReceive
  /-- OLD_KEY_SLOT_CLOSE (R353): port n. -/
  | oldKeySlotClose
  /-- IDLE_FLIT_RECEIVE (R349): port n, the flit. -/
  | idleFlitReceive
  /-- TIME_FLIT_SEND (R394): port n. -/
  | timeFlitSend
  /-- TIME_FLIT_RECEIVE (R394): port n, the flit, time m in quarters of a ns. -/
  | timeFlitReceive
  /-- PTP_MESSAGE_RECEIVE (R394): time n in quarters of a ns. -/
  | ptpMessageReceive
  /-- ARBITER_CLAIM (R362): serial n, device m, not-after k, group flag. -/
  | arbiterClaim
  /-- ARBITER_REPLY_TIMEOUT (R362). -/
  | arbiterReplyTimeout
  /-- SPENT_ENTRY_EXPIRY (R362): serial n. -/
  | spentEntryExpiry
  /-- TIME_BEACON_ETHERNET (R364): the bytes. -/
  | timeBeaconEthernet
  /-- BEACON_TIMEOUT (R365). -/
  | beaconTimeout
  /-- HIGH_WATER_UPDATE (R365). -/
  | highWaterUpdate
  /-- CONTEXT_EXPIRY (R378): partition n. -/
  | contextExpiry
  /-- TOKEN_LAPSED (R374): token n. -/
  | tokenLapsed
  /-- HANDOVER_HOLD_EXPIRY (R378): partition n. -/
  | handoverHoldExpiry
  /-- HANDOVER_RELEASE (R390): partition n. -/
  | handoverRelease
  /-- HOT_PATCH_DOORBELL (R381): with the flag set, a masked function is serving a request. -/
  | hotPatchDoorbell
  /-- PATCH_BUSY (R381). -/
  | patchBusy
  /-- APPLY_DOORBELL (R402). -/
  | applyDoorbell
  /-- ADMISSION_DOORBELL_WARRANT (R389): tag n. -/
  | admissionDoorbellWarrant
  /-- ADMISSION_DOORBELL_TOKEN (R389): tag n. -/
  | admissionDoorbellToken
  /-- ADMISSION_DOORBELL_REVOCATION (R389): tag n. -/
  | admissionDoorbellRevocation
  /-- ADMISSION_DOORBELL_BEACON (R389): tag n. -/
  | admissionDoorbellBeacon
  /-- HOST_LAUNCH_RECORD (R390): partition n, queue m, the bytes. -/
  | hostLaunchRecord
  /-- HOST_PARTITION_READ (R391): partition n, offset m, size k. -/
  | hostPartitionRead
  /-- HOST_PARTITION_WRITE (R391): partition n, offset m, the bytes. -/
  | hostPartitionWrite
  /-- REGISTER_WRITE (R388): offset n, the bytes. -/
  | registerWrite
  /-- SAGE_PERIODIC_SAMPLE (R396): core n. -/
  | sagePeriodicSample
  /-- COUNTER_PAGE_UPDATE (R399). -/
  | counterPageUpdate
  /-- SUPPLY_SAG_TRIP (R3). -/
  | supplySagTrip
  /-- COLD_RESET (R403). -/
  | coldReset
  /-- WARM_RESET (R403). -/
  | warmReset
  /-- ARBITER_REPLY (R362): status n. -/
  | arbiterReply
  /-- REMOTE_MAPPING_REQUEST (R281): the message. -/
  | remoteMappingRequest
  /-- PORT_TRAINING_END (R352): port n, good flag, peer m, peer port k, epoch and salt in the flit's ctr and seq. -/
  | portTrainingEnd
  /-- HOST_LANE_FAILURE (R387): lanes n. -/
  | hostLaneFailure
  /-- SUPPLY_SAG_CLEAR (R3). -/
  | supplySagClear
  deriving DecidableEq, Repr

end Sys2Proof
end

