-- ==== Sys2Proof/WellFormed.lean ====
section
/-! DEFINITION. Which core instructions a word can hold: the field values that the entries refuse at decode (R53 to R57,
R87, R90, R100, R120, R123, R125, R131, R132, R137, R147, R256, R281). Engine commands and events carry no such field. -/
namespace Sys2Proof

/-- A task channel q8 to q15. -/
def isChannel (q : BitVec 5) : Bool := decide (8 ≤ q.toNat) && decide (q.toNat ≤ 15)

/-- A word that ONCE may prefix (R57, R100): no major 0x17 to 0x1E, no second prefix, and no SYS word of THR.STOP,
THR.YIELD, THR.SWAP, WAIT, NWAIT, ROUND or PARK. -/
def onceAllowed (w : BitVec 32) : Bool :=
  let m := (w.extractLsb' 26 6).toNat
  let s := (w.extractLsb' 6 6).toNat
  !(decide (0x17 ≤ m) && decide (m ≤ 0x1E)) && m != 0x3F &&
  !(m == 0x3D && (s == 0x06 || s == 0x07 || s == 0x09 || s == 0x0C || s == 0x0E || s == 0x12 || s == 0x13))

/-- The field values that the instruction's entry admits. -/
def wellFormed : Instr → Bool
  | .add rd ra rb ta tb => !(rd == 0#7 && ra == 0#7 && rb == 0#7 && ta == 0#1 && tb == 0#1)
  | .sub _ _ _ _ _ => true
  | .and _ _ _ _ _ => true
  | .or _ _ _ _ _ => true
  | .xor _ _ _ _ _ => true
  | .shl _ _ _ _ _ => true
  | .shr _ _ _ _ _ => true
  | .sra _ _ _ _ _ => true
  | .mul _ _ _ _ _ => true
  | .mulh _ _ _ _ _ => true
  | .mulhu _ _ _ _ _ => true
  | .div _ _ _ _ _ => true
  | .divu _ _ _ _ _ => true
  | .rem _ _ _ _ _ => true
  | .remu _ _ _ _ _ => true
  | .min _ _ _ _ _ => true
  | .max _ _ _ _ _ => true
  | .minu _ _ _ _ _ => true
  | .maxu _ _ _ _ _ => true
  | .slt _ _ _ _ _ => true
  | .sltu _ _ _ _ _ => true
  | .seq _ _ _ _ _ => true
  | .sne _ _ _ _ _ => true
  | .clz _ _ _ => true
  | .popc _ _ _ => true
  | .rev _ _ _ => true
  | .sextB _ _ _ => true
  | .sextH _ _ _ => true
  | .sextW _ _ _ => true
  | .zextW _ _ _ => true
  | .addi _ _ _ _ => true
  | .andi _ _ _ _ => true
  | .ori _ _ _ _ => true
  | .xori _ _ _ _ => true
  | .shli _ _ _ _ => true
  | .shri _ _ _ _ => true
  | .srai _ _ _ _ => true
  | .slti _ _ _ _ => true
  | .movi _ _ => true
  | .ldpc _ _ => true
  | .lea _ _ _ _ _ _ => true
  | .sel _ _ _ _ => true
  | .faddF32 _ _ _ _ _ => true
  | .fsubF32 _ _ _ _ _ => true
  | .fmulF32 _ _ _ _ _ => true
  | .fdivF32 _ _ _ _ _ => true
  | .fminF32 _ _ _ _ _ => true
  | .fmaxF32 _ _ _ _ _ => true
  | .fsqrtF32 _ _ _ => true
  | .faddF64 _ _ _ _ _ => true
  | .fsubF64 _ _ _ _ _ => true
  | .fmulF64 _ _ _ _ _ => true
  | .fdivF64 _ _ _ _ _ => true
  | .fminF64 _ _ _ _ _ => true
  | .fmaxF64 _ _ _ _ _ => true
  | .fsqrtF64 _ _ _ => true
  | .ffmaF32 _ _ _ _ => true
  | .ffmaF64 _ _ _ _ => true
  | .feqF32 _ _ _ _ _ => true
  | .fltF32 _ _ _ _ _ => true
  | .fleF32 _ _ _ _ _ => true
  | .funF32 _ _ _ _ _ => true
  | .feqF64 _ _ _ _ _ => true
  | .fltF64 _ _ _ _ _ => true
  | .fleF64 _ _ _ _ _ => true
  | .funF64 _ _ _ _ _ => true
  | .fcvtF64F32 _ _ mode _ => decide (mode.toNat ≤ 4)
  | .fcvtF32F64 _ _ mode _ => decide (mode.toNat ≤ 4)
  | .fcvtI64F32 _ _ mode _ => decide (mode.toNat ≤ 4)
  | .fcvtU64F32 _ _ mode _ => decide (mode.toNat ≤ 4)
  | .fcvtI64F64 _ _ mode _ => decide (mode.toNat ≤ 4)
  | .fcvtU64F64 _ _ mode _ => decide (mode.toNat ≤ 4)
  | .fcvtF32I64 _ _ mode _ => decide (mode.toNat ≤ 4)
  | .fcvtF32U64 _ _ mode _ => decide (mode.toNat ≤ 4)
  | .fcvtF64I64 _ _ mode _ => decide (mode.toNat ≤ 4)
  | .fcvtF64U64 _ _ mode _ => decide (mode.toNat ≤ 4)
  | .fcvtI32F32 _ _ mode _ => decide (mode.toNat ≤ 4)
  | .fcvtI32F64 _ _ mode _ => decide (mode.toNat ≤ 4)
  | .fcvtBf16F32 _ _ mode _ => decide (mode.toNat ≤ 4)
  | .fcvtF32Bf16 _ _ mode _ => decide (mode.toNat ≤ 4)
  | .fclassF32 _ _ _ => true
  | .fclassF64 _ _ _ => true
  | .bcEqz _ _ _ => true
  | .bcNez _ _ _ => true
  | .bcLtz _ _ _ => true
  | .bcGez _ _ _ => true
  | .bcGtz _ _ _ => true
  | .bcLez _ _ _ => true
  | .bcFull _ _ => true
  | .bcEmpty _ _ => true
  | .j _ => true
  | .call _ => true
  | .jr _ _ => true
  | .callr _ _ => true
  | .loop _ stop _ => stop != 0#12
  | .fork _ _ _ => true
  | .join _ _ => true
  | .couple _ _ _ => true
  | .gangid _ => true
  | .ld _ _ _ p _ _ => p != 7#3
  | .ldx _ _ _ p _ _ => p != 7#3
  | .ldAcq _ _ _ p _ _ => p != 7#3
  | .st _ _ _ p _ _ => p != 7#3
  | .stRel _ _ _ p _ _ => p != 7#3
  | .vld _ _ p _ _ => p != 7#3
  | .vst _ _ p _ _ => p != 7#3
  | .vlds _ _ _ _ _ => true
  | .vgath _ _ _ sh _ _ => decide (sh.toNat ≤ 3)
  | .vscat _ _ _ sh _ _ => decide (sh.toNat ≤ 3)
  | .pref _ p _ _ => p != 7#3
  | .fenceRw p => decide (p.toNat ≤ 6)
  | .fenceAcq p => decide (p.toNat ≤ 6)
  | .fenceRel p => decide (p.toNat ≤ 6)
  | .fenceSs p => decide (p.toNat ≤ 6)
  | .amoAdd _ _ _ _ _ => true
  | .amoAnd _ _ _ _ _ => true
  | .amoOr _ _ _ _ _ => true
  | .amoXor _ _ _ _ _ => true
  | .amoMin _ _ _ _ _ => true
  | .amoMax _ _ _ _ _ => true
  | .amoSwp _ _ _ _ _ => true
  | .cas _ _ _ _ => true
  | .vaddI32 _ _ _ _ _ => true
  | .vsubI32 _ _ _ _ _ => true
  | .vand _ _ _ _ _ => true
  | .vor _ _ _ _ _ => true
  | .vxor _ _ _ _ _ => true
  | .vshl _ _ _ _ _ => true
  | .vshr _ _ _ _ _ => true
  | .vsra _ _ _ _ _ => true
  | .vaddF32 _ _ _ _ _ => true
  | .vsubF32 _ _ _ _ _ => true
  | .vmulF32 _ _ _ _ _ => true
  | .vminF32 _ _ _ _ _ => true
  | .vmaxF32 _ _ _ _ _ => true
  | .vmulI32 _ _ _ _ _ => true
  | .vminI32 _ _ _ _ _ => true
  | .vmaxI32 _ _ _ _ _ => true
  | .vfmaF32 _ _ _ _ => true
  | .vcmpEqI32 _ _ _ _ _ => true
  | .vcmpLtI32 _ _ _ _ _ => true
  | .vcmpLtuI32 _ _ _ _ _ => true
  | .vcmpEqF32 _ _ _ _ _ => true
  | .vcmpLtF32 _ _ _ _ _ => true
  | .vcmpLeF32 _ _ _ _ _ => true
  | .vcmpUnF32 _ _ _ _ _ => true
  | .vsel _ _ _ _ => true
  | .vredAddI32 _ _ _ => true
  | .vredAddF32 _ _ _ => true
  | .vredMaxF32 _ _ _ => true
  | .vredMinF32 _ _ _ => true
  | .vredMaxI32 _ _ _ => true
  | .vredMinI32 _ _ _ => true
  | .vredOr _ _ _ => true
  | .vredAnd _ _ _ => true
  | .vperm _ _ _ _ _ => true
  | .vbcast _ _ _ => true
  | .vins _ _ _ _ _ => true
  | .vext _ _ _ _ _ => true
  | .vrcpF32 _ _ _ => true
  | .vrsqF32 _ _ _ => true
  | .vexp2F32 _ _ _ => true
  | .vlog2F32 _ _ _ => true
  | .vpackBf16 _ _ _ _ _ => true
  | .vunpackBf16 _ _ _ _ _ => true
  | .vzmask _ _ _ => true
  | .qpush q _ _ ws _ => !(isChannel q && ws != 0#5)
  | .qpop q _ => !isChannel q
  | .qpopStatus _ _ _ => true
  | .qpopTrap q _ => !(isChannel q || q == 6#5 || q == 7#5)
  | .qpopTrapStatus q _ _ => !(isChannel q || q == 6#5 || q == 7#5)
  | .qtest _ _ => true
  | .evtTerm n _ _ => decide (n.toNat ≤ 15)
  | .evtCnt n _ _ _ _ => decide (n.toNat ≤ 15)
  | .evtArm n _ _ => decide (n.toNat ≤ 15)
  | .evtRead _ _ => true
  | .evtWait n => decide (n.toNat ≤ 15)
  | .sysGet _ aux => decide (aux.toNat ≤ 9)
  | .sysSet _ aux => aux == 1#6 || aux == 5#6 || aux == 6#6 || aux == 9#6
  | .time _ => true
  | .trap _ _ => true
  | .thrStart _ _ => true
  | .thrStop _ _ => true
  | .thrResume _ _ => true
  | .thrResumeNext _ _ => true
  | .thrSwap _ _ => true
  | .thrSwapIn _ _ => true
  | .nwrite _ _ => true
  | .arriveClu _ _ => true
  | .arriveDeck _ _ => true
  | .arriveDev _ _ => true
  | .wait _ => true
  | .wake _ _ => true
  | .nwaitNbr _ => true
  | .nwaitNtf _ => true
  | .sample _ => true
  | .launch _ _ => true
  | .launchWait _ _ => true
  | .launchQuery _ _ => true
  | .launchAge _ _ => true
  | .cancelLaunch _ _ => true
  | .cancelGraph _ _ => true
  | .cancelPhase _ _ => true
  | .cancelJob _ _ => true
  | .cancelGraphRewind _ _ => true
  | .round _ _ _ => true
  | .park _ _ => true
  | .memMap _ _ attr p => attr != 3#2 && p != 3#2
  | .memMapAlias _ _ attr p => attr != 3#2 && p != 3#2
  | .memMapRemote _ _ attr p => attr != 3#2 && p != 3#2
  | .memUnmap _ _ => true
  | .memAttr _ _ attr p => attr != 3#2 && p != 3#2
  | .qfence q => q != 0#3
  | .rwtLoad _ _ => true
  | .rwtCtl _ _ => true
  | .rwtCtlGet _ => true
  | .sbind _ _ _ => true
  | .snext _ _ => true
  | .snextStatus _ _ _ => true
  | .sdone _ _ => true
  | .amSend _ _ => true
  | .amHandler _ _ => true
  | .lnkStatus _ _ => true
  | .wrtPresent _ _ => true
  | .wrtPresentToken _ _ => true
  | .wrtPresentRevoke _ _ => true
  | .wrtSplit _ _ => true
  | .wrtDelegate _ _ => true
  | .wrtSurrender _ _ => true
  | .wrtQuery _ _ _ => true
  | .codeAdmit _ _ => true
  | .attest _ _ => true
  | .once w => onceAllowed w
  | .ret => true
  | .ends => true
  | .split => true
  | .nop => true
  | .thrStopSelf => true
  | .thrYield => true
  | .accZero => true
  | .accLoad => true
  | .accStore => true
  | .mmaE4m3E4m3 => true
  | .mmaE4m3E5m2 => true
  | .mmaE5m2E4m3 => true
  | .mmaEc8Ec8 => true
  | .mmaEc8E4m3 => true
  | .mmaBf16Bf16 => true
  | .mmaF32F32 => true
  | .mmaI8I8 => true
  | .mmaSpE4m3E4m3 => true
  | .mmaSpBf16Bf16 => true
  | .nestEw => true
  | .nestRed => true
  | .transpose => true
  | .scale => true
  | .enc8 => true
  | .dec8 => true
  | .compress => true
  | .teMark => true
  | .copy => true
  | .copy2d => true
  | .copy3d => true
  | .copyGather => true
  | .fill => true
  | .schedLoad => true
  | .rteList => true
  | .rteDispatch => true
  | .rteCombine => true
  | .collAllred => true
  | .collAllgath => true
  | .collRedscat => true
  | .collBcast => true
  | .instructionCompletion => true
  | .longLatencyArrival => true
  | .oncePostLanding => true
  | .storeVisible => true
  | .trapRecordEnqueue => true
  | .coupleTimeout => true
  | .strandSteal => true
  | .nwriteLanding => true
  | .wakeDelivery => true
  | .expiryNotice => true
  | .preemptSwapOut => true
  | .threadRestore => true
  | .divertedMessageReplay => true
  | .commandCompletionCopy => true
  | .commandCompletionTile => true
  | .commandCompletionRoute => true
  | .rewriteWindowEntry => true
  | .rewriteHeadRelease => true
  | .rewriteGroupCommit => true
  | .rewriteGroupReplay => true
  | .dispatcherDecision => true
  | .headAgeLimit => true
  | .endOfStreamAppend => true
  | .coreMove => true
  | .coreLend => true
  | .q7BacklogDelivery => true
  | .corrected => true
  | .deckFence => true
  | .injectionFire => true
  | .l2WriteBack => true
  | .amArrival => true
  | .amHandlerStart => true
  | .collectiveTimeout => true
  | .dataFlitReceive => true
  | .nakReceive => true
  | .replayTimeout => true
  | .keySwitchStart => true
  | .keySwitchMarkerReceive => true
  | .oldKeySlotClose => true
  | .idleFlitReceive => true
  | .timeFlitSend => true
  | .timeFlitReceive => true
  | .ptpMessageReceive => true
  | .arbiterClaim => true
  | .arbiterReplyTimeout => true
  | .spentEntryExpiry => true
  | .timeBeaconEthernet => true
  | .beaconTimeout => true
  | .highWaterUpdate => true
  | .contextExpiry => true
  | .tokenLapsed => true
  | .handoverHoldExpiry => true
  | .handoverRelease => true
  | .hotPatchDoorbell => true
  | .patchBusy => true
  | .applyDoorbell => true
  | .admissionDoorbellWarrant => true
  | .admissionDoorbellToken => true
  | .admissionDoorbellRevocation => true
  | .admissionDoorbellBeacon => true
  | .hostLaunchRecord => true
  | .hostPartitionRead => true
  | .hostPartitionWrite => true
  | .registerWrite => true
  | .sagePeriodicSample => true
  | .counterPageUpdate => true
  | .supplySagTrip => true
  | .coldReset => true
  | .warmReset => true
  | .arbiterReply => true
  | .remoteMappingRequest => true
  | .portTrainingEnd => true
  | .hostLaneFailure => true
  | .supplySagClear => true

end Sys2Proof
end

