-- ==== Sys2Proof/Decode.lean ====
section
/-! DEFINITION. The decoder of core instruction words, total on any bytes, and the encoder; the reader and writer of
engine command words. Layouts are those of R50 to R57, R180, R213, R214, R333 and R335. -/
namespace Sys2Proof

/-- Bits lo + len - 1 down to lo of a word. -/
def bits {n : Nat} (w : BitVec n) (lo len : Nat) : BitVec len := w.extractLsb' lo len

/-- Major 0x00 (R54). -/
def decode00 (w : BitVec 32) : Option Instr :=
  match (bits w 2 3).toNat with
  | 0 => some (.add (bits w 19 7) (bits w 12 7) (bits w 5 7) (bits w 1 1) (bits w 0 1))
  | 1 => some (.sub (bits w 19 7) (bits w 12 7) (bits w 5 7) (bits w 1 1) (bits w 0 1))
  | 2 => some (.and (bits w 19 7) (bits w 12 7) (bits w 5 7) (bits w 1 1) (bits w 0 1))
  | 3 => some (.or (bits w 19 7) (bits w 12 7) (bits w 5 7) (bits w 1 1) (bits w 0 1))
  | 4 => some (.xor (bits w 19 7) (bits w 12 7) (bits w 5 7) (bits w 1 1) (bits w 0 1))
  | 5 => some (.shl (bits w 19 7) (bits w 12 7) (bits w 5 7) (bits w 1 1) (bits w 0 1))
  | 6 => some (.shr (bits w 19 7) (bits w 12 7) (bits w 5 7) (bits w 1 1) (bits w 0 1))
  | 7 => some (.sra (bits w 19 7) (bits w 12 7) (bits w 5 7) (bits w 1 1) (bits w 0 1))
  | _ => none

/-- Major 0x01 (R54). -/
def decode01 (w : BitVec 32) : Option Instr :=
  match (bits w 2 3).toNat with
  | 0 => some (.mul (bits w 19 7) (bits w 12 7) (bits w 5 7) (bits w 1 1) (bits w 0 1))
  | 1 => some (.mulh (bits w 19 7) (bits w 12 7) (bits w 5 7) (bits w 1 1) (bits w 0 1))
  | 2 => some (.mulhu (bits w 19 7) (bits w 12 7) (bits w 5 7) (bits w 1 1) (bits w 0 1))
  | 3 => some (.div (bits w 19 7) (bits w 12 7) (bits w 5 7) (bits w 1 1) (bits w 0 1))
  | 4 => some (.divu (bits w 19 7) (bits w 12 7) (bits w 5 7) (bits w 1 1) (bits w 0 1))
  | 5 => some (.rem (bits w 19 7) (bits w 12 7) (bits w 5 7) (bits w 1 1) (bits w 0 1))
  | 6 => some (.remu (bits w 19 7) (bits w 12 7) (bits w 5 7) (bits w 1 1) (bits w 0 1))
  | _ => none

/-- Major 0x02 (R54). -/
def decode02 (w : BitVec 32) : Option Instr :=
  match (bits w 2 3).toNat with
  | 0 => some (.min (bits w 19 7) (bits w 12 7) (bits w 5 7) (bits w 1 1) (bits w 0 1))
  | 1 => some (.max (bits w 19 7) (bits w 12 7) (bits w 5 7) (bits w 1 1) (bits w 0 1))
  | 2 => some (.minu (bits w 19 7) (bits w 12 7) (bits w 5 7) (bits w 1 1) (bits w 0 1))
  | 3 => some (.maxu (bits w 19 7) (bits w 12 7) (bits w 5 7) (bits w 1 1) (bits w 0 1))
  | 4 => some (.slt (bits w 19 7) (bits w 12 7) (bits w 5 7) (bits w 1 1) (bits w 0 1))
  | 5 => some (.sltu (bits w 19 7) (bits w 12 7) (bits w 5 7) (bits w 1 1) (bits w 0 1))
  | 6 => some (.seq (bits w 19 7) (bits w 12 7) (bits w 5 7) (bits w 1 1) (bits w 0 1))
  | 7 => some (.sne (bits w 19 7) (bits w 12 7) (bits w 5 7) (bits w 1 1) (bits w 0 1))
  | _ => none

/-- Major 0x03 (R54). -/
def decode03 (w : BitVec 32) : Option Instr :=
  match (bits w 2 3).toNat with
  | 0 => if bits w 0 1 = 0x0#1 ∧ bits w 5 7 = 0x0#7 then some (.clz (bits w 19 7) (bits w 12 7) (bits w 1 1))
    else none
  | 1 => if bits w 0 1 = 0x0#1 ∧ bits w 5 7 = 0x0#7 then some (.popc (bits w 19 7) (bits w 12 7) (bits w 1 1))
    else none
  | 2 => if bits w 0 1 = 0x0#1 ∧ bits w 5 7 = 0x0#7 then some (.rev (bits w 19 7) (bits w 12 7) (bits w 1 1))
    else none
  | 3 => if bits w 0 1 = 0x0#1 ∧ bits w 5 7 = 0x0#7 then some (.sextB (bits w 19 7) (bits w 12 7) (bits w 1 1))
    else none
  | 4 => if bits w 0 1 = 0x0#1 ∧ bits w 5 7 = 0x0#7 then some (.sextH (bits w 19 7) (bits w 12 7) (bits w 1 1))
    else none
  | 5 => if bits w 0 1 = 0x0#1 ∧ bits w 5 7 = 0x0#7 then some (.sextW (bits w 19 7) (bits w 12 7) (bits w 1 1))
    else none
  | 6 => if bits w 0 1 = 0x0#1 ∧ bits w 5 7 = 0x0#7 then some (.zextW (bits w 19 7) (bits w 12 7) (bits w 1 1))
    else none
  | _ => none

/-- Major 0x04 (R54). -/
def decode04 (w : BitVec 32) : Option Instr :=
  some (.addi (bits w 19 7) (bits w 12 7) (bits w 11 1) (bits w 0 11))

/-- Major 0x05 (R54). -/
def decode05 (w : BitVec 32) : Option Instr :=
  some (.andi (bits w 19 7) (bits w 12 7) (bits w 11 1) (bits w 0 11))

/-- Major 0x06 (R54). -/
def decode06 (w : BitVec 32) : Option Instr :=
  some (.ori (bits w 19 7) (bits w 12 7) (bits w 11 1) (bits w 0 11))

/-- Major 0x07 (R54). -/
def decode07 (w : BitVec 32) : Option Instr :=
  some (.xori (bits w 19 7) (bits w 12 7) (bits w 11 1) (bits w 0 11))

/-- Major 0x08 (R54). -/
def decode08 (w : BitVec 32) : Option Instr :=
  if bits w 6 5 = 0x0#5 then some (.shli (bits w 19 7) (bits w 12 7) (bits w 11 1) (bits w 0 6))
  else none

/-- Major 0x09 (R54). -/
def decode09 (w : BitVec 32) : Option Instr :=
  if bits w 6 5 = 0x0#5 then some (.shri (bits w 19 7) (bits w 12 7) (bits w 11 1) (bits w 0 6))
  else none

/-- Major 0x0A (R54). -/
def decode0A (w : BitVec 32) : Option Instr :=
  if bits w 6 5 = 0x0#5 then some (.srai (bits w 19 7) (bits w 12 7) (bits w 11 1) (bits w 0 6))
  else none

/-- Major 0x0B (R54). -/
def decode0B (w : BitVec 32) : Option Instr :=
  some (.slti (bits w 19 7) (bits w 12 7) (bits w 11 1) (bits w 0 11))

/-- Major 0x0C (R54). -/
def decode0C (w : BitVec 32) : Option Instr :=
  some (.movi (bits w 19 7) (bits w 0 19))

/-- Major 0x0D (R54). -/
def decode0D (w : BitVec 32) : Option Instr :=
  some (.ldpc (bits w 19 7) (bits w 0 19))

/-- Major 0x0E (R54). -/
def decode0E (w : BitVec 32) : Option Instr :=
  some (.lea (bits w 19 7) (bits w 12 7) (bits w 5 7) (bits w 2 3) (bits w 1 1) (bits w 0 1))

/-- Major 0x0F (R54). -/
def decode0F (w : BitVec 32) : Option Instr :=
  some (.sel (bits w 19 7) (bits w 12 7) (bits w 5 7) (bits w 0 5))

/-- Major 0x10 (R54). -/
def decode10 (w : BitVec 32) : Option Instr :=
  match (bits w 2 3).toNat with
  | 0 => some (.faddF32 (bits w 19 7) (bits w 12 7) (bits w 5 7) (bits w 1 1) (bits w 0 1))
  | 1 => some (.fsubF32 (bits w 19 7) (bits w 12 7) (bits w 5 7) (bits w 1 1) (bits w 0 1))
  | 2 => some (.fmulF32 (bits w 19 7) (bits w 12 7) (bits w 5 7) (bits w 1 1) (bits w 0 1))
  | 3 => some (.fdivF32 (bits w 19 7) (bits w 12 7) (bits w 5 7) (bits w 1 1) (bits w 0 1))
  | 4 => some (.fminF32 (bits w 19 7) (bits w 12 7) (bits w 5 7) (bits w 1 1) (bits w 0 1))
  | 5 => some (.fmaxF32 (bits w 19 7) (bits w 12 7) (bits w 5 7) (bits w 1 1) (bits w 0 1))
  | 6 => if bits w 0 1 = 0x0#1 ∧ bits w 5 7 = 0x0#7 then some (.fsqrtF32 (bits w 19 7) (bits w 12 7) (bits w 1 1))
    else none
  | _ => none

/-- Major 0x11 (R54). -/
def decode11 (w : BitVec 32) : Option Instr :=
  match (bits w 2 3).toNat with
  | 0 => some (.faddF64 (bits w 19 7) (bits w 12 7) (bits w 5 7) (bits w 1 1) (bits w 0 1))
  | 1 => some (.fsubF64 (bits w 19 7) (bits w 12 7) (bits w 5 7) (bits w 1 1) (bits w 0 1))
  | 2 => some (.fmulF64 (bits w 19 7) (bits w 12 7) (bits w 5 7) (bits w 1 1) (bits w 0 1))
  | 3 => some (.fdivF64 (bits w 19 7) (bits w 12 7) (bits w 5 7) (bits w 1 1) (bits w 0 1))
  | 4 => some (.fminF64 (bits w 19 7) (bits w 12 7) (bits w 5 7) (bits w 1 1) (bits w 0 1))
  | 5 => some (.fmaxF64 (bits w 19 7) (bits w 12 7) (bits w 5 7) (bits w 1 1) (bits w 0 1))
  | 6 => if bits w 0 1 = 0x0#1 ∧ bits w 5 7 = 0x0#7 then some (.fsqrtF64 (bits w 19 7) (bits w 12 7) (bits w 1 1))
    else none
  | _ => none

/-- Major 0x12 (R54). -/
def decode12 (w : BitVec 32) : Option Instr :=
  some (.ffmaF32 (bits w 19 7) (bits w 12 7) (bits w 5 7) (bits w 0 5))

/-- Major 0x13 (R54). -/
def decode13 (w : BitVec 32) : Option Instr :=
  some (.ffmaF64 (bits w 19 7) (bits w 12 7) (bits w 5 7) (bits w 0 5))

/-- Major 0x14 (R54). -/
def decode14 (w : BitVec 32) : Option Instr :=
  match (bits w 2 3).toNat with
  | 0 => some (.feqF32 (bits w 19 7) (bits w 12 7) (bits w 5 7) (bits w 1 1) (bits w 0 1))
  | 1 => some (.fltF32 (bits w 19 7) (bits w 12 7) (bits w 5 7) (bits w 1 1) (bits w 0 1))
  | 2 => some (.fleF32 (bits w 19 7) (bits w 12 7) (bits w 5 7) (bits w 1 1) (bits w 0 1))
  | 3 => some (.funF32 (bits w 19 7) (bits w 12 7) (bits w 5 7) (bits w 1 1) (bits w 0 1))
  | 4 => some (.feqF64 (bits w 19 7) (bits w 12 7) (bits w 5 7) (bits w 1 1) (bits w 0 1))
  | 5 => some (.fltF64 (bits w 19 7) (bits w 12 7) (bits w 5 7) (bits w 1 1) (bits w 0 1))
  | 6 => some (.fleF64 (bits w 19 7) (bits w 12 7) (bits w 5 7) (bits w 1 1) (bits w 0 1))
  | 7 => some (.funF64 (bits w 19 7) (bits w 12 7) (bits w 5 7) (bits w 1 1) (bits w 0 1))
  | _ => none

/-- Major 0x15 (R54). -/
def decode15 (w : BitVec 32) : Option Instr :=
  match (bits w 5 7).toNat with
  | 0 => if bits w 0 1 = 0x0#1 then some (.fcvtF64F32 (bits w 19 7) (bits w 12 7) (bits w 2 3) (bits w 1 1))
    else none
  | 1 => if bits w 0 1 = 0x0#1 then some (.fcvtF32F64 (bits w 19 7) (bits w 12 7) (bits w 2 3) (bits w 1 1))
    else none
  | 2 => if bits w 0 1 = 0x0#1 then some (.fcvtI64F32 (bits w 19 7) (bits w 12 7) (bits w 2 3) (bits w 1 1))
    else none
  | 3 => if bits w 0 1 = 0x0#1 then some (.fcvtU64F32 (bits w 19 7) (bits w 12 7) (bits w 2 3) (bits w 1 1))
    else none
  | 4 => if bits w 0 1 = 0x0#1 then some (.fcvtI64F64 (bits w 19 7) (bits w 12 7) (bits w 2 3) (bits w 1 1))
    else none
  | 5 => if bits w 0 1 = 0x0#1 then some (.fcvtU64F64 (bits w 19 7) (bits w 12 7) (bits w 2 3) (bits w 1 1))
    else none
  | 6 => if bits w 0 1 = 0x0#1 then some (.fcvtF32I64 (bits w 19 7) (bits w 12 7) (bits w 2 3) (bits w 1 1))
    else none
  | 7 => if bits w 0 1 = 0x0#1 then some (.fcvtF32U64 (bits w 19 7) (bits w 12 7) (bits w 2 3) (bits w 1 1))
    else none
  | 8 => if bits w 0 1 = 0x0#1 then some (.fcvtF64I64 (bits w 19 7) (bits w 12 7) (bits w 2 3) (bits w 1 1))
    else none
  | 9 => if bits w 0 1 = 0x0#1 then some (.fcvtF64U64 (bits w 19 7) (bits w 12 7) (bits w 2 3) (bits w 1 1))
    else none
  | 10 => if bits w 0 1 = 0x0#1 then some (.fcvtI32F32 (bits w 19 7) (bits w 12 7) (bits w 2 3) (bits w 1 1))
    else none
  | 11 => if bits w 0 1 = 0x0#1 then some (.fcvtI32F64 (bits w 19 7) (bits w 12 7) (bits w 2 3) (bits w 1 1))
    else none
  | 12 => if bits w 0 1 = 0x0#1 then some (.fcvtBf16F32 (bits w 19 7) (bits w 12 7) (bits w 2 3) (bits w 1 1))
    else none
  | 13 => if bits w 0 1 = 0x0#1 then some (.fcvtF32Bf16 (bits w 19 7) (bits w 12 7) (bits w 2 3) (bits w 1 1))
    else none
  | _ => none

/-- Major 0x16 (R54). -/
def decode16 (w : BitVec 32) : Option Instr :=
  match (bits w 2 3).toNat with
  | 0 => if bits w 0 1 = 0x0#1 ∧ bits w 5 7 = 0x0#7 then some (.fclassF32 (bits w 19 7) (bits w 12 7) (bits w 1 1))
    else none
  | 1 => if bits w 0 1 = 0x0#1 ∧ bits w 5 7 = 0x0#7 then some (.fclassF64 (bits w 19 7) (bits w 12 7) (bits w 1 1))
    else none
  | _ => none

/-- Major 0x17 (R54). -/
def decode17 (w : BitVec 32) : Option Instr :=
  match (bits w 15 3).toNat with
  | 0 => some (.bcEqz (bits w 19 7) (bits w 18 1) (bits w 0 15))
  | 1 => some (.bcNez (bits w 19 7) (bits w 18 1) (bits w 0 15))
  | 2 => some (.bcLtz (bits w 19 7) (bits w 18 1) (bits w 0 15))
  | 3 => some (.bcGez (bits w 19 7) (bits w 18 1) (bits w 0 15))
  | 4 => some (.bcGtz (bits w 19 7) (bits w 18 1) (bits w 0 15))
  | 5 => some (.bcLez (bits w 19 7) (bits w 18 1) (bits w 0 15))
  | 6 => if bits w 18 1 = 0x0#1 then some (.bcFull (bits w 19 7) (bits w 0 15))
    else none
  | 7 => if bits w 18 1 = 0x0#1 then some (.bcEmpty (bits w 19 7) (bits w 0 15))
    else none
  | _ => none

/-- Major 0x18 (R54). -/
def decode18 (w : BitVec 32) : Option Instr :=
  some (.j (bits w 0 26))

/-- Major 0x19 (R54). -/
def decode19 (w : BitVec 32) : Option Instr :=
  some (.call (bits w 0 26))

/-- Major 0x1A (R54). -/
def decode1A (w : BitVec 32) : Option Instr :=
  match (bits w 2 3).toNat with
  | 0 => if bits w 0 1 = 0x0#1 ∧ bits w 5 7 = 0x0#7 ∧ bits w 19 7 = 0x0#7 then some (.jr (bits w 12 7) (bits w 1 1))
    else none
  | 1 => if bits w 0 1 = 0x0#1 ∧ bits w 5 7 = 0x0#7 ∧ bits w 19 7 = 0x0#7 then some (.callr (bits w 12 7) (bits w 1 1))
    else none
  | 2 => if bits w 0 2 = 0x0#2 ∧ bits w 5 21 = 0x0#21 then some (.ret)
    else none
  | _ => none

/-- Major 0x1B (R54). -/
def decode1B (w : BitVec 32) : Option Instr :=
  if bits w 0 6 = 0x0#6 then some (.loop (bits w 19 7) (bits w 7 12) (bits w 6 1))
  else none

/-- Major 0x1C (R54). -/
def decode1C (w : BitVec 32) : Option Instr :=
  if bits w 15 3 = 0x0#3 then some (.fork (bits w 19 7) (bits w 18 1) (bits w 0 15))
  else none

/-- Major 0x1D (R54). -/
def decode1D (w : BitVec 32) : Option Instr :=
  match (bits w 2 3).toNat with
  | 0 => if bits w 0 1 = 0x0#1 ∧ bits w 5 7 = 0x0#7 ∧ bits w 19 7 = 0x0#7 then some (.join (bits w 12 7) (bits w 1 1))
    else none
  | 1 => if bits w 0 2 = 0x0#2 ∧ bits w 5 21 = 0x0#21 then some (.ends)
    else none
  | _ => none

/-- Major 0x1E (R54). -/
def decode1E (w : BitVec 32) : Option Instr :=
  match (bits w 2 3).toNat with
  | 0 => if bits w 0 1 = 0x0#1 ∧ bits w 5 7 = 0x0#7 then some (.couple (bits w 19 7) (bits w 12 7) (bits w 1 1))
    else none
  | 1 => if bits w 0 2 = 0x0#2 ∧ bits w 5 21 = 0x0#21 then some (.split)
    else none
  | 2 => if bits w 0 2 = 0x0#2 ∧ bits w 5 14 = 0x0#14 then some (.gangid (bits w 19 7))
    else none
  | _ => none

/-- Major 0x20 (R54). -/
def decode20 (w : BitVec 32) : Option Instr :=
  some (.ld (bits w 19 7) (bits w 12 7) (bits w 10 2) (bits w 7 3) (bits w 6 1) (bits w 0 6))

/-- Major 0x21 (R54). -/
def decode21 (w : BitVec 32) : Option Instr :=
  some (.ldx (bits w 19 7) (bits w 12 7) (bits w 10 2) (bits w 7 3) (bits w 6 1) (bits w 0 6))

/-- Major 0x22 (R54). -/
def decode22 (w : BitVec 32) : Option Instr :=
  some (.ldAcq (bits w 19 7) (bits w 12 7) (bits w 10 2) (bits w 7 3) (bits w 6 1) (bits w 0 6))

/-- Major 0x23 (R54). -/
def decode23 (w : BitVec 32) : Option Instr :=
  some (.st (bits w 19 7) (bits w 12 7) (bits w 10 2) (bits w 7 3) (bits w 6 1) (bits w 0 6))

/-- Major 0x24 (R54). -/
def decode24 (w : BitVec 32) : Option Instr :=
  some (.stRel (bits w 19 7) (bits w 12 7) (bits w 10 2) (bits w 7 3) (bits w 6 1) (bits w 0 6))

/-- Major 0x25 (R54). -/
def decode25 (w : BitVec 32) : Option Instr :=
  if bits w 10 2 = 0x0#2 then some (.vld (bits w 19 7) (bits w 12 7) (bits w 7 3) (bits w 6 1) (bits w 0 6))
  else none

/-- Major 0x26 (R54). -/
def decode26 (w : BitVec 32) : Option Instr :=
  if bits w 10 2 = 0x0#2 then some (.vst (bits w 19 7) (bits w 12 7) (bits w 7 3) (bits w 6 1) (bits w 0 6))
  else none

/-- Major 0x27 (R54). -/
def decode27 (w : BitVec 32) : Option Instr :=
  if bits w 2 3 = 0x0#3 then some (.vlds (bits w 19 7) (bits w 12 7) (bits w 5 7) (bits w 1 1) (bits w 0 1))
  else none

/-- Major 0x28 (R54). -/
def decode28 (w : BitVec 32) : Option Instr :=
  some (.vgath (bits w 19 7) (bits w 12 7) (bits w 5 7) (bits w 2 3) (bits w 1 1) (bits w 0 1))

/-- Major 0x29 (R54). -/
def decode29 (w : BitVec 32) : Option Instr :=
  some (.vscat (bits w 19 7) (bits w 12 7) (bits w 5 7) (bits w 2 3) (bits w 1 1) (bits w 0 1))

/-- Major 0x2A (R54). -/
def decode2A (w : BitVec 32) : Option Instr :=
  if bits w 10 2 = 0x0#2 ∧ bits w 19 7 = 0x0#7 then some (.pref (bits w 12 7) (bits w 7 3) (bits w 6 1) (bits w 0 6))
  else none

/-- Major 0x2B (R54). -/
def decode2B (w : BitVec 32) : Option Instr :=
  match (bits w 2 3).toNat with
  | 0 => if bits w 0 2 = 0x0#2 ∧ bits w 12 14 = 0x0#14 then some (.fenceRw (bits w 5 7))
    else none
  | 1 => if bits w 0 2 = 0x0#2 ∧ bits w 12 14 = 0x0#14 then some (.fenceAcq (bits w 5 7))
    else none
  | 2 => if bits w 0 2 = 0x0#2 ∧ bits w 12 14 = 0x0#14 then some (.fenceRel (bits w 5 7))
    else none
  | 3 => if bits w 0 2 = 0x0#2 ∧ bits w 12 14 = 0x0#14 then some (.fenceSs (bits w 5 7))
    else none
  | _ => none

/-- Major 0x2C (R54). -/
def decode2C (w : BitVec 32) : Option Instr :=
  match (bits w 2 3).toNat with
  | 0 => some (.amoAdd (bits w 19 7) (bits w 12 7) (bits w 5 7) (bits w 1 1) (bits w 0 1))
  | 1 => some (.amoAnd (bits w 19 7) (bits w 12 7) (bits w 5 7) (bits w 1 1) (bits w 0 1))
  | 2 => some (.amoOr (bits w 19 7) (bits w 12 7) (bits w 5 7) (bits w 1 1) (bits w 0 1))
  | 3 => some (.amoXor (bits w 19 7) (bits w 12 7) (bits w 5 7) (bits w 1 1) (bits w 0 1))
  | 4 => some (.amoMin (bits w 19 7) (bits w 12 7) (bits w 5 7) (bits w 1 1) (bits w 0 1))
  | 5 => some (.amoMax (bits w 19 7) (bits w 12 7) (bits w 5 7) (bits w 1 1) (bits w 0 1))
  | 6 => some (.amoSwp (bits w 19 7) (bits w 12 7) (bits w 5 7) (bits w 1 1) (bits w 0 1))
  | _ => none

/-- Major 0x2D (R54). -/
def decode2D (w : BitVec 32) : Option Instr :=
  some (.cas (bits w 19 7) (bits w 12 7) (bits w 5 7) (bits w 0 5))

/-- Major 0x30 (R54). -/
def decode30 (w : BitVec 32) : Option Instr :=
  match (bits w 2 3).toNat with
  | 0 => some (.vaddI32 (bits w 19 7) (bits w 12 7) (bits w 5 7) (bits w 1 1) (bits w 0 1))
  | 1 => some (.vsubI32 (bits w 19 7) (bits w 12 7) (bits w 5 7) (bits w 1 1) (bits w 0 1))
  | 2 => some (.vand (bits w 19 7) (bits w 12 7) (bits w 5 7) (bits w 1 1) (bits w 0 1))
  | 3 => some (.vor (bits w 19 7) (bits w 12 7) (bits w 5 7) (bits w 1 1) (bits w 0 1))
  | 4 => some (.vxor (bits w 19 7) (bits w 12 7) (bits w 5 7) (bits w 1 1) (bits w 0 1))
  | 5 => some (.vshl (bits w 19 7) (bits w 12 7) (bits w 5 7) (bits w 1 1) (bits w 0 1))
  | 6 => some (.vshr (bits w 19 7) (bits w 12 7) (bits w 5 7) (bits w 1 1) (bits w 0 1))
  | 7 => some (.vsra (bits w 19 7) (bits w 12 7) (bits w 5 7) (bits w 1 1) (bits w 0 1))
  | _ => none

/-- Major 0x31 (R54). -/
def decode31 (w : BitVec 32) : Option Instr :=
  match (bits w 2 3).toNat with
  | 0 => some (.vaddF32 (bits w 19 7) (bits w 12 7) (bits w 5 7) (bits w 1 1) (bits w 0 1))
  | 1 => some (.vsubF32 (bits w 19 7) (bits w 12 7) (bits w 5 7) (bits w 1 1) (bits w 0 1))
  | 2 => some (.vmulF32 (bits w 19 7) (bits w 12 7) (bits w 5 7) (bits w 1 1) (bits w 0 1))
  | 3 => some (.vminF32 (bits w 19 7) (bits w 12 7) (bits w 5 7) (bits w 1 1) (bits w 0 1))
  | 4 => some (.vmaxF32 (bits w 19 7) (bits w 12 7) (bits w 5 7) (bits w 1 1) (bits w 0 1))
  | 5 => some (.vmulI32 (bits w 19 7) (bits w 12 7) (bits w 5 7) (bits w 1 1) (bits w 0 1))
  | 6 => some (.vminI32 (bits w 19 7) (bits w 12 7) (bits w 5 7) (bits w 1 1) (bits w 0 1))
  | 7 => some (.vmaxI32 (bits w 19 7) (bits w 12 7) (bits w 5 7) (bits w 1 1) (bits w 0 1))
  | _ => none

/-- Major 0x32 (R54). -/
def decode32 (w : BitVec 32) : Option Instr :=
  some (.vfmaF32 (bits w 19 7) (bits w 12 7) (bits w 5 7) (bits w 0 5))

/-- Major 0x33 (R54). -/
def decode33 (w : BitVec 32) : Option Instr :=
  match (bits w 2 3).toNat with
  | 0 => some (.vcmpEqI32 (bits w 19 7) (bits w 12 7) (bits w 5 7) (bits w 1 1) (bits w 0 1))
  | 1 => some (.vcmpLtI32 (bits w 19 7) (bits w 12 7) (bits w 5 7) (bits w 1 1) (bits w 0 1))
  | 2 => some (.vcmpLtuI32 (bits w 19 7) (bits w 12 7) (bits w 5 7) (bits w 1 1) (bits w 0 1))
  | 3 => some (.vcmpEqF32 (bits w 19 7) (bits w 12 7) (bits w 5 7) (bits w 1 1) (bits w 0 1))
  | 4 => some (.vcmpLtF32 (bits w 19 7) (bits w 12 7) (bits w 5 7) (bits w 1 1) (bits w 0 1))
  | 5 => some (.vcmpLeF32 (bits w 19 7) (bits w 12 7) (bits w 5 7) (bits w 1 1) (bits w 0 1))
  | 6 => some (.vcmpUnF32 (bits w 19 7) (bits w 12 7) (bits w 5 7) (bits w 1 1) (bits w 0 1))
  | _ => none

/-- Major 0x34 (R54). -/
def decode34 (w : BitVec 32) : Option Instr :=
  some (.vsel (bits w 19 7) (bits w 12 7) (bits w 5 7) (bits w 0 5))

/-- Major 0x35 (R54). -/
def decode35 (w : BitVec 32) : Option Instr :=
  match (bits w 2 3).toNat with
  | 0 => if bits w 0 1 = 0x0#1 ∧ bits w 5 7 = 0x0#7 then some (.vredAddI32 (bits w 19 7) (bits w 12 7) (bits w 1 1))
    else none
  | 1 => if bits w 0 1 = 0x0#1 ∧ bits w 5 7 = 0x0#7 then some (.vredAddF32 (bits w 19 7) (bits w 12 7) (bits w 1 1))
    else none
  | 2 => if bits w 0 1 = 0x0#1 ∧ bits w 5 7 = 0x0#7 then some (.vredMaxF32 (bits w 19 7) (bits w 12 7) (bits w 1 1))
    else none
  | 3 => if bits w 0 1 = 0x0#1 ∧ bits w 5 7 = 0x0#7 then some (.vredMinF32 (bits w 19 7) (bits w 12 7) (bits w 1 1))
    else none
  | 4 => if bits w 0 1 = 0x0#1 ∧ bits w 5 7 = 0x0#7 then some (.vredMaxI32 (bits w 19 7) (bits w 12 7) (bits w 1 1))
    else none
  | 5 => if bits w 0 1 = 0x0#1 ∧ bits w 5 7 = 0x0#7 then some (.vredMinI32 (bits w 19 7) (bits w 12 7) (bits w 1 1))
    else none
  | 6 => if bits w 0 1 = 0x0#1 ∧ bits w 5 7 = 0x0#7 then some (.vredOr (bits w 19 7) (bits w 12 7) (bits w 1 1))
    else none
  | 7 => if bits w 0 1 = 0x0#1 ∧ bits w 5 7 = 0x0#7 then some (.vredAnd (bits w 19 7) (bits w 12 7) (bits w 1 1))
    else none
  | _ => none

/-- Major 0x36 (R54). -/
def decode36 (w : BitVec 32) : Option Instr :=
  match (bits w 2 3).toNat with
  | 0 => some (.vperm (bits w 19 7) (bits w 12 7) (bits w 5 7) (bits w 1 1) (bits w 0 1))
  | 1 => if bits w 0 1 = 0x0#1 ∧ bits w 5 7 = 0x0#7 then some (.vbcast (bits w 19 7) (bits w 12 7) (bits w 1 1))
    else none
  | 2 => some (.vins (bits w 19 7) (bits w 12 7) (bits w 5 7) (bits w 1 1) (bits w 0 1))
  | 3 => some (.vext (bits w 19 7) (bits w 12 7) (bits w 5 7) (bits w 1 1) (bits w 0 1))
  | _ => none

/-- Major 0x37 (R54). -/
def decode37 (w : BitVec 32) : Option Instr :=
  match (bits w 2 3).toNat with
  | 0 => if bits w 0 1 = 0x0#1 ∧ bits w 5 7 = 0x0#7 then some (.vrcpF32 (bits w 19 7) (bits w 12 7) (bits w 1 1))
    else none
  | 1 => if bits w 0 1 = 0x0#1 ∧ bits w 5 7 = 0x0#7 then some (.vrsqF32 (bits w 19 7) (bits w 12 7) (bits w 1 1))
    else none
  | 2 => if bits w 0 1 = 0x0#1 ∧ bits w 5 7 = 0x0#7 then some (.vexp2F32 (bits w 19 7) (bits w 12 7) (bits w 1 1))
    else none
  | 3 => if bits w 0 1 = 0x0#1 ∧ bits w 5 7 = 0x0#7 then some (.vlog2F32 (bits w 19 7) (bits w 12 7) (bits w 1 1))
    else none
  | 4 => some (.vpackBf16 (bits w 19 7) (bits w 12 7) (bits w 5 7) (bits w 1 1) (bits w 0 1))
  | 5 => some (.vunpackBf16 (bits w 19 7) (bits w 12 7) (bits w 5 7) (bits w 1 1) (bits w 0 1))
  | 6 => if bits w 0 1 = 0x0#1 ∧ bits w 5 7 = 0x0#7 then some (.vzmask (bits w 19 7) (bits w 12 7) (bits w 1 1))
    else none
  | _ => none

/-- Major 0x38 (R54). -/
def decode38 (w : BitVec 32) : Option Instr :=
  if bits w 1 1 = 0x0#1 then some (.qpush (bits w 21 5) (bits w 14 7) (bits w 7 7) (bits w 2 5) (bits w 0 1))
  else none

/-- Major 0x39 (R54). -/
def decode39 (w : BitVec 32) : Option Instr :=
  match (bits w 2 5).toNat with
  | 0 => if bits w 0 2 = 0x0#2 ∧ bits w 7 7 = 0x0#7 then some (.qpop (bits w 21 5) (bits w 14 7))
    else none
  | 1 => if bits w 0 2 = 0x0#2 then some (.qpopStatus (bits w 21 5) (bits w 14 7) (bits w 7 7))
    else none
  | 2 => if bits w 0 2 = 0x0#2 ∧ bits w 7 7 = 0x0#7 then some (.qpopTrap (bits w 21 5) (bits w 14 7))
    else none
  | 3 => if bits w 0 2 = 0x0#2 then some (.qpopTrapStatus (bits w 21 5) (bits w 14 7) (bits w 7 7))
    else none
  | _ => none

/-- Major 0x3A (R54). -/
def decode3A (w : BitVec 32) : Option Instr :=
  if bits w 0 14 = 0x0#14 then some (.qtest (bits w 21 5) (bits w 14 7))
  else none

/-- Major 0x3C (R54). -/
def decode3C (w : BitVec 32) : Option Instr :=
  match (bits w 2 5).toNat with
  | 0 => if bits w 0 1 = 0x0#1 ∧ bits w 7 7 = 0x0#7 then some (.evtTerm (bits w 21 5) (bits w 14 7) (bits w 1 1))
    else none
  | 1 => some (.evtCnt (bits w 21 5) (bits w 14 7) (bits w 7 7) (bits w 1 1) (bits w 0 1))
  | 2 => if bits w 0 1 = 0x0#1 ∧ bits w 7 7 = 0x0#7 then some (.evtArm (bits w 21 5) (bits w 14 7) (bits w 1 1))
    else none
  | 3 => if bits w 0 2 = 0x0#2 ∧ bits w 7 7 = 0x0#7 then some (.evtRead (bits w 21 5) (bits w 14 7))
    else none
  | 4 => if bits w 0 2 = 0x0#2 ∧ bits w 7 14 = 0x0#14 then some (.evtWait (bits w 21 5))
    else none
  | _ => none

/-- Major 0x3D (R54, R55). -/
def decode3D (w : BitVec 32) : Option Instr :=
  match (bits w 6 6).toNat with
  | 0 => if bits w 0 6 = 0x0#6 ∧ bits w 12 14 = 0x0#14 then some (.nop)
    else none
  | 1 => if bits w 12 7 = 0x0#7 then some (.sysGet (bits w 19 7) (bits w 0 6))
    else none
  | 2 => if bits w 19 7 = 0x0#7 then some (.sysSet (bits w 12 7) (bits w 0 6))
    else none
  | 3 => if bits w 0 6 = 0x0#6 ∧ bits w 12 7 = 0x0#7 then some (.time (bits w 19 7))
    else none
  | 4 => if bits w 19 7 = 0x0#7 then some (.trap (bits w 12 7) (bits w 0 6))
    else none
  | 5 => if bits w 0 6 = 0x0#6 then some (.thrStart (bits w 19 7) (bits w 12 7))
    else none
  | 6 => if bits w 0 6 = 0x0#6 then some (.thrStop (bits w 19 7) (bits w 12 7))
    else if bits w 0 6 = 0x1#6 ∧ bits w 12 14 = 0x0#14 then some (.thrStopSelf)
    else none
  | 7 => if bits w 0 6 = 0x0#6 ∧ bits w 12 14 = 0x0#14 then some (.thrYield)
    else none
  | 8 => if bits w 0 6 = 0x0#6 then some (.thrResume (bits w 19 7) (bits w 12 7))
    else if bits w 0 6 = 0x1#6 then some (.thrResumeNext (bits w 19 7) (bits w 12 7))
    else none
  | 9 => if bits w 0 6 = 0x0#6 then some (.thrSwap (bits w 19 7) (bits w 12 7))
    else if bits w 0 6 = 0x1#6 then some (.thrSwapIn (bits w 19 7) (bits w 12 7))
    else none
  | 10 => if bits w 0 6 = 0x0#6 then some (.nwrite (bits w 19 7) (bits w 12 7))
    else none
  | 11 => if bits w 0 6 = 0x3#6 then some (.arriveClu (bits w 19 7) (bits w 12 7))
    else if bits w 0 6 = 0x4#6 then some (.arriveDeck (bits w 19 7) (bits w 12 7))
    else if bits w 0 6 = 0x5#6 then some (.arriveDev (bits w 19 7) (bits w 12 7))
    else none
  | 12 => if bits w 0 6 = 0x0#6 ∧ bits w 19 7 = 0x0#7 then some (.wait (bits w 12 7))
    else none
  | 13 => if bits w 0 6 = 0x0#6 then some (.wake (bits w 19 7) (bits w 12 7))
    else none
  | 14 => if bits w 0 6 = 0x0#6 ∧ bits w 12 7 = 0x0#7 then some (.nwaitNbr (bits w 19 7))
    else if bits w 0 6 = 0x1#6 ∧ bits w 12 7 = 0x0#7 then some (.nwaitNtf (bits w 19 7))
    else none
  | 15 => if bits w 0 6 = 0x0#6 ∧ bits w 19 7 = 0x0#7 then some (.sample (bits w 12 7))
    else none
  | 16 => if bits w 0 6 = 0x0#6 then some (.launch (bits w 19 7) (bits w 12 7))
    else if bits w 0 6 = 0x1#6 then some (.launchWait (bits w 19 7) (bits w 12 7))
    else if bits w 0 6 = 0x2#6 then some (.launchQuery (bits w 19 7) (bits w 12 7))
    else if bits w 0 6 = 0x3#6 then some (.launchAge (bits w 19 7) (bits w 12 7))
    else none
  | 17 => if bits w 0 6 = 0x0#6 then some (.cancelLaunch (bits w 19 7) (bits w 12 7))
    else if bits w 0 6 = 0x1#6 then some (.cancelGraph (bits w 19 7) (bits w 12 7))
    else if bits w 0 6 = 0x2#6 then some (.cancelPhase (bits w 19 7) (bits w 12 7))
    else if bits w 0 6 = 0x3#6 then some (.cancelJob (bits w 19 7) (bits w 12 7))
    else if bits w 0 6 = 0x5#6 then some (.cancelGraphRewind (bits w 19 7) (bits w 12 7))
    else none
  | 18 => some (.round (bits w 19 7) (bits w 12 7) (bits w 0 6))
  | 19 => if bits w 0 6 = 0x0#6 then some (.park (bits w 19 7) (bits w 12 7))
    else none
  | 20 => if bits w 4 2 = 0x0#2 then some (.memMap (bits w 19 7) (bits w 12 7) (bits w 2 2) (bits w 0 2))
    else if bits w 4 2 = 0x1#2 then some (.memMapAlias (bits w 19 7) (bits w 12 7) (bits w 2 2) (bits w 0 2))
    else if bits w 4 2 = 0x2#2 then some (.memMapRemote (bits w 19 7) (bits w 12 7) (bits w 2 2) (bits w 0 2))
    else none
  | 21 => if bits w 0 6 = 0x0#6 then some (.memUnmap (bits w 19 7) (bits w 12 7))
    else none
  | 22 => if bits w 4 2 = 0x0#2 then some (.memAttr (bits w 19 7) (bits w 12 7) (bits w 2 2) (bits w 0 2))
    else none
  | 23 => if bits w 3 3 = 0x0#3 ∧ bits w 12 14 = 0x0#14 then some (.qfence (bits w 0 3))
    else none
  | 24 => if bits w 0 6 = 0x0#6 then some (.rwtLoad (bits w 19 7) (bits w 12 7))
    else none
  | 25 => if bits w 0 6 = 0x0#6 then some (.rwtCtl (bits w 19 7) (bits w 12 7))
    else if bits w 0 6 = 0x1#6 ∧ bits w 12 7 = 0x0#7 then some (.rwtCtlGet (bits w 19 7))
    else none
  | 26 => if bits w 3 3 = 0x0#3 then some (.sbind (bits w 19 7) (bits w 12 7) (bits w 0 3))
    else none
  | 27 => if bits w 3 3 = 0x0#3 ∧ bits w 12 7 = 0x0#7 then some (.snext (bits w 19 7) (bits w 0 3))
    else if bits w 3 3 = 0x1#3 then some (.snextStatus (bits w 19 7) (bits w 12 7) (bits w 0 3))
    else none
  | 28 => if bits w 3 3 = 0x0#3 ∧ bits w 12 7 = 0x0#7 then some (.sdone (bits w 19 7) (bits w 0 3))
    else none
  | 29 => if bits w 0 6 = 0x0#6 then some (.amSend (bits w 19 7) (bits w 12 7))
    else none
  | 30 => if bits w 0 6 = 0x0#6 then some (.amHandler (bits w 19 7) (bits w 12 7))
    else none
  | 31 => if bits w 0 6 = 0x0#6 then some (.lnkStatus (bits w 19 7) (bits w 12 7))
    else none
  | 32 => if bits w 0 6 = 0x0#6 then some (.wrtPresent (bits w 19 7) (bits w 12 7))
    else if bits w 0 6 = 0x1#6 then some (.wrtPresentToken (bits w 19 7) (bits w 12 7))
    else if bits w 0 6 = 0x2#6 then some (.wrtPresentRevoke (bits w 19 7) (bits w 12 7))
    else none
  | 33 => if bits w 0 6 = 0x0#6 then some (.wrtSplit (bits w 19 7) (bits w 12 7))
    else none
  | 34 => if bits w 0 6 = 0x0#6 then some (.wrtDelegate (bits w 19 7) (bits w 12 7))
    else none
  | 35 => if bits w 0 6 = 0x0#6 then some (.wrtSurrender (bits w 19 7) (bits w 12 7))
    else none
  | 36 => if bits w 4 2 = 0x0#2 then some (.wrtQuery (bits w 19 7) (bits w 12 7) (bits w 0 4))
    else none
  | 37 => if bits w 0 6 = 0x0#6 then some (.codeAdmit (bits w 19 7) (bits w 12 7))
    else none
  | 38 => if bits w 0 6 = 0x0#6 then some (.attest (bits w 19 7) (bits w 12 7))
    else none
  | _ => none

/-- The layouts alone, before the refusals of `wellFormed`. -/
def decodeLayout (w : BitVec 32) : Option Instr :=
  match (bits w 26 6).toNat with
  | 0 => decode00 w
  | 1 => decode01 w
  | 2 => decode02 w
  | 3 => decode03 w
  | 4 => decode04 w
  | 5 => decode05 w
  | 6 => decode06 w
  | 7 => decode07 w
  | 8 => decode08 w
  | 9 => decode09 w
  | 10 => decode0A w
  | 11 => decode0B w
  | 12 => decode0C w
  | 13 => decode0D w
  | 14 => decode0E w
  | 15 => decode0F w
  | 16 => decode10 w
  | 17 => decode11 w
  | 18 => decode12 w
  | 19 => decode13 w
  | 20 => decode14 w
  | 21 => decode15 w
  | 22 => decode16 w
  | 23 => decode17 w
  | 24 => decode18 w
  | 25 => decode19 w
  | 26 => decode1A w
  | 27 => decode1B w
  | 28 => decode1C w
  | 29 => decode1D w
  | 30 => decode1E w
  | 32 => decode20 w
  | 33 => decode21 w
  | 34 => decode22 w
  | 35 => decode23 w
  | 36 => decode24 w
  | 37 => decode25 w
  | 38 => decode26 w
  | 39 => decode27 w
  | 40 => decode28 w
  | 41 => decode29 w
  | 42 => decode2A w
  | 43 => decode2B w
  | 44 => decode2C w
  | 45 => decode2D w
  | 48 => decode30 w
  | 49 => decode31 w
  | 50 => decode32 w
  | 51 => decode33 w
  | 52 => decode34 w
  | 53 => decode35 w
  | 54 => decode36 w
  | 55 => decode37 w
  | 56 => decode38 w
  | 57 => decode39 w
  | 58 => decode3A w
  | 60 => decode3C w
  | 61 => decode3D w
  | _ => none

/-- The instruction of one word (R48 to R56); `none` traps ILLEGAL_INSTRUCTION. -/
def decodeWord (w : BitVec 32) : Option Instr := (decodeLayout w).filter wellFormed

/-- The ONCE prefix (R50). -/
def oncePrefix : BitVec 32 := 0xFC000000#32

/-- ONCE with the word that follows it (R57, R100). -/
def decodePair (w : BitVec 32) : Option Instr :=
  if onceAllowed w && (decodeWord w).isSome then some (.once w) else none

/-- A little-endian 32-bit word from the front of a byte list (R10, R48). -/
def takeWord : List Byte → Option (BitVec 32 × List Byte)
  | b0 :: b1 :: b2 :: b3 :: rest => some (b3 ++ b2 ++ b1 ++ b0, rest)
  | _ => none

/-- The instruction at the front of a byte list, with the rest of the list; `none` is a refusal: too few bytes, or
bytes that trap ILLEGAL_INSTRUCTION. -/
def decode (bs : List Byte) : Option (Instr × List Byte) :=
  match takeWord bs with
  | none => none
  | some (w, rest) =>
    if w = oncePrefix then
      match takeWord rest with
      | none => none
      | some (v, rest') => (decodePair v).map fun i => (i, rest')
    else (decodeWord w).map fun i => (i, rest)

/-- The bytes of a word as the hardware stores them (R10). -/
def wordBytes (w : BitVec 32) : List Byte := [bits w 0 8, bits w 8 8, bits w 16 8, bits w 24 8]

/-- The decoder's instruction for the opcode table's numbering of bits: the first word is bits 31 to 0, and a ONCE
pair's second word bits 63 to 32. Bits above `nbits` are zero. -/
def decodeTableWord (nbits w : Nat) : Option Instr :=
  let v := w % 2 ^ nbits
  (decode (wordBytes (BitVec.ofNat 32 v) ++ wordBytes (BitVec.ofNat 32 (v / 2 ^ 32)))).map Prod.fst

/-- The words of a core instruction; a command or an event has none. -/
def encode : Instr → List (BitVec 32)
  | .add rd ra rb ta tb => [0x0#6 ++ rd ++ ra ++ rb ++ 0x0#3 ++ ta ++ tb]
  | .sub rd ra rb ta tb => [0x0#6 ++ rd ++ ra ++ rb ++ 0x1#3 ++ ta ++ tb]
  | .and rd ra rb ta tb => [0x0#6 ++ rd ++ ra ++ rb ++ 0x2#3 ++ ta ++ tb]
  | .or rd ra rb ta tb => [0x0#6 ++ rd ++ ra ++ rb ++ 0x3#3 ++ ta ++ tb]
  | .xor rd ra rb ta tb => [0x0#6 ++ rd ++ ra ++ rb ++ 0x4#3 ++ ta ++ tb]
  | .shl rd ra rb ta tb => [0x0#6 ++ rd ++ ra ++ rb ++ 0x5#3 ++ ta ++ tb]
  | .shr rd ra rb ta tb => [0x0#6 ++ rd ++ ra ++ rb ++ 0x6#3 ++ ta ++ tb]
  | .sra rd ra rb ta tb => [0x0#6 ++ rd ++ ra ++ rb ++ 0x7#3 ++ ta ++ tb]
  | .mul rd ra rb ta tb => [0x1#6 ++ rd ++ ra ++ rb ++ 0x0#3 ++ ta ++ tb]
  | .mulh rd ra rb ta tb => [0x1#6 ++ rd ++ ra ++ rb ++ 0x1#3 ++ ta ++ tb]
  | .mulhu rd ra rb ta tb => [0x1#6 ++ rd ++ ra ++ rb ++ 0x2#3 ++ ta ++ tb]
  | .div rd ra rb ta tb => [0x1#6 ++ rd ++ ra ++ rb ++ 0x3#3 ++ ta ++ tb]
  | .divu rd ra rb ta tb => [0x1#6 ++ rd ++ ra ++ rb ++ 0x4#3 ++ ta ++ tb]
  | .rem rd ra rb ta tb => [0x1#6 ++ rd ++ ra ++ rb ++ 0x5#3 ++ ta ++ tb]
  | .remu rd ra rb ta tb => [0x1#6 ++ rd ++ ra ++ rb ++ 0x6#3 ++ ta ++ tb]
  | .min rd ra rb ta tb => [0x2#6 ++ rd ++ ra ++ rb ++ 0x0#3 ++ ta ++ tb]
  | .max rd ra rb ta tb => [0x2#6 ++ rd ++ ra ++ rb ++ 0x1#3 ++ ta ++ tb]
  | .minu rd ra rb ta tb => [0x2#6 ++ rd ++ ra ++ rb ++ 0x2#3 ++ ta ++ tb]
  | .maxu rd ra rb ta tb => [0x2#6 ++ rd ++ ra ++ rb ++ 0x3#3 ++ ta ++ tb]
  | .slt rd ra rb ta tb => [0x2#6 ++ rd ++ ra ++ rb ++ 0x4#3 ++ ta ++ tb]
  | .sltu rd ra rb ta tb => [0x2#6 ++ rd ++ ra ++ rb ++ 0x5#3 ++ ta ++ tb]
  | .seq rd ra rb ta tb => [0x2#6 ++ rd ++ ra ++ rb ++ 0x6#3 ++ ta ++ tb]
  | .sne rd ra rb ta tb => [0x2#6 ++ rd ++ ra ++ rb ++ 0x7#3 ++ ta ++ tb]
  | .clz rd ra ta => [0x3#6 ++ rd ++ ra ++ 0x0#10 ++ ta ++ 0x0#1]
  | .popc rd ra ta => [0x3#6 ++ rd ++ ra ++ 0x1#10 ++ ta ++ 0x0#1]
  | .rev rd ra ta => [0x3#6 ++ rd ++ ra ++ 0x2#10 ++ ta ++ 0x0#1]
  | .sextB rd ra ta => [0x3#6 ++ rd ++ ra ++ 0x3#10 ++ ta ++ 0x0#1]
  | .sextH rd ra ta => [0x3#6 ++ rd ++ ra ++ 0x4#10 ++ ta ++ 0x0#1]
  | .sextW rd ra ta => [0x3#6 ++ rd ++ ra ++ 0x5#10 ++ ta ++ 0x0#1]
  | .zextW rd ra ta => [0x3#6 ++ rd ++ ra ++ 0x6#10 ++ ta ++ 0x0#1]
  | .addi rd ra ta imm => [0x4#6 ++ rd ++ ra ++ ta ++ imm]
  | .andi rd ra ta imm => [0x5#6 ++ rd ++ ra ++ ta ++ imm]
  | .ori rd ra ta imm => [0x6#6 ++ rd ++ ra ++ ta ++ imm]
  | .xori rd ra ta imm => [0x7#6 ++ rd ++ ra ++ ta ++ imm]
  | .shli rd ra ta imm => [0x8#6 ++ rd ++ ra ++ ta ++ 0x0#5 ++ imm]
  | .shri rd ra ta imm => [0x9#6 ++ rd ++ ra ++ ta ++ 0x0#5 ++ imm]
  | .srai rd ra ta imm => [0xa#6 ++ rd ++ ra ++ ta ++ 0x0#5 ++ imm]
  | .slti rd ra ta imm => [0xb#6 ++ rd ++ ra ++ ta ++ imm]
  | .movi rd imm => [0xc#6 ++ rd ++ imm]
  | .ldpc rd imm => [0xd#6 ++ rd ++ imm]
  | .lea rd ra rb sh ta tb => [0xe#6 ++ rd ++ ra ++ rb ++ sh ++ ta ++ tb]
  | .sel rd ra rb rc => [0xf#6 ++ rd ++ ra ++ rb ++ rc]
  | .faddF32 rd ra rb ta tb => [0x10#6 ++ rd ++ ra ++ rb ++ 0x0#3 ++ ta ++ tb]
  | .fsubF32 rd ra rb ta tb => [0x10#6 ++ rd ++ ra ++ rb ++ 0x1#3 ++ ta ++ tb]
  | .fmulF32 rd ra rb ta tb => [0x10#6 ++ rd ++ ra ++ rb ++ 0x2#3 ++ ta ++ tb]
  | .fdivF32 rd ra rb ta tb => [0x10#6 ++ rd ++ ra ++ rb ++ 0x3#3 ++ ta ++ tb]
  | .fminF32 rd ra rb ta tb => [0x10#6 ++ rd ++ ra ++ rb ++ 0x4#3 ++ ta ++ tb]
  | .fmaxF32 rd ra rb ta tb => [0x10#6 ++ rd ++ ra ++ rb ++ 0x5#3 ++ ta ++ tb]
  | .fsqrtF32 rd ra ta => [0x10#6 ++ rd ++ ra ++ 0x6#10 ++ ta ++ 0x0#1]
  | .faddF64 rd ra rb ta tb => [0x11#6 ++ rd ++ ra ++ rb ++ 0x0#3 ++ ta ++ tb]
  | .fsubF64 rd ra rb ta tb => [0x11#6 ++ rd ++ ra ++ rb ++ 0x1#3 ++ ta ++ tb]
  | .fmulF64 rd ra rb ta tb => [0x11#6 ++ rd ++ ra ++ rb ++ 0x2#3 ++ ta ++ tb]
  | .fdivF64 rd ra rb ta tb => [0x11#6 ++ rd ++ ra ++ rb ++ 0x3#3 ++ ta ++ tb]
  | .fminF64 rd ra rb ta tb => [0x11#6 ++ rd ++ ra ++ rb ++ 0x4#3 ++ ta ++ tb]
  | .fmaxF64 rd ra rb ta tb => [0x11#6 ++ rd ++ ra ++ rb ++ 0x5#3 ++ ta ++ tb]
  | .fsqrtF64 rd ra ta => [0x11#6 ++ rd ++ ra ++ 0x6#10 ++ ta ++ 0x0#1]
  | .ffmaF32 rd ra rb rc => [0x12#6 ++ rd ++ ra ++ rb ++ rc]
  | .ffmaF64 rd ra rb rc => [0x13#6 ++ rd ++ ra ++ rb ++ rc]
  | .feqF32 rd ra rb ta tb => [0x14#6 ++ rd ++ ra ++ rb ++ 0x0#3 ++ ta ++ tb]
  | .fltF32 rd ra rb ta tb => [0x14#6 ++ rd ++ ra ++ rb ++ 0x1#3 ++ ta ++ tb]
  | .fleF32 rd ra rb ta tb => [0x14#6 ++ rd ++ ra ++ rb ++ 0x2#3 ++ ta ++ tb]
  | .funF32 rd ra rb ta tb => [0x14#6 ++ rd ++ ra ++ rb ++ 0x3#3 ++ ta ++ tb]
  | .feqF64 rd ra rb ta tb => [0x14#6 ++ rd ++ ra ++ rb ++ 0x4#3 ++ ta ++ tb]
  | .fltF64 rd ra rb ta tb => [0x14#6 ++ rd ++ ra ++ rb ++ 0x5#3 ++ ta ++ tb]
  | .fleF64 rd ra rb ta tb => [0x14#6 ++ rd ++ ra ++ rb ++ 0x6#3 ++ ta ++ tb]
  | .funF64 rd ra rb ta tb => [0x14#6 ++ rd ++ ra ++ rb ++ 0x7#3 ++ ta ++ tb]
  | .fcvtF64F32 rd ra mode ta => [0x15#6 ++ rd ++ ra ++ 0x0#7 ++ mode ++ ta ++ 0x0#1]
  | .fcvtF32F64 rd ra mode ta => [0x15#6 ++ rd ++ ra ++ 0x1#7 ++ mode ++ ta ++ 0x0#1]
  | .fcvtI64F32 rd ra mode ta => [0x15#6 ++ rd ++ ra ++ 0x2#7 ++ mode ++ ta ++ 0x0#1]
  | .fcvtU64F32 rd ra mode ta => [0x15#6 ++ rd ++ ra ++ 0x3#7 ++ mode ++ ta ++ 0x0#1]
  | .fcvtI64F64 rd ra mode ta => [0x15#6 ++ rd ++ ra ++ 0x4#7 ++ mode ++ ta ++ 0x0#1]
  | .fcvtU64F64 rd ra mode ta => [0x15#6 ++ rd ++ ra ++ 0x5#7 ++ mode ++ ta ++ 0x0#1]
  | .fcvtF32I64 rd ra mode ta => [0x15#6 ++ rd ++ ra ++ 0x6#7 ++ mode ++ ta ++ 0x0#1]
  | .fcvtF32U64 rd ra mode ta => [0x15#6 ++ rd ++ ra ++ 0x7#7 ++ mode ++ ta ++ 0x0#1]
  | .fcvtF64I64 rd ra mode ta => [0x15#6 ++ rd ++ ra ++ 0x8#7 ++ mode ++ ta ++ 0x0#1]
  | .fcvtF64U64 rd ra mode ta => [0x15#6 ++ rd ++ ra ++ 0x9#7 ++ mode ++ ta ++ 0x0#1]
  | .fcvtI32F32 rd ra mode ta => [0x15#6 ++ rd ++ ra ++ 0xa#7 ++ mode ++ ta ++ 0x0#1]
  | .fcvtI32F64 rd ra mode ta => [0x15#6 ++ rd ++ ra ++ 0xb#7 ++ mode ++ ta ++ 0x0#1]
  | .fcvtBf16F32 rd ra mode ta => [0x15#6 ++ rd ++ ra ++ 0xc#7 ++ mode ++ ta ++ 0x0#1]
  | .fcvtF32Bf16 rd ra mode ta => [0x15#6 ++ rd ++ ra ++ 0xd#7 ++ mode ++ ta ++ 0x0#1]
  | .fclassF32 rd ra ta => [0x16#6 ++ rd ++ ra ++ 0x0#10 ++ ta ++ 0x0#1]
  | .fclassF64 rd ra ta => [0x16#6 ++ rd ++ ra ++ 0x1#10 ++ ta ++ 0x0#1]
  | .bcEqz ra ta n => [0x17#6 ++ ra ++ ta ++ 0x0#3 ++ n]
  | .bcNez ra ta n => [0x17#6 ++ ra ++ ta ++ 0x1#3 ++ n]
  | .bcLtz ra ta n => [0x17#6 ++ ra ++ ta ++ 0x2#3 ++ n]
  | .bcGez ra ta n => [0x17#6 ++ ra ++ ta ++ 0x3#3 ++ n]
  | .bcGtz ra ta n => [0x17#6 ++ ra ++ ta ++ 0x4#3 ++ n]
  | .bcLez ra ta n => [0x17#6 ++ ra ++ ta ++ 0x5#3 ++ n]
  | .bcFull ra n => [0x17#6 ++ ra ++ 0x6#4 ++ n]
  | .bcEmpty ra n => [0x17#6 ++ ra ++ 0x7#4 ++ n]
  | .j n => [0x18#6 ++ n]
  | .call n => [0x19#6 ++ n]
  | .jr ra ta => [0xd00#13 ++ ra ++ 0x0#10 ++ ta ++ 0x0#1]
  | .callr ra ta => [0xd00#13 ++ ra ++ 0x1#10 ++ ta ++ 0x0#1]
  | .ret => [0x68000008#32]
  | .loop ra stop level => [0x1b#6 ++ ra ++ stop ++ level ++ 0x0#6]
  | .fork ra ta n => [0x1c#6 ++ ra ++ ta ++ 0x0#3 ++ n]
  | .join ra ta => [0xe80#13 ++ ra ++ 0x0#10 ++ ta ++ 0x0#1]
  | .ends => [0x74000004#32]
  | .couple rd ra ta => [0x1e#6 ++ rd ++ ra ++ 0x0#10 ++ ta ++ 0x0#1]
  | .split => [0x78000004#32]
  | .gangid rd => [0x1e#6 ++ rd ++ 0x8#19]
  | .ld rd ra sz p ta off => [0x20#6 ++ rd ++ ra ++ sz ++ p ++ ta ++ off]
  | .ldx rd ra sz p ta off => [0x21#6 ++ rd ++ ra ++ sz ++ p ++ ta ++ off]
  | .ldAcq rd ra sz p ta off => [0x22#6 ++ rd ++ ra ++ sz ++ p ++ ta ++ off]
  | .st rs ra sz p ta off => [0x23#6 ++ rs ++ ra ++ sz ++ p ++ ta ++ off]
  | .stRel rs ra sz p ta off => [0x24#6 ++ rs ++ ra ++ sz ++ p ++ ta ++ off]
  | .vld rd ra p ta off => [0x25#6 ++ rd ++ ra ++ 0x0#2 ++ p ++ ta ++ off]
  | .vst rs ra p ta off => [0x26#6 ++ rs ++ ra ++ 0x0#2 ++ p ++ ta ++ off]
  | .vlds rd ra rb ta tb => [0x27#6 ++ rd ++ ra ++ rb ++ 0x0#3 ++ ta ++ tb]
  | .vgath rd ra rb sh ta tb => [0x28#6 ++ rd ++ ra ++ rb ++ sh ++ ta ++ tb]
  | .vscat rs ra rb sh ta tb => [0x29#6 ++ rs ++ ra ++ rb ++ sh ++ ta ++ tb]
  | .pref ra p ta off => [0x1500#13 ++ ra ++ 0x0#2 ++ p ++ ta ++ off]
  | .fenceRw p => [0xac000#20 ++ p ++ 0x0#5]
  | .fenceAcq p => [0xac000#20 ++ p ++ 0x4#5]
  | .fenceRel p => [0xac000#20 ++ p ++ 0x8#5]
  | .fenceSs p => [0xac000#20 ++ p ++ 0xc#5]
  | .amoAdd rd ra rb ta tb => [0x2c#6 ++ rd ++ ra ++ rb ++ 0x0#3 ++ ta ++ tb]
  | .amoAnd rd ra rb ta tb => [0x2c#6 ++ rd ++ ra ++ rb ++ 0x1#3 ++ ta ++ tb]
  | .amoOr rd ra rb ta tb => [0x2c#6 ++ rd ++ ra ++ rb ++ 0x2#3 ++ ta ++ tb]
  | .amoXor rd ra rb ta tb => [0x2c#6 ++ rd ++ ra ++ rb ++ 0x3#3 ++ ta ++ tb]
  | .amoMin rd ra rb ta tb => [0x2c#6 ++ rd ++ ra ++ rb ++ 0x4#3 ++ ta ++ tb]
  | .amoMax rd ra rb ta tb => [0x2c#6 ++ rd ++ ra ++ rb ++ 0x5#3 ++ ta ++ tb]
  | .amoSwp rd ra rb ta tb => [0x2c#6 ++ rd ++ ra ++ rb ++ 0x6#3 ++ ta ++ tb]
  | .cas rd ra rb rc => [0x2d#6 ++ rd ++ ra ++ rb ++ rc]
  | .vaddI32 rd ra rb ta tb => [0x30#6 ++ rd ++ ra ++ rb ++ 0x0#3 ++ ta ++ tb]
  | .vsubI32 rd ra rb ta tb => [0x30#6 ++ rd ++ ra ++ rb ++ 0x1#3 ++ ta ++ tb]
  | .vand rd ra rb ta tb => [0x30#6 ++ rd ++ ra ++ rb ++ 0x2#3 ++ ta ++ tb]
  | .vor rd ra rb ta tb => [0x30#6 ++ rd ++ ra ++ rb ++ 0x3#3 ++ ta ++ tb]
  | .vxor rd ra rb ta tb => [0x30#6 ++ rd ++ ra ++ rb ++ 0x4#3 ++ ta ++ tb]
  | .vshl rd ra rb ta tb => [0x30#6 ++ rd ++ ra ++ rb ++ 0x5#3 ++ ta ++ tb]
  | .vshr rd ra rb ta tb => [0x30#6 ++ rd ++ ra ++ rb ++ 0x6#3 ++ ta ++ tb]
  | .vsra rd ra rb ta tb => [0x30#6 ++ rd ++ ra ++ rb ++ 0x7#3 ++ ta ++ tb]
  | .vaddF32 rd ra rb ta tb => [0x31#6 ++ rd ++ ra ++ rb ++ 0x0#3 ++ ta ++ tb]
  | .vsubF32 rd ra rb ta tb => [0x31#6 ++ rd ++ ra ++ rb ++ 0x1#3 ++ ta ++ tb]
  | .vmulF32 rd ra rb ta tb => [0x31#6 ++ rd ++ ra ++ rb ++ 0x2#3 ++ ta ++ tb]
  | .vminF32 rd ra rb ta tb => [0x31#6 ++ rd ++ ra ++ rb ++ 0x3#3 ++ ta ++ tb]
  | .vmaxF32 rd ra rb ta tb => [0x31#6 ++ rd ++ ra ++ rb ++ 0x4#3 ++ ta ++ tb]
  | .vmulI32 rd ra rb ta tb => [0x31#6 ++ rd ++ ra ++ rb ++ 0x5#3 ++ ta ++ tb]
  | .vminI32 rd ra rb ta tb => [0x31#6 ++ rd ++ ra ++ rb ++ 0x6#3 ++ ta ++ tb]
  | .vmaxI32 rd ra rb ta tb => [0x31#6 ++ rd ++ ra ++ rb ++ 0x7#3 ++ ta ++ tb]
  | .vfmaF32 rd ra rb rc => [0x32#6 ++ rd ++ ra ++ rb ++ rc]
  | .vcmpEqI32 rd ra rb ta tb => [0x33#6 ++ rd ++ ra ++ rb ++ 0x0#3 ++ ta ++ tb]
  | .vcmpLtI32 rd ra rb ta tb => [0x33#6 ++ rd ++ ra ++ rb ++ 0x1#3 ++ ta ++ tb]
  | .vcmpLtuI32 rd ra rb ta tb => [0x33#6 ++ rd ++ ra ++ rb ++ 0x2#3 ++ ta ++ tb]
  | .vcmpEqF32 rd ra rb ta tb => [0x33#6 ++ rd ++ ra ++ rb ++ 0x3#3 ++ ta ++ tb]
  | .vcmpLtF32 rd ra rb ta tb => [0x33#6 ++ rd ++ ra ++ rb ++ 0x4#3 ++ ta ++ tb]
  | .vcmpLeF32 rd ra rb ta tb => [0x33#6 ++ rd ++ ra ++ rb ++ 0x5#3 ++ ta ++ tb]
  | .vcmpUnF32 rd ra rb ta tb => [0x33#6 ++ rd ++ ra ++ rb ++ 0x6#3 ++ ta ++ tb]
  | .vsel rd ra rb rc => [0x34#6 ++ rd ++ ra ++ rb ++ rc]
  | .vredAddI32 rd ra ta => [0x35#6 ++ rd ++ ra ++ 0x0#10 ++ ta ++ 0x0#1]
  | .vredAddF32 rd ra ta => [0x35#6 ++ rd ++ ra ++ 0x1#10 ++ ta ++ 0x0#1]
  | .vredMaxF32 rd ra ta => [0x35#6 ++ rd ++ ra ++ 0x2#10 ++ ta ++ 0x0#1]
  | .vredMinF32 rd ra ta => [0x35#6 ++ rd ++ ra ++ 0x3#10 ++ ta ++ 0x0#1]
  | .vredMaxI32 rd ra ta => [0x35#6 ++ rd ++ ra ++ 0x4#10 ++ ta ++ 0x0#1]
  | .vredMinI32 rd ra ta => [0x35#6 ++ rd ++ ra ++ 0x5#10 ++ ta ++ 0x0#1]
  | .vredOr rd ra ta => [0x35#6 ++ rd ++ ra ++ 0x6#10 ++ ta ++ 0x0#1]
  | .vredAnd rd ra ta => [0x35#6 ++ rd ++ ra ++ 0x7#10 ++ ta ++ 0x0#1]
  | .vperm rd ra rb ta tb => [0x36#6 ++ rd ++ ra ++ rb ++ 0x0#3 ++ ta ++ tb]
  | .vbcast rd ra ta => [0x36#6 ++ rd ++ ra ++ 0x1#10 ++ ta ++ 0x0#1]
  | .vins rd ra rb ta tb => [0x36#6 ++ rd ++ ra ++ rb ++ 0x2#3 ++ ta ++ tb]
  | .vext rd ra rb ta tb => [0x36#6 ++ rd ++ ra ++ rb ++ 0x3#3 ++ ta ++ tb]
  | .vrcpF32 rd ra ta => [0x37#6 ++ rd ++ ra ++ 0x0#10 ++ ta ++ 0x0#1]
  | .vrsqF32 rd ra ta => [0x37#6 ++ rd ++ ra ++ 0x1#10 ++ ta ++ 0x0#1]
  | .vexp2F32 rd ra ta => [0x37#6 ++ rd ++ ra ++ 0x2#10 ++ ta ++ 0x0#1]
  | .vlog2F32 rd ra ta => [0x37#6 ++ rd ++ ra ++ 0x3#10 ++ ta ++ 0x0#1]
  | .vpackBf16 rd ra rb ta tb => [0x37#6 ++ rd ++ ra ++ rb ++ 0x4#3 ++ ta ++ tb]
  | .vunpackBf16 rd ra rb ta tb => [0x37#6 ++ rd ++ ra ++ rb ++ 0x5#3 ++ ta ++ tb]
  | .vzmask rd ra ta => [0x37#6 ++ rd ++ ra ++ 0x6#10 ++ ta ++ 0x0#1]
  | .qpush q rd wc ws tb => [0x38#6 ++ q ++ rd ++ wc ++ ws ++ 0x0#1 ++ tb]
  | .qpop q rd => [0x39#6 ++ q ++ rd ++ 0x0#14]
  | .qpopStatus q rd ws => [0x39#6 ++ q ++ rd ++ ws ++ 0x4#7]
  | .qpopTrap q rd => [0x39#6 ++ q ++ rd ++ 0x8#14]
  | .qpopTrapStatus q rd ws => [0x39#6 ++ q ++ rd ++ ws ++ 0xc#7]
  | .qtest q rd => [0x3a#6 ++ q ++ rd ++ 0x0#14]
  | .evtTerm n ra ta => [0x3c#6 ++ n ++ ra ++ 0x0#12 ++ ta ++ 0x0#1]
  | .evtCnt n ra rb ta tb => [0x3c#6 ++ n ++ ra ++ rb ++ 0x1#5 ++ ta ++ tb]
  | .evtArm n ra ta => [0x3c#6 ++ n ++ ra ++ 0x2#12 ++ ta ++ 0x0#1]
  | .evtRead n rd => [0x3c#6 ++ n ++ rd ++ 0xc#14]
  | .evtWait n => [0x3c#6 ++ n ++ 0x10#21]
  | .nop => [0xf4000000#32]
  | .sysGet rd aux => [0x3d#6 ++ rd ++ 0x1#13 ++ aux]
  | .sysSet ra aux => [0x1e80#13 ++ ra ++ 0x2#6 ++ aux]
  | .time rd => [0x3d#6 ++ rd ++ 0xc0#19]
  | .trap ra aux => [0x1e80#13 ++ ra ++ 0x4#6 ++ aux]
  | .thrStart rd ra => [0x3d#6 ++ rd ++ ra ++ 0x140#12]
  | .thrStop rd ra => [0x3d#6 ++ rd ++ ra ++ 0x180#12]
  | .thrStopSelf => [0xf4000181#32]
  | .thrYield => [0xf40001c0#32]
  | .thrResume rd ra => [0x3d#6 ++ rd ++ ra ++ 0x200#12]
  | .thrResumeNext rd ra => [0x3d#6 ++ rd ++ ra ++ 0x201#12]
  | .thrSwap rd ra => [0x3d#6 ++ rd ++ ra ++ 0x240#12]
  | .thrSwapIn rd ra => [0x3d#6 ++ rd ++ ra ++ 0x241#12]
  | .nwrite rd ra => [0x3d#6 ++ rd ++ ra ++ 0x280#12]
  | .arriveClu rd ra => [0x3d#6 ++ rd ++ ra ++ 0x2c3#12]
  | .arriveDeck rd ra => [0x3d#6 ++ rd ++ ra ++ 0x2c4#12]
  | .arriveDev rd ra => [0x3d#6 ++ rd ++ ra ++ 0x2c5#12]
  | .wait ra => [0x1e80#13 ++ ra ++ 0x300#12]
  | .wake rd ra => [0x3d#6 ++ rd ++ ra ++ 0x340#12]
  | .nwaitNbr rd => [0x3d#6 ++ rd ++ 0x380#19]
  | .nwaitNtf rd => [0x3d#6 ++ rd ++ 0x381#19]
  | .sample ra => [0x1e80#13 ++ ra ++ 0x3c0#12]
  | .launch rd ra => [0x3d#6 ++ rd ++ ra ++ 0x400#12]
  | .launchWait rd ra => [0x3d#6 ++ rd ++ ra ++ 0x401#12]
  | .launchQuery rd ra => [0x3d#6 ++ rd ++ ra ++ 0x402#12]
  | .launchAge rd ra => [0x3d#6 ++ rd ++ ra ++ 0x403#12]
  | .cancelLaunch rd ra => [0x3d#6 ++ rd ++ ra ++ 0x440#12]
  | .cancelGraph rd ra => [0x3d#6 ++ rd ++ ra ++ 0x441#12]
  | .cancelPhase rd ra => [0x3d#6 ++ rd ++ ra ++ 0x442#12]
  | .cancelJob rd ra => [0x3d#6 ++ rd ++ ra ++ 0x443#12]
  | .cancelGraphRewind rd ra => [0x3d#6 ++ rd ++ ra ++ 0x445#12]
  | .round rd ra n => [0x3d#6 ++ rd ++ ra ++ 0x12#6 ++ n]
  | .park rd ra => [0x3d#6 ++ rd ++ ra ++ 0x4c0#12]
  | .memMap rd ra attr p => [0x3d#6 ++ rd ++ ra ++ 0x50#8 ++ attr ++ p]
  | .memMapAlias rd ra attr p => [0x3d#6 ++ rd ++ ra ++ 0x51#8 ++ attr ++ p]
  | .memMapRemote rd ra attr p => [0x3d#6 ++ rd ++ ra ++ 0x52#8 ++ attr ++ p]
  | .memUnmap rd ra => [0x3d#6 ++ rd ++ ra ++ 0x540#12]
  | .memAttr rd ra attr p => [0x3d#6 ++ rd ++ ra ++ 0x58#8 ++ attr ++ p]
  | .qfence q => [0x1e8000b8#29 ++ q]
  | .rwtLoad rd ra => [0x3d#6 ++ rd ++ ra ++ 0x600#12]
  | .rwtCtl rd ra => [0x3d#6 ++ rd ++ ra ++ 0x640#12]
  | .rwtCtlGet rd => [0x3d#6 ++ rd ++ 0x641#19]
  | .sbind rd ra n => [0x3d#6 ++ rd ++ ra ++ 0xd0#9 ++ n]
  | .snext rd n => [0x3d#6 ++ rd ++ 0xd8#16 ++ n]
  | .snextStatus rd ws n => [0x3d#6 ++ rd ++ ws ++ 0xd9#9 ++ n]
  | .sdone rd n => [0x3d#6 ++ rd ++ 0xe0#16 ++ n]
  | .amSend rd ra => [0x3d#6 ++ rd ++ ra ++ 0x740#12]
  | .amHandler rd ra => [0x3d#6 ++ rd ++ ra ++ 0x780#12]
  | .lnkStatus rd ra => [0x3d#6 ++ rd ++ ra ++ 0x7c0#12]
  | .wrtPresent rd ra => [0x3d#6 ++ rd ++ ra ++ 0x800#12]
  | .wrtPresentToken rd ra => [0x3d#6 ++ rd ++ ra ++ 0x801#12]
  | .wrtPresentRevoke rd ra => [0x3d#6 ++ rd ++ ra ++ 0x802#12]
  | .wrtSplit rd ra => [0x3d#6 ++ rd ++ ra ++ 0x840#12]
  | .wrtDelegate rd ra => [0x3d#6 ++ rd ++ ra ++ 0x880#12]
  | .wrtSurrender rd ra => [0x3d#6 ++ rd ++ ra ++ 0x8c0#12]
  | .wrtQuery rd ra n => [0x3d#6 ++ rd ++ ra ++ 0x90#8 ++ n]
  | .codeAdmit rd ra => [0x3d#6 ++ rd ++ ra ++ 0x940#12]
  | .attest rd ra => [0x3d#6 ++ rd ++ ra ++ 0x980#12]
  | .once w => [oncePrefix, w]
  | .accZero => []
  | .accLoad => []
  | .accStore => []
  | .mmaE4m3E4m3 => []
  | .mmaE4m3E5m2 => []
  | .mmaE5m2E4m3 => []
  | .mmaEc8Ec8 => []
  | .mmaEc8E4m3 => []
  | .mmaBf16Bf16 => []
  | .mmaF32F32 => []
  | .mmaI8I8 => []
  | .mmaSpE4m3E4m3 => []
  | .mmaSpBf16Bf16 => []
  | .nestEw => []
  | .nestRed => []
  | .transpose => []
  | .scale => []
  | .enc8 => []
  | .dec8 => []
  | .compress => []
  | .teMark => []
  | .copy => []
  | .copy2d => []
  | .copy3d => []
  | .copyGather => []
  | .fill => []
  | .schedLoad => []
  | .rteList => []
  | .rteDispatch => []
  | .rteCombine => []
  | .collAllred => []
  | .collAllgath => []
  | .collRedscat => []
  | .collBcast => []
  | .instructionCompletion => []
  | .longLatencyArrival => []
  | .oncePostLanding => []
  | .storeVisible => []
  | .trapRecordEnqueue => []
  | .coupleTimeout => []
  | .strandSteal => []
  | .nwriteLanding => []
  | .wakeDelivery => []
  | .expiryNotice => []
  | .preemptSwapOut => []
  | .threadRestore => []
  | .divertedMessageReplay => []
  | .commandCompletionCopy => []
  | .commandCompletionTile => []
  | .commandCompletionRoute => []
  | .rewriteWindowEntry => []
  | .rewriteHeadRelease => []
  | .rewriteGroupCommit => []
  | .rewriteGroupReplay => []
  | .dispatcherDecision => []
  | .headAgeLimit => []
  | .endOfStreamAppend => []
  | .coreMove => []
  | .coreLend => []
  | .q7BacklogDelivery => []
  | .corrected => []
  | .deckFence => []
  | .injectionFire => []
  | .l2WriteBack => []
  | .amArrival => []
  | .amHandlerStart => []
  | .collectiveTimeout => []
  | .dataFlitReceive => []
  | .nakReceive => []
  | .replayTimeout => []
  | .keySwitchStart => []
  | .keySwitchMarkerReceive => []
  | .oldKeySlotClose => []
  | .idleFlitReceive => []
  | .timeFlitSend => []
  | .timeFlitReceive => []
  | .ptpMessageReceive => []
  | .arbiterClaim => []
  | .arbiterReplyTimeout => []
  | .spentEntryExpiry => []
  | .timeBeaconEthernet => []
  | .beaconTimeout => []
  | .highWaterUpdate => []
  | .contextExpiry => []
  | .tokenLapsed => []
  | .handoverHoldExpiry => []
  | .handoverRelease => []
  | .hotPatchDoorbell => []
  | .patchBusy => []
  | .applyDoorbell => []
  | .admissionDoorbellWarrant => []
  | .admissionDoorbellToken => []
  | .admissionDoorbellRevocation => []
  | .admissionDoorbellBeacon => []
  | .hostLaunchRecord => []
  | .hostPartitionRead => []
  | .hostPartitionWrite => []
  | .registerWrite => []
  | .sagePeriodicSample => []
  | .counterPageUpdate => []
  | .supplySagTrip => []
  | .coldReset => []
  | .warmReset => []
  | .arbiterReply => []
  | .remoteMappingRequest => []
  | .portTrainingEnd => []
  | .hostLaneFailure => []
  | .supplySagClear => []

/-- The open fields of a command word with its operand record. -/
def readCmd (w : BitVec 256) (opr : Vec) : Cmd :=
  { gate := bits w 236 4, cnt := bits w 232 4, marks := bits w 228 4, body := bits w 0 224, opr := opr }

/-- A command word from its engine code, opcode and open fields (R6, R131, R213). -/
def writeCmd (engine op : BitVec 8) (c : Cmd) : BitVec 256 :=
  engine ++ op ++ c.gate ++ c.cnt ++ c.marks ++ 0#4 ++ c.body

/-- The command that engine code and opcode name (R180, R214, R333); `none` is an unknown opcode, detail 2 of R134.
QPUSH has already refused a wrong engine code and non-zero bits [227:224] (R131). -/
def decodeCommand (w : BitVec 256) : Option Instr :=
  match (bits w 248 8).toNat, (bits w 240 8).toNat with
  | 1, 0x1 => some .accZero
  | 1, 0x2 => some .accLoad
  | 1, 0x3 => some .accStore
  | 1, 0x10 => some .mmaE4m3E4m3
  | 1, 0x11 => some .mmaE4m3E5m2
  | 1, 0x12 => some .mmaE5m2E4m3
  | 1, 0x13 => some .mmaEc8Ec8
  | 1, 0x14 => some .mmaEc8E4m3
  | 1, 0x15 => some .mmaBf16Bf16
  | 1, 0x16 => some .mmaF32F32
  | 1, 0x17 => some .mmaI8I8
  | 1, 0x18 => some .mmaSpE4m3E4m3
  | 1, 0x19 => some .mmaSpBf16Bf16
  | 1, 0x20 => some .nestEw
  | 1, 0x21 => some .nestRed
  | 1, 0x30 => some .transpose
  | 1, 0x34 => some .scale
  | 1, 0x31 => some .enc8
  | 1, 0x32 => some .dec8
  | 1, 0x33 => some .compress
  | 1, 0x3f => some .teMark
  | 2, 0x1 => some .copy
  | 2, 0x2 => some .copy2d
  | 2, 0x3 => some .copy3d
  | 2, 0x4 => some .copyGather
  | 2, 0x5 => some .fill
  | 2, 0x6 => some .schedLoad
  | 3, 0x1 => some .rteList
  | 3, 0x2 => some .rteDispatch
  | 3, 0x3 => some .rteCombine
  | 3, 0x10 => some .collAllred
  | 3, 0x11 => some .collAllgath
  | 3, 0x12 => some .collRedscat
  | 3, 0x13 => some .collBcast
  | _, _ => none

/-- Engine code and opcode of an engine command. -/
def commandCode : Instr → Option (BitVec 8 × BitVec 8)
  | .add _ _ _ _ _ => none
  | .sub _ _ _ _ _ => none
  | .and _ _ _ _ _ => none
  | .or _ _ _ _ _ => none
  | .xor _ _ _ _ _ => none
  | .shl _ _ _ _ _ => none
  | .shr _ _ _ _ _ => none
  | .sra _ _ _ _ _ => none
  | .mul _ _ _ _ _ => none
  | .mulh _ _ _ _ _ => none
  | .mulhu _ _ _ _ _ => none
  | .div _ _ _ _ _ => none
  | .divu _ _ _ _ _ => none
  | .rem _ _ _ _ _ => none
  | .remu _ _ _ _ _ => none
  | .min _ _ _ _ _ => none
  | .max _ _ _ _ _ => none
  | .minu _ _ _ _ _ => none
  | .maxu _ _ _ _ _ => none
  | .slt _ _ _ _ _ => none
  | .sltu _ _ _ _ _ => none
  | .seq _ _ _ _ _ => none
  | .sne _ _ _ _ _ => none
  | .clz _ _ _ => none
  | .popc _ _ _ => none
  | .rev _ _ _ => none
  | .sextB _ _ _ => none
  | .sextH _ _ _ => none
  | .sextW _ _ _ => none
  | .zextW _ _ _ => none
  | .addi _ _ _ _ => none
  | .andi _ _ _ _ => none
  | .ori _ _ _ _ => none
  | .xori _ _ _ _ => none
  | .shli _ _ _ _ => none
  | .shri _ _ _ _ => none
  | .srai _ _ _ _ => none
  | .slti _ _ _ _ => none
  | .movi _ _ => none
  | .ldpc _ _ => none
  | .lea _ _ _ _ _ _ => none
  | .sel _ _ _ _ => none
  | .faddF32 _ _ _ _ _ => none
  | .fsubF32 _ _ _ _ _ => none
  | .fmulF32 _ _ _ _ _ => none
  | .fdivF32 _ _ _ _ _ => none
  | .fminF32 _ _ _ _ _ => none
  | .fmaxF32 _ _ _ _ _ => none
  | .fsqrtF32 _ _ _ => none
  | .faddF64 _ _ _ _ _ => none
  | .fsubF64 _ _ _ _ _ => none
  | .fmulF64 _ _ _ _ _ => none
  | .fdivF64 _ _ _ _ _ => none
  | .fminF64 _ _ _ _ _ => none
  | .fmaxF64 _ _ _ _ _ => none
  | .fsqrtF64 _ _ _ => none
  | .ffmaF32 _ _ _ _ => none
  | .ffmaF64 _ _ _ _ => none
  | .feqF32 _ _ _ _ _ => none
  | .fltF32 _ _ _ _ _ => none
  | .fleF32 _ _ _ _ _ => none
  | .funF32 _ _ _ _ _ => none
  | .feqF64 _ _ _ _ _ => none
  | .fltF64 _ _ _ _ _ => none
  | .fleF64 _ _ _ _ _ => none
  | .funF64 _ _ _ _ _ => none
  | .fcvtF64F32 _ _ _ _ => none
  | .fcvtF32F64 _ _ _ _ => none
  | .fcvtI64F32 _ _ _ _ => none
  | .fcvtU64F32 _ _ _ _ => none
  | .fcvtI64F64 _ _ _ _ => none
  | .fcvtU64F64 _ _ _ _ => none
  | .fcvtF32I64 _ _ _ _ => none
  | .fcvtF32U64 _ _ _ _ => none
  | .fcvtF64I64 _ _ _ _ => none
  | .fcvtF64U64 _ _ _ _ => none
  | .fcvtI32F32 _ _ _ _ => none
  | .fcvtI32F64 _ _ _ _ => none
  | .fcvtBf16F32 _ _ _ _ => none
  | .fcvtF32Bf16 _ _ _ _ => none
  | .fclassF32 _ _ _ => none
  | .fclassF64 _ _ _ => none
  | .bcEqz _ _ _ => none
  | .bcNez _ _ _ => none
  | .bcLtz _ _ _ => none
  | .bcGez _ _ _ => none
  | .bcGtz _ _ _ => none
  | .bcLez _ _ _ => none
  | .bcFull _ _ => none
  | .bcEmpty _ _ => none
  | .j _ => none
  | .call _ => none
  | .jr _ _ => none
  | .callr _ _ => none
  | .loop _ _ _ => none
  | .fork _ _ _ => none
  | .join _ _ => none
  | .couple _ _ _ => none
  | .gangid _ => none
  | .ld _ _ _ _ _ _ => none
  | .ldx _ _ _ _ _ _ => none
  | .ldAcq _ _ _ _ _ _ => none
  | .st _ _ _ _ _ _ => none
  | .stRel _ _ _ _ _ _ => none
  | .vld _ _ _ _ _ => none
  | .vst _ _ _ _ _ => none
  | .vlds _ _ _ _ _ => none
  | .vgath _ _ _ _ _ _ => none
  | .vscat _ _ _ _ _ _ => none
  | .pref _ _ _ _ => none
  | .fenceRw _ => none
  | .fenceAcq _ => none
  | .fenceRel _ => none
  | .fenceSs _ => none
  | .amoAdd _ _ _ _ _ => none
  | .amoAnd _ _ _ _ _ => none
  | .amoOr _ _ _ _ _ => none
  | .amoXor _ _ _ _ _ => none
  | .amoMin _ _ _ _ _ => none
  | .amoMax _ _ _ _ _ => none
  | .amoSwp _ _ _ _ _ => none
  | .cas _ _ _ _ => none
  | .vaddI32 _ _ _ _ _ => none
  | .vsubI32 _ _ _ _ _ => none
  | .vand _ _ _ _ _ => none
  | .vor _ _ _ _ _ => none
  | .vxor _ _ _ _ _ => none
  | .vshl _ _ _ _ _ => none
  | .vshr _ _ _ _ _ => none
  | .vsra _ _ _ _ _ => none
  | .vaddF32 _ _ _ _ _ => none
  | .vsubF32 _ _ _ _ _ => none
  | .vmulF32 _ _ _ _ _ => none
  | .vminF32 _ _ _ _ _ => none
  | .vmaxF32 _ _ _ _ _ => none
  | .vmulI32 _ _ _ _ _ => none
  | .vminI32 _ _ _ _ _ => none
  | .vmaxI32 _ _ _ _ _ => none
  | .vfmaF32 _ _ _ _ => none
  | .vcmpEqI32 _ _ _ _ _ => none
  | .vcmpLtI32 _ _ _ _ _ => none
  | .vcmpLtuI32 _ _ _ _ _ => none
  | .vcmpEqF32 _ _ _ _ _ => none
  | .vcmpLtF32 _ _ _ _ _ => none
  | .vcmpLeF32 _ _ _ _ _ => none
  | .vcmpUnF32 _ _ _ _ _ => none
  | .vsel _ _ _ _ => none
  | .vredAddI32 _ _ _ => none
  | .vredAddF32 _ _ _ => none
  | .vredMaxF32 _ _ _ => none
  | .vredMinF32 _ _ _ => none
  | .vredMaxI32 _ _ _ => none
  | .vredMinI32 _ _ _ => none
  | .vredOr _ _ _ => none
  | .vredAnd _ _ _ => none
  | .vperm _ _ _ _ _ => none
  | .vbcast _ _ _ => none
  | .vins _ _ _ _ _ => none
  | .vext _ _ _ _ _ => none
  | .vrcpF32 _ _ _ => none
  | .vrsqF32 _ _ _ => none
  | .vexp2F32 _ _ _ => none
  | .vlog2F32 _ _ _ => none
  | .vpackBf16 _ _ _ _ _ => none
  | .vunpackBf16 _ _ _ _ _ => none
  | .vzmask _ _ _ => none
  | .qpush _ _ _ _ _ => none
  | .qpop _ _ => none
  | .qpopStatus _ _ _ => none
  | .qpopTrap _ _ => none
  | .qpopTrapStatus _ _ _ => none
  | .qtest _ _ => none
  | .evtTerm _ _ _ => none
  | .evtCnt _ _ _ _ _ => none
  | .evtArm _ _ _ => none
  | .evtRead _ _ => none
  | .evtWait _ => none
  | .sysGet _ _ => none
  | .sysSet _ _ => none
  | .time _ => none
  | .trap _ _ => none
  | .thrStart _ _ => none
  | .thrStop _ _ => none
  | .thrResume _ _ => none
  | .thrResumeNext _ _ => none
  | .thrSwap _ _ => none
  | .thrSwapIn _ _ => none
  | .nwrite _ _ => none
  | .arriveClu _ _ => none
  | .arriveDeck _ _ => none
  | .arriveDev _ _ => none
  | .wait _ => none
  | .wake _ _ => none
  | .nwaitNbr _ => none
  | .nwaitNtf _ => none
  | .sample _ => none
  | .launch _ _ => none
  | .launchWait _ _ => none
  | .launchQuery _ _ => none
  | .launchAge _ _ => none
  | .cancelLaunch _ _ => none
  | .cancelGraph _ _ => none
  | .cancelPhase _ _ => none
  | .cancelJob _ _ => none
  | .cancelGraphRewind _ _ => none
  | .round _ _ _ => none
  | .park _ _ => none
  | .memMap _ _ _ _ => none
  | .memMapAlias _ _ _ _ => none
  | .memMapRemote _ _ _ _ => none
  | .memUnmap _ _ => none
  | .memAttr _ _ _ _ => none
  | .qfence _ => none
  | .rwtLoad _ _ => none
  | .rwtCtl _ _ => none
  | .rwtCtlGet _ => none
  | .sbind _ _ _ => none
  | .snext _ _ => none
  | .snextStatus _ _ _ => none
  | .sdone _ _ => none
  | .amSend _ _ => none
  | .amHandler _ _ => none
  | .lnkStatus _ _ => none
  | .wrtPresent _ _ => none
  | .wrtPresentToken _ _ => none
  | .wrtPresentRevoke _ _ => none
  | .wrtSplit _ _ => none
  | .wrtDelegate _ _ => none
  | .wrtSurrender _ _ => none
  | .wrtQuery _ _ _ => none
  | .codeAdmit _ _ => none
  | .attest _ _ => none
  | .once _ => none
  | .ret => none
  | .ends => none
  | .split => none
  | .nop => none
  | .thrStopSelf => none
  | .thrYield => none
  | .accZero => some (1, 0x1)
  | .accLoad => some (1, 0x2)
  | .accStore => some (1, 0x3)
  | .mmaE4m3E4m3 => some (1, 0x10)
  | .mmaE4m3E5m2 => some (1, 0x11)
  | .mmaE5m2E4m3 => some (1, 0x12)
  | .mmaEc8Ec8 => some (1, 0x13)
  | .mmaEc8E4m3 => some (1, 0x14)
  | .mmaBf16Bf16 => some (1, 0x15)
  | .mmaF32F32 => some (1, 0x16)
  | .mmaI8I8 => some (1, 0x17)
  | .mmaSpE4m3E4m3 => some (1, 0x18)
  | .mmaSpBf16Bf16 => some (1, 0x19)
  | .nestEw => some (1, 0x20)
  | .nestRed => some (1, 0x21)
  | .transpose => some (1, 0x30)
  | .scale => some (1, 0x34)
  | .enc8 => some (1, 0x31)
  | .dec8 => some (1, 0x32)
  | .compress => some (1, 0x33)
  | .teMark => some (1, 0x3f)
  | .copy => some (2, 0x1)
  | .copy2d => some (2, 0x2)
  | .copy3d => some (2, 0x3)
  | .copyGather => some (2, 0x4)
  | .fill => some (2, 0x5)
  | .schedLoad => some (2, 0x6)
  | .rteList => some (3, 0x1)
  | .rteDispatch => some (3, 0x2)
  | .rteCombine => some (3, 0x3)
  | .collAllred => some (3, 0x10)
  | .collAllgath => some (3, 0x11)
  | .collRedscat => some (3, 0x12)
  | .collBcast => some (3, 0x13)
  | .instructionCompletion => none
  | .longLatencyArrival => none
  | .oncePostLanding => none
  | .storeVisible => none
  | .trapRecordEnqueue => none
  | .coupleTimeout => none
  | .strandSteal => none
  | .nwriteLanding => none
  | .wakeDelivery => none
  | .expiryNotice => none
  | .preemptSwapOut => none
  | .threadRestore => none
  | .divertedMessageReplay => none
  | .commandCompletionCopy => none
  | .commandCompletionTile => none
  | .commandCompletionRoute => none
  | .rewriteWindowEntry => none
  | .rewriteHeadRelease => none
  | .rewriteGroupCommit => none
  | .rewriteGroupReplay => none
  | .dispatcherDecision => none
  | .headAgeLimit => none
  | .endOfStreamAppend => none
  | .coreMove => none
  | .coreLend => none
  | .q7BacklogDelivery => none
  | .corrected => none
  | .deckFence => none
  | .injectionFire => none
  | .l2WriteBack => none
  | .amArrival => none
  | .amHandlerStart => none
  | .collectiveTimeout => none
  | .dataFlitReceive => none
  | .nakReceive => none
  | .replayTimeout => none
  | .keySwitchStart => none
  | .keySwitchMarkerReceive => none
  | .oldKeySlotClose => none
  | .idleFlitReceive => none
  | .timeFlitSend => none
  | .timeFlitReceive => none
  | .ptpMessageReceive => none
  | .arbiterClaim => none
  | .arbiterReplyTimeout => none
  | .spentEntryExpiry => none
  | .timeBeaconEthernet => none
  | .beaconTimeout => none
  | .highWaterUpdate => none
  | .contextExpiry => none
  | .tokenLapsed => none
  | .handoverHoldExpiry => none
  | .handoverRelease => none
  | .hotPatchDoorbell => none
  | .patchBusy => none
  | .applyDoorbell => none
  | .admissionDoorbellWarrant => none
  | .admissionDoorbellToken => none
  | .admissionDoorbellRevocation => none
  | .admissionDoorbellBeacon => none
  | .hostLaunchRecord => none
  | .hostPartitionRead => none
  | .hostPartitionWrite => none
  | .registerWrite => none
  | .sagePeriodicSample => none
  | .counterPageUpdate => none
  | .supplySagTrip => none
  | .coldReset => none
  | .warmReset => none
  | .arbiterReply => none
  | .remoteMappingRequest => none
  | .portTrainingEnd => none
  | .hostLaneFailure => none
  | .supplySagClear => none

/-- The command word of an engine command with its open fields. -/
def encodeCommand (i : Instr) (c : Cmd) : Option (BitVec 256) := (commandCode i).map fun e => writeCmd e.1 e.2 c

end Sys2Proof
end

