-- ==== Sys2Proof/Machine/Map.lean ====
section
/-! DEFINITION. Reading and writing finite tables. Every table of the state is kept with strictly rising keys, and
a table with a default lists no entry equal to that default, so that equal contents are equal data. -/
namespace Sys2Proof.Machine

/-- The value listed under a key. -/
def tabGet? {α : Type} : Tab α → Nat → Option α
  | [], _ => none
  | (k', v) :: t, k => if k' = k then some v else tabGet? t k

/-- The value under a key, or the default. -/
def tabGet {α : Type} (t : Tab α) (k : Nat) (d : α) : α := (tabGet? t k).getD d

/-- List a value under a key, replacing any earlier one and keeping the keys rising. -/
def tabSet {α : Type} : Tab α → Nat → α → Tab α
  | [], k, v => [(k, v)]
  | (k', v') :: t, k, v =>
    if k < k' then (k, v) :: (k', v') :: t
    else if k = k' then (k, v) :: t
    else (k', v') :: tabSet t k v

/-- Remove a key. -/
def tabErase {α : Type} : Tab α → Nat → Tab α
  | [], _ => []
  | (k', v') :: t, k => if k' = k then tabErase t k else (k', v') :: tabErase t k

/-- Write a value in a table with a default: the default itself is not listed. -/
def tabPut {α : Type} [DecidableEq α] (t : Tab α) (k : Nat) (v d : α) : Tab α :=
  if v = d then tabErase t k else tabSet t k v

/-- Remove every key of a range. -/
def tabClear {α : Type} (t : Tab α) (lo size : Nat) : Tab α :=
  t.filter fun e => !(decide (lo ≤ e.1) && decide (e.1 < lo + size))

/-- The keys rise strictly. -/
def tabSorted {α : Type} : Tab α → Bool
  | [] => true
  | [_] => true
  | (k, _) :: (k', v') :: t => decide (k < k') && tabSorted ((k', v') :: t)

/-- The canonical form: keys rise strictly, and no entry holds what an unlisted key reads as. -/
def tabCanon {α : Type} [DecidableEq α] (t : Tab α) (d : Nat → α) : Bool :=
  tabSorted t && t.all fun e => !decide (e.2 = d e.1)

/-- Insert a number into a rising list without repeats. -/
def setInsert : List Nat → Nat → List Nat
  | [], n => [n]
  | m :: l, n => if n < m then n :: m :: l else if n = m then m :: l else m :: setInsert l n

end Sys2Proof.Machine
end

