-- ==== Sys2Proof/Machine/Bits.lean ====
section
/-! DEFINITION. Bytes and fields of records, lanes of a register entry, and the two cyclic checks (R10, R12, R14, R16, R64). -/
namespace Sys2Proof.Machine

/-- The number that little-endian bytes spell (R10). -/
def bytesNat (l : List Byte) : Nat := l.foldr (fun b acc => b.toNat + 256 * acc) 0

/-- The low n bytes of a number, least significant first (R10). -/
def natBytes : Nat → Nat → List Byte
  | 0, _ => []
  | n + 1, x => BitVec.ofNat 8 x :: natBytes n (x / 256)

/-- A 64-byte record as bytes, and back (R10). -/
def vecBytes (v : Vec) : List Byte := natBytes 64 v.toNat
def bytesVec (l : List Byte) : Vec := BitVec.ofNat 512 (bytesNat l)

/-- Byte field of a record: `size` bytes at byte offset `off`, as a number (R14). -/
def fieldAt {w : Nat} (v : BitVec w) (off size : Nat) : Nat := v.toNat / 2 ^ (8 * off) % 2 ^ (8 * size)

/-- Bits h down to l of a number (R14). -/
def natBits (x lo len : Nat) : Nat := x / 2 ^ lo % 2 ^ len

/-- A record built from fields: bit offset, bit length, value; the fields do not overlap. -/
def packFields (w : Nat) (l : List (Nat × Nat × Nat)) : BitVec w :=
  BitVec.ofNat w (l.foldl (fun acc f => acc + f.2.2 % 2 ^ f.2.1 * 2 ^ f.1) 0)

/-- A record built from byte fields: byte offset, byte length, value. -/
def packBytes (w : Nat) (l : List (Nat × Nat × Nat)) : BitVec w :=
  packFields w (l.map fun f => (8 * f.1, 8 * f.2.1, f.2.2))

/-- Lane i of an entry (R16). -/
def lane (v : Vec) (i : Nat) : BitVec 32 := v.extractLsb' (32 * i) 32

/-- Lane numbers 0 to 15. -/
def laneList : List Nat := [0, 1, 2, 3, 4, 5, 6, 7, 8, 9, 10, 11, 12, 13, 14, 15]

/-- An entry from its lanes (R16). -/
def ofLanes (f : Nat → BitVec 32) : Vec :=
  f 15 ++ f 14 ++ f 13 ++ f 12 ++ f 11 ++ f 10 ++ f 9 ++ f 8 ++ f 7 ++ f 6 ++ f 5 ++ f 4 ++ f 3 ++ f 2 ++ f 1 ++ f 0

/-- Halfword j of an entry (R111). -/
def halfword (v : Vec) (j : Nat) : BitVec 16 := v.extractLsb' (16 * j) 16

/-- The scalar part of an entry, wN[63:0] (R16). -/
def scalarOf (v : Vec) : Word := v.setWidth 64

/-- D := v: the value with zeros above it (R65). -/
def widen (x : Word) : Vec := x.setWidth 512

/-- The zero flags that a value gives (R35). -/
def zeroFlags (v : Vec) : BitVec 16 :=
  BitVec.ofBoolListLE (laneList.map fun i => lane v i == 0#32)

/-- One bit of a reflected CRC-32C step; polynomial 0x1EDC6F41 (assumption 15). -/
def crc32cBit (c : BitVec 32) : BitVec 32 :=
  if c.getLsbD 0 then (c >>> 1) ^^^ 0x82F63B78#32 else c >>> 1

/-- CRC-32C over a byte list (R12; assumption 15). -/
def crc32c (l : List Byte) : BitVec 32 :=
  ~~~ (l.foldl (fun c b =>
    crc32cBit (crc32cBit (crc32cBit (crc32cBit (crc32cBit (crc32cBit (crc32cBit (crc32cBit
      (c ^^^ b.setWidth 32))))))))) 0xFFFFFFFF#32)

/-- One bit of CRC-16, polynomial 0x1021 (R64). -/
def crc16Bit (c : BitVec 16) : BitVec 16 :=
  if c.getLsbD 15 then (c <<< 1) ^^^ 0x1021#16 else c <<< 1

/-- One byte into a running CRC-16 (R64). -/
def crc16Byte (c : BitVec 16) (b : Byte) : BitVec 16 :=
  crc16Bit (crc16Bit (crc16Bit (crc16Bit (crc16Bit (crc16Bit (crc16Bit (crc16Bit
    (c ^^^ (b.setWidth 16 <<< 8)))))))))

/-- A record of 64 bytes with the CRC-32C of its first 60 in bytes 0x3C to 0x3F (R161, R294, R322, R379). -/
def sealVec (v : Vec) : Vec :=
  let head := natBytes 60 v.toNat
  bytesVec (head ++ natBytes 4 (crc32c head).toNat)

/-- The record's CRC-32C agrees with its bytes. -/
def sealed (v : Vec) : Bool := fieldAt v 0x3C 4 == (crc32c (natBytes 60 v.toNat)).toNat

/-- A list cut into pieces of n. -/
def chunksGo {α : Type} (n : Nat) : Nat → List α → List (List α)
  | 0, _ => []
  | fuel + 1, l => if l.isEmpty then [] else l.take n :: chunksGo n fuel (l.drop n)

def chunks {α : Type} (n : Nat) (l : List α) : List (List α) := chunksGo n l.length l

/-- Replace the n-th element. -/
def listSet {α : Type} (l : List α) (n : Nat) (v : α) : List α := l.set n v

/-- Remove the n-th element. -/
def listDrop {α : Type} (l : List α) (n : Nat) : List α := l.eraseIdx n

end Sys2Proof.Machine
end

