-- ==== Sys2Proof/Machine/Units.lean ====
section
/-! DEFINITION. The units the state is made of: register entries, threads, queues, engines, contexts, the Keystone,
the links and the host port. Every field's bracket names its width, the spec file and rule that give it, and its
value at reset. Data that is the model's own and no register of the spec says "model". -/
namespace Sys2Proof.Machine

/-- One entry of a core's register file (R31 to R37). -/
structure Reg where
  /-- Contents. [512 | 02 R31 R37 | 0] -/
  val : Vec
  /-- Full/empty bit, true for full. [1 | 02 R32 R37 | full] -/
  full : Bool
  /-- Zero flag of each lane word. [16 | 02 R35 R37 | 0xFFFF] -/
  zf : BitVec 16
  /-- Poison mark. [1 | 02 R36 R37 | clear] -/
  poison : Bool
  /-- The killed core an error token named, when known (R162). [10+1 | 08 R162 | none] -/
  token : Option Nat
  /-- Flipped bits of lane 0 not yet found by a read: 0, 1 or 2. [check bits | 18 R312 R327 | 0] -/
  flips : Nat
  deriving DecidableEq, Repr

/-- One hardware loop level (R38, R90). -/
structure Loop where
  /-- First word of the body. [48 | 02 R38, 04 R90 | DESIGN CHOICE 0 (log 2)] -/
  start : Addr
  /-- Last word of the body. [48 | 02 R38, 04 R90 | DESIGN CHOICE 0 (log 2)] -/
  stop : Addr
  /-- Passes left. [64 | 02 R38, 04 R90 | DESIGN CHOICE 0 (log 2)] -/
  count : Word
  /-- The level is active. [1 | 02 R38, 04 R90 | DESIGN CHOICE 0 (log 2)] -/
  active : Bool
  deriving DecidableEq, Repr

/-- Binding of a task channel q8 to q15 (R38, R297). -/
structure Binding where
  /-- Graph channel number. [8 | 17 R297 | unbound] -/
  chan : Nat
  /-- Direction: 1 input, 2 output. [2 | 17 R297 | unbound] -/
  dir : Nat
  /-- Depth code. [3 | 17 R297 | unbound] -/
  depth : Nat
  /-- PARK has taken the end-of-stream token. [1 | 17 R297 | unbound] -/
  ended : Bool
  /-- Graph ID. [8 | 17 R297 | unbound] -/
  graph : Nat
  deriving DecidableEq, Repr

/-- A bound stream register s0 to s7 (R193). -/
structure Stream where
  /-- The bound command (model key). [model | 10 R193 | unbound] -/
  key : Nat
  /-- Sequence number of the bound command. [16 | 10 R193 | unbound] -/
  seq : Nat
  /-- The stream has ended. [1 | 10 R193 | unbound] -/
  ended : Bool
  /-- The command failed. [1 | 10 R193 | unbound] -/
  faulted : Bool
  /-- Bytes 0x00 to 0x07 of the failed command's record, and its faulting address. [64+64 | 10 R195 | unbound] -/
  record : Word
  fault : Word
  /-- Element size code. [8 | 10 R193 | unbound] -/
  esz : Nat
  /-- Index of the next element to deliver. [32 | 10 R193 | unbound] -/
  k : Nat
  /-- Elements of the command in all. [model | 10 R196 | unbound] -/
  total : Nat
  /-- Element buffer, oldest first, at most 16. [16 x 512 | 10 R193 | unbound] -/
  buffer : List Vec
  deriving DecidableEq, Repr

/-- One store-buffer entry: the writes of one store instruction (R119), by home address. -/
structure Store where
  /-- Bytes written, by home address. -/
  writes : Tab Byte
  /-- The elements of a VSCAT, which become visible one by one; none of another store (R117, R149). -/
  parts : List (Tab Byte)
  /-- Issue number, which gives program order (model). -/
  order : Nat
  /-- Earliest cycle in which the committed entry becomes visible (model, R150). -/
  due : Nat
  /-- Issue number and scope of the commit with release order that it left the buffer in, or none (R151). -/
  rel : Option (Nat × Nat)
  /-- The thread (model identity), its core and its partition. -/
  uid : Nat
  core : Nat
  part : Nat
  deriving DecidableEq, Repr

/-- How a load widens what it reads (R121 to R123). -/
inductive LoadKind where
  | zero (n : Nat)
  | sign (n : Nat)
  | line
  | lanes
  deriving DecidableEq, Repr

/-- The operation of an AMO (R127), and CAS (R128). -/
inductive AmoOp where
  | add | and | or | xor | min | max | swp | cas
  deriving DecidableEq, Repr

/-- What an outstanding long-latency producer delivers (R32). -/
inductive Producer where
  /-- A load of the listed home addresses; `got` holds the bytes of the elements of a VLDS or VGATH that have performed (R117, R149). -/
  | load (kind : LoadKind) (addrs : List Nat) (got : Tab Byte)
  /-- A value already taken, with the status word of a status form. -/
  | value (v : Vec) (status : Option Word)
  /-- An error token (R36), with the killed core when known. -/
  | token (core : Option Nat) (status : Option Word)
  /-- An atomic at its home (R126); `c` is the compare value of CAS. -/
  | atomic (op : AmoOp) (addr : Nat) (b c : Word)
  deriving DecidableEq, Repr

/-- A destination of a ONCE post: the leader's file entry whose value it carries, member core, slot, file entry and
hop (R100). -/
structure PostTo where
  from_ : Nat
  core : Nat
  slot : Nat
  entry : Nat
  hop : Nat
  deriving DecidableEq, Repr

/-- An outstanding arrival (R32). -/
structure Arrival where
  /-- The thread that issued the producer (model identity), its core, slot and partition. -/
  uid : Nat
  core : Nat
  slot : Nat
  part : Nat
  /-- Issue number (program order). -/
  order : Nat
  /-- Cycle of arrival. -/
  due : Nat
  /-- File entry of the destination, and of the status destination. -/
  rd : Nat
  ws : Option Nat
  prod : Producer
  /-- Acquire scope, when the producer carries one. -/
  acq : Option Nat
  /-- Release scope, when the atomic carries one. -/
  rel : Option Nat
  /-- Members that receive a ONCE post of the value. -/
  posts : List PostTo
  /-- Virtual addresses of its checked access, and its bytes at each, for the start of an engine's command (R198). -/
  vas : List Nat
  bytes : Nat
  /-- Elements of a VLDS or VGATH, or the whole of another load as element 0, that may perform before the arrival: each with the
  earliest cycle for it (model, R149). -/
  takes : List (Nat × Nat)
  deriving DecidableEq, Repr

/-- An access that has performed before accesses that come before it by orders narrower than the device (R153, R285, R288): its
thread, core and partition, its issue number, the widest of the scopes, its homes, whether it is a write, and the issue numbers of
what it passed. -/
structure Passed where
  uid : Nat
  core : Nat
  part : Nat
  order : Nat
  scope : Nat
  homes : List Nat
  write : Bool
  waits : List Nat
  deriving DecidableEq, Repr

/-- A completed fence (R125): its thread and issue number, its kind as in fn, and its scope. -/
structure Fence where
  uid : Nat
  order : Nat
  kind : Nat
  scope : Nat
  deriving DecidableEq, Repr

/-- A ONCE post on its way to a member (R100). -/
structure Post where
  dest : PostTo
  /-- Cycle in which the pair reaches the member, and then the cycle of landing. -/
  due : Nat
  /-- The leader's core, whose kill turns the post into a token (R318). -/
  leader : Nat
  /-- The value, or an error token. -/
  val : Option Vec
  /-- The post has been released by the leader; before that it is only owed. -/
  ready : Bool
  /-- The member's entry is already empty. -/
  emptied : Bool
  /-- Member's thread (model identity). -/
  uid : Nat
  /-- The leader's thread, and the issue number of its pair: 0 until the leader issues it. -/
  src : Nat
  pair : Nat
  deriving DecidableEq, Repr

/-- A taken transfer's bearing on the loop levels (R92) and on flag [3] of a fetch fault (R163). -/
inductive Transfer where
  /-- Sequential flow. -/
  | none
  /-- A taken BC, J, JR or RET, by which a level outside its range becomes inactive. -/
  | jump
  /-- CALL, CALLR, the skip of LOOP, an inline FORK: the levels stay. -/
  | call
  deriving DecidableEq, Repr

/-- A trap raised by a thread (R162). -/
structure TrapInfo where
  code : Nat
  detail : Nat
  /-- Saved PC. -/
  pc : Addr
  info : Word
  second : Word
  /-- Bits of record byte 0x03 that the cause sets: [3] kept transfer, [4] completion status, [5] asynchronous. -/
  flags : BitVec 8
  deriving DecidableEq, Repr

/-- What an instruction does in its completion cycle (R18: an assignment takes effect when the entry completes). -/
inductive Effect where
  /-- Write all 512 bits of a file entry: V := v or D := v (R65, R101). -/
  | reg (entry : Nat) (v : Vec)
  /-- An error token into a file entry (LDPC of a lost line, R77). -/
  | token (entry : Nat)
  /-- OR exception flags into sr.fflags (R69). -/
  | flags (f : BitVec 5)
  /-- Set lk (R88, R89). -/
  | lk (a : Addr)
  /-- Set or clear a loop level (R90). -/
  | loop (level : Nat) (l : Loop)
  /-- SYS.SET (R147). -/
  | sysSet (x : Nat) (a : Word)
  /-- A load: checks of R114, then an outstanding arrival. -/
  | load (rd : Nat) (kind : LoadKind) (addrs : List Word) (size : Nat) (acq : Option Nat)
  /-- A store: checks of R114, then a buffer entry (R119). -/
  | store (writes : List (Word × List Byte)) (size : Nat) (rel : Option Nat)
  /-- AMO or CAS (R126). -/
  | atomic (rd : Nat) (op : AmoOp) (a b c : Word) (acq rel : Bool)
  /-- JOIN (R95). -/
  | join (a : Word)
  /-- PREF (R124). -/
  | pref (a : Word) (p : Nat)
  /-- FENCE (R125): kind and scope; then the wait for its commit and arrivals. -/
  | fence (kind scope : Nat)
  | fenceWait (kind scope : Nat)
  /-- FORK (R93): arm and counter address. -/
  | fork (arm : Addr) (a : Word)
  /-- ENDS, and THR.STOP of the issuer (R96, R139). -/
  | ends
  /-- SPLIT (R98). -/
  | split
  /-- The thread becomes a member of the gang of a mask (R97). -/
  | gang (mask : BitVec 4)
  /-- QPUSH of an engine queue or a channel (R131). -/
  | qpush (wd q : Nat) (cmd : BitVec 256) (opr : Vec)
  /-- QTEST (R133). -/
  | qtest (wd q : Nat)
  /-- EVT.TERM, EVT.CNT, EVT.ARM, EVT.READ (R137). -/
  | evtTerm (n : Nat) (a : Word)
  | evtCnt (n : Nat) (a b : Word)
  | evtArm (n : Nat) (a : Word)
  | evtRead (wd n : Nat)
  /-- THR.START (R138). -/
  | thrStart (rd : Nat) (req a : Word)
  /-- THR.STOP, THR.RESUME(.NEXT), THR.SWAP(.IN) (R139), by form. -/
  | thrStop (rd : Nat) (a : Word)
  | thrResume (rd : Nat) (a : Word) (next : Bool)
  | thrSwap (rd : Nat) (a : Word)
  | thrSwapIn (rd : Nat) (a : Word)
  /-- THR.YIELD (R140). -/
  | yield
  /-- NWRITE and WAKE (R141, R142). -/
  | nwrite (core slot reg : Nat) (v : Vec)
  | wake (core slot : Nat) (v : Word)
  /-- ARRIVE at a scope (R144). -/
  | arrive (rd scope : Nat) (a : Word)
  /-- An acquire at a scope by an instruction that waited (R137, R145, R256). -/
  | acquire (scope : Nat)
  /-- LAUNCH and its forms (R307). -/
  | launch (rd : Nat) (record : Vec)
  | launchWait (rd : Nat) (a : Word)
  | launchQuery (rd : Nat) (a : Word)
  | launchAge (rd : Nat) (a : Word)
  /-- CANCEL (R308). -/
  | cancel (rd level : Nat) (rewind : Bool) (a : Word)
  /-- A CANCEL that waits for the stopped units' instructions in flight, with its result and graph. -/
  | cancelEnd (rd : Nat) (result : Word) (ids : List Nat) (rewind : Bool) (graph : Nat) (self : Bool)
  /-- The checkpoint of ROUND (R309): register images are taken at issue. -/
  | round (rd : Nat) (a : Word) (images : List Vec) (pc : Addr)
  /-- MEM.MAP, MEM.UNMAP, MEM.ATTR (R281 to R283). -/
  | memMap (rd form prot attr : Nat) (d a : Word)
  | memUnmap (rd : Nat) (d a : Word)
  | memAttr (rd prot attr : Nat) (d a : Word)
  /-- MEM.UNMAP and MEM.ATTR once steps 1 and 2 of R284 are done: they wait for the engines' commands, then take effect. -/
  | memUnmapGo (rd va len : Nat)
  | memAttrGo (rd prot attr va len : Nat)
  /-- RWT.LOAD and RWT.CTL (R257, R258). -/
  | rwtLoad (rd : Nat) (a : Word)
  | rwtCtl (rd : Nat) (a : Word)
  | rwtCtlGet (rd : Nat)
  /-- SBIND and SDONE (R194, R196). -/
  | sbind (rd n : Nat) (a : Word)
  | sdone (rd n : Nat)
  /-- AM.SEND and AM.HANDLER (R345, R346). -/
  | amSend (d : Word) (v : Vec)
  | amHandler (rd : Nat) (a : Word)
  /-- LNK.STATUS (R348). -/
  | lnkStatus (rd : Nat) (a : Word)
  /-- A presentation that waits in the Keystone for its turn or for the arbiter (R361, R362). -/
  | keystoneWait
  /-- The checks of a Keystone request's buffer, which begin while a range that it meets is being unmapped or changed, and are
  decided after that (R284, R371). -/
  | recheck (a : Word) (len : Nat) (out : Bool)
  /-- The WRT.* instructions, CODE.ADMIT and ATTEST (R371 to R377). -/
  | wrtPresent (rd form : Nat) (a : Word)
  | wrtSplit (rd : Nat) (d a : Word)
  | wrtDelegate (rd : Nat) (d a : Word)
  | wrtSurrender (rd : Nat) (a : Word)
  | wrtQuery (rd n : Nat) (a : Word)
  | codeAdmit (rd : Nat) (d a : Word)
  | attest (rd : Nat) (a : Word)
  deriving DecidableEq, Repr

/-- The one instruction a thread has in flight (R26). -/
structure Flight where
  /-- Cycle in which it completes, and the end of its latency class (R26). -/
  due : Nat
  least : Nat
  /-- Issue number: when two complete in one cycle, the later issued prevails (R31). -/
  order : Nat
  /-- The prefixed word of a ONCE pair. -/
  pair : Option (BitVec 32)
  /-- The bytes of R64 it contributes to its block's stream, its major opcode, and whether it writes memory. -/
  sig : List Byte
  major : Nat
  store : Bool
  /-- The instruction is THR.STOP of the issuer, which ends a block (R62). -/
  ends : Bool
  /-- What completion does, in order. -/
  fx : List Effect
  /-- Next PC, before the loop levels act. -/
  next : Addr
  xfer : Transfer
  /-- Condition that holds it beyond its latency: 0 none, 1 translation and checks, 2 firmware or Keystone (R397), 3 firmware for at most
  1 µs (R258): with its class latency at most 1,912 cycles, less than that even while the clock is stretched. -/
  kind : Nat
  /-- Destinations in the members of a gang under ONCE. -/
  posts : List PostTo
  /-- File entries that are empty from the issue on, and those of them that were full before it, for R116. -/
  emptied : List Nat
  wasFull : List Nat
  /-- The checker has judged it (R152): a condition still holds it in flight. -/
  checked : Bool
  deriving DecidableEq, Repr

/-- What a BLOCKED or PARKED thread waits for (R27). -/
inductive Wait where
  /-- The listed file entries to become full (R33, R34). -/
  | regs (entries : List Nat)
  /-- A queue entry, or room in a queue (R130, R132). -/
  | entry (q : Nat)
  | room (q : Nat)
  /-- Room in a launch queue (R307). -/
  | launchRoom (q : Nat)
  /-- A stream element or the stream's end (R195). -/
  | stream (n : Nat)
  /-- A barrier's generation to differ (R145). -/
  | barrier (key gen : Nat)
  /-- An event term (R137). -/
  | term (n : Nat)
  /-- A COUPLE rendezvous: destination, mask, issue cycle, the checker's bytes (R97). -/
  | couple (rd : Nat) (mask : BitVec 4) (since : Nat) (sig : List Byte)
  /-- Earlier commands of this thread on the selected queues (R256): those issued before the number. -/
  | commands (q : BitVec 3) (before : Nat)
  /-- A work level's counter to reach zero (R307). -/
  | work (level id : Nat)
  /-- The graph round, marker room or markers of ROUND n in progress, and the flight it ends with (R309). -/
  | round (n : Nat) (f : Flight)
  /-- The end of a landing's arming (R143): aux 0 or 1. -/
  | arming (ntf : Bool)
  /-- Task channels of a PARK (R310). -/
  | park (mask : Nat)
  /-- A task stopped for its graph's rewind (R308). -/
  | rewind
  deriving DecidableEq, Repr

/-- State of a thread slot that is not FREE (R27). SWAPPED threads stand in their context's saved records. -/
inductive SlotState where
  | ready
  | inflight (f : Flight)
  | blocked (w : Wait)
  | parked (w : Wait)
  | trapped (t : TrapInfo)
  /-- Swapped out, with the slot busy until the record is written (R169). -/
  | leaving (record : Nat) (until_ : Nat)
  deriving DecidableEq, Repr

/-- What happens to a thread once its instruction in flight completes (R139, R164, R169, R308). -/
inductive After where
  /-- THR.STOP and CANCEL: the code the unit ends with, and whether its barrier arrivals count as stopped (R146). -/
  | stop (code : Nat) (gone : Bool)
  /-- A swap out into the numbered record; by THR.SWAP, the thread then waits for THR.SWAP.IN. -/
  | swap (record : Nat) (asked : Bool)
  /-- The expiry notice. -/
  | notice
  /-- A rewind of its graph. -/
  | rewind
  deriving DecidableEq, Repr

/-- The checker's track of a thread (R314): the block being checked and the bytes of its stream so far. -/
structure Check where
  /-- Address of the first word of the code section and byte offset of the block's entry. -/
  text : Addr
  entry : Nat
  /-- Instructions completed and stores made in the block. -/
  count : Nat
  stores : Nat
  /-- CRC-16 over the stream so far (R64). -/
  crc : BitVec 16
  deriving DecidableEq, Repr

/-- A thread slot that holds a thread (R27, R38, R39, R138, R296). -/
structure Thread where
  /-- Identity of the thread for outstanding accesses. [model | log 4 | no thread] -/
  uid : Nat
  /-- Slot state. [R27's states | 02 R27 | FREE] -/
  state : SlotState
  /-- First cycle in which a READY thread may issue. [model | 02 R27 | no thread] -/
  readyAt : Nat
  /-- Program counter, bits [1:0] zero. [48 | 03 R48 | DESIGN CHOICE 0 (log 2)] -/
  pc : Addr
  /-- Link register. [48 | 02 R38 | DESIGN CHOICE 0 (log 2)] -/
  lk : Addr
  lp0 : Loop
  lp1 : Loop
  /-- sr.fflags: NV DZ OF UF NX. [5 | 04 R69 | 0] -/
  fflags : BitVec 5
  /-- sr.thread.FORK_INLINE. [1 | 02 R39 | 0] -/
  forkInline : Bool
  /-- sr.thread.COUPLED. [1 | 02 R39 | 0] -/
  coupled : Bool
  /-- sr.thread.GANG_POS. [2 | 02 R39 | 0] -/
  gangPos : BitVec 2
  /-- sr.thread.GANG_MASK. [4 | 02 R39 | 0] -/
  gangMask : BitVec 4
  /-- sr.window.BASE. [11 | 02 R28 R30 | 0] -/
  base : Nat
  /-- sr.window.SIZE. [8 | 02 R28 R30 | 0] -/
  size : Nat
  /-- Launch the thread belongs to. [16 | 17 R292 | none] -/
  launch : Nat
  /-- The unit is a message thread's handler, which ends without freeing launch counts (R347). [1 | 20 R347 | none] -/
  handler : Bool
  /-- Task channels q8 to q15 by index 0 to 7. [8 x 128 | 02 R38 | unbound] -/
  chans : Tab Binding
  /-- Stream registers s0 to s7. [8 x 128 | 02 R38 | unbound] -/
  streams : Tab Stream
  /-- Store buffer, oldest first, at most 8 entries. [8 entries | 05 R119 | empty] -/
  buffer : List Store
  /-- Notify latch: none when not valid. [64+1 | 06 R142 | not valid] -/
  notify : Option Word
  /-- Register armed by NWAIT aux 0 and by aux 1. [8+8 | 06 R143 | none] -/
  armNbr : Option Nat
  armNtf : Option Nat
  /-- The fetch address is the target of a taken transfer (R163). [model | 08 R163 | none] -/
  kept : Bool
  /-- The words forwarded to a gang member, and the cycle they reach it (R42). [model | 02 R42 | none] -/
  forward : Option (BitVec 32 × Option (BitVec 32) × Nat)
  /-- The gang member has completed the word last forwarded, with its outcome (R42, R43). [model | 02 R42 | none] -/
  outcome : Option Addr
  /-- What happens once the instruction in flight completes. [model of 06 R139, 08 R164 R169 | 06 R139 | none] -/
  after : Option After
  /-- Checker's track. [model of 18 R314 | 18 R314 | none] -/
  check : Option Check
  /-- An injected signature mismatch is to come (R327). [model of 18 R327 | 18 R327 | none] -/
  mismatch : Bool
  /-- Progress of a ROUND that waits: its number and the channels served (R309). [model | 17 R309 | none] -/
  roundStep : Option (Nat × List Nat × List Nat)
  deriving DecidableEq, Repr

/-- A command record in a queue (R129, R131). -/
structure CmdEntry where
  /-- The 256-bit word, the 512-bit operand record and the CRC-32C over both. [256+512+32 | 06 R129 | empty] -/
  cmd : BitVec 256
  opr : Vec
  crc : BitVec 32
  /-- Sequence number. [16 | 06 R131 | empty] -/
  seq : Nat
  /-- Who pushed it: core, slot, queue, thread identity, partition, launch, window. -/
  core : Nat
  slot : Nat
  queue : Nat
  uid : Nat
  part : Nat
  launch : Nat
  base : Nat
  size : Nat
  /-- Issue number of the push, and the command's own key (model). -/
  order : Nat
  /-- The command has been bound by SBIND (R178). -/
  bound : Bool
  /-- The gate term has fired and the command may start from this cycle (R136). -/
  fired : Option Nat
  /-- The command was cancelled before its start (R200). -/
  cancelled : Bool
  /-- The rewrite stage decided it literal (R224), and the cycle it may be decided from. -/
  literal : Bool
  since : Nat
  /-- A flush point followed it before it was in the window, so no group goes on beyond it (R232). -/
  cut : Bool
  deriving DecidableEq, Repr

/-- A write of an engine not yet visible, in destination element order (R197). -/
structure ElemWrite where
  addr : Nat
  bytes : List Byte
  deriving DecidableEq, Repr

/-- A collective's joined member (R343). -/
structure Member where
  dev : Nat
  opcode : Nat
  body : BitVec 224
  map : BitVec 256
  input : List Byte
  deriving DecidableEq, Repr

/-- A step of a dispatch (R340): a token's placement, with its claim, data and header; then the Filled increment and
the placement record. -/
inductive RouteStep where
  | token (i : Nat)
  | fill (i expert slot rank dev line : Nat)
  deriving DecidableEq, Repr

/-- A started engine command (R178, R238, R332). -/
structure Active where
  entry : CmdEntry
  /-- Cycle of start and earliest cycle of completion. -/
  start : Nat
  due : Nat
  /-- Element writes still to become visible, in order, and how many have. -/
  writes : List ElemWrite
  done : Nat
  /-- Status and detail of the completion record, faulting address (R134). -/
  status : Nat
  detail : Nat
  fault : Word
  /-- Saturation flag bit [2], and the engine-specific bytes 0x18 to 0x3F (R134). -/
  sat : Bool
  extra : BitVec 320
  /-- Tile words written when the command completes without fault (R240). -/
  tiles : Tab (BitVec 32)
  /-- A destination lies on another device (R191). -/
  pod : Bool
  /-- Elements discarded after SDONE: those it found buffered, and those no longer forwarded (R179, R196). -/
  dropped : Nat
  /-- Rewrite outcome bytes and flags (R236): outcome, pattern slot, first sequence number, rule ID. -/
  rewrite : Option (Nat × Nat × Nat × Nat)
  /-- A collective waiting for peers: its tag, serial, joined members, and sr.time (quarter ns) of the first start. -/
  waiting : Option (Nat × BitVec 128 × List Member × Nat)
  /-- A dispatch's steps still to come (R340). -/
  steps : List RouteStep
  /-- The replacement commands of the group whose first member is the entry: its writes are held to the commit (R234). -/
  grouped : Bool
  /-- A register operand still has an empty entry, so nothing is computed yet (R218). -/
  stalled : Bool
  /-- An eviction schedule to install at completion (R184). -/
  sched : Option (List (BitVec 128) × Nat)
  /-- First and last byte of the ranges of a route command, those on other devices among them, which no lock holds (R284, R404). -/
  ranges : List (Nat × Nat)
  deriving DecidableEq, Repr

/-- An entry of a cluster's range-lock table (R188, R189). -/
structure Lock where
  /-- First and last locked 64-byte line of virtual addresses (scratch in window form). [48+48 | 10 R188 | free] -/
  first : Nat
  last : Nat
  /-- Write lock. [1 | 10 R188 | free] -/
  write : Bool
  /-- Context that registered it. [5 | 10 R188 | free] -/
  part : Nat
  /-- Command that holds it (model key). [model | 10 R190 | free] -/
  owner : Nat
  deriving DecidableEq, Repr

/-- A counter of the event crossbar (R135). -/
structure Counter where
  /-- [16 | 06 R135 | 0] -/
  count : Nat
  /-- [16 | 06 R135 | 0] -/
  threshold : Nat
  /-- [1 | 06 R135 | 0] -/
  overflow : Bool
  deriving DecidableEq, Repr

/-- A term of the event crossbar (R135). -/
structure Term where
  /-- [16 | 06 R135 | 0] -/
  m0 : BitVec 16
  /-- [16 | 06 R135 | 0] -/
  m1 : BitVec 16
  /-- [1 | 06 R135 | disarmed] -/
  armed : Bool
  deriving DecidableEq, Repr

/-- A value waiting in a core's landing queue (R141). -/
structure Landing where
  slot : Nat
  reg : Nat
  from_ : Nat
  val : Option Vec
  deriving DecidableEq, Repr

/-- An NWRITE or a WAKE on its way (R141, R142). -/
structure Delivery where
  core : Nat
  slot : Nat
  reg : Nat
  from_ : Nat
  src : Nat
  part : Nat
  due : Nat
  order : Nat
  /-- The value; none when the sending core was killed (R318). -/
  val : Option Vec
  deriving DecidableEq, Repr

/-- An entry of a work-stealing deque (R40). -/
structure Strand where
  /-- [48 | 02 R40 | empty] -/
  arm : Addr
  /-- [48 | 02 R40 | empty] -/
  counter : Addr
  /-- Window base and size of the forker. [11+8 | 02 R40 | empty] -/
  base : Nat
  size : Nat
  /-- [5 | 02 R40 | empty] -/
  part : Nat
  /-- Forker's launch and core (R292). [16+10 | 17 R292 | empty] -/
  launch : Nat
  core : Nat
  deriving DecidableEq, Repr

/-- An active message (R345 to R347). -/
structure Message where
  dev : Nat
  core : Nat
  slot : Nat
  target : Nat
  handler : Nat
  payload : Vec
  part : Nat
  order : Nat
  deriving DecidableEq, Repr

/-- A rewrite group formed at the head of the window (R224, R234, R235). -/
structure Group where
  /-- The 192-byte entry of the rule (R226). -/
  rule : BitVec 1536
  members : List CmdEntry
  /-- Replacement commands, each with its source slot. -/
  repl : List (CmdEntry × Nat)
  /-- It has failed: true by a fault, false by its guard. -/
  failed : Option Bool
  /-- Saturation and the longest ENC8 row of the replacements, by source slot. -/
  sats : List Nat
  rows : List (Nat × Nat)
  deriving DecidableEq, Repr

/-- The record of a trap not yet in q6 (R165). -/
structure TrapOut where
  core : Nat
  slot : Nat
  uid : Nat
  part : Nat
  cycle : Nat
  /-- Bytes 0x00 to 0x3B, the sequence number still to be placed. -/
  body : Vec
  deriving DecidableEq, Repr

/-- One core (R1, R38, R45, R47, R135). A core that is not listed is at reset. -/
structure Core where
  /-- Partition that holds the core. [5+1 | 02 R39, 22 R369 | none] -/
  part : Option Nat
  /-- The core was killed or its deck fenced. [1 | 18 R317 R325 | clear] -/
  fenced : Bool
  /-- sr.scratch.STEPS. [4 | 02 R47 | 0] -/
  steps : Nat
  /-- Slot that issued last; the search of R25 starts after it. [6 | 02 R25 | DESIGN CHOICE 63 (log 2)] -/
  last : Nat
  /-- Cycle in which the core last issued, plus one; 0 before the first issue. [model | 02 R25 | 0] -/
  issued : Nat
  /-- Command queues q0, q2, q4, oldest first, at most 16. [16 entries | 06 R129 | empty] -/
  cmds : Tab (List CmdEntry)
  /-- Completion queues q1, q3, q5, at most 32 records. [32 x 512 | 06 R129 | empty] -/
  comps : Tab (List Vec)
  /-- Completion slots reserved and not yet filled, by completion queue. [6 | 06 R130 | 0] -/
  reserved : Tab Nat
  /-- Sequence counter of each queue. [16 | 06 R131 | 0] -/
  seqs : Tab Nat
  /-- Trap queue q6. [64 x 512 | 06 R129 | empty] -/
  q6 : List Vec
  /-- q6's record sequence counter. [16 | 08 R161 | DESIGN CHOICE 0 (log 2)] -/
  q6seq : Nat
  /-- Keystone events q7. [16 x 512 | 06 R129 | empty] -/
  q7 : List Vec
  /-- Ordered backlog of q7 kept by the Trestle. [records | 06 R130 | empty] -/
  backlog : List Vec
  /-- sr.nlost. [32 | 06 R147 | 0] -/
  nlost : BitVec 32
  /-- Landing queue. [16 entries | 06 R141 | empty] -/
  landing : List Landing
  /-- Work-stealing deque, head first. [64 entries | 02 R40 | empty] -/
  deque : List Strand
  /-- Event counters c0 to c15. [16 x 33 | 06 R135 | 0] -/
  counters : Tab Counter
  /-- Event terms e0 to e15. [16 x 33 | 06 R135 | 0, disarmed] -/
  terms : Tab Term
  /-- Accumulator tiles T0 to T7, word tile*1024 + row*32 + column. [8 x 1024 x 32 | 11 R216 | 0] -/
  tiles : Tab (BitVec 32)
  /-- Rule table, by index; entries beyond are empty. [64 x 192 bytes | 12 R225 | DESIGN CHOICE empty (log 2)] -/
  rules : List (BitVec 1536)
  /-- Rewrite window, oldest first, at most 8 unstarted commands. [8 entries | 12 R222 | empty] -/
  window : List CmdEntry
  /-- Cycle from which the window's head has stood at the head. [model | 12 R224 | 0] -/
  headSince : Nat
  /-- Group formed at the head, which has not started. [model | 12 R224 | none] -/
  group : Option Group
  /-- Group that has started: its active command's key is its first member's. [model | 12 R234 | none] -/
  running : Option Group
  /-- Commands of a failed group still to be replayed, and the group's identity (R235). [model | 12 R235 | none] -/
  replay : List (CmdEntry × Nat × Nat × Nat × Nat)
  /-- Identity of the message thread, whose handlers are one thread; 0 before the first (R291). [model | 16 R291 | 0] -/
  messageUid : Nat
  /-- Installed handler table: 64 code addresses, window base and size of slot 63. [64 x 64 + 19 | 20 R345 | none] -/
  handlers : Option (List Word × Nat × Nat)
  /-- Arrival queue of active messages. [64 entries | 20 R347 | empty] -/
  arrivals : List Message
  /-- Slot counter of the Sage. [6 | 24 R396 | 0] -/
  sageSlot : Nat
  /-- Cycle of the last periodic sample; 0 before the first. [model | 24 R396 | 0] -/
  sageAt : Nat
  /-- Cycle of the last accepted software sample, plus one; 0 before the first (R148). [model | 06 R148 | 0] -/
  softSample : Nat
  /-- Corrected errors by structure, as the sources of R322. [counts | 18 R313, 24 R400 | 0] -/
  corrected : Tab Nat
  /-- Deliveries discarded at the sealed mailboxes of a killed core. [32 | 18 R317 | 0] -/
  sealedCount : Nat
  /-- The partition that held the core when it was killed. [model of 18 R317 | 18 R317 | none] -/
  heldBy : Option Nat
  /-- The core is being moved out of its partition. [model | 17 R302, 22 R369 | clear] -/
  moving : Bool
  deriving DecidableEq, Repr

/-- A barrier object (R144, R146). -/
structure Barrier where
  /-- Generation. [16 | 06 R144 R146 | 0] -/
  gen : Nat
  /-- Participant count; none while unset. [16 | 06 R144 R146 | unset] -/
  want : Option Nat
  /-- Arrivals counted in the generation: the arriving unit and whether it was stopped or lost. [16 | 06 R144 | 0] -/
  arrived : List (Nat × Bool)
  deriving DecidableEq, Repr

/-- One entry of a task channel (R129, R297). -/
inductive ChanEntry where
  | data (v : Vec)
  /-- A data entry in which an uncorrectable error stands: it is delivered as an error token (R312). -/
  | token
  | marker (n : Nat)
  | eos
  deriving DecidableEq, Repr

/-- A channel of a graph (R297, R319). -/
structure Chan where
  /-- Depth code. [3 | 17 R297 | no channel] -/
  depth : Nat
  /-- Entries, oldest first. [1 << d entries | 17 R297 | no channel] -/
  entries : List ChanEntry
  /-- Live launch that binds it as input, and as output. [16+16 | 17 R295 | no channel] -/
  input : Option Nat
  output : Option Nat
  /-- The feeding core was killed. [1 | 18 R319 | no channel] -/
  killed : Option Nat
  /-- The core that its input was bound on was killed: entries sent to it are discarded (R317). [model of 18 R317 | 18 R317 | no channel] -/
  sealed_ : Option Nat
  /-- End-of-stream tokens held while the channel is full. [count | 17 R297 | no channel] -/
  held : Nat
  /-- Entries that stand in the message buffer, sent while the consumer's core was away. [count | 08 R173 | no channel] -/
  diverted : Nat
  deriving DecidableEq, Repr

/-- A launch (R292 to R298). -/
structure Launch where
  /-- The 64-byte record. [512 | 17 R294 | no launch] -/
  record : Vec
  /-- State: 0 QUEUED, 1 HEAD, 2 RESERVING, 3 RUNNING, 4 ENDED. [3 | 17 R298 | no launch] -/
  state : Nat
  /-- Units placed or still to be placed. [counter | 17 R292 | no launch] -/
  counter : Nat
  /-- Status code: the first non-zero code to occur. [8 | 17 R293 | no launch] -/
  code : Nat
  /-- Saved PC of a trap with no handler. [48 | 17 R293 | no launch] -/
  pc : Addr
  /-- sr.time (quarter ns) from which the head's age counts. [model | 17 R298 | no launch] -/
  headAt : Nat
  /-- Queued by the host (R393). [1 | 24 R393 | no launch] -/
  host : Bool
  /-- Order of placement, for R302. [model | 17 R302 | no launch] -/
  placed : Nat
  /-- Core and slot of the task of a kind 2 launch. [16 | 17 R300 | no launch] -/
  site : Option (Nat × Nat)
  /-- Round count of the task. [64 | 17 R305 | no launch] -/
  rounds : Nat
  /-- It is being ended, by a trap with no handler or by a cancel: the code its units end with, and whether their barrier
  arrivals count as stopped (R146, R167, R177, R308). [model of 17 R308 | 17 R308 | no launch] -/
  dying : Option (Nat × Bool)
  /-- Its graph was cancelled with it: a later launch that names the graph begins a new one (R311). [model of 17 R311 | 17 R311 | no launch] -/
  detached : Bool
  /-- The task was lost, the core whose kill lost it, and the launch that stands for it (R305, R319). [1+11+16 | 17 R305, 18 R319 | no launch] -/
  lost : Bool
  lostAt : Option Nat
  replacedBy : Option Nat
  deriving DecidableEq, Repr

/-- A graph or phase that has been named (R292, R307). -/
structure WorkLevel where
  /-- Graph round G. [64 | 17 R305 | no graph] -/
  round : Nat
  /-- Launches that ended with a non-zero code, saturating at 255. [8 | 17 R307 | no graph] -/
  failures : Nat
  /-- Work is live. [1 | 17 R292 | no graph] -/
  live : Bool
  deriving DecidableEq, Repr

/-- A code section: text with its signature table (R63, R314, R360). -/
structure Code where
  base : Nat
  text : Nat
  table : Nat
  tableBytes : Nat
  deriving DecidableEq, Repr

/-- A saved context record (R170): the thread, its window image and its unpopped trap record. -/
structure Saved where
  /-- Record number. [16 | 08 R170 R171 | none] -/
  record : Nat
  /-- Core ID of the header: the core that the thread was saved from. [16 | 08 R170 | none] -/
  origin : Nat
  core : Nat
  slot : Nat
  thread : Thread
  /-- Window image, w0 first: contents, full/empty bits and poison marks. [size x 512 | 08 R170 | none] -/
  image : List Reg
  /-- Unpopped trap record. [512 | 08 R170 | none] -/
  trap : Option Vec
  /-- Save-layout version. [16 | 08 R170, 22 R381 | none] -/
  layout : Nat
  /-- Held in the thread-context cache rather than spilled; and the place of a spilled record in the context area.
  [1 + model | 08 R171 | none] -/
  cached : Bool
  place : Option Nat
  /-- A double error was found in it (R312). [1 | 18 R312 | none] -/
  bad : Bool
  /-- THR.SWAP took it out, so THR.SWAP.IN brings it back, not the dispatcher (R27, R139). [model | 02 R27 | none] -/
  asked : Bool
  /-- The move of its core took it out, so it is restored with the core's other threads (R172). [model | 08 R172 | none] -/
  moved : Bool
  deriving DecidableEq, Repr

/-- Why a core is killed (R322): cause, source, whether an injection did it, and for SIGNATURE the block's first word
with the expected and observed CRC. -/
structure Kill where
  cause : Nat
  source : Nat
  injected : Bool
  info : Nat
  expected : Nat
  observed : Nat
  deriving DecidableEq, Repr

/-- Where a record goes besides the device log (R323, R380): nowhere; to the core that holds a graph's supervisor, as partition,
launch and core; to a core while its partition holds it; to a context. -/
inductive Outlet where
  | none
  | site (part id core : Nat)
  | core (part core : Nat)
  | ctx (part : Nat)
  deriving DecidableEq, Repr

/-- A record of this nanosecond: its source number, its bytes, and whether it enters the device log, which then numbers and seals it
(R322, R323, R379, R395). -/
structure Outgoing where
  source : Nat
  body : Vec
  logged : Bool
  outlet : Outlet
  deriving DecidableEq, Repr

/-- A core image (R303), with the queues of R302. -/
structure Image where
  core : Nat
  steps : Nat
  counters : Tab Counter
  terms : Tab Term
  tiles : Tab (BitVec 32)
  rules : List (BitVec 1536)
  landing : List Landing
  deque : List Strand
  scratch : Tab Byte
  cmds : Tab (List CmdEntry)
  comps : Tab (List Vec)
  q7 : List Vec
  seqs : Tab Nat
  handlers : Option (List Word × Nat × Nat)
  records : List Nat
  /-- A double error was found in it, so that its CRC-32C fails (R303, R312). [1 | 18 R312 | none] -/
  bad : Bool
  deriving DecidableEq, Repr

/-- An eviction schedule in force (R184 to R186). -/
structure Sched where
  /-- Round count P. [16 | 10 R185 | none] -/
  rounds : Nat
  entries : List (BitVec 128)
  /-- Graph of the thread that pushed SCHED.LOAD, 0 for none and once that graph has ended; G at installation, the largest G since,
  and the current round. [model | 10 R186 | none] -/
  graph : Nat
  base : Nat
  high : Nat
  current : Nat
  /-- The round whose entries have been applied last. [model | 10 R186 | none] -/
  applied : Option Nat
  deriving DecidableEq, Repr

/-- A context (R8, R358 to R380); the table's key is its partition number. -/
structure Ctx where
  /-- Root handle. [16 | 22 R371 | no context] -/
  handle : Nat
  /-- Serial. [128 | 22 R358 | no context] -/
  serial : BitVec 128
  /-- Service class. [2 | 22 R358 | no context] -/
  cls : Nat
  /-- Priority ceiling. [5 | 22 R358 | no context] -/
  ceilingPrio : Nat
  /-- Flags: host window, injection, group, CODE.ADMIT. [4 | 22 R358 | no context] -/
  flags : BitVec 8
  /-- Permitted-device map. [256 | 22 R358 | no context] -/
  devices : BitVec 256
  /-- Not-after and notice interval. [64+64 | 22 R358 | no context] -/
  notAfter : Word
  notice : Word
  /-- The notice has been raised. [1 | 08 R164 | no context] -/
  noticed : Bool
  /-- Cores, threads per core, launch queues, minimum cores. [16+8+8+16 | 22 R358 | no context] -/
  cores : Nat
  threads : Nat
  queueCount : Nat
  minCores : Nat
  /-- L2 share in MiB, memory bytes, link per mille. [16+64+16 | 22 R358 | no context] -/
  l2 : Nat
  memory : Nat
  link : Nat
  /-- Required protection mode, delegation depth. [8+8 | 22 R358 | no context] -/
  mode : Nat
  depth : Nat
  /-- Result region and handover. [64+64+8 | 22 R358 | no context] -/
  resultBase : Nat
  resultLen : Nat
  handover : Nat
  handoverTo : Nat
  /-- Who presented it: none for the host, else partition, core and identity of the presenting context. [model | 22 R372 R380 | no context] -/
  presenter : Option (Nat × Nat × Nat)
  /-- Delegation index when it was redeemed from a token. [16 | 22 R374 | no context] -/
  token : Option Nat
  /-- Order of admission, for youngest-first choices (R368, R369). [model | 22 R368 | no context] -/
  age : Nat
  /-- Key slot. [6+1 | 22 R370 | no context] -/
  keySlot : Option Nat
  /-- Rewrite ceiling. [2 | 12 R230 | no context] -/
  ceiling : Nat
  /-- Measurement. [512 | 22 R377 | no context] -/
  measure : BitVec 512
  /-- Root page table's physical address. [52 | 15 R266 | no context] -/
  root : Nat
  /-- Memory bytes in use, with the charge of R276. [64 | 15 R280 | no context] -/
  used : Nat
  /-- Code sections. [sections | 22 R360 | no context] -/
  code : List Code
  /-- Launches by ID, next ID, and order counter. [17 R292 | no context] -/
  launches : Tab Launch
  nextLaunch : Nat
  /-- Graphs and phases that have been named, and channels by graph*256 + number. [17 R292 R297 | no context] -/
  graphs : Tab WorkLevel
  phases : Tab WorkLevel
  chans : Tab Chan
  /-- Job's count of launches that ended with a non-zero code. [8 | 17 R307 | no context] -/
  failures : Nat
  /-- Launch queues 0 to 7, oldest first, at most 64. [8 x 64 | 17 R298 | no context] -/
  queues : Tab (List Nat)
  /-- Queue last placed from, by priority. [32 x 3 | 17 R299 | no context] -/
  rotor : Tab Nat
  /-- Age limit in microseconds. [16 | 17 R301 | no context] -/
  ageLimit : Nat
  /-- Region reservation: launch and region. [16+7 | 17 R301 | no context] -/
  reservation : Option (Nat × Nat)
  /-- Saved context records, oldest first, next record number, core images. [08 R171, 17 R303 | no context] -/
  saved : List Saved
  nextRecord : Nat
  images : List Image
  /-- Backlog of q7 records while the context holds no core. [records | 06 R130 | no context] -/
  backlog : List Vec
  /-- Cores whose image was restored on another core, which takes their diverted messages: old core, new core.
  [model of 08 R173 | 08 R173 | no context] -/
  moved : Tab Nat
  /-- Message buffer: its diverted messages, and route deliveries to scratchpads in core images, each with its place, as core*2^20 +
  offset, and its bytes; entries of task channels are counted in Chan. [512 x 128 bytes | 08 R173 | no context] -/
  diverted : List Message
  deliveries : List (Nat × List Byte)
  /-- Eviction schedule. [10 R184 | no context] -/
  sched : Option Sched
  /-- Physical bases of the counter page and the sample ring. [52+52 | 24 R398 | no context] -/
  counterPage : Nat
  ring : Nat
  /-- The last reading of sr.energy of each of its cores. [model of 24 R399 | 24 R399 | no context] -/
  energyAt : Tab Nat
  /-- Counts behind the counter page, by doubleword index. [64 each | 24 R399 | no context] -/
  counts : Tab Nat
  /-- Frames of page tables used by the context. [model | 15 R265 | no context] -/
  tables : List Nat
  /-- Cores that are the context's own for life; its others are on loan. [model | 22 R369 | no context] -/
  own : List Nat
  /-- The context is ending, with its termination code. [16+1 | 22 R378 | no context] -/
  ending : Option Nat
  deriving DecidableEq, Repr

/-- A handle (R371 to R376). -/
structure Handle where
  /-- State: 1 ACTIVE, 2 DELEGATED, 3 ENDED. [8 | 22 R376 | no handle] -/
  state : Nat
  part : Nat
  /-- Identity of the owning context: its order of admission. [model | 22 R371 | no handle] -/
  age : Nat
  root : Nat
  cls : Nat
  code : Nat
  serial : BitVec 128
  notAfter : Word
  cores : Nat
  threads : Nat
  keySlot : Option Nat
  memory : Nat
  l2 : Nat
  link : Nat
  /-- Minimum cores that the handle's resources hold in the sums of R368. [16 | 22 R368 R374 | no handle] -/
  minCores : Nat
  /-- The measurement of its context when that ended. [512 | 22 R376 | no handle] -/
  measure : BitVec 512
  /-- Trusted time (ns) of the end, for the 60 s of R376 and R383. [model | 22 R383 | no handle] -/
  endedAt : Nat
  deriving DecidableEq, Repr

/-- A delegation token issued and not yet redeemed (R374). -/
structure Token where
  serial : BitVec 128
  index : Nat
  handle : Nat
  notAfter : Word
  /-- Issuing partition, core and order of admission of its context. -/
  part : Nat
  core : Nat
  age : Nat
  /-- What the token's context takes over from the issuing one, which the token does not carry (log 33). -/
  prio : Nat
  flags : BitVec 8
  deriving DecidableEq, Repr

/-- A mode-1 handover region held for the host (R378). -/
structure Held where
  base : Nat
  bytes : List Byte
  until_ : Nat
  deriving DecidableEq, Repr

/-- A presentation whose claim waits for the arbiter (R361, R362). -/
structure Pending where
  kind : Nat
  bytes : List Byte
  /-- Thread that waits: core, slot, identity and destination entry; none for the host window. -/
  thread : Option (Nat × Nat × Nat × Nat)
  /-- Who presents: partition, core and order of admission; none for the host. -/
  presenter : Option (Nat × Nat × Nat)
  /-- sr.time (quarter ns) at which the claim times out. -/
  limit : Nat
  /-- The claim is granted; the admission waits for cores to be reclaimed (R369). -/
  granted : Bool
  /-- The image that step 11 has read and hashed, which is the one that is mapped (R361, R382). -/
  image : List Byte
  /-- What a token's context takes over from its issuer (log 33). -/
  prio : Nat
  flags : BitVec 8
  deriving DecidableEq, Repr

/-- An entry of the spent-serial store in MRAM (R362). -/
structure Spent where
  /-- [128 | 22 R362 | survives reset; DESIGN CHOICE empty (log 2)] -/
  serial : BitVec 128
  /-- Delegation index, for a token's entry; none for a warrant's (R372). [16 | 22 R372 | survives reset] -/
  index : Option Nat
  /-- Expiry. [64 | 22 R362 | survives reset] -/
  expiry : Nat
  /-- Devices that redeemed. [256 | 22 R362 | survives reset] -/
  devices : BitVec 256
  deriving DecidableEq, Repr

/-- The Keystone (R361 to R376). -/
structure Keystone where
  /-- Trust state: true for TRUSTED. [1 | 22 R365 | TIME_UNTRUSTED] -/
  trusted : Bool
  /-- High-water mark H in ns (MRAM). [64 | 22 R365 R403 | survives reset; DESIGN CHOICE 0 (log 2)] -/
  high : Nat
  /-- sr.time (quarter ns) of the last write of H. [model | 22 R365 | 0] -/
  highAt : Nat
  /-- Last accepted beacon's sequence number, and sr.time (ns) of its acceptance. [64+64 | 22 R364 R365 | DESIGN CHOICE 0 (log 2)] -/
  beacon : Nat
  beaconAt : Nat
  /-- Spent-serial store, at most 32,704 entries (MRAM). [512 each | 22 R362 | survives reset; DESIGN CHOICE empty (log 2)] -/
  spent : List Spent
  /-- Delegation indices issued per serial (R374). [16 each | 22 R374 | empty] -/
  indices : List (BitVec 128 × Nat)
  handles : Tab Handle
  tokens : List Token
  /-- Admissions since reset. [count | 22 R370, 24 R400 | 0] -/
  admissions : Nat
  /-- Presentation waiting for the arbiter. [model | 22 R361 | none] -/
  pending : Option Pending
  /-- Presentations waiting for their turn (R361). [model | 22 R361 | empty] -/
  waiting : List Pending
  /-- Held handover regions, by partition (R378). [22 R378 | none] -/
  held : Tab Held
  /-- Key slots in use. [64 | 22 R370 | none] -/
  slots : List Nat
  /-- Keys installed in the piers, at pier*64 + slot; zero where none is. [12 x 64 x 512 | 15 R274, 22 R370 | zero] -/
  keys : Tab (BitVec 512)
  /-- Device root: the number of the reset that drew it (R370, R403). [model | 22 R370 | 0] -/
  rootDraw : Nat
  deriving DecidableEq, Repr

/-- A data flit kept for replay (R351). -/
structure Sent where
  seq : Nat
  message : LinkMessage
  /-- NAKs or timeouts of this SEQ (R352). -/
  fails : Nat
  deriving DecidableEq, Repr

/-- One port of Rypel Link (R348 to R354). -/
structure Port where
  /-- State: 0 down, 1 training, 2 up, 3 fenced. [2 | 20 R348 | DESIGN CHOICE training (log 2)] -/
  state : Nat
  /-- Peer device and port. [8+4 | 20 R348 | 0] -/
  peer : Nat
  peerPort : Nat
  /-- Send direction: key slot, epoch, salt, the salt agreed with the next key, next CTR, next SEQ. [1+32+32+32+32+12 | 20 R349 R350 | DESIGN CHOICE 0 (log 2)] -/
  txSlot : Bool
  txEpoch : BitVec 32
  txSalt : BitVec 32
  txNext : BitVec 32
  txCtr : Nat
  txSeq : Nat
  /-- The next key is agreed and its marker not yet sent. [1 | 20 R353 | clear] -/
  switching : Bool
  /-- Replay buffer, oldest first, at most 64. [64 flits | 20 R351 | empty] -/
  replay : List Sent
  /-- sr.time (quarter ns) of the last ACK advance or send of the oldest flit. [model | 20 R351 | 0] -/
  ackAt : Nat
  /-- Messages waiting for room. [model | 20 R351 | empty] -/
  outbox : List LinkMessage
  /-- Receive direction: slots open, last CTR per slot, next SEQ to deliver. [2+64+12 | 20 R351 R353 | DESIGN CHOICE (log 2)] -/
  rxOpen : Bool × Bool
  rxCtr : Option Nat × Option Nat
  rxSeq : Nat
  /-- Receive direction: epoch and salt of each slot's key. [64+64 | 20 R350 R353 | DESIGN CHOICE 0 (log 2)] -/
  rxEpoch : BitVec 32 × BitVec 32
  rxSalt : BitVec 32 × BitVec 32
  /-- Header and IV of the flit sent last. [64+96 | 20 R349 R350 | DESIGN CHOICE 0 (log 2)] -/
  lastFlit : BitVec 64
  lastIv : BitVec 96
  /-- The other slot is being switched to; flits authenticated under it. [1+7 | 20 R353 | 0] -/
  rxNew : Option (Bool × Nat)
  /-- Flits held ahead of a missing one. [64 | 20 R351 | empty] -/
  ahead : List (Nat × LinkMessage)
  /-- NAKs to return. [model | 20 R352 | empty] -/
  naks : List Nat
  /-- Authentication failures and retrains since reset, saturating. [16+8 | 20 R348 | 0] -/
  failures : Nat
  retrains : Nat
  /-- Failed trainings in a row. [2 | 20 R352 | 0] -/
  badTrainings : Nat
  /-- sr.time (quarter ns) of the last time flit sent. [model | 24 R394 | 0] -/
  timeAt : Nat
  deriving DecidableEq, Repr

/-- An armed fault injection (R326). -/
structure Injection where
  /-- The 32-byte descriptor. [256 | 18 R326 | none] -/
  desc : BitVec 256
  /-- The ROUND that triggers it has completed. [model | 18 R326 | none] -/
  ready : Bool
  deriving DecidableEq, Repr

/-- The host port and the observation units (R387 to R402). -/
structure HostPort where
  /-- Lanes of the CXL port: 16, 8 or 4. [5 | 24 R387 | DESIGN CHOICE 16 (log 2)] -/
  lanes : Nat
  /-- Admission window bytes 0x000 to 0x7FF. [2 KiB | 24 R389 | DESIGN CHOICE 0 (log 2)] -/
  window : Tab Byte
  /-- Status doubleword at 0x808: busy, tag, status code, handle. [64 | 24 R389 | DESIGN CHOICE 0 (log 2)] -/
  busy : Bool
  tag : BitVec 16
  status : BitVec 16
  handle : BitVec 16
  /-- Drop count at 0x810. [64 | 24 R389 | DESIGN CHOICE 0 (log 2)] -/
  drops : Nat
  /-- MSI-X table bytes. [258 x 128 | 24 R388 R393 | DESIGN CHOICE 0 (log 2)] -/
  msix : Tab Byte
  /-- Vectors pending while masked. [258 | 24 R393 | none] -/
  pendingVectors : List Nat
  /-- Vectors sent to the host, newest first (the interface's output). [model | 24 R393 | none] -/
  sentVectors : List Nat
  /-- Answers to host partition reads, newest first; none for poison. [model | 24 R391 | none] -/
  answers : List (Option (List Byte))
  /-- Staged bytes of the management window. [1 MiB | 24 R401 | DESIGN CHOICE 0 (log 2)] -/
  staged : Tab Byte
  /-- Apply status and nonce. [64+64 | 24 R402 | DESIGN CHOICE 0 (log 2)] -/
  applyStatus : Nat
  nonce : Nat
  /-- Hot-patch status, and the limit of a patch that is retried. [64 | 22 R381, 24 R401 | DESIGN CHOICE 0 (log 2)] -/
  patchStatus : Nat
  patchLimit : Option Nat
  /-- Firmware table version. [16 | 22 R381 | DESIGN CHOICE 0 (log 2)] -/
  firmware : Nat
  /-- Firmware function table entries replaced, by index. [256 entries | 22 R381 | DESIGN CHOICE empty (log 2)] -/
  functions : Tab (List Byte)
  /-- Sample period exponent n. [5 | 24 R396 | 12] -/
  period : Nat
  /-- Power limit in W. [16 | 24 R401 | DESIGN CHOICE 2800 (log 2)] -/
  power : Nat
  /-- Armed injections, at most 8. [8 x 256 | 18 R326 | none] -/
  injections : List Injection
  /-- Writes dropped at the queue page and at the window of each partition (R390, R391, R400). [32 x 2 counts | 24 R390 R391 |
  DESIGN CHOICE 0 (log 2)] -/
  pageDrops : Tab Nat
  windowDrops : Tab Nat
  /-- Vectors whose event reports writes that are not yet visible: vector, partition, and the issue number that those writes
  precede (R392). [model of 24 R392 | 24 R392 | none] -/
  awaited : List (Nat × Nat × Nat)
  /-- Resets since power-on. [count | 24 R400 | DESIGN CHOICE 0 (log 2)] -/
  resets : Nat
  deriving DecidableEq, Repr

/-- A frame tag: the frames of one page and their attributes (R272). -/
structure Page where
  /-- Bytes of the page. [code | 15 R268 | no page] -/
  size : Nat
  /-- Owner partition. [5 | 15 R267 | no page] -/
  owner : Nat
  /-- ATTR, KEY and the execute-only bit of the frame tags. [2+6+1 | 15 R272 | no page] -/
  attr : Nat
  key : Nat
  code : Bool
  /-- Leaves that map the frames. [count | 15 R272 | no page] -/
  count : Nat
  /-- The page is charged to the owner's grant (R276, R398). [1 | 15 R276 | no page] -/
  charged : Bool
  /-- The device whose peer context the frames were given to. [8+1 | 15 R281 | no page] -/
  peer : Option Nat
  deriving DecidableEq, Repr

/-- A line's elision state and write counter (R276, R277). -/
structure LineTag where
  /-- Elision state 0 to 3. [2 | 15 R277 | 3 never written] -/
  elision : Nat
  /-- Write counter of an ATTR 2 line. [56 | 15 R276 | DESIGN CHOICE 0 (log 2)] -/
  writes : Nat
  deriving DecidableEq, Repr

/-- Who executes: a thread that issues, or a command that starts (R25, R178). [model | log 4 | none] -/
inductive Agent where
  | none
  | thread (core slot : Nat)
  /-- A thread that issues the prefixed instruction of a ONCE pair (R57, R100): the prefixed word. -/
  | pair (core slot : Nat) (w : BitVec 32)
  | command (e : CmdEntry)
  deriving DecidableEq, Repr

end Sys2Proof.Machine
end

