-- ==== Sys2Proof/Machine/State.lean ====
section
/-! DEFINITION. The state of one PV9400 module, as plain data: every piece of state the spec gives it, the steps in
progress, and the model's own record of what the outside does next. -/
namespace Sys2Proof.Machine

/-- Reasons for which the machine stops. -/
inductive Fault where
  /-- Raised by the meaning of a core instruction when no thread is issuing, and by an engine command's when no
  command is starting: the interface applied a meaning where the machine would not. `step` never raises it.
  Safe: nothing is claimed of such a state. -/
  | noIssuer
  deriving DecidableEq, Repr

/-- Reasons for which the model gives no answer. -/
inductive Refusal where
  /-- Raised by a dispatch arm of an instruction that has no meaning yet. Safe: nothing is claimed of it. -/
  | notModelled (mnemonic : String)
  deriving DecidableEq, Repr

/-- The machine. -/
structure State where
  /-- Arithmetic-clock cycles since reset, sr.cycle. [64 | 06 R147 | 0] -/
  cycle : Nat
  /-- sr.time in quarters of a nanosecond. [64 | 06 R147, 24 R395 | 0] -/
  timeQ : Nat
  /-- The supply-sag sensor is tripped. [1 | 00 R3 | DESIGN CHOICE clear (log 2)] -/
  sag : Bool
  /-- sr.time has locked to a master. [1 | 24 R395 | clear] -/
  locked : Bool
  /-- What the servo has still to slew, in quarters of a nanosecond. [model of 24 R395 | 24 R395 | 0] -/
  slew : Int
  /-- Stretched cycles since reset. [count | 00 R3, 24 R399 | 0] -/
  stretched : Nat
  /-- Next issue number and next thread identity. [model | log 4 | 1] -/
  order : Nat
  uid : Nat
  /-- Who executes. [model | log 4 | none] -/
  cur : Agent
  /-- What the event being taken concerns. [model | log 4 | none] -/
  arg : Arg
  /-- Events from outside the machine, and choices of order, still to be taken. [model | log 4 | empty] -/
  inputs : List (Instr × Arg)
  /-- Delays drawn so far: each long latency that the spec leaves open is the free value of the next number. [model | log 4 | DESIGN CHOICE 0] -/
  draws : Nat
  /-- Estimates of energy read so far. [model | log 14 | 0] -/
  estimates : Nat
  /-- Register files, entry core*2048 + n. [1024 x 2048 entries | 02 R31 R37 | zero, full, flags set, no poison] -/
  regs : Tab Reg
  /-- Register entries written by completions of this cycle, as core*2048 + n, each with the issue number of its writer
  (R31). [model of 02 R31 | 02 R31 | none] -/
  wrote : List (Nat × Nat)
  /-- Thread slots that are not FREE, core*64 + slot. [65,536 | 02 R27 | all FREE] -/
  threads : Tab Thread
  /-- Cores. [1024 | 00 R1 | each at reset] -/
  cores : Tab Core
  /-- Memory by home address: local physical below 2^52, device d's at (d+1)*2^52. [bytes | 15 R265 | DESIGN CHOICE zero (log 3)] -/
  mem : Tab Byte
  /-- Scratchpads, byte core*2^20 + offset. [1024 x 896 KiB | 02 R45 | DESIGN CHOICE zero (log 3)] -/
  scratch : Tab Byte
  /-- Changes of S of each core, after which unwritten scratch bytes are free values. [model | 02 R47, log 13 | 0] -/
  epochs : Tab Nat
  /-- Scratch words with a flipped pair of bits, key/8 (R312, R327). [check bits | 18 R327 | none] -/
  badWords : List Nat
  /-- Lost lines, home address/64. [lines | 15 R276 | none] -/
  lost : List Nat
  /-- Elision states and write counters, physical address/64. [lines | 15 R276 R277 | never written] -/
  lines : Tab LineTag
  /-- Lines of memory that the L2 holds dirty: written since they were last written back, physical address/64.
  [1 each | 15 R276 R278 | none] -/
  dirty : List Nat
  /-- Lines that the L2 holds, in insertion order, physical address/64. [512 MiB of lines | 15 R278 | DESIGN CHOICE none (log 2)] -/
  l2 : List Nat
  /-- Frames that a context has held since reset, whose lines are zero unless written since: base and bytes.
  [model of 15 R277 | 15 R277 R281 R282 | none] -/
  cleared : Tab Nat
  /-- Page-table entries by physical address. [64 each | 15 R266 R267 | none] -/
  ptes : Tab Word
  /-- Frame tags by home address of the page's base; those of frames that peers gave are as this device's requests have left
  them. [pages | 15 R272 | none] -/
  pages : Tab Page
  /-- Committed entries not yet visible, in commit order. [model of 07 R150 | 07 R150 | empty] -/
  pend : List Store
  /-- Accesses that performed before accesses of their threads which orders narrower than DEV put before them, in the order in
  which they did (R156, R285, R288). [model of 16 R288 | 16 R288 | none] -/
  passed : List Passed
  /-- Completed fences whose earlier accesses have not all performed (R125). [model of 05 R125 | 05 R125 | none] -/
  fences : List Fence
  /-- Outstanding long-latency arrivals. [model of 02 R32 | 02 R32 | empty] -/
  arrivals : List Arrival
  /-- ONCE posts owed and on their way. [model of 04 R100 | 04 R100 | empty] -/
  posts : List Post
  /-- NWRITE values and WAKE values on their way. [model of 06 R141 R142 | 06 R141 | empty] -/
  nwrites : List Delivery
  wakes : List Delivery
  /-- Trap records not yet in q6. [model of 08 R165 | 08 R165 | empty] -/
  traps : List TrapOut
  /-- Started engine commands by key. [8 per copy engine, 1 per tile engine, 32 per route engine | 10 R178 | none] -/
  active : Tab Active
  /-- Range-lock tables, cluster*64 + index. [256 x 64 entries | 10 R188 | free] -/
  locks : Tab Lock
  /-- Core last served by each copy engine (cluster) and by the route engine. [2 per cluster, 10 | 10 R178, 20 R332 | DESIGN CHOICE (log 2)] -/
  copyTurn : Tab Nat
  routeTurn : Nat
  /-- Barriers: ((partition*3 + scope - 3)*256 + unit)*16 + number. [16 per scope and unit | 06 R144 R146 | generation 0, unset] -/
  barriers : Tab Barrier
  /-- Contexts by partition. [32 | 22 R361 | none] -/
  ctxs : Tab Ctx
  /-- Next order of admission. [model | 22 R368 | 0] -/
  nextAge : Nat
  /-- The Keystone, field by field in Keystone. [as Keystone | 22 R361 R365 | Keystone.reset] -/
  keystone : Keystone
  /-- Rypel Link ports. [16 | 20 R348 | see Port] -/
  ports : Tab Port
  /-- Active messages on their way to a core of this device. [model of 20 R346 | 20 R347 | empty] -/
  messages : List Message
  /-- Collectives begun by peers that no member here has joined yet. [model of 20 R343 | 20 R343 | empty] -/
  joins : List (Nat × BitVec 128 × Member × Nat)
  /-- Ends of collectives here: tag, serial, and when the last use of the tag ended. [model of 20 R343 | 20 R343 | none] -/
  collEnded : List (Nat × BitVec 128 × Nat)
  /-- The host port: its windows, vectors, management and patches, field by field in HostPort. [as HostPort | 24 R387 R388 | HostPort.reset] -/
  host : HostPort
  /-- Samples taken in this nanosecond: partition, core and record. [model of 24 R395 | 24 R395 R396 | empty] -/
  samples : List (Nat × Nat × List Byte)
  /-- Records of this nanosecond, which enter the device log and q7 in the order of their sources. [model of 24 R395 | 18 R323, 24 R395 | empty] -/
  outgoing : List Outgoing
  /-- Device log: ring of 8,192 records and its sequence counter. [8192 x 512, 16 | 18 R323 | DESIGN CHOICE empty, 0 (log 2)] -/
  log : Tab Vec
  logSeq : Nat
  /-- Structures that corrected an error not yet reported in its second, as source*1024 + core, with whether an injection is
  among them (R313). [model | 18 R313 | none] -/
  correctedNow : Tab Bool
  /-- The second of each structure's last CORRECTED record, plus one. [model of 18 R313 | 18 R313 | none] -/
  correctedAt : Tab Nat
  /-- Cores that are killed at the end of this cycle, and why: an uncorrectable error or a mismatch has been found in them, or their
  deck is fenced, and, at 1,024 + d, deck d that is fenced (R312, R314, R317, R320, R325). [model | 18 R320 | none] -/
  doomed : Tab Kill
  /-- A launch, end, cancel or free place since the dispatcher last decided. [model | 17 R299 | clear] -/
  dispatch : Bool
  /-- Deck copy engines and DECK barriers of fenced decks are gone; decks fenced. [8 | 18 R325 | none] -/
  fencedDecks : List Nat
  deriving DecidableEq, Repr

/-- A register entry at reset: zero and full, every zero flag set, no poison (R37). -/
def Reg.reset : Reg := { val := 0, full := true, zf := 0xFFFF, poison := false, token := none, flips := 0 }

/-- A loop level that is inactive and zero. -/
def Loop.reset : Loop := { start := 0, stop := 0, count := 0, active := false }

/-- A core at reset. -/
def Core.reset : Core :=
  { part := none, fenced := false, steps := 0, last := 63, issued := 0, cmds := [], comps := [], reserved := [],
    seqs := [], q6 := [], q6seq := 0, q7 := [], backlog := [], nlost := 0, landing := [], deque := [],
    counters := [], terms := [], tiles := [], rules := [], window := [], headSince := 0, group := none, running := none,
    replay := [], handlers := none, arrivals := [], sageSlot := 0, sageAt := 0, softSample := 0, corrected := [],
    sealedCount := 0, heldBy := none, messageUid := 0, moving := false }

/-- A crossbar counter and a crossbar term at reset (R135). -/
def Counter.reset : Counter := { count := 0, threshold := 0, overflow := false }
def Term.reset : Term := { m0 := 0, m1 := 0, armed := false }

/-- A barrier when its context is admitted (R146). -/
def Barrier.reset : Barrier := { gen := 0, want := none, arrived := [] }

/-- A line that was never written (R277). -/
def LineTag.reset : LineTag := { elision := 3, writes := 0 }

/-- The Keystone after reset, with an MRAM that holds H and the spent store given (R365, R403). -/
def Keystone.reset (high : Nat) (spent : List Spent) (draw : Nat) : Keystone :=
  { trusted := false, high := high, highAt := 0, beacon := 0, beaconAt := 0, spent := spent,
    indices := [], handles := [], tokens := [], admissions := 0, pending := none, waiting := [], held := [],
    slots := [], keys := [], rootDraw := draw }

/-- A port at reset: the boot function trains it (R403). -/
def Port.reset : Port :=
  { state := 1, peer := 0, peerPort := 0, txSlot := false, txEpoch := 0, txSalt := 0, txNext := 0, txCtr := 0, txSeq := 0,
    switching := false, replay := [], ackAt := 0, outbox := [], rxOpen := (false, false), rxCtr := (none, none),
    rxSeq := 0, rxEpoch := (0, 0), rxSalt := (0, 0), rxNew := none, lastFlit := 0, lastIv := 0, ahead := [], naks := [], failures := 0, retrains := 0, badTrainings := 0, timeAt := 0 }

/-- The host port at reset. -/
def HostPort.reset (resets : Nat) : HostPort :=
  { lanes := 16, window := [], busy := false, tag := 0, status := 0, handle := 0, drops := 0, msix := [],
    pendingVectors := [], sentVectors := [], answers := [], staged := [], applyStatus := 0, nonce := 0,
    patchStatus := 0, patchLimit := none, firmware := 0, functions := [], period := 12, power := 2800,
    injections := [], pageDrops := [], windowDrops := [], awaited := [], resets := resets }

/-- The machine after a reset that finds the given H, spent store and count of earlier resets (R403). -/
def State.afterReset (high : Nat) (spent : List Spent) (resets : Nat) : State :=
  { cycle := 0, timeQ := 0, sag := false, locked := false, slew := 0, stretched := 0, order := 1, uid := 1, cur := .none, arg := Arg.none,
    inputs := [], draws := 0, estimates := 0, regs := [], wrote := [], threads := [], cores := [], mem := [], scratch := [],
    epochs := [], badWords := [], lost := [], lines := [], dirty := [], l2 := [], cleared := [], ptes := [], pages := [], pend := [], passed := [], fences := [], arrivals := [],
    posts := [], nwrites := [], wakes := [], traps := [], active := [], locks := [], copyTurn := [],
    routeTurn := 1023, barriers := [], ctxs := [], nextAge := 0, keystone := Keystone.reset high spent resets,
    ports := [], messages := [], joins := [], collEnded := [], host := HostPort.reset resets, samples := [], outgoing := [], log := [], logSeq := 0,
    correctedNow := [], correctedAt := [], doomed := [], dispatch := false, fencedDecks := [] }

/-- The machine right after its first reset (R37, R403). -/
def State.reset : State := State.afterReset 0 [] 0

end Sys2Proof.Machine
end

