-- ==== Sys2Proof/Machine/Access.lean ====
section
/-! DEFINITION. The named reads and writes of the state: registers, threads, cores, contexts, time, memory at its
home. Everything else goes through these. -/
namespace Sys2Proof.Machine

/-! ### Registers (R31 to R37) -/

def State.regAt (s : State) (c n : Nat) : Reg := tabGet s.regs (c * 2048 + n) Reg.reset

def State.setReg (s : State) (c n : Nat) (r : Reg) : State :=
  { s with regs := tabPut s.regs (c * 2048 + n) r Reg.reset }

/-- An entry that holds a value: full, flags by R35, no poison, fresh check bits (R31, R35, R36, R312). -/
def Reg.ofVec (v : Vec) : Reg :=
  { val := v, full := true, zf := zeroFlags v, poison := false, token := none, flips := 0 }

/-- An entry that an error token reached (R36). -/
def Reg.ofToken (core : Option Nat) : Reg :=
  { val := 0, full := true, zf := 0xFFFF, poison := true, token := core, flips := 0 }

/-- A read of the entry meets an error token: the mark stands until a value is written, also while the entry is empty
again (R36); a read that waits for a new producer's value does not meet it (R330; assumption 22). -/
def Reg.lost (r : Reg) : Bool := r.poison
def State.writeReg (s : State) (c n : Nat) (v : Vec) : State := s.setReg c n (Reg.ofVec v)
def State.tokenReg (s : State) (c n : Nat) (core : Option Nat) : State := s.setReg c n (Reg.ofToken core)
/-- Set the full/empty bit alone (R32, R116). -/
def State.setFull (s : State) (c n : Nat) (b : Bool) : State := s.setReg c n { s.regAt c n with full := b }

/-! ### Threads, cores, contexts -/

def State.thread? (s : State) (c sl : Nat) : Option Thread := tabGet? s.threads (c * 64 + sl)
def State.setThread (s : State) (c sl : Nat) (t : Thread) : State :=
  { s with threads := tabSet s.threads (c * 64 + sl) t }
def State.freeSlot (s : State) (c sl : Nat) : State := { s with threads := tabErase s.threads (c * 64 + sl) }
/-- Change a thread that stands in a slot. -/
def State.modThread (s : State) (c sl : Nat) (f : Thread → Thread) : State :=
  match s.thread? c sl with
  | some t => s.setThread c sl (f t)
  | none => s

def State.core (s : State) (c : Nat) : Core := tabGet s.cores c Core.reset
def State.setCore (s : State) (c : Nat) (k : Core) : State := { s with cores := tabPut s.cores c k Core.reset }
def State.modCore (s : State) (c : Nat) (f : Core → Core) : State := s.setCore c (f (s.core c))

def State.ctx? (s : State) (p : Nat) : Option Ctx := tabGet? s.ctxs p
def State.setCtx (s : State) (p : Nat) (x : Ctx) : State := { s with ctxs := tabSet s.ctxs p x }
def State.modCtx (s : State) (p : Nat) (f : Ctx → Ctx) : State :=
  match s.ctx? p with
  | some x => s.setCtx p (f x)
  | none => s

/-- Cluster and deck of a core (R9). -/
def clusterOf (c : Nat) : Nat := c / 4
def deckOf (c : Nat) : Nat := c / 128

/-- Live threads of a core, as slot and thread. -/
def State.threadsOf (s : State) (c : Nat) : List (Nat × Thread) :=
  (s.threads.filter fun e => e.1 / 64 == c).map fun e => (e.1 % 64, e.2)

/-- Cores that a partition holds now, in increasing ID. -/
def State.coresOf (s : State) (p : Nat) : List Nat :=
  (s.cores.filter fun e => e.2.part == some p && !e.2.fenced).map Prod.fst

/-- A core's kill is found: it comes at the end of the cycle, in increasing core ID when there are several, and the core
does nothing more until then (R317, R320). -/
def State.doomCore (s : State) (c : Nat) (k : Kill) : State :=
  if (s.core c).fenced || (tabGet? s.doomed c).isSome then s else { s with doomed := tabSet s.doomed c k }
/-- A core is to be killed at the end of this cycle, itself or with its deck. -/
def State.coreDoomed (s : State) (c : Nat) : Bool := (tabGet? s.doomed c).isSome || (tabGet? s.doomed (1024 + deckOf c)).isSome
/-- A kill for an uncorrectable error, cause DATA_LOST, found in a structure (R312, R322). -/
def errorKill (source : Nat) (injected : Bool) : Kill :=
  { cause := 0x0E, source := source, injected := injected, info := 0, expected := 0, observed := 0 }

/-! ### Time (R3, R147, R395) -/

/-- sr.time in ns. -/
def State.time (s : State) : Nat := s.timeQ / 4 % 2 ^ 64

/-- The next delay that the spec leaves open: a free value (assumption 4). -/
def State.takeDelay (s : State) : Nat × State := (Config.delay s.draws, { s with draws := s.draws + 1 })

/-! ### Memory at its home (R2, R45, R150, R265) -/

/-- Home addresses of scratchpads lie above every memory address. -/
def scratchHome : Nat := 2 ^ 62
/-- Home of a byte of another device (R267, R290). -/
def remoteHome (dev pa : Nat) : Nat := (dev + 1) * 2 ^ 52 + pa

/-- The canonical form of memory: addresses rise strictly, and no listed byte is what an unlisted one reads as. -/
def Memory.wf (m : Tab Byte) : Bool := tabCanon m fun _ => 0

/-- What a scratch byte that nothing has written reads as: zero until the core's S changes, then a free value
(R47; assumptions 3 and 13). -/
def State.scratchDefault (s : State) (k : Nat) : Byte :=
  let e := tabGet s.epochs (k / 2 ^ 20) 0
  if e = 0 then 0 else Config.scratchByte e k

/-- The canonical form of the scratchpads. -/
def State.scratchWf (s : State) : Bool := tabCanon s.scratch s.scratchDefault

/-- One byte at its home. -/
def State.homeByte (s : State) (a : Nat) : Byte :=
  if a ≥ scratchHome then tabGet s.scratch (a - scratchHome) (s.scratchDefault (a - scratchHome))
  else tabGet s.mem a 0

/-- Write one byte at its home; a killed core's scratchpad takes nothing (R318). -/
def State.setHomeByte (s : State) (a : Nat) (b : Byte) : State :=
  if a ≥ scratchHome then
    let k := a - scratchHome
    if (s.core (k / 2 ^ 20)).fenced then s
    else { s with scratch := tabPut s.scratch k b (s.scratchDefault k) }
  else { s with mem := tabPut s.mem a b 0 }

def State.homeBytes (s : State) (a n : Nat) : List Byte := (List.range n).map fun i => s.homeByte (a + i)

/-- Lines and scratch words whose every byte a write covers. -/
def coversAll (w : Tab Byte) (base n : Nat) : Bool := (List.range n).all fun i => (tabGet? w (base + i)).isSome

/-- Lines of local memory that a write touches are dirty in the L2 from now on (R276, R278). -/
def dirtied (w : Tab Byte) (l : List Nat) : List Nat :=
  w.foldl (fun l e => if e.1 < 2 ^ 52 then setInsert l (e.1 / 64) else l) l

/-- Make the bytes of one access visible at their homes; a lost line is lost no more once one write covers its 64
bytes (R276; assumption 19), and a scratch word's check bits are fresh once it is wholly rewritten (R312). -/
def State.applyWrites (s : State) (w : Tab Byte) : State :=
  let s1 := w.foldl (fun s e => s.setHomeByte e.1 e.2) s
  { s1 with
    dirty := dirtied w s1.dirty
    lost := s1.lost.filter fun l => !coversAll w (l * 64) 64
    badWords := s1.badWords.filter fun k => !coversAll w (scratchHome + k * 8) 8 }

/-- The listed home bytes include one of a lost line. -/
def State.anyLost (s : State) (l : List Nat) : Bool := !s.lost.isEmpty && l.any fun a => s.lost.contains (a / 64)

/-- A port leads to its peer: it is up, or it retrains after having been up (R352). -/
def Port.leads (q : Port) (dev : Nat) : Bool := (q.state == 2 || (q.state == 1 && q.retrains != 0)) && q.peer == dev
/-- A device of the pod can be reached (R352): it is this device, or some port leads to it. -/
def State.reachable (s : State) (dev : Nat) : Bool :=
  dev == Config.deviceId.toNat || s.ports.any fun e => e.2.leads dev

/-- Device of a memory home; none for this device. -/
def homeDevice (a : Nat) : Option Nat := if a ≥ scratchHome ∨ a < 2 ^ 52 then none else some (a / 2 ^ 52 - 1)

/-! ### Counts behind the counter page (R399) -/

def State.count (s : State) (p idx n : Nat) : State :=
  s.modCtx p fun x => { x with counts := tabSet x.counts idx (tabGet x.counts idx 0 + n) }
/-- Count for the partition that holds a core. -/
def State.countCore (s : State) (c idx n : Nat) : State :=
  match (s.core c).part with
  | some p => s.count p idx n
  | none => s

end Sys2Proof.Machine
end

