-- ==== Sys2Proof/Machine/Translate.lean ====
section
/-! DEFINITION. Addresses: scratch windows, the page-table walk, protection, frame tags, range locks, and the checks of
R114 in their order (R113, R114, R189, R264 to R272). -/
namespace Sys2Proof.Machine

/-- Access kinds (R162): 0 read, 1 write, 2 atomic, 3 fetch. -/
abbrev Kind := Nat

def windowBase : Nat := 0xFFF000000000
def aliasBase : Nat := 0xFFF800000000

/-- Target core and offset of a scratch address (R264). -/
def scratchTarget (c va : Nat) : Option (Nat × Nat) :=
  if windowBase ≤ va ∧ va < windowBase + 0x400000 then
    some (clusterOf c * 4 + (va - windowBase) / 2 ^ 20, (va - windowBase) % 2 ^ 20)
  else if aliasBase ≤ va ∧ va < aliasBase + 0x100000 then some (c, va - aliasBase)
  else none

/-- A scratch address in cluster-window form; any other address is itself (R188). -/
def windowForm (c va : Nat) : Nat :=
  if aliasBase ≤ va ∧ va < aliasBase + 0x100000 then windowBase + (c % 4) * 2 ^ 20 + (va - aliasBase) else va

/-- Page bytes and leaf level of a size code (R268). -/
def pageBytes : Nat → Nat
  | 0 => 2 ^ 12 | 1 => 2 ^ 14 | 2 => 2 ^ 16 | 3 => 2 ^ 18 | 4 => 2 ^ 20
  | 5 => 2 ^ 21 | 6 => 2 ^ 24 | 7 => 2 ^ 26 | 8 => 2 ^ 28 | 9 => 2 ^ 30 | _ => 2 ^ 12
def leafLevel (code : Nat) : Nat := if code ≤ 4 then 3 else if code ≤ 8 then 2 else 1
/-- Reach of one entry of a level, and the entry's index (R266). -/
def reach (level : Nat) : Nat := 2 ^ (39 - 9 * level)
def entryIndex (level va : Nat) : Nat := va / reach level % 512

/-- A leaf that a walk reached. -/
structure Leaf where
  /-- Physical byte, on this device or on the named one (R267). -/
  pa : Nat
  dev : Option Nat
  owner : Nat
  key : Nat
  attr : Nat
  prot : Nat
  size : Nat
  deriving DecidableEq, Repr

/-- The walk from a table, by the levels still to go (R266, R267, R269). -/
def State.walkGo (s : State) : Nat → Nat → Nat → Nat → Option (Word × Nat)
  | 0, _, _, _ => none
  | fuel + 1, level, table, va =>
    let e := tabGet s.ptes (table + 8 * entryIndex level va) 0
    let x := e.toNat
    match natBits x 0 2 with
    | 1 =>
      if natBits x 2 10 = 0 ∧ natBits x 52 12 = 0 then s.walkGo fuel (level + 1) (natBits x 12 40 * 4096) va else none
    | 2 => some (e, level)
    | _ => none

/-- A frame that R265 gives contents. -/
def hasFrame (pa : Nat) : Bool := decide (pa < Config.hbmBytes) || decide (2 ^ 51 ≤ pa ∧ pa < 2 ^ 52)

/-- Translation of an address below the windows (R266 to R269); none is PAGE_FAULT. -/
def State.walk (s : State) (root va : Nat) : Option Leaf :=
  if va ≥ windowBase then none
  else
    match s.walkGo 4 0 root va with
    | none => none
    | some (e, level) =>
      let x := e.toNat
      let size := natBits x 2 4
      let attr := natBits x 8 2
      let prot := natBits x 6 2
      let bytes := pageBytes size
      if size > 9 ∨ attr = 3 ∨ prot = 3 ∨ level = 0 ∨ level ≠ leafLevel size then none
      else
        let remote := natBits x 63 1 == 1
        let frame := (if remote then natBits x 12 32 else natBits x 12 40) * 4096
        let pa := frame / bytes * bytes + va % bytes
        if !hasFrame pa then none
        else some { pa := pa, dev := if remote then some (natBits x 44 8) else none, owner := natBits x 58 5,
                    key := natBits x 52 6, attr := attr, prot := prot, size := size }

/-- Translation in a partition's context. -/
def State.translate (s : State) (p va : Nat) : Option Leaf :=
  match s.ctx? p with
  | some x => s.walk x.root va
  | none => none

/-- Home address of a translated byte (R150, R290). -/
def Leaf.home (l : Leaf) : Nat :=
  match l.dev with
  | some d => remoteHome d l.pa
  | none => l.pa

/-- The tag of the page that holds the byte at a home (R272). -/
def State.pageAt (s : State) (a : Nat) : Option (Nat × Page) :=
  s.pages.find? fun e => decide (e.1 ≤ a) && decide (a < e.1 + e.2.size)

/-- ALIAS_ATTR: the leaf's ATTR or KEY differs from the frame's tag, local or remote (R272). -/
def State.aliasBad (s : State) (l : Leaf) : Bool :=
  match s.pageAt l.home with
  | some (_, g) => g.attr != l.attr || g.key != l.key
  | none => false

/-- A context has a peer on a device: it comes from a group warrant whose map permits the device (R363). -/
def Ctx.mayPeer (x : Ctx) (dev : Nat) : Bool := x.flags.getLsbD 2 && x.devices.getLsbD dev

/-- PERMISSION by PROT and OWNER (R271), for loads, stores and atomics. -/
def protBad (p : Nat) (l : Leaf) (k : Kind) : Bool :=
  l.owner != p || l.prot == 2 || (l.prot == 0 && k != 0)

/-- A check's outcome: the home of the first byte, or the rank in R114's list, the trap code and the secondary information. -/
inductive Checked where
  | ok (home : Nat)
  | bad (rank code second : Nat)
  deriving DecidableEq, Repr

/-- The lock of the cluster's table that a thread's access of a line hits: index (R189). -/
def State.lockHit (s : State) (c p va : Nat) (k : Kind) : Option Nat :=
  let line := windowForm c va / 64
  (s.locks.find? fun e => e.1 / 64 == clusterOf c && e.2.part == p && decide (e.2.first ≤ line) &&
    decide (line ≤ e.2.last) && (e.2.write || k != 0)).map fun e => e.1 % 64

/-- Items 4 to 9 of R114 for one address of a thread or an engine (R199): `locks` asks for item 9. -/
def State.check (s : State) (c p va align : Nat) (k : Kind) (locks : Bool) : Checked :=
  if va % align ≠ 0 then .bad 4 0x04 0
  else
    let locked (h : Nat) : Checked :=
      match (if locks then s.lockHit c p va k else none) with
      | some i => .bad 9 0x09 i
      | none => .ok h
    match (if va < 2 ^ 48 then scratchTarget c va else none) with
    | some (t, off) =>
      if (s.core t).part = some p then
        if off ≥ (s.core t).steps * 0x10000 then .bad 5 0x12 (s.core t).steps
        else locked (scratchHome + t * 2 ^ 20 + off)
      else .bad 7 0x07 k
    | none =>
      match (if va < 2 ^ 48 then s.translate p va else none) with
      | none => .bad 6 0x05 k
      | some l =>
        if protBad p l k then .bad 7 0x07 k
        else if s.aliasBad l then .bad 8 0x08 k
        else locked l.home

/-- Every element's check: the homes, or the trap highest in the list, with the lowest lane's address (R114). -/
def State.checkAll (s : State) (c p : Nat) (vas : List Nat) (align : Nat) (k : Kind) (locks : Bool) :
    Except (Nat × Nat × Nat) (List Nat) :=
  let r := vas.map fun va => (va, s.check c p va align k locks)
  let worst := r.foldl (fun (acc : Option (Nat × Nat × Nat × Nat)) e =>
    match e.2, acc with
    | .bad rank code second, none => some (rank, code, second, e.1)
    | .bad rank code second, some a => if rank < a.1 then some (rank, code, second, e.1) else some a
    | .ok _, a => a) none
  match worst with
  | some (_, code, second, va) => .error (code, second, va)
  | none => .ok (r.map fun e => match e.2 with | .ok h => h | .bad _ _ _ => 0)

/-- Home of a fetched byte through the instruction-fetch path: an execute-only page of the partition (R77, R264, R271);
none is FETCH_FAULT. -/
def State.fetchHome (s : State) (p va : Nat) : Option Nat :=
  match (if va < windowBase then s.translate p va else none) with
  | some l => if l.owner = p ∧ l.prot = 2 ∧ !s.aliasBad l then some l.home else none
  | none => none

/-- What a fetch of n aligned bytes gives. -/
inductive Fetched where
  | ok (bytes : List Byte)
  | fault
  | lost
  deriving DecidableEq, Repr

/-- Fetch n bytes that lie in one line (R48, R77, R276). -/
def State.fetchBytes (s : State) (p va n : Nat) : Fetched :=
  match s.fetchHome p va with
  | none => .fault
  | some h => if s.anyLost [h] then .lost else .ok (s.homeBytes h n)

/-- An engine's or the Keystone's check of a range byte by byte: the first faulting address, or nothing (R199). -/
def State.checkRange (s : State) (c p va n : Nat) (k : Kind) : Option (Nat × Nat) :=
  (List.range ((va + n + 4095) / 4096 - va / 4096)).findSome? fun i =>
    let a := if i = 0 then va else (va / 4096 + i) * 4096
    match s.check c p a 1 k false with
    | .bad _ code _ => some (code, a)
    | .ok _ => none

/-- Read bytes of a context's space that have passed their checks; an unmapped byte reads as zero. -/
def State.virtByte (s : State) (c p va : Nat) : Byte :=
  match s.check c p va 1 0 false with
  | .ok h => s.homeByte h
  | .bad _ _ _ => 0
def State.virtBytes (s : State) (c p va n : Nat) : List Byte := (List.range n).map fun i => s.virtByte c p (va + i)

/-- Homes of a virtual range that has passed its checks. -/
def State.virtHomes (s : State) (c p va n : Nat) : List Nat :=
  (List.range n).map fun i => match s.check c p (va + i) 1 0 false with | .ok h => h | .bad _ _ _ => 0

end Sys2Proof.Machine
end

