-- ==== Sys2Proof/Machine/Order.lean ====
section
/-! DEFINITION. When accesses perform: the store buffer, commits, visibility, and outstanding arrivals
(R116, R118, R119, R126, R149 to R155, R286, R290). -/
namespace Sys2Proof.Machine

/-- The keys of two byte tables meet. -/
def overlaps (a b : Tab Byte) : Bool := a.any fun e => (tabGet? b e.1).isSome
/-- Bytes that a home address list covers. -/
def meetsAny (a : Tab Byte) (l : List Nat) : Bool := l.any fun x => (tabGet? a x).isSome

/-- The youngest byte that a thread stored before an access of it and that is not yet visible: in its buffer, else
committed (R118, R153). `core` and `slot` say where the thread stands, if it still does. -/
def State.ownByte (s : State) (uid core slot order a : Nat) : Option Byte :=
  let mine (l : List Store) : Option Byte :=
    (l.reverse.filter fun e => e.uid == uid && decide (e.order < order)).findSome? fun e => tabGet? e.writes a
  match mine (match s.thread? core slot with | some t => t.buffer | none => []) with
  | some b => some b
  | none => mine s.pend

/-- A scope narrower than the device: THR, CORE, CLU, DECK (R285). -/
def narrow (scope : Nat) : Bool := decide (1 ≤ scope) && decide (scope ≤ 4)
/-- A scope of a thread of one core covers the threads of another core of the device (R285). -/
def covers (scope core other : Nat) : Bool :=
  match scope with
  | 0 | 1 => false
  | 2 => core == other
  | 3 => core / 4 == other / 4
  | 4 => core / 128 == other / 128
  | _ => true

/-- A list of homes reaches another device (R267, R290). -/
def anyRemote (l : List Nat) : Bool := l.any fun a => (homeDevice a).isSome
/-- An order at a scope binds an access: a remote one is ordered at POD alone (R290). -/
def ordersAt (scope : Nat) (homes : List Nat) : Bool := scope == 6 || !anyRemote homes

/-- A commit moves every entry of the thread's buffer among the committed ones, not yet visible (R150); the delays
drawn for them set when each becomes visible, a VSCAT's elements each for itself (R149). A commit with release order is
named by its issue number (R151). -/
def State.commitAs (s : State) (c sl : Nat) (rel : Option (Nat × Nat)) : State :=
  match s.thread? c sl with
  | none => s
  | some t =>
    if t.buffer.isEmpty then s
    else
      let r := t.buffer.foldl (fun (acc : State × List Store) e =>
        let parts := if e.parts.isEmpty then [e.writes] else e.parts
        parts.foldl (fun (acc : State × List Store) w =>
          let d := acc.1.takeDelay
          (d.2, acc.2 ++ [{ e with writes := w, parts := [], due := s.cycle + d.1, rel := rel }])) acc) (s, [])
      { r.1.setThread c sl { t with buffer := [] } with pend := r.1.pend ++ r.2 }

/-- A commit without order. -/
def State.commit (s : State) (c sl : Nat) : State := s.commitAs c sl none

/-- Empty the buffer without committing it (R152, R317). -/
def State.discardBuffer (s : State) (c sl : Nat) : State := s.modThread c sl fun t => { t with buffer := [] }

/-- The bytes a load's element list reads: those already taken, then the thread's own, then those at their homes. -/
def State.loadBytes (s : State) (addrs : List Nat) (got : Tab Byte) (own : Nat → Option Byte) : List Byte :=
  addrs.map fun a => (tabGet? got a).getD ((own a).getD (s.homeByte a))

/-- Widening of loaded bytes (R121 to R123). -/
def widenLoad (k : LoadKind) (bs : List Byte) : Vec :=
  match k with
  | .zero _ => BitVec.ofNat 512 (bytesNat bs)
  | .sign n => widen ((BitVec.ofNat (8 * n) (bytesNat bs)).signExtend 64)
  | .line => bytesVec bs
  | .lanes => bytesVec bs

/-- What AMO and CAS write (R127, R128); none when nothing is written. -/
def amoResult (op : AmoOp) (old b c : Word) : Option Word :=
  match op with
  | .add => some (old + b)
  | .and => some (old &&& b)
  | .or => some (old ||| b)
  | .xor => some (old ^^^ b)
  | .min => some (if old.toInt ≤ b.toInt then old else b)
  | .max => some (if old.toInt ≥ b.toInt then old else b)
  | .swp => some b
  | .cas => if old = c then some b else none

/-- The homes of the 8 bytes from a home. -/
def eight (a : Nat) : List Nat := (List.range 8).map fun i => a + i

/-- Home addresses that an outstanding producer has still to read or write. -/
def Producer.homes : Producer → List Nat
  | .load _ addrs got => addrs.filter fun a => (tabGet? got a).isNone
  | .atomic _ a _ _ => eight a
  | _ => []

/-- The producer has taken its value. -/
def Producer.taken : Producer → Bool
  | .load _ _ _ => false
  | .atomic _ _ _ _ => false
  | _ => true

/-- The home of an access cannot answer: its line is lost, its device unreachable, its core killed (R116, R318, R352). -/
def State.homeLost (s : State) (l : List Nat) : Option (Option Nat) :=
  if s.anyLost l then some none
  else l.findSome? fun a =>
    if a ≥ scratchHome then
      let c := (a - scratchHome) / 2 ^ 20
      if (s.core c).fenced then some (some c) else none
    else match homeDevice a with
      | some d => if s.reachable d then none else some none
      | none => none

/-- Scratch words of a read in which an uncorrectable error stands (R312). -/
def State.badScratch (s : State) (l : List Nat) : Option Nat :=
  if s.badWords.isEmpty then none
  else l.findSome? fun a =>
    if a ≥ scratchHome ∧ s.badWords.contains ((a - scratchHome) / 8) then some ((a - scratchHome) / 2 ^ 20) else none

/-- A reader of scratch words in which an uncorrectable error stands has their owner killed (R312). -/
def State.doom (s : State) (l : List Nat) : State :=
  match s.badScratch l with
  | some c => s.doomCore c (errorKill 1 true)
  | none => s
/-- A read of these homes meets lost data (R116, R312, R318, R352). -/
def State.unreadable (s : State) (l : List Nat) : Bool := (s.homeLost l).isSome || (s.badScratch l).isSome

/-- An access performs, at one moment: the producer becomes the value or token it delivers, and an atomic writes its home
(R116, R126, R149). `own` gives the bytes of the thread's own that are not yet visible (R118). -/
def State.perform (s : State) (own : Nat → Option Byte) (p : Producer) : State × Producer :=
  match p with
  | .load k addrs got =>
    let asked := addrs.filter fun a => (tabGet? got a).isNone && (own a).isNone
    match s.homeLost asked with
    | some core => (s, .token core none)
    | none =>
      match s.badScratch asked with
      | some c => (s.doomCore c (errorKill 1 true), .token (some c) none)
      | none => (s, .value (widenLoad k (s.loadBytes addrs got own)) none)
  | .atomic op a b c =>
    match s.homeLost (eight a) with
    | some core => (s, .token core none)
    | none =>
      match s.badScratch (eight a) with
      | some k => (s.doomCore k (errorKill 1 true), .token (some k) none)
      | none =>
        let old : Word := BitVec.ofNat 64 (bytesNat (s.homeBytes a 8))
        match amoResult op old b c with
        | some v => (s.applyWrites ((eight a).zip (natBytes 8 v.toNat)), .value (widen old) none)
        | none => (s, .value (widen old) none)
  | p => (s, p)
/-- The bytes of its own that an outstanding access finds. -/
def State.ownOf (s : State) (a : Arrival) : Nat → Option Byte := s.ownByte a.uid a.core a.slot a.order
/-- An outstanding access performs. -/
def State.performArrival (s : State) (a : Arrival) : State × Producer := s.perform (s.ownOf a) a.prod

/-! ### Which accesses of a thread come before which (R151, R153, R154, R285, R288, R290)

An order at DEV or POD is kept as it stands: an access waits for those that come before it. An order at a narrower scope may be
passed: the access performs first, and until those before it have performed, no agent that the scope covers observes it. -/

/-- An access of a thread that has not performed, or has performed before one that comes before it; a producer with an acquire
stands here until its arrival. -/
structure Before where
  order : Nat
  acq : Option Nat
  rel : Option (Nat × Nat)
  load : Bool
  store : Bool
  homes : List Nat
  deriving DecidableEq, Repr

/-- An access that is to perform: its thread and core, its place in the program, the release that it carries, as the number of
the commit point and the scope, what it does, and its homes. -/
structure Access where
  uid : Nat
  core : Nat
  part : Nat
  order : Nat
  rel : Option (Nat × Nat)
  load : Bool
  store : Bool
  homes : List Nat
  deriving DecidableEq, Repr

def Store.access (e : Store) : Access :=
  { uid := e.uid, core := e.core, part := e.part, order := e.order, rel := e.rel, load := false, store := true, homes := e.writes.map Prod.fst }
def Producer.isAtomic : Producer → Bool
  | .atomic _ _ _ _ => true
  | _ => false
/-- An outstanding access at some of its homes. -/
def Arrival.access (a : Arrival) (homes : List Nat) : Access :=
  { uid := a.uid, core := a.core, part := a.part, order := a.order, rel := a.rel.map fun sc => (a.order, sc), load := true,
    store := a.prod.isAtomic, homes := homes }

/-- The accesses that have passed others of their threads which have still not performed, in the order in which they did. -/
def State.live (s : State) : List Passed :=
  s.passed.foldl (fun l i =>
    let open_ (o : Nat) : Bool :=
      s.arrivals.any (fun a => a.uid == i.uid && a.order == o && !a.prod.taken) ||
      s.pend.any (fun e => e.uid == i.uid && e.order == o) || l.any fun j => j.uid == i.uid && j.order == o
    if i.waits.any open_ then l ++ [i] else l) []

/-- A thread's accesses that others may have to wait for. -/
def State.beforeOf (s : State) (uid : Nat) : List Before :=
  ((s.arrivals.filter fun a => a.uid == uid).map fun a =>
    { order := a.order, acq := a.acq, rel := none, load := !a.prod.taken, store := false, homes := a.prod.homes }) ++
  ((s.pend.filter fun e => e.uid == uid).map fun e =>
    { order := e.order, acq := none, rel := e.rel, load := false, store := true, homes := e.writes.map Prod.fst }) ++
  ((s.live.filter fun i => i.uid == uid).map fun i =>
    { order := i.order, acq := none, rel := none, load := !i.write, store := i.write, homes := i.homes })

/-- A fence puts an access before another (R125). An atomic that has not performed counts among the loads and not among the stores, so
FENCE.SS does not order its write before later stores: a DESIGN CHOICE, the spec names no such case (log 112). -/
def Fence.orders (f : Fence) (p : Before) (q : Access) : Bool :=
  decide (p.order < f.order) && decide (f.order < q.order) &&
  (match f.kind with
   | 0 => p.load || p.store
   | 1 => p.load
   | 2 => (p.load || p.store) && q.store
   | _ => p.store && q.store)

/-- The scopes at which one access of a thread comes before another: by its acquire, by the other's release, which orders
everything before its commit point before each entry but the entries of the commit among themselves, whose last is the store of
an ST.REL, and by fences (R125, R151, R153). -/
def State.orderScopes (s : State) (p : Before) (q : Access) : List Nat :=
  let both (sc : Nat) : Bool := ordersAt sc p.homes && ordersAt sc q.homes
  (match p.acq with
   | some sc => if p.order < q.order ∧ both sc then [sc] else []
   | none => []) ++
  (match q.rel with
   | some (r, sc) =>
     let comes : Bool := (p.load && decide (p.order < r)) || (p.store && decide (p.order < q.order) && (q.order == r || p.rel != q.rel))
     if comes ∧ both sc then [sc] else []
   | none => []) ++
  ((s.fences.filter fun f => f.uid == q.uid && f.orders p q && both f.scope).map Fence.scope)

/-- What comes before an access and has not performed, with the scopes of the orders. -/
def State.behind (s : State) (q : Access) : List (Before × List Nat) :=
  (s.beforeOf q.uid).filterMap fun p => if (s.orderScopes p q).isEmpty then none else some (p, s.orderScopes p q)

/-- Home lists meet. -/
def shareHome (a b : List Nat) : Bool := a.any fun x => b.contains x

/-- An access may not perform yet, since another has passed accesses that come before it: one of a thread that the other's scope
covers, when it would observe it, and a later one of the same thread (R153, R156, R288). -/
def State.shutOut (s : State) (q : Access) : Bool :=
  !s.passed.isEmpty && s.live.any fun i =>
    shareHome i.homes q.homes &&
    (if i.uid = q.uid then decide (i.order < q.order)
     else i.part == q.part && covers i.scope i.core q.core && (i.write || q.store))
/-- What an access would pass never waits for another thread's passing access, nor the other's for it: each has performed in finite
time (R150). -/
def State.clearOf (s : State) (q : Access) : Bool :=
  s.live.all fun i => i.uid == q.uid ||
    (!((s.beforeOf q.uid).any fun p => p.order != q.order && shareHome p.homes i.homes) &&
     !((s.beforeOf i.uid).any fun p => shareHome p.homes q.homes))

/-- An access may perform now, whatever comes before it has performed. -/
def State.inTurn (s : State) (q : Access) : Bool := (s.behind q).isEmpty && !s.shutOut q
/-- An access may perform now: in its turn, or before what orders narrower than the device alone put before it. -/
def State.mayGo (s : State) (q : Access) : Bool :=
  ((s.behind q).all fun p => p.2.all narrow) && ((s.behind q).isEmpty || s.clearOf q) && !s.shutOut q
/-- An access that performs before others is noted. -/
def State.notePass (s : State) (q : Access) : State :=
  let b := s.behind q
  if b.isEmpty then s
  else { s with passed := s.live ++ [{ uid := q.uid, core := q.core, part := q.part, order := q.order, scope := (b.flatMap Prod.snd).foldl max 0,
                                       homes := q.homes, write := q.store, waits := b.map fun p => p.1.order }] }

/-- A copy or tile engine of a core is covered by a scope under which an access has passed others (R285): until those have
performed it starts no command. -/
def State.engineHeld (s : State) (core p : Nat) : Bool :=
  !s.passed.isEmpty && s.live.any fun i => i.part == p && decide (3 ≤ i.scope) && covers i.scope i.core core
/-- Nor does an element of it become visible where the access was. -/
def State.elementHeld (s : State) (core p : Nat) (homes : List Nat) : Bool :=
  !s.passed.isEmpty && s.live.any fun i => i.part == p && decide (3 ≤ i.scope) && covers i.scope i.core core && shareHome i.homes homes

/-- A committed entry becomes visible at its home (R150). -/
def State.showStore (s : State) (n : Nat) : State :=
  match s.pend[n]? with
  | none => s
  | some e =>
    let gone := e.writes.any fun w => match homeDevice w.1 with | some d => !s.reachable d | none => false
    let s := { s with pend := listDrop s.pend n }
    if gone then s else s.applyWrites e.writes

/-- The scratchpads that a store writes. -/
def Store.pads (e : Store) : List Nat :=
  (e.writes.filterMap fun w => if w.1 ≥ scratchHome then some ((w.1 - scratchHome) / 2 ^ 20) else none).eraseDups
/-- The n-th committed entry may become visible now: same-byte order, order to one scratchpad, and what comes before it
(R150, R151, R153, R286). -/
def State.mayShow (s : State) (n : Nat) : Bool :=
  match s.pend[n]? with
  | none => false
  | some e =>
    let before := (s.pend.take n).filter fun b => b.uid == e.uid
    decide (e.due ≤ s.cycle) &&
    before.all (fun b => !overlaps b.writes e.writes && !(b.pads.any fun k => e.pads.contains k)) &&
    s.arrivals.all (fun a => a.uid != e.uid || decide (e.order < a.order) || a.prod.taken || !meetsAny e.writes a.prod.homes) &&
    s.mayGo e.access
/-- It becomes visible. -/
def State.showNext (s : State) (n : Nat) : State :=
  match s.pend[n]? with
  | some e => (s.notePass e.access).showStore n
  | none => s

/-- Earlier accesses of the thread to the same bytes have performed (R126, R153). -/
def State.bytesFree (s : State) (a : Arrival) (homes : List Nat) : Bool :=
  (s.arrivals.all fun b => b.uid != a.uid || decide (a.order ≤ b.order) || b.prod.taken || !shareHome b.prod.homes homes) &&
  (!a.prod.isAtomic || s.pend.all fun b => b.uid != a.uid || decide (a.order ≤ b.order) || !meetsAny b.writes homes)
/-- An outstanding access may perform at these homes now (R126, R153, R290). -/
def State.mayPerform (s : State) (a : Arrival) (homes : List Nat) : Bool := s.bytesFree a homes && s.inTurn (a.access homes)

/-- The n-th outstanding arrival may arrive now: its cycle has come, and it has performed or may perform (R126, R153); a value that
was taken before accesses that come before it is not delivered before they have performed. -/
def State.mayArrive (s : State) (n : Nat) : Bool :=
  match s.arrivals[n]? with
  | none => false
  | some a =>
    decide (a.due ≤ s.cycle) &&
    (if a.prod.taken then s.passed.isEmpty || !s.live.any fun i => i.uid == a.uid && i.order == a.order else s.mayPerform a a.prod.homes)

/-! ### Loads that perform before they arrive (R117, R149) -/

/-- The homes of the i-th word of a VLDS or VGATH, or of the whole of another load. -/
def elementHomes (p : Producer) (i : Nat) : List Nat :=
  match p with
  | .load .lanes addrs _ => (addrs.drop (4 * i)).take 4
  | .load _ addrs _ => addrs
  | _ => []
/-- An access is a VLDS or VGATH. -/
def Producer.byLanes : Producer → Bool
  | .load .lanes _ _ => true
  | _ => false
/-- The i-th element of the n-th arrival, or the whole of it, may perform before it arrives; the whole may pass what narrow orders
put before it. -/
def State.mayTake (s : State) (n i : Nat) : Bool :=
  match s.arrivals[n]? with
  | none => false
  | some a =>
    let homes := elementHomes a.prod i
    (a.takes.any fun t => t.2 == i && decide (t.1 ≤ s.cycle)) && s.bytesFree a homes &&
    (if a.prod.byLanes then s.inTurn (a.access homes) else s.mayGo (a.access homes)) &&
    (s.homeLost homes).isNone && (s.badScratch homes).isNone
/-- It performs: its bytes are taken. -/
def State.takeElement (s : State) (n i : Nat) : State :=
  match s.arrivals[n]? with
  | none => s
  | some a =>
    if a.prod.byLanes then
      let got (g : Tab Byte) : Tab Byte :=
        (elementHomes a.prod i).foldl (fun g h => if (tabGet? g h).isSome then g else tabSet g h ((s.ownOf a h).getD (s.homeByte h))) g
      let p := match a.prod with | .load k l g => Producer.load k l (got g) | p => p
      { s with arrivals := listSet s.arrivals n { a with prod := p, takes := a.takes.filter fun t => t.2 != i } }
    else
      let r := (s.notePass (a.access (elementHomes a.prod i))).performArrival a
      { r.1 with arrivals := listSet r.1.arrivals n { a with prod := r.2, takes := [] } }

/-! ### Accesses that perform at once (R151, R284; assumption 7) -/

/-- Perform the outstanding accesses that a test picks, oldest first. -/
def State.performWhere (s : State) (f : Arrival → Bool) : State :=
  (List.range s.arrivals.length).foldl (fun s i =>
    match s.arrivals[i]? with
    | some a =>
      if f a ∧ !a.prod.taken then
        let r := s.performArrival a
        { r.1 with arrivals := listSet r.1.arrivals i { a with prod := r.2 } }
      else s
    | none => s) s

/-- Make a thread's committed entries up to a number visible, oldest first, each with the accesses that come before it
performed; `f` picks by the homes, `fuel` bounds the entries. -/
def State.drainGo (uid upto : Nat) (f : List Nat → Bool) : Nat → State → State
  | 0, s => s
  | fuel + 1, s =>
    let next (e : Store) : Bool := e.uid == uid && decide (e.order ≤ upto) && f (e.writes.map Prod.fst)
    match s.pend.find? next with
    | none => s
    | some e =>
      let lim := match e.rel with | some (r, _) => max r e.order | none => e.order
      let s := s.performWhere fun a => a.uid == uid && decide (a.order < lim) && f a.prod.homes
      drainGo uid upto f fuel (s.showStore (s.pend.findIdx next))
/-- Everything of a thread up to a number, where `f` picks by the homes, performs in program order. -/
def State.drainTo (s : State) (uid upto : Nat) (f : List Nat → Bool) : State :=
  (State.drainGo uid upto f s.pend.length s).performWhere fun a => a.uid == uid && decide (a.order ≤ upto) && f a.prod.homes

/-- What has been passed performs, so that nobody waits for it any more (R288). -/
def State.settlePassed (s : State) : State :=
  if s.passed.isEmpty then s
  else { s.live.foldl (fun s i => s.drainTo i.uid (i.waits.foldl max 0) fun _ => true) s with passed := [] }

/-- An access of a thread to this device comes after one to another device, by an order at POD (R290). -/
def State.podBound (s : State) (uid : Nat) : Bool :=
  let bound (q : Access) : Bool := !anyRemote q.homes && (s.behind q).any fun p => anyRemote p.1.homes
  (s.pend.any fun e => e.uid == uid && bound e.access) || s.arrivals.any fun a => a.uid == uid && !a.prod.taken && bound (a.access a.prod.homes)
/-- A release at a scope that must be complete at once: everything of the thread that the scope orders performs and becomes
visible; what lies on other devices is bound at POD alone, or where a local access comes after it (R151, R290; assumption 7). -/
def State.drain (s : State) (uid scope : Nat) : State :=
  let s := s.settlePassed
  s.drainTo uid s.order (if scope = 6 ∨ s.podBound uid then fun _ => true else fun l => !anyRemote l)

/-- Commit with release order at a scope, the stores visible before what follows (R131, R138, R141 and the like). -/
def State.releaseAt (s : State) (c sl scope : Nat) : State :=
  match s.thread? c sl with
  | none => s
  | some t => (s.commit c sl).drain t.uid scope
/-- The same on this device (R131, R307, R309, R371 and the like). -/
def State.release (s : State) (c sl : Nat) : State := s.releaseAt c sl 5

/-! ### Fences (R125) -/

/-- A fence has completed: where it has not waited for what it orders, that is noted. -/
def State.noteFence (s : State) (f : Fence) : State :=
  if (f.kind = 2 ∨ narrow f.scope) ∧ f.scope ≠ 1 ∧ (s.beforeOf f.uid).any (fun p => decide (p.order < f.order) && (p.load || p.store)) then
    { s with fences := s.fences ++ [f] }
  else s
/-- Fences and passing accesses that nothing waits for any more are gone. -/
def State.forgetOrders (s : State) : State :=
  if s.passed.isEmpty ∧ s.fences.isEmpty then s
  else { s with passed := s.live, fences := s.fences.filter fun f => (s.beforeOf f.uid).any fun p => decide (p.order < f.order) }

end Sys2Proof.Machine
end

