-- ==== Sys2Proof/Machine/Ops.lean ====
section
/-! DEFINITION. The shared operations: ends of units and launches, channels and rounds, gangs, streams, flush points,
taking a trap, returning from one, and the crossbar's pulses. -/
namespace Sys2Proof.Machine

/-! ### Launch records (R294) -/

def recKind (r : Vec) : Nat := natBits (fieldAt r 1 1) 0 2
def recStrands (r : Vec) : Bool := natBits (fieldAt r 1 1) 2 1 == 1
def recSuper (r : Vec) : Bool := natBits (fieldAt r 1 1) 3 1 == 1
def recResume (r : Vec) : Bool := natBits (fieldAt r 1 1) 4 1 == 1
def recPreempt (r : Vec) : Bool := natBits (fieldAt r 1 1) 5 1 == 1
def recPrio (r : Vec) : Nat := natBits (fieldAt r 2 1) 0 5
def recQueue (r : Vec) : Nat := natBits (fieldAt r 3 1) 0 3
def recCores (r : Vec) : Nat := fieldAt r 4 2
def recThreads (r : Vec) : Nat := fieldAt r 6 1
def recWindow (r : Vec) : Nat := (natBits (fieldAt r 7 1) 0 4 + 1) * 8
def recSteps (r : Vec) : Nat := natBits (fieldAt r 7 1) 4 4
def recEntry (r : Vec) : Nat := fieldAt r 8 6
def recGraph (r : Vec) : Nat := fieldAt r 0x0E 1
def recPhase (r : Vec) : Nat := fieldAt r 0x0F 1
def recChan (r : Vec) (i : Nat) : Nat := fieldAt r (0x10 + i) 1
def recDir (r : Vec) (i : Nat) : Nat := natBits (fieldAt r 0x18 2) (2 * i) 2
def recDepth (r : Vec) : Nat := fieldAt r 0x1A 1
def recArg (r : Vec) (i : Nat) : Nat := fieldAt r (0x20 + 8 * i) 8
/-- A task that counts for the graph round: kind 2 and no supervisor (R305). -/
def recTask (r : Vec) : Bool := recKind r == 2 && !recSuper r

/-- Key of a graph's channel. -/
def chanKey (g n : Nat) : Nat := g * 256 + n
/-- Entries a channel holds (R129). -/
def Chan.room (h : Chan) : Nat := 2 ^ h.depth - h.entries.length

/-! ### The message buffer (R173) -/

/-- Stands for the core of a saved thread while the image of its core is in the context area (model; log 102). -/
def awayCore : Nat := 1024
/-- The consumer of a channel stands in a core image: entries for it are diverted to the message buffer (R173). -/
def Ctx.chanAway (x : Ctx) (h : Chan) : Bool :=
  match h.input.bind fun id => tabGet? x.launches id with
  | some l => (match l.site with | some e => e.1 == awayCore | none => false)
  | none => false
/-- Entries of the message buffer in use: messages, channel entries and route deliveries (R173). -/
def Ctx.buffered (x : Ctx) : Nat :=
  x.diverted.length + x.deliveries.length + x.chans.foldl (fun n e => n + if x.chanAway e.2 then e.2.diverted else 0) 0
/-- The network has a place for an entry of a channel: it does not go to a full message buffer (R173). -/
def Ctx.takesEntry (x : Ctx) (h : Chan) : Bool := !x.chanAway h || decide (x.buffered < 512)
/-- An entry is sent to a channel (R131, R173). -/
def Ctx.append (x : Ctx) (h : Chan) (e : ChanEntry) : Chan :=
  { h with entries := h.entries ++ [e], diverted := if x.chanAway h then h.diverted + 1 else h.diverted }

/-- Append an end-of-stream token, or hold it while the channel or the message buffer that takes it is full (R173, R297). -/
def Ctx.appendEos (x : Ctx) (h : Chan) : Chan :=
  if h.room > 0 ∧ h.held = 0 ∧ x.takesEntry h then x.append h .eos else { h with held := h.held + 1 }

/-! ### Rounds (R186, R305) -/

/-- Graph round G: the least round count of the graph's unfinished or lost tasks, its last value when there is none. -/
def Ctx.graphRound (x : Ctx) (g : Nat) : Nat :=
  let tasks := x.launches.filterMap fun e =>
    if recTask e.2.record && recGraph e.2.record == g && !e.2.detached && e.2.replacedBy.isNone && (e.2.state != 4 || e.2.lost) then
      some e.2.rounds else none
  let last := match tabGet? x.graphs g with | some l => l.round | none => 0
  match tasks with
  | [] => last
  | n :: rest => rest.foldl min n

/-- The graph whose edges a schedule counts has ended: a later graph under its number is another (R186, R292). -/
def Ctx.dropSchedGraph (x : Ctx) (g : Nat) : Ctx :=
  match x.sched with
  | some k => if k.graph = g then { x with sched := some { k with graph := 0 } } else x
  | none => x
/-- Record G after a change, and move the schedule's round with the edges that the graph has completed since it was installed; an edge
stays completed when a task that is launched later lowers G (R186). -/
def Ctx.updateRound (x : Ctx) (g : Nat) : Ctx :=
  let n := x.graphRound g
  let l := tabGet x.graphs g { round := 0, failures := 0, live := true }
  let x := { x with graphs := tabSet x.graphs g { l with round := n } }
  match x.sched with
  | some k =>
    let high := max k.high n
    if k.graph = g then { x with sched := some { k with high := high, current := (high - k.base) % (max 1 k.rounds) } } else x
  | none => x

/-! ### Ends of launches and units (R292, R293, R297) -/

/-- Launches of a level that have not ended: 0 launch, 1 graph, 2 phase, 3 job (R292). Those cancelled with an earlier graph
of the number belong to it only while no new one has begun (R311). -/
def Ctx.liveOf (x : Ctx) (level id : Nat) : List Nat :=
  (x.launches.filter fun e => e.2.state != 4 &&
    (match level with
     | 0 => e.1 == id
     | 1 => recGraph e.2.record == id && !(e.2.detached && (match tabGet? x.graphs id with | some g => g.live | none => false))
     | 2 => recPhase e.2.record == id
     | _ => true)).map Prod.fst

/-- One more failed launch of a level, saturating at 255 (R307). -/
def addFailure (t : Tab WorkLevel) (id : Nat) : Tab WorkLevel :=
  match tabGet? t id with
  | some l => tabSet t id { l with failures := min 255 (l.failures + 1) }
  | none => t

/-- A graph or phase whose counter reached zero has ended; a graph's channels are destroyed with it (R292, R297). -/
def Ctx.closeLevels (x : Ctx) (g ph : Nat) : Ctx :=
  let x := if g ≠ 0 ∧ (x.liveOf 1 g).isEmpty then
    { x with
      graphs := (match tabGet? x.graphs g with | some l => tabSet x.graphs g { l with live := false } | none => x.graphs)
      chans := x.chans.filter fun e => e.1 / 256 != g }.dropSchedGraph g
    else x
  if ph ≠ 0 ∧ (x.liveOf 2 ph).isEmpty then
    { x with phases := (match tabGet? x.phases ph with | some l => tabSet x.phases ph { l with live := false } | none => x.phases) }
  else x

/-- Unbind a launch from its channels: an output takes an end-of-stream token, or the feeder-killed state; a launch that a
rewind ends leaves no token (R297, R319). -/
def Ctx.unbind (x : Ctx) (id : Nat) (r : Vec) (killed : Option Nat) (rewound : Bool) : Ctx :=
  (List.range 8).foldl (fun (x : Ctx) i =>
    let k := chanKey (recGraph r) (recChan r i)
    match tabGet? x.chans k with
    | none => x
    | some h =>
      if recDir r i = 2 ∧ h.output = some id then
        let h := { h with output := none }
        { x with chans := tabSet x.chans k (match killed with
          | some c => { h with killed := some c }
          | none => if rewound then h else x.appendEos h) }
      else if recDir r i = 1 ∧ h.input = some id then { x with chans := tabSet x.chans k { h with input := none } }
      else x) x

/-- Signal an MSI-X vector; a masked one is held as pending (R393). -/
def State.signal (s : State) (v : Nat) : State :=
  let masked := (tabGet s.host.msix (16 * v + 12) 0).getLsbD 0
  if masked then { s with host := { s.host with pendingVectors := setInsert s.host.pendingVectors v } }
  else { s with host := { s.host with sentVectors := v :: s.host.sentVectors } }

/-- Every store and atomic of a partition that was issued before a number is visible (R392). -/
def State.shownBefore (s : State) (p o : Nat) : Bool :=
  (s.pend.all fun e => e.part != p || decide (o ≤ e.order)) &&
  s.arrivals.all fun a => a.part != p || decide (o ≤ a.order) || (match a.prod with | .atomic _ _ _ _ => false | _ => true)
/-- Signal a vector whose event reports a partition's writes so far: once they are visible (R392). -/
def State.signalAfter (s : State) (p v : Nat) : State :=
  if s.shownBefore p s.order then s.signal v else { s with host := { s.host with awaited := s.host.awaited ++ [(v, p, s.order)] } }
/-- The vectors whose writes have become visible are signalled. -/
def State.sendAwaited (s : State) : State :=
  if s.host.awaited.isEmpty then s
  else
    let go := s.host.awaited.filter fun e => s.shownBefore e.2.1 e.2.2
    go.foldl (fun s e => s.signal e.1) { s with host := { s.host with awaited := s.host.awaited.filter fun e => !go.contains e } }

/-- A launch's counter has reached zero, or it is ended by a cancel (R293). A resume launch that ends unplaced leaves its
lost task to another (R305). -/
def State.launchEnd (s : State) (p id : Nat) (killed : Option Nat) : State :=
  match s.ctx? p with
  | none => s
  | some x =>
    match tabGet? x.launches id with
    | none => s
    | some l =>
      if l.state = 4 then s
      else
        let g := recGraph l.record
        let ph := recPhase l.record
        let x := { x with launches := tabSet x.launches id { l with state := 4, counter := 0, site := none } }
        let x := if l.state = 3 then x else
          let free (e : Nat × Launch) : Nat × Launch :=
            if e.2.replacedBy = some id then (e.1, { e.2 with replacedBy := none }) else e
          { x with launches := x.launches.map free }
        let x := if l.code = 0 then x else
          { x with graphs := (if l.detached then x.graphs else addFailure x.graphs g), phases := addFailure x.phases ph, failures := min 255 (x.failures + 1) }
        let x := x.unbind id l.record (match l.lostAt with | some c => some c | none => killed) (l.code == 0x82)
        let x := if g = 0 then x else x.updateRound g
        let x := x.closeLevels g ph
        let s := { s.setCtx p x with dispatch := true }
        if l.host then s.signalAfter p (8 * p + 1) else s

/-- One unit of a launch ends with a code and a saved PC; the first non-zero code is kept (R292, R293). -/
def State.unitEnd (s : State) (p id code : Nat) (pc : Addr) (killed : Option Nat) : State :=
  match s.ctx? p with
  | none => s
  | some x =>
    match tabGet? x.launches id with
    | none => s
    | some l =>
      let l := if l.code = 0 ∧ code ≠ 0 then { l with code := code, pc := pc } else l
      let l := { l with counter := l.counter - 1 }
      let s := s.setCtx p { x with launches := tabSet x.launches id l }
      if l.counter = 0 then s.launchEnd p id killed else { s with dispatch := true }

/-! ### Gangs (R42, R43) -/

/-- The cores of a thread's gang, lowest first; the thread's own core when it is in none. -/
def gangCores (c : Nat) (t : Thread) : List Nat :=
  if t.coupled then ([0, 1, 2, 3].filter fun n => t.gangMask.getLsbD n).map fun n => clusterOf c * 4 + n else [c]

/-- The pair that a thread's owed posts belong to, when it stops now: the one in flight, or the one not yet issued. -/
def Thread.pairNow (t : Thread) : Nat := match t.state with | .inflight f => f.order | _ => 0
/-- Posts that a thread owes for the pair it stops at (R43, R100). -/
def Thread.owes (t : Thread) (q : Post) : Bool := q.src == t.uid && !q.ready && q.pair == t.pairNow

/-- Posts are dropped: an entry that was set empty for one is full again, its contents unchanged (R43, R168). -/
def State.dropPosts (s : State) (f : Post → Bool) : State :=
  let s := (s.posts.filter f).foldl (fun s q => if q.emptied then s.setFull q.dest.core q.dest.entry true else s) s
  { s with posts := s.posts.filter fun q => !f q }

/-- A member goes on alone, at its own next instruction. -/
def Thread.leaveGang (t : Thread) : Thread :=
  { t with coupled := false, gangPos := 0, gangMask := 0, forward := none, outcome := none }

/-- How a member goes on when its gang uncouples: with its own outcome, when it has completed the word last forwarded; a
member other than the leader that has not issued a forwarded pair issues it still, as a member does, its post being owed to it;
else with the word, which it executes alone (R43, R100). -/
def Thread.goAlone (t : Thread) : Thread :=
  match t.outcome with
  | some a => { t.leaveGang with pc := a }
  | none =>
    match t.forward, t.state with
    | some (_, some _, _), .ready => if t.gangPos = 0 then t.leaveGang else { t.leaveGang with forward := t.forward }
    | _, _ => t.leaveGang

/-- How a member returns to a pair that its leader does not complete: it has executed nothing, and executes the pair alone,
its block unchecked, since its stream has counted the pair already (R43). The loop levels stay as the member's completion of the
pair left them, so a level that ends there acts once more: a DESIGN CHOICE, the spec names no such case (log 97). -/
def Thread.goBack (t : Thread) (now : Nat) : Thread :=
  let u := { t.leaveGang with check := none }
  match t.state with
  | .inflight f =>
    if t.after.isNone then { u with state := .ready, readyAt := now + 1 } else { u with state := .inflight { f with next := t.pc, checked := true } }
  | _ => u

/-- Dissolve the gang of a thread that stops there, or that leaves it (R43). A leader that stops at a pair that its gang has
fetched sends every other member back to the pair (`again`). -/
def State.uncouple (s : State) (c sl : Nat) (again : Bool) : State :=
  match s.thread? c sl with
  | none => s
  | some t0 =>
    if !t0.coupled then s
    else
      let s := (gangCores c t0).foldl (fun s m =>
        s.modThread m sl fun t =>
          if again ∧ m ≠ c then t.goBack s.cycle
          else t.goAlone) s
      { s with dispatch := true }

/-- A leader that stops owes a pair (R43, R100). -/
def State.owesPair (s : State) (t : Thread) : Bool := t.coupled && t.gangPos == 0 && s.posts.any t.owes

/-- Posts that a thread owes are for the pair that it has yet to issue. -/
def State.owesAgain (s : State) (t : Thread) : State := { s with posts := s.posts.map fun q => if t.owes q then { q with pair := 0 } else q }
/-- A former leader will not execute the pair that it still owes: each member's post arrives as an error token (log 97). -/
def State.orphanPosts (s : State) (uid : Nat) : State :=
  { s with posts := s.posts.map fun q =>
      if q.src = uid ∧ !q.ready ∧ q.pair = 0 then { q with ready := true, val := none, due := max q.due (s.cycle + q.dest.hop) } else q }
/-- A thread stops at its place: its gang uncouples, and the posts of a pair that it has not completed are dropped; when its gang
has uncoupled before, its members have gone on, and it owes them the posts still (R43, R100; log 97). -/
def State.stopInGang (s : State) (c sl : Nat) (pair : Bool) : State :=
  match s.thread? c sl with
  | none => s
  | some t =>
    if t.coupled then (s.uncouple c sl ((t.gangPos == 0 && pair) || s.owesPair t)).dropPosts t.owes
    else if s.posts.isEmpty then s else s.owesAgain t

/-! ### Streams and flush points (R193, R196, R232) -/

/-- A stream's buffered elements are discarded (R196). -/
def State.dropStream (s : State) (b : Stream) : State :=
  match tabGet? s.active b.key with
  | some a => { s with active := tabSet s.active b.key { a with dropped := a.dropped + b.buffer.length } }
  | none => s
/-- Release every stream of a thread as SDONE would (R193). -/
def State.releaseStreams (s : State) (c sl : Nat) : State :=
  match s.thread? c sl with
  | none => s
  | some t => (t.streams.foldl (fun s b => s.dropStream b.2) s).modThread c sl fun t => { t with streams := [] }

/-- Mark each thread's last command of a kind among those not yet in the window: no group goes on beyond it (R232). -/
def cutLast (f : CmdEntry → Bool) : List CmdEntry → List CmdEntry
  | [] => []
  | e :: l => (if f e && !(l.any fun x => x.uid == e.uid) then { e with cut := true } else e) :: cutLast f l
/-- A flush point of a thread: its commands in the core's window, in no formed group, are decided literal (R232). -/
def State.flushThread (s : State) (c uid : Nat) : State :=
  s.modCore c fun k =>
    { k with window := k.window.map fun e => if e.uid == uid then { e with literal := true } else e
             cmds := k.cmds.map fun q => if q.1 = 0 then (q.1, cutLast (fun e => e.uid == uid) q.2) else q }
/-- A flush point that concerns every command of a core's window (R232). -/
def State.flushCore (s : State) (c : Nat) : State :=
  s.modCore c fun k =>
    { k with window := k.window.map fun e => { e with literal := true }
             cmds := k.cmds.map fun q => if q.1 = 0 then (q.1, cutLast (fun _ => true) q.2) else q }

/-! ### Barriers of stopped and lost units (R146) -/

/-- Mark a unit's arrivals stopped or lost; a barrier all of whose arrivals are so returns to no arrivals (R146). -/
def State.markGone (s : State) (uid : Nat) : State :=
  { s with barriers := s.barriers.filterMap fun e =>
      let b := { e.2 with arrived := e.2.arrived.map fun a => if a.1 == uid then (a.1, true) else a }
      let b := if !b.arrived.isEmpty && b.arrived.all Prod.snd then { b with arrived := [], want := none } else b
      if b = Barrier.reset then none else some (e.1, b) }

/-! ### The end of a thread (R96, R139, R193, R232) -/

/-- Commit, release the streams, flush, free the slot and advance the counts (R96). A message handler is no unit of a
launch (R347). -/
def State.endThread (s : State) (c sl code : Nat) (pc : Addr) : State :=
  match s.thread? c sl with
  | none => s
  | some t =>
    let s := ((((s.commit c sl).releaseStreams c sl).flushThread c t.uid).orphanPosts t.uid).freeSlot c sl
    match (s.core c).part with
    | some p => if t.handler then { s with dispatch := true } else s.unitEnd p t.launch code pc none
    | none => s

/-- Remove a slot's unpopped trap record from q6 and from those on their way (R139, R165). -/
def State.dropRecord (s : State) (c sl : Nat) : State :=
  { s.modCore c (fun k => { k with q6 := k.q6.filter fun r => fieldAt r 2 1 != sl }) with
    traps := s.traps.filter fun r => !(r.core == c && r.slot == sl) }

/-! ### Taking a trap (R160 to R168) -/

/-- The word at an address, 0 when it cannot be fetched (R161). -/
def State.wordAt (s : State) (p : Nat) (pc : Nat) : BitVec 32 :=
  match s.fetchBytes p pc 4 with
  | .ok bs => BitVec.ofNat 32 (bytesNat bs)
  | _ => 0

/-- The prefixed word of the ONCE pair at an address, if one stands there (R57). -/
def State.pairAt (s : State) (p : Nat) (pc : Addr) : Option (BitVec 32) :=
  if s.wordAt p pc.toNat = oncePrefix then some (s.wordAt p (pc + 4).toNat) else none

/-- Record bytes 0x00 to 0x3B, with sequence number 0 (R161). -/
def trapRecord (s : State) (c sl p : Nat) (t : Thread) (x : TrapInfo) (pair : Option (BitVec 32)) : Vec :=
  let lead := t.coupled && t.gangPos == 0
  let fl := (if t.coupled then 1 else 0) + (if lead then 2 else 0) + (if pair.isSome then 4 else 0)
  packBytes 512
    [(0x00, 1, x.code), (0x01, 1, x.detail), (0x02, 1, sl), (0x03, 1, x.flags.toNat + fl), (0x04, 2, c),
     (0x08, 8, x.pc.toNat), (0x10, 8, x.info.toNat), (0x18, 4, (s.wordAt p x.pc.toNat).toNat),
     (0x1C, 4, (pair.getD 0).toNat), (0x20, 8, s.time), (0x28, 1, t.gangMask.toNat), (0x29, 1, t.gangPos.toNat),
     (0x30, 8, x.second.toNat), (0x38, 1, p)]

/-- Another live thread of the context on the core, which could be a handler (R167). -/
def State.hasHandler (s : State) (c sl p : Nat) : Bool :=
  (s.threadsOf c).any (fun e => e.1 != sl &&
    (match e.2.state with | .trapped _ => false | .leaving _ _ => true | _ => true)) ||
  (match s.ctx? p with
   | some x => x.saved.any fun v => v.core == c && (match v.thread.state with | .trapped _ => false | _ => true)
   | none => false)

/-- The end of a thread that trapped without a handler: its slot is freed, and its launch takes its code and saved PC and
ends with it (R167, R177, R293). -/
def State.endUnhandled (s : State) (c sl : Nat) (x : TrapInfo) : State :=
  match s.thread? c sl, (s.core c).part with
  | some t, some p =>
    (s.modCtx p fun y => match tabGet? y.launches t.launch with
      | some l => { y with launches := tabSet y.launches t.launch { l with dying := some (0, false) } }
      | none => y).endThread c sl x.code x.pc
  | _, _ => s

/-- A thread traps: it leaves the rotation with its buffer committed, its gang uncouples, its window commands are
flushed and its record waits for its stores; without a possible handler its launch ends instead (R43, R160, R165, R167). A notice's
record shows the pair that its saved PC stands at (R161, R164). -/
def State.trap (s : State) (c sl : Nat) (x : TrapInfo) (pair : Option (BitVec 32)) : State :=
  match s.thread? c sl with
  | none => s
  | some t =>
    let p := ((s.core c).part).getD 0
    let body := trapRecord s c sl p t x (if x.code = 0x10 then s.pairAt p x.pc else pair)
    let s := s.stopInGang c sl pair.isSome
    let s := (s.commit c sl).flushThread c t.uid
    let s := s.modThread c sl fun t =>
      { t with state := .trapped x, pc := x.pc, check := none, roundStep := none, kept := x.flags.getLsbD 3
               forward := if pair.isSome then none else t.forward }
    if s.hasHandler c sl p ∨ t.handler then
      { s with traps := s.traps ++ [{ core := c, slot := sl, uid := t.uid, part := p, cycle := s.cycle, body := body }] }
    else s.endUnhandled c sl x

/-- A trap at an instruction, with no kept transfer (saved PC At, R162). -/
def trapAt (pc : Addr) (code : Nat) (info second : Word) : TrapInfo :=
  { code := code, detail := 0, pc := pc, info := info, second := second, flags := 0 }

/-- Return from a trap: the thread becomes READY at its saved PC, or after the instruction there; after a fetch fault at the
target of a transfer that is the word after it, whatever stands at the target now (R139, R163, R166). It may issue in
the completion cycle of the THR.RESUME: a DESIGN CHOICE, since R27 fixes the next cycle for a BLOCKED or PARKED thread only
(log 96). -/
def State.resume (s : State) (c sl : Nat) (next : Bool) : State :=
  match s.thread? c sl with
  | none => s
  | some t =>
    match t.state with
    | .trapped _ =>
      let p := ((s.core c).part).getD 0
      let step : Nat := if next then (if !t.kept && s.wordAt p t.pc.toNat = oncePrefix then 8 else 4) else 0
      let s := s.dropRecord c sl
      (if next then s.orphanPosts t.uid else s).setThread c sl
        { t with state := .ready, readyAt := s.cycle, pc := t.pc + BitVec.ofNat 48 step, kept := t.kept && !next
                 forward := if next then none else t.forward }
    | _ => s

/-! ### The crossbar (R135, R136) -/

def Core.counter (k : Core) (n : Nat) : Counter := tabGet k.counters n Counter.reset
def Core.term (k : Core) (n : Nat) : Term := tabGet k.terms n Term.reset
def Core.setCounter (k : Core) (n : Nat) (x : Counter) : Core := { k with counters := tabPut k.counters n x Counter.reset }
def Core.setTerm (k : Core) (n : Nat) (x : Term) : Core := { k with terms := tabPut k.terms n x Term.reset }

/-- Every counter of a mask is ready, and the mask is not empty. -/
def Core.maskTrue (k : Core) (m : BitVec 16) : Bool :=
  m != 0 && laneList.all fun i => !m.getLsbD i || decide ((k.counter i).threshold ≤ (k.counter i).count)
/-- A term's value (R135). -/
def Core.termTrue (k : Core) (n : Nat) : Bool :=
  (k.term n).armed && (k.maskTrue (k.term n).m0 || k.maskTrue (k.term n).m1)
/-- A true term fires: thresholds are subtracted along the lowest true mask (R135). -/
def Core.fire (k : Core) (n : Nat) : Core :=
  let m := if k.maskTrue (k.term n).m0 then (k.term n).m0 else (k.term n).m1
  laneList.foldl (fun k i =>
    if m.getLsbD i then
      let x := k.counter i
      k.setCounter i { x with count := x.count - x.threshold }
    else k) k
/-- An engine's pulse (R135); counter 0 names none. -/
def Core.pulse (k : Core) (n : Nat) : Core :=
  if n = 0 then k
  else
    let x := k.counter n
    k.setCounter n (if x.count ≥ 0xFFFF then { x with overflow := true } else { x with count := x.count + 1 })

/-! ### Records for q7 (R130, R380) -/

/-- A record for a core's q7 enters behind its backlog. -/
def State.toQ7 (s : State) (c : Nat) (v : Vec) : State := s.modCore c fun k => { k with backlog := k.backlog ++ [v] }

/-- The lowest core of a context's grant, if it holds one (R380). -/
def State.lowestCore (s : State) (p : Nat) : Option Nat := (s.coresOf p).head?

/-- A record for a context: its lowest core's q7, or the context's own backlog (R130). -/
def State.toCtx (s : State) (p : Nat) (v : Vec) : State :=
  match s.lowestCore p with
  | some c => s.toQ7 c v
  | none => s.modCtx p fun x => { x with backlog := x.backlog ++ [v] }

/-- A record for a task's core: its q7, or its place in the core's image while that is away (R302, R323). -/
def State.toSite (s : State) (p id core : Nat) (v : Vec) : State :=
  if core < 1024 then s.toQ7 core v
  else s.modCtx p fun x =>
    let mine (m : Image) : Bool := x.saved.any fun w => m.records.contains w.record && w.thread.launch == id
    match x.images.findIdx? mine with
    | some i => { x with images := x.images.modify i fun m => { m with q7 := m.q7 ++ [v] } }
    | none => { x with backlog := x.backlog ++ [v] }

/-- Source numbers of R395: the Keystone's, and that of a record in which no core is concerned, which the spec does not give: the
core number in it, a DESIGN CHOICE (log 96). -/
def keystoneSource : Nat := 2047
def noCore : Nat := 0x3FF
/-- A record is written: it enters as the nanosecond ends, in the order of the sources (R395). -/
def State.sendRecord (s : State) (o : Outgoing) : State := { s with outgoing := s.outgoing ++ [o] }
/-- A record for the device log (R322, R323). -/
def State.logRecord (s : State) (source : Nat) (fields : List (Nat × Nat × Nat)) (outlet : Outlet) : State :=
  s.sendRecord { source := source, body := packBytes 512 fields, logged := true, outlet := outlet }
/-- A record with the device log's next sequence number and its CRC (R322). -/
def State.numbered (s : State) (v : Vec) : Vec :=
  sealVec (packBytes 512 [(0, 0x1E, fieldAt v 0 0x1E), (0x1E, 2, s.logSeq), (0x20, 0x1C, fieldAt v 0x20 0x1C)])
/-- It enters the device log; the host is told, and the partition that it names (R323, R393). -/
def State.intoLog (s : State) (v : Vec) : State :=
  let s := { s with log := tabSet s.log (s.logSeq % 8192) v, logSeq := (s.logSeq + 1) % 2 ^ 16 }.signal 257
  if fieldAt v 6 1 < 32 then s.signal (8 * fieldAt v 6 1 + 2) else s
/-- A record reaches whom it is for (R130, R323, R380). -/
def State.deliverRecord (s : State) (v : Vec) : Outlet → State
  | .none => s
  | .site p id core => s.toSite p id core v
  | .core p c => if (s.core c).part = some p then s.toQ7 c v else s.toCtx p v
  | .ctx p => s.toCtx p v
/-- One record enters. -/
def State.enterRecord (s : State) (o : Outgoing) : State :=
  if o.logged then (s.intoLog (s.numbered o.body)).deliverRecord (s.numbered o.body) o.outlet else s.deliverRecord o.body o.outlet
/-- The records of a nanosecond enter, by source and otherwise as they came (R395). -/
def State.enterRecords (s : State) : State :=
  (s.outgoing.mergeSort fun a b => decide (a.source ≤ b.source)).foldl State.enterRecord { s with outgoing := [] }

/-- A structure of a core has corrected a flipped bit: it is counted, and the second's record becomes due (R313, R399). -/
def State.noteCorrected (s : State) (c source : Nat) (injected : Bool) : State :=
  let s := (s.modCore c fun k => { k with corrected := tabSet k.corrected source (tabGet k.corrected source 0 + 1) }).countCore c 11 1
  let key := source * 1024 + c
  if tabGet s.correctedAt key 0 = s.time / 1000000000 + 1 then s
  else { s with correctedNow := tabSet s.correctedNow key (tabGet s.correctedNow key false || injected) }
/-- Register entries of a core are read: single flipped bits are corrected and counted, one by one (R312, R313). -/
def State.correctRegs (s : State) (c : Nat) (l : List Nat) : State :=
  l.foldl (fun s e =>
    let r := s.regAt c e
    if r.flips = 1 then (s.setReg c e { r with flips := 0 }).noteCorrected c 0 true else s) s

end Sys2Proof.Machine
end

