-- ==== Sys2Proof/Machine/Launches.lean ====
section
/-! DEFINITION. Launch records and their queues, stopping units, cancelling and rewinding work, checkpoints
(R292 to R297, R305 to R308, R139). -/
namespace Sys2Proof.Machine

/-- Every committed entry and outstanding access of a partition's threads performs (R307, R308; assumption 7). -/
def State.drainPart (s : State) (p : Nat) : State :=
  let uids := (s.pend.filter fun e => e.part == p).map (·.uid) ++ (s.arrivals.filter fun a => a.part == p).map (·.uid)
  uids.eraseDups.foldl (fun s u => s.drain u 6) s

/-! ### Launch IDs and records (R292, R294, R295) -/

/-- An ended launch whose task is lost and still counts for G: no resume launch that has been placed stands for it (R305). -/
def Ctx.standsLost (x : Ctx) (l : Launch) : Bool :=
  l.lost && (match l.replacedBy.bind fun id => tabGet? x.launches id with | some n => decide (n.state < 3) | none => true)
/-- The first ID from n on that is not 0 and names no live launch; the ID of a lost task that still counts is not given again (R292,
R305; log 115). -/
def Ctx.freeId (x : Ctx) : Nat → Nat → Nat
  | 0, n => n
  | fuel + 1, n =>
    let n := if n % 2 ^ 16 = 0 then 1 else n % 2 ^ 16
    match tabGet? x.launches n with
    | some l => if l.state = 4 ∧ !x.standsLost l then n else x.freeId fuel (n + 1)
    | none => n

/-- The fields of R294 lie in their ranges and the fields marked zero are zero. -/
def recShape (r : Vec) : Bool :=
  fieldAt r 0 1 == 1 && recKind r != 3 && natBits (fieldAt r 1 1) 6 2 == 0 && natBits (fieldAt r 2 1) 5 3 == 0 &&
  natBits (fieldAt r 3 1) 3 5 == 0 && decide (1 ≤ recThreads r) && decide (recThreads r ≤ 63) &&
  decide (recSteps r ≤ 14) && decide (recDepth r ≤ 6) && fieldAt r 0x1B 5 == 0 && fieldAt r 0x38 4 == 0 &&
  (List.range 8).all fun i => recDir r i != 3

/-- A checkpoint area is valid: a multiple of 64, not zero, 2 MiB that the context may write (R294). -/
def State.areaOk (s : State) (p a : Nat) : Bool :=
  a != 0 && a % 64 == 0 && (s.checkRange 0 p a 0x200000 1).isNone

/-- The lost task that a resume record replaces (R295, R305). -/
def Ctx.lostTask (x : Ctx) (r : Vec) : Option (Nat × Launch) :=
  x.launches.find? fun e => e.2.lost && e.2.replacedBy.isNone && recGraph e.2.record == recGraph r &&
    recArg e.2.record 2 == recArg r 2

/-- A channel binding of the record conflicts (R295). -/
def Ctx.chanConflict (x : Ctx) (r : Vec) : Bool :=
  (List.range 8).any fun i =>
    match tabGet? x.chans (chanKey (recGraph r) (recChan r i)) with
    | none => false
    | some h =>
      (recDir r i == 1 && (h.input.isSome || h.depth != recDepth r)) ||
      (recDir r i == 2 && (h.output.isSome || h.depth != recDepth r))

/-- The checks of R295 in their order: 0, or the status. -/
def State.checkRecord (s : State) (p : Nat) (x : Ctx) (r : Vec) : Nat :=
  let k := recKind r
  if !recShape r then 1
  else if recEntry r % 4 ≠ 0 then 1
  else if recThreads r * recWindow r > 2048 then 1
  else if !(match k with
      | 0 => decide (1 ≤ recCores r ∧ recCores r ≤ 1024) && (List.range 8).all fun i => recDir r i == 0
      | 1 => decide (1 ≤ recCores r ∧ recCores r ≤ 8) && (List.range 8).all fun i => recDir r i == 0
      | _ => recCores r == 1 && recThreads r == 1 && recGraph r != 0 && s.areaOk p (recArg r 2)) then 1
  else if recSuper r && k != 2 then 1
  else if recPrio r > x.ceilingPrio then 2
  else if recQueue r ≥ x.queueCount then 2
  else if recCores r > x.cores ∨ recThreads r > x.threads then 3
  else if x.chanConflict r then 4
  else if recResume r && (x.lostTask r).isNone then 4
  else 0

/-- A graph or phase that a launch names begins, or goes on, as live work (R292). -/
def nameLevel (t : Tab WorkLevel) (id : Nat) : Tab WorkLevel :=
  if id = 0 then t
  else match tabGet? t id with
    | some l => if l.live then t else tabSet t id { round := 0, failures := 0, live := true }
    | none => tabSet t id { round := 0, failures := 0, live := true }

/-- The head of a queue, when it was QUEUED, becomes HEAD with its age counted from now (R298). -/
def Ctx.promote (x : Ctx) (q now : Nat) : Ctx :=
  match (tabGet x.queues q []).head? with
  | none => x
  | some id =>
    match tabGet? x.launches id with
    | some l => if l.state = 0 then { x with launches := tabSet x.launches id { l with state := 1, headAt := now } } else x
    | none => x

/-- Queue a checked record: its new ID and the state (R292, R305, R307). -/
def State.queueRecord (s : State) (p : Nat) (x : Ctx) (r : Vec) (host : Bool) : Nat × State :=
  let id := x.freeId 65536 x.nextLaunch
  let lost := if recResume r then x.lostTask r else none
  let l : Launch :=
    { record := sealVec r, state := 0, counter := recCores r * recThreads r, code := 0, pc := 0, headAt := 0,
      host := host, placed := 0, site := none, rounds := (match lost with | some e => e.2.rounds | none => 0),
      lost := false, lostAt := none, dying := none, detached := false, replacedBy := none }
  let launches := match lost with
    | some e => tabSet x.launches e.1 { e.2 with replacedBy := some id }
    | none => x.launches
  let going : Bool := match tabGet? x.graphs (recGraph r) with | some g => g.live | none => false
  let launches := if going then launches else launches.map fun e =>
    if recGraph e.2.record = recGraph r then (e.1, { e.2 with lost := false }) else e
  let x := { x with
    launches := tabSet launches id l, nextLaunch := id + 1,
    graphs := nameLevel x.graphs (recGraph r), phases := nameLevel x.phases (recPhase r),
    queues := tabSet x.queues (recQueue r) (tabGet x.queues (recQueue r) [] ++ [id]) }
  let x := if recGraph r = 0 then x else x.updateRound (recGraph r)
  (id, { s.setCtx p (x.promote (recQueue r) s.timeQ) with dispatch := true })

/-- A launch leaves its queue, and the next one becomes the head (R298). -/
def Ctx.leaveQueue (x : Ctx) (id now : Nat) : Ctx :=
  match tabGet? x.launches id with
  | none => x
  | some l =>
    let q := recQueue l.record
    let x := { x with queues := tabSet x.queues q ((tabGet x.queues q []).filter (· != id))
                      reservation := x.reservation.filter fun r => r.1 != id }
    x.promote q now

/-! ### Checkpoints (R306) -/

/-- A checkpoint record that was read. -/
structure Checkpoint where
  round : Nat
  pc : Addr
  lk : Addr
  off : Nat
  rd : Nat
  fflags : BitVec 5
  lp0 : Loop
  lp1 : Loop
  images : List Vec
  bytes : List Byte
  deriving DecidableEq, Repr

/-- Where slot n mod 2 of a checkpoint area begins. -/
def checkpointSlot (area n : Nat) : Nat := area + n % 2 * 0x100000

/-- The bytes of a checkpoint record (R306). -/
def checkpointBytes (n : Nat) (pc lk : Addr) (off len rd : Nat) (fflags : BitVec 5) (lp0 lp1 : Loop)
    (images : List Vec) (bytes : List Byte) : List Byte :=
  let head := natBytes 8 n ++ natBytes 8 pc.toNat ++ natBytes 8 lk.toNat ++ natBytes 4 off ++ natBytes 4 len ++
    natBytes 1 images.length ++ natBytes 1 ((if lp0.active then 1 else 0) + (if lp1.active then 2 else 0)) ++
    natBytes 1 rd ++ natBytes 5 0 ++ natBytes 8 fflags.toNat ++
    natBytes 8 lp0.start.toNat ++ natBytes 8 lp0.stop.toNat ++ natBytes 8 lp0.count.toNat ++
    natBytes 8 lp1.start.toNat ++ natBytes 8 lp1.stop.toNat ++ natBytes 8 lp1.count.toNat ++ natBytes 28 0
  let body := images.flatMap vecBytes ++ bytes
  head ++ natBytes 4 (crc32c (head ++ body)).toNat ++ body

/-- Read the record of round g; none when its CRC or its round fails, or a line of it is lost (R276, R306). -/
def State.readCheckpoint (s : State) (c p area g : Nat) : Option Checkpoint :=
  let a := checkpointSlot area g
  let gone := (s.homeLost (s.virtHomes c p a 128)).isSome
  let h := s.virtBytes c p a 128
  let at_ (off n : Nat) : Nat := bytesNat ((h.drop off).take n)
  let regs := at_ 0x20 1
  let len := at_ 0x1C 4
  if gone ∨ at_ 0 8 ≠ g ∨ len > 0xE0000 then none
  else
    let body := s.virtBytes c p (a + 128) (regs * 64 + len)
    if (s.homeLost (s.virtHomes c p (a + 128) (regs * 64 + len))).isSome then none
    else if crc32c (h.take 0x7C ++ body) ≠ BitVec.ofNat 32 (at_ 0x7C 4) then none
    else
      let act := at_ 0x21 1
      let loop (off bit : Nat) : Loop :=
        { start := BitVec.ofNat 48 (at_ off 8), stop := BitVec.ofNat 48 (at_ (off + 8) 8),
          count := BitVec.ofNat 64 (at_ (off + 16) 8), active := natBits act bit 1 == 1 }
      some { round := g, pc := BitVec.ofNat 48 (at_ 8 8), lk := BitVec.ofNat 48 (at_ 0x10 8), off := at_ 0x18 4,
             rd := at_ 0x22 1, fflags := BitVec.ofNat 5 (at_ 0x28 8), lp0 := loop 0x30 0, lp1 := loop 0x48 1,
             images := (chunks 64 (body.take (regs * 64))).map bytesVec, bytes := body.drop (regs * 64) }

/-- The per-thread state a restart sets: from its checkpoint, or at its entry for round 0; every other register keeps its
contents (R296, R306). -/
def Thread.restart (t : Thread) (r : Vec) (k : Option Checkpoint) (now : Nat) : Thread :=
  let t := { t with state := .ready, readyAt := now, streams := [], buffer := [], after := none, check := none,
                    roundStep := none, kept := false, coupled := false, gangPos := 0, gangMask := 0, forward := none,
                    outcome := none }
  match k with
  | some k => { t with pc := k.pc, lk := k.lk, fflags := k.fflags, lp0 := k.lp0, lp1 := k.lp1 }
  | none => { t with pc := BitVec.ofNat 48 (recEntry r), lk := 0, fflags := 0, forkInline := false,
                     lp0 := { t.lp0 with active := false }, lp1 := { t.lp1 with active := false } }

/-- The register entries a restart writes, by window number (R296, R306). -/
def restartRegs (r : Vec) (k : Option Checkpoint) (index : Nat) : List (Nat × Vec) :=
  match k with
  | some k => (List.range k.images.length).zip k.images ++ [(k.rd, BitVec.ofNat 512 k.round)]
  | none => [(0, BitVec.ofNat 512 index), (1, BitVec.ofNat 512 (recArg r 0)), (2, BitVec.ofNat 512 (recArg r 1)),
             (3, BitVec.ofNat 512 (recArg r 2))]

/-- The scratch range a restart restores on core c (R306). -/
def State.restoreScratch (s : State) (c : Nat) (k : Option Checkpoint) : State :=
  match k with
  | some k => s.applyWrites (((List.range k.bytes.length).map fun i => scratchHome + c * 2 ^ 20 + k.off + i).zip k.bytes)
  | none => s

/-! ### Stopping units (R139, R292, R308) -/

/-- Stop the thread of a slot that has nothing in flight: the unpopped record goes, the gang uncouples, the buffer
commits, and the unit ends. -/
def State.haltThread (s : State) (c sl code : Nat) (gone : Bool) : State :=
  match s.thread? c sl with
  | none => s
  | some t =>
    let s := if gone then s.markGone t.uid else s
    ((s.dropRecord c sl).stopInGang c sl false).endThread c sl code 0

/-- A slot that is only being emptied holds a thread whose record is already saved (R169). -/
def SlotState.isLeaving : SlotState → Bool
  | .leaving _ _ => true
  | _ => false

/-- A thread that will stop when its instruction completes takes no trap then (log 98). -/
def Thread.willStop (t : Thread) : Bool :=
  match t.after with
  | some (.stop _ _) => true
  | some .rewind => true
  | _ => false

/-- The thread of a core that takes the notice: the lowest slot but 63 that may (R164). One already told to stop takes no
trap, and one that has the notice pending takes no second one (log 98). -/
def State.noticeSlot (s : State) (c : Nat) : Option Nat :=
  (List.range 63).find? fun sl => match s.thread? c sl with
    | some t => (match t.state with | .trapped _ => false | .leaving _ _ => false | _ => true) && !t.willStop
    | none => false
/-- Deliver the notice on one core: at once, or when the instruction in flight completes; a swap that was to follow it is
then not made (R164, R174). A gang's member that stands before a forwarded pair stops after it, the post being owed to it. -/
def State.noticeCore (s : State) (p c : Nat) : State :=
  match s.noticeSlot c, s.ctx? p with
  | some sl, some x =>
    match s.thread? c sl with
    | none => s
    | some t =>
      match t.state with
      | .inflight _ => s.modThread c sl fun t => { t with after := some .notice }
      | _ =>
        let pc := if t.coupled ∧ t.gangPos ≠ 0 then t.goAlone.pc else t.pc
        s.trap c sl { code := 0x10, detail := 0, pc := pc, info := x.notAfter, second := x.notice, flags := 0x20 } none
  | _, _ => s

/-- Stop a thread, after its instruction in flight when it has one; a notice that it was to take then passes to the next
thread that qualifies (R139, R164; log 98). -/
def State.stopThread (s : State) (c sl code : Nat) (gone : Bool) : State :=
  match s.thread? c sl with
  | none => s
  | some t =>
    match t.state with
    | .inflight _ =>
      let s := s.modThread c sl fun t => { t with after := some (.stop code gone) }
      if t.after = some .notice then s.noticeCore (((s.core c).part).getD 0) c else s
    | _ => s.haltThread c sl code gone

/-- Discard a saved context and end its unit, its streams released (R139, R193, R308). -/
def State.discardSaved (s : State) (p record code : Nat) (gone : Bool) : State :=
  match s.ctx? p with
  | none => s
  | some x =>
    match x.saved.find? fun v => v.record == record with
    | none => s
    | some v =>
      let s := if gone then s.markGone v.thread.uid else s
      let s := v.thread.streams.foldl (fun s b => s.dropStream b.2) s
      let s := s.setCtx p { x with saved := x.saved.filter fun w => w.record != record }
      let s := { s with traps := s.traps.filter fun r => r.uid != v.thread.uid }
      if v.thread.handler then s else s.unitEnd p v.thread.launch code 0 none

/-- Slots of a partition's threads that a test picks: core and slot. -/
def State.pickThreads (s : State) (p : Nat) (f : Thread → Bool) : List (Nat × Nat) :=
  (s.threads.filter fun e => (s.core (e.1 / 64)).part == some p && f e.2).map fun e => (e.1 / 64, e.1 % 64)

/-- Remove the strands of the listed launches from every deque of the partition; each was a unit (R292, R308). -/
def State.dropStrands (s : State) (p : Nat) (ids : List Nat) (code : Nat) : State :=
  (s.coresOf p).foldl (fun s c =>
    let mine (d : Strand) : Bool := d.part == p && ids.contains d.launch
    let gone := (s.core c).deque.filter mine
    let s := s.modCore c fun k => { k with deque := k.deque.filter fun d => !mine d }
    gone.foldl (fun s d => s.unitEnd p d.launch code 0 none) s) s

/-- Mark the unstarted commands of the listed launches cancelled, those saved with a core and those of a formed group that
has not started with them, and the collectives that wait for peers: each completes with ENGINE_FAULT detail 4 (R200, R260, R334). -/
def State.cancelCommands (s : State) (p : Nat) (ids : List Nat) : State :=
  let mark (e : CmdEntry) : CmdEntry := if e.part == p && ids.contains e.launch then { e with cancelled := true } else e
  { s with cores := s.cores.map fun e =>
      let held := match e.2.group with
        | some g => if g.members.any (fun m => m.part == p && ids.contains m.launch) then some g.members else none
        | none => none
      let k := match held with | some l => { e.2 with window := (l ++ e.2.window).mergeSort fun a b => decide (a.order ≤ b.order), group := none } | none => e.2
      (e.1, { k with cmds := k.cmds.map (fun q => (q.1, q.2.map mark)), window := k.window.map mark })
           ctxs := s.ctxs.map fun e => if e.1 = p then
             (e.1, { e.2 with images := e.2.images.map fun m => { m with cmds := m.cmds.map fun q => (q.1, q.2.map mark) } }) else e
           active := s.active.map fun e => if e.2.waiting.isSome then (e.1, { e.2 with entry := mark e.2.entry }) else e }

/-- Stop the threads of the listed launches, those swapped out with them; `self` is left aside (R308). -/
def State.stopUnits (s : State) (p : Nat) (ids : List Nat) (code : Nat) (gone : Bool) (self : Option Nat) : State :=
  let mine (t : Thread) : Bool := ids.contains t.launch && !t.handler && some t.uid != self && !t.state.isLeaving && !t.willStop
  let s := (s.pickThreads p mine).foldl (fun s e => s.stopThread e.1 e.2 code gone) s
  let recs := match s.ctx? p with
    | some x => (x.saved.filter fun (v : Saved) => ids.contains v.thread.launch && !v.thread.handler).map Saved.record
    | none => []
  recs.foldl (fun s r => s.discardSaved p r code gone) s

/-- A CANCEL that takes effect. -/
def Effect.isCancel : Effect → Bool
  | .cancel _ _ _ _ => true
  | _ => false
/-- A thread has a CANCEL that waits. -/
def Effect.isCancelEnd : Effect → Bool
  | .cancelEnd _ _ _ _ _ _ => true
  | _ => false
/-- A thread whose CANCEL waits, which stops last (R308). -/
def Thread.cancels (t : Thread) : Bool := match t.state with | .inflight f => f.fx.any Effect.isCancelEnd | _ => false

/-- What a launch that is being ended still has, or has gained by instructions that were in flight: its strands, commands and
units go too, but for a CANCEL's issuer, which stops last; the commands of a launch that a failed checkpoint ends stay (R167, R177,
R306, R308). -/
def State.endDying (s : State) : State :=
  s.ctxs.foldl (fun s e =>
    e.2.launches.foldl (fun s l =>
      match l.2.dying with
      | none => s
      | some (code, gone) =>
        if l.2.state ≠ 3 then s
        else
          let s := s.dropStrands e.1 [l.1] code
          let s := if gone && code != 0x82 then s.cancelCommands e.1 [l.1] else s
          let spared := (s.threads.find? fun t => t.2.launch == l.1 && t.2.cancels).map fun t => t.2.uid
          s.stopUnits e.1 [l.1] code gone spared) s) s

/-- A TRAPPED thread whose core has lost its last other live thread has no handler any more: it makes its launch end
(R167). -/
def State.endStranded (s : State) : State :=
  s.threads.foldl (fun s e =>
    let c := e.1 / 64
    let sl := e.1 % 64
    match e.2.state with
    | .trapped x =>
      match (s.core c).part with
      | some p => if e.2.handler || s.hasHandler c sl p then s else (s.dropRecord c sl).endUnhandled c sl x
      | none => s
    | _ => s) s

/-! ### CANCEL (R308, R311) -/

/-- Graphs whose every live launch is cancelled: a later launch that names one begins a new graph (R311). -/
def Ctx.detachGraphs (x : Ctx) (ids gs : List Nat) : Ctx :=
  gs.foldl Ctx.dropSchedGraph { x with
    launches := x.launches.map fun e => if ids.contains e.1 then (e.1, { e.2 with detached := gs.contains (recGraph e.2.record) }) else e
    graphs := x.graphs.map fun e => if gs.contains e.1 then (e.1, { e.2 with live := false, failures := min 255 (e.2.failures +
      ids.countP fun id => match tabGet? x.launches id with | some l => recGraph l.record == e.1 && l.state != 4 | none => false) }) else e
    chans := x.chans.filter fun e => !gs.contains (e.1 / 256) }

/-- The listed launches are cancelled with a code: queued ones end, running ones have their units stopped; `self` is
the issuer, which is stopped last (R308). -/
def State.cancelLaunches (s : State) (p : Nat) (ids : List Nat) (code : Nat) (self : Option Nat) : State :=
  let s := ids.foldl (fun s id =>
    match (s.ctx? p).bind fun x => (tabGet? x.launches id).map fun l => (x, l) with
    | none => s
    | some (x, l) =>
      let queued := decide (l.state < 3)
      let x := { (if queued then x.leaveQueue id s.timeQ else x) with
                 launches := tabSet x.launches id { l with code := code, dying := some (code, true) } }
      let s := s.setCtx p (if queued then
        { x with queues := tabSet x.queues (recQueue l.record) ((tabGet x.queues (recQueue l.record) []).filter (· != id)) } else x)
      if queued then
        let s := s.launchEnd p id none
        s.modCtx p fun x => x.promote (recQueue l.record) s.timeQ
      else s) s
  ((s.dropStrands p ids code).cancelCommands p ids).stopUnits p ids code true self

/-- Tasks of a graph that a rewind restarts: running, no supervisor (R308). -/
def Ctx.rewindTasks (x : Ctx) (g : Nat) : List Nat :=
  (x.launches.filter fun e => e.2.state == 3 && recTask e.2.record && recGraph e.2.record == g && !e.2.lost).map Prod.fst

/-- The core and slot where a launch's task stands, in the partition's hands still (R300, R308). -/
def State.taskSlot (s : State) (p id : Nat) (l : Launch) : Option (Nat × Nat) :=
  l.site.filter fun e => (s.core e.1).part == some p &&
    (match s.thread? e.1 e.2 with | some t => t.launch == id && !t.state.isLeaving | none => false)
/-- The saved record of a launch's task. -/
def Ctx.taskSaved (x : Ctx) (id : Nat) (l : Launch) : Option Saved :=
  x.saved.find? fun v => v.thread.launch == id && l.site == some (v.core, v.slot)

/-- A task stops for its graph's rewind; a ROUND whose checkpoint is not written is abandoned (R308, R311). -/
def State.rewindHold (s : State) (c sl uid : Nat) : State :=
  let s := (((s.markGone uid).dropRecord c sl).stopInGang c sl false).orphanPosts uid
  let s := ((s.commit c sl).releaseStreams c sl).flushThread c uid
  s.modThread c sl fun t => { t with state := .blocked .rewind, after := none }

/-- First step of a rewind: every task stops, after its instruction in flight when it has one; one that is swapped out
stops in its record (R146, R308). -/
def State.rewindStop (s : State) (p : Nat) (ids : List Nat) : State :=
  ids.foldl (fun s id =>
    match (s.ctx? p).bind fun x => (tabGet? x.launches id).map fun l => (x, l) with
    | none => s
    | some (x, l) =>
      match s.taskSlot p id l with
      | some (c, sl) =>
        (match s.thread? c sl with
         | none => s
         | some t =>
           match t.state with
           | .inflight f =>
             let rounds : Bool := f.fx.any fun e => match e with | .round _ _ _ _ => true | _ => false
             if rounds then s.rewindHold c sl t.uid
             else
               let s := s.modThread c sl fun t => { t with after := some .rewind }
               if t.after = some .notice then s.noticeCore p c else s
           | _ => s.rewindHold c sl t.uid)
      | none =>
        match x.taskSaved id l with
        | none => s
        | some v =>
          let s := v.thread.streams.foldl (fun s b => s.dropStream b.2) (s.markGone v.thread.uid)
          s.modCtx p fun x => { x with saved := x.saved.map fun w =>
            if w.record = v.record then { w with thread := { w.thread with streams := [] } } else w }) s

/-- Empty every channel of a graph and clear its feeder-killed state (R308, R319). -/
def Ctx.emptyChans (x : Ctx) (g : Nat) : Ctx :=
  { x with chans := x.chans.map fun e =>
      if e.1 / 256 = g then (e.1, { e.2 with entries := [], killed := none, sealed_ := none, held := 0, diverted := 0 }) else e }

/-- A task's scratch range of a checkpoint goes into its core's image while that is away. -/
def State.restoreImageScratch (s : State) (p record : Nat) (k : Option Checkpoint) : State :=
  match k with
  | none => s
  | some k =>
    let put (m : Image) : Image :=
      if m.records.contains record then
        { m with scratch := ((List.range k.bytes.length).zip k.bytes).foldl (fun t e => tabSet t (k.off + e.1) e.2) m.scratch }
      else m
    s.modCtx p fun x => { x with images := x.images.map put }

/-- Restart one task of a rewind from its checkpoint of round g, in its slot or in its saved record; where the checkpoint fails, the
launch ends with every unit that it has (R306, R308). -/
def State.rewindTask (s : State) (p id g : Nat) : State :=
  match (s.ctx? p).bind fun x => (tabGet? x.launches id).map fun l => (x, l) with
  | none => s
  | some (x, l) =>
    if l.state ≠ 3 ∨ l.lost ∨ l.site.any (fun e => s.coreDoomed e.1) then s
    else
      let k := if g = 0 then none else s.readCheckpoint ((l.site.map Prod.fst).getD 0) p (recArg l.record 2) g
      let regs := restartRegs l.record k 0
      let opened (t : Thread) : Tab Binding := t.chans.map fun b => (b.1, { b.2 with ended := false })
      let failed : Bool := g != 0 && k.isNone
      let launches := tabSet x.launches id (if failed then { l with code := 0x82, lost := true, dying := some (0x82, true) } else { l with rounds := g })
      match s.taskSlot p id l, x.taskSaved id l with
      | some (c, sl), _ =>
        let s := s.setCtx p { x with launches := launches }
        if failed then s.haltThread c sl 0x82 true
        else
          let s := s.restoreScratch c k
          let base := match s.thread? c sl with | some t => t.base | none => 0
          let s := regs.foldl (fun s r => s.writeReg c (base + r.1) r.2) s
          s.modThread c sl fun t => { t.restart l.record k (s.cycle + 1) with chans := opened t }
      | none, some v =>
        let s := s.setCtx p { x with launches := launches }
        if failed then s.discardSaved p v.record 0x82 true
        else
          let s := if v.core < 1024 then s.restoreScratch v.core k else s.restoreImageScratch p v.record k
          let img := regs.foldl (fun (i : List Reg) r => listSet i r.1 (Reg.ofVec r.2)) v.image
          let t := { v.thread.restart l.record k 0 with chans := opened v.thread }
          s.modCtx p fun x =>
            { x with saved := x.saved.map fun w => if w.record = v.record then { v with image := img, thread := t, trap := none } else w }
      | none, none => s

/-- The rest of a rewind, once nothing of the tasks is in flight (R308). -/
def State.rewindRestart (s : State) (p g : Nat) (ids : List Nat) : State :=
  let n := match s.ctx? p with | some x => x.graphRound g | none => 0
  let s := (s.drainPart p).modCtx p fun x => x.emptyChans g
  let s := ids.foldl (fun s id => s.rewindTask p id n) s
  s.modCtx p fun x => x.updateRound g

end Sys2Proof.Machine
end

