-- ==== Sys2Proof/Machine/Contain.lean ====
section
/-! DEFINITION. Containment: killing a core, fencing a deck, and the error records (R146, R317 to R325). -/
namespace Sys2Proof.Machine

/-- The supervisor of a graph: its launch, when it runs and has not been lost (R323). -/
def Ctx.supervisor (x : Ctx) (g : Nat) : Option (Nat × Launch) :=
  x.launches.find? fun e => recKind e.2.record == 2 && recSuper e.2.record && recGraph e.2.record == g && e.2.state == 3 && e.2.lostAt.isNone

/-- Remove the locks of a command (R190, R317). -/
def State.dropLocks (s : State) (key : Nat) : State := { s with locks := s.locks.filter fun e => e.2.owner != key }

/-- Remove a started command with its locks. -/
def State.dropActive (s : State) (key : Nat) : State := { (s.dropLocks key) with active := tabErase s.active key }

/-- What other agents receive from a killed core (R43, R318): its own arrivals and the traps of its threads are dropped,
posts it still owes and NWRITE values still on their way become error tokens; a value in a landing queue has landed (R141). -/
def State.severCore (s : State) (c : Nat) : State :=
  { s with
    arrivals := s.arrivals.filter fun a => a.core != c
    traps := s.traps.filter fun r => r.core != c
    posts := (s.posts.filter fun q => q.dest.core != c).map fun q =>
      if q.leader = c ∧ !q.ready then { q with ready := true, val := none, due := s.cycle + q.dest.hop } else q
    nwrites := s.nwrites.map fun d => if d.from_ = c then { d with val := none } else d }
/-- Every committed store of a core becomes visible, so that none does after its record (R321; log 99). -/
def State.showCore (s : State) (c : Nat) : State :=
  (List.range s.pend.length).foldl (fun s _ =>
    match s.pend.findIdx? fun e => e.core == c with
    | some i => s.showStore i
    | none => s) s

/-- A task lost with a core: its launch, record and slot. -/
structure LostTask where
  id : Nat
  record : Vec
  slot : Nat
  deriving DecidableEq, Repr

/-- The tasks of a partition on a core, by slot (R317, R323). -/
def Ctx.tasksOn (x : Ctx) (c : Nat) : List LostTask :=
  let l := x.launches.filterMap fun e => match e.2.site with
    | some (k, sl) => if k = c ∧ e.2.state = 3 ∧ recKind e.2.record = 2 then some { id := e.1, record := e.2.record, slot := sl } else none
    | none => none
  (List.range 64).flatMap fun sl => l.filter fun t => t.slot == sl

/-- Steps 1 to 6 of R317 but the records: what the core held is gone, its units are lost, it is fenced and leaves the grant. -/
def State.fenceCore (s : State) (c : Nat) : State :=
  let part := (s.core c).part
  let mine := s.threadsOf c
  let s := mine.foldl (fun s e => (s.uncouple c e.1 false).markGone e.2.uid) s
  let s := (s.severCore c).showCore c
  let tile := s.active.filter fun e => e.2.entry.core == c && e.2.entry.queue == 0
  let s := tile.foldl (fun s e => s.dropActive e.1) s
  let strands := (s.core c).deque
  let s := { s with threads := tabClear s.threads (c * 64) 64 }
  let s := s.setCore c { Core.reset with fenced := true, heldBy := part, corrected := (s.core c).corrected, nlost := (s.core c).nlost, sageSlot := (s.core c).sageSlot,
                                           sealedCount := (s.core c).landing.length + (s.core c).arrivals.length }
  match part with
  | none => s
  | some p =>
    let tasks : List Nat := match s.ctx? p with | some x => (x.tasksOn c).map LostTask.id | none => []
    let saved : List Saved := match s.ctx? p with | some x => x.saved.filter fun v => v.core == c | none => []
    let s := s.modCtx p fun x =>
      { x with cores := x.cores - 1, own := x.own.filter (fun (k : Nat) => k != c), saved := x.saved.filter fun (v : Saved) => v.core != c
               launches := x.launches.map fun e =>
                 if tasks.contains e.1 then (e.1, { e.2 with lost := e.2.lost || recTask e.2.record, lostAt := some c }) else e
               chans := x.chans.map fun e => match e.2.input with
                 | some id => if tasks.contains id then (e.1, { e.2 with sealed_ := some c }) else e
                 | none => e }
    let lose (s : State) (uid id : Nat) (handler : Bool) : State :=
      let s := s.markGone uid
      if handler then s else s.unitEnd p id 0x0E 0 (some c)
    let live := mine.filter fun e => !e.2.state.isLeaving
    let s := live.foldl (fun s e => lose s e.2.uid e.2.launch e.2.handler) s
    let s := saved.foldl (fun s v => lose s v.thread.uid v.thread.launch v.thread.handler) s
    let s := strands.foldl (fun s d => s.unitEnd p d.launch 0x0E 0 (some c)) s
    { s with dispatch := true }

/-- The common fields of a DEAD_CORE record (R322). -/
def deadFields (s : State) (c : Nat) (part : Option Nat) (k : Kill) (flags : Nat) : List (Nat × Nat × Nat) :=
  [(0x00, 1, 0x20), (0x01, 1, k.cause), (0x02, 1, flags + if k.injected then 1 else 0), (0x03, 1, k.source), (0x04, 2, c),
   (0x06, 1, part.getD 0xFF), (0x08, 8, s.time), (0x10, 8, k.info),
   (0x1C, 2, match part with | some p => (s.coresOf p).length | none => 0), (0x24, 2, k.expected), (0x26, 2, k.observed),
   (0x28, 4, (s.core c).sealedCount)]

/-- Kill one core: fence it, write its DEAD_CORE records, deliver them to supervisors, and cancel the graphs whose
supervisor was lost (R317, R323). `source` orders its records among those of the nanosecond. -/
def State.killOne (s : State) (source c : Nat) (k : Kill) : State :=
  if (s.core c).fenced then s
  else
    let part := (s.core c).part
    let tasks : List LostTask := match part.bind s.ctx? with | some x => x.tasksOn c | none => []
    let rounds := fun (g : Nat) => match part.bind s.ctx? with | some x => x.graphRound g | none => 0
    let s := s.fenceCore c
    match part, tasks with
    | some p, t :: ts =>
      let all := t :: ts
      let lostSupers := (all.filter fun t => recSuper t.record).map fun t => recGraph t.record
      let s := all.foldl (fun s t =>
        let g := recGraph t.record
        let home : Outlet := (((s.ctx? p).bind fun x => x.supervisor g).bind fun e => e.2.site.map fun at_ => Outlet.site p e.1 at_.1).getD .none
        let flags := (if home = .none then 0 else 2) + (if lostSupers.contains g then 4 else 0) + 8
        s.logRecord source (deadFields s c part k flags ++ [(0x07, 1, g), (0x18, 2, t.id), (0x1A, 1, t.slot), (0x20, 4, rounds g)]) home) s
      lostSupers.eraseDups.foldl (fun s g =>
        match s.ctx? p with
        | some x => s.cancelLaunches p (x.liveOf 1 g) 0x0E none
        | none => s) s
    | _, _ => s.logRecord source (deadFields s c part k 0) .none

/-- Fence a deck: its record, then every live core of it in increasing core ID, with its own cause when it is doomed itself; its copy
engines and DECK barriers go. Their records follow the deck's, whose source number they share (R325, R395). -/
def State.fenceDeck (s : State) (deck core : Nat) (k : Kill) (doomed : Tab Kill) : State :=
  if s.fencedDecks.contains deck then s
  else
    let s := { s with fencedDecks := setInsert s.fencedDecks deck }
    let s := s.logRecord core [(0x00, 1, 0x21), (0x01, 1, k.cause), (0x02, 1, if k.injected then 1 else 0), (0x03, 1, k.source),
      (0x04, 2, core), (0x06, 1, 0xFF), (0x08, 8, s.time)] .none
    let plain : Kill := { k with info := 0, expected := 0, observed := 0 }
    let s := (List.range 128).foldl (fun s i => s.killOne core (deck * 128 + i) (tabGet doomed (deck * 128 + i) plain)) s
    let copies := s.active.filter fun e => e.2.entry.queue == 2 && deckOf e.2.entry.core == deck
    let s := copies.foldl (fun s e => s.dropActive e.1) s
    { s with barriers := s.barriers.filter fun e => !(e.1 / 4096 % 3 == 1 && e.1 / 16 % 256 == deck) }

/-- Kill a core, and fence its deck when that is the deck's eighth kill since reset (R317, R325). -/
def State.killCore (s : State) (c : Nat) (k : Kill) (doomed : Tab Kill) : State :=
  if (s.core c).fenced then s
  else
    let s := s.killOne c c k
    let dead := (List.range 128).countP fun i => (s.core (deckOf c * 128 + i)).fenced
    if dead ≥ 8 then s.fenceDeck (deckOf c) c k doomed else s

/-- A deck is to be fenced as the cycle ends, with the kills of the cycle, and its live cores do nothing more until then (R320, R325). -/
def State.doomDeck (s : State) (deck : Nat) (injected : Bool) : State :=
  if s.fencedDecks.contains deck ∨ (tabGet? s.doomed (1024 + deck)).isSome then s
  else
    let k : Kill := { errorKill 9 injected with cause := 0 }
    let s := (List.range 128).foldl (fun s i => s.doomCore (deck * 128 + i) k) s
    { s with doomed := tabSet s.doomed (1024 + deck) k }

/-- The kills found in this cycle, deck by deck and in increasing core ID (R317, R320). -/
def State.killDoomed (s : State) : State :=
  let l := s.doomed
  (List.range 8).foldl (fun s d =>
    let s := match tabGet? l (1024 + d) with | some k => s.fenceDeck d (d * 128) k l | none => s
    (l.filter fun e => decide (e.1 < 1024) && deckOf e.1 == d).foldl (fun s e => s.killCore e.1 e.2 l) s) { s with doomed := [] }

end Sys2Proof.Machine
end

