-- ==== Sys2Proof/Machine/Operands.lean ====
section
/-! DEFINITION. Issuing a core instruction: who issues, the checks that every instruction makes on its register fields,
its block or its trap, and its place in flight (R20, R26, R29, R33, R34, R36, R92, R312). -/
namespace Sys2Proof.Machine

/-- A register field that an instruction reads (R33, R162): field code, register, whether its trap-on-empty bit is set,
and whether only the full/empty bit is read (R87). -/
structure Src where
  field : Nat
  reg : Nat
  trap : Bool
  flag : Bool
  deriving DecidableEq, Repr

/-- What the issue of an instruction depends on besides its effect. -/
structure Form where
  /-- Major opcode and function byte, for the checker's stream (R64). -/
  major : Nat
  fn : Nat
  /-- Sources in the order of their checks, and destinations with their field codes. -/
  srcs : List Src
  dsts : List (Nat × Nat)
  /-- Latency class (R26). -/
  lat : Nat
  /-- The instruction writes memory, for the store count of R63. -/
  store : Bool
  /-- It is THR.STOP of the issuer, which ends a block (R62). -/
  ends : Bool
  /-- An operand overlap: the second register named and the first, as register operands (R131, R132, R195). -/
  clash : Option (Nat × Nat)
  deriving DecidableEq, Repr

/-- Latency class of every instruction that R26 does not list. -/
def lat12 : Nat := 12

/-- A form with no operands; the others are changes of it. -/
def Form.plain (major fn : Nat) : Form :=
  { major := major, fn := fn, srcs := [], dsts := [], lat := lat12, store := false, ends := false, clash := none }

/-- A register source with a trap-on-empty bit, and one that blocks (R33). -/
def srcT (field : Nat) (r : BitVec 7) (t : BitVec 1) : Src :=
  { field := field, reg := r.toNat, trap := t == 1#1, flag := false }
def srcB (field : Nat) (r : BitVec 7) : Src := { field := field, reg := r.toNat, trap := false, flag := false }

/-- The thread that issues. -/
structure Op where
  c : Nat
  sl : Nat
  /-- Partition of the core. -/
  p : Nat
  t : Thread
  pair : Option (BitVec 32)
  form : Form
  deriving DecidableEq, Repr

/-- Who issues: a READY thread (R27). -/
def State.issuer (s : State) (f : Form) : Option Op :=
  let find (c sl : Nat) (w : Option (BitVec 32)) : Option Op :=
    match s.thread? c sl with
    | some t => if t.state = .ready then some { c := c, sl := sl, p := ((s.core c).part).getD 0, t := t, pair := w, form := f } else none
    | none => none
  match s.cur with
  | .thread c sl => find c sl none
  | .pair c sl w => find c sl (some w)
  | _ => none

/-- Address of the instruction, file entry and contents of a register field (R28, R65). -/
def Op.pc (o : Op) : Addr := o.t.pc
def Op.entry (o : Op) (r : BitVec 7) : Nat := o.t.base + r.toNat
def State.rv (s : State) (o : Op) (r : BitVec 7) : Vec := (s.regAt o.c (o.t.base + r.toNat)).val
def State.rx (s : State) (o : Op) (r : BitVec 7) : Word := scalarOf (s.rv o r)

/-- Address of the instruction after this one: a ONCE pair takes two words (R57). -/
def Op.next (o : Op) : Addr := o.t.pc + (if o.pair.isSome then 8 else 4)

/-- The address at which the instruction counts as completing: the second word of a pair (R91). -/
def Op.last (o : Op) : Addr := o.t.pc + (if o.pair.isSome then 4 else 0)

/-! ### Destinations that wait (R34, R143) -/

/-- An armed register of a thread covers the entry (R143). -/
def Thread.armed (t : Thread) (e : Nat) : Bool :=
  t.armNbr == some e || t.armNtf == some e

/-- A swapped thread of the core's context has the entry armed: a later landing writes it (R143, R158, R172). -/
def State.savedArmed (s : State) (c e : Nat) : Bool :=
  match (s.core c).part.bind s.ctx? with
  | some x => x.saved.any fun v => v.core == c && v.thread.armed e
  | none => false

/-- A producer into the entry is still outstanding: in flight, on its way, or a ONCE post, or an arming (R32, R34, R143). -/
def State.outstanding (s : State) (c e : Nat) : Bool :=
  s.savedArmed c e ||
  (s.arrivals.any fun a => a.core == c && (a.rd == e || a.ws == some e)) ||
  (s.posts.any fun q => q.dest.core == c && q.dest.entry == e && q.emptied) ||
  ((s.threadsOf c).any fun x => x.2.armed e || (match x.2.state with | .inflight f => f.emptied.contains e | _ => false))

/-! ### The checks before issue -/

/-- REG_RANGE (R29): the lowest field whose register lies outside the window. -/
def Form.outOfRange (f : Form) (size : Nat) : Option Nat :=
  let bad := (f.srcs.map fun x => (x.field, x.reg)) ++ f.dsts
  let bad := bad.filter fun e => decide (size ≤ e.2)
  bad.foldl (fun (acc : Option Nat) e =>
    let code := e.2 + 256 * e.1
    match acc with
    | none => some code
    | some a => some (if code < a then code else a)) none

/-- A loop level is active and ends at an address (R91, R92). -/
def Thread.loopEndsAt (t : Thread) (a : Addr) : Bool :=
  (t.lp0.active && t.lp0.stop == a) || (t.lp1.active && t.lp1.stop == a)

/-- A word of majors 0x17 to 0x1D or a ONCE word stands at the end of an active level (R92). -/
def Op.loopEnd (o : Op) : Bool :=
  (o.pair.isSome || (decide (0x17 ≤ o.form.major) && decide (o.form.major ≤ 0x1D))) && o.t.loopEndsAt o.t.pc

/-- What the checks of an instruction's fields decide. -/
inductive Gate where
  | trap (x : TrapInfo)
  | block (entries : List Nat)
  | go
  deriving DecidableEq, Repr

/-- Secondary information of DATA_LOST (R162). -/
def lostCore (k : Option Nat) : Word :=
  match k with
  | some c => BitVec.ofNat 64 (c + 2 ^ 16)
  | none => 0

/-- An empty entry whose value is still to come: a read that waits reads that value, and an error token in the entry before bears on it no
more (R33, R36, R330; assumption 22). -/
def State.awaited (s : State) (c e : Nat) : Bool := !(s.regAt c e).full && s.outstanding c e
/-- The checks in their order: REG_RANGE, LOOP_END_BRANCH, OPERAND_OVERLAP, a destination that waits, DATA_LOST,
EMPTY_READ, a source that waits (R29, R92, R34, R36, R33; assumption 22). -/
def State.gate (s : State) (o : Op) : Gate :=
  match o.form.outOfRange o.t.size with
  | some r => .trap (trapAt o.pc 0x02 (BitVec.ofNat 64 r) (BitVec.ofNat 64 o.t.size))
  | none =>
    if o.loopEnd then .trap (trapAt o.pc 0x0C (o.pc.setWidth 64) 0)
    else match o.form.clash with
      | some (b, a) => .trap (trapAt o.pc 0x0B (BitVec.ofNat 64 b) (BitVec.ofNat 64 a))
      | none =>
        let at_ (r : Nat) : Reg := s.regAt o.c (o.t.base + r)
        let busy := o.form.dsts.filter fun d => !(at_ d.2).full && s.outstanding o.c (o.t.base + d.2)
        let empty := o.form.srcs.filter fun x => !x.flag && !(at_ x.reg).full
        if !busy.isEmpty then .block (busy.map fun d => o.t.base + d.2)
        else match o.form.srcs.find? fun x => (at_ x.reg).lost && (x.trap || x.flag || !s.awaited o.c (o.t.base + x.reg)) with
          | some x => .trap (trapAt o.pc 0x0E (BitVec.ofNat 64 (x.reg + 256 * x.field)) (lostCore (at_ x.reg).token))
          | none =>
            match empty.find? fun x => x.trap with
            | some x => .trap (trapAt o.pc 0x03 (BitVec.ofNat 64 (x.reg + 256 * x.field)) 0)
            | none => if empty.isEmpty then .go else .block (empty.map fun x => o.t.base + x.reg)

/-! ### The outcomes of an issue -/

/-- The core has taken its turn for this cycle (R25). -/
def State.tookTurn (s : State) (c sl : Nat) : State := s.modCore c fun k => { k with last := sl, issued := s.cycle + 1 }

/-- The thread does not issue: it waits (R27). -/
def State.blockOn (s : State) (o : Op) (w : Wait) : State := s.modThread o.c o.sl fun t => { t with state := .blocked w }

/-- The instruction traps at its issue (R20, R160). -/
def State.trapOp (s : State) (o : Op) (x : TrapInfo) : State := (s.tookTurn o.c o.sl).trap o.c o.sl x o.pair

/-- A trap of the instruction with its code, information and secondary information. -/
def State.trapCode (s : State) (o : Op) (code : Nat) (info second : Word) : State := s.trapOp o (trapAt o.pc code info second)

/-- The bytes an instruction contributes to its block's stream (R64). Of two written register fields the first named comes
first, by field: a DESIGN CHOICE, the rule orders the read fields alone (log 96). -/
def Op.sig (o : Op) : List Byte :=
  let f := o.form
  let byte (n : Nat) : Byte := BitVec.ofNat 8 n
  let order (l : List (Nat × Nat)) : List Byte := [0, 1, 2, 3, 5].flatMap fun k => (l.filter fun e => e.1 == k).map fun e => byte e.2
  (if o.pair.isSome then [0x3F, 0x00] else []) ++ [byte f.major, byte f.fn] ++
    order (f.srcs.map fun x => (x.field, x.reg)) ++ order f.dsts

/-- Posts of the pair that the leader has fetched and not yet issued (R100). -/
def Op.ownPost (o : Op) (q : Post) : Bool := q.src == o.t.uid && q.pair == 0
/-- Members that receive the destinations of a ONCE pair: those of the gang at its fetch, also when the gang has
uncoupled since (R43, R100). -/
def State.postsOf (s : State) (o : Op) : List PostTo :=
  if o.pair.isNone then [] else (s.posts.filter o.ownPost).map Post.dest

/-- The instruction goes in flight for its latency, with what its completion does (R18, R26); translation, checks and
service may take longer (R115, R280): a free delay (log 4). -/
def State.flyTo (s : State) (o : Op) (fx : List Effect) (next : Addr) (xfer : Transfer) (kind : Nat) (emptied : List Nat) : State :=
  let s := (s.tookTurn o.c o.sl).countCore o.c 2 1
  let d := if kind = 0 then (0, s) else s.takeDelay
  let s := d.2
  let f : Flight :=
    { due := s.cycle + o.form.lat + (if kind = 3 then min 1900 d.1 else d.1), least := s.cycle + o.form.lat, order := s.order, pair := o.pair, sig := o.sig, major := o.form.major,
      store := o.form.store, ends := o.form.ends, fx := fx, next := next, xfer := xfer, kind := kind,
      posts := s.postsOf o, emptied := emptied,
      wasFull := emptied.filter fun e => (s.regAt o.c e).full, checked := false }
  let s := emptied.foldl (fun s e => s.setFull o.c e false) s
  { s.modThread o.c o.sl (fun t => { t with state := .inflight f }) with
    order := s.order + 1
    posts := s.posts.map fun q => if o.pair.isSome ∧ o.ownPost q then { q with pair := s.order } else q }

/-- Sequential flow with register and other effects. -/
def State.fly (s : State) (o : Op) (fx : List Effect) : State := s.flyTo o fx o.next .none 0 []

/-- A long-latency producer that has taken its value at issue: the entries are empty from now on, and the value
arrives in cycle t + 12 (R32, R132, R143, R195). -/
def State.flyArrive (s : State) (o : Op) (rd : Nat) (ws : Option Nat) (prod : Producer) (acq : Option Nat) (fx : List Effect) : State :=
  let posts := s.postsOf o
  let a : Arrival :=
    { uid := o.t.uid, core := o.c, slot := o.sl, part := o.p, order := s.order, due := s.cycle + lat12, rd := rd, ws := ws,
      prod := prod, acq := acq, rel := none, posts := posts, vas := [], bytes := 0, takes := [] }
  let s := s.flyTo o fx o.next .none 0 ([rd] ++ ws.toList)
  { s with arrivals := s.arrivals ++ [a] }

/-! ### Soft errors in the register file (R312, R313) -/

/-- Reads correct single flipped bits and count them. -/
def State.correctReads (s : State) (o : Op) : State :=
  s.correctRegs o.c ((o.form.srcs.filter fun x => !x.flag).map fun x => o.t.base + x.reg)

/-- A source holds an uncorrectable error. -/
def State.badRead (s : State) (o : Op) : Bool :=
  o.form.srcs.any fun x => !x.flag && decide (2 ≤ (s.regAt o.c (o.t.base + x.reg)).flips)

/-- A thread issues a pair as a gang member that does not lead: it is one, or was one when the pair was forwarded to it (R43, R100). -/
def Op.follows (o : Op) : Bool := o.pair.isSome && (if o.t.coupled then o.t.gangPos != 0 else o.t.forward.isSome)
/-- A gang member that does not lead issues a ONCE pair: it executes nothing, and traps only when its window is too
small for the destination; it completes after 12 cycles whatever the instruction's own latency (R100, R168). -/
def State.memberPair (s : State) (o : Op) : State :=
  match { o.form with srcs := [] }.outOfRange o.t.size with
  | some r => s.trapOp o (trapAt o.pc 0x02 (BitVec.ofNat 64 r) (BitVec.ofNat 64 o.t.size))
  | none => s.fly { o with form := { o.form with lat := lat12 } } []

/-- Issue by the thread's own gate, then the reads, then the instruction's own part (R26). -/
def State.issueOwn (s : State) (o : Op) (body : Op → State → State) : State :=
  match s.gate o with
  | .trap x => s.trapOp o x
  | .block l => s.blockOn o (.regs l)
  | .go => if s.badRead o then s.doomCore o.c (errorKill 0 true) else body o (s.correctReads o)

/-- Issue an instruction of a form (R26, R42). -/
def State.issue (s : State) (f : Form) (body : Op → State → State) : Host.Outcome State Fault Refusal :=
  match s.issuer f with
  | none => .fault .noIssuer
  | some o =>
    .next (if o.follows then s.memberPair o else s.issueOwn o body)

/-- A word that is no instruction traps ILLEGAL_INSTRUCTION before every other check: the record holds the word, the
prefixed one for a pair (R56, R57, R162). -/
def State.illegal (s : State) (c sl : Nat) (w : BitVec 32) (pair : Option (BitVec 32)) : State :=
  match s.thread? c sl with
  | none => s
  | some t => (s.tookTurn c sl).trap c sl (trapAt t.pc 0x01 (w.setWidth 64) 0) pair

/-- An instruction whose whole effect is a value for rd (R65). -/
def State.issueValue (s : State) (f : Form) (rd : BitVec 7) (value : Op → State → Vec) : Host.Outcome State Fault Refusal :=
  s.issue { f with dsts := [(0, rd.toNat)] } fun o s => s.fly o [.reg (o.entry rd) (value o s)]

/-- A value for rd with exception flags (R69). -/
def State.issueFlags (s : State) (f : Form) (rd : BitVec 7) (value : Op → State → Vec × BitVec 5) : Host.Outcome State Fault Refusal :=
  s.issue { f with dsts := [(0, rd.toNat)] } fun o s =>
    let v := value o s
    s.fly o [.reg (o.entry rd) v.1, .flags v.2]

/-- Forms by format: RRR with two sources, RRR with one, RRI, RRRR (R50). -/
def formRRR (major fn : Nat) (ra rb : BitVec 7) (ta tb : BitVec 1) : Form :=
  { Form.plain major fn with srcs := [srcT 1 ra ta, srcT 2 rb tb] }
def formRR (major fn : Nat) (ra : BitVec 7) (ta : BitVec 1) : Form :=
  { Form.plain major fn with srcs := [srcT 1 ra ta] }
def formRRRR (major : Nat) (ra rb : BitVec 7) (rc : BitVec 5) : Form :=
  { Form.plain major 0 with srcs := [srcB 1 ra, srcB 2 rb, srcB 3 (rc.setWidth 7)] }

/-- A SYS form: sub, register sources that block, destination (R33, R50). -/
def formSys (sub : Nat) (srcs : List Src) (dsts : List (Nat × Nat)) : Form :=
  { Form.plain 0x3D sub with srcs := srcs, dsts := dsts }
/-- SYS with source ra and destination rd. -/
def formSysRA (sub : Nat) (rd ra : BitVec 7) : Form := formSys sub [srcB 1 ra] [(0, rd.toNat)]

end Sys2Proof.Machine
end

