-- ==== Sys2Proof/Machine/Integer.lean ====
section
/-! DEFINITION. Integer and address arithmetic, majors 0x00 to 0x0F (R70 to R79). Each `val…` is the entry's value of D;
each `exec…` issues the instruction with it. -/
namespace Sys2Proof.Machine

/-- An outcome of the machine. -/
abbrev Res := Host.Outcome State Fault Refusal

/-- Signed and unsigned quotients and remainders with R72's two fixed cases. -/
def divS (a b : Word) : Word := if b = 0 then -1 else BitVec.ofInt 64 (a.toInt.tdiv b.toInt)
def divU (a b : Word) : Word := if b = 0 then -1 else BitVec.ofNat 64 (a.toNat / b.toNat)
def remS (a b : Word) : Word := if b = 0 then a else BitVec.ofInt 64 (a.toInt.tmod b.toInt)
def remU (a b : Word) : Word := if b = 0 then a else BitVec.ofNat 64 (a.toNat % b.toNat)

/-- Leading zeros of the low n bits (R74). -/
def leadingZeros (a : Word) : Nat → Nat
  | 0 => 0
  | n + 1 => if a.getLsbD n then 0 else 1 + leadingZeros a n
/-- One bits among the low n bits (R74). -/
def oneBits (a : Word) : Nat → Nat
  | 0 => 0
  | n + 1 => (if a.getLsbD n then 1 else 0) + oneBits a n
/-- Eight bytes in reverse order (R74). -/
def reverseBytes (a : Word) : Word :=
  a.extractLsb' 0 8 ++ a.extractLsb' 8 8 ++ a.extractLsb' 16 8 ++ a.extractLsb' 24 8 ++ a.extractLsb' 32 8 ++
    a.extractLsb' 40 8 ++ a.extractLsb' 48 8 ++ a.extractLsb' 56 8
/-- A truth value as a word. -/
def boolWord (b : Bool) : Word := if b then 1 else 0
/-- Shift count B[5:0] (R70). -/
def shiftCount (b : Word) : Nat := b.toNat % 64

/-- ADD (R70). -/
def valAdd (a b : Word) : Word := a + b
def execAdd (rd ra rb : BitVec 7) (ta tb : BitVec 1) (s : State) : Res :=
  s.issueValue (formRRR 0x00 0 ra rb ta tb) rd fun o s => widen (valAdd (s.rx o ra) (s.rx o rb))

/-- SUB (R70). -/
def valSub (a b : Word) : Word := a - b
def execSub (rd ra rb : BitVec 7) (ta tb : BitVec 1) (s : State) : Res :=
  s.issueValue (formRRR 0x00 1 ra rb ta tb) rd fun o s => widen (valSub (s.rx o ra) (s.rx o rb))

/-- AND (R70). -/
def valAnd (a b : Word) : Word := a &&& b
def execAnd (rd ra rb : BitVec 7) (ta tb : BitVec 1) (s : State) : Res :=
  s.issueValue (formRRR 0x00 2 ra rb ta tb) rd fun o s => widen (valAnd (s.rx o ra) (s.rx o rb))

/-- OR (R70). -/
def valOr (a b : Word) : Word := a ||| b
def execOr (rd ra rb : BitVec 7) (ta tb : BitVec 1) (s : State) : Res :=
  s.issueValue (formRRR 0x00 3 ra rb ta tb) rd fun o s => widen (valOr (s.rx o ra) (s.rx o rb))

/-- XOR (R70). -/
def valXor (a b : Word) : Word := a ^^^ b
def execXor (rd ra rb : BitVec 7) (ta tb : BitVec 1) (s : State) : Res :=
  s.issueValue (formRRR 0x00 4 ra rb ta tb) rd fun o s => widen (valXor (s.rx o ra) (s.rx o rb))

/-- SHL (R70). -/
def valShl (a b : Word) : Word := a <<< shiftCount b
def execShl (rd ra rb : BitVec 7) (ta tb : BitVec 1) (s : State) : Res :=
  s.issueValue (formRRR 0x00 5 ra rb ta tb) rd fun o s => widen (valShl (s.rx o ra) (s.rx o rb))

/-- SHR (R70). -/
def valShr (a b : Word) : Word := a >>> shiftCount b
def execShr (rd ra rb : BitVec 7) (ta tb : BitVec 1) (s : State) : Res :=
  s.issueValue (formRRR 0x00 6 ra rb ta tb) rd fun o s => widen (valShr (s.rx o ra) (s.rx o rb))

/-- SRA (R70). -/
def valSra (a b : Word) : Word := a.sshiftRight (shiftCount b)
def execSra (rd ra rb : BitVec 7) (ta tb : BitVec 1) (s : State) : Res :=
  s.issueValue (formRRR 0x00 7 ra rb ta tb) rd fun o s => widen (valSra (s.rx o ra) (s.rx o rb))

/-- MUL (R71). -/
def valMul (a b : Word) : Word := a * b
def execMul (rd ra rb : BitVec 7) (ta tb : BitVec 1) (s : State) : Res :=
  s.issueValue (formRRR 0x01 0 ra rb ta tb) rd fun o s => widen (valMul (s.rx o ra) (s.rx o rb))

/-- MULH (R71). -/
def valMulh (a b : Word) : Word := BitVec.ofInt 64 (a.toInt * b.toInt / 2 ^ 64)
def execMulh (rd ra rb : BitVec 7) (ta tb : BitVec 1) (s : State) : Res :=
  s.issueValue (formRRR 0x01 1 ra rb ta tb) rd fun o s => widen (valMulh (s.rx o ra) (s.rx o rb))

/-- MULHU (R71). -/
def valMulhu (a b : Word) : Word := BitVec.ofNat 64 (a.toNat * b.toNat / 2 ^ 64)
def execMulhu (rd ra rb : BitVec 7) (ta tb : BitVec 1) (s : State) : Res :=
  s.issueValue (formRRR 0x01 2 ra rb ta tb) rd fun o s => widen (valMulhu (s.rx o ra) (s.rx o rb))

/-- DIV (R72). -/
def valDiv (a b : Word) : Word := divS a b
def execDiv (rd ra rb : BitVec 7) (ta tb : BitVec 1) (s : State) : Res :=
  s.issueValue ({ formRRR 0x01 3 ra rb ta tb with lat := 40 }) rd fun o s => widen (valDiv (s.rx o ra) (s.rx o rb))

/-- DIVU (R72). -/
def valDivu (a b : Word) : Word := divU a b
def execDivu (rd ra rb : BitVec 7) (ta tb : BitVec 1) (s : State) : Res :=
  s.issueValue ({ formRRR 0x01 4 ra rb ta tb with lat := 40 }) rd fun o s => widen (valDivu (s.rx o ra) (s.rx o rb))

/-- REM (R72). -/
def valRem (a b : Word) : Word := remS a b
def execRem (rd ra rb : BitVec 7) (ta tb : BitVec 1) (s : State) : Res :=
  s.issueValue ({ formRRR 0x01 5 ra rb ta tb with lat := 40 }) rd fun o s => widen (valRem (s.rx o ra) (s.rx o rb))

/-- REMU (R72). -/
def valRemu (a b : Word) : Word := remU a b
def execRemu (rd ra rb : BitVec 7) (ta tb : BitVec 1) (s : State) : Res :=
  s.issueValue ({ formRRR 0x01 6 ra rb ta tb with lat := 40 }) rd fun o s => widen (valRemu (s.rx o ra) (s.rx o rb))

/-- MIN (R73). -/
def valMin (a b : Word) : Word := if a.toInt ≤ b.toInt then a else b
def execMin (rd ra rb : BitVec 7) (ta tb : BitVec 1) (s : State) : Res :=
  s.issueValue (formRRR 0x02 0 ra rb ta tb) rd fun o s => widen (valMin (s.rx o ra) (s.rx o rb))

/-- MAX (R73). -/
def valMax (a b : Word) : Word := if a.toInt ≤ b.toInt then b else a
def execMax (rd ra rb : BitVec 7) (ta tb : BitVec 1) (s : State) : Res :=
  s.issueValue (formRRR 0x02 1 ra rb ta tb) rd fun o s => widen (valMax (s.rx o ra) (s.rx o rb))

/-- MINU (R73). -/
def valMinu (a b : Word) : Word := if a.toNat ≤ b.toNat then a else b
def execMinu (rd ra rb : BitVec 7) (ta tb : BitVec 1) (s : State) : Res :=
  s.issueValue (formRRR 0x02 2 ra rb ta tb) rd fun o s => widen (valMinu (s.rx o ra) (s.rx o rb))

/-- MAXU (R73). -/
def valMaxu (a b : Word) : Word := if a.toNat ≤ b.toNat then b else a
def execMaxu (rd ra rb : BitVec 7) (ta tb : BitVec 1) (s : State) : Res :=
  s.issueValue (formRRR 0x02 3 ra rb ta tb) rd fun o s => widen (valMaxu (s.rx o ra) (s.rx o rb))

/-- SLT (R73). -/
def valSlt (a b : Word) : Word := boolWord (decide (a.toInt < b.toInt))
def execSlt (rd ra rb : BitVec 7) (ta tb : BitVec 1) (s : State) : Res :=
  s.issueValue (formRRR 0x02 4 ra rb ta tb) rd fun o s => widen (valSlt (s.rx o ra) (s.rx o rb))

/-- SLTU (R73). -/
def valSltu (a b : Word) : Word := boolWord (decide (a.toNat < b.toNat))
def execSltu (rd ra rb : BitVec 7) (ta tb : BitVec 1) (s : State) : Res :=
  s.issueValue (formRRR 0x02 5 ra rb ta tb) rd fun o s => widen (valSltu (s.rx o ra) (s.rx o rb))

/-- SEQ (R73). -/
def valSeq (a b : Word) : Word := boolWord (decide (a = b))
def execSeq (rd ra rb : BitVec 7) (ta tb : BitVec 1) (s : State) : Res :=
  s.issueValue (formRRR 0x02 6 ra rb ta tb) rd fun o s => widen (valSeq (s.rx o ra) (s.rx o rb))

/-- SNE (R73). -/
def valSne (a b : Word) : Word := boolWord (decide (a ≠ b))
def execSne (rd ra rb : BitVec 7) (ta tb : BitVec 1) (s : State) : Res :=
  s.issueValue (formRRR 0x02 7 ra rb ta tb) rd fun o s => widen (valSne (s.rx o ra) (s.rx o rb))

/-- clz (R74). -/
def valClz (a : Word) : Word := BitVec.ofNat 64 (leadingZeros a 64)
def execClz (rd ra : BitVec 7) (ta : BitVec 1) (s : State) : Res :=
  s.issueValue (formRR 0x03 0 ra ta) rd fun o s => widen (valClz (s.rx o ra))

/-- popc (R74). -/
def valPopc (a : Word) : Word := BitVec.ofNat 64 (oneBits a 64)
def execPopc (rd ra : BitVec 7) (ta : BitVec 1) (s : State) : Res :=
  s.issueValue (formRR 0x03 1 ra ta) rd fun o s => widen (valPopc (s.rx o ra))

/-- rev (R74). -/
def valRev (a : Word) : Word := reverseBytes a
def execRev (rd ra : BitVec 7) (ta : BitVec 1) (s : State) : Res :=
  s.issueValue (formRR 0x03 2 ra ta) rd fun o s => widen (valRev (s.rx o ra))

/-- sextB (R74). -/
def valSextB (a : Word) : Word := (a.setWidth 8).signExtend 64
def execSextB (rd ra : BitVec 7) (ta : BitVec 1) (s : State) : Res :=
  s.issueValue (formRR 0x03 3 ra ta) rd fun o s => widen (valSextB (s.rx o ra))

/-- sextH (R74). -/
def valSextH (a : Word) : Word := (a.setWidth 16).signExtend 64
def execSextH (rd ra : BitVec 7) (ta : BitVec 1) (s : State) : Res :=
  s.issueValue (formRR 0x03 4 ra ta) rd fun o s => widen (valSextH (s.rx o ra))

/-- sextW (R74). -/
def valSextW (a : Word) : Word := (a.setWidth 32).signExtend 64
def execSextW (rd ra : BitVec 7) (ta : BitVec 1) (s : State) : Res :=
  s.issueValue (formRR 0x03 5 ra ta) rd fun o s => widen (valSextW (s.rx o ra))

/-- zextW (R74). -/
def valZextW (a : Word) : Word := (a.setWidth 32).setWidth 64
def execZextW (rd ra : BitVec 7) (ta : BitVec 1) (s : State) : Res :=
  s.issueValue (formRR 0x03 6 ra ta) rd fun o s => widen (valZextW (s.rx o ra))

/-- ADDI (R75), with I the sign-extended immediate. -/
def valAddi (a i : Word) : Word := a + i
def execAddi (rd ra : BitVec 7) (ta : BitVec 1) (imm : BitVec 11) (s : State) : Res :=
  s.issueValue (formRR 0x04 0 ra ta) rd fun o s => widen (valAddi (s.rx o ra) (imm.signExtend 64))

/-- ANDI (R75), with I the sign-extended immediate. -/
def valAndi (a i : Word) : Word := a &&& i
def execAndi (rd ra : BitVec 7) (ta : BitVec 1) (imm : BitVec 11) (s : State) : Res :=
  s.issueValue (formRR 0x05 0 ra ta) rd fun o s => widen (valAndi (s.rx o ra) (imm.signExtend 64))

/-- ORI (R75), with I the sign-extended immediate. -/
def valOri (a i : Word) : Word := a ||| i
def execOri (rd ra : BitVec 7) (ta : BitVec 1) (imm : BitVec 11) (s : State) : Res :=
  s.issueValue (formRR 0x06 0 ra ta) rd fun o s => widen (valOri (s.rx o ra) (imm.signExtend 64))

/-- XORI (R75), with I the sign-extended immediate. -/
def valXori (a i : Word) : Word := a ^^^ i
def execXori (rd ra : BitVec 7) (ta : BitVec 1) (imm : BitVec 11) (s : State) : Res :=
  s.issueValue (formRR 0x07 0 ra ta) rd fun o s => widen (valXori (s.rx o ra) (imm.signExtend 64))

/-- SLTI (R75), with I the sign-extended immediate. -/
def valSlti (a i : Word) : Word := boolWord (decide (a.toInt < i.toInt))
def execSlti (rd ra : BitVec 7) (ta : BitVec 1) (imm : BitVec 11) (s : State) : Res :=
  s.issueValue (formRR 0x0B 0 ra ta) rd fun o s => widen (valSlti (s.rx o ra) (imm.signExtend 64))

/-- SHLI (R75). -/
def valShli (a : Word) (n : BitVec 6) : Word := a <<< n.toNat
def execShli (rd ra : BitVec 7) (ta : BitVec 1) (imm : BitVec 6) (s : State) : Res :=
  s.issueValue (formRR 0x08 0 ra ta) rd fun o s => widen (valShli (s.rx o ra) imm)

/-- SHRI (R75). -/
def valShri (a : Word) (n : BitVec 6) : Word := a >>> n.toNat
def execShri (rd ra : BitVec 7) (ta : BitVec 1) (imm : BitVec 6) (s : State) : Res :=
  s.issueValue (formRR 0x09 0 ra ta) rd fun o s => widen (valShri (s.rx o ra) imm)

/-- SRAI (R75). -/
def valSrai (a : Word) (n : BitVec 6) : Word := a.sshiftRight n.toNat
def execSrai (rd ra : BitVec 7) (ta : BitVec 1) (imm : BitVec 6) (s : State) : Res :=
  s.issueValue (formRR 0x0A 0 ra ta) rd fun o s => widen (valSrai (s.rx o ra) imm)

/-- MOVI (R76). -/
def execMovi (rd : BitVec 7) (imm : BitVec 19) (s : State) : Res :=
  s.issueValue (Form.plain 0x0C 0) rd fun _ _ => widen (imm.signExtend 64)

/-- LDPC (R77): the doubleword at E through the instruction-fetch path; an error token for a lost line. -/
def execLdpc (rd : BitVec 7) (imm : BitVec 19) (s : State) : Res :=
  s.issue { Form.plain 0x0D 0 with dsts := [(0, rd.toNat)] } fun o s =>
    let e : Word := o.pc.setWidth 64 + imm.signExtend 64 * 4
    if e.toNat % 8 ≠ 0 then s.trapCode o 0x04 e 0
    else match s.fetchBytes o.p e.toNat 8 with
      | .ok bs => s.fly o [.reg (o.entry rd) (BitVec.ofNat 512 (bytesNat bs))]
      | .fault => s.trapCode o 0x06 e 3
      | .lost => s.fly o [.token (o.entry rd)]

/-- LEA (R78). -/
def execLea (rd ra rb : BitVec 7) (sh : BitVec 3) (ta tb : BitVec 1) (s : State) : Res :=
  s.issueValue (formRRR 0x0E sh.toNat ra rb ta tb) rd fun o s => widen (s.rx o ra + s.rx o rb <<< sh.toNat)

/-- SEL (R79). -/
def execSel (rd ra rb : BitVec 7) (rc : BitVec 5) (s : State) : Res :=
  s.issueValue (formRRRR 0x0F ra rb rc) rd fun o s =>
    widen (if s.rx o (rc.setWidth 7) ≠ 0 then s.rx o ra else s.rx o rb)

end Sys2Proof.Machine
end

