-- ==== Sys2Proof/Machine/Control.lean ====
section
/-! DEFINITION. Control transfer, hardware loops, strands and gangs, majors 0x17 to 0x1E (R86 to R99). -/
namespace Sys2Proof.Machine

/-- A displacement target (R49). A sum outside the 48-bit range wraps modulo 2^48: a DESIGN CHOICE, the spec gives no case
for it (log 96). -/
def dispTarget (pc : Addr) {w : Nat} (n : BitVec w) : Addr := pc + n.signExtend 48 * 4

/-- A branch goes to its target, or on (R86, R87). -/
def State.branch (s : State) (o : Op) (taken : Bool) (n : BitVec 15) : State :=
  if taken then s.flyTo o [] (dispTarget o.pc n) .jump 0 [] else s.fly o []

/-- bcEqz (R87). -/
def condBcEqz (a : Word) : Bool := decide (a.toInt = 0)
def execBcEqz (ra : BitVec 7) (ta : BitVec 1) (n : BitVec 15) (s : State) : Res :=
  s.issue (formRR 0x17 0 ra ta) fun o s => s.branch o (condBcEqz (s.rx o ra)) n

/-- bcNez (R87). -/
def condBcNez (a : Word) : Bool := decide (a.toInt ≠ 0)
def execBcNez (ra : BitVec 7) (ta : BitVec 1) (n : BitVec 15) (s : State) : Res :=
  s.issue (formRR 0x17 1 ra ta) fun o s => s.branch o (condBcNez (s.rx o ra)) n

/-- bcLtz (R87). -/
def condBcLtz (a : Word) : Bool := decide (a.toInt < 0)
def execBcLtz (ra : BitVec 7) (ta : BitVec 1) (n : BitVec 15) (s : State) : Res :=
  s.issue (formRR 0x17 2 ra ta) fun o s => s.branch o (condBcLtz (s.rx o ra)) n

/-- bcGez (R87). -/
def condBcGez (a : Word) : Bool := decide (0 ≤ a.toInt)
def execBcGez (ra : BitVec 7) (ta : BitVec 1) (n : BitVec 15) (s : State) : Res :=
  s.issue (formRR 0x17 3 ra ta) fun o s => s.branch o (condBcGez (s.rx o ra)) n

/-- bcGtz (R87). -/
def condBcGtz (a : Word) : Bool := decide (0 < a.toInt)
def execBcGtz (ra : BitVec 7) (ta : BitVec 1) (n : BitVec 15) (s : State) : Res :=
  s.issue (formRR 0x17 4 ra ta) fun o s => s.branch o (condBcGtz (s.rx o ra)) n

/-- bcLez (R87). -/
def condBcLez (a : Word) : Bool := decide (a.toInt ≤ 0)
def execBcLez (ra : BitVec 7) (ta : BitVec 1) (n : BitVec 15) (s : State) : Res :=
  s.issue (formRR 0x17 5 ra ta) fun o s => s.branch o (condBcLez (s.rx o ra)) n

/-- bcFull (R87): reads the full/empty bit alone, and never blocks. -/
def execBcFull (ra : BitVec 7) (n : BitVec 15) (s : State) : Res :=
  s.issue { Form.plain 0x17 6 with srcs := [{ field := 1, reg := ra.toNat, trap := false, flag := true }] } fun o s =>
    s.branch o ((s.regAt o.c (o.entry ra)).full) n

/-- bcEmpty (R87): reads the full/empty bit alone, and never blocks. -/
def execBcEmpty (ra : BitVec 7) (n : BitVec 15) (s : State) : Res :=
  s.issue { Form.plain 0x17 7 with srcs := [{ field := 1, reg := ra.toNat, trap := false, flag := true }] } fun o s =>
    s.branch o (!(s.regAt o.c (o.entry ra)).full) n

/-- J (R88). -/
def execJ (n : BitVec 26) (s : State) : Res :=
  s.issue (Form.plain 0x18 0) fun o s => s.flyTo o [] (dispTarget o.pc n) .jump 0 []

/-- CALL (R88). -/
def execCall (n : BitVec 26) (s : State) : Res :=
  s.issue (Form.plain 0x19 0) fun o s => s.flyTo o [.lk (o.pc + 4)] (dispTarget o.pc n) .call 0 []

/-- A transfer to a register's or lk's address, which must be aligned (R89). -/
def State.jumpTo (s : State) (o : Op) (target : Addr) (fx : List Effect) (x : Transfer) : State :=
  if target.toNat % 4 ≠ 0 then s.trapCode o 0x04 (target.setWidth 64) 0 else s.flyTo o fx target x 0 []

/-- JR (R89). -/
def execJr (ra : BitVec 7) (ta : BitVec 1) (s : State) : Res :=
  s.issue (formRR 0x1A 0 ra ta) fun o s => s.jumpTo o ((s.rx o ra).setWidth 48) [] .jump

/-- CALLR (R89). -/
def execCallr (ra : BitVec 7) (ta : BitVec 1) (s : State) : Res :=
  s.issue (formRR 0x1A 1 ra ta) fun o s => s.jumpTo o ((s.rx o ra).setWidth 48) [.lk (o.pc + 4)] .call

/-- RET (R89). -/
def execRet (s : State) : Res :=
  s.issue (Form.plain 0x1A 2) fun o s => s.jumpTo o o.t.lk [] .jump

/-- A thread's loop level (R38). -/
def Thread.level (t : Thread) (l : Nat) : Loop := if l = 0 then t.lp0 else t.lp1

/-- LOOP (R90). -/
def execLoop (ra : BitVec 7) (stop : BitVec 12) (level : BitVec 1) (s : State) : Res :=
  s.issue { Form.plain 0x1B level.toNat with srcs := [srcB 1 ra] } fun o s =>
    let a := s.rx o ra
    let old := o.t.level level.toNat
    let last := o.pc + stop.setWidth 48 * 4
    if a = 0 then s.flyTo o [.loop level.toNat { old with active := false }] (last + 4) .call 0 []
    else s.fly o [.loop level.toNat { start := o.pc + 4, stop := last, count := a, active := true }]

/-- FORK (R93): the push, or the inline call, is decided in the completion cycle. -/
def execFork (ra : BitVec 7) (ta : BitVec 1) (n : BitVec 15) (s : State) : Res :=
  s.issue (formRR 0x1C 0 ra ta) fun o s => s.fly o [.fork (dispTarget o.pc n) (s.rx o ra)]

/-- JOIN (R95). -/
def execJoin (ra : BitVec 7) (ta : BitVec 1) (s : State) : Res :=
  s.issue { formRR 0x1D 0 ra ta with store := true } fun o s => s.flyTo o [.join (s.rx o ra)] o.next .none 1 []

/-- ENDS (R96). -/
def execEnds (s : State) : Res := s.issue (Form.plain 0x1D 1) fun o s => s.fly o [.ends]

/-- Members of a mask. -/
def maskCores (m : BitVec 4) : List Nat := [0, 1, 2, 3].filter fun n => m.getLsbD n
/-- The thread in the same slot of a cluster's core that waits in COUPLE: its destination entry and mask (R97). -/
def State.coupleWaiter (s : State) (o : Op) (n : Nat) : Option (Nat × BitVec 4) :=
  let m := clusterOf o.c * 4 + n
  if m = o.c ∨ (s.core m).part ≠ some o.p then none
  else match s.thread? m o.sl with
    | some t => match t.state with
      | .blocked (.couple rd mask _ _) => some (rd, mask)
      | _ => none
    | none => none

/-- A waiting COUPLE completes 12 cycles after its outcome is decided (R97). -/
def State.coupleDecided (s : State) (m sl rd : Nat) (status : Word) (gang : List Effect) : State :=
  let s := s.modThread m sl fun t =>
    let sig := match t.state with | .blocked (.couple _ _ _ b) => b | _ => []
    { t with state := .inflight { due := s.cycle + lat12, least := s.cycle + lat12, order := s.order, pair := none, sig := sig, major := 0x1E,
                                  store := false, ends := false, fx := .reg rd (widen status) :: gang, next := t.pc + 4,
                                  xfer := .none, kind := 0, posts := [], emptied := [], wasFull := [], checked := false } }
  { s with order := s.order + 1 }

/-- The rendezvous of a COUPLE that has issued: a mismatch with every waiter that either mask concerns, a gang, or the
wait (R97). Where it completes a rendezvous of its mask while a waiter outside the mask names the issuer's core, MASK_MISMATCH prevails
over COUPLED: a DESIGN CHOICE (log 96). -/
def State.couple (s : State) (o : Op) (rd : Nat) (m : BitVec 4) : State :=
  let s := (s.tookTurn o.c o.sl).blockOn o (.couple rd m s.cycle o.sig)
  let waits := [0, 1, 2, 3].filterMap fun n => (s.coupleWaiter o n).map fun w => (n, w)
  let other := waits.filter fun w => w.2.2 != m && (m.getLsbD w.1 || w.2.2.getLsbD (o.c % 4))
  if !other.isEmpty then
    (other.foldl (fun s w => s.coupleDecided (clusterOf o.c * 4 + w.1) o.sl w.2.1 2 []) s).coupleDecided o.c o.sl rd 2 []
  else if (maskCores m).all fun n => n == o.c % 4 || waits.any fun w => w.1 == n && w.2.2 == m then
    let s := waits.foldl (fun s w =>
      if m.getLsbD w.1 then s.coupleDecided (clusterOf o.c * 4 + w.1) o.sl w.2.1 0 [.gang m] else s) s
    s.coupleDecided o.c o.sl rd 0 [.gang m]
  else s

/-- COUPLE (R97). Where BAD_MASK and ALREADY_COUPLED both hold, it gives BAD_MASK: a DESIGN CHOICE (log 96). -/
def execCouple (rd ra : BitVec 7) (ta : BitVec 1) (s : State) : Res :=
  s.issue { formRR 0x1E 0 ra ta with dsts := [(0, rd.toNat)] } fun o s =>
    let a := s.rx o ra
    let m : BitVec 4 := a.setWidth 4
    if a.toNat ≥ 16 ∨ !m.getLsbD (o.c % 4) ∨ (maskCores m).length < 2 then s.fly o [.reg (o.entry rd) 1]
    else if o.t.coupled then s.fly o [.reg (o.entry rd) 3]
    else s.couple o (o.entry rd) m

/-- SPLIT (R98). -/
def execSplit (s : State) : Res := s.issue (Form.plain 0x1E 1) fun o s => s.fly o [.split]

/-- GANGID (R99): sr.thread[38:32]. -/
def gangId (t : Thread) : Word :=
  BitVec.ofNat 64 ((if t.coupled then 64 else 0) + t.gangPos.toNat * 16 + t.gangMask.toNat)
def execGangid (rd : BitVec 7) (s : State) : Res :=
  s.issueValue (Form.plain 0x1E 2) rd fun o _ => widen (gangId o.t)

end Sys2Proof.Machine
end

