-- ==== Sys2Proof/Machine/Crypto.lean ====
section
/-! DEFINITION. The algorithms that R12 names and whose standards give them: SHA-512, HMAC-SHA-512, and ECDSA on P-521 (assumption 108). -/
namespace Sys2Proof.Machine

/-! ### SHA-512 -/

/-- Round constants and the initial state: fractions of cube and square roots of the first primes. -/
def shaK : List (BitVec 64) :=
  [0x428A2F98D728AE22, 0x7137449123EF65CD, 0xB5C0FBCFEC4D3B2F, 0xE9B5DBA58189DBBC, 0x3956C25BF348B538,
   0x59F111F1B605D019, 0x923F82A4AF194F9B, 0xAB1C5ED5DA6D8118, 0xD807AA98A3030242, 0x12835B0145706FBE,
   0x243185BE4EE4B28C, 0x550C7DC3D5FFB4E2, 0x72BE5D74F27B896F, 0x80DEB1FE3B1696B1, 0x9BDC06A725C71235,
   0xC19BF174CF692694, 0xE49B69C19EF14AD2, 0xEFBE4786384F25E3, 0x0FC19DC68B8CD5B5, 0x240CA1CC77AC9C65] ++
  [0x2DE92C6F592B0275, 0x4A7484AA6EA6E483, 0x5CB0A9DCBD41FBD4, 0x76F988DA831153B5, 0x983E5152EE66DFAB,
   0xA831C66D2DB43210, 0xB00327C898FB213F, 0xBF597FC7BEEF0EE4, 0xC6E00BF33DA88FC2, 0xD5A79147930AA725,
   0x06CA6351E003826F, 0x142929670A0E6E70, 0x27B70A8546D22FFC, 0x2E1B21385C26C926, 0x4D2C6DFC5AC42AED,
   0x53380D139D95B3DF, 0x650A73548BAF63DE, 0x766A0ABB3C77B2A8, 0x81C2C92E47EDAEE6, 0x92722C851482353B] ++
  [0xA2BFE8A14CF10364, 0xA81A664BBC423001, 0xC24B8B70D0F89791, 0xC76C51A30654BE30, 0xD192E819D6EF5218,
   0xD69906245565A910, 0xF40E35855771202A, 0x106AA07032BBD1B8, 0x19A4C116B8D2D0C8, 0x1E376C085141AB53,
   0x2748774CDF8EEB99, 0x34B0BCB5E19B48A8, 0x391C0CB3C5C95A63, 0x4ED8AA4AE3418ACB, 0x5B9CCA4F7763E373,
   0x682E6FF3D6B2B8A3, 0x748F82EE5DEFB2FC, 0x78A5636F43172F60, 0x84C87814A1F0AB72, 0x8CC702081A6439EC] ++
  [0x90BEFFFA23631E28, 0xA4506CEBDE82BDE9, 0xBEF9A3F7B2C67915, 0xC67178F2E372532B, 0xCA273ECEEA26619C,
   0xD186B8C721C0C207, 0xEADA7DD6CDE0EB1E, 0xF57D4F7FEE6ED178, 0x06F067AA72176FBA, 0x0A637DC5A2C898A6,
   0x113F9804BEF90DAE, 0x1B710B35131C471B, 0x28DB77F523047D84, 0x32CAAB7B40C72493, 0x3C9EBE0A15C9BEBC,
   0x431D67C49C100D4C, 0x4CC5D4BECB3E42B6, 0x597F299CFC657E2A, 0x5FCB6FAB3AD6FAEC, 0x6C44198C4A475817]
def shaInit : List (BitVec 64) :=
  [0x6A09E667F3BCC908, 0xBB67AE8584CAA73B, 0x3C6EF372FE94F82B, 0xA54FF53A5F1D36F1,
   0x510E527FADE682D1, 0x9B05688C2B3E6C1F, 0x1F83D9ABFB41BD6B, 0x5BE0CD19137E2179]

/-- The number that big-endian bytes spell, and the low n bytes of a number, most significant first. -/
def bigNat (l : List Byte) : Nat := l.foldl (fun n b => n * 256 + b.toNat) 0
def bigBytes (n x : Nat) : List Byte := (natBytes n x).reverse

/-- The message schedule from its last 16 words, the newest first. -/
def shaSchedule : Nat → List (BitVec 64) → List (BitVec 64)
  | 0, l => l
  | n + 1, l =>
    let w (i : Nat) : BitVec 64 := l.getD (i - 1) 0
    let s0 := (w 15).rotateRight 1 ^^^ (w 15).rotateRight 8 ^^^ (w 15) >>> 7
    let s1 := (w 2).rotateRight 19 ^^^ (w 2).rotateRight 61 ^^^ (w 2) >>> 6
    shaSchedule n ((w 16 + s0 + w 7 + s1) :: l)

/-- One round over the working variables a to h. -/
def shaRound (v : List (BitVec 64)) (kw : BitVec 64 × BitVec 64) : List (BitVec 64) :=
  match v with
  | [a, b, c, d, e, f, g, h] =>
    let t1 := h + (e.rotateRight 14 ^^^ e.rotateRight 18 ^^^ e.rotateRight 41) + (e &&& f ^^^ ~~~e &&& g) + kw.1 + kw.2
    let t2 := (a.rotateRight 28 ^^^ a.rotateRight 34 ^^^ a.rotateRight 39) + (a &&& b ^^^ a &&& c ^^^ b &&& c)
    [t1 + t2, a, b, c, d + t1, e, f, g]
  | v => v

/-- One block of 128 bytes. -/
def shaBlock (h : List (BitVec 64)) (b : List Byte) : List (BitVec 64) :=
  let words := (chunks 8 b).map fun w => BitVec.ofNat 64 (bigNat w)
  let ws := (shaSchedule 64 words.reverse).reverse
  List.zipWith (· + ·) h ((shaK.zip ws).foldl shaRound h)

/-- The padding: a one bit, zeros, and the length in bits. -/
def shaPad (n : Nat) : List Byte := 0x80 :: List.replicate ((239 - n % 128) % 128) 0 ++ bigBytes 16 (8 * n)

/-- SHA-512: the 64 bytes of the digest. -/
def sha512 (m : List Byte) : List Byte :=
  ((chunks 128 (m ++ shaPad m.length)).foldl shaBlock shaInit).flatMap fun w => bigBytes 8 w.toNat

/-- HMAC-SHA-512 under a key of at most 128 bytes. -/
def hmac512 (key m : List Byte) : List Byte :=
  let k := key ++ List.replicate (128 - key.length) 0
  sha512 (k.map (· ^^^ 0x5C) ++ sha512 (k.map (· ^^^ 0x36) ++ m))

/-! ### ECDSA on P-521 -/

/-- The field's prime, the curve's coefficient b, the group's order, and its generator. -/
def ecPrime : Nat := 2 ^ 521 - 1
def ecB : Nat := 0x51953EB9618E1C9A1F929A21A0B68540EEA2DA725B99B315F3B8B489918EF109E156193951EC7E937B1652C0BD3BB1BF073573DF883D2C34F1EF451FD46B503F00
def ecOrder : Nat := 0x1FFFFFFFFFFFFFFFFFFFFFFFFFFFFFFFFFFFFFFFFFFFFFFFFFFFFFFFFFFFFFFFFFA51868783BF2F966B7FCC0148F709A5D03BB5C9B8899C47AEBB6FB71E91386409
def ecBase : Nat × Nat :=
  (0xC6858E06B70404E9CD9E3ECB662395B4429C648139053FB521F828AF606B4D3DBAA14B5E77EFE75928FE1DC127A2FFA8DE3348B3C1856A429BF97E7E31C2E5BD66,
   0x11839296A789A3BC0045C8A5FB42C7D1BD998F54449579B446817AFBD17273E662C97EE72995EF42640C550B9013FAD0761353C7086A272C24088BE94769FD16650)

/-- A power modulo m, by the exponent's bits. -/
def powMod (m : Nat) : Nat → Nat → Nat → Nat
  | 0, _, _ => 1 % m
  | fuel + 1, b, e =>
    let r := powMod m fuel (b * b % m) (e / 2)
    if e % 2 = 1 then r * b % m else r
/-- The inverse modulo a prime. -/
def invMod (m a : Nat) : Nat := powMod m 521 (a % m) (m - 2)

/-- A point of the curve; none is the point at infinity. -/
abbrev Point := Option (Nat × Nat)
/-- The sum of two points. -/
def ecAdd : Point → Point → Point
  | none, q => q
  | p, none => p
  | some (x1, y1), some (x2, y2) =>
    let p := ecPrime
    if x1 = x2 ∧ (y1 + y2) % p = 0 then none
    else
      let m := if x1 = x2 then (3 * x1 * x1 + (p - 3)) * invMod p (2 * y1) % p else (y2 + (p - y1)) * invMod p (x2 + (p - x1)) % p
      let x := (m * m + (p - x1) + (p - x2)) % p
      some (x, (m * (x1 + (p - x)) + (p - y1)) % p)
/-- A multiple of a point, by the bits of the factor. -/
def ecMul : Nat → Nat → Point → Point
  | 0, _, _ => none
  | fuel + 1, k, q =>
    let r := ecMul fuel (k / 2) (ecAdd q q)
    if k % 2 = 1 then ecAdd r q else r
/-- A pair of numbers is a point of the curve. -/
def onCurve (q : Nat × Nat) : Bool :=
  decide (q.1 < ecPrime) && decide (q.2 < ecPrime) && (q.2 * q.2) % ecPrime == (q.1 * q.1 * q.1 + (ecPrime - 3) * q.1 + ecB) % ecPrime

/-- A signature, r then s, each 66 bytes big-endian, over a message hashed with SHA-512 verifies under a public key (R12, R358). -/
def ecVerify (key : Nat × Nat) (m sig : List Byte) : Bool :=
  let r := bigNat (sig.take 66)
  let t := bigNat ((sig.drop 66).take 66)
  if !onCurve key || r == 0 || t == 0 || decide (ecOrder ≤ r) || decide (ecOrder ≤ t) then false
  else
    let w := invMod ecOrder t
    let u := ecMul 521 (bigNat (sha512 m) * w % ecOrder) (some ecBase)
    match ecAdd u (ecMul 521 (r * w % ecOrder) (some key)) with
    | some (x, _) => x % ecOrder == r
    | none => false
/-- The signature of a message with a secret key and a secret number of its own. -/
def ecSign (d k : Nat) (m : List Byte) : List Byte :=
  let r := match ecMul 521 k (some ecBase) with | some (x, _) => x % ecOrder | none => 0
  bigBytes 66 r ++ bigBytes 66 (invMod ecOrder k * (bigNat (sha512 m) + r * d) % ecOrder)

/-! ### The keys of the device (R12, R361, R370) -/

/-- An operator's signature over a message verifies under a key index (R12, R361). -/
def operatorVerifies (key : Nat) (m sig : List Byte) : Bool := ecVerify (Config.operatorKey key) m sig
/-- The device identity key signs, and verifies (R372, R374, R377). -/
def deviceSigns (m : List Byte) : List Byte := ecSign Config.deviceKey (Config.signNonce m) m
def deviceVerifies (m sig : List Byte) : Bool :=
  match ecMul 521 Config.deviceKey (some ecBase) with
  | some q => ecVerify q m sig
  | none => false
/-- The 64 bytes that a key slot holds: the data key and the integrity key (R370; assumption 109). -/
def partitionKey (draw : Nat) (serial : BitVec 128) (slot admissions : Nat) : List Byte :=
  hmac512 (Config.deviceRoot draw) (natBytes 16 serial.toNat ++ natBytes 1 Config.deviceId.toNat ++ natBytes 1 slot ++ natBytes 8 admissions)

end Sys2Proof.Machine
end

