-- ==== Sys2Proof/Machine/Port.lean ====
section
/-! DEFINITION. The sending side of a Rypel Link port: counters, the key switch-over, the replay buffer, and handing a
message to the link toward a device (R349 to R354). -/
namespace Sys2Proof.Machine

/-- The port retrains: both key slots are discarded, and an agreed next key is not used (R352, R354). -/
def Port.retrain (q : Port) : Port :=
  { q with state := 1, switching := false, rxOpen := (false, false), rxCtr := (none, none), rxNew := none,
           retrains := min 255 (q.retrains + 1), replay := q.replay.map fun f => { f with fails := 0 } }

/-- CTR at which the next key is agreed, and the last value of a key (R353). -/
def switchAt : Nat := 2 ^ 32 - 2 ^ 16
def ctrLast : Nat := 2 ^ 32 - 1

/-- A flit's header, which the tag covers and which is not encrypted (R349, R350). -/
def flitHeader (ctr seq ack : Nat) (ks : Bool) (reserved : BitVec 3) (kind : BitVec 4) : BitVec 64 :=
  BitVec.ofNat 64 (ctr % 2 ^ 32 * 2 ^ 32 + seq % 4096 * 2 ^ 20 + ack % 4096 * 2 ^ 8 + (if ks then 2 ^ 7 else 0) + reserved.toNat * 2 ^ 4 + kind.toNat)
/-- The IV of a flit under a key: port salt, key epoch and CTR, each little-endian (R350). -/
def flitIv (salt epoch : BitVec 32) (ctr : Nat) : BitVec 96 := BitVec.ofNat 32 ctr ++ epoch ++ salt
/-- The last SEQ that has been received in order, which every flit acknowledges (R349). -/
def Port.ack (q : Port) : Nat := (q.rxSeq + 4095) % 4096

/-- A flit of a type takes one CTR; a key that reaches its last value retrains the port (R349, R350, R353). -/
def Port.useCtr (q : Port) (kind : BitVec 4) (seq : Nat) : Port :=
  if ctrLast ≤ q.txCtr then q.retrain
  else { q with txCtr := q.txCtr + 1, lastFlit := flitHeader q.txCtr seq q.ack q.txSlot 0 kind, lastIv := flitIv q.txSalt q.txEpoch q.txCtr }
/-- The marker that is due is sent under the old key; every later flit uses the next one (R353, R354). -/
def Port.marker (q : Port) : Port :=
  if !q.switching then q
  else
    let q := q.useCtr 2 0
    if q.state = 2 then { q with switching := false, txSlot := !q.txSlot, txEpoch := q.txEpoch + 1, txSalt := q.txNext, txCtr := 0 } else q
/-- A flit of a type goes out: the marker first when it is due (R354). -/
def Port.emit (q : Port) (kind : BitVec 4) (seq : Nat) : Port :=
  let q := q.marker
  if q.state = 2 then q.useCtr kind seq else q

/-- Bytes of data that a message carries. -/
def linkSize : LinkMessage → Nat
  | .store _ _ _ bytes => bytes.length
  | .active _ _ _ _ _ _ _ => 64
  | .join _ _ _ _ _ _ _ input => input.length
  | .atomic _ _ _ _ _ _ => 16
  | .answer _ bytes => (bytes.getD []).length
  | .token _ _ _ bytes header => bytes.length + header.length
  | _ => 0
/-- The data flits of a message: as many payloads of 232 bytes as its data take, the last of which lets it through (R349; log 106). -/
def linkFlits (m : LinkMessage) : List LinkMessage := List.replicate ((linkSize m - 1) / 232) .empty ++ [m]

/-- Send a data flit, or keep it while the port is not up or 64 flits are unacknowledged (R351). -/
def Port.sendFlit (q : Port) (now : Nat) (m : LinkMessage) : Port :=
  if q.state = 2 ∧ q.replay.length < 64 ∧ q.outbox.isEmpty then
    let first := q.replay.isEmpty
    let q := q.emit 1 q.txSeq
    if q.state = 2 then
      { q with replay := q.replay ++ [{ seq := q.txSeq, message := m, fails := 0 }], txSeq := (q.txSeq + 1) % 4096,
               ackAt := if first then now else q.ackAt }
    else { q with outbox := [m] }
  else { q with outbox := q.outbox ++ [m] }
/-- Send a message (R349, R351). -/
def Port.send (q : Port) (now : Nat) (m : LinkMessage) : Port := (linkFlits m).foldl (fun q x => q.sendFlit now x) q
/-- Send what waits, as far as there is room. -/
def Port.pump (q : Port) (now : Nat) : Port :=
  q.outbox.foldl (fun q m => q.sendFlit now m) { q with outbox := [] }

/-- The flits up to an ACK have been received: they leave the replay buffer (R351). -/
def Port.ackTo (q : Port) (now ack : Nat) : Port :=
  match q.replay.findIdx? fun f => f.seq == ack with
  | some i => { q with replay := q.replay.drop (i + 1), ackAt := now }.pump now
  | none => q

/-- A flit of the replay buffer is sent again, with a fresh CTR; at its third failure the port retrains (R352). -/
def Port.resend (q : Port) (now seq : Nat) : Port :=
  match q.replay.find? fun f => f.seq == seq with
  | none => q
  | some f =>
    if f.fails + 1 ≥ 3 then q.retrain
    else
      let q := q.emit 1 seq
      { q with replay := q.replay.map fun g => if g.seq = seq then { g with fails := f.fails + 1 } else g
               ackAt := if q.replay.head?.map (·.seq) = some seq then now else q.ackAt }

/-! ### Sending to a device -/

/-- The lowest up port to a device, else the lowest that retrains (R352). -/
def State.portTo (s : State) (dev : Nat) : Option Nat :=
  match s.ports.find? fun e => e.2.state == 2 && e.2.leads dev with
  | some e => some e.1
  | none => (s.ports.find? fun e => e.2.leads dev).map Prod.fst
/-- A message is an active one. -/
def isActive : LinkMessage → Bool
  | .active _ _ _ _ _ _ _ => true
  | _ => false
/-- The port to a device for a message: active messages of a pair arrive in the order in which they were sent, so while some stand
unacknowledged at a port, the next goes behind them (R291). -/
def State.portFor (s : State) (dev : Nat) (m : LinkMessage) : Option Nat :=
  match (if isActive m then s.ports.find? fun e => e.2.leads dev && ((e.2.replay.any fun f => isActive f.message) || e.2.outbox.any isActive) else none) with
  | some e => some e.1
  | none => s.portTo dev
/-- Change a port. -/
def State.modPort (s : State) (n : Nat) (f : Port → Port) : State :=
  { s with ports := tabSet s.ports n (f (tabGet s.ports n Port.reset)) }
/-- Hand a message to the link toward a device; with no port that leads there nobody takes it (R352). -/
def State.sendLink (s : State) (dev : Nat) (m : LinkMessage) : State :=
  match s.portFor dev m with
  | none => s
  | some n => s.modPort n fun q => q.send s.timeQ m

end Sys2Proof.Machine
end

