-- ==== Sys2Proof/Machine/Paging.lean ====
section
/-! DEFINITION. The memory-management function: frames, page tables, and the requests MAP, UNMAP and ATTR
(R265 to R268, R272, R273, R276, R277, R280 to R284). -/
namespace Sys2Proof.Machine

/-! ### Frames and tables -/

/-- The first base from `cur` on, a multiple of `bytes`, at which a page overlaps none of the listed pages (rising). -/
def frameGo (bytes : Nat) : Nat → Tab Page → Nat
  | cur, [] => cur
  | cur, (b, g) :: rest =>
    if cur + bytes ≤ b then cur
    else frameGo bytes (max cur ((b + g.size + bytes - 1) / bytes * bytes)) rest

/-- A free naturally aligned frame of HBM that the firmware does not reserve (R265; assumption 10). -/
def State.freeFrame (s : State) (bytes : Nat) : Option Nat :=
  let a := frameGo bytes 0 s.pages
  if a + bytes ≤ Config.reservedBase then some a else none

/-- Table frames in use. -/
def State.tablesUsed (s : State) : List Nat := s.ctxs.flatMap fun e => e.2.tables
/-- The lowest free table frame of the reserved area (assumption 10). -/
def State.freeTable (s : State) : Nat :=
  let used := s.tablesUsed
  ((List.range (used.length + 1)).find? fun i => !used.contains (Config.reservedBase + 4096 * i)).elim 0
    fun i => Config.reservedBase + 4096 * i

/-- A table entry that names a table (R267). -/
def tableEntry (a : Nat) : Word := BitVec.ofNat 64 (a + 1)
/-- A leaf entry (R267). -/
def leafEntry (owner key frame attr prot size : Nat) (dev : Option Nat) : Word :=
  packFields 64 [(0, 2, 2), (2, 4, size), (6, 2, prot), (8, 2, attr), (12, 32, frame / 4096),
    (44, 8, match dev with | some d => d | none => frame / 2 ^ 44), (52, 6, key), (58, 5, owner),
    (63, 1, if dev.isSome then 1 else 0)]

/-- The table of a level that serves an address, made where it is missing (R266). -/
def State.tableFor (s : State) (p : Nat) (va target : Nat) : Nat → Nat → Nat → Nat × State
  | 0, _, table => (table, s)
  | fuel + 1, level, table =>
    if level = target then (table, s)
    else
      let slot := table + 8 * entryIndex level va
      let e := (tabGet s.ptes slot 0).toNat
      if natBits e 0 2 = 1 then s.tableFor p va target fuel (level + 1) (natBits e 12 40 * 4096)
      else
        let a := s.freeTable
        let s := { s with ptes := tabPut s.ptes slot (tableEntry a) 0 }
        State.tableFor (s.modCtx p fun x => { x with tables := a :: x.tables }) p va target fuel (level + 1) a

/-- Write the entries of one page: its leaf and its replicas (R268). -/
def State.writeLeaf (s : State) (p va size : Nat) (e : Word) : State :=
  match s.ctx? p with
  | none => s
  | some x =>
    let level := leafLevel size
    let r := s.tableFor p va level 4 0 x.root
    (List.range (pageBytes size / reach level)).foldl (fun s i =>
      { s with ptes := tabPut s.ptes (r.1 + 8 * (entryIndex level va + i)) e 0 }) r.2

/-- A leaf entry found in a context's tables: the virtual base of its reach, its place, its word. -/
structure LeafAt where
  va : Nat
  level : Nat
  slot : Nat
  word : Word
  deriving DecidableEq, Repr

/-- Page bytes, and the first virtual byte of the page of a leaf. -/
def LeafAt.bytes (l : LeafAt) : Nat := pageBytes (natBits l.word.toNat 2 4)
def LeafAt.pageVa (l : LeafAt) : Nat := l.va / l.bytes * l.bytes
def LeafAt.attr (l : LeafAt) : Nat := natBits l.word.toNat 8 2
def LeafAt.prot (l : LeafAt) : Nat := natBits l.word.toNat 6 2
def LeafAt.remote (l : LeafAt) : Bool := l.word.getLsbD 63
/-- Home of the page's first byte. -/
def LeafAt.base (l : LeafAt) : Nat :=
  let x := l.word.toNat
  if l.remote then remoteHome (natBits x 44 8) (natBits x 12 32 * 4096) else natBits x 12 40 * 4096

/-- Every leaf entry under a table. -/
def State.leavesGo (s : State) : Nat → Nat → Nat → Nat → List LeafAt
  | 0, _, _, _ => []
  | fuel + 1, level, table, va =>
    (s.ptes.filter fun e => decide (table ≤ e.1) && decide (e.1 < table + 4096)).flatMap fun e =>
      let va := va + (e.1 - table) / 8 * reach level
      match natBits e.2.toNat 0 2 with
      | 1 => s.leavesGo fuel (level + 1) (natBits e.2.toNat 12 40 * 4096) va
      | 2 => [{ va := va, level := level, slot := e.1, word := e.2 }]
      | _ => []
/-- The leaves of a context whose reach meets a virtual range. -/
def State.leavesIn (s : State) (x : Ctx) (va len : Nat) : List LeafAt :=
  (s.leavesGo 4 0 x.root 0).filter fun l => decide (l.va < va + len) && decide (va < l.va + reach l.level)

/-- Bytes of a range that leaves cover. -/
def covered (l : List LeafAt) (va len : Nat) : Nat :=
  l.foldl (fun n l => n + (min (va + len) (l.va + reach l.level) - max va l.va)) 0

/-- One leaf for each page: the leaves at the pages' first bytes. -/
def pagesOf (l : List LeafAt) : List LeafAt := l.filter fun l => l.va == l.pageVa

/-- What a page costs of the memory grant (R276). -/
def charge (attr bytes : Nat) : Nat := if attr = 2 then bytes * 9 / 8 else bytes

/-! ### The frames of a page -/

/-- Every line of a page reads zero in elision state 0, and none of it is lost or dirty (R281, R282). -/
def State.zeroFrames (s : State) (home bytes : Nat) : State :=
  let inside (l : Nat) : Bool := decide (home / 64 ≤ l) && decide (l < (home + bytes) / 64)
  { s with mem := tabClear s.mem home bytes, lines := tabClear s.lines (home / 64) (bytes / 64),
           dirty := s.dirty.filter fun l => !inside l
           cleared := tabSet s.cleared home (max bytes (tabGet s.cleared home 0))
           lost := s.lost.filter fun l => !(decide (home / 64 ≤ l) && decide (l < (home + bytes) / 64)) }

/-- Elision state of 64 bytes (R277). -/
def elisionOf (bs : List Byte) : Nat :=
  if bs.all (· == 0) then 0
  else if (chunks 8 bs).all fun d => d == bs.take 8 then 1 else 2

/-- Lines of a range that hold something or are tagged. -/
def State.touchedLines (s : State) (home bytes : Nat) : List Nat :=
  let inside (k : Nat) : Bool := decide (home / 64 ≤ k) && decide (k < (home + bytes) / 64)
  ((s.mem.map fun (e : Nat × Byte) => e.1 / 64) ++ s.lines.map Prod.fst).eraseDups.filter inside

/-- The tag of a line (R277): a line of frames that a context has held, and that nothing has written back since they were
cleared, holds zero. -/
def State.lineTag (s : State) (k : Nat) : LineTag :=
  match tabGet? s.lines k with
  | some t => t
  | none => if s.cleared.any fun e => decide (e.1 ≤ k * 64) && decide (k * 64 < e.1 + e.2) then { elision := 0, writes := 0 } else LineTag.reset

/-- A line is written back, and is dirty no more: its elision state is recomputed, and its write counter advances under ATTR 2 (R276, R277). -/
def State.writeBack (s : State) (k : Nat) : State :=
  let two := match s.pageAt (k * 64) with | some (_, g) => g.attr == 2 | none => false
  let t := s.lineTag k
  let t : LineTag :=
      { elision := elisionOf (s.homeBytes (k * 64) 64), writes := if two then (t.writes + 1) % 2 ^ 56 else t.writes }
  { s with lines := tabSet s.lines k t, dirty := s.dirty.filter (· != k) }

/-! ### Eviction schedules (R186) -/

/-- An entry of a schedule covers a line of local memory (R185). -/
def State.entryCovers (s : State) (p line : Nat) (x : BitVec 128) : Bool :=
  (List.range (fieldAt x 8 4)).any fun i => match s.translate p (fieldAt x 0 8 + 64 * i) with
    | some l => l.home == line * 64
    | none => false
/-- Entries of the schedule's current round with an action. -/
def Sched.entriesNow (k : Sched) (action : Nat) : List (BitVec 128) :=
  k.entries.filter fun x => fieldAt x 12 2 == k.current && fieldAt x 14 1 == action
/-- A line is kept in the current round of its partition's schedule: replacement passes it over. -/
def State.keptLine (s : State) (line : Nat) : Bool :=
  s.ctxs.any fun e => match e.2.sched with
    | some k => (k.entriesNow 0).any (s.entryCovers e.1 line)
    | none => false
/-- The entries of a round are applied once, when it begins, to the lines that the L2 holds: those that it demotes go to the front of
the replacement order, those that it evicts are written back where dirty, and leave (R186, R278). -/
def State.applySchedules (s : State) : State :=
  s.ctxs.foldl (fun s e => match e.2.sched with
    | some k =>
      if k.applied = some k.current then s
      else
        let first := s.l2.filter fun l => (k.entriesNow 1).any (s.entryCovers e.1 l)
        let gone := (s.l2 ++ s.dirty).filter fun l => (k.entriesNow 2).any (s.entryCovers e.1 l)
        let s := (gone.filter s.dirty.contains).eraseDups.foldl State.writeBack s
        let s := { s with l2 := (first ++ s.l2.filter fun l => !first.contains l).filter fun l => !gone.contains l }
        s.modCtx e.1 fun x => { x with sched := some { k with applied := some k.current } }
    | none => s) s

/-! ### Lines of the L2 (R278, R399) -/

/-- The partition whose access a line of local memory is, and the MiB of its share: 1 MiB common to all partitions of 0 MiB; none for
lines of no page of a context. -/
def State.shareOf (s : State) (line : Nat) : Option (Nat × Nat × Nat) :=
  match s.pageAt (line * 64) with
  | some (_, g) => (s.ctx? g.owner).map fun x => if x.l2 = 0 then (g.owner, 32, 1) else (g.owner, g.owner, x.l2)
  | none => none
/-- The set of a line: its share and its number there, of 16 sets in each of 64 slices for every MiB. -/
def State.l2Set (s : State) (line : Nat) : Option (Nat × Nat) :=
  (s.shareOf line).map fun h => (h.2.1, Config.l2Hash line % (1024 * h.2.2))
/-- The line that makes room in a full set: the first inserted that no schedule keeps; the first of all where every one is kept, which
is a DESIGN CHOICE (log 114). -/
def State.l2Victim (s : State) (set : List Nat) : Option Nat :=
  match set.find? fun l => !s.keptLine l with
  | some l => some l
  | none => set.head?
/-- An access of a line that the L2 does not hold fills it into its set; a full set of 16 ways loses a line first, which is written back
where it is dirty. The fill is counted (R278, R399). -/
def State.fillLine (s : State) (line : Nat) : State :=
  match s.shareOf line with
  | none => s
  | some h =>
    if s.l2.contains line then s
    else
      let set := s.l2.filter fun l => s.l2Set l == s.l2Set line
      let out := if set.length < 16 then none else s.l2Victim set
      let back := (out.toList.filter s.dirty.contains).foldl State.writeBack s
      { s with l2 := (s.l2.filter fun l => some l != out) ++ [line], lines := back.lines, dirty := back.dirty }.count h.1 10 1
/-- Lines that were read, and lines that were written, which are dirty, are filled. -/
def State.fillLines (s : State) (read : List Nat) : State := (read ++ s.dirty).foldl State.fillLine s

/-! ### MAP (R281) -/

/-- Take a frame of the grant for one page and map it; `code` marks a code page (R273). None when no frame is free. -/
def State.mapPage (s : State) (p va size attr prot : Nat) (code charged : Bool) : Option State :=
  match s.ctx? p with
  | none => none
  | some x =>
    match s.freeFrame (pageBytes size) with
    | none => none
    | some a =>
      let key := if attr = 0 then 0 else x.keySlot.getD 0
      let s := (s.zeroFrames a (pageBytes size)).writeLeaf p va size (leafEntry p key a attr prot size none)
      let page : Page := { size := pageBytes size, owner := p, attr := attr, key := key, code := code, count := 1, charged := charged, peer := none }
      let s := { s with pages := tabSet s.pages a page }
      some (if charged then s.modCtx p fun x => { x with used := x.used + charge attr (pageBytes size) } else s)

/-- Map n pages from a virtual base. -/
def State.mapPages (s : State) (p size attr prot : Nat) (code charged : Bool) : Nat → Nat → Option State
  | 0, _ => some s
  | n + 1, va =>
    match s.mapPage p va size attr prot code charged with
    | none => none
    | some s => s.mapPages p size attr prot code charged n (va + pageBytes size)

/-- A free frame of a device's memory for a page, from a place on, else from the lowest: one that no page mapped here already names
(R265, R281). -/
def State.peerFrame (s : State) (dev bytes start : Nat) : Option Nat :=
  let on := s.pages.filter fun e => decide (remoteHome dev 0 ≤ e.1) && decide (e.1 < remoteHome dev (2 ^ 52))
  let fits (cur : Nat) : Option Nat := if cur + bytes ≤ remoteHome dev Config.reservedBase then some (cur - remoteHome dev 0) else none
  match fits (frameGo bytes (remoteHome dev start) on) with
  | some a => some a
  | none => fits (frameGo bytes (remoteHome dev 0) on)
/-- Map frames of a peer, one per page: which of its free frames it gives, and whether it gives one, is a free value (R265, R281;
assumption 17). The tag that the peer's pier sets for them is kept here too (R272). -/
def State.mapRemote (s : State) (p size attr prot dev ask : Nat) : Nat → Nat → Option State
  | 0, _ => some s
  | n + 1, va =>
    let bytes := pageBytes size
    match s.ctx? p, (Config.peerFrames dev (ask * 2 ^ 32 + n)).bind fun f => s.peerFrame dev bytes (f % (Config.reservedBase / bytes) * bytes) with
    | some x, some a =>
      let key := if attr = 0 then 0 else x.keySlot.getD 0
      let s := (s.zeroFrames (remoteHome dev a) bytes).writeLeaf p va size (leafEntry p key a attr prot size (some dev))
      let page : Page := { size := bytes, owner := p, attr := attr, key := key, code := false, count := 1, charged := false, peer := none }
      let s := { s with pages := tabSet s.pages (remoteHome dev a) page }
      s.mapRemote p size attr prot dev ask n (va + bytes)
    | _, _ => none

/-- A message about a leaf's frames to the peer that holds them. -/
def State.tellPeer (s : State) (p : Nat) (l : LeafAt) (m : Nat → BitVec 128 → Nat → Nat → LinkMessage) : State :=
  match s.ctx? p with
  | some x => s.sendLink (natBits l.word.toNat 44 8) (m Config.deviceId.toNat x.serial (natBits l.word.toNat 12 32 * 4096) l.bytes)
  | none => s

/-- An alias: each page names the source's frames, and the frames' tag counts one leaf more, at the peer's pier too for remote
frames (R272, R281). -/
def State.mapAlias (s : State) (p size prot : Nat) (va src : Nat) (l : List LeafAt) : State :=
  l.foldl (fun s k =>
    let e := k.word.toNat
    let w := packFields 64 [(0, 2, 2), (2, 4, size), (6, 2, prot), (8, 56, e / 2 ^ 8)]
    let s := s.writeLeaf p (va + (k.va - src)) size w
    let s := if k.remote then s.tellPeer p k .addLeaf else s
    match tabGet? s.pages k.base with
    | some g => { s with pages := tabSet s.pages k.base { g with count := g.count + 1 } }
    | none => s) s

/-- The peer on another device answers a request for its frames and grants it: it holds the context, can be reached, and its own
answer, a free value, is no refusal (R280; assumption 17). -/
def State.peerGrants (s : State) (x : Ctx) (dev order : Nat) : Bool :=
  x.mayPeer dev && Config.peerHolds dev order && s.reachable dev

/-- ATTR refused for the context (R280, status 5). -/
def Ctx.modeRefused (x : Ctx) (attr : Nat) : Bool := decide (attr < x.mode) || (decide (0 < attr) && x.keySlot.isNone)

/-- MEM.MAP: plain 0, alias 1, remote 2; the status and the state (R280, R281). -/
def State.memMap (s : State) (p form prot attr order : Nat) (d a : Word) : Nat × State :=
  match s.ctx? p with
  | none => (1, s)
  | some x =>
    let va := natBits d.toNat 0 48
    let size := natBits d.toNat 48 4
    let n := if form = 1 then natBits a.toNat 48 16 else natBits a.toNat 0 32
    let dev := natBits a.toNat 32 8
    let src := natBits a.toNat 0 48
    let bytes := pageBytes size
    let len := n * bytes
    let old := if form = 1 then s.leavesIn x src len else []
    let wrongSize := old.any fun (l : LeafAt) => natBits l.word.toNat 2 4 != size
    let reserved := natBits d.toNat 52 12 ≠ 0 ∨ (form = 0 ∧ natBits a.toNat 32 32 ≠ 0) ∨ (form = 2 ∧ natBits a.toNat 40 24 ≠ 0)
    if reserved ∨ n = 0 ∨ size > 9 ∨ wrongSize then (1, s)
    else if va % bytes ≠ 0 ∨ va + len > windowBase ∨ (form = 1 ∧ (src % bytes ≠ 0 ∨ src + len > windowBase)) then (2, s)
    else if !(s.leavesIn x va len).isEmpty then (3, s)
    else if form = 0 ∧ x.used + charge attr len > x.memory then (4, s)
    else if x.modeRefused attr then (5, s)
    else if prot = 2 ∨ old.any fun (l : LeafAt) => l.prot == 2 then (6, s)
    else if form = 2 then
      if dev = Config.deviceId.toNat ∨ !s.peerGrants x dev order then (7, s)
      else match (s.sendLink dev (.map Config.deviceId.toNat x.serial size n attr)).mapRemote p size attr prot dev order n va with
        | some t => (0, t)
        | none => (7, s)
    else if form = 1 then
      if covered old src len ≠ len then (8, s)
      else if old.any fun (l : LeafAt) => l.attr != attr then (10, s)
      else (0, s.mapAlias p size prot va src (pagesOf old))
    else match s.mapPages p size attr prot false true n va with
      | some t => (0, t)
      | none => (4, s)

/-! ### UNMAP and ATTR (R282 to R284) -/

/-- The counter page and the sample ring (R398). -/
def counterVa : Nat := 0xFFEFFFF00000
def ringVa : Nat := 0xFFEFFFF40000
def touchesFixed (va len : Nat) : Bool :=
  (decide (va < counterVa + 0x1000) && decide (counterVa < va + len)) ||
  (decide (va < ringVa + 0x40000) && decide (ringVa < va + len))

/-- Entries of a buffer that a test picks, with those before them that write a byte of theirs, or to a scratchpad that they write
too (R286): what is committed and what stays, each oldest first. -/
def splitBuffer (hit : Store → Bool) : List Store → List Store × List Store
  | [] => ([], [])
  | e :: rest =>
    let r := splitBuffer hit rest
    if hit e || r.1.any (fun b => overlaps e.writes b.writes || e.pads.any fun k => b.pads.contains k) then (e :: r.1, r.2) else (r.1, e :: r.2)

/-- Step 2 of R284: in every thread of the context the buffer entries that meet the range are committed, and every access that
has passed its checks performs. -/
def State.settleRange (s : State) (p va len : Nat) : State :=
  let homes : List (Nat × Nat) := match s.ctx? p with
    | some x => (pagesOf (s.leavesIn x va len)).map fun l => (l.base, l.bytes)
    | none => []
  let hit (e : Store) : Bool := e.writes.any fun w => homes.any fun h => decide (h.1 ≤ w.1) && decide (w.1 < h.1 + h.2)
  let s := (s.pickThreads p fun t => t.buffer.any hit).foldl (fun s t =>
    match s.thread? t.1 t.2 with
    | some u =>
      let r := splitBuffer hit u.buffer
      (((s.setThread t.1 t.2 { u with buffer := r.1 }).commit t.1 t.2).modThread t.1 t.2 fun u => { u with buffer := r.2 })
    | none => s) s
  s.drainPart p

/-- A frame loses a leaf; with the last one its lines become zero and it returns to the grant; the peer that holds it is told
(R282). -/
def State.dropLeaf (s : State) (p : Nat) (l : LeafAt) : State :=
  let s := if l.remote then s.tellPeer p l fun d n b len => .invalidate d n b len true else s
  match tabGet? s.pages l.base with
    | none => s
    | some g =>
      if g.count > 1 then { s with pages := tabSet s.pages l.base { g with count := g.count - 1 } }
      else
        let s := { s.zeroFrames l.base g.size with pages := tabErase s.pages l.base }
        if g.charged then s.modCtx p fun x => { x with used := x.used - charge g.attr g.size } else s

/-- Bytes of a leaf lie outside a range: the range cuts the page (R280, status 9). -/
def LeafAt.cut (k : LeafAt) (va len : Nat) : Bool := decide (k.pageVa < va) || decide (va + len < k.pageVa + k.bytes)
/-- A peer that holds a frame of the leaves refuses a change, or cannot be reached (R280, status 7). -/
def State.peerRefuses (s : State) (x : Ctx) (order : Nat) (l : List LeafAt) : Bool :=
  l.any fun k => k.remote && !s.peerGrants x (natBits k.word.toNat 44 8) order
/-- Operands of MEM.UNMAP and MEM.ATTR: base, length, and whether they are well formed (R282). -/
def rangeBase (d : Word) : Nat := natBits d.toNat 0 48
def rangeLen (a : Word) : Nat := natBits a.toNat 0 40
def rangeBad (d a : Word) : Bool :=
  natBits d.toNat 48 16 != 0 || natBits a.toNat 40 24 != 0 || rangeLen a == 0 || rangeLen a % 4096 != 0

/-- MEM.UNMAP's status (R280, R282). -/
def State.unmapStatus (s : State) (x : Ctx) (order : Nat) (d a : Word) : Nat :=
  let va := rangeBase d
  let len := rangeLen a
  let l := s.leavesIn x va len
  if rangeBad d a then 1
  else if va % 4096 ≠ 0 ∨ va + len > windowBase then 2
  else if touchesFixed va len then 6
  else if s.peerRefuses x order l then 7
  else if covered l va len ≠ len then 8
  else if l.any fun (k : LeafAt) => k.cut va len then 9
  else 0
/-- MEM.UNMAP takes effect: the leaves of the range go, and the frames that lose their last (R282, R284 steps 4 and 5). -/
def State.memUnmap (s : State) (p va len : Nat) : State :=
  match s.ctx? p with
  | none => s
  | some x =>
    let l := s.leavesIn x va len
    let s := l.foldl (fun s k => { s with ptes := tabErase s.ptes k.slot }) s
    (pagesOf l).foldl (fun s k => s.dropLeaf p k) s

/-- Frames take a new ATTR: the tag, the charge, and every line rewritten (R276, R277, R283). -/
def State.retagAt (s : State) (p attr key base : Nat) : State :=
  match tabGet? s.pages base with
    | none => s
    | some g =>
      if g.attr = attr then s
      else
        let s := { s with pages := tabSet s.pages base { g with attr := attr, key := key } }
        let s := (s.touchedLines base g.size).foldl State.writeBack s
        if g.charged then s.modCtx p fun x => { x with used := x.used + charge attr g.size - charge g.attr g.size } else s

/-- A page's frames take a new ATTR; those of a peer at their own pier (R272, R283, R284). -/
def State.retag (s : State) (p attr key : Nat) (l : LeafAt) : State :=
  let s := if l.remote then s.tellPeer p l fun d n b len => .retag d n b len attr else s
  s.retagAt p attr key l.base

/-- What a change of ATTR adds to the grant's use: each frame once, however many leaves name it. -/
def State.attrCost (s : State) (attr : Nat) (l : List LeafAt) : Nat :=
  ((pagesOf l).map LeafAt.base).eraseDups.foldl (fun n b =>
    match tabGet? s.pages b with
      | some g => if g.charged then n + (charge attr g.size - charge g.attr g.size) else n
      | none => n) 0

/-- MEM.ATTR's status (R280, R283). -/
def State.attrStatus (s : State) (x : Ctx) (prot attr order : Nat) (d a : Word) : Nat :=
  let va := rangeBase d
  let len := rangeLen a
  let l := s.leavesIn x va len
  if rangeBad d a then 1
  else if va % 4096 ≠ 0 ∨ va + len > windowBase then 2
  else if x.used + s.attrCost attr l > x.memory then 4
  else if x.modeRefused attr then 5
  else if prot = 2 ∨ touchesFixed va len ∨ l.any fun (k : LeafAt) => k.prot == 2 then 6
  else if s.peerRefuses x order l then 7
  else if covered l va len ≠ len then 8
  else if l.any fun (k : LeafAt) => k.cut va len then 9
  else 0
/-- MEM.ATTR takes effect: every leaf of the range is rewritten, and the frames whose ATTR changes (R283, R284). -/
def State.memAttr (s : State) (p prot attr va len : Nat) : State :=
  match s.ctx? p with
  | none => s
  | some x =>
    let l := s.leavesIn x va len
    let key := if attr = 0 then 0 else x.keySlot.getD 0
    let s := l.foldl (fun s k =>
      let e := k.word.toNat
      { s with ptes := tabSet s.ptes k.slot (packFields 64 [(0, 6, e), (6, 2, prot), (8, 2, attr), (10, 42, e / 2 ^ 10),
          (52, 6, key), (58, 6, e / 2 ^ 58)]) }) s
    (pagesOf l).foldl (fun s k => s.retag p attr key k) s

/-- A request waits while a started engine command of the context has a range in the range, locked or on another device (R284,
step 3), and while an earlier request of the context is being served (R280). -/
def State.rangeBusy (s : State) (p va len : Nat) : Bool :=
  (s.locks.any fun e => e.2.part == p && decide (e.2.first * 64 < va + len) && decide (va < (e.2.last + 1) * 64)) ||
  s.active.any fun e => e.2.entry.part == p && e.2.ranges.any fun r => decide (r.1 < va + len) && decide (va ≤ r.2)
def Effect.maps : Effect → Bool
  | .memMap _ _ _ _ _ _ => true
  | .memUnmap _ _ _ => true
  | .memAttr _ _ _ _ _ => true
  | .memUnmapGo _ _ _ => true
  | .memAttrGo _ _ _ _ _ => true
  | _ => false
/-- Ranges whose unmapping or change goes on (R284). -/
def Effect.range : Effect → Option (Nat × Nat)
  | .memUnmapGo _ va len => some (va, len)
  | .memAttrGo _ _ _ va len => some (va, len)
  | _ => none
/-- An access to a range whose request goes on keeps its thread in flight until that is done (R284). -/
def State.rangeHeld (s : State) (p : Nat) (vas : List Nat) (size : Nat) : Bool :=
  !(s.pickThreads p fun t => match t.state with
    | .inflight f => f.fx.any fun e => match e.range with
      | some (lo, len) => vas.any fun a => decide (a < lo + len) && decide (lo < a + size)
      | none => false
    | _ => false).isEmpty
def State.mapsBefore (s : State) (p order : Nat) : Bool :=
  !(s.pickThreads p fun t => match t.state with
    | .inflight f => decide (f.order < order) && f.fx.any Effect.maps
    | _ => false).isEmpty

/-! ### A context's space for the Keystone -/

/-- Remove every table and frame of a context (R378): its pages, those given to its peers with them, its tables and tags; frames
return zeroed. -/
def State.freeSpace (s : State) (p : Nat) : State :=
  match s.ctx? p with
  | none => s
  | some x =>
    let l := pagesOf (s.leavesGo 4 0 x.root 0)
    let s := l.foldl (fun s k => s.dropLeaf p k) s
    let given := s.pages.filter fun e => e.2.owner == p && e.2.peer.isSome
    let s := given.foldl (fun s e => { s.zeroFrames e.1 e.2.size with pages := tabErase s.pages e.1 }) s
    let s := x.tables.foldl (fun s a => { s with ptes := tabClear s.ptes a 4096 }) s
    s.modCtx p fun x => { x with tables := [], used := 0 }

end Sys2Proof.Machine
end

