-- ==== Sys2Proof/Machine/Observe.lean ====
section
/-! DEFINITION. The Sage: samples and the counter page (R148, R396 to R399). -/
namespace Sys2Proof.Machine

/-- State code of a slot in a sample (R397). -/
def State.slotCode (s : State) (c sl : Nat) : Nat :=
  match s.thread? c sl with
  | none => 0
  | some t =>
    match t.state with
    | .ready => if (s.core c).issued = s.cycle + 1 ∧ (s.core c).last = sl then 1 else 2
    | .inflight f =>
      if (s.core c).issued = s.cycle + 1 ∧ (s.core c).last = sl then 1
      else if 2 ≤ f.kind then 11
      else if f.kind = 1 ∧ f.least ≤ s.cycle then 4 else 3
    | .blocked w => match w with
      | .regs _ => 5
      | .entry _ => 6
      | .room _ => 6
      | .launchRoom _ => 6
      | .round _ _ => 6
      | .stream _ => 7
      | _ => 8
    | .parked _ => 9
    | .trapped _ => 10
    | .leaving _ _ => 0

/-- Write bytes of this device's own units at physical addresses. -/
def State.pokeBytes (s : State) (a : Nat) (bs : List Byte) : State :=
  s.applyWrites (((List.range bs.length).map fun i => a + i).zip bs)

/-- A sample of a slot, for the partition that holds the core (R396, R397). It enters the ring as the cycle ends. -/
def State.placeSample (s : State) (c sl kind code : Nat) (pc : Addr) (tag : Word) : State :=
  match (s.core c).part with
  | none => s
  | some p =>
    let r := natBytes 8 s.time ++ natBytes 6 pc.toNat ++ natBytes 2 c ++ natBytes 1 sl ++ natBytes 1 kind ++
      natBytes 1 code ++ natBytes 1 0 ++ natBytes 4 (s.wordAt p pc.toNat).toNat ++ natBytes 8 tag.toNat
    { s with samples := s.samples ++ [(p, c, r)] }
/-- A record enters the sample ring of a partition, and then the head is raised; at each multiple of 4,096 records the host is told
(R393, R398, R399). -/
def State.enterSample (s : State) (p : Nat) (r : List Byte) : State :=
  match s.ctx? p with
  | none => s
  | some x =>
    let n := tabGet x.counts 0 0
    let s := (s.pokeBytes (x.ring + 32 * (n % 8192)) r).pokeBytes x.counterPage (natBytes 8 (n + 1))
    let s := s.count p 0 1
    if (n + 1) % 4096 = 0 then s.signal (8 * p + 3) else s
/-- The samples of a nanosecond enter in the order of their cores (R395). -/
def State.enterSamples (s : State) : State :=
  (s.samples.mergeSort fun a b => decide (a.2.1 ≤ b.2.1)).foldl (fun s e => s.enterSample e.1 e.2.2) { s with samples := [] }

/-- SAMPLE: taken 64 cycles or more after the core's last accepted software sample, else dropped and counted (R148). -/
def State.softwareSample (s : State) (c sl : Nat) (pc : Addr) (tag : Word) : State :=
  let k := s.core c
  if k.softSample ≠ 0 ∧ s.cycle + 1 < k.softSample + 64 then s.countCore c 1 1
  else (s.modCore c fun k => { k with softSample := s.cycle + 1 }).placeSample c sl 1 1 pc tag

/-- The counts that the Sage brings up to date every microsecond (R399): energy, since the context's first update on each of its
cores, is a free value that never falls (assumption 14). -/
def State.updateCounters (s : State) (p : Nat) : State :=
  match s.ctx? p with
  | none => s
  | some x =>
    let old (i : Nat) : Nat := tabGet x.counts i 0
    let now := (s.coresOf p).map fun c => (c, Config.energy c s.estimates)
    let spent := now.foldl (fun n e => match tabGet? x.energyAt e.1 with | some b => n + (e.2 - b) | none => n) 0
    let counts := tabSet (tabSet x.counts 5 (old 5 + spent)) 13 s.time
    let s := { s.setCtx p { x with counts := counts, energyAt := now } with estimates := s.estimates + 1 }
    ((List.range 13).map (· + 1)).foldl (fun s i => s.pokeBytes (x.counterPage + 8 * i) (natBytes 8 (tabGet counts i 0))) s

end Sys2Proof.Machine
end

