-- ==== Sys2Proof/Machine/Queue.lean ====
section
/-! DEFINITION. Queue and event instructions, majors 0x38 to 0x3A and 0x3C (R129 to R137). -/
namespace Sys2Proof.Machine

/-- What a queue number means to a thread (R38, R129). -/
inductive QueueOf where
  /-- A command queue q0, q2, q4. -/
  | command
  /-- A completion queue q1, q3, q5; the trap queue; Keystone events. -/
  | completion
  | traps
  | events
  /-- A task channel bound as input or as output, with its key. -/
  | input (key : Nat)
  | output (key : Nat)
  | invalid
  deriving DecidableEq, Repr

/-- The queue that a number names for a thread (R129). -/
def Thread.queueOf (t : Thread) (q : Nat) : QueueOf :=
  if q = 0 ∨ q = 2 ∨ q = 4 then .command
  else if q = 1 ∨ q = 3 ∨ q = 5 then .completion
  else if q = 6 then .traps
  else if q = 7 then .events
  else if q < 16 then
    match tabGet? t.chans (q - 8) with
    | some b => if b.dir = 1 then .input (chanKey b.graph b.chan) else if b.dir = 2 then .output (chanKey b.graph b.chan) else .invalid
    | none => .invalid
  else .invalid

/-- Command queues, completion queues and counts of a core (R129, R130). -/
def Core.cmdsOf (k : Core) (q : Nat) : List CmdEntry := tabGet k.cmds q []
def Core.compsOf (k : Core) (q : Nat) : List Vec := tabGet k.comps q []
def Core.reservedOf (k : Core) (q : Nat) : Nat := tabGet k.reserved q 0
def Core.setCmds (k : Core) (q : Nat) (l : List CmdEntry) : Core := { k with cmds := tabPut k.cmds q l [] }
def Core.setComps (k : Core) (q : Nat) (l : List Vec) : Core := { k with comps := tabPut k.comps q l [] }
def Core.setReserved (k : Core) (q n : Nat) : Core := { k with reserved := tabPut k.reserved q n 0 }

/-- A channel of a partition's context (R297). -/
def State.chan? (s : State) (p key : Nat) : Option Chan := (s.ctx? p).bind fun x => tabGet? x.chans key
def State.setChan (s : State) (p key : Nat) (h : Chan) : State := s.modCtx p fun x => { x with chans := tabSet x.chans key h }

/-- Commands of a queue that have not started; those of q0 stand in the rewrite window or a formed group as well (R222). -/
def Core.waitingOn (k : Core) (q : Nat) : Nat :=
  (k.cmdsOf q).length +
    (if q = 0 then k.window.length + (match k.group with | some g => g.members.length | none => 0) else 0)

/-- Does a flight push to a command queue? -/
def Flight.pushes (f : Flight) (q : Nat) : Bool :=
  f.fx.any fun e => match e with | .qpush _ k _ _ => k == q | _ => false
/-- Pushes to a command queue of a core that have issued and not completed. -/
def State.pushesOf (s : State) (c q : Nat) : Nat :=
  (s.threadsOf c).countP fun e => match e.2.state with | .inflight f => f.pushes q | _ => false

/-- QPUSHes to a command queue that would issue now (R130, R133). -/
def State.cmdRoom (s : State) (c q : Nat) : Nat :=
  let k := s.core c
  Nat.min (16 - k.waitingOn q - s.pushesOf c q) (32 - (k.compsOf (q + 1)).length - k.reservedOf (q + 1))
/-- The message buffer takes one more entry of a channel, where the entry would go there (R173). -/
def State.chanOpen (s : State) (p : Nat) (h : Chan) : Bool := match s.ctx? p with | some x => x.takesEntry h | none => true
/-- Entries that a channel has room for; none while an end-of-stream token is held, or while the message buffer that takes them is
full (R130, R173, R297). -/
def State.chanRoom (s : State) (p key : Nat) : Nat :=
  match s.chan? p key with
  | some h => if h.held > 0 ∨ !s.chanOpen p h then 0 else h.room
  | none => 0
/-- An entry is sent to a channel. -/
def State.sendEntry (s : State) (p key : Nat) (h : Chan) (e : ChanEntry) : State :=
  match s.ctx? p with
  | some x => s.setChan p key (x.append h e)
  | none => s
/-- Room for a QPUSH. -/
def State.pushRoom (s : State) (c p : Nat) (t : Thread) (q : Nat) : Bool :=
  match t.queueOf q with
  | .command => decide (0 < s.cmdRoom c q)
  | .output key => decide (0 < s.chanRoom p key)
  | _ => true

/-- Something to pop from a queue (R132, R319). -/
def State.popReady (s : State) (c p : Nat) (t : Thread) (q : Nat) : Bool :=
  match t.queueOf q with
  | .completion => !((s.core c).compsOf q).isEmpty
  | .traps => !(s.core c).q6.isEmpty
  | .events => !(s.core c).q7.isEmpty
  | .input key => match s.chan? p key with
    | some h => !h.entries.isEmpty || (h.killed.isSome && h.held == 0)
    | none => false
  | _ => true

/-- QPUSH (R131). -/
def engineQueue (q : BitVec 5) : Bool := q == 0 || q == 2 || q == 4
/-- Engine code of a command queue (R6). -/
def engineCode (q : Nat) : Nat := q / 2 + 1
/-- Put the status word's halves into op6 and op7 (R131). -/
def withScales (opr : Vec) (w : Word) : Vec :=
  ((((w.extractLsb' 32 32).setWidth 64) : Word) ++ (((w.extractLsb' 0 32).setWidth 64) : Word) ++ opr.extractLsb' 0 384).setWidth 512
/-- QPUSH (R131). Its ws, held in fn, counts for the checker's stream as the function byte and, where the queue reads it, as
a read register after op: a DESIGN CHOICE, R64 does not say whether fn counts as a register field (log 96). -/
def formPush (q : BitVec 5) (wd wc : BitVec 7) (ws : BitVec 5) (tb : BitVec 1) : Form :=
  let eng := engineQueue q
  { Form.plain 0x38 ws.toNat with
    srcs := [srcT 2 wc tb] ++ (if eng then [{ field := 4, reg := wc.toNat + 1, trap := tb == 1#1, flag := false }] else []) ++
            (if eng && ws != 0 then [srcB 5 (ws.setWidth 7)] else [])
    dsts := [(1, wd.toNat)]
    clash := if wd = wc then some (wc.toNat + 512, wd.toNat + 256)
             else if eng ∧ wd.toNat = wc.toNat + 1 then some (wd.toNat + 1024, wd.toNat + 256) else none }
/-- QPUSH. A malformed command for a full engine queue raises its fault before room is looked for: a DESIGN CHOICE, the rule does not say
which comes first (R131; log 96). -/
def execQpush (q : BitVec 5) (rd wc : BitVec 7) (ws : BitVec 5) (tb : BitVec 1) (s : State) : Res :=
  s.issue (formPush q rd wc ws tb) fun o s =>
    let n := q.toNat
    match o.t.queueOf n with
    | .command =>
      let cmd : BitVec 256 := (s.rv o wc).setWidth 256
      let v := (s.regAt o.c (o.entry wc + 1)).val
      let opr := if ws = 0 then v else withScales v (s.rx o (ws.setWidth 7))
      if natBits cmd.toNat 248 8 ≠ engineCode n then s.trapOp o { trapAt o.pc 0x0F 1 0 with detail := 1 }
      else if natBits cmd.toNat 224 4 ≠ 0 then s.trapOp o { trapAt o.pc 0x0F 2 0 with detail := 2 }
      else if s.cmdRoom o.c n = 0 then s.blockOn o (.room n)
      else (s.modCore o.c fun k => k.setReserved (n + 1) (k.reservedOf (n + 1) + 1)).fly o [.qpush (o.entry rd) n cmd opr]
    | .output key =>
      if s.chanRoom o.p key = 0 then s.blockOn o (.room n) else s.fly o [.qpush (o.entry rd) n 0 (s.rv o wc)]
    | _ => s.trapCode o 0x0A (BitVec.ofNat 64 n) 0

/-- Status word of the status forms (R132). -/
def popStatus (kind left : Nat) : Word := BitVec.ofNat 64 (kind + left * 2 ^ 16)

/-- A pop, in its issue cycle (R132): what it removes, what arrives, and the order it carries. -/
structure Popped where
  s : State
  prod : Option Word → Producer
  kind : Nat
  left : Nat
  acq : Option Nat
  /-- The faulted completion record, and its status, under fn 2 and 3. -/
  fault : Option (Nat × Vec)

/-- Pop the head of a thread's queue. -/
def State.pop (s : State) (o : Op) (q : Nat) : Popped :=
  let value (v : Vec) : Option Word → Producer := fun w => .value v w
  match o.t.queueOf q with
  | .completion =>
    match (s.core o.c).compsOf q with
    | v :: rest =>
      { s := s.modCore o.c fun k => k.setComps q rest, prod := value v, kind := 0, left := rest.length, acq := some 5,
        fault := if fieldAt v 4 1 = 0 then none else some (fieldAt v 4 1, v) }
    | [] => { s := s, prod := value 0, kind := 0, left := 0, acq := none, fault := none }
  | .traps =>
    match (s.core o.c).q6 with
    | v :: rest => { s := s.modCore o.c fun k => { k with q6 := rest }, prod := value v, kind := 0, left := rest.length, acq := some 2, fault := none }
    | [] => { s := s, prod := value 0, kind := 0, left := 0, acq := none, fault := none }
  | .events =>
    match (s.core o.c).q7 with
    | v :: rest => { s := s.modCore o.c fun k => { k with q7 := rest }, prod := value v, kind := 0, left := rest.length, acq := some 5, fault := none }
    | [] => { s := s, prod := value 0, kind := 0, left := 0, acq := none, fault := none }
  | .input key =>
    match s.chan? o.p key with
    | some h =>
      match h.entries with
      | .data v :: rest => { s := s.setChan o.p key { h with entries := rest }, prod := value v, kind := 0, left := rest.length, acq := some 5, fault := none }
      | .token :: rest => { s := s.setChan o.p key { h with entries := rest }, prod := fun w => .token none w, kind := 0, left := rest.length, acq := some 5, fault := none }
      | .marker _ :: _ => { s := s, prod := value 0, kind := 1, left := h.entries.length, acq := none, fault := none }
      | .eos :: _ => { s := s, prod := value 0, kind := 2, left := h.entries.length, acq := none, fault := none }
      | [] => { s := s, prod := fun w => .token h.killed w, kind := 0, left := 0, acq := none, fault := none }
    | none => { s := s, prod := value 0, kind := 0, left := 0, acq := none, fault := none }
  | _ => { s := s, prod := value 0, kind := 0, left := 0, acq := none, fault := none }

/-- QPOP in its four forms (R132). -/
def popBody (q : Nat) (rd : BitVec 7) (ws : Option (BitVec 7)) (trap : Bool) (o : Op) (s : State) : State :=
  match o.t.queueOf q with
  | .command => s.trapCode o 0x0A (BitVec.ofNat 64 q) 0
  | .output _ => s.trapCode o 0x0A (BitVec.ofNat 64 q) 0
  | .invalid => s.trapCode o 0x0A (BitVec.ofNat 64 q) 0
  | _ =>
    if !s.popReady o.c o.p o.t q then s.blockOn o (.entry q)
    else
      let r := s.pop o q
      match (if trap then r.fault else none) with
      | some (code, v) =>
        s.trapOp o { code := code, detail := if code = 0x0F then fieldAt v 5 1 else 0, pc := o.pc,
                     info := scalarOf v, second := BitVec.ofNat 64 (fieldAt v 0x10 8), flags := 0x10 }
      | none =>
        let st := ws.map fun _ => popStatus r.kind r.left
        r.s.flyArrive o (o.entry rd) (ws.map o.entry) (r.prod st) r.acq []
def formPop (fn : Nat) (rd : BitVec 7) (ws : Option (BitVec 7)) : Form :=
  { Form.plain 0x39 fn with
    dsts := (1, rd.toNat) :: (match ws with | some w => [(2, w.toNat)] | none => [])
    clash := if ws = some rd then some (rd.toNat + 512, rd.toNat + 256) else none }
/-- QPOP wd, q. -/
def execQpop (q : BitVec 5) (rd : BitVec 7) (s : State) : Res :=
  s.issue (formPop 0 rd none) (popBody q.toNat rd none false)
/-- QPOP wd, ws, q. -/
def execQpopStatus (q : BitVec 5) (rd ws : BitVec 7) (s : State) : Res :=
  s.issue (formPop 1 rd (some ws)) (popBody q.toNat rd (some ws) false)
/-- QPOP.TRAP wd, q. -/
def execQpopTrap (q : BitVec 5) (rd : BitVec 7) (s : State) : Res :=
  s.issue (formPop 2 rd none) (popBody q.toNat rd none true)
/-- QPOP.TRAP wd, ws, q. -/
def execQpopTrapStatus (q : BitVec 5) (rd ws : BitVec 7) (s : State) : Res :=
  s.issue (formPop 3 rd (some ws)) (popBody q.toNat rd (some ws) true)

/-- The word of QTEST (R133, R319). -/
def State.queueWord (s : State) (c p : Nat) (t : Thread) (q : Nat) : Word :=
  let k := s.core c
  match t.queueOf q with
  | .command => BitVec.ofNat 64 (k.waitingOn q + s.cmdRoom c q * 2 ^ 16)
  | .completion => BitVec.ofNat 64 (k.compsOf q).length
  | .traps => BitVec.ofNat 64 k.q6.length
  | .events => BitVec.ofNat 64 k.q7.length
  | .output key => match s.chan? p key with
    | some h => BitVec.ofNat 64 (h.entries.length + s.chanRoom p key * 2 ^ 16)
    | none => 0
  | .input key => match s.chan? p key with
    | some h =>
      let kind := match h.entries with | .marker _ :: _ => 1 | .eos :: _ => 2 | _ => 0
      BitVec.ofNat 64 (h.entries.length + kind * 2 ^ 32 + if h.killed.isSome then 2 ^ 34 else 0)
    | none => 0
  | .invalid => 0
/-- QTEST (R133). -/
def execQtest (q : BitVec 5) (rd : BitVec 7) (s : State) : Res :=
  s.issue { Form.plain 0x3A 0 with dsts := [(1, rd.toNat)] } fun o s =>
    if o.t.queueOf q.toNat = .invalid then s.trapCode o 0x0A (BitVec.ofNat 64 q.toNat) 0
    else s.fly o [.qtest (o.entry rd) q.toNat]

/-- EVT.TERM (R137). -/
def execEvtTerm (n : BitVec 5) (ra : BitVec 7) (ta : BitVec 1) (s : State) : Res :=
  s.issue (formRR 0x3C 0 ra ta) fun o s => s.fly o [.evtTerm n.toNat (s.rx o ra)]
/-- EVT.CNT (R137). -/
def execEvtCnt (n : BitVec 5) (ra rb : BitVec 7) (ta tb : BitVec 1) (s : State) : Res :=
  s.issue (formRRR 0x3C 1 ra rb ta tb) fun o s => s.fly o [.evtCnt n.toNat (s.rx o ra) (s.rx o rb)]
/-- EVT.ARM (R137). -/
def execEvtArm (n : BitVec 5) (ra : BitVec 7) (ta : BitVec 1) (s : State) : Res :=
  s.issue (formRR 0x3C 2 ra ta) fun o s => s.fly o [.evtArm n.toNat (s.rx o ra)]
/-- EVT.READ (R137). -/
def execEvtRead (n : BitVec 5) (rd : BitVec 7) (s : State) : Res :=
  s.issue { Form.plain 0x3C 3 with dsts := [(1, rd.toNat)] } fun o s => s.fly o [.evtRead (o.entry rd) n.toNat]
/-- EVT.WAIT (R137): the wait begins; the term fires for it in the crossbar's order (R136). -/
def execEvtWait (n : BitVec 5) (s : State) : Res :=
  s.issue (Form.plain 0x3C 4) fun o s => (s.tookTurn o.c o.sl).blockOn o (.term n.toNat)

end Sys2Proof.Machine
end

