-- ==== Sys2Proof/Machine/Admit.lean ====
section
/-! DEFINITION. The Keystone's grants: trusted time, handles, capacity, cores, code images, and the building of a
context (R358 to R370, R383, R398). -/
namespace Sys2Proof.Machine

/-! ### Fields of byte records -/

/-- Bytes off to off + n - 1 as a number, and as bytes (R10). -/
def byteNat (b : List Byte) (off n : Nat) : Nat := bytesNat ((b.drop off).take n)
def bytePart (b : List Byte) (off n : Nat) : List Byte := (b.drop off).take n
/-- The bytes of a list of places are zero: offset and length. -/
def zeroAt (b : List Byte) (l : List (Nat × Nat)) : Bool := l.all fun z => byteNat b z.1 z.2 == 0

/-! ### Trusted time (R365) -/

/-- Trusted time in ns. -/
def State.trustedTime (s : State) : Nat := max s.time s.keystone.high
/-- A time that a context awaits counts as reached (R365). -/
def State.reached (s : State) (t : Nat) : Bool :=
  if s.keystone.trusted then decide (t ≤ s.trustedTime)
  else decide (t * 1000000 ≤ s.time * 1000000 + 50 * (s.time - s.keystone.beaconAt))

/-! ### Events of q7 (R379, R380, R393) -/

/-- A Keystone event record: kind, flags, handle, termination code, serial, and the doubleword at 0x20. -/
def State.eventRecord (s : State) (kind flags handle code : Nat) (serial : BitVec 128) (word : Nat) : Vec :=
  sealVec (packBytes 512 [(0x00, 1, kind), (0x01, 1, flags), (0x02, 2, handle), (0x04, 2, code), (0x08, 8, s.trustedTime),
    (0x10, 16, serial.toNat), (0x20, 8, word)])

/-- The context of an identity still stands: partition, core and order of admission (R380). -/
def State.presenterLives (s : State) (who : Nat × Nat × Nat) : Bool :=
  match s.ctx? who.1 with
  | some x => x.age == who.2.2
  | none => false
/-- A record for a presenter or a token's issuer: q7 of its core while that context lives (R380). -/
def State.toPresenter (s : State) (who : Option (Nat × Nat × Nat)) (v : Vec) : State :=
  match who with
  | none => s
  | some w =>
    if s.presenterLives w then
      s.sendRecord { source := keystoneSource, body := v, logged := false, outlet := .core w.1 w.2.1 }
    else s
/-- An event of a presenter or issuer is signalled on its vector 8p when it is delivered (R393; log 44). -/
def State.signalPresenter (s : State) (who : Option (Nat × Nat × Nat)) : State :=
  match who with
  | some w => if s.presenterLives w then s.signal (8 * w.1) else s
  | none => s
/-- Kinds 0x04 to 0x07 go to the context's own core, and its vector 8p is signalled (R380, R393). -/
def State.ownEvent (s : State) (p kind word : Nat) : State :=
  match s.ctx? p with
  | some x =>
    (s.sendRecord { source := keystoneSource, body := s.eventRecord kind 0 x.handle 0 x.serial word, logged := false, outlet := .ctx p }).signal (8 * p)
  | none => s

/-- The trust state changes, and every context is told (R365, R380). -/
def State.setTrust (s : State) (b : Bool) : State :=
  if s.keystone.trusted = b then s
  else
    let s := { s with keystone := { s.keystone with trusted := b } }
    (s.ctxs.map Prod.fst).foldl (fun s p => s.ownEvent p (if b then 5 else 4) 0) s

/-- H is raised to trusted time and written to MRAM (R365). -/
def State.raiseHigh (s : State) : State :=
  { s with keystone := { s.keystone with high := s.trustedTime, highAt := s.timeQ } }

/-- The operator's signature over the first n bytes verifies under a key index (R12). -/
def operatorOk (key : Nat) (b : List Byte) (n : Nat) : Bool := operatorVerifies key (b.take n) (bytePart b n 132)

/-- A time beacon: its status, and the state when it is accepted (R364, R365). -/
def State.beacon (s : State) (b : List Byte) : Nat × State :=
  let key := byteNat b 4 1
  let t := byteNat b 0x10 8
  if b.length < 256 ∨ byteNat b 0 4 ≠ 0x5442434E ∨ !zeroAt b [(5, 1), (0x18, 100)] then (0x0001, s)
  else if !Config.provisioned key then (0x0002, s)
  else if !operatorOk key b 0x7C then (0x0003, s)
  else if byteNat b 6 2 ≠ Config.podId.toNat then (0x0006, s)
  else if byteNat b 8 8 ≤ s.keystone.beacon ∨ t < s.keystone.high then (0x000F, s)
  else
    let k := { s.keystone with beacon := byteNat b 8 8, beaconAt := s.time }
    let s := ({ s with keystone := k }).raiseHigh
    (0, s.setTrust (decide (t ≤ s.time + 1000000000) && decide (s.time ≤ t + 1000000000)))

/-! ### Handles (R371, R376, R383) -/

/-- 60 s in ns. -/
def sixtySeconds : Nat := 60000000000

/-- The lowest number from n on that names no live handle and none that ended in the last 60 s (R383). -/
def State.freeHandle (s : State) : Nat → Nat → Nat
  | 0, n => n
  | fuel + 1, n =>
    match tabGet? s.keystone.handles n with
    | some h => if h.state = 3 ∧ h.endedAt + sixtySeconds ≤ s.trustedTime then n else s.freeHandle fuel (n + 1)
    | none => n
def State.newHandle (s : State) : Nat := s.freeHandle 65536 1
def State.setHandle (s : State) (n : Nat) (h : Handle) : State :=
  { s with keystone := { s.keystone with handles := tabSet s.keystone.handles n h } }
/-- A handle ends with a code (R376). -/
def State.endHandle (s : State) (n code : Nat) : State :=
  match tabGet? s.keystone.handles n with
  | some h => s.setHandle n { h with state := 3, code := code, endedAt := s.trustedTime }
  | none => s
/-- The ACTIVE handle that a word names in a context (R373 to R375). -/
def State.activeHandle (s : State) (p n : Nat) : Option Handle :=
  match s.ctx? p, tabGet? s.keystone.handles n with
  | some x, some h => if h.state = 1 ∧ h.part = p ∧ h.age = x.age then some h else none
  | _, _ => none

/-! ### Warrants, tokens and admission blocks (R358, R359, R374) -/

/-- What a presentation asks for. -/
structure Warrant where
  serial : BitVec 128
  cls : Nat
  prio : Nat
  flags : BitVec 8
  devices : BitVec 256
  notAfter : Nat
  notice : Nat
  cores : Nat
  threads : Nat
  keys : Nat
  queues : Nat
  l2 : Nat
  memory : Nat
  link : Nat
  minCores : Nat
  digest : List Byte
  mode : Nat
  depth : Nat
  resultBase : Nat
  resultLen : Nat
  handover : Nat
  /-- Delegation index of a token. -/
  index : Option Nat
  deriving DecidableEq, Repr

/-- Ranges and relations of the resource fields (R358). -/
def Warrant.inRange (w : Warrant) : Bool :=
  decide (w.cls ≤ 2) && decide (w.prio ≤ 31) && w.flags.toNat < 16 && decide (1 ≤ w.cores) && decide (w.cores ≤ 1024) &&
  decide (1 ≤ w.threads) && decide (w.threads ≤ 63) && decide (w.keys ≤ 1) && decide (1 ≤ w.queues) && decide (w.queues ≤ 8) &&
  decide (w.l2 ≤ 511) && w.memory % 4096 == 0 && decide (w.link ≤ 1000) &&
  (match w.cls with
   | 0 => w.minCores == w.cores
   | 1 => decide (1 ≤ w.minCores) && decide (w.minCores ≤ w.cores)
   | _ => w.minCores == 0) &&
  decide (w.mode ≤ 2) && (w.mode == 0 || w.keys == 1) && decide (w.depth ≤ 15) && w.resultBase % 64 == 0 &&
  w.resultLen % 64 == 0 && decide (w.resultLen ≤ 2 ^ 24) && decide (w.handover ≤ 2)

/-- A warrant's fields, when magic, version, length, zero fields and ranges are right (R358). -/
def readWarrant (b : List Byte) : Option Warrant :=
  let w : Warrant :=
    { serial := BitVec.ofNat 128 (byteNat b 8 16), cls := byteNat b 0x19 1, prio := byteNat b 0x1A 1,
      flags := BitVec.ofNat 8 (byteNat b 0x1B 1), devices := BitVec.ofNat 256 (byteNat b 0x20 32), notAfter := byteNat b 0x48 8,
      notice := byteNat b 0x50 8, cores := byteNat b 0x58 2, threads := byteNat b 0x5A 1, keys := byteNat b 0x5B 1,
      queues := byteNat b 0x5C 1, l2 := byteNat b 0x5E 2, memory := byteNat b 0x60 8, link := byteNat b 0x68 2,
      minCores := byteNat b 0x6A 2, digest := bytePart b 0x70 64, mode := byteNat b 0xF8 1, depth := byteNat b 0xF9 1,
      resultBase := byteNat b 0x100 8, resultLen := byteNat b 0x108 8, handover := byteNat b 0x110 1, index := none }
  if b.length ≥ 512 ∧ byteNat b 0 4 = 0x57524E54 ∧ byteNat b 4 2 = 1 ∧ byteNat b 6 2 = 0x200 ∧ byteNat b 0x18 1 ≤ 7 ∧
      zeroAt b [(0x1D, 1), (0x5D, 1), (0x6C, 4), (0xF3, 5), (0xFA, 6), (0x111, 107)] ∧ w.inRange then some w else none

/-- A token's fields (R374); its priority ceiling and flags are those of the context that issued it (assumption 33). -/
def readToken (prio : Nat) (flags : BitVec 8) (b : List Byte) : Option Warrant :=
  let w : Warrant :=
    { serial := BitVec.ofNat 128 (byteNat b 8 16), cls := byteNat b 0x1B 1, prio := prio, flags := flags,
      devices := 1#256 <<< Config.deviceId.toNat, notAfter := byteNat b 0x20 8, notice := 0, cores := byteNat b 0x28 2,
      threads := byteNat b 0x2A 1, keys := byteNat b 0x2B 1, queues := byteNat b 0x2C 1, l2 := byteNat b 0x2E 2,
      memory := byteNat b 0x30 8, link := byteNat b 0x38 2, minCores := byteNat b 0x3A 2, digest := bytePart b 0x70 64,
      mode := byteNat b 0xF8 1, depth := byteNat b 0x1A 1, resultBase := byteNat b 0x100 8, resultLen := byteNat b 0x108 8,
      handover := byteNat b 0xF9 1, index := some (byteNat b 0x18 2) }
  if b.length ≥ 512 ∧ byteNat b 0 4 = 0x544B4E44 ∧ byteNat b 4 2 = 1 ∧ byteNat b 6 2 = 0x200 ∧
      zeroAt b [(0x1D, 3), (0x2D, 1), (0x3C, 4), (0x40, 48), (0xF3, 5), (0xFA, 6), (0x110, 108)] ∧ w.inRange then some w else none

/-- The initial launch record is valid against the warrant's own limits (R294, R295): a new context has no lost task, and
its checkpoint area is judged by its address alone (assumption 34). -/
def Warrant.recordOk (w : Warrant) (r : Vec) : Bool :=
  sealed r && recShape r && recEntry r % 4 == 0 && decide (recThreads r * recWindow r ≤ 2048) &&
  (match recKind r with
   | 0 => decide (1 ≤ recCores r) && decide (recCores r ≤ 1024) && (List.range 8).all fun i => recDir r i == 0
   | 1 => decide (1 ≤ recCores r) && decide (recCores r ≤ 8) && (List.range 8).all fun i => recDir r i == 0
   | _ => recCores r == 1 && recThreads r == 1 && recGraph r != 0 && recArg r 2 != 0 && recArg r 2 % 64 == 0) &&
  (!recSuper r || recKind r == 2) && decide (recPrio r ≤ w.prio) && decide (recQueue r < w.queues) &&
  decide (recCores r ≤ w.cores) && decide (recThreads r ≤ w.threads) && !recResume r

/-- The admission block is valid for a warrant (R359). -/
def Warrant.blockOk (w : Warrant) (b : List Byte) : Bool :=
  byteNat b 0x10 8 % 4096 == 0 && byteNat b 0x18 8 % 64 == 0 && (w.handover == 2 || byteNat b 0x18 8 == 0) &&
  zeroAt b [(0x20, 32)] && w.recordOk (bytesVec (bytePart b 0x40 64))

/-! ### Capacity and cores (R366 to R369) -/

/-- Cores that are not fenced (R366). -/
def State.liveCores (s : State) : Nat := 1024 - s.cores.countP fun e => e.2.fenced
/-- The context area (R367). -/
def contextArea (cores threads minCores : Nat) : Nat := 8704 * (cores * threads) + 0x10000 + 0x100000 * (cores - minCores)

/-- Handles whose resources are withheld from their context: neither roots nor ended (R373, R374). -/
def State.withheld (s : State) : List Handle :=
  (s.keystone.handles.filter fun e => e.2.state != 3 && e.2.root != e.1).map Prod.snd

/-- Step 8 of R361: the sums of R368 with a new warrant. -/
def State.capacityOk (s : State) (w : Warrant) : Bool :=
  let xs := s.ctxs.map Prod.snd
  let hs := s.withheld
  let sum (f : Ctx → Nat) (g : Handle → Nat) : Nat := (xs.map f).foldl (· + ·) 0 + (hs.map g).foldl (· + ·) 0
  let live := s.liveCores
  decide (sum (fun x => if x.cls < 2 then x.minCores else 0) (fun h => h.minCores) + w.minCores ≤ live) &&
  decide (sum (fun x => if x.cls = 2 then x.cores else 0) (fun h => if h.cls = 2 then h.cores else 0) +
    (if w.cls = 2 then w.cores else 0) ≤ 4 * live) &&
  decide (sum (fun x => x.memory + contextArea x.cores x.threads x.minCores) (fun h => h.memory) + w.memory +
    contextArea w.cores w.threads w.minCores ≤ Config.reservedBase) &&
  decide (sum (fun x => x.l2) (fun h => h.l2) + w.l2 ≤ 511) && decide (sum (fun x => x.link) (fun h => h.link) + w.link ≤ 1000)

/-- Cores of the device that no context holds, in increasing ID. -/
def State.freeCores (s : State) : List Nat :=
  (List.range 1024).filter fun c => (s.core c).part.isNone && !(s.core c).fenced
/-- Own cores of a new context: whole free regions while eight or more are wanted, then the lowest free cores (R369). -/
def pickOwn (free : List Nat) (n : Nat) : List Nat :=
  let whole := (List.range 128).filter fun r => (List.range 8).all fun i => free.contains (8 * r + i)
  let regions := (whole.take (n / 8)).flatMap fun r => (List.range 8).map fun i => 8 * r + i
  let rest := free.filter fun c => !regions.contains c
  regions ++ rest.take (n - regions.length)

/-- The scratch split of a core changes: the bytes become undefined (R47). -/
def State.setSteps (s : State) (c n : Nat) : State :=
  if (s.core c).steps = n then s
  else
    { s.modCore c (fun k => { k with steps := n }) with
      scratch := tabClear s.scratch (c * 2 ^ 20) (2 ^ 20)
      badWords := s.badWords.filter fun k => k * 8 / 2 ^ 20 != c
      epochs := tabSet s.epochs c (tabGet s.epochs c 0 + 1) }

/-- A core passes to a partition or to the pool: its register file is zeroed and set full, and nothing of an earlier
context stays; sr.nlost and the spacing of software samples are the core's own and stay (R147, R148, R216, R225, R302). -/
def State.passCore (s : State) (c : Nat) (part : Option Nat) : State :=
  let s := s.setSteps c 0
  let k := s.core c
  { s.setCore c { Core.reset with part := part, fenced := k.fenced, sageSlot := k.sageSlot, sageAt := k.sageAt, corrected := k.corrected,
                                  q6seq := k.q6seq, last := k.last, nlost := k.nlost, softSample := k.softSample } with
    regs := tabClear s.regs (c * 2048) 2048 }

/-- The lent core that a reclaim takes next: best-effort contexts first, then burstable, the youngest first (R369); of a
context's lent cores the highest-numbered (assumption 35). -/
def State.lentCore (s : State) : Option Nat :=
  let lent (p : Nat) (x : Ctx) : List Nat := (s.coresOf p).filter fun c => !x.own.contains c && !(s.core c).moving
  let youngest (cls : Nat) : Option (Nat × Ctx) :=
    (s.ctxs.filter fun e => e.2.cls == cls && !(lent e.1 e.2).isEmpty).foldl (fun (acc : Option (Nat × Ctx)) e =>
      match acc with
      | some a => if a.2.age < e.2.age then some e else acc
      | none => some e) none
  match (match youngest 2 with | some e => some e | none => youngest 1) with
  | some e => (lent e.1 e.2).getLast?
  | none => none

/-! ### Code images (R360, R398) -/

/-- A section of an image: its virtual base, its bytes, and whether it is data. -/
structure Section where
  va : Nat
  bytes : List Byte
  data : Bool
  deriving DecidableEq, Repr

/-- The four sections at a code base; none when the image is not one of R360. -/
def readImage (b : List Byte) (base : Nat) : Option (List Section) :=
  let t := byteNat b 8 4
  let g := byteNat b 12 4
  let r := byteNat b 16 4
  let d := byteNat b 20 4
  let up (n : Nat) : Nat := (n + 4095) / 4096 * 4096
  let rulesOk : Bool := r == 0 || (decide (64 ≤ r) && (r - 64) % 192 == 0 && decide (r ≤ 64 + 192 * 64))
  if byteNat b 0 4 = 0x494D4147 ∧ byteNat b 4 2 = 1 ∧ zeroAt b [(6, 2), (0x18, 40)] ∧ 4 ≤ t ∧ t % 4 = 0 ∧ g % 16 = 0 ∧ rulesOk ∧
      b.length = 64 + t + g + r + d then
    let vg := up (base + t)
    let vr := up (vg + g)
    let vd := up (vr + r)
    some [{ va := base, bytes := bytePart b 64 t, data := false }, { va := vg, bytes := bytePart b (64 + t) g, data := false },
          { va := vr, bytes := bytePart b (64 + t + g) r, data := false },
          { va := vd, bytes := bytePart b (64 + t + g + r) d, data := true }]
  else none

/-- Every section ends at or below a bound. -/
def sectionsBelow (l : List Section) (bound : Nat) : Bool := l.all fun k => decide (k.va + k.bytes.length ≤ bound)
/-- What the sections cost of the memory grant, in pages of 4 KiB (R276). -/
def sectionsCost (l : List Section) (mode : Nat) : Nat :=
  l.foldl (fun n k => n + charge (if k.data then mode else 0) ((k.bytes.length + 4095) / 4096 * 4096)) 0

/-- Map a section in fresh zeroed frames and fill it: code execute-only, data read-write with the ATTR of the required
mode (R273, R360). -/
def State.mapSection (s : State) (p mode : Nat) (k : Section) : State :=
  ((List.range ((k.bytes.length + 4095) / 4096)).zip (chunks 4096 k.bytes)).foldl (fun s e =>
    let frame := s.freeFrame 4096
    match s.mapPage p (k.va + 4096 * e.1) 0 (if k.data then mode else 0) (if k.data then 1 else 2) (!k.data) true, frame with
    | some s, some a => s.pokeBytes a e.2
    | _, _ => s) s

/-- The code section that an image's text and table form (R360). -/
def codeOf (l : List Section) : Code :=
  match l with
  | t :: g :: _ => { base := t.va, text := t.bytes.length, table := g.va, tableBytes := g.bytes.length }
  | _ => { base := 0, text := 0, table := 0, tableBytes := 0 }

/-- Map the counter page or the sample ring: read-only, ATTR 0, not charged (R398). Its first frame. -/
def State.mapFixed (s : State) (p va size : Nat) : Nat × State :=
  match s.freeFrame (pageBytes size), s.mapPage p va size 0 0 false false with
  | some a, some s => (a, s)
  | _, _ => (0, s)

/-! ### Building a context (R361) -/

/-- The lowest free partition: no context, and no region still held for the host (R361; assumption 36). -/
def State.freePart (s : State) : Option Nat :=
  (List.range 32).find? fun p => (s.ctx? p).isNone && (tabGet? s.keystone.held p).isNone
/-- The lowest free key slot (R370). -/
def State.freeKey (s : State) : Option Nat := (List.range 64).find? fun k => !s.keystone.slots.contains k

/-- The keys of a slot stand in every pier, or zeros do (R274, R370). -/
def State.installKeys (s : State) (slot : Nat) (k : BitVec 512) : State :=
  { s with keystone := { s.keystone with keys := (List.range 12).foldl (fun t pier => tabPut t (pier * 64 + slot) k 0) s.keystone.keys } }

/-- A context as it begins. -/
def Warrant.context (w : Warrant) (handle age root : Nat) (key : Option Nat) (own : List Nat) (dest : Nat)
    (who : Option (Nat × Nat × Nat)) : Ctx :=
  { handle := handle, serial := w.serial, cls := w.cls, ceilingPrio := w.prio, flags := w.flags, devices := w.devices,
    notAfter := BitVec.ofNat 64 w.notAfter, notice := BitVec.ofNat 64 w.notice, noticed := false, cores := w.cores,
    threads := w.threads, queueCount := w.queues, minCores := w.minCores, l2 := w.l2, memory := w.memory, link := w.link,
    mode := w.mode, depth := w.depth, resultBase := w.resultBase, resultLen := w.resultLen, handover := w.handover,
    handoverTo := dest, presenter := who, token := w.index, age := age, keySlot := key, ceiling := 1,
    measure := bytesVec w.digest, root := root, used := 0, code := [], launches := [], nextLaunch := 1, graphs := [],
    phases := [], chans := [], failures := 0, queues := [], rotor := [], ageLimit := 64, reservation := none, saved := [],
    nextRecord := 0, images := [], backlog := [], diverted := [], deliveries := [], sched := none, counterPage := 0, ring := 0, counts := [],
    energyAt := [], tables := [root], own := own, ending := none, moved := [] }

/-- The handle that admission gives a context. -/
def Warrant.rootHandle (w : Warrant) (p n age : Nat) (key : Option Nat) : Handle :=
  { state := 1, part := p, age := age, root := n, cls := w.cls, code := 0, serial := w.serial, notAfter := BitVec.ofNat 64 w.notAfter,
    cores := w.cores, threads := w.threads, keySlot := key, memory := w.memory, l2 := w.l2, link := w.link,
    minCores := w.minCores, measure := 0, endedAt := 0 }

/-- Build an admitted context: its handle and the state (R361, R369, R398). -/
def State.buildContext (s : State) (w : Warrant) (block : List Byte) (secs : List Section) (who : Option (Nat × Nat × Nat)) :
    Nat × State :=
  match s.freePart with
  | none => (0, s)
  | some p =>
    let key := if w.keys = 1 then s.freeKey else none
    let n := s.newHandle
    let age := s.nextAge
    let own := pickOwn s.freeCores w.minCores
    let root := s.freeTable
    let k := { s.keystone with
      slots := (match key with | some k => setInsert s.keystone.slots k | none => s.keystone.slots)
      admissions := s.keystone.admissions + 1 }
    let s := { s with keystone := k, nextAge := age + 1 }
    let s := match key with
      | some slot => s.installKeys slot (bytesVec (partitionKey k.rootDraw w.serial slot k.admissions))
      | none => s
    let s := s.setHandle n (w.rootHandle p n age key)
    let s := s.setCtx p (w.context n age root key own (byteNat block 0x18 8) who)
    let s := own.foldl (fun s c => s.passCore c (some p)) s
    let s := secs.foldl (fun s k => s.mapSection p w.mode k) s
    let s := s.modCtx p fun x => { x with code := [codeOf secs] }
    let page := s.mapFixed p counterVa 0
    let ring := page.2.mapFixed p ringVa 3
    let s := ring.2.modCtx p fun x => { x with counterPage := page.1, ring := ring.1 }
    let r : Vec := bytesVec (bytePart block 0x40 64)
    let r := packBytes 512 [(0, 3, fieldAt r 0 3), (4, 60, fieldAt r 4 60)]
    match s.ctx? p with
    | some x => (n, (s.queueRecord p x r false).2)
    | none => (n, s)

end Sys2Proof.Machine
end

