-- ==== Sys2Proof/Machine/Deliver.lean ====
section
/-! DEFINITION. Values on their way: into the register file or a saved record, ONCE posts, and the landing of NWRITE
and WAKE (R32, R36, R100, R141 to R143, R172). -/
namespace Sys2Proof.Machine

/-- Change the saved records of a context. -/
def Ctx.mapSaved (x : Ctx) (f : Saved → Saved) : Ctx := { x with saved := x.saved.map f }

/-- An entry lies in a live thread's window on a core. -/
def State.liveWindow (s : State) (c e : Nat) : Bool :=
  (s.threadsOf c).any fun x => !x.2.state.isLeaving && decide (x.2.base ≤ e) && decide (e < x.2.base + x.2.size)

/-- The saved record of a thread, by its identity (R172). -/
def State.savedOf (s : State) (p uid : Nat) : Option Saved :=
  (s.ctx? p).bind fun x => x.saved.find? fun v => v.thread.uid == uid

/-- An entry's new contents arrive for a thread: in its saved record when it is swapped, and in the file when a live
window shares the entry; in the file otherwise (R32, R96, R172). -/
def State.land (s : State) (p c uid e : Nat) (r : Reg) : State :=
  match s.savedOf p uid with
  | some v =>
    let s := s.modCtx p fun x => x.mapSaved fun w =>
      if w.thread.uid = uid ∧ w.thread.base ≤ e then { w with image := listSet w.image (e - w.thread.base) r } else w
    if s.liveWindow v.core e then s.setReg v.core e r else s
  | none => s.setReg c e r

/-- The leader's value is posted to a member: it lands h cycles later (R100). -/
def State.releasePost (s : State) (src : Nat) (dest : PostTo) (v : Option Vec) : State :=
  match s.posts.findIdx? fun q => q.src == src && q.pair != 0 && !q.ready && q.dest == dest with
  | none => s
  | some i =>
    { s with posts := s.posts.modify i fun q => { q with ready := true, val := v, due := s.cycle + dest.hop } }
/-- Post the value of one of the leader's entries to every member. -/
def State.releasePosts (s : State) (src : Nat) (l : List PostTo) (e : Nat) (v : Option Vec) : State :=
  l.foldl (fun s dest => if dest.from_ = e then s.releasePost src dest v else s) s

/-- A producer's value or token arrives (R32, R36, R116). -/
def State.arrive (s : State) (n : Nat) : State :=
  match s.arrivals[n]? with
  | none => s
  | some a =>
    let r := s.performArrival a
    let s := { r.1 with arrivals := listDrop r.1.arrivals n }
    match r.2 with
    | .token k st =>
      let s := (s.land a.part a.core a.uid a.rd (Reg.ofToken k)).releasePosts a.uid a.posts a.rd none
      match a.ws, st with
      | some w, some v => (s.land a.part a.core a.uid w (Reg.ofVec (widen v))).releasePosts a.uid a.posts w (some (widen v))
      | _, _ => s
    | .value v st =>
      let s := (s.land a.part a.core a.uid a.rd (Reg.ofVec v)).releasePosts a.uid a.posts a.rd (some v)
      match a.ws, st with
      | some w, some x => (s.land a.part a.core a.uid w (Reg.ofVec (widen x))).releasePosts a.uid a.posts w (some (widen x))
      | _, _ => s
    | _ => s

/-- The n-th ONCE post may land: it has been released, its cycle has come, and the entry was set empty for it (R100). -/
def State.mayLand (s : State) (n : Nat) : Bool :=
  match s.posts[n]? with
  | some q => q.ready && q.emptied && decide (q.due ≤ s.cycle)
  | none => false
/-- A ONCE post lands in the member's entry (R100, R318). -/
def State.landPost (s : State) (n : Nat) : State :=
  match s.posts[n]? with
  | none => s
  | some q =>
    let s := { s with posts := listDrop s.posts n }
    let p := ((s.core q.dest.core).part).getD 0
    s.land p q.dest.core q.uid q.dest.entry (match q.val with
      | some v => Reg.ofVec v
      | none => Reg.ofToken (if (s.core q.leader).fenced then some q.leader else none))

/-- Members whose pair has arrived have their destination set empty, once no earlier producer is outstanding (R42, R100). -/
def State.emptyPosts (s : State) : State :=
  (List.range s.posts.length).foldl (fun s i =>
    match s.posts[i]? with
    | some q =>
      if !q.emptied ∧ q.due ≤ s.cycle ∧ !s.outstanding q.dest.core q.dest.entry then
        { s.setFull q.dest.core q.dest.entry false with posts := s.posts.modify i fun q => { q with emptied := true } }
      else s
    | none => s) s

/-! ### NWRITE and WAKE at their target (R141, R142) -/

/-- A DEAD_CORE record of a core, with another count of discarded deliveries (R317, R322). -/
def recount (c n : Nat) (v : Vec) : Vec :=
  if fieldAt v 0x00 1 = 0x20 ∧ fieldAt v 0x04 2 = c then
    sealVec (bytesVec (natBytes 40 v.toNat ++ natBytes 4 n ++ natBytes 20 (v.toNat / 2 ^ 352)))
  else v
/-- A record stands in a q7, in a backlog, or in a core image (R130, R302). -/
def State.inQ7 (s : State) (v : Vec) : Bool :=
  (s.cores.any fun e => e.2.q7.contains v || e.2.backlog.contains v) ||
  s.ctxs.any fun e => e.2.backlog.contains v || e.2.images.any fun m => m.q7.contains v
/-- A record is replaced wherever a q7, a backlog or a core image holds it. -/
def State.replaceQ7 (s : State) (v w : Vec) : State :=
  let new (l : List Vec) : List Vec := l.map fun x => if x = v then w else x
  { s with cores := s.cores.map fun e => (e.1, { e.2 with q7 := new e.2.q7, backlog := new e.2.backlog })
           ctxs := s.ctxs.map fun e => (e.1, { e.2 with backlog := new e.2.backlog, images := e.2.images.map fun m => { m with q7 := new m.q7 } }) }
/-- A delivery discarded at the sealed mailboxes of a killed core: the kill's records count it, in the device log and in q7 alike;
one whose supervisor has popped its copy stays as it was popped (R141, R173, R317, R322, R330; assumption 85). -/
def State.countSealed (s : State) (c : Nat) : State :=
  let n := (s.core c).sealedCount + 1
  let s : State := s.modCore c fun k => { k with sealedCount := n }
  let s : State := { s with outgoing := s.outgoing.map fun (o : Outgoing) => if o.logged then { o with body := recount c n o.body } else o }
  s.log.foldl (fun s e =>
    let w := recount c n e.2
    if w = e.2 then s
    else if (fieldAt e.2 2 1).testBit 1 then
      if s.inQ7 e.2 then { s.replaceQ7 e.2 w with log := tabSet s.log e.1 w } else s
    else { s with log := tabSet s.log e.1 w }) s
/-- One more delivery discarded at a core: counted by sr.nlost, or by the record of a killed core. -/
def State.lostAt (s : State) (c : Nat) : State :=
  if (s.core c).fenced then s.countSealed c else s.modCore c fun k => { k with nlost := k.nlost + 1 }

/-- A slot of the resident context is SWAPPED: its saved record (R141, R172). -/
def State.swappedAt (s : State) (c sl : Nat) : Option (Nat × Saved) :=
  match (s.core c).part with
  | some p => ((s.ctx? p).bind fun x => x.saved.find? fun v => v.core == c && v.slot == sl).map fun v => (p, v)
  | none => none

/-- The entry's contents that a delivered value gives. -/
def deliveredReg (v : Option Vec) (from_ : Nat) : Reg :=
  match v with
  | some v => Reg.ofVec v
  | none => Reg.ofToken (some from_)

/-- What a landing finds: a saved record, a live thread, or nothing (R141). Where a live thread stands in a slot that an
older thread was swapped out of, the saved one takes the value: a DESIGN CHOICE (log 96). -/
def State.landNwrite (s : State) (d : Delivery) : State :=
  if (s.core d.core).fenced then s.lostAt d.core
  else
    let queue (s : State) : State :=
      s.modCore d.core fun k => { k with landing := k.landing ++ [{ slot := d.slot, reg := d.reg, from_ := d.from_, val := d.val }] }
    match s.swappedAt d.core d.slot with
    | some (p, v) =>
      if d.reg ≥ v.thread.size then s.lostAt d.core
      else if v.thread.armNbr = some (v.thread.base + d.reg) then
        (s.land p v.core v.thread.uid (v.thread.base + d.reg) (deliveredReg d.val d.from_)).modCtx p fun x =>
          x.mapSaved fun w => if w.record = v.record then { w with thread := { w.thread with armNbr := none } } else w
      else queue s
    | none =>
      match s.thread? d.core d.slot with
      | none => s.lostAt d.core
      | some t =>
        if d.reg ≥ t.size then s.lostAt d.core
        else if t.armNbr = some (t.base + d.reg) then
          (s.setReg d.core (t.base + d.reg) (deliveredReg d.val d.from_)).modThread d.core d.slot fun t => { t with armNbr := none }
        else queue s

/-- A value lands only where it is taken: a full landing queue holds it back (R141). -/
def State.mayLandNwrite (s : State) (n : Nat) : Bool :=
  match s.nwrites[n]? with
  | some d =>
    decide (d.due ≤ s.cycle) &&
      (s.nwrites.take n).all (fun b => !(b.src == d.src && b.core == d.core && b.slot == d.slot && b.reg == d.reg))
  | none => false

/-- A notify value for a thread: into its armed register, or ORed into its latch (R142). -/
def orNotify (t : Thread) (v : Word) : Thread := { t with notify := some (t.notify.getD 0 ||| v) }
/-- A WAKE lands (R142); where a live thread stands in a slot that an older thread was swapped out of, the saved one takes
it: a DESIGN CHOICE (log 96). -/
def State.landWake (s : State) (d : Delivery) : State :=
  let v : Vec := d.val.getD 0
  if (s.core d.core).fenced then s.lostAt d.core
  else match s.swappedAt d.core d.slot with
    | some (p, w) =>
      match w.thread.armNtf with
      | some e => (s.land p w.core w.thread.uid e (Reg.ofVec v)).modCtx p fun x =>
          x.mapSaved fun u => if u.record = w.record then { u with thread := { u.thread with armNtf := none } } else u
      | none => s.modCtx p fun x => x.mapSaved fun u => if u.record = w.record then { u with thread := orNotify u.thread (scalarOf v) } else u
    | none =>
      match s.thread? d.core d.slot with
      | none => s.lostAt d.core
      | some t =>
        match t.armNtf with
        | some e => (s.setReg d.core e (Reg.ofVec v)).modThread d.core d.slot fun t => { t with armNtf := none }
        | none => s.modThread d.core d.slot fun t => orNotify t (scalarOf v)

end Sys2Proof.Machine
end

