-- ==== Sys2Proof/Machine/Engine.lean ====
section
/-! DEFINITION. What the three engines share: command fields, range locks, element writes, streams, completion records
and pulses (R6, R134, R135, R178, R180 to R182, R188 to R191, R193, R199). -/
namespace Sys2Proof.Machine

/-! ### Fields of a command (R180, R181, R213) -/

def CmdEntry.opcode (e : CmdEntry) : Nat := natBits e.cmd.toNat 240 8
def CmdEntry.gate (e : CmdEntry) : Nat := natBits e.cmd.toNat 236 4
def CmdEntry.cnt (e : CmdEntry) : Nat := natBits e.cmd.toNat 232 4
/-- Bits [hi:lo] of the command word. -/
def CmdEntry.bits (e : CmdEntry) (hi lo : Nat) : Nat := natBits e.cmd.toNat lo (hi + 1 - lo)
/-- Operand record word i. -/
def CmdEntry.op (e : CmdEntry) (i : Nat) : Nat := natBits e.opr.toNat (64 * i) 64
/-- The CRC-32C of the entry agrees (R131, R182). -/
def CmdEntry.crcOk (e : CmdEntry) : Bool := crc32c (natBytes 32 e.cmd.toNat ++ natBytes 64 e.opr.toNat) == e.crc
/-- Signed value of a 64-bit word. -/
def signed64 (n : Nat) : Int := (BitVec.ofNat 64 n).toInt
/-- An address modulo 2^64. -/
def wrap64 (n : Int) : Nat := (n % 2 ^ 64).toNat

/-! ### Range locks (R188 to R190) -/

/-- A range a command touches: first and last byte, and whether it is written. -/
structure Span where
  lo : Nat
  hi : Nat
  write : Bool
  deriving DecidableEq, Repr

/-- A range from its base and length; an empty one touches nothing. -/
def span (lo len : Nat) (write : Bool) : List Span := if len = 0 then [] else [{ lo := lo, hi := lo + len - 1, write := write }]

/-- The lock of a range for a core of the cluster: whole lines, scratch in window form (R188). -/
def Span.lock (x : Span) (c p owner : Nat) : Lock :=
  let lo := windowForm c x.lo
  let hi := if lo = x.lo then x.hi else lo + (x.hi - x.lo)
  { first := lo / 64, last := hi / 64, write := x.write, part := p, owner := owner }

/-- Two locks conflict (R190). -/
def Lock.conflicts (a b : Lock) : Bool :=
  a.part == b.part && a.owner != b.owner && (a.write || b.write) && decide (a.first ≤ b.last) && decide (b.first ≤ a.last)

/-- Locks of a cluster's table. -/
def State.clusterLocks (s : State) (k : Nat) : List (Nat × Lock) := s.locks.filter fun e => e.1 / 64 == k

/-- A command's ranges conflict with no lock held in the cluster's table (R190). -/
def State.spansFree (s : State) (e : CmdEntry) (l : List Span) : Bool :=
  l.all fun x => (s.clusterLocks (clusterOf e.core)).all fun k => !(x.lock e.core e.part e.order).conflicts k.2
/-- The table has free entries for them (R188). -/
def State.spansRoom (s : State) (e : CmdEntry) (l : List Span) : Bool :=
  decide ((s.clusterLocks (clusterOf e.core)).length + l.length ≤ 64)

/-- No access of the cluster's threads of the context that has passed its checks, and not performed, touches what a lock of these
ranges would keep it from: it precedes the start (R189, R198). -/
def State.loadsClear (s : State) (e : CmdEntry) (l : List Span) : Bool :=
  s.arrivals.all fun a =>
    a.prod.taken || a.part != e.part || clusterOf a.core != clusterOf e.core ||
    l.all fun x =>
      let k := x.lock e.core e.part e.order
      let atomic : Bool := match a.prod with | .atomic _ _ _ _ => true | _ => false
      (!k.write && !atomic) || a.vas.all fun v =>
        let lo := windowForm a.core v
        decide ((lo + a.bytes - 1) / 64 < k.first) || decide (k.last < lo / 64)

/-- The lowest free index of a cluster's table. -/
def State.freeLock (s : State) (k : Nat) : Nat :=
  ((List.range 64).find? fun i => (tabGet? s.locks (k * 64 + i)).isNone).getD 63

/-- Register a command's locks (R188). -/
def State.takeLocks (s : State) (e : CmdEntry) (l : List Span) : State :=
  l.foldl (fun s x =>
    let k := clusterOf e.core
    { s with locks := tabSet s.locks (k * 64 + s.freeLock k) (x.lock e.core e.part e.order) }) s

/-! ### Element accesses (R199) -/

/-- A fault of an engine's access: status, detail and faulting address. -/
structure ElemFault where
  status : Nat
  detail : Nat
  addr : Nat
  deriving DecidableEq, Repr

/-- The home of a route command's write to the scratchpad of a core that its partition lost by a kill: it is discarded there without a
trap (R317). -/
def State.sealedHome (s : State) (e : CmdEntry) (va : Nat) (k : Kind) : Option Nat :=
  if e.queue = 4 ∧ k = 1 then
    match (if va < 2 ^ 48 then scratchTarget e.core va else none) with
    | some (c, off) => if (s.core c).fenced ∧ (s.core c).heldBy = some e.part then some (scratchHome + c * 2 ^ 20 + off) else none
    | none => none
  else none
/-- Route deliveries that are discarded at killed cores are counted there, once for each core that the homes name (R317, R322). -/
def State.countDropped (s : State) (homes : List Nat) : State :=
  ((homes.filterMap fun a => if a ≥ scratchHome then some ((a - scratchHome) / 2 ^ 20) else none).eraseDups).foldl (fun s c =>
    if (s.core c).fenced then s.countSealed c else s) s
/-- Where a route delivery to the scratchpad in a core image stands until the image is restored: as core*2^20 + offset from here on
(model of R173). -/
def divertHome : Nat := scratchHome + 2 ^ 30
/-- The home of a route command's write to the scratchpad of a core whose image is in the context area (R173). -/
def State.awayHome (s : State) (e : CmdEntry) (va : Nat) (k : Kind) : Option Nat :=
  if e.queue = 4 ∧ k = 1 then
    match (if va < 2 ^ 48 then scratchTarget e.core va else none), s.ctx? e.part with
    | some (c, off), some x =>
      if (s.core c).part ≠ some e.part ∧ x.images.any (fun m => m.core == c && decide (off < m.steps * 0x10000)) then
        some (divertHome + c * 2 ^ 20 + off) else none
    | _, _ => none
  else none
/-- Written bytes that go to the message buffer, as its entries: one for each line of 64 bytes, a DESIGN CHOICE, the spec does not say
how much of a delivery an entry takes (log 101). -/
def deliveryLines : List (Nat × Byte) → List (Nat × List Byte)
  | [] => []
  | w :: rest =>
    match deliveryLines rest with
    | (a, l) :: more => if w.1 + 1 = a ∧ w.1 / 64 = a / 64 then (w.1, w.2 :: l) :: more else (w.1, [w.2]) :: (a, l) :: more
    | [] => [(w.1, [w.2])]
/-- A delivery goes into a core image's part of the message buffer; where the image has been restored in the meantime, to the core
that took it (R173). -/
def State.divert (s : State) (p : Nat) (d : Nat × List Byte) : State :=
  match s.ctx? p with
  | none => s
  | some x =>
    let c := tabGet x.moved (d.1 / 2 ^ 20) (d.1 / 2 ^ 20)
    let off := d.1 % 2 ^ 20
    if x.images.any fun m => m.core == c then s.setCtx p { x with deliveries := x.deliveries ++ [(c * 2 ^ 20 + off, d.2)] }
    else if (s.core c).part = some p then s.applyWrites ((List.range d.2.length).map (fun i => scratchHome + c * 2 ^ 20 + off + i) |>.zip d.2)
    else s
/-- A route command's writes: those to a core that is away are diverted, the others become visible (R173, R197). -/
def State.routeWrite (s : State) (p : Nat) (w : List (Nat × Byte)) : State :=
  let away := w.filter fun e => decide (divertHome ≤ e.1)
  if away.isEmpty then s.applyWrites w
  else (deliveryLines (away.map fun e => (e.1 - divertHome, e.2))).foldl (fun s d => s.divert p d)
    (s.applyWrites (w.filter fun e => decide (e.1 < divertHome)))
/-- The message buffer takes what an element sends there (R173). -/
def State.elementFits (s : State) (p : Nat) (w : ElemWrite) : Bool :=
  if w.addr < divertHome then true
  else match s.ctx? p with
    | some x => decide (x.buffered + (deliveryLines (((List.range w.bytes.length).map fun i => w.addr + i).zip w.bytes)).length ≤ 512)
    | none => true
/-- Check one element of an engine: its home, or the fault. Elements do not cross a page (R182, R199, R264). -/
def State.elemHome (s : State) (e : CmdEntry) (va n : Nat) (k : Kind) : Except ElemFault Nat :=
  if let some h := s.sealedHome e va k then .ok h
  else if let some h := s.awayHome e va k then .ok h
  else match s.check e.core e.part va 1 k false with
  | .bad _ code _ => .error { status := code, detail := 0, addr := va }
  | .ok h =>
    if n ≤ 1 then .ok h
    else match s.check e.core e.part (va + n - 1) 1 k false with
      | .bad _ code _ => .error { status := code, detail := 0, addr := va }
      | .ok _ => .ok h

/-- Read one element: its bytes, or the fault; a lost line, a killed scratchpad's byte, an unreachable device and a
scratch word with an uncorrectable error give DATA_LOST (R199, R312, R352). -/
def State.elemRead (s : State) (e : CmdEntry) (va n : Nat) : Except ElemFault (List Byte) :=
  match s.elemHome e va n 0 with
  | .error f => .error f
  | .ok h =>
    let l := (List.range n).map fun i => h + i
    if (s.homeLost l).isSome ∨ (s.badScratch l).isSome then .error { status := 0x0E, detail := 0, addr := va }
    else .ok (s.homeBytes h n)

/-- One element write, checked. -/
def State.elemWrite (s : State) (e : CmdEntry) (va : Nat) (bs : List Byte) : Except ElemFault ElemWrite :=
  match s.elemHome e va bs.length 1 with
  | .error f => .error f
  | .ok h => .ok { addr := h, bytes := bs }

/-- An element is on another device. -/
def ElemWrite.remote (w : ElemWrite) : Bool := (homeDevice w.addr).isSome

/-! ### Records and pulses (R134, R135, R191) -/

/-- What a completion record says besides its command's own fields (R134, R236). -/
structure Outcome where
  status : Nat
  detail : Nat
  fault : Nat
  sat : Bool
  /-- Rewrite outcome, pattern slot, the group's first sequence number, rule ID; none outside a group. -/
  rewrite : Option (Nat × Nat × Nat × Nat)
  /-- Bytes 0x18 to 0x3F but the rewrite's. -/
  extra : List (Nat × Nat × Nat)
  deriving DecidableEq, Repr

def Outcome.plain (status detail fault : Nat) : Outcome :=
  { status := status, detail := detail, fault := fault, sat := false, rewrite := none, extra := [] }

/-- The completion record of a command (R134, R236). -/
def completionRecord (e : CmdEntry) (now : Nat) (o : Outcome) : Vec :=
  let rw := o.rewrite.getD (0, 0, 0, 0xFF)
  let flags := (if o.rewrite.isSome then 1 else 0) + (if rw.1 = 2 then 2 else 0) + (if o.sat then 4 else 0)
  packBytes 512 ([(0x00, 2, e.seq), (0x02, 1, e.queue / 2 + 1), (0x03, 1, e.opcode), (0x04, 1, o.status), (0x05, 1, o.detail),
    (0x06, 1, flags), (0x07, 1, rw.2.2.2), (0x08, 8, now), (0x10, 8, o.fault)] ++
    (if o.rewrite.isSome then [(0x18, 1, rw.1), (0x19, 1, rw.2.1), (0x1A, 2, rw.2.2.1)] else []) ++ o.extra)

/-- The pushing core still takes records and pulses of a command: it was not killed, and the command's context still
holds it or has it in an image (R317, R378). -/
def State.takesRecord (s : State) (e : CmdEntry) : Bool :=
  !(s.core e.core).fenced && (s.core e.core).part == some e.part &&
  (match s.ctx? e.part with | some x => x.ending.isNone | none => false)

/-- A completion record fills its reserved slot; that of a route command is counted at a killed core (R130, R134, R317). -/
def State.putRecord (s : State) (e : CmdEntry) (o : Outcome) : State :=
  if s.takesRecord e then
    let s := if e.queue = 0 then s.count e.part 6 1 else s
    s.modCore e.core fun k =>
      let q := e.queue + 1
      (k.setComps q (k.compsOf q ++ [completionRecord e s.time o])).setReserved q (k.reservedOf q - 1)
  else if e.queue = 4 ∧ (s.core e.core).fenced then s.countSealed e.core
  else s

/-- A command's pulse (R135). -/
def State.pulseFor (s : State) (e : CmdEntry) : State :=
  if s.takesRecord e then s.modCore e.core fun k => k.pulse e.cnt else s

/-! ### Streams (R193 to R196) -/

/-- Change the stream that is bound to a command, in its thread or in its saved record (R193). -/
def State.modStream (s : State) (key : Nat) (f : Stream → Stream) : State :=
  let g (t : Thread) : Thread :=
    { t with streams := t.streams.map fun b => if b.2.key = key then (b.1, f b.2) else b }
  { s with threads := s.threads.map fun e => (e.1, g e.2)
           ctxs := s.ctxs.map fun e => (e.1, { e.2 with saved := e.2.saved.map fun v => { v with thread := g v.thread } }) }

/-- The stream that is bound to a command. -/
def State.streamOf (s : State) (key : Nat) : Option Stream :=
  let find (t : Thread) : Option Stream := (t.streams.find? fun b => b.2.key == key).map Prod.snd
  match s.threads.findSome? fun e => find e.2 with
  | some b => some b
  | none => s.ctxs.findSome? fun e => e.2.saved.findSome? fun v => find v.thread

/-- The stream of a command ends: nothing more comes, or the command failed (R195). -/
def State.endStream (s : State) (e : CmdEntry) (o : Outcome) : State :=
  s.modStream e.order fun b =>
    if o.status = 0 then (if b.buffer.isEmpty then { b with ended := true } else b)
    else { b with ended := true, faulted := true, record := scalarOf (completionRecord e 0 o), fault := BitVec.ofNat 64 o.fault }

/-! ### Commands leave their queue -/

/-- Keep the window's commands of a kind; a new head stands there from now on (R224). -/
def Core.keepWindow (k : Core) (f : CmdEntry → Bool) (now : Nat) : Core :=
  let w := k.window.filter f
  let same := w.head?.map CmdEntry.order == k.window.head?.map CmdEntry.order
  { k with window := w, headSince := if same then k.headSince else now }

/-- Remove a command from its queue, or from the rewrite window. -/
def State.dequeue (s : State) (e : CmdEntry) : State :=
  s.modCore e.core fun k =>
    let k := k.setCmds e.queue ((k.cmdsOf e.queue).filter fun x => x.order != e.order)
    if e.queue = 0 then k.keepWindow (fun x => x.order != e.order) s.cycle else k

/-- A command that fails its checks, or was cancelled, completes at once: it writes nothing and pulses nothing
(R182, R200, R221, R260). -/
def State.refuseCommand (s : State) (e : CmdEntry) (o : Outcome) : State :=
  ((s.dequeue e).putRecord e o).endStream e o

/-- A started command (R178). -/
def Active.new (e : CmdEntry) (now due : Nat) (writes : List ElemWrite) (o : Outcome) : Active :=
  { entry := e, start := now, due := due, writes := writes, done := 0, status := o.status, detail := o.detail,
    fault := BitVec.ofNat 64 o.fault, sat := o.sat, extra := 0, tiles := [], pod := writes.any ElemWrite.remote,
    dropped := 0, rewrite := o.rewrite, waiting := none, steps := [], grouped := false, stalled := false, sched := none, ranges := [] }

/-- Put a started command among the active ones. -/
def State.activate (s : State) (a : Active) : State :=
  { s.dequeue a.entry with active := tabSet s.active a.entry.order a }

/-- Active commands of a queue that a test picks. -/
def State.activeOn (s : State) (q : Nat) (f : Active → Bool) : List (Nat × Active) :=
  s.active.filter fun e => e.2.entry.queue == q && f e.2

/-- The next element of a started command becomes visible (R197), and is forwarded to its stream (R193); after SDONE it
is discarded there (R196). -/
def State.showElement (s : State) (key : Nat) : State :=
  match tabGet? s.active key with
  | none => s
  | some a =>
    match a.writes with
    | [] => s
    | w :: rest =>
      let s := s.routeWrite a.entry.part (((List.range w.bytes.length).map fun i => w.addr + i).zip w.bytes)
      let bound := (s.streamOf key).isSome
      let dropped := if a.entry.bound && !bound then a.dropped + 1 else a.dropped
      let s := { s with active := tabSet s.active key { a with writes := rest, done := a.done + 1, dropped := dropped } }
      let s := if a.entry.queue = 2 then s.count a.entry.part 8 w.bytes.length else if a.entry.queue = 4 then s.countDropped [w.addr] else s
      if bound then s.modStream key fun b => { b with buffer := b.buffer ++ [bytesVec w.bytes] } else s

/-- The next element may become visible, one a cycle from the start on: a full element buffer pauses its command alone (R193). The
last of a copy or tile command does when the command completes, whose locks go in that cycle (R191, R239). Writes of a group are
held to its commit (R234). -/
def State.mayShowElement (s : State) (key : Nat) : Bool :=
  match tabGet? s.active key with
  | none => false
  | some a =>
    !(a.writes.isEmpty && a.steps.isEmpty) && !a.grouped && !a.stalled && decide (a.start + a.done ≤ s.cycle) &&
      !s.elementHeld a.entry.core a.entry.part (a.writes.head?.elim [] fun w => (List.range w.bytes.length).map fun i => w.addr + i) &&
      a.writes.head?.all (s.elementFits a.entry.part) &&
      (decide (2 ≤ a.writes.length) || a.entry.queue == 4 || decide (a.due ≤ s.cycle)) &&
      (match s.streamOf key with | some b => decide (b.buffer.length < 16) | none => true)

/-- A started command may complete (R191, R239). -/
def State.mayComplete (s : State) (key : Nat) : Bool :=
  match tabGet? s.active key with
  | some a => a.writes.isEmpty && a.steps.isEmpty && a.waiting.isNone && !a.grouped && !a.stalled && decide (a.due ≤ s.cycle)
  | none => false

/-- Completion: the locks go, the counter is pulsed, and the record enters its queue, in one cycle (R191, R239). -/
def State.completeWith (s : State) (a : Active) (extra : List (Nat × Nat × Nat)) : State :=
  let o : Outcome := { status := a.status, detail := a.detail, fault := a.fault.toNat, sat := a.sat, rewrite := a.rewrite, extra := extra }
  let s := s.dropActive a.entry.order
  ((s.pulseFor a.entry).putRecord a.entry o).endStream a.entry o

end Sys2Proof.Machine
end

