-- ==== Sys2Proof/Machine/Keystone.lean ====
section
/-! DEFINITION. The Keystone's decisions: presentations, claims and revocations, the ends of contexts, handles and
tokens, code admission and attestation (R361 to R363, R371 to R378). -/
namespace Sys2Proof.Machine

/-! ### The arbiter (R362) -/

/-- The spent-serial store holds this many entries (R362). -/
def spentRoom : Nat := 32704

/-- Decide a claim, or a token's redemption by its index: the status, and the entry created or extended when it is granted
(R362, R372). -/
def State.arbiterDecide (s : State) (serial : BitVec 128) (index : Option Nat) (dev notAfter : Nat) (group : Bool) : Nat × State :=
  let k := s.keystone
  if !k.trusted then (0x0008, s)
  else match k.spent.find? fun e => e.serial == serial && e.index == index with
    | some e =>
      if !group ∨ e.devices.getLsbD dev then (0x0007, s)
      else (0, { s with keystone := { k with spent := k.spent.map fun x =>
        if x.serial = serial ∧ x.index = index then { x with devices := x.devices ||| 1#256 <<< dev } else x } })
    | none =>
      if k.spent.length ≥ spentRoom then (0x000E, s)
      else (0, { s with keystone := { k with spent := k.spent ++
        [{ serial := serial, index := index, expiry := notAfter + 2000000000, devices := 1#256 <<< dev }] } })

/-- An entry whose expiry trusted time has passed is freed while TRUSTED (R362). -/
def State.spentExpired (s : State) (e : Spent) : Bool := s.keystone.trusted && decide (e.expiry < s.trustedTime)

/-! ### The end of a context (R378) -/

/-- The code with which a context's launches end (R378). -/
def endCode (code : Nat) : Nat := if code = 0x0100 ∨ code = 0x0102 then 0x80 else 0x81

/-- Step 1 of R378: every launch of the context ends, and nothing of it issues any more. -/
def State.endContext (s : State) (p code : Nat) : State :=
  match s.ctx? p with
  | none => s
  | some x =>
    if x.ending.isSome then s
    else
      let ids := (x.launches.filter fun e => e.2.state != 4).map Prod.fst
      let s := s.setCtx p { x with ending := some code }
      ids.foldl (fun s id =>
        (s.modCtx p fun x => match tabGet? x.launches id with
          | some l => { x with launches := tabSet x.launches id { l with code := endCode code } }
          | none => x).launchEnd p id none) s

/-- Steps 1 and 2 of R378 as far as they have come: threads with nothing in flight stop, and unstarted commands go. -/
def State.sweepContext (s : State) (p : Nat) : State :=
  let s := (s.pickThreads p fun t => match t.state with | .inflight _ => false | .leaving _ _ => false | _ => true).foldl
    (fun s e => s.haltThread e.1 e.2 0x81 true) s
  let s := (s.pickThreads p fun t => t.after != some (.stop 0x81 true)).foldl
    (fun s e => s.modThread e.1 e.2 fun t => { t with after := some (.stop 0x81 true) }) s
  let s := match s.ctx? p with
    | some x => x.saved.foldl (fun (s : State) (v : Saved) => s.discardSaved p v.record 0x81 true) s
    | none => s
  { s with cores := s.cores.map fun (e : Nat × Core) =>
      if e.2.part = some p then
        (e.1, { e.2 with cmds := [], window := [], deque := [], replay := [], group := none })
      else e }

/-- Nothing of an ending context is in flight. -/
def State.contextQuiet (s : State) (p : Nat) : Bool :=
  (s.pickThreads p fun _ => true).isEmpty && (s.active.all fun e => e.2.entry.part != p) &&
  ((s.coresOf p).all fun c => (s.core c).running.isNone)

/-- One line of a result region as the handover reads it: its bytes, and whether it was refused or lost (R378). -/
def State.handoverLine (s : State) (c p va : Nat) : List Byte × Bool × Bool :=
  match s.check c p va 64 0 false with
  | .bad _ _ _ => (List.replicate 64 0, true, false)
  | .ok h => if (s.homeLost [h]).isSome then (List.replicate 64 0, false, true) else (s.homeBytes h 64, false, false)

/-- Write bytes at virtual addresses that have passed their checks. -/
def State.writeVirt (s : State) (c p va : Nat) (bs : List Byte) : State :=
  s.applyWrites (((s.virtHomes c p va bs.length).zip bs).foldl (fun t e => tabSet t e.1 e.2) [])

/-- Step 3 of R378: the handover, and the flags of its record (R379). -/
def State.handover (s : State) (p : Nat) (x : Ctx) : Nat × State :=
  let c := (s.lowestCore p).getD 0
  let lines := (List.range (x.resultLen / 64)).map fun i => s.handoverLine c p (x.resultBase + 64 * i)
  let bytes := lines.flatMap fun l => l.1
  let flags := (if lines.any fun l => l.2.1 then 1 else 0) + (if lines.any fun l => l.2.2 then 2 else 0)
  match x.handover with
  | 1 =>
    if x.flags.getLsbD 0 then
      let h : Held := { base := x.resultBase, bytes := bytes, until_ := s.trustedTime + sixtySeconds }
      (flags, { s with keystone := { s.keystone with held := tabSet s.keystone.held p h } })
    else (0, s)
  | 2 =>
    match x.presenter with
    | none =>
      if 2 ^ 51 ≤ x.handoverTo ∧ x.handoverTo + x.resultLen ≤ 2 ^ 52 then (flags, s.pokeBytes x.handoverTo bytes) else (flags + 4, s)
    | some w =>
      if s.presenterLives w ∧ (s.checkRange w.2.1 w.1 x.handoverTo x.resultLen 1).isNone then
        (flags, s.writeVirt w.2.1 w.1 x.handoverTo bytes)
      else (flags + 4, s)
  | _ => (0, s)

/-- Steps 3 to 5 of R378: the handover, the frames, the key slot, the cores, the handles and the event. -/
def State.finishContext (s : State) (p : Nat) : State :=
  match s.ctx? p with
  | none => s
  | some x0 =>
    let code := x0.ending.getD 0
    let s := s.drainPart p
    let h := s.handover p x0
    let s := h.2.freeSpace p
    let cores := s.coresOf p
    let s := cores.foldl (fun s c => s.passCore c none) s
    let s := { s with
      threads := s.threads.filter fun e => !cores.contains (e.1 / 64)
      arrivals := s.arrivals.filter fun a => a.part != p
      pend := s.pend.filter fun e => e.part != p
      nwrites := s.nwrites.filter fun d => d.part != p
      wakes := s.wakes.filter fun d => d.part != p
      traps := s.traps.filter fun r => r.part != p
      messages := s.messages.filter fun m => m.part != p
      posts := s.posts.filter fun q => !cores.contains q.leader && !cores.contains q.dest.core
      barriers := s.barriers.filter fun e => e.1 / 16 / 256 / 3 != p
      keystone := { s.keystone with
        slots := (match x0.keySlot with | some k => s.keystone.slots.filter (· != k) | none => s.keystone.slots)
        handles := s.keystone.handles.map fun (e : Nat × Handle) =>
          if e.2.age = x0.age ∧ e.2.part = p then
            let h : Handle := { e.2 with measure := x0.measure }
            (e.1, if h.state = 1 then { h with state := 3, code := if e.1 = x0.handle then code else 0, endedAt := s.trustedTime } else h)
          else e }
      ctxs := tabErase s.ctxs p
      dispatch := true }
    let s := match x0.keySlot with | some k => s.installKeys k 0 | none => s
    ((s.toPresenter x0.presenter (s.eventRecord 1 h.1 x0.handle code x0.serial 0)).signalPresenter x0.presenter).signal (8 * p)

/-- The contexts that end with the loss of cores (R368): a class 0 or 1 context without a core, and, once a deck is fenced
and the best-effort bound fails, the youngest best-effort context. -/
def State.lostCores (s : State) : State :=
  let s := (s.ctxs.filter fun e => decide (e.2.cls < 2) && e.2.ending.isNone && (s.coresOf e.1).isEmpty && e.2.own.isEmpty &&
      decide (0 < e.2.minCores)).foldl (fun s e => s.endContext e.1 0x0103) s
  if s.fencedDecks.isEmpty then s
  else
    let be := s.ctxs.filter fun e => e.2.cls == 2 && e.2.ending.isNone
    if be.foldl (fun n e => n + e.2.cores) 0 ≤ 4 * s.liveCores then s
    else match be.foldl (fun (acc : Option (Nat × Ctx)) e =>
        match acc with
        | some a => if a.2.age < e.2.age then some e else acc
        | none => some e) none with
      | some e => s.endContext e.1 0x0104
      | none => s

/-! ### Presentations (R361, R372) -/

/-- A revocation's status; a verified one ends every context of its serial (R372). -/
def State.revoke (s : State) (b : List Byte) : Nat × State :=
  let serial : BitVec 128 := BitVec.ofNat 128 (byteNat b 8 16)
  if byteNat b 0 4 ≠ 0x52564B45 ∨ !zeroAt b [(5, 3), (0x18, 100)] then (0x0001, s)
  else if !Config.provisioned (byteNat b 4 1) then (0x0002, s)
  else if !operatorOk (byteNat b 4 1) b 0x7C then (0x0003, s)
  else
    let hit := (s.ctxs.filter fun e => e.2.serial == serial && e.2.ending.isNone).map Prod.fst
    if hit.isEmpty then (0x0001, s) else (0, hit.foldl (fun s p => s.endContext p 0x0102) s)

/-- The image that an admission block names: in the presenter's space, or in the host's memory; none when the read fails. -/
def State.presentedImage (s : State) (who : Option (Nat × Nat × Nat)) (a n : Nat) : Option (List Byte) :=
  match who with
  | some w =>
    let header (k : Nat) : Option (List Byte) :=
      if (s.checkRange w.2.1 w.1 a k 0).isSome then none
      else
        let homes := s.virtHomes w.2.1 w.1 a k
        if s.unreadable homes then none else some (homes.map s.homeByte)
    header n
  | none =>
    if 2 ^ 51 ≤ a ∧ a + n ≤ 2 ^ 52 then
      (if s.anyLost ((List.range n).map fun i => a + i) then none else some (s.homeBytes a n))
    else none

/-- Step 11 has read the image of a presentation: an uncorrectable error in a scratch word of it kills the word's owner (R312). -/
def State.imageDoom (s : State) (who : Option (Nat × Nat × Nat)) (a n : Nat) : State :=
  match who with
  | some w => if (s.checkRange w.2.1 w.1 a n 0).isSome then s else s.doom (s.virtHomes w.2.1 w.1 a n)
  | none => s

/-- The outcome of the checks of a presentation before its claim. -/
inductive Checks where
  | fails (status : Nat)
  | passes (w : Warrant) (image : List Byte) (secs : List Section)
  deriving DecidableEq, Repr

/-- Steps 7 to 11 of R361, which a warrant and a token share after the time checks; `held` tells of a token whether the
resources that it reserves, which stand in for step 8, are there. -/
def State.admitRest (s : State) (w : Warrant) (block : List Byte) (who : Option (Nat × Nat × Nat)) (pod : Nat) (held : Option Bool) : Checks :=
  if pod ≠ Config.podId.toNat ∨ !w.devices.getLsbD Config.deviceId.toNat then .fails 0x0006
  else if (match held with | some b => !b | none => !s.capacityOk w) then .fails 0x000A
  else if s.freePart.isNone then .fails 0x000B
  else if w.keys = 1 ∧ s.freeKey.isNone then .fails 0x000C
  else
    let base := byteNat block 0x10 8
    match s.presentedImage who (byteNat block 0 8) (byteNat block 8 8) with
    | none => .fails 0x000D
    | some img =>
      match readImage img base with
      | none => .fails 0x000D
      | some secs =>
        if sha512 img ≠ w.digest then .fails 0x000D
        else
          let entry := recEntry (bytesVec (bytePart block 0x40 64))
          let text := (codeOf secs).text
          if entry < base ∨ base + text ≤ entry ∨ !sectionsBelow secs counterVa then .fails 0x0001 else .passes w img secs

/-- Steps 1 to 11 of R361 for a warrant. -/
def State.checkWarrant (s : State) (b : List Byte) (who : Option (Nat × Nat × Nat)) : Checks :=
  let block := b.drop 512
  match readWarrant b with
  | none => .fails 0x0001
  | some w =>
    if !w.blockOk block then .fails 0x0001
    else if !Config.provisioned (byteNat b 0x18 1) then .fails 0x0002
    else if !operatorOk (byteNat b 0x18 1) b 0x17C then .fails 0x0003
    else if !s.keystone.trusted then .fails 0x0009
    else if s.trustedTime < byteNat b 0x40 8 then .fails 0x0004
    else if w.notAfter ≤ s.trustedTime then .fails 0x0005
    else s.admitRest w block who (byteNat b 0x1E 2) none

/-- The token that a presentation names. -/
def State.tokenOf (s : State) (b : List Byte) : Option Token :=
  s.keystone.tokens.find? fun t => t.serial == BitVec.ofNat 128 (byteNat b 8 16) && t.index == byteNat b 0x18 2

/-- A redemption of the token stands in the spent store (R372). -/
def State.tokenSpent (s : State) (b : List Byte) : Bool :=
  s.keystone.spent.any fun e => e.serial == BitVec.ofNat 128 (byteNat b 8 16) && e.index == some (byteNat b 0x18 2)
/-- Steps 1 to 11 of R361 for a token, with its four differences (R372); a token whose reservation has lapsed fails step 8, one that
was redeemed step 12 (log 110). -/
def State.checkToken (s : State) (b : List Byte) (who : Option (Nat × Nat × Nat)) : Checks :=
  let block := b.drop 512
  let t := s.tokenOf b
  match readToken ((t.map (·.prio)).getD 31) ((t.map (·.flags)).getD 0) b with
  | none => .fails 0x0001
  | some w =>
    if !w.blockOk block then .fails 0x0001
    else if byteNat b 0x1C 1 ≠ Config.deviceId.toNat then .fails 0x0006
    else if !deviceVerifies (b.take 0x17C) (bytePart b 0x17C 132) then .fails 0x0003
    else if !s.keystone.trusted then .fails 0x0009
    else if w.notAfter ≤ s.trustedTime then .fails 0x0005
    else s.admitRest w block who Config.podId.toNat (some (t.isSome || s.tokenSpent b))

/-- The answer of a presentation reaches its presenter: the thread's result, or the window's status; every decision is signalled on
vector 256 (R372, R389, R393). -/
def State.answer (s : State) (q : Pending) (status handle : Nat) : State :=
  let s := s.signal 256
  match q.thread with
  | some (c, sl, uid, rd) =>
    s.modThread c sl fun t =>
      match t.state with
      | .inflight f => if t.uid = uid then { t with state := .inflight { f with fx :=
          [.reg rd (BitVec.ofNat 512 (status + handle * 2 ^ 16)), .acquire 5] } } else t
      | _ => t
  | none =>
    { s with host := { s.host with busy := false, status := BitVec.ofNat 16 status, handle := BitVec.ofNat 16 handle } }

/-- What a presentation that has passed its checks presents. -/
def Pending.warrant (q : Pending) : Option Warrant := if q.kind = 1 then readToken q.prio q.flags q.bytes else readWarrant q.bytes

/-- A granted presentation is admitted once the cores that it needs are free: its context is built of the image that step 11 has
hashed (R361, R369, R382). -/
def State.admitContext (s : State) (q : Pending) : State :=
  match q.warrant, readImage q.image (byteNat q.bytes 528 8) with
  | some w, some secs =>
    if s.freeCores.length < w.minCores then { s with keystone := { s.keystone with pending := some { q with granted := true } } }
    else
      let r := ({ s with keystone := { s.keystone with pending := none } }).buildContext w (q.bytes.drop 512) secs q.presenter
      r.2.answer q 0 r.1
  | _, _ => { s with keystone := { s.keystone with pending := none } }.answer q 0x0001 0

/-- A token is redeemed: its handle ends, and its issuer is told (R374, R380). -/
def State.redeem (s : State) (t : Token) : State :=
  let k := { s.keystone with tokens := s.keystone.tokens.filter fun x => !(x.serial == t.serial && x.index == t.index) }
  let s := ({ s with keystone := k }).endHandle t.handle 0
  let who := some (t.part, t.core, t.age)
  (s.toPresenter who (s.eventRecord 2 0 t.handle 0 t.serial t.index)).signalPresenter who

/-- Decide a presentation: the checks, then the claim, at once when this device arbitrates; any other claim crosses Rypel Link
(R361, R362, R372). -/
def State.decide_ (s : State) (q : Pending) : State :=
  if q.kind = 2 then
    let r := s.revoke q.bytes
    r.2.answer q r.1 0
  else
    match (if q.kind = 1 then s.checkToken q.bytes q.presenter else s.checkWarrant q.bytes q.presenter) with
    | .fails st =>
      (if st = 0x000D then s.imageDoom q.presenter (byteNat q.bytes 512 8) (byteNat q.bytes 520 8) else s).answer q st 0
    | .passes w img _ =>
      let q := { q with image := img, prio := w.prio, flags := w.flags }
      let own := Config.deviceId.toNat
      if q.kind = 1 then
        let r := s.arbiterDecide w.serial w.index own w.notAfter false
        if r.1 ≠ 0 then s.answer q r.1 0
        else match r.2.tokenOf q.bytes with
          | some t => (r.2.redeem t).admitContext q
          | none => r.2.admitContext q
      else
        let arb := byteNat q.bytes 0x1C 1
        if arb = own then
          let r := s.arbiterDecide w.serial none own w.notAfter (w.flags.getLsbD 2)
          if r.1 ≠ 0 then s.answer q r.1 0 else r.2.admitContext q
        else if !s.reachable arb then s.answer q 0x0008 0
        else
          { s.sendLink arb (.claim own w.serial w.notAfter (w.flags.getLsbD 2) (s.timeQ + 4000000)) with
            keystone := { s.keystone with pending := some { q with limit := s.timeQ + 4000000 } } }

/-- A claim of another device: decided against the spent-serial store, and the reply goes back with its serial and mark (R362). -/
def State.claimFrom (s : State) (dev : Nat) (serial : BitVec 128) (notAfter : Nat) (group : Bool) (mark : Nat) : State :=
  let r := s.arbiterDecide serial none dev notAfter group
  r.2.sendLink dev (.verdict Config.deviceId.toNat serial mark r.1)

/-- Decide waiting presentations in their order while none is pending (R361). -/
def decideGo : Nat → State → State
  | 0, s => s
  | fuel + 1, s =>
    match s.keystone.pending, s.keystone.waiting with
    | none, q :: rest => decideGo fuel (({ s with keystone := { s.keystone with waiting := rest } }).decide_ q)
    | _, _ => s
def State.decideWaiting (s : State) : State := decideGo s.keystone.waiting.length s

/-- A presentation arrives (R361, R389). -/
def State.present (s : State) (q : Pending) : State :=
  ({ s with keystone := { s.keystone with waiting := s.keystone.waiting ++ [q] } }).decideWaiting

/-- The arbiter's reply to the pending claim, or its time-out (R362). Granted, the checks already made stand (R382). -/
def State.claimAnswered (s : State) (status : Nat) : State :=
  match s.keystone.pending with
  | none => s
  | some q =>
    if q.granted then s
    else
      let s := { s with keystone := { s.keystone with pending := none } }
      (if status ≠ 0 then s.answer q status 0 else s.admitContext q).decideWaiting
/-- The serial that a presented warrant claims (R358, R362). -/
def Pending.serial (q : Pending) : BitVec 128 := BitVec.ofNat 128 (byteNat q.bytes 8 16)
/-- A reply of a device: to the claim that is pending, if that device arbitrates it and the reply bears its serial and mark, which is
the limit of its wait; a reply to an earlier claim, whose wait has ended, changes nothing (R362). -/
def State.verdictFrom (s : State) (dev : Nat) (serial : BitVec 128) (mark status : Nat) : State :=
  match s.keystone.pending with
  | some q =>
    if byteNat q.bytes 0x1C 1 = dev ∧ q.serial = serial ∧ q.limit = mark then s.claimAnswered status else s
  | none => s

/-- A granted admission goes on once reclaimed cores are free (R369). -/
def State.resumeAdmission (s : State) : State :=
  match s.keystone.pending with
  | none => s
  | some q => if !q.granted then s else (s.admitContext q).decideWaiting
/-- Cores that a granted admission still waits for. -/
def State.coresWanted (s : State) : Nat :=
  match s.keystone.pending with
  | some q =>
    if q.granted then
      let n := byteNat q.bytes (if q.kind = 1 then 0x3A else 0x6A) 2
      n - s.freeCores.length - s.cores.countP fun e => e.2.moving
    else 0
  | none => 0

/-! ### WRT.SPLIT, DELEGATE, SURRENDER, QUERY (R373 to R376) -/

/-- Cores of a partition with no live thread and no strand of it, which may leave the grant (R373). -/
def State.idleCores (s : State) (p : Nat) : List Nat :=
  (s.coresOf p).filter fun c => (s.threadsOf c).isEmpty && (s.core c).deque.isEmpty && !(s.core c).moving &&
    (match s.ctx? p with | some x => x.saved.all fun v => v.core != c | none => true)

/-- A context gives up resources: its cores beyond the new number leave it, idle ones, first those on loan and of each kind the highest;
where too few on loan are idle, a core of its own leaves and one that it holds on loan takes its place, so that the context owns its
minimum for life (R369, R373; assumption 37). -/
def State.shrink (s : State) (p cores memory l2 link : Nat) : State :=
  match s.ctx? p with
  | none => s
  | some x =>
    let left := x.cores - cores
    let idle := (s.idleCores p).reverse
    let out := ((idle.filter fun c => !x.own.contains c) ++ idle.filter x.own.contains).take ((s.coresOf p).length - left)
    let kept := x.own.filter fun c => !out.contains c
    let own := (kept ++ (s.coresOf p).filter fun c => !out.contains c && !kept.contains c).take (min x.minCores left)
    let s := s.setCtx p { x with cores := left, minCores := min x.minCores left, memory := x.memory - memory, l2 := x.l2 - l2,
                                 link := x.link - link, own := own }
    let s := out.foldl (fun s c => s.passCore c none) s
    match tabGet? s.keystone.handles x.handle with
    | some h => s.setHandle x.handle { h with cores := h.cores - cores, memory := h.memory - memory, l2 := h.l2 - l2, link := h.link - link,
                                              minCores := min x.minCores left }
    | none => s

/-- WRT.SPLIT: status and new handle (R373). -/
def State.wrtSplit (s : State) (p : Nat) (d a : Word) : Nat × State :=
  let n := natBits a.toNat 0 16
  match (if natBits a.toNat 16 48 = 0 then s.activeHandle p n else none), s.ctx? p with
  | some h, some x =>
    let cores := natBits d.toNat 0 16
    let l2 := natBits d.toNat 16 16
    let link := natBits d.toNat 32 10
    let memory := natBits d.toNat 42 22 * 2 ^ 20
    let root := decide (n = x.handle)
    let busy := (s.coresOf p).length - (s.idleCores p).length
    let haveCores := if root then x.cores - busy else h.cores
    let haveMem := if root then x.memory - x.used else h.memory
    if (cores = 0 ∧ l2 = 0 ∧ link = 0 ∧ memory = 0) ∨ cores > haveCores ∨ l2 > h.l2 ∨ link > h.link ∨ memory > haveMem then (2, s)
    else
      let m := s.newHandle
      let left := h.cores - cores
      let mins := if x.cls = 0 then cores else h.minCores - min h.minCores left
      let fresh : Handle := { h with root := x.handle, cores := cores, memory := memory, l2 := l2, link := link, minCores := mins }
      let s := if root then s.shrink p cores memory l2 link
        else s.setHandle n { h with cores := left, memory := h.memory - memory, l2 := h.l2 - l2, link := h.link - link, minCores := h.minCores - mins }
      (m * 2 ^ 16, s.setHandle m fresh)
  | _, _ => (1, s)

/-- The fields of a token that software fills are in range (R374). -/
def Ctx.tokenFields (x : Ctx) (b : List Byte) : Bool :=
  let cls := byteNat b 0x1B 1
  let mode := byteNat b 0xF8 1
  decide (x.cls ≤ cls) && decide (cls ≤ 2) && decide (byteNat b 0x20 8 ≤ x.notAfter.toNat) && decide (1 ≤ byteNat b 0x2A 1) &&
  decide (byteNat b 0x2A 1 ≤ 63) && decide (byteNat b 0x2B 1 ≤ 1) && decide (x.mode ≤ mode) && decide (mode ≤ 2) &&
  (mode == 0 || byteNat b 0x2B 1 == 1) && decide (byteNat b 0xF9 1 ≤ 2) && byteNat b 0x100 8 % 64 == 0 &&
  byteNat b 0x108 8 % 64 == 0 && decide (byteNat b 0x108 8 ≤ 2 ^ 24)

/-- The next delegation index of a serial, from 0 (R374; assumption 38). -/
def State.nextIndex (s : State) (serial : BitVec 128) : Nat :=
  match s.keystone.indices.find? fun e => e.1 == serial with | some e => e.2 | none => 0

/-- The token record that the Keystone completes and signs (R374). -/
def tokenBytes (x : Ctx) (h : Handle) (index mins : Nat) (b : List Byte) : List Byte :=
  let body := natBytes 4 0x544B4E44 ++ natBytes 2 1 ++ natBytes 2 0x200 ++ natBytes 16 x.serial.toNat ++ natBytes 2 index ++
    natBytes 1 (x.depth - 1) ++ bytePart b 0x1B 1 ++ natBytes 1 Config.deviceId.toNat ++ natBytes 3 0 ++ bytePart b 0x20 8 ++
    natBytes 2 h.cores ++ bytePart b 0x2A 2 ++ natBytes 1 x.queueCount ++ natBytes 1 0 ++ natBytes 2 h.l2 ++ natBytes 8 h.memory ++
    natBytes 2 h.link ++ natBytes 2 mins ++ natBytes 4 0 ++ natBytes 48 0 ++ bytePart b 0x70 64 ++ bytePart b 0xB0 67 ++
    natBytes 5 0 ++ bytePart b 0xF8 2 ++ natBytes 6 0 ++ bytePart b 0x100 16 ++ natBytes 108 0
  body ++ deviceSigns body

/-- WRT.DELEGATE: status and index (R374). -/
def State.wrtDelegate (s : State) (p c : Nat) (d a : Word) : Nat × State :=
  let n := natBits d.toNat 0 16
  match s.activeHandle p n, s.ctx? p with
  | some h, some x =>
    let homes := s.virtHomes c p a.toNat 512
    let b := homes.map s.homeByte
    if n = x.handle then (1, s)
    else if x.depth = 0 then (2, s)
    else if s.unreadable homes then (3, s.doom homes)
    else if !x.tokenFields b then (3, s)
    else
      let index := s.nextIndex x.serial
      let cls := byteNat b 0x1B 1
      let mins := if cls = 0 then h.cores else if cls = 1 then max 1 (min h.minCores h.cores) else 0
      let t : Token := { serial := x.serial, index := index, handle := n, notAfter := BitVec.ofNat 64 (byteNat b 0x20 8), part := p,
                         core := c, age := x.age, prio := x.ceilingPrio, flags := x.flags &&& 0x0B }
      let k := { s.keystone with
        indices := (s.keystone.indices.filter fun e => e.1 != x.serial) ++ [(x.serial, index + 1)]
        tokens := s.keystone.tokens ++ [t] }
      let s := ({ s with keystone := k }).setHandle n { h with state := 2 }
      (index * 2 ^ 16, s.writeVirt c p a.toNat (tokenBytes x h index mins b))
  | _, _ => (1, s)

/-- WRT.SURRENDER: its status; none when the root's surrender ends the context and nothing is written (R375). -/
def State.wrtSurrender (s : State) (p : Nat) (a : Word) : Option Nat × State :=
  let n := natBits a.toNat 0 16
  match (if natBits a.toNat 16 48 = 0 then s.activeHandle p n else none), s.ctx? p with
  | some _, some x => if n = x.handle then (none, s.endContext p 0x0100) else (some 0, s.endHandle n 0)
  | _, _ => (some 1, s)

/-- WRT.QUERY (R376). -/
def State.wrtQuery (s : State) (n : Nat) (a : Word) : Word :=
  if natBits a.toNat 16 48 ≠ 0 then BitVec.allOnes 64
  else match tabGet? s.keystone.handles (natBits a.toNat 0 16) with
    | none => BitVec.allOnes 64
    | some h =>
      let m := match s.ctx? h.part with | some x => if x.age = h.age then x.measure else h.measure | none => h.measure
      let held := if h.state = 1 ∧ h.root = natBits a.toNat 0 16 then (s.coresOf h.part).length else 0
      if n ≥ 8 then m.extractLsb' (64 * (n - 8)) 64
      else match n with
      | 0 => packFields 64 [(0, 8, h.state), (8, 8, h.cls), (16, 5, h.part), (32, 16, h.code)]
      | 1 => h.serial.setWidth 64
      | 2 => (h.serial.extractLsb' 64 64)
      | 3 => h.notAfter
      | 4 => packFields 64 [(0, 16, h.cores), (16, 16, held), (32, 8, h.threads), (40, 8, h.keySlot.getD 0xFF)]
      | 5 => BitVec.ofNat 64 h.memory
      | 6 => packFields 64 [(0, 16, h.l2), (16, 10, h.link)]
      | _ => BitVec.ofNat 64 h.root

/-- A token lapses: its handle's resources return to the device, and its issuer is told (R374, R380). -/
def State.lapse (s : State) (n : Nat) : State :=
  match s.keystone.tokens[n]? with
  | none => s
  | some t =>
    let s := ({ s with keystone := { s.keystone with tokens := listDrop s.keystone.tokens n } }).endHandle t.handle 0
    let who := some (t.part, t.core, t.age)
    (s.toPresenter who (s.eventRecord 3 0 t.handle 0 t.serial t.index)).signalPresenter who

/-! ### CODE.ADMIT and ATTEST (R377) -/

/-- Bytes of an image: its header and the sections it gives (R360). -/
def imageBytes (h : List Byte) : Nat := 64 + byteNat h 8 4 + byteNat h 12 4 + byteNat h 16 4 + byteNat h 20 4
/-- The checks of a buffer at any alignment, line by line, as loads: the trap, and its first failing address (R371). -/
def State.readBad (s : State) (c p va n : Nat) : Option (Nat × Nat × Nat) :=
  (List.range ((va + n + 63) / 64 - va / 64)).findSome? fun i =>
    let a := if i = 0 then va else (va / 64 + i) * 64
    match s.check c p a 1 0 true with
    | .bad _ code second => some (code, second, a)
    | .ok _ => none
/-- The checks of an image: its header, and then all that the header gives (R371, R377). -/
def State.imageBad (s : State) (c p va : Nat) : Option (Nat × Nat × Nat) :=
  match s.readBad c p va 64 with
  | some b => some b
  | none => s.readBad c p va (imageBytes (s.virtBytes c p va 64))

/-- Every page of the sections is unmapped. -/
def State.sectionsFree (s : State) (x : Ctx) (l : List Section) : Bool :=
  l.all fun k => k.bytes.isEmpty || (s.leavesIn x k.va ((k.bytes.length + 4095) / 4096 * 4096)).isEmpty

/-- CODE.ADMIT: its status (R377). -/
def State.codeAdmit (s : State) (p c : Nat) (d a : Word) : Nat × State :=
  match s.ctx? p with
  | none => (1, s)
  | some x =>
    let base := natBits d.toNat 0 48
    if !x.flags.getLsbD 3 then (1, s)
    else
      let read (n : Nat) : Option (List Byte) :=
        let homes := s.virtHomes c p a.toNat n
        if (s.checkRange c p a.toNat n 0).isSome ∨ s.unreadable homes then none else some (homes.map s.homeByte)
      let found (n : Nat) : State := if (s.checkRange c p a.toNat n 0).isSome then s else s.doom (s.virtHomes c p a.toNat n)
      let img := (read 64).bind fun h => read (imageBytes h)
      match img.bind fun b => (readImage b base).map fun l => (b, l) with
      | none => (2, found (match read 64 with | some h => imageBytes h | none => 64))
      | some (b, secs) =>
        if base % 4096 ≠ 0 ∨ !sectionsBelow secs windowBase then (3, s)
        else if !s.sectionsFree x secs then (4, s)
        else if x.used + sectionsCost secs x.mode > x.memory then (5, s)
        else
          let s := secs.foldl (fun s k => s.mapSection p x.mode k) s
          let m := bytesVec (sha512 (natBytes 64 x.measure.toNat ++ sha512 b))
          (0, s.modCtx p fun x => { x with code := codeOf secs :: x.code, measure := m })

/-- The report of ATTEST (R377). -/
def State.report (s : State) (p : Nat) (x : Ctx) (nonce : List Byte) : List Byte :=
  let body := natBytes 4 0x41545354 ++ natBytes 2 1 ++ natBytes 1 Config.deviceId.toNat ++ natBytes 1 p ++
    natBytes 2 Config.podId.toNat ++ natBytes 2 s.host.firmware ++ natBytes 4 0 ++ natBytes 16 x.serial.toNat ++
    natBytes 8 s.trustedTime ++ natBytes 1 (if s.keystone.trusted then 1 else 0) ++ natBytes 1 x.ceiling ++ natBytes 6 0 ++
    natBytes 64 x.measure.toNat ++ nonce ++ natBytes 204 0
  body ++ deviceSigns body

/-- ATTEST: D, with the buffer overwritten by the report (R377). -/
def State.attest (s : State) (p c : Nat) (a : Word) : Nat × State :=
  match s.ctx? p with
  | none => (1, s)
  | some x =>
    let homes := s.virtHomes c p a.toNat 64
    if s.unreadable homes then (1, s.doom homes) else (0, s.writeVirt c p a.toNat (s.report p x (homes.map s.homeByte)))

/-! ### EXPIRY_NOTICE (R164, R378) -/

/-- The notice of a context, on every core that it holds (R164). -/
def State.notice (s : State) (p : Nat) : State :=
  let s := s.modCtx p fun x => { x with noticed := true }
  (s.coresOf p).foldl (fun s c => s.noticeCore p c) s

end Sys2Proof.Machine
end

