-- ==== Sys2Proof/Machine/MemoryOps.lean ====
section
/-! DEFINITION. Loads, stores, prefetch, fences and atomics, majors 0x20 to 0x2D (R113 to R128). Issue forms the
addresses and sets the destination empty; the checks, the arrival and the buffer entry are of the completion cycle. -/
namespace Sys2Proof.Machine

/-- Bytes of a size code (R52). -/
def sizeBytes (sz : BitVec 2) : Nat := 2 ^ sz.toNat
/-- E of a MEM word (R113). -/
def memAddr (a : Word) (off : BitVec 6) (scale : Nat) : Word := a + off.signExtend 64 * BitVec.ofNat 64 scale
/-- Acquire or release scope of a MEM word: 0 stands for DEV (R120). -/
def scopeOf (p : Nat) : Nat := if p = 0 then 5 else p
/-- Function byte of a MEM word (R64). -/
def memFn (sz : BitVec 2) (p : BitVec 3) : Nat := sz.toNat * 8 + p.toNat
/-- A load goes in flight with its destination empty (R32, R116). -/
def State.flyLoad (s : State) (o : Op) (rd : BitVec 7) (kind : LoadKind) (addrs : List Word) (size : Nat) (acq : Option Nat) : State :=
  s.flyTo o [.load (o.entry rd) kind addrs size acq] o.next .none 1 [o.entry rd]
/-- A store goes in flight. -/
def State.flyStore (s : State) (o : Op) (writes : List (Word × List Byte)) (size : Nat) (rel : Option Nat) : State :=
  s.flyTo o [.store writes size rel] o.next .none 1 []
def formLoad (major fn : Nat) (rd ra : BitVec 7) (ta : BitVec 1) : Form :=
  { formRR major fn ra ta with dsts := [(0, rd.toNat)] }
def formStore (major fn : Nat) (rs ra : BitVec 7) (ta : BitVec 1) : Form :=
  { Form.plain major fn with srcs := [srcT 1 ra ta, srcT 0 rs ta], store := true }

/-- ld (R121). -/
def execLd (rd ra : BitVec 7) (sz : BitVec 2) (p : BitVec 3) (ta : BitVec 1) (off : BitVec 6) (s : State) : Res :=
  s.issue (formLoad 0x20 (memFn sz p) rd ra ta) fun o s =>
    s.flyLoad o rd (.zero (sizeBytes sz)) [memAddr (s.rx o ra) off (sizeBytes sz)] (sizeBytes sz) (none)

/-- ldx (R121). -/
def execLdx (rd ra : BitVec 7) (sz : BitVec 2) (p : BitVec 3) (ta : BitVec 1) (off : BitVec 6) (s : State) : Res :=
  s.issue (formLoad 0x21 (memFn sz p) rd ra ta) fun o s =>
    s.flyLoad o rd (.sign (sizeBytes sz)) [memAddr (s.rx o ra) off (sizeBytes sz)] (sizeBytes sz) (none)

/-- ldAcq (R121). -/
def execLdAcq (rd ra : BitVec 7) (sz : BitVec 2) (p : BitVec 3) (ta : BitVec 1) (off : BitVec 6) (s : State) : Res :=
  s.issue (formLoad 0x22 (memFn sz p) rd ra ta) fun o s =>
    s.flyLoad o rd (.zero (sizeBytes sz)) [memAddr (s.rx o ra) off (sizeBytes sz)] (sizeBytes sz) (some (scopeOf p.toNat))

/-- st (R121). -/
def execSt (rs ra : BitVec 7) (sz : BitVec 2) (p : BitVec 3) (ta : BitVec 1) (off : BitVec 6) (s : State) : Res :=
  s.issue (formStore 0x23 (memFn sz p) rs ra ta) fun o s =>
    s.flyStore o [(memAddr (s.rx o ra) off (sizeBytes sz), natBytes (sizeBytes sz) (s.rx o rs).toNat)] (sizeBytes sz) (none)

/-- stRel (R121). -/
def execStRel (rs ra : BitVec 7) (sz : BitVec 2) (p : BitVec 3) (ta : BitVec 1) (off : BitVec 6) (s : State) : Res :=
  s.issue (formStore 0x24 (memFn sz p) rs ra ta) fun o s =>
    s.flyStore o [(memAddr (s.rx o ra) off (sizeBytes sz), natBytes (sizeBytes sz) (s.rx o rs).toNat)] (sizeBytes sz) (some (scopeOf p.toNat))

/-- VLD (R122). -/
def execVld (rd ra : BitVec 7) (p : BitVec 3) (ta : BitVec 1) (off : BitVec 6) (s : State) : Res :=
  s.issue (formLoad 0x25 p.toNat rd ra ta) fun o s => s.flyLoad o rd .line [memAddr (s.rx o ra) off 64] 64 none

/-- VST (R122). -/
def execVst (rs ra : BitVec 7) (p : BitVec 3) (ta : BitVec 1) (off : BitVec 6) (s : State) : Res :=
  s.issue (formStore 0x26 p.toNat rs ra ta) fun o s => s.flyStore o [(memAddr (s.rx o ra) off 64, vecBytes (s.rv o rs))] 64 none

/-- Element addresses of VLDS, and of VGATH and VSCAT (R123). -/
def strideAddrs (a b : Word) : List Word := laneList.map fun i => a + BitVec.ofNat 64 i * b
def gatherAddrs (a : Word) (b : Vec) (sh : Nat) : List Word := laneList.map fun i => a + (lane b i).signExtend 64 <<< sh

/-- VLDS (R123). -/
def execVlds (rd ra rb : BitVec 7) (ta tb : BitVec 1) (s : State) : Res :=
  s.issue { formRRR 0x27 0 ra rb ta tb with dsts := [(0, rd.toNat)] } fun o s =>
    s.flyLoad o rd .lanes (strideAddrs (s.rx o ra) (s.rx o rb)) 4 none

/-- VGATH (R123). -/
def execVgath (rd ra rb : BitVec 7) (sh : BitVec 3) (ta tb : BitVec 1) (s : State) : Res :=
  s.issue { formRRR 0x28 sh.toNat ra rb ta tb with dsts := [(0, rd.toNat)] } fun o s =>
    s.flyLoad o rd .lanes (gatherAddrs (s.rx o ra) (s.rv o rb) sh.toNat) 4 none

/-- VSCAT (R123). -/
def execVscat (rs ra rb : BitVec 7) (sh : BitVec 3) (ta tb : BitVec 1) (s : State) : Res :=
  s.issue { Form.plain 0x29 sh.toNat with srcs := [srcT 1 ra ta, srcT 2 rb tb, srcB 0 rs], store := true } fun o s =>
    s.flyStore o ((gatherAddrs (s.rx o ra) (s.rv o rb) sh.toNat).zip (laneList.map fun i => natBytes 4 (lane (s.rv o rs) i).toNat)) 4 none

/-- PREF (R124): no value, no order, no register. -/
def execPref (ra : BitVec 7) (p : BitVec 3) (ta : BitVec 1) (off : BitVec 6) (s : State) : Res :=
  s.issue (formRR 0x2A p.toNat ra ta) fun o s => s.fly o [.pref (memAddr (s.rx o ra) off 64) p.toNat]

/-- fenceRw (R125). -/
def execFenceRw (p : BitVec 7) (s : State) : Res :=
  s.issue (Form.plain 0x2B 0) fun o s => s.fly o [.fence 0 (scopeOf p.toNat)]

/-- fenceAcq (R125). -/
def execFenceAcq (p : BitVec 7) (s : State) : Res :=
  s.issue (Form.plain 0x2B 1) fun o s => s.fly o [.fence 1 (scopeOf p.toNat)]

/-- fenceRel (R125). -/
def execFenceRel (p : BitVec 7) (s : State) : Res :=
  s.issue (Form.plain 0x2B 2) fun o s => s.fly o [.fence 2 (scopeOf p.toNat)]

/-- fenceSs (R125). -/
def execFenceSs (p : BitVec 7) (s : State) : Res :=
  s.issue (Form.plain 0x2B 3) fun o s => s.fly o [.fence 3 (scopeOf p.toNat)]

/-- AMO.ADD (R127): ta is acquire and tb release. -/
def execAmoAdd (rd ra rb : BitVec 7) (ta tb : BitVec 1) (s : State) : Res :=
  s.issue { Form.plain 0x2C 0 with srcs := [srcB 1 ra, srcB 2 rb], dsts := [(0, rd.toNat)], store := true } fun o s =>
    s.flyTo o [.atomic (o.entry rd) .add (s.rx o ra) (s.rx o rb) 0 (ta == 1#1) (tb == 1#1)] o.next .none 1 [o.entry rd]

/-- AMO.AND (R127): ta is acquire and tb release. -/
def execAmoAnd (rd ra rb : BitVec 7) (ta tb : BitVec 1) (s : State) : Res :=
  s.issue { Form.plain 0x2C 1 with srcs := [srcB 1 ra, srcB 2 rb], dsts := [(0, rd.toNat)], store := true } fun o s =>
    s.flyTo o [.atomic (o.entry rd) .and (s.rx o ra) (s.rx o rb) 0 (ta == 1#1) (tb == 1#1)] o.next .none 1 [o.entry rd]

/-- AMO.OR (R127): ta is acquire and tb release. -/
def execAmoOr (rd ra rb : BitVec 7) (ta tb : BitVec 1) (s : State) : Res :=
  s.issue { Form.plain 0x2C 2 with srcs := [srcB 1 ra, srcB 2 rb], dsts := [(0, rd.toNat)], store := true } fun o s =>
    s.flyTo o [.atomic (o.entry rd) .or (s.rx o ra) (s.rx o rb) 0 (ta == 1#1) (tb == 1#1)] o.next .none 1 [o.entry rd]

/-- AMO.XOR (R127): ta is acquire and tb release. -/
def execAmoXor (rd ra rb : BitVec 7) (ta tb : BitVec 1) (s : State) : Res :=
  s.issue { Form.plain 0x2C 3 with srcs := [srcB 1 ra, srcB 2 rb], dsts := [(0, rd.toNat)], store := true } fun o s =>
    s.flyTo o [.atomic (o.entry rd) .xor (s.rx o ra) (s.rx o rb) 0 (ta == 1#1) (tb == 1#1)] o.next .none 1 [o.entry rd]

/-- AMO.MIN (R127): ta is acquire and tb release. -/
def execAmoMin (rd ra rb : BitVec 7) (ta tb : BitVec 1) (s : State) : Res :=
  s.issue { Form.plain 0x2C 4 with srcs := [srcB 1 ra, srcB 2 rb], dsts := [(0, rd.toNat)], store := true } fun o s =>
    s.flyTo o [.atomic (o.entry rd) .min (s.rx o ra) (s.rx o rb) 0 (ta == 1#1) (tb == 1#1)] o.next .none 1 [o.entry rd]

/-- AMO.MAX (R127): ta is acquire and tb release. -/
def execAmoMax (rd ra rb : BitVec 7) (ta tb : BitVec 1) (s : State) : Res :=
  s.issue { Form.plain 0x2C 5 with srcs := [srcB 1 ra, srcB 2 rb], dsts := [(0, rd.toNat)], store := true } fun o s =>
    s.flyTo o [.atomic (o.entry rd) .max (s.rx o ra) (s.rx o rb) 0 (ta == 1#1) (tb == 1#1)] o.next .none 1 [o.entry rd]

/-- AMO.SWP (R127): ta is acquire and tb release. -/
def execAmoSwp (rd ra rb : BitVec 7) (ta tb : BitVec 1) (s : State) : Res :=
  s.issue { Form.plain 0x2C 6 with srcs := [srcB 1 ra, srcB 2 rb], dsts := [(0, rd.toNat)], store := true } fun o s =>
    s.flyTo o [.atomic (o.entry rd) .swp (s.rx o ra) (s.rx o rb) 0 (ta == 1#1) (tb == 1#1)] o.next .none 1 [o.entry rd]

/-- CAS (R128). -/
def execCas (rd ra rb : BitVec 7) (rc : BitVec 5) (s : State) : Res :=
  s.issue { formRRRR 0x2D ra rb rc with dsts := [(0, rd.toNat)], store := true } fun o s =>
    s.flyTo o [.atomic (o.entry rd) .cas (s.rx o ra) (s.rx o rb) (s.rx o (rc.setWidth 7)) true true] o.next .none 1 [o.entry rd]

end Sys2Proof.Machine
end

