-- ==== Sys2Proof/Machine/Checker.lean ====
section
/-! DEFINITION. Blocks: the signature table, where a block ends, and the checker's comparison (R62 to R64, R151, R152,
R314 to R316). -/
namespace Sys2Proof.Machine

/-- The code section that holds an address (R360). -/
def State.sectionAt (s : State) (p pc : Nat) : Option Code :=
  (s.ctx? p).bind fun x => x.code.find? fun k => decide (k.base ≤ pc) && decide (pc < k.base + k.text)

/-- An entry of a signature table (R63). -/
structure BlockEntry where
  off : Nat
  count : Nat
  stores : Nat
  kind : Nat
  notTaken : Nat
  taken : Nat
  deriving DecidableEq, Repr

/-- Entry n of a section's table, read through the fetch path. -/
def State.blockEntry (s : State) (p : Nat) (k : Code) (n : Nat) : Option BlockEntry :=
  match s.fetchBytes p (k.table + 16 * n) 16 with
  | .ok b =>
    let at_ (o l : Nat) : Nat := bytesNat ((b.drop o).take l)
    some { off := at_ 0 4, count := at_ 4 1, stores := at_ 5 1, kind := at_ 6 1, notTaken := at_ 8 2, taken := at_ 10 2 }
  | _ => none

/-- Entries of a section's table that a test picks. -/
def State.blockFind (s : State) (p : Nat) (k : Code) (f : BlockEntry → Bool) : Option BlockEntry :=
  (List.range (k.tableBytes / 16)).findSome? fun n => (s.blockEntry p k n).bind fun e => if f e then some e else none

/-- Address of the last of `n` instructions from an address, a ONCE pair counting as one (R314). -/
def State.lastOf (s : State) (p : Nat) : Nat → Nat → Nat
  | 0, pc => pc
  | 1, pc => pc
  | n + 1, pc => s.lastOf p n (pc + if s.wordAt p pc = oncePrefix then 8 else 4)

/-- A thread that completes an instruction. -/
structure Done where
  c : Nat
  sl : Nat
  p : Nat
  t : Thread
  f : Flight
  deriving DecidableEq, Repr

/-- Address of the completing word: the second one of a pair (R91). -/
def Done.last (d : Done) : Addr := d.t.pc + if d.f.pair.isSome then 4 else 0

/-- The instruction is the last one of a block (R151): by the section's table; in code with an empty table a word of
majors 0x17 to 0x1D, THR.STOP of the issuer, or the last word of an active loop level's body. -/
def State.blockEnds (s : State) (d : Done) : Bool :=
  match s.sectionAt d.p d.t.pc.toNat with
  | some k =>
    if k.tableBytes > 0 then
      let off := d.t.pc.toNat - k.base
      (s.blockFind d.p k fun e => decide (e.off ≤ off) && decide (off < e.off + 8 * e.count) &&
        s.lastOf d.p e.count (k.base + e.off) == d.t.pc.toNat).isSome
    else plainEnd
  | none => plainEnd
where
  plainEnd : Bool :=
    (decide (0x17 ≤ d.f.major) && decide (d.f.major ≤ 0x1D)) || d.f.ends || d.t.loopEndsAt d.last

/-- What the checker finds at an instruction. -/
inductive Verdict where
  /-- Nothing to compare: the new track. -/
  | goes (k : Option Check)
  /-- The comparison failed: the block's first word, expected and observed CRC, and whether an injection did it. -/
  | fails (block expected observed : Nat) (injected : Bool)
  deriving DecidableEq, Repr

/-- The checker's step at a completing instruction, with the outcome of a two-way exit (R314, R315, R327). -/
def State.checkStep (s : State) (d : Done) (outcome : Bool) : Verdict :=
  match s.sectionAt d.p d.t.pc.toNat with
  | none => .goes none
  | some k =>
    if k.tableBytes = 0 then .goes none
    else
      let off := d.t.pc.toNat - k.base
      let cur := match d.t.check with
        | some x => some x
        | none =>
          match s.blockFind d.p k fun e => e.off == off with
          | some _ => some { text := BitVec.ofNat 48 k.base, entry := off, count := 0, stores := 0, crc := 0xFFFF }
          | none => none
      match cur with
      | none => .goes none
      | some x =>
        match s.blockFind d.p k fun e => e.off == x.entry with
        | none => .goes none
        | some e =>
          let crc := d.f.sig.foldl crc16Byte x.crc
          let stores := x.stores + if d.f.store then 1 else 0
          if x.count + 1 < e.count then .goes (some { x with count := x.count + 1, stores := stores, crc := crc })
          else
            let taken := e.kind == 2 || (e.kind == 1 && outcome)
            let inj := d.t.mismatch
            let last : Byte := (if taken then 1 else 0) ^^^ (if inj then 0x80 else 0)
            let seen := (crc16Byte crc last).toNat
            let want := if taken then e.taken else e.notTaken
            if seen = want ∧ stores ≤ e.stores then .goes none else .fails (k.base + x.entry) want seen inj

end Sys2Proof.Machine
end

