-- ==== Sys2Proof/Machine/ContextArea.lean ====
section
/-! DEFINITION. What the context area of a partition holds, byte for byte: saved context records and core images with their
CRC-32C, and the bindings inside them (R170, R193, R226, R297, R303). -/
namespace Sys2Proof.Machine

/-- A list of bytes as a little-endian field, and a run of zero bytes. -/
def zeroBytes (n : Nat) : List Byte := List.replicate n 0
/-- Bits as bytes, the first the least significant (R14). -/
def bitBytes (n : Nat) (l : List Bool) : List Byte := natBytes n (l.foldr (fun b acc => (if b then 1 else 0) + 2 * acc) 0)

/-- The per-thread gang and fork bits, sr.thread[39:32] (R39). -/
def Thread.upper (t : Thread) : Nat :=
  t.gangMask.toNat + 16 * t.gangPos.toNat + (if t.coupled then 64 else 0) + if t.forkInline then 128 else 0

/-- The saved binding of a task channel; the feeder-killed flag is the channel's (R297, R319). -/
def bindingBytes (x : Ctx) (b : Option Binding) : List Byte :=
  match b with
  | none => zeroBytes 16
  | some b =>
    let fed : Bool := match tabGet? x.chans (b.graph * 256 + b.chan) with | some h => h.killed.isSome | none => false
    natBytes 1 b.chan ++ natBytes 1 b.dir ++ natBytes 1 b.depth ++ bitBytes 1 [b.ended, fed] ++ natBytes 1 b.graph ++ zeroBytes 11
/-- The saved binding of a stream register (R193). -/
def streamBytes (b : Option Stream) : List Byte :=
  match b with
  | none => zeroBytes 16
  | some b => natBytes 2 b.seq ++ bitBytes 1 [true, b.ended, b.faulted] ++ natBytes 1 b.esz ++ natBytes 4 b.k ++ zeroBytes 8

/-- State at save (R170). -/
def SlotState.saveCode : SlotState → Nat
  | .blocked _ => 1
  | .parked _ => 2
  | .trapped _ => 3
  | _ => 0

def loopBytes (l : Loop) : List Byte := natBytes 8 l.start.toNat ++ natBytes 8 l.stop.toNat ++ natBytes 8 l.count.toNat

/-- Bytes 0x000 to 0x1FB of a saved record's header (R170). -/
def Saved.head (v : Saved) (x : Ctx) : List Byte :=
  let t := v.thread
  let armed (a : Option Nat) : List Byte := natBytes 1 (match a with | some e => e - t.base | none => 0)
  let trap : List Byte := match t.state, v.trap with | .trapped _, some r => vecBytes r | _, _ => zeroBytes 64
  natBytes 2 v.layout ++ natBytes 1 v.slot ++ natBytes 1 t.state.saveCode ++ natBytes 2 v.origin ++ natBytes 2 v.record ++
  natBytes 8 t.pc.toNat ++ natBytes 8 t.lk.toNat ++ loopBytes t.lp0 ++ loopBytes t.lp1 ++ bitBytes 1 [t.lp0.active, t.lp1.active] ++
  natBytes 1 (t.size / 8) ++ natBytes 2 t.base ++ zeroBytes 4 ++ natBytes 8 t.fflags.toNat ++
  (zeroBytes 4 ++ natBytes 1 t.upper ++ zeroBytes 3) ++ natBytes 8 (t.notify.getD 0).toNat ++
  bitBytes 1 [t.notify.isSome, t.armNbr.isSome, t.armNtf.isSome] ++ armed t.armNbr ++ armed t.armNtf ++ zeroBytes 5 ++ trap ++
  bitBytes 16 (v.image.map (·.full)) ++ bitBytes 16 (v.image.map (·.poison)) ++
  (List.range 8).flatMap (fun i => bindingBytes x (tabGet? t.chans i)) ++
  (List.range 8).flatMap (fun i => streamBytes (tabGet? t.streams i)) ++ zeroBytes 44

/-- A saved context record: the header, its CRC-32C, and the window image, w0 first (R170). -/
def Saved.bytes (v : Saved) (x : Ctx) : List Byte :=
  let image := v.image.flatMap fun r => vecBytes r.val
  let head := v.head x
  head ++ natBytes 4 (crc32c (head ++ image)).toNat ++ image

/-! ### Core images (R303) -/

/-- A rule image of a table, with its CRC-32C (R226). -/
def rulesBytes (l : List (BitVec 1536)) : List Byte :=
  let head := natBytes 4 0x5257544C ++ natBytes 2 1 ++ natBytes 2 l.length ++ zeroBytes 52
  let body := l.flatMap fun r => natBytes 192 r.toNat
  head ++ natBytes 4 (crc32c (head ++ body)).toNat ++ body
/-- A list of bytes with zeros after it, to a length. -/
def padTo (n : Nat) (l : List Byte) : List Byte := l ++ zeroBytes (n - l.length)

/-- Contents of a core image from 0x40 on (R303). Where a field stands in an entry of the landing queue and of the deque is a
DESIGN CHOICE, the spec names only their order and sizes (log 100). -/
def Image.body (m : Image) : List Byte :=
  (List.range 16).flatMap (fun i => match tabGet? m.counters i with
    | some k => natBytes 2 k.count ++ natBytes 2 k.threshold ++ bitBytes 1 [k.overflow] ++ zeroBytes 3
    | none => zeroBytes 8) ++
  (List.range 16).flatMap (fun i => match tabGet? m.terms i with
    | some k => natBytes 2 k.m0.toNat ++ natBytes 2 k.m1.toNat ++ bitBytes 1 [k.armed] ++ zeroBytes 3
    | none => zeroBytes 8) ++
  (List.range 8192).flatMap (fun i => natBytes 4 (tabGet m.tiles i 0).toNat) ++
  padTo 12352 (rulesBytes m.rules) ++
  padTo 1280 (m.landing.flatMap fun l => vecBytes (l.val.getD 0) ++ natBytes 1 l.slot ++ natBytes 1 l.reg ++ natBytes 2 l.from_ ++ zeroBytes 12) ++
  padTo 2048 (m.deque.flatMap fun d => natBytes 8 d.arm.toNat ++ natBytes 8 d.counter.toNat ++ natBytes 2 d.base ++ natBytes 1 d.size ++
    natBytes 1 d.part ++ natBytes 2 d.launch ++ natBytes 2 d.core ++ zeroBytes 8) ++
  (List.range (m.steps * 0x10000)).map (fun i => tabGet m.scratch i 0)

/-- A core image: its header with the CRC-32C of the whole, and its contents (R303). -/
def Image.bytes (m : Image) : List Byte :=
  let head := natBytes 2 1 ++ natBytes 1 m.steps ++ natBytes 1 m.rules.length ++ natBytes 1 m.landing.length ++
    natBytes 1 m.deque.length ++ zeroBytes 54
  let body := m.body
  head ++ natBytes 4 (crc32c (head ++ body)).toNat ++ body

end Sys2Proof.Machine
end

