-- ==== Sys2Proof/Machine/Swap.lean ====
section
/-! DEFINITION. Starting a thread in a slot, swapping one out into a saved record, and restoring it (R138, R169 to R172, R296). -/
namespace Sys2Proof.Machine

/-- A thread as it starts (R138, R296): everything else is at its start value. -/
def Thread.start (uid : Nat) (pc : Addr) (base size launch : Nat) (at_ : Nat) : Thread :=
  { uid := uid, state := .ready, readyAt := at_, pc := pc, lk := 0, lp0 := Loop.reset, lp1 := Loop.reset, fflags := 0,
    forkInline := false, coupled := false, gangPos := 0, gangMask := 0, base := base, size := size, launch := launch,
    handler := false, chans := [], streams := [], buffer := [], notify := none, armNbr := none, armNtf := none,
    kept := false, mismatch := false, forward := none, outcome := none, after := none, check := none, roundStep := none }

/-- Place a thread in a slot with a new identity. -/
def State.placeThread (s : State) (c sl : Nat) (t : Thread) : State :=
  { s.setThread c sl { t with uid := s.uid } with uid := s.uid + 1 }

/-- One more unit of a launch (R138, R292). -/
def State.addUnit (s : State) (p id : Nat) : State :=
  s.modCtx p fun x => match tabGet? x.launches id with
    | some l => { x with launches := tabSet x.launches id { l with counter := l.counter + 1 } }
    | none => x

/-- The lowest FREE slot from 0 to 62 (R138). -/
def State.lowestFree (s : State) (c : Nat) : Option Nat := (List.range 63).find? fun sl => (s.thread? c sl).isNone

/-- Windows overlap. -/
def windowsMeet (b1 n1 b2 n2 : Nat) : Bool := decide (b1 < b2 + n2) && decide (b2 < b1 + n1)

/-- The lowest base, a multiple of 8, for a window that overlaps none of the windows taken (R296). -/
def lowestBase (size : Nat) (taken : List (Nat × Nat)) : Option Nat :=
  (List.range 256).findSome? fun i =>
    if 8 * i + size ≤ 2048 && taken.all fun w => !windowsMeet (8 * i) size w.1 w.2 then some (8 * i) else none
/-- The lowest base for a window that overlaps no live window of the core and none already given (R40, R296). -/
def State.freeBase (s : State) (c size : Nat) (given : List (Nat × Nat)) : Option Nat :=
  lowestBase size (given ++ (s.threadsOf c).map fun e => (e.2.base, e.2.size))

/-! ### Swapping out (R169 to R171) -/

/-- Bytes of a saved record, and of the thread-context cache (R170, R45). -/
def recordBytes (size : Nat) : Nat := 512 + 64 * size
def contextCacheBytes : Nat := 0x20000

/-- The next record number from n on that is not among those in use (R171). -/
def freeRecord (used : List Nat) : Nat → Nat → Nat
  | 0, n => n
  | fuel + 1, n => if used.contains (n % 2 ^ 16) then freeRecord used fuel (n + 1) else n % 2 ^ 16

/-- Keep the newest records of a core that fit the cache; older ones are spilled whole (R171): newest first. -/
def spillGo (c : Nat) : Nat → List Saved → List Saved
  | _, [] => []
  | room, v :: rest =>
    if v.core = c ∧ v.cached then
      if recordBytes v.thread.size ≤ room then v :: spillGo c (room - recordBytes v.thread.size) rest
      else { v with cached := false } :: spillGo c 0 rest
    else v :: spillGo c room rest

/-- Each newly spilled record takes the lowest free place of the context area, which has one for every thread slot of the grant (R171,
R367). -/
def placeSpilled (l : List Saved) : List Saved :=
  l.foldl (fun (acc : List Saved) v =>
    if v.cached ∨ v.place.isSome then acc
    else
      let used := acc.filterMap (·.place)
      acc.map fun w => if w.record = v.record then { w with place := (List.range (used.length + 1)).find? fun i => !used.contains i } else w) l

/-- Save a thread's context under a record number and empty its slot in 8 + size/2 cycles (R169). `trap` is the unpopped
trap record of a TRAPPED thread. -/
def State.saveThread (s : State) (c sl record : Nat) (asked : Bool) (trap : Option Vec) : State :=
  match s.thread? c sl, (s.core c).part with
  | some t0, some p =>
    let s := ((s.uncouple c sl false).commit c sl).flushThread c t0.uid
    match s.thread? c sl with
    | none => s
    | some t =>
      let regs := (List.range t.size).map fun i => s.regAt c (t.base + i)
      let s := s.correctRegs c ((List.range t.size).map fun i => t.base + i)
      let s := if regs.any fun r => decide (2 ≤ r.flips) then s.doomCore c (errorKill 0 true) else s
      let image := regs.map fun r => { r with flips := 0 }
      let v : Saved := { record := record, origin := c, core := c, slot := sl, thread := { t with after := none, check := none },
                         image := image, trap := trap, layout := 1, cached := true, place := none, bad := false, asked := asked,
                         moved := (s.core c).moving }
      let s := s.modCtx p fun x =>
        { x with saved := placeSpilled (spillGo c contextCacheBytes (x.saved ++ [v]).reverse).reverse, nextRecord := (record + 1) % 2 ^ 16 }
      s.setThread c sl { t with state := .leaving record (s.cycle + 8 + t.size / 2), after := none }
  | _, _ => s

/-- The record number that a thread in flight has been given for its swap out. -/
def Thread.reserved (t : Thread) : Option Nat := match t.after with | some (.swap r _) => some r | _ => none
/-- A record number for the next saved context of a partition: those of saved records and those given to threads that are to
be swapped out are in use (R171). -/
def State.nextRecord (s : State) (p : Nat) : Nat :=
  match s.ctx? p with
  | some x =>
    let given := s.threads.filterMap fun e => if (s.core (e.1 / 64)).part == some p then e.2.reserved else none
    freeRecord (x.saved.map (·.record) ++ given) 65536 x.nextRecord
  | none => 0

/-- A record number is kept for a thread that is swapped once its instruction completes. -/
def State.reserveRecord (s : State) (p : Nat) : Nat × State :=
  let n := s.nextRecord p
  (n, s.modCtx p fun x => { x with nextRecord := (n + 1) % 2 ^ 16 })

/-- The slot becomes FREE when the record's write ends (R169). -/
def State.freeLeft (s : State) : State :=
  { s with threads := s.threads.filter fun e => match e.2.state with | .leaving _ u => decide (s.cycle < u) | _ => true
           dispatch := s.dispatch || s.threads.any fun e => match e.2.state with | .leaving _ u => decide (u ≤ s.cycle) | _ => false }

/-! ### Restoring (R172) -/

/-- The outstanding accesses of a thread follow it to the core on which it is restored. -/
def State.rehome (s : State) (uid c : Nat) : State :=
  { s with arrivals := s.arrivals.map fun a => if a.uid = uid then { a with core := c } else a
           posts := s.posts.map fun q =>
             let q := if q.uid = uid then { q with dest := { q.dest with core := c } } else q
             if q.src = uid then { q with leader := c } else q }

/-- A saved record is gone from its context. -/
def State.dropSaved (s : State) (p record : Nat) : State :=
  { s.modCtx p (fun x => { x with
      saved := x.saved.filter fun w => w.record != record
      images := x.images.map fun m => { m with records := m.records.filter (· != record) } }) with dispatch := true }
/-- A saved thread is lost with its record: its streams are released, and its unit ends with DATA_LOST (R171, R303). -/
def State.loseSaved (s : State) (p record : Nat) : State :=
  match (s.ctx? p).bind fun x => x.saved.find? fun v => v.record == record with
  | none => s
  | some v =>
    let s := v.thread.streams.foldl (fun s b => s.dropStream b.2) (((s.dropSaved p record).markGone v.thread.uid).orphanPosts v.thread.uid)
    if v.thread.handler then s else s.unitEnd p v.thread.launch 0x0E 0 none

/-- Where the records of a context's area begin, and a spilled record among them, by its place: a DESIGN CHOICE, the spec gives no
addresses (log 113). They lie among the bytes that the firmware reserves (R265). -/
def recordArea (p : Nat) : Nat := Config.hbmBytes - 2 ^ 35 + p * 2 ^ 30
def Saved.home (v : Saved) (p : Nat) : Nat := recordArea p + v.place.getD 0 * recordBytes 128
/-- A spilled record stands in memory whole, and what lands in it afterwards is written there (R171, R172). -/
def State.writeSpilled (s : State) : State :=
  s.ctxs.foldl (fun s e => (e.2.saved.filter fun v => !v.cached).foldl (fun s v =>
    let b := v.bytes e.2
    let a := v.home e.1
    if s.homeBytes a b.length = b then s else s.applyWrites (((List.range b.length).map fun i => a + i).zip b)) s) s
/-- A record that is read back is good: no uncorrectable error was found in the cache, or the CRC-32C of what memory holds agrees
(R171, R276, R312). -/
def State.savedGood (s : State) (p : Nat) (v : Saved) : Bool :=
  !v.bad && (v.cached ||
    (let a := v.home p
     let b := s.homeBytes a (recordBytes v.thread.size)
     (s.homeLost ((List.range (recordBytes v.thread.size)).map fun i => a + i)).isNone &&
       crc32c (b.take 0x1FC ++ b.drop 0x200) == BitVec.ofNat 32 (bytesNat ((b.drop 0x1FC).take 4))))

/-- Restore a saved record into a slot of a core: entries outside every live window are written back; a saved state of
BLOCKED or PARKED becomes READY at the blocked instruction; a trap record re-enters q6 (R172). A record that fails its
CRC is not restored, and its unit is lost (R171). Values that wait in a landing queue for the slot it was saved from stay
there when THR.SWAP.IN restores it elsewhere: a DESIGN CHOICE (log 96). -/
def State.restoreThread (s : State) (p : Nat) (v : Saved) (c sl : Nat) : State :=
  if !s.savedGood p v then s.loseSaved p v.record
  else
    let t := v.thread
    let s := (List.range v.image.length).foldl (fun s i =>
      match v.image[i]? with
      | some r => if s.liveWindow c (t.base + i) then s else s.setReg c (t.base + i) { r with zf := zeroFlags r.val }
      | none => s) (s.dropSaved p v.record)
    let st := match t.state with | .trapped x => SlotState.trapped x | _ => .ready
    let s := (s.rehome t.uid c).setThread c sl { t with state := st, readyAt := s.cycle + 1 }
    let s := s.modCtx p fun x => match tabGet? x.launches t.launch with
      | some l => if l.site = some (v.core, v.slot) ∧ recKind l.record = 2 then
          { x with launches := tabSet x.launches t.launch { l with site := some (c, sl) } } else x
      | none => x
    match v.trap with
    | some r => s.modCore c fun k =>
        let body : Vec := packBytes 512 [(0, 6, fieldAt r 0 6), (6, 2, k.q6seq), (8, 52, fieldAt r 8 52)]
        { k with q6 := k.q6 ++ [sealVec body], q6seq := (k.q6seq + 1) % 2 ^ 16 }
    | none => s

end Sys2Proof.Machine
end

