-- ==== Sys2Proof/Machine/Messages.lean ====
section
/-! DEFINITION. Active messages: the handler table, sending, arrival, and the message thread (R173, R345 to R347). -/
namespace Sys2Proof.Machine

/-- Is a link message a send of a core of this device? -/
def sentBy (c : Nat) : LinkMessage → Bool
  | .active dev core _ _ _ _ _ => dev == Config.deviceId.toNat && core == c
  | _ => false
/-- Sends of a core still outstanding (R346). -/
def State.sendsOf (s : State) (c : Nat) : Nat :=
  (s.messages.countP fun m => m.dev == Config.deviceId.toNat && m.core == c) +
  (s.ports.foldl (fun n e => n + e.2.outbox.countP (sentBy c) + e.2.replay.countP fun r => sentBy c r.message) 0)

/-- AM.SEND: the release, then the payload is handed over (R346). -/
def State.amSend (s : State) (c sl p order : Nat) (d : Word) (v : Vec) : State :=
  let s := s.releaseAt c sl 6
  let dev := natBits d.toNat 0 8
  let core := natBits d.toNat 8 10
  let h := natBits d.toNat 24 6
  if dev = Config.deviceId.toNat then
    { s with messages := s.messages ++ [{ dev := dev, core := c, slot := sl, target := core, handler := h, payload := v, part := p, order := order }] }
  else match s.ctx? p with
    | some x => s.sendLink dev (.active Config.deviceId.toNat c sl core h x.serial v)
    | none => s

/-- A handler runs in slot 63 (R345): it holds a thread that has not been abandoned. -/
def State.handlerRuns (s : State) (c : Nat) : Bool :=
  match s.thread? c 63 with
  | some t => match t.state with | .trapped _ => false | _ => true
  | none => false

/-- AM.HANDLER (R345). -/
def State.amHandler (s : State) (c p : Nat) (a : Word) : Nat × State :=
  let va := natBits a.toNat 0 48
  let base := natBits a.toNat 48 8 * 8
  let size := (natBits a.toNat 56 4 + 1) * 8
  let homes := s.virtHomes c p va 512
  let table : List Word := (chunks 8 (homes.map s.homeByte)).map fun b => BitVec.ofNat 64 (bytesNat b)
  if va % 64 ≠ 0 ∨ natBits a.toNat 60 4 ≠ 0 ∨ (s.checkRange c p va 512 0).isSome then (1, s)
  else if s.unreadable homes then (1, s.doom homes)
  else if table.any fun (w : Word) => w.toNat % 4 != 0 then (1, s)
  else if base + size > 2048 then (2, s)
  else (0, s.modCore c fun k => { k with handlers := some (table, base, size) })

/-- A message reaches its core: discarded at a killed core or without a handler, diverted when its context is not
resident, to the core that has taken over the context's state on it if there is one, else queued (R173, R347; log 101). -/
def State.amArrive (s : State) (n : Nat) : State :=
  match s.messages[n]? with
  | none => s
  | some m =>
    let s' := { s with messages := listDrop s.messages n }
    let k := s.core m.target
    if k.fenced then s'.countSealed m.target
    else if k.part ≠ some m.part then s'.modCtx m.part fun x => { x with diverted := x.diverted ++ [{ m with target := tabGet x.moved m.target m.target }] }
    else match k.handlers with
      | none => s'.modCore m.target fun k => { k with nlost := k.nlost + 1 }
      | some (t, _, _) =>
        if t.getD m.handler 0 = 0 then s'.modCore m.target fun k => { k with nlost := k.nlost + 1 }
        else s'.modCore m.target fun k => { k with arrivals := k.arrivals ++ [m] }

/-- A message may arrive: its place has room, and no earlier one of its pair, from its device to its core, is still on its way
(R173, R291, R347); diverted messages of the context are replayed first (R173). -/
def State.mayArriveMessage (s : State) (n : Nat) : Bool :=
  match s.messages[n]? with
  | none => false
  | some m =>
    let k := s.core m.target
    (s.messages.take n).all (fun b => !(b.dev == m.dev && b.target == m.target)) &&
    (if k.fenced then true
     else if k.part = some m.part then
       decide (k.arrivals.length < 64) && (match s.ctx? m.part with | some x => x.diverted.all fun d => d.target != m.target | none => true)
     else match s.ctx? m.part with | some x => decide (x.buffered < 512) | none => true)

/-- The message buffer of the context has room for the messages that wait on a core (R173). -/
def State.divertRoom (s : State) (c : Nat) : Bool :=
  match (s.core c).part.bind s.ctx? with
  | some x => decide (x.buffered + (s.core c).arrivals.length ≤ 512)
  | none => true

/-- w1 of a handler (R347). -/
def messageWord (m : Message) : Word := BitVec.ofNat 64 (m.dev + m.core * 2 ^ 8 + m.slot * 2 ^ 24 + m.handler * 2 ^ 32)

/-- Slot 63 can take a message: it is idle, or abandoned with its record popped (R347). -/
def State.slotIdle (s : State) (c : Nat) : Bool :=
  match s.thread? c 63 with
  | none => true
  | some t => match t.state with
    | .trapped _ => !(s.core c).q6.any (fun r => fieldAt r 2 1 == 63) && !s.traps.any fun r => r.core == c && r.slot == 63
    | _ => false

/-- A message waits on a core that takes it up now: a core that is being moved takes none while the message buffer has room for
those that wait (R173, R302, R347). -/
def State.mayStartHandler (s : State) (c : Nat) : Bool :=
  let k := s.core c
  !k.arrivals.isEmpty && s.slotIdle c && !(k.moving && s.divertRoom c)
/-- The message thread takes the oldest message: its handlers are one thread, with one identity (R291, R347). -/
def State.amStart (s : State) (c : Nat) : State :=
  match (s.core c).arrivals with
  | [] => s
  | m :: rest =>
    if !s.mayStartHandler c then s
    else
      let s := s.modCore c fun k => { k with arrivals := rest }
      match (s.core c).handlers with
      | none => s.modCore c fun k => { k with nlost := k.nlost + 1 }
      | some (t, base, size) =>
        let pc := (t.getD m.handler 0).setWidth 48
        if pc = 0 then s.modCore c fun k => { k with nlost := k.nlost + 1 }
        else
          let s := if (s.core c).messageUid = 0 then { s.modCore c (fun k => { k with messageUid := s.uid }) with uid := s.uid + 1 } else s
          let t := { Thread.start (s.core c).messageUid pc base size 0 (s.cycle + 1) with handler := true }
          let s := (s.freeSlot c 63).setThread c 63 t
          (s.writeReg c base m.payload).writeReg c (base + 1) (widen (messageWord m))

/-- A diverted message is replayed to the core its context holds again (R173). -/
def State.replayDiverted (s : State) (p : Nat) : State :=
  match s.ctx? p with
  | none => s
  | some x =>
    match x.diverted.findIdx? fun m => (s.core m.target).part == some p && decide ((s.core m.target).arrivals.length < 64) with
    | none => s
    | some i =>
      match x.diverted[i]? with
      | none => s
      | some m =>
        let s := s.setCtx p { x with diverted := listDrop x.diverted i }
        match (s.core m.target).handlers with
        | none => s.modCore m.target fun k => { k with nlost := k.nlost + 1 }
        | some (t, _, _) =>
          if t.getD m.handler 0 = 0 then s.modCore m.target fun k => { k with nlost := k.nlost + 1 }
          else s.modCore m.target fun k => { k with arrivals := k.arrivals ++ [m] }
/-- Some diverted message can be replayed now. -/
def State.mayReplayDiverted (s : State) (p : Nat) : Bool :=
  match s.ctx? p with
  | some x => x.diverted.any fun m => (s.core m.target).part == some p && decide ((s.core m.target).arrivals.length < 64)
  | none => false

end Sys2Proof.Machine
end

