-- ==== Sys2Proof/Machine/Rules.lean ====
section
/-! DEFINITION. Rule images and the rewrite ceiling: the checks of RWT.LOAD and the effect of RWT.CTL (R225 to R228,
R230, R257, R258). -/
namespace Sys2Proof.Machine

/-- The tile opcodes (R214). -/
def tileOpcodes : List Nat :=
  [0x01, 0x02, 0x03, 0x10, 0x11, 0x12, 0x13, 0x14, 0x15, 0x16, 0x17, 0x18, 0x19, 0x20, 0x21, 0x30, 0x31, 0x32, 0x33, 0x34, 0x3F]

/-- Codes of R227 that yield a value, and those that name a range. -/
def valueCode (c : Nat) : Bool :=
  (decide (1 ≤ c) && decide (c ≤ 4)) || (decide (0x08 ≤ c) && decide (c ≤ 0x18)) || (decide (0x20 ≤ c) && decide (c ≤ 0x29))
def rangeCode (c : Nat) : Bool := decide (0x30 ≤ c) && decide (c ≤ 0x34)

/-- A relation record (R228). -/
structure Relation where
  kind : Nat
  slotA : Nat
  codeA : Nat
  slotB : Nat
  codeB : Nat
  const : Nat
  deriving DecidableEq, Repr

/-- A mapping record (R228): operand bytes as slot and code, and as a constant. -/
structure Mapping where
  target : Nat
  kind : Nat
  slot : Nat
  code : Nat
  const : Nat
  deriving DecidableEq, Repr

/-- A rule entry (R226). -/
abbrev Rule := BitVec 1536
def ruleId (r : Rule) : Nat := fieldAt r 0 1
def ruleClass (r : Rule) : Nat := fieldAt r 1 1
def ruleP (r : Rule) : Nat := fieldAt r 2 1
def ruleQ (r : Rule) : Nat := fieldAt r 3 1
def ruleGuard (r : Rule) : Nat := fieldAt r 4 1
def ruleOpcode (r : Rule) (j : Nat) : Nat := fieldAt r (8 + j) 1

def ruleRelation (r : Rule) (i : Nat) : Relation :=
  let o := 0x10 + 8 * i
  { kind := fieldAt r o 1, slotA := fieldAt r (o + 1) 1, codeA := fieldAt r (o + 2) 1, slotB := fieldAt r (o + 3) 1,
    codeB := fieldAt r (o + 4) 1, const := fieldAt r (o + 6) 2 }
/-- The relations before the first of kind 0. -/
def ruleRelations (r : Rule) : List Relation := ((List.range 12).map (ruleRelation r)).takeWhile fun x => x.kind != 0

def ruleMapping (r : Rule) (q i : Nat) : Mapping :=
  let o := 0x70 + 40 * q + 8 + 4 * i
  { target := fieldAt r o 1, kind := fieldAt r (o + 1) 1, slot := fieldAt r (o + 2) 1, code := fieldAt r (o + 3) 1,
    const := fieldAt r (o + 2) 2 }
/-- The mappings of a replacement before the first of kind 0. -/
def ruleMappings (r : Rule) (q : Nat) : List Mapping := ((List.range 8).map (ruleMapping r q)).takeWhile fun x => x.kind != 0
/-- Source slot and opcode of a replacement. -/
def ruleSource (r : Rule) (q : Nat) : Nat := fieldAt r (0x70 + 40 * q) 1
def ruleNewOpcode (r : Rule) (q : Nat) : Nat := fieldAt r (0x70 + 40 * q + 1) 1

/-- A relation record is valid in a rule of P slots (R227, R228). -/
def Relation.valid (x : Relation) (p : Nat) : Bool :=
  decide (x.slotA < p) &&
  (match x.kind with
   | 1 => decide (x.slotB < p) && valueCode x.codeA && valueCode x.codeB
   | 2 => valueCode x.codeA && x.slotB == 0 && x.codeB == 0
   | 3 => decide (x.slotB < p) && rangeCode x.codeA && rangeCode x.codeB
   | 4 => decide (x.slotB < p) && rangeCode x.codeA && rangeCode x.codeB
   | 5 => valueCode x.codeA
   | _ => false)

/-- A mapping record is valid (R227, R228). -/
def Mapping.valid (m : Mapping) (p : Nat) : Bool :=
  valueCode m.target &&
  (match m.kind with
   | 1 => decide (m.slot < p) && valueCode m.code
   | 2 => true
   | 3 => decide (m.slot < p) && valueCode m.code
   | 4 => decide (m.slot < p) && valueCode m.code && (m.target == 0x28 || m.target == 0x29)
   | _ => false)

/-- A rule entry is valid by itself (R226 to R228). -/
def ruleValid (r : Rule) : Bool :=
  let p := ruleP r
  let rels := ruleRelations r
  decide (ruleId r < 64) && decide (ruleClass r ≤ 2) && decide (1 ≤ p) && decide (p ≤ 3) && decide (ruleQ r ≤ 2) &&
  decide (ruleGuard r ≤ 2) && fieldAt r 5 3 == 0 && fieldAt r 0x0B 5 == 0 &&
  ((List.range 3).all fun j =>
    if j < p then tileOpcodes.contains (ruleOpcode r j) || ruleOpcode r j == 0xFF else ruleOpcode r j == 0) &&
  rels.all (fun x => x.valid p) &&
  ((List.range 12).all fun i =>
    (decide (rels.length < i) → fieldAt r (0x10 + 8 * i) 8 = 0) && (decide (i < rels.length) → fieldAt r (0x10 + 8 * i + 5) 1 = 0)) &&
  ((List.range 2).all fun q =>
    if q < ruleQ r then
      decide (ruleSource r q < p) && (ruleNewOpcode r q == 0 || tileOpcodes.contains (ruleNewOpcode r q)) &&
      fieldAt r (0x70 + 40 * q + 2) 6 == 0 && (ruleMappings r q).all fun m => m.valid p
    else fieldAt r (0x70 + 40 * q) 40 == 0)

/-- Rule count of an image's header. -/
def imageCount (h : List Byte) : Nat := bytesNat ((h.drop 6).take 2)

/-- An image of rules, bytes in full: its entries, or none when it is invalid (R226 to R228). -/
def readRules (b : List Byte) : Option (List Rule) :=
  let n := imageCount b
  let rules : List Rule := (chunks 192 (b.drop 64)).map fun l => BitVec.ofNat 1536 (bytesNat l)
  let ids := rules.map ruleId
  if bytesNat (b.take 4) = 0x5257544C ∧ bytesNat ((b.drop 4).take 2) = 1 ∧ n ≤ 64 ∧ b.length = 64 + 192 * n ∧
      bytesNat ((b.drop 8).take 52) = 0 ∧ BitVec.ofNat 32 (bytesNat ((b.drop 0x3C).take 4)) = crc32c (b.take 0x3C ++ b.drop 64) ∧
      rules.all ruleValid ∧ ids.eraseDups.length = ids.length then some rules else none

/-- Read n lines through the fetch path: the bytes, or whether a line was outside code or lost. -/
def State.fetchLines (s : State) (p a : Nat) : Nat → Fetched
  | 0 => .ok []
  | n + 1 =>
    match s.fetchLines p a n with
    | .ok l =>
      match s.fetchHome p (a + 64 * n) with
      | none => .fault
      | some h => if s.anyLost [h] then .lost else .ok (l ++ s.homeBytes h 64)
    | .lost => if (s.fetchHome p (a + 64 * n)).isNone then .fault else .lost
    | .fault => .fault

/-- RWT.LOAD: the status, and the core's table under status 0 (R257). -/
def State.rwtLoad (s : State) (c p : Nat) (a : Word) : Nat × State :=
  if a.toNat % 64 ≠ 0 ∨ a.toNat ≥ 2 ^ 48 then (3, s)
  else match s.fetchLines p a.toNat 1 with
    | .fault => (1, s)
    | .lost => (4, s)
    | .ok h =>
      match s.fetchLines p a.toNat (1 + 3 * min 64 (imageCount h)) with
      | .fault => (1, s)
      | .lost => (4, s)
      | .ok b =>
        match readRules b with
        | none => (2, s)
        | some rules => (0, (s.flushCore c).modCore c fun k => { k with rules := rules })

/-- RWT.CTL: the result, with the level applied and every core of the context at a flush point (R230, R258). -/
def State.rwtCtl (s : State) (p : Nat) (a : Word) : Nat × State :=
  match s.ctx? p with
  | none => (0, s)
  | some x =>
    if a.toNat ≥ 4 then (x.ceiling + 2 ^ 16, s)
    else (x.ceiling, (s.coresOf p).foldl State.flushCore (s.setCtx p { x with ceiling := a.toNat }))

end Sys2Proof.Machine
end

