-- ==== Sys2Proof/Machine/System.lean ====
section
/-! DEFINITION. Mapping, tile control, streams and messages: SYS sub-operations 0x14 to 0x1F (R194 to R196, R256 to
R258, R280 to R283, R345, R346, R348), in their issue cycle. -/
namespace Sys2Proof.Machine

/-! ### Mapping (R280 to R283) -/

/-- A request that the firmware serves: rd and ra are both sources (R280). -/
def formRequest (sub : Nat) (rd ra : BitVec 7) : Form := formSys sub [srcB 1 ra, srcB 0 rd] [(0, rd.toNat)]
/-- MEM.MAP plain, ALIAS and REMOTE. -/
def execMemMap (rd ra : BitVec 7) (attr p : BitVec 2) (s : State) : Res :=
  s.issue (formRequest 0x14 rd ra) fun o s =>
    s.flyTo o [.memMap (o.entry rd) 0 p.toNat attr.toNat (s.rx o rd) (s.rx o ra)] o.next .none 2 []
def execMemMapAlias (rd ra : BitVec 7) (attr p : BitVec 2) (s : State) : Res :=
  s.issue (formRequest 0x14 rd ra) fun o s =>
    s.flyTo o [.memMap (o.entry rd) 1 p.toNat attr.toNat (s.rx o rd) (s.rx o ra)] o.next .none 2 []
def execMemMapRemote (rd ra : BitVec 7) (attr p : BitVec 2) (s : State) : Res :=
  s.issue (formRequest 0x14 rd ra) fun o s =>
    s.flyTo o [.memMap (o.entry rd) 2 p.toNat attr.toNat (s.rx o rd) (s.rx o ra)] o.next .none 2 []
/-- MEM.UNMAP. -/
def execMemUnmap (rd ra : BitVec 7) (s : State) : Res :=
  s.issue (formRequest 0x15 rd ra) fun o s =>
    s.flyTo o [.memUnmap (o.entry rd) (s.rx o rd) (s.rx o ra)] o.next .none 2 []
/-- MEM.ATTR. -/
def execMemAttr (rd ra : BitVec 7) (attr p : BitVec 2) (s : State) : Res :=
  s.issue (formRequest 0x16 rd ra) fun o s =>
    s.flyTo o [.memAttr (o.entry rd) p.toNat attr.toNat (s.rx o rd) (s.rx o ra)] o.next .none 2 []

/-! ### Tile control (R256 to R258) -/

/-- A thread has commands on a queue that have not completed, on this core or on one that it has left by a swap, or saved with
a core (R139, R256, R302). -/
def State.commandsOf (s : State) (uid q : Nat) : Bool :=
  let mine (e : CmdEntry) : Bool := e.uid == uid
  let on (k : Core) : Bool :=
    (k.cmdsOf q).any mine ||
    (q == 0 && (k.window.any mine || ([k.group, k.running].any fun g => match g with | some g => g.members.any mine | none => false) || k.replay.any fun r => mine r.1))
  s.cores.any (fun e => on e.2) || (s.active.any fun e => e.2.entry.queue == q && mine e.2.entry) ||
  s.ctxs.any fun e => e.2.images.any fun m => (tabGet m.cmds q []).any mine
/-- A queue that QFENCE selects still holds the thread's commands. -/
def State.fenceWaits (s : State) (uid : Nat) (q : BitVec 3) : Bool :=
  [0, 1, 2].any fun i => q.getLsbD i && s.commandsOf uid (2 * i)
/-- QFENCE (R256): a flush point for q0, then the wait. -/
def execQfence (q : BitVec 3) (s : State) : Res :=
  s.issue (formSys 0x17 [] []) fun o s =>
    let s := if q.getLsbD 0 then s.flushThread o.c o.t.uid else s
    if s.fenceWaits o.t.uid q then s.blockOn o (.commands q s.order) else s.fly o [.acquire 5]
/-- RWT.LOAD (R257). -/
def execRwtLoad (rd ra : BitVec 7) (s : State) : Res :=
  s.issue (formSysRA 0x18 rd ra) fun o s => s.flyTo o [.rwtLoad (o.entry rd) (s.rx o ra)] o.next .none 2 []
/-- RWT.CTL: in flight until every core of the context has the level, at most 1 µs (R258). -/
def execRwtCtl (rd ra : BitVec 7) (s : State) : Res :=
  s.issue (formSysRA 0x19 rd ra) fun o s => s.flyTo o [.rwtCtl (o.entry rd) (s.rx o ra)] o.next .none 3 []
/-- RWT.CTL.GET (R258). -/
def execRwtCtlGet (rd : BitVec 7) (s : State) : Res :=
  s.issue (formSys 0x19 [] [(0, rd.toNat)]) fun o s => s.fly o [.rwtCtlGet (o.entry rd)]

/-! ### Streams (R194 to R196) -/

/-- SBIND: trap bits do not exist in SYS, so an empty ra blocks (R33, R194). -/
def execSbind (rd ra : BitVec 7) (n : BitVec 3) (s : State) : Res :=
  s.issue (formSysRA 0x1A rd ra) fun o s => s.fly o [.sbind (o.entry rd) n.toNat (s.rx o ra)]
/-- An element waits, or the stream has ended, or no stream is bound: SNEXT need not wait (R195). -/
def Thread.streamReady (t : Thread) (n : Nat) : Bool :=
  match tabGet? t.streams n with
  | some b => !b.buffer.isEmpty || b.ended
  | none => true
/-- SNEXT in both forms (R195). -/
def snextBody (rd : BitVec 7) (ws : Option (BitVec 7)) (n : Nat) (o : Op) (s : State) : State :=
  match tabGet? o.t.streams n with
  | none => s.trapCode o 0x0A (BitVec.ofNat 64 (32 + n)) 0
  | some b =>
    match b.buffer with
    | v :: rest =>
      let st := ws.map fun _ => BitVec.ofNat 64 b.k
      let b := { b with buffer := rest, k := b.k + 1 }
      let b := if b.k = b.total then { b with ended := true } else b
      (s.modThread o.c o.sl fun t => { t with streams := tabSet t.streams n b }).flyArrive o (o.entry rd) (ws.map o.entry) (.value v st) none []
    | [] =>
      if !b.ended then s.blockOn o (.stream n)
      else match ws with
        | none =>
          if b.faulted then s.trapOp o { code := 0x0F, detail := if fieldAt b.record 4 1 = 0x0F then fieldAt b.record 5 1 else 0, pc := o.pc,
                                         info := b.record, second := b.fault, flags := 0 }
          else s.trapCode o 0x0A (BitVec.ofNat 64 (32 + n)) 0
        | some w =>
          let st : Word := BitVec.ofNat 64 (b.k + 2 ^ 32 + if b.faulted then 2 ^ 33 else 0)
          s.flyArrive o (o.entry rd) (some (o.entry w)) (.value 0 (some st)) none []
def execSnext (rd : BitVec 7) (n : BitVec 3) (s : State) : Res :=
  s.issue (formSys 0x1B [] [(0, rd.toNat)]) (snextBody rd none n.toNat)
def execSnextStatus (rd ws : BitVec 7) (n : BitVec 3) (s : State) : Res :=
  s.issue { formSys 0x1B [] [(0, rd.toNat), (1, ws.toNat)] with
    clash := if ws = rd then some (ws.toNat + 256, rd.toNat) else none } (snextBody rd (some ws) n.toNat)
/-- SDONE (R196). -/
def execSdone (rd : BitVec 7) (n : BitVec 3) (s : State) : Res :=
  s.issue (formSys 0x1C [] [(0, rd.toNat)]) fun o s => s.fly o [.sdone (o.entry rd) n.toNat]

/-! ### Active messages and ports (R345, R346, R348) -/

/-- The pod's device holds a context that may take messages of the partition's context: itself here, a peer elsewhere (R346, R363). -/
def State.peerContext (s : State) (p dev n : Nat) : Bool :=
  match s.ctx? p with
  | some x => if dev = Config.deviceId.toNat then x.devices.getLsbD dev else x.mayPeer dev && Config.peerHolds dev n
  | none => false
/-- AM.SEND (R346). -/
def execAmSend (rd ra : BitVec 7) (s : State) : Res :=
  s.issue (formSys 0x1D [srcB 1 ra, srcB 0 rd] []) fun o s =>
    let d := s.rx o rd
    let dev := natBits d.toNat 0 8
    if s.peerContext o.p dev s.order then s.fly o [.amSend d (s.rv o ra)] else s.trapCode o 0x07 (BitVec.ofNat 64 dev) 1
/-- AM.HANDLER (R345). -/
def execAmHandler (rd ra : BitVec 7) (s : State) : Res :=
  s.issue (formSysRA 0x1E rd ra) fun o s => s.fly o [.amHandler (o.entry rd) (s.rx o ra)]
/-- LNK.STATUS (R348). -/
def execLnkStatus (rd ra : BitVec 7) (s : State) : Res :=
  s.issue (formSysRA 0x1F rd ra) fun o s => s.fly o [.lnkStatus (o.entry rd) (s.rx o ra)]

/-! ### The Keystone's instructions (R371 to R377) -/

/-- The checks of a buffer, line by line, as loads and for output as stores: the trap, and its first failing address (R371). -/
def State.bufferBad (s : State) (c p : Nat) (a : Word) (len : Nat) (out : Bool) : Option (Nat × Nat × Nat) :=
  (List.range ((len + 63) / 64)).findSome? fun i =>
    let va := a.toNat + 64 * i
    let one (k : Kind) : Option (Nat × Nat × Nat) :=
      match s.check c p va 64 k true with
      | .bad _ code second => some (code, second, va)
      | .ok _ => none
    match one 0 with
    | some b => some b
    | none => if out then one 1 else none
/-- A request of the Keystone whose buffer has passed its checks; they wait while the buffer's range is being unmapped or changed
(R284). -/
def State.keystoneCall (s : State) (o : Op) (a : Word) (len : Nat) (out : Bool) (fx : Effect) : State :=
  if s.rangeHeld o.p [a.toNat] len then s.flyTo o [.recheck a len out, fx] o.next .none 2 []
  else match s.bufferBad o.c o.p a len out with
  | some (code, second, va) => s.trapCode o code (BitVec.ofNat 64 va) (BitVec.ofNat 64 second)
  | none => s.flyTo o [fx] o.next .none 2 []
/-- WRT.PRESENT by what is presented: a warrant, a token, a revocation (R372). -/
def execWrtPresent (rd ra : BitVec 7) (s : State) : Res :=
  s.issue (formRequest 0x20 rd ra) fun o s => s.keystoneCall o (s.rx o ra) 640 false (.wrtPresent (o.entry rd) 0 (s.rx o ra))
def execWrtPresentToken (rd ra : BitVec 7) (s : State) : Res :=
  s.issue (formRequest 0x20 rd ra) fun o s => s.keystoneCall o (s.rx o ra) 640 false (.wrtPresent (o.entry rd) 1 (s.rx o ra))
def execWrtPresentRevoke (rd ra : BitVec 7) (s : State) : Res :=
  s.issue (formRequest 0x20 rd ra) fun o s => s.keystoneCall o (s.rx o ra) 256 false (.wrtPresent (o.entry rd) 2 (s.rx o ra))
/-- WRT.SPLIT (R373). -/
def execWrtSplit (rd ra : BitVec 7) (s : State) : Res :=
  s.issue (formRequest 0x21 rd ra) fun o s => s.keystoneCall o 0 0 false (.wrtSplit (o.entry rd) (s.rx o rd) (s.rx o ra))
/-- WRT.DELEGATE (R374). -/
def execWrtDelegate (rd ra : BitVec 7) (s : State) : Res :=
  s.issue (formRequest 0x22 rd ra) fun o s => s.keystoneCall o (s.rx o ra) 512 true (.wrtDelegate (o.entry rd) (s.rx o rd) (s.rx o ra))
/-- WRT.SURRENDER (R375). -/
def execWrtSurrender (rd ra : BitVec 7) (s : State) : Res :=
  s.issue (formRequest 0x23 rd ra) fun o s => s.keystoneCall o 0 0 false (.wrtSurrender (o.entry rd) (s.rx o ra))
/-- WRT.QUERY (R376). -/
def execWrtQuery (rd ra : BitVec 7) (n : BitVec 4) (s : State) : Res :=
  s.issue (formRequest 0x24 rd ra) fun o s => s.keystoneCall o 0 0 false (.wrtQuery (o.entry rd) n.toNat (s.rx o ra))
/-- CODE.ADMIT (R377): the image, at any address, is checked once the store buffer has been committed (R371). -/
def execCodeAdmit (rd ra : BitVec 7) (s : State) : Res :=
  s.issue (formRequest 0x25 rd ra) fun o s => s.keystoneCall o 0 0 false (.codeAdmit (o.entry rd) (s.rx o rd) (s.rx o ra))
/-- ATTEST (R377). -/
def execAttest (rd ra : BitVec 7) (s : State) : Res :=
  s.issue (formRequest 0x26 rd ra) fun o s => s.keystoneCall o (s.rx o ra) 512 true (.attest (o.entry rd) (s.rx o ra))

end Sys2Proof.Machine
end

