-- ==== Sys2Proof/Machine/Threads.lean ====
section
/-! DEFINITION. Thread control, neighbour writes, notifies, barriers and system registers: SYS sub-operations 0x00 to
0x0F (R138 to R148). -/
namespace Sys2Proof.Machine

/-- NOP (R148). -/
def execNop (s : State) : Res := s.issue (formSys 0x00 [] []) fun o s => s.fly o []

/-! ### System registers (R30, R39, R47, R69, R147) -/

/-- sr.thread (R39). -/
def srThread (c sl p : Nat) (t : Thread) : Word :=
  packFields 64 [(0, 6, sl), (8, 5, p), (16, 10, c), (32, 7, (gangBits t)), (39, 1, if t.forkInline then 1 else 0)]
where
  gangBits (t : Thread) : Nat := t.gangMask.toNat + 16 * t.gangPos.toNat + if t.coupled then 64 else 0

/-- sr.core (R147). -/
def srCore (c p : Nat) : Word := packFields 64 [(0, 10, c), (16, 5, p), (32, 8, Config.deviceId.toNat)]

/-- The value of a system register (R147). -/
def State.sysReg (s : State) (o : Op) (x : Nat) : Word :=
  match x with
  | 0 => BitVec.ofNat 64 s.time
  | 1 => srThread o.c o.sl o.p o.t
  | 2 => srCore o.c o.p
  | 3 => packFields 64 [(0, 11, o.t.base), (16, 8, o.t.size)]
  | 4 => BitVec.ofNat 64 (s.core o.c).steps
  | 5 => o.t.fflags.setWidth 64
  | 6 => o.t.lk.setWidth 64
  | 7 => BitVec.ofNat 64 s.cycle
  | 8 => BitVec.ofNat 64 (Config.energy o.c s.estimates)
  | _ => (s.core o.c).nlost.setWidth 64

/-- SYS.GET (R147). An energy estimate is a free value (assumption 14). -/
def execSysGet (rd : BitVec 7) (aux : BitVec 6) (s : State) : Res :=
  s.issue (formSys 0x01 [] [(0, rd.toNat)]) fun o s =>
    let v := s.sysReg o aux.toNat
    (if aux.toNat = 8 then { s with estimates := s.estimates + 1 } else s).fly o [.reg (o.entry rd) (widen v)]

/-- SYS.SET (R147). -/
def execSysSet (ra : BitVec 7) (aux : BitVec 6) (s : State) : Res :=
  s.issue (formSys 0x02 [srcB 1 ra] []) fun o s => s.fly o [.sysSet aux.toNat (s.rx o ra)]

/-- TIME (R148). -/
def execTime (rd : BitVec 7) (s : State) : Res :=
  s.issueValue (formSys 0x03 [] []) rd fun _ s => BitVec.ofNat 512 s.time

/-- TRAP (R148): the saved PC is the next instruction. As the last word of a loop body that is the word after it, and no loop level acts: a
DESIGN CHOICE (log 96). -/
def execTrap (ra : BitVec 7) (aux : BitVec 6) (s : State) : Res :=
  s.issue (formSys 0x04 [srcB 1 ra] []) fun o s =>
    (s.countCore o.c 2 1).trapOp o { code := 0x0D, detail := aux.toNat, pc := o.next, info := s.rx o ra, second := 0, flags := 0 }

/-! ### Thread control (R138 to R140) -/

/-- THR.START (R138): rd is a source and the destination. -/
def execThrStart (rd ra : BitVec 7) (s : State) : Res :=
  s.issue (formSys 0x05 [srcB 1 ra, srcB 0 rd] [(0, rd.toNat)]) fun o s =>
    s.fly o [.thrStart (o.entry rd) (s.rx o rd) (s.rx o ra)]
/-- THR.STOP rd, ra (R139). -/
def execThrStop (rd ra : BitVec 7) (s : State) : Res :=
  s.issue (formSysRA 0x06 rd ra) fun o s => s.fly o [.thrStop (o.entry rd) (s.rx o ra)]
/-- THR.STOP of the issuer (R139). -/
def execThrStopSelf (s : State) : Res :=
  s.issue { formSys 0x06 [] [] with ends := true } fun o s => s.fly o [.ends]
/-- THR.YIELD (R140). -/
def execThrYield (s : State) : Res := s.issue (formSys 0x07 [] []) fun o s => s.fly o [.yield]
/-- THR.RESUME (R139). -/
def execThrResume (rd ra : BitVec 7) (s : State) : Res :=
  s.issue (formSysRA 0x08 rd ra) fun o s => s.fly o [.thrResume (o.entry rd) (s.rx o ra) false]
/-- THR.RESUME.NEXT (R139). -/
def execThrResumeNext (rd ra : BitVec 7) (s : State) : Res :=
  s.issue (formSysRA 0x08 rd ra) fun o s => s.fly o [.thrResume (o.entry rd) (s.rx o ra) true]
/-- THR.SWAP (R139). -/
def execThrSwap (rd ra : BitVec 7) (s : State) : Res :=
  s.issue (formSysRA 0x09 rd ra) fun o s => s.fly o [.thrSwap (o.entry rd) (s.rx o ra)]
/-- THR.SWAP.IN (R139). -/
def execThrSwapIn (rd ra : BitVec 7) (s : State) : Res :=
  s.issue (formSysRA 0x09 rd ra) fun o s => s.fly o [.thrSwapIn (o.entry rd) (s.rx o ra)]

/-! ### Neighbour writes and notifies (R141 to R143) -/

/-- NWRITE and WAKE trap PERMISSION at a core of another partition or of none; a killed core takes the send and
discards it (R141, R142). -/
def State.sendTo (s : State) (o : Op) (target : Nat) (fx : Effect) : State :=
  let k := s.core target
  if k.fenced ∨ k.part = some o.p then s.fly o [fx] else s.trapCode o 0x07 (BitVec.ofNat 64 target) 1

/-- NWRITE (R141). -/
def execNwrite (rd ra : BitVec 7) (s : State) : Res :=
  s.issue (formSys 0x0A [srcB 1 ra, srcB 0 rd] []) fun o s =>
    let d := (s.rx o rd).toNat
    let target := clusterOf o.c * 4 + natBits d 0 2
    s.sendTo o target (.nwrite target (natBits d 8 6) (natBits d 16 7) (s.rv o ra))

/-- WAKE (R142). -/
def execWake (rd ra : BitVec 7) (s : State) : Res :=
  s.issue (formSys 0x0D [srcB 1 ra, srcB 0 rd] []) fun o s =>
    let d := (s.rx o rd).toNat
    s.sendTo o (natBits d 0 10) (.wake (natBits d 0 10) (natBits d 16 6) (s.rx o ra))

/-- NWAIT of the landing queue (aux 0): the oldest value for the register arrives, or the register is armed (R143). -/
def execNwaitNbr (rd : BitVec 7) (s : State) : Res :=
  s.issue (formSys 0x0E [] [(0, rd.toNat)]) fun o s =>
    if o.t.armNbr.isSome then s.blockOn o (.arming false)
    else
      let q := (s.core o.c).landing
      match q.findIdx? fun l => l.slot == o.sl && l.reg == rd.toNat with
      | some i =>
        let v := (q[i]?).bind (·.val)
        let from_ := ((q[i]?).map (·.from_)).getD 0
        let s := s.modCore o.c fun k => { k with landing := listDrop k.landing i }
        s.flyArrive o (o.entry rd) none (match v with | some v => .value v none | none => .token (some from_) none) none []
      | none =>
        (s.modThread o.c o.sl fun t => { t with armNbr := some (o.entry rd) }).flyTo o [] o.next .none 0 [o.entry rd]

/-- NWAIT of the notify latch (aux 1) (R143). -/
def execNwaitNtf (rd : BitVec 7) (s : State) : Res :=
  s.issue (formSys 0x0E [] [(0, rd.toNat)]) fun o s =>
    if o.t.armNtf.isSome then s.blockOn o (.arming true)
    else match o.t.notify with
      | some v =>
        (s.modThread o.c o.sl fun t => { t with notify := none }).flyArrive o (o.entry rd) none (.value (widen v) none) none []
      | none =>
        (s.modThread o.c o.sl fun t => { t with armNtf := some (o.entry rd) }).flyTo o [] o.next .none 0 [o.entry rd]

/-! ### Barriers (R144 to R146) -/

/-- The unit that holds a scope's barriers for a core: its cluster, its deck, the device. -/
def barrierUnit (scope c : Nat) : Nat := if scope = 3 then clusterOf c else if scope = 4 then deckOf c else 0
/-- The key of a barrier. -/
def barrierKey (p scope unit b : Nat) : Nat := ((p * 3 + (scope - 3)) * 256 + unit) * 16 + b
def State.barrier (s : State) (key : Nat) : Barrier := tabGet s.barriers key Barrier.reset

/-- ARRIVE at its three scopes (R144). -/
def execArriveClu (rd ra : BitVec 7) (s : State) : Res :=
  s.issue (formSysRA 0x0B rd ra) fun o s => s.fly o [.arrive (o.entry rd) 3 (s.rx o ra)]
def execArriveDeck (rd ra : BitVec 7) (s : State) : Res :=
  s.issue (formSysRA 0x0B rd ra) fun o s => s.fly o [.arrive (o.entry rd) 4 (s.rx o ra)]
def execArriveDev (rd ra : BitVec 7) (s : State) : Res :=
  s.issue (formSysRA 0x0B rd ra) fun o s => s.fly o [.arrive (o.entry rd) 5 (s.rx o ra)]

/-- WAIT (R145). -/
def execWait (ra : BitVec 7) (s : State) : Res :=
  s.issue (formSys 0x0C [srcB 1 ra] []) fun o s =>
    let a := (s.rx o ra).toNat
    let scope := natBits a 4 3
    if natBits a 63 1 = 1 ∨ scope < 3 ∨ scope > 5 then s.fly o []
    else
      let key := barrierKey o.p scope (barrierUnit scope o.c) (natBits a 0 4)
      if (s.barrier key).gen = natBits a 16 16 then s.blockOn o (.barrier key (natBits a 16 16))
      else s.fly o [.acquire scope]

/-- SAMPLE (R148). -/
def execSample (ra : BitVec 7) (s : State) : Res :=
  s.issue (formSys 0x0F [srcB 1 ra] []) fun o s => (s.softwareSample o.c o.sl o.pc (s.rx o ra)).fly o []

end Sys2Proof.Machine
end

