-- ==== Sys2Proof/Machine/Work.lean ====
section
/-! DEFINITION. Launch, cancel, round and park: SYS sub-operations 0x10 to 0x13 (R307 to R310). -/
namespace Sys2Proof.Machine

/-- A result that says "no such work" or "wrong form" (R307, R309). -/
def topBit : Nat := 2 ^ 63

/-- LAUNCHes of a context into a queue that have issued and not completed. -/
def State.launchesOf (s : State) (p q : Nat) : Nat :=
  (s.pickThreads p fun t => match t.state with
    | .inflight f => f.fx.any fun e => match e with | .launch _ r => recQueue r == q | _ => false
    | _ => false).length

/-- A launch queue of a context has room (R298, R307). -/
def State.launchRoom (s : State) (p q : Nat) : Bool :=
  match s.ctx? p with
  | some x => decide ((tabGet x.queues q []).length + s.launchesOf p q < 64)
  | none => true

/-- LAUNCH (R307): a valid record waits for room in its queue. -/
def execLaunch (rd ra : BitVec 7) (s : State) : Res :=
  s.issue (formSysRA 0x10 rd ra) fun o s =>
    let r := s.rv o ra
    let ok : Bool := match s.ctx? o.p with | some x => s.checkRecord o.p x r == 0 | none => false
    if ok ∧ !s.launchRoom o.p (recQueue r) then s.blockOn o (.launchRoom (recQueue r)) else s.fly o [.launch (o.entry rd) r]

/-- The work that a LAUNCH.WAIT word names: level and ID; none when no work has that name (R307). -/
def Ctx.named (x : Ctx) (level id : Nat) : Bool :=
  match level with
  | 0 => (tabGet? x.launches id).isSome
  | 1 => id != 0 && (tabGet? x.graphs id).isSome
  | 2 => id != 0 && (tabGet? x.phases id).isSome
  | _ => true
/-- Graph and phase IDs are in [7:0] (R307). -/
def levelId (level a : Nat) : Nat := if level = 0 then natBits a 0 16 else natBits a 0 8
def State.workNamed (s : State) (p : Nat) (a : Word) : Option (Nat × Nat) :=
  let level := natBits a.toNat 16 2
  let id := levelId level a.toNat
  if natBits a.toNat 18 46 ≠ 0 then none
  else match s.ctx? p with
    | some x => if x.named level id then some (level, id) else none
    | none => none

/-- The counter of a level (R292). -/
def Ctx.levelCount (x : Ctx) (level id : Nat) : Nat :=
  if level = 0 then (match tabGet? x.launches id with | some l => if l.state = 4 then 0 else l.counter | none => 0)
  else (x.liveOf level id).length

/-- The result of LAUNCH.WAIT (R307). -/
def Ctx.levelResult (x : Ctx) (level id : Nat) : Nat :=
  let fails (t : Tab WorkLevel) : Nat := match tabGet? t id with | some l => l.failures | none => 0
  match level with
  | 0 => (match tabGet? x.launches id with | some l => l.code + l.pc.toNat * 2 ^ 8 | none => 0)
  | 1 => fails x.graphs
  | 2 => fails x.phases
  | _ => x.failures

/-- LAUNCH.WAIT (R307). -/
def execLaunchWait (rd ra : BitVec 7) (s : State) : Res :=
  s.issue (formSysRA 0x10 rd ra) fun o s =>
    match s.workNamed o.p (s.rx o ra), s.ctx? o.p with
    | some (level, id), some x =>
      if x.levelCount level id ≠ 0 then s.blockOn o (.work level id) else s.fly o [.launchWait (o.entry rd) (s.rx o ra)]
    | _, _ => s.fly o [.reg (o.entry rd) (BitVec.ofNat 512 topBit)]

/-- LAUNCH.QUERY (R307). -/
def execLaunchQuery (rd ra : BitVec 7) (s : State) : Res :=
  s.issue (formSysRA 0x10 rd ra) fun o s => s.fly o [.launchQuery (o.entry rd) (s.rx o ra)]

/-- LAUNCH.AGE (R307). -/
def execLaunchAge (rd ra : BitVec 7) (s : State) : Res :=
  s.issue (formSysRA 0x10 rd ra) fun o s => s.fly o [.launchAge (o.entry rd) (s.rx o ra)]

/-- CANCEL by level, and with rewind (R308). -/
def execCancelLaunch (rd ra : BitVec 7) (s : State) : Res :=
  s.issue (formSysRA 0x11 rd ra) fun o s => s.fly o [.cancel (o.entry rd) 0 false (s.rx o ra)]
def execCancelGraph (rd ra : BitVec 7) (s : State) : Res :=
  s.issue (formSysRA 0x11 rd ra) fun o s => s.fly o [.cancel (o.entry rd) 1 false (s.rx o ra)]
def execCancelPhase (rd ra : BitVec 7) (s : State) : Res :=
  s.issue (formSysRA 0x11 rd ra) fun o s => s.fly o [.cancel (o.entry rd) 2 false (s.rx o ra)]
def execCancelJob (rd ra : BitVec 7) (s : State) : Res :=
  s.issue (formSysRA 0x11 rd ra) fun o s => s.fly o [.cancel (o.entry rd) 3 false (s.rx o ra)]
def execCancelGraphRewind (rd ra : BitVec 7) (s : State) : Res :=
  s.issue (formSysRA 0x11 rd ra) fun o s => s.fly o [.cancel (o.entry rd) 1 true (s.rx o ra)]

/-! ### ROUND (R309) -/

/-- The task launch of a thread: kind 2, no supervisor (R309). -/
def State.taskOf (s : State) (o : Op) : Option (Ctx × Launch) :=
  match s.ctx? o.p with
  | none => none
  | some x => match tabGet? x.launches o.t.launch with
    | some l => if recTask l.record ∧ l.site = some (o.c, o.sl) then some (x, l) else none
    | none => none

/-- The error cases of ROUND in their order: its result code, or the round number (R309); a slot whose range is being unmapped or
changed is checked when the round is written (R284). -/
def State.roundCheck (s : State) (o : Op) (a c : Nat) : Except Nat Nat :=
  match s.taskOf o with
  | none => .error 1
  | some (_, l) =>
    let off := natBits a 0 20
    let len := natBits a 20 20
    if natBits a 40 24 ≠ 0 ∨ off % 64 ≠ 0 ∨ len % 64 ≠ 0 ∨ off + len > (s.core o.c).steps * 0x10000 ∨ c > o.t.size then .error 2
    else
      let n := l.rounds + 1
      let slot := checkpointSlot (recArg l.record 2) n
      if !s.rangeHeld o.p [slot] 0x100000 && (s.checkRange o.c o.p slot 0x100000 1).isSome then .error 3 else .ok n

/-- ROUND (R309): the error cases first; then it waits for its registers, takes their images, and waits for the round,
for marker room and for markers. -/
def execRound (rd ra : BitVec 7) (n : BitVec 6) (s : State) : Res :=
  s.issue (formSysRA 0x12 rd ra) fun o s =>
    let a := s.rx o ra
    let c := n.toNat
    match s.roundCheck o a.toNat c with
    | .error e => s.fly o [.reg (o.entry rd) (BitVec.ofNat 512 (topBit + e))]
    | .ok round =>
      let regs := (List.range c).map fun i => (i, s.regAt o.c (o.t.base + i))
      match regs.find? fun r => r.2.lost && !s.awaited o.c (o.t.base + r.1) with
      | some r => s.trapCode o 0x0E (BitVec.ofNat 64 r.1) (lostCore r.2.token)
      | none =>
        let empty := regs.filter fun r => !r.2.full
        if !empty.isEmpty then s.blockOn o (.regs (empty.map fun r => o.t.base + r.1))
        else if regs.any fun r => decide (2 ≤ r.2.flips) then s.doomCore o.c (errorKill 0 true)
        else
          let s := s.correctRegs o.c (regs.map fun r => o.t.base + r.1)
          let s := (s.tookTurn o.c o.sl).countCore o.c 2 1
          let f : Flight :=
            { due := s.cycle + lat12, least := s.cycle + lat12, order := s.order, pair := none, sig := o.sig, major := 0x3D, store := false, ends := false,
              fx := [.round (o.entry rd) a (regs.map fun r => r.2.val) o.next], next := o.next, xfer := .none, kind := 0,
              posts := [], emptied := [], wasFull := [], checked := false }
          let s := s.modThread o.c o.sl fun t =>
            { t with state := .blocked (.round round f)
                     roundStep := match t.roundStep with
                       | some (m, p, q) => if m = round then some (m, p, q) else some (round, [], [])
                       | none => some (round, [], []) }
          { s with order := s.order + 1 }

/-! ### PARK (R310) -/

/-- The channel that a PARK takes and its kind; none while it waits (R310). -/
def State.parkPick (s : State) (p : Nat) (t : Thread) (mask : Nat) : Option (Nat × Nat) :=
  let live := (List.range 8).filter fun i => natBits mask i 1 == 1 && !(match tabGet? t.chans i with | some b => b.ended | none => false)
  if live.isEmpty then some (0, 3)
  else live.findSome? fun i =>
    match (tabGet? t.chans i).bind fun b => s.chan? p (chanKey b.graph b.chan) with
    | some h => match h.entries with
      | .data _ :: _ => some (8 + i, 0)
      | .token :: _ => some (8 + i, 0)
      | .marker _ :: _ => some (8 + i, 1)
      | .eos :: _ => some (8 + i, 2)
      | [] => if h.killed.isSome then some (8 + i, 4) else none
    | none => none

/-- PARK takes an end-of-stream token: it is removed and the channel is marked ended (R310). -/
def State.parkTake (s : State) (o : Op) (q : Nat) : State :=
  match tabGet? o.t.chans (q - 8) with
  | none => s
  | some b =>
    let key := chanKey b.graph b.chan
    let s := match s.chan? o.p key with
      | some h => s.setChan o.p key { h with entries := h.entries.drop 1 }
      | none => s
    s.modThread o.c o.sl fun t => { t with chans := tabSet t.chans (q - 8) { b with ended := true } }

/-- PARK (R310). -/
def execPark (rd ra : BitVec 7) (s : State) : Res :=
  s.issue (formSysRA 0x13 rd ra) fun o s =>
    let mask := (s.rx o ra).toNat % 256
    match (List.range 8).find? fun i => natBits mask i 1 == 1 && !(match o.t.queueOf (8 + i) with | .input _ => true | _ => false) with
    | some i => s.trapCode o 0x0A (BitVec.ofNat 64 (8 + i)) 0
    | none =>
      match s.parkPick o.p o.t mask with
      | none => s.modThread o.c o.sl fun t => { t with state := .parked (.park mask) }
      | some (q, kind) =>
        let s := if kind = 2 then s.parkTake o q else s
        s.fly o [.reg (o.entry rd) (BitVec.ofNat 512 (q + kind * 2 ^ 8))]

end Sys2Proof.Machine
end

