-- ==== Sys2Proof/Machine/Effects.lean ====
section
/-! DEFINITION. What an instruction in flight does in its completion cycle, effect by effect, and the conditions that
hold it in flight beyond its latency (R26, R113 to R128, R131, R137 to R148, R194, R196, R256 to R258, R280, R307 to
R309, R345, R346, R348, R371). -/
namespace Sys2Proof.Machine

/-! ### Memory traps (R114, R115) -/

/-- Homes of the bytes that accesses of one size reach. -/
def spreadHomes (size : Nat) (homes : List Nat) : List Nat := homes.flatMap fun h => (List.range size).map fun i => h + i

/-- The scope of an atomic's or a JOIN's orders: DEV, or POD on another device (R95, R126). -/
def atomicScope (homes : List Nat) : Nat := if anyRemote homes then 6 else 5

/-- A trap of R114 as the record takes it: E is the information. -/
def memTrap (pc : Addr) (x : Nat × Nat × Nat) : TrapInfo :=
  trapAt pc x.1 (BitVec.ofNat 64 x.2.2) (BitVec.ofNat 64 x.2.1)

/-- The checks of R114 for a list of addresses, at an instruction's completion. -/
def State.fxChecks (s : State) (d : Done) (vas : List Nat) (size : Nat) (k : Kind) : Except TrapInfo (List Nat) :=
  match s.checkAll d.c d.p vas size k true with
  | .error x => .error (memTrap d.t.pc x)
  | .ok l => .ok l

/-- The trap that an effect raises at its completion, with the state it leaves: memory accesses do, a JOIN
that finds its counter lost after its commit, and a CODE.ADMIT whose image fails the checks (R95, R114, R115, R371). -/
def State.fxTrap (s : State) (d : Done) : Effect → Option (State × TrapInfo)
  | .load _ _ addrs size _ => match s.fxChecks d (addrs.map (·.toNat)) size 0 with | .error x => some (s, x) | .ok _ => none
  | .store writes size _ =>
    match s.fxChecks d (writes.map fun w => w.1.toNat) size 1 with | .error x => some (s, x) | .ok _ => none
  | .atomic _ _ a _ _ _ _ => match s.fxChecks d [a.toNat] 8 2 with | .error x => some (s, x) | .ok _ => none
  | .join a =>
    match s.fxChecks d [a.toNat] 8 2 with
    | .error x => some (s, x)
    | .ok homes =>
      let s := s.releaseAt d.c d.sl (atomicScope homes)
      if (s.homeLost (eight (homes.headD 0))).isSome then some (s, trapAt d.t.pc 0x0E a 0) else none
  | .recheck a len out =>
    (s.bufferBad d.c d.p a len out).map fun x => (s, trapAt d.t.pc x.1 (BitVec.ofNat 64 x.2.2) (BitVec.ofNat 64 x.2.1))
  | .codeAdmit _ _ a =>
    let s := s.release d.c d.sl
    (s.imageBad d.c d.p a.toNat).map fun x => (s, trapAt d.t.pc x.1 (BitVec.ofNat 64 x.2.2) (BitVec.ofNat 64 x.2.1))
  | _ => none

/-! ### Conditions that hold an instruction in flight (R26) -/

/-- The round that a task's ROUND makes, and its checkpoint slot (R305, R309). -/
def State.checkpointOf (s : State) (p : Nat) (t : Thread) : Option (Nat × Nat) :=
  ((s.ctx? p).bind fun x => tabGet? x.launches t.launch).map fun l => (l.rounds + 1, checkpointSlot (recArg l.record 2) (l.rounds + 1))
/-- The partition's context is ending. -/
def State.ending (s : State) (p : Nat) : Bool := match s.ctx? p with | some x => x.ending.isSome | none => true

/-- A landing queue has no room for one more NWRITE, those on their way counted (R141). -/
def State.landingFull (s : State) (core : Nat) : Bool :=
  !(s.core core).fenced && decide (16 ≤ (s.core core).landing.length + s.nwrites.countP fun d => d.core == core)

/-- Threads that a rewind has stopped, those in saved records among them, and the issuer when it is one. -/
def State.stoppedTasks (s : State) (d : Done) (ids : List Nat) (self : Bool) : List Nat :=
  ((s.threads.filter fun e => ids.contains e.2.launch && e.2.state == .blocked .rewind).map fun e => e.2.uid) ++
  (match s.ctx? d.p with | some x => (x.saved.filter fun v => ids.contains v.thread.launch).map (·.thread.uid) | none => []) ++
  (if self then [d.t.uid] else [])
/-- Units of the listed launches still have an instruction in flight, the issuer apart, and a CANCEL issued later than this one, which
waits for this one: a DESIGN CHOICE where two CANCELs cover each other (log 116). A rewind waits for what its tasks have outstanding as
well, so that none of it arrives after the restart (R308). -/
def State.unitsBusy (s : State) (d : Done) (ids : List Nat) (rewind self : Bool) : Bool :=
  !(s.pickThreads d.p fun t => ids.contains t.launch && t.uid != d.t.uid &&
      (match t.state with | .inflight f => !f.fx.any Effect.isCancelEnd || decide (f.order < d.f.order) | _ => false) &&
      (!rewind || t.after == some .rewind)).isEmpty ||
  rewind && s.arrivals.any fun a => (s.stoppedTasks d ids self).contains a.uid

/-- An effect cannot happen yet (R125, R141, R173, R280, R284, R307, R308, R345, R346, R361). FENCE.SS waits for committed stores alone, not for
the write of an outstanding AMO or CAS: a DESIGN CHOICE (log 112). A LAUNCH whose record has become valid in flight waits for room in its
queue. -/
def State.holds (s : State) (d : Done) : Effect → Bool
  | .fenceWait k sc =>
    (decide (k ≤ 1) && s.arrivals.any fun a => a.uid == d.t.uid && decide (a.order < d.f.order)) ||
    (!narrow sc && (s.beforeOf d.t.uid).any fun p => p.store && decide (p.order < d.f.order) && ordersAt sc p.homes)
  | .qpush _ q _ _ => (match d.t.queueOf q with
      | .output key => (match s.chan? d.p key with | some h => h.sealed_.isNone && !s.chanOpen d.p h && !s.ending d.p | none => false)
      | _ => false)
  | .launch _ r => (match s.ctx? d.p with
      | some x => s.checkRecord d.p x r == 0 && decide (64 ≤ (tabGet x.queues (recQueue r) []).length) && !s.ending d.p
      | none => false)
  | .nwrite core _ _ _ => s.landingFull core && !s.ending d.p
  | .amSend _ _ => decide (16 ≤ s.sendsOf d.c) && !s.ending d.p
  | .amHandler _ _ => s.handlerRuns d.c && d.sl != 63
  | .memMap _ _ _ _ _ _ => s.mapsBefore d.p d.f.order
  | .memUnmap _ _ _ => s.mapsBefore d.p d.f.order
  | .memAttr _ _ _ _ _ => s.mapsBefore d.p d.f.order
  | .memUnmapGo _ va len => s.rangeBusy d.p va len
  | .memAttrGo _ _ _ va len => s.rangeBusy d.p va len
  | .load _ _ addrs size _ => s.rangeHeld d.p (addrs.map (·.toNat)) size
  | .store writes size _ => s.rangeHeld d.p (writes.map fun w => w.1.toNat) size
  | .atomic _ _ a _ _ _ _ => s.rangeHeld d.p [a.toNat] 8
  | .join a => s.rangeHeld d.p [a.toNat] 8
  | .recheck a len _ => s.rangeHeld d.p [a.toNat] len
  | .codeAdmit _ _ a => s.rangeHeld d.p [a.toNat] (max 64 (imageBytes (s.virtBytes d.c d.p a.toNat 64)))
  | .rwtLoad _ a => s.rangeHeld d.p [a.toNat] (64 * 193)
  | .round _ _ _ _ => (match s.checkpointOf d.p d.t with | some (_, slot) => s.rangeHeld d.p [slot] 0x100000 | none => false)
  | .cancelEnd _ _ ids rewind _ self => s.unitsBusy d ids rewind self
  | .keystoneWait => true
  | _ => false

/-! ### Results -/

/-- What an effect leaves: the state; a next PC of its own; effects that take its place; or that the thread's own
state already says how it goes on. -/
structure Out where
  s : State
  jump : Option Addr
  more : List Effect
  stays : Bool
  deriving DecidableEq, Repr

/-- The effect is done. -/
def Out.done (s : State) : Out := { s := s, jump := none, more := [], stays := false }

/-- A later-issued instruction has written the entry in this cycle (R31). -/
def State.overtaken (s : State) (d : Done) (entry : Nat) : Bool :=
  s.wrote.any fun w => w.1 == d.c * 2048 + entry && decide (d.f.order < w.2)
/-- An entry's new contents in the completion cycle: the later-issued write of a cycle prevails (R31). -/
def State.putReg (s : State) (d : Done) (entry : Nat) (r : Reg) : State :=
  if s.overtaken d entry then s
  else { s.setReg d.c entry r with wrote := (d.c * 2048 + entry, d.f.order) :: s.wrote }
/-- D := v in the completion cycle, with the posts of a pair (R65, R100). -/
def State.put (s : State) (d : Done) (entry : Nat) (v : Vec) : State :=
  (s.putReg d entry (Reg.ofVec v)).releasePosts d.t.uid d.f.posts entry (some v)
/-- D := a number. -/
def State.putNat (s : State) (d : Done) (entry n : Nat) : State := s.put d entry (BitVec.ofNat 512 n)

/-! ### Memory (R116 to R128) -/

/-- A thread has narrow orders outstanding, which its later loads may pass (R288). -/
def State.passable (s : State) (uid : Nat) : Bool :=
  (s.arrivals.any fun a => a.uid == uid && (match a.acq with | some sc => narrow sc | none => false)) ||
  s.fences.any fun f => f.uid == uid && f.kind == 0

/-- The elements of a VLDS or VGATH perform each at its own time: delays for the 16 of them (R149). -/
def State.elementDelays (s : State) : State × List (Nat × Nat) :=
  laneList.foldl (fun acc i => ((acc.1.takeDelay).2, acc.2 ++ [(s.cycle + (acc.1.takeDelay).1, i)])) (s, [])
/-- When a load may perform before its arrival: a VLDS or VGATH element by element, another one where it may pass narrow orders. -/
def State.earlyTakes (s : State) (uid : Nat) (kind : LoadKind) : State × List (Nat × Nat) :=
  if kind = .lanes then s.elementDelays
  else if s.passable uid then ((s.takeDelay).2, [(s.cycle + (s.takeDelay).1, 0)])
  else (s, [])

/-- A load completes: it performs at its arrival, with the bytes that its own buffer holds then, at one moment (R115, R118,
R149); the elements of a VLDS or VGATH may perform before it, one by one. -/
def State.fxLoad (s : State) (d : Done) (rd : Nat) (kind : LoadKind) (addrs : List Word) (size : Nat) (acq : Option Nat) : State :=
  match s.fxChecks d (addrs.map (·.toNat)) size 0, s.thread? d.c d.sl with
  | .ok homes, some t =>
    let bytes := spreadHomes size homes
    let w := s.takeDelay
    let e := w.2.earlyTakes t.uid kind
    let a : Arrival :=
      { uid := t.uid, core := d.c, slot := d.sl, part := d.p, order := d.f.order, due := s.cycle + w.1, rd := rd, ws := none,
        prod := .load kind bytes [], acq := acq, rel := none, posts := d.f.posts, vas := addrs.map (·.toNat), bytes := size, takes := e.2 }
    { e.1 with arrivals := e.1.arrivals ++ [a] }
  | _, _ => s

/-- The writes of a store at their homes, later lanes prevailing (R123). -/
def storeTab (homes : List Nat) (writes : List (Word × List Byte)) : Tab Byte :=
  (homes.zip writes).foldl (fun t e =>
    ((List.range e.2.2.length).zip e.2.2).foldl (fun t b => tabSet t (e.1 + b.1) b.2) t) []

/-- The elements of a VSCAT at their homes: a byte that a later lane writes too is the later one's (R123, R149). -/
def storeParts (homes : List Nat) (writes : List (Word × List Byte)) : List (Tab Byte) :=
  let one (e : Nat × Word × List Byte) : Tab Byte := ((List.range e.2.2.length).zip e.2.2).map fun b => (e.1 + b.1, b.2)
  let rec go : List (Nat × Word × List Byte) → List (Tab Byte)
    | [] => []
    | e :: rest =>
      let later := go rest
      ((one e).filter fun b => !later.any fun t => (tabGet? t b.1).isSome) :: later
  (go (homes.zip writes)).filter fun t => !t.isEmpty

/-- A store enters the buffer; the eighth entry commits it, and ST.REL commits it with release order (R119, R121, R151). -/
def State.fxStore (s : State) (d : Done) (writes : List (Word × List Byte)) (size : Nat) (rel : Option Nat) : State :=
  match s.fxChecks d (writes.map fun w => w.1.toNat) size 1, s.thread? d.c d.sl with
  | .ok homes, some t =>
    let e : Store := { writes := storeTab homes writes, parts := if writes.length = 16 then storeParts homes writes else [], order := d.f.order, due := 0, rel := none, uid := t.uid, core := d.c, part := d.p }
    let s := s.setThread d.c d.sl { t with buffer := t.buffer ++ [e] }
    match rel with
    | some sc => s.commitAs d.c d.sl (some (d.f.order, sc))
    | none => if t.buffer.length + 1 ≥ 8 then s.commit d.c d.sl else s
  | _, _ => s

/-- AMO and CAS: the commit, then the atomic, which performs at its home on arrival; its orders are of scope DEV, or POD on
another device (R126). -/
def State.fxAtomic (s : State) (d : Done) (rd : Nat) (op : AmoOp) (a b c : Word) (acq rel : Bool) : State :=
  match s.fxChecks d [a.toNat] 8 2 with
  | .ok homes =>
    let sc := atomicScope homes
    let s := s.commitAs d.c d.sl (if rel then some (d.f.order, sc) else none)
    let w := s.takeDelay
    let x : Arrival :=
      { uid := d.t.uid, core := d.c, slot := d.sl, part := d.p, order := d.f.order, due := s.cycle + w.1, rd := rd, ws := none,
        prod := .atomic op (homes.headD 0) b c, acq := if acq then some sc else none, rel := if rel then some sc else none,
        posts := d.f.posts, vas := [a.toNat], bytes := 8, takes := [] }
    { w.2 with arrivals := w.2.arrivals ++ [x] }
  | .error _ => s

/-- Ends the thread as ENDS does (R95, R96). -/
def State.fxEnds (s : State) (d : Done) : State := (s.stopInGang d.c d.sl false).endThread d.c d.sl 0 0

/-- The counter of a JOIN before its decrement. -/
def State.joinOld (s : State) (d : Done) (a : Word) : Nat :=
  match s.fxChecks d [a.toNat] 8 2 with
  | .ok homes => bytesNat ((s.releaseAt d.c d.sl (atomicScope homes)).homeBytes (homes.headD 0) 8)
  | .error _ => 0

/-- JOIN: release, the decrement at its home, and the end of the thread unless the counter reached zero (R95). -/
def State.fxJoin (s : State) (d : Done) (a : Word) : State :=
  match s.fxChecks d [a.toNat] 8 2 with
  | .ok homes =>
    let r := (s.releaseAt d.c d.sl (atomicScope homes)).perform (fun _ => none) (.atomic .add (homes.headD 0) (-1) 0)
    match r.2 with
    | .value v _ => if v = 1 then r.1 else r.1.fxEnds d
    | _ => r.1
  | .error _ => s

/-- FENCE completes: what it orders and has not waited for comes before the thread's later accesses all the same (R125). -/
def State.fxFence (s : State) (d : Done) (k sc : Nat) : State := s.noteFence { uid := d.t.uid, order := d.f.order, kind := k, scope := sc }

/-- FORK pushes: the launch permits strands and the deque has room (R93). -/
def State.forkPushes (s : State) (d : Done) : Bool :=
  let strands := match (s.ctx? d.p).bind fun x => tabGet? x.launches d.t.launch with
    | some l => recStrands l.record
    | none => false
  strands && !d.t.handler && decide ((s.core d.c).deque.length < 64)

/-- FORK: the push of a unit, or the arm as a call (R93, R292). -/
def State.fxFork (s : State) (d : Done) (arm : Addr) (a : Word) : Out :=
  if s.forkPushes d then
    let e : Strand := { arm := arm, counter := a.setWidth 48, base := d.t.base, size := d.t.size, part := d.p,
                        launch := d.t.launch, core := d.c }
    .done ((s.modCore d.c fun k => { k with deque := e :: k.deque }).addUnit d.p d.t.launch)
  else
    { s := s.modThread d.c d.sl fun t => { t with lk := d.f.next, forkInline := true }, jump := some arm, more := [], stays := false }

/-! ### Loop levels (R91, R92) -/

/-- The levels' act at a completing word: the next PC, the thread, and whether a level looped back (R91). -/
def Thread.levelsAct (t : Thread) (last next : Addr) : Addr × Thread × Bool :=
  let one (l : Loop) : Loop × Bool :=
    if l.active ∧ l.stop = last then
      if l.count - 1 ≠ 0 then ({ l with count := l.count - 1 }, true) else ({ l with count := 0, active := false }, false)
    else (l, false)
  let a := one t.lp1
  if a.2 then (a.1.start, { t with lp1 := a.1 }, true)
  else
    let b := one t.lp0
    if b.2 then (b.1.start, { t with lp1 := a.1, lp0 := b.1 }, true) else (next, { t with lp1 := a.1, lp0 := b.1 }, false)

/-- A taken BC, J, JR or RET out of a level's range makes it inactive (R92). -/
def Thread.levelsJump (t : Thread) (target : Addr) : Thread :=
  let one (l : Loop) : Loop := if l.active ∧ (target < l.start ∨ l.stop < target) then { l with active := false } else l
  { t with lp0 := one t.lp0, lp1 := one t.lp1 }

/-! ### Gangs (R42, R97) -/

/-- A thread takes part in the forming gang of a mask: it completes COUPLE, or has just done so. -/
def Thread.joins (t : Thread) (m : BitVec 4) : Bool :=
  (t.coupled && t.gangMask == m) ||
  (match t.state with | .inflight f => f.fx.any (fun e => e == .gang m) | _ => false)

/-- Position of a core in a mask. -/
def gangRank (m : BitVec 4) (n : Nat) : Nat := ((maskCores m).filter fun k => decide (k < n)).length

/-- The member joins its gang; its next fetch is the word after the leader's COUPLE (R97). A gang one of whose members
is gone does not form. -/
def State.fxGang (s : State) (d : Done) (m : BitVec 4) : Out :=
  let cores := (maskCores m).map fun n => clusterOf d.c * 4 + n
  if cores.all fun k => match s.thread? k d.sl with | some t => t.joins m | none => false then
    let next := match (cores.head?).bind fun k => s.thread? k d.sl with
      | some t => match t.state with | .inflight f => (t.levelsAct t.pc f.next).1 | _ => t.pc
      | none => d.f.next
    { s := s.modThread d.c d.sl fun t => { t with coupled := true, gangMask := m, gangPos := BitVec.ofNat 2 (gangRank m (d.c % 4)), outcome := none, forward := none }
      jump := some next, more := [], stays := false }
  else .done s

/-! ### Queues and the crossbar (R131, R137) -/

/-- A launch has been cancelled: what its instructions in flight still push goes with its other commands (R200, R308). -/
def State.cancelled (s : State) (p id : Nat) : Bool :=
  match (s.ctx? p).bind fun x => tabGet? x.launches id with
  | some l => l.dying.any fun e => e.2 && e.1 != 0x82
  | none => false
/-- QPUSH: the release, the sequence number, and the entry (R131); one for a consumer that was killed is discarded and counted
(R317). -/
def State.fxPush (s : State) (d : Done) (wd q : Nat) (cmd : BitVec 256) (opr : Vec) : State :=
  let s := s.release d.c d.sl
  let seq := tabGet (s.core d.c).seqs q 0
  let s := s.modCore d.c fun k => { k with seqs := tabPut k.seqs q ((seq + 1) % 2 ^ 16) 0 }
  let s := match d.t.queueOf q with
    | .command =>
      let e : CmdEntry :=
        { cmd := cmd, opr := opr, crc := crc32c (natBytes 32 cmd.toNat ++ natBytes 64 opr.toNat), seq := seq, core := d.c,
          slot := d.sl, queue := q, uid := d.t.uid, part := d.p, launch := d.t.launch, base := d.t.base, size := d.t.size,
          order := d.f.order, bound := false, fired := none, cancelled := s.cancelled d.p d.t.launch, literal := false, since := s.cycle, cut := false }
      s.modCore d.c fun k => k.setCmds q (k.cmdsOf q ++ [e])
    | .output key => match s.chan? d.p key with
      | some h =>
        if let some c := h.sealed_ then s.countSealed c
        else s.sendEntry d.p key h (.data opr)
      | none => s
    | _ => s
  s.putNat d wd seq

/-- EVT.CNT (R137). -/
def evtCount (x : Counter) (a b : Word) : Counter :=
  if natBits b.toNat 16 1 = 0 then { count := natBits a.toNat 0 16, threshold := natBits b.toNat 0 16, overflow := false }
  else
    let n := x.count + natBits a.toNat 0 16
    { x with count := min n 0xFFFF, overflow := x.overflow || decide (0xFFFF < n) }
/-- EVT.READ (R137). -/
def Core.evtWord (k : Core) (n : Nat) : Word :=
  if n < 16 then
    let x := k.counter n
    packFields 64 [(0, 16, x.count), (16, 16, x.threshold), (32, 1, if x.threshold ≤ x.count then 1 else 0), (33, 1, if x.overflow then 1 else 0)]
  else
    let x := k.term (n - 16)
    packFields 64 [(0, 16, x.m0.toNat), (16, 16, x.m1.toNat), (32, 1, if x.armed then 1 else 0), (33, 1, if k.termTrue (n - 16) then 1 else 0)]

/-! ### Threads (R138 to R140) -/

/-- THR.START: status and slot (R138). -/
def State.startStatus (s : State) (c : Nat) (req a : Nat) : Nat × Nat :=
  let want := natBits req 0 7
  let base := natBits a 48 8 * 8
  let size := (natBits a 56 4 + 1) * 8
  if want = 63 ∨ want > 64 ∨ natBits req 7 57 ≠ 0 ∨ natBits a 60 4 ≠ 0 then (4, 0)
  else if want < 63 ∧ (s.thread? c want).isSome then (1, 0)
  else if base + size > 2048 then (2, 0)
  else if a % 4 ≠ 0 then (3, 0)
  else if want = 64 then (match s.lowestFree c with | some sl => (0, sl) | none => (5, 0))
  else (0, want)
/-- THR.START (R138). A thread that a message handler starts belongs to no launch, as its starter does: a DESIGN CHOICE
(log 96). -/
def State.fxStart (s : State) (d : Done) (rd : Nat) (req a : Word) : State :=
  let s := s.release d.c d.sl
  let r := s.startStatus d.c req.toNat a.toNat
  let s := if r.1 ≠ 0 then s
    else
      let t := Thread.start 0 (a.setWidth 48) (natBits a.toNat 48 8 * 8) ((natBits a.toNat 56 4 + 1) * 8) d.t.launch (s.cycle + 1)
      let s := s.placeThread d.c r.2 { t with handler := d.t.handler }
      if d.t.handler then s else s.addUnit d.p d.t.launch
  s.putNat d rd (r.1 + r.2 * 2 ^ 16)

/-- The saved thread of a slot of the core (R139). -/
def State.savedIn (s : State) (p c sl : Nat) : Option Saved :=
  (s.ctx? p).bind fun x => x.saved.find? fun v => v.core == c && v.slot == sl
/-- A slot holds a thread that is not only being emptied. -/
def State.occupant (s : State) (c sl : Nat) : Option Thread :=
  (s.thread? c sl).filter fun t => !t.state.isLeaving

/-- THR.STOP of a slot: the issuer's own slot ends without a result (R139). -/
def State.fxStop (s : State) (d : Done) (rd : Nat) (a : Word) : State :=
  let sl := natBits a.toNat 0 6
  if sl = 63 then s.putNat d rd 2
  else if sl = d.sl then s.fxEnds d
  else match s.occupant d.c sl with
    | some _ => (s.stopThread d.c sl 0 false).putNat d rd 0
    | none => match s.savedIn d.p d.c sl with
      | some v => (s.discardSaved d.p v.record 0 false).putNat d rd 0
      | none => s.putNat d rd 1

/-- THR.RESUME and THR.RESUME.NEXT (R139). -/
def State.fxResume (s : State) (d : Done) (rd : Nat) (a : Word) (next : Bool) : State :=
  let sl := natBits a.toNat 0 6
  if sl = 63 then s.putNat d rd 2
  else match (s.occupant d.c sl).map Thread.state with
    | some (SlotState.trapped _) => (s.resume d.c sl next).putNat d rd 0
    | _ => s.putNat d rd 1

/-- THR.SWAP: at once, or once the target's instruction completes (R139). Where the target is the issuer, the status and record number are in
rd before the thread is saved, and stand in its record: a DESIGN CHOICE (log 96). -/
def State.fxSwap (s : State) (d : Done) (rd : Nat) (a : Word) : State :=
  let sl := natBits a.toNat 0 6
  if sl = 63 then s.putNat d rd 2
  else match s.occupant d.c sl with
    | none => s.putNat d rd 1
    | some t =>
      let r := s.reserveRecord d.p
      match t.state with
      | .trapped _ => s.putNat d rd 1
      | .inflight _ =>
        if t.after.isSome then s.putNat d rd 1
        else (r.2.modThread d.c sl fun t => { t with after := some (.swap r.1 true) }).putNat d rd (r.1 * 2 ^ 16)
      | _ => (r.2.saveThread d.c sl r.1 true none).putNat d rd (r.1 * 2 ^ 16)

/-- THR.SWAP.IN: status and slot (R139). -/
def State.fxSwapIn (s : State) (d : Done) (rd : Nat) (a : Word) : State :=
  match (s.ctx? d.p).bind fun x => x.saved.find? fun v => v.record == natBits a.toNat 0 16 with
  | none => s.putNat d rd 4
  | some v =>
    if v.slot = 63 then s.putNat d rd 2
    else match s.lowestFree d.c with
      | none => s.putNat d rd 5
      | some sl =>
        if (s.threadsOf d.c).any fun e => windowsMeet v.thread.base v.thread.size e.2.base e.2.size then s.putNat d rd 6
        else (s.restoreThread d.p v d.c sl).putNat d rd (sl * 2 ^ 16)

/-- THR.YIELD: a swapped thread of the partition waits for a slot of this core (R140). -/
def State.fxYield (s : State) (d : Done) : State :=
  let waits : Bool := match s.ctx? d.p with | some x => x.saved.any fun v => v.core == d.c && !v.asked | none => false
  if waits ∧ d.t.after.isNone then
    let r := s.reserveRecord d.p
    r.2.modThread d.c d.sl fun t => { t with after := some (.swap r.1 false) }
  else s

/-! ### Neighbour writes, notifies and barriers (R141, R142, R144) -/

/-- NWRITE lands 12 to 16 cycles after issue (R141). -/
def State.fxNwrite (s : State) (d : Done) (core slot reg : Nat) (v : Vec) : State :=
  let w := (s.release d.c d.sl).takeDelay
  let x : Delivery := { core := core, slot := slot, reg := reg, from_ := d.c, src := d.t.uid, part := d.p,
                        due := s.cycle + min 4 w.1, order := d.f.order, val := some v }
  { w.2 with nwrites := w.2.nwrites ++ [x] }
/-- WAKE (R142). -/
def State.fxWake (s : State) (d : Done) (core slot : Nat) (v : Word) : State :=
  let w := (s.release d.c d.sl).takeDelay
  let x : Delivery := { core := core, slot := slot, reg := 0, from_ := d.c, src := d.t.uid, part := d.p,
                        due := s.cycle + w.1, order := d.f.order, val := some (widen v) }
  { w.2 with wakes := w.2.wakes ++ [x] }

/-- One arrival at a barrier by a unit: the barrier, and whether it counted (R144). -/
def Barrier.join (b : Barrier) (uid n : Nat) : Barrier × Bool :=
  if n = 0 ∨ (b.want.isSome ∧ b.want ≠ some n) then (b, false)
  else if b.arrived.length + 1 ≥ n then ({ gen := (b.gen + 1) % 2 ^ 16, want := none, arrived := [] }, true)
  else ({ b with want := some n, arrived := b.arrived ++ [(uid, false)] }, true)
/-- ARRIVE (R144). -/
def State.fxArrive (s : State) (d : Done) (rd scope : Nat) (a : Word) : State :=
  let n := natBits a.toNat 0 4
  let key := barrierKey d.p scope (barrierUnit scope d.c) n
  let b := s.barrier key
  let r := b.join d.t.uid (natBits a.toNat 16 16)
  let s := if r.2 then { s.release d.c d.sl with barriers := tabPut s.barriers key r.1 Barrier.reset } else s
  s.putNat d rd (n + scope * 2 ^ 4 + b.gen * 2 ^ 16 + if r.2 then 0 else topBit)

/-! ### Work (R307 to R309) -/

/-- LAUNCH (R307). -/
def State.fxLaunch (s : State) (d : Done) (rd : Nat) (record : Vec) : State :=
  match s.ctx? d.p with
  | none => s
  | some x =>
    let st := s.checkRecord d.p x record
    if st ≠ 0 then s.putNat d rd st
    else
      let s := s.release d.c d.sl
      match s.ctx? d.p with
      | none => s
      | some x =>
        let r := s.queueRecord d.p x record false
        r.2.putNat d rd (r.1 * 2 ^ 16)

/-- LAUNCH.WAIT, once its level's counter is zero (R307). -/
def State.fxWorkWait (s : State) (d : Done) (rd : Nat) (a : Word) : State :=
  let s := s.drainPart d.p
  match s.workNamed d.p a, s.ctx? d.p with
  | some (level, id), some x => s.putNat d rd (x.levelResult level id)
  | _, _ => s.putNat d rd topBit
/-- LAUNCH.QUERY (R307). -/
def State.fxWorkQuery (s : State) (d : Done) (rd : Nat) (a : Word) : State :=
  match s.workNamed d.p a, s.ctx? d.p with
  | some (level, id), some x => s.putNat d rd (x.levelCount level id % 2 ^ 32 + if level = 1 then x.graphRound id % 2 ^ 32 * 2 ^ 32 else 0)
  | _, _ => s.putNat d rd topBit
/-- LAUNCH.AGE (R307). -/
def State.fxAge (s : State) (d : Done) (rd : Nat) (a : Word) : State :=
  match s.ctx? d.p with
  | none => s
  | some x =>
    if a = 0 ∨ a.toNat ≥ 2 ^ 16 then s.putNat d rd (x.ageLimit + 2 ^ 16)
    else (s.setCtx d.p { x with ageLimit := a.toNat }).putNat d rd x.ageLimit

/-- CANCEL: what it does before it waits for instructions in flight. Launches that an earlier CANCEL is ending are not its
own (R308, R311). -/
def State.fxCancel (s : State) (d : Done) (rd level : Nat) (rewind : Bool) (a : Word) : Out :=
  let id := if level = 3 then 0 else levelId level a.toNat
  let extra := if level = 3 then a != 0 else decide (a.toNat ≠ id)
  match s.ctx? d.p with
  | none => .done s
  | some x =>
    if extra then .done (s.putNat d rd 2)
    else if !x.named level id then .done (s.putNat d rd 1)
    else
      let dies (n : Nat) : Bool := match tabGet? x.launches n with | some l => l.dying.isSome | none => false
      let ids := if rewind then x.rewindTasks id else (x.liveOf level id).filter fun n => !dies n
      let task : Bool := match tabGet? x.launches d.t.launch with | some l => l.site == some (d.c, d.sl) | none => false
      let self := ids.contains d.t.launch && !d.t.handler && (!rewind || task)
      let gs := if level = 1 then [id] else if level = 3 then x.graphs.map Prod.fst else []
      let s := if rewind then s.rewindStop d.p ids
        else (s.cancelLaunches d.p ids 0x80 (if self then some d.t.uid else none)).modCtx d.p fun x => x.detachGraphs ids gs
      { s := s, jump := none, more := [.cancelEnd rd (BitVec.ofNat 64 (ids.length * 2 ^ 16)) ids rewind id self], stays := false }
/-- CANCEL, once nothing of the work is in flight; an issuer that belongs to the work is stopped last. A rewind counts the
tasks that it restarts or ends, not those lost meanwhile (R308, R311). -/
def State.fxCancelEnd (s : State) (d : Done) (rd : Nat) (result : Word) (ids : List Nat) (rewind : Bool) (graph : Nat) (self : Bool) : State :=
  if rewind then
    let s := if self then s.rewindHold d.c d.sl d.t.uid else s
    let left := match s.ctx? d.p with
      | some x => ids.filter fun n => (match tabGet? x.launches n with | some l => l.state == 3 && !l.lost && !l.site.any fun e => s.coreDoomed e.1 | none => false)
      | none => []
    let s := s.rewindRestart d.p graph left
    if self then s else s.putNat d rd (left.length * 2 ^ 16)
  else
    let s := s.drainPart d.p
    if self then s.haltThread d.c d.sl 0x80 true else s.put d rd (widen result)

/-- A task completes ROUND n: the injections that this triggers are due (R326). -/
def State.roundTriggers (s : State) (c sl n : Nat) : State :=
  let due (i : Injection) : Injection :=
    if fieldAt i.desc 1 1 = 2 ∧ fieldAt i.desc 2 2 = c ∧ fieldAt i.desc 4 1 = sl ∧ fieldAt i.desc 8 8 = n then { i with ready := true }
    else i
  { s with host := { s.host with injections := s.host.injections.map due } }

/-- ROUND writes its checkpoint and the round counts; an uncorrectable word that it reads dooms the core, and the record is
not completed (R305, R306, R309, R312, R320). -/
def State.fxRound (s : State) (d : Done) (rd : Nat) (a : Word) (images : List Vec) (pc : Addr) : State :=
  match s.ctx? d.p with
  | none => s
  | some x =>
    match tabGet? x.launches d.t.launch with
    | none => s
    | some l =>
      let n := l.rounds + 1
      let off := natBits a.toNat 0 20
      let len := natBits a.toNat 20 20
      let slot := checkpointSlot (recArg l.record 2) n
      let s := s.modThread d.c d.sl fun t => { t with roundStep := none }
      if (s.checkRange d.c d.p slot 0x100000 1).isSome then s.putNat d rd (topBit + 3)
      else if (s.badScratch ((List.range len).map fun i => scratchHome + d.c * 2 ^ 20 + off + i)).isSome then s.doomCore d.c (errorKill 1 true)
      else
        let homes := (List.range len).map fun i => scratchHome + d.c * 2 ^ 20 + off + i
        let bytes := homes.map s.homeByte
        let rec_ := checkpointBytes n pc d.t.lk off len (rd - d.t.base) d.t.fflags d.t.lp0 d.t.lp1 images bytes
        let s := s.writeVirt d.c d.p slot rec_
        let s := s.modCtx d.p fun x => { x with launches := tabSet x.launches d.t.launch { l with rounds := n } }
        let s := s.modCtx d.p fun x => x.updateRound (recGraph l.record)
        (s.roundTriggers d.c d.sl n).putNat d rd n

/-! ### Streams (R194, R196) -/

/-- Elements of a command, by the extents that its opcode uses (R180, R183). -/
def CmdEntry.elements (e : CmdEntry) : Nat :=
  match e.opcode with
  | 0x02 => e.bits 219 196 * e.bits 195 184
  | 0x03 => e.bits 219 196 * e.bits 195 184 * e.bits 183 172
  | _ => e.bits 219 196
/-- The unstarted copy command of a thread with a sequence number: in its core's q2, or in that of a core that it has left, or of its
core's image (R172, R194). Of two with one number, the one of its own core. -/
def State.ownCopy (s : State) (d : Done) (seq : Nat) : Option CmdEntry :=
  let mine (l : List CmdEntry) : Option CmdEntry := l.find? fun e => e.seq == seq && e.uid == d.t.uid
  match mine ((s.core d.c).cmdsOf 2) with
  | some e => some e
  | none => match s.cores.findSome? fun k => mine (k.2.cmdsOf 2) with
    | some e => some e
    | none => (s.ctx? d.p).bind fun x => x.images.findSome? fun m => mine (tabGet m.cmds 2 [])
/-- A command is bound, wherever it stands (R178, R194). -/
def State.markBound (s : State) (p : Nat) (e : CmdEntry) : State :=
  let mark (x : CmdEntry) : CmdEntry := if x.order = e.order then { x with bound := true } else x
  if (s.core e.core).cmdsOf 2 |>.contains e then s.modCore e.core fun k => k.setCmds 2 ((k.cmdsOf 2).map mark)
  else s.modCtx p fun x => { x with images := x.images.map fun m => { m with cmds := m.cmds.map fun q => (q.1, q.2.map mark) } }
/-- SBIND (R194). -/
def State.fxSbind (s : State) (d : Done) (rd n : Nat) (a : Word) : State :=
  let seq := natBits a.toNat 0 16
  let bound : Bool := match s.thread? d.c d.sl with | some t => (tabGet? t.streams n).isSome | none => false
  match (if natBits a.toNat 16 48 = 0 then s.ownCopy d seq else none) with
  | none => s.putNat d rd 1
  | some e =>
    if bound ∨ e.bound then s.putNat d rd 2
    else if e.bits 220 220 = 0 then s.putNat d rd 3
    else
      let b : Stream := { key := e.order, seq := seq, ended := false, faulted := false, record := 0, fault := 0, esz := e.bits 223 221,
                          k := 0, total := e.elements, buffer := [] }
      let s := s.modThread d.c d.sl fun t => { t with streams := tabSet t.streams n b }
      (s.markBound d.p e).putNat d rd 0
/-- SDONE (R196). -/
def State.fxSdone (s : State) (d : Done) (rd n : Nat) : State :=
  match (s.thread? d.c d.sl).bind fun t => tabGet? t.streams n with
  | none => s.put d rd (widen (BitVec.allOnes 64))
  | some b =>
    let s := (s.dropStream b).modThread d.c d.sl fun t => { t with streams := tabErase t.streams n }
    s.putNat d rd (b.total - b.k)

/-- LNK.STATUS (R348). -/
def State.linkStatus (s : State) (a : Word) : Word :=
  if a.toNat ≥ 16 then BitVec.allOnes 64
  else
    let q := tabGet s.ports a.toNat Port.reset
    let up := q.state = 2
    packFields 64 [(0, 2, q.state), (2, 8, if up then q.peer else 0), (10, 4, if up then q.peerPort else 0),
      (16, 16, q.txEpoch.toNat % 2 ^ 16), (32, 16, min q.failures 0xFFFF), (48, 8, min q.retrains 0xFF), (56, 8, q.replay.length)]

/-! ### The Keystone (R371, R372) -/

/-- WRT.PRESENT: the buffer is read, and the presentation waits for its answer (R361, R371, R372). -/
def State.fxPresent (s : State) (d : Done) (rd form : Nat) (a : Word) : Out :=
  let s := s.release d.c d.sl
  let n := if form = 2 then 256 else 640
  let homes := s.virtHomes d.c d.p a.toNat n
  match s.ctx? d.p with
  | none => .done s
  | some x =>
    if (s.checkRange d.c d.p a.toNat n 0).isSome then .done (s.putNat d rd 1)
    else if s.unreadable homes then .done ((s.doom homes).putNat d rd 1)
    else
      let s := s.modThread d.c d.sl fun t => match t.state with
        | .inflight f => { t with state := .inflight { f with fx := [.keystoneWait], checked := true } }
        | _ => t
      let q : Pending := { kind := form, bytes := homes.map s.homeByte, thread := some (d.c, d.sl, d.t.uid, rd),
                           presenter := some (d.p, d.c, x.age), limit := 0, granted := false, image := [], prio := 0, flags := 0 }
      { s := s.present q, jump := none, more := [], stays := true }

/-! ### Changes of a range (R284) -/

/-- MEM.UNMAP and MEM.ATTR begin: step 1, the status, and step 2; then they wait for step 3 (R280, R284). -/
def State.changeRange (s : State) (d : Done) (rd : Nat) (v a : Word) (status : State → Ctx → Nat) (go : Effect) : Out :=
  let s := s.release d.c d.sl
  match s.ctx? d.p with
  | none => .done s
  | some x =>
    let st := status s x
    if st ≠ 0 then .done (s.putNat d rd st)
    else { s := s.settleRange d.p (rangeBase v) (rangeLen a), jump := none, more := [go], stays := false }

/-! ### Every effect -/

/-- What an effect does (R18, R26). -/
def State.effect (s : State) (d : Done) : Effect → Out
  | .reg e v => .done (s.put d e v)
  | .token e => .done ((s.putReg d e (Reg.ofToken none)).releasePosts d.t.uid d.f.posts e none)
  | .flags f => .done (s.modThread d.c d.sl fun t => { t with fflags := t.fflags ||| f })
  | .lk a => .done (s.modThread d.c d.sl fun t => { t with lk := a })
  | .loop n l => .done (s.modThread d.c d.sl fun t => if n = 0 then { t with lp0 := l } else { t with lp1 := l })
  | .sysSet x a => .done (match x with
    | 1 => s.modThread d.c d.sl fun t => { t with forkInline := t.forkInline && !a.getLsbD 39 }
    | 5 => s.modThread d.c d.sl fun t => { t with fflags := a.setWidth 5 }
    | 6 => s.modThread d.c d.sl fun t => { t with lk := a.setWidth 48 }
    | 9 => s.modCore d.c fun k => { k with nlost := a.setWidth 32 }
    | _ => s)
  | .load rd kind addrs size acq => .done (s.fxLoad d rd kind addrs size acq)
  | .store writes size rel => .done (s.fxStore d writes size rel)
  | .atomic rd op a b c acq rel => .done (s.fxAtomic d rd op a b c acq rel)
  | .join a => .done (s.fxJoin d a)
  | .pref _ _ => .done s
  | .fence k sc => { s := s.commit d.c d.sl, jump := none, more := [.fenceWait k sc], stays := false }
  | .fenceWait k sc => .done (s.fxFence d k sc)
  | .fork arm a => s.fxFork d arm a
  | .ends => .done (s.fxEnds d)
  | .split => .done (s.uncouple d.c d.sl false)
  | .gang m => s.fxGang d m
  | .qpush wd q cmd opr => .done (s.fxPush d wd q cmd opr)
  | .qtest wd q => .done (s.put d wd (widen (s.queueWord d.c d.p d.t q)))
  | .evtTerm n a => .done (s.modCore d.c fun k => k.setTerm n { k.term n with m0 := a.setWidth 16, m1 := a.extractLsb' 16 16 })
  | .evtCnt n a b => .done (s.modCore d.c fun k => k.setCounter n (evtCount (k.counter n) a b))
  | .evtArm n a => .done (s.modCore d.c fun k => k.setTerm n { k.term n with armed := a.getLsbD 0 })
  | .evtRead wd n => .done (s.put d wd (widen ((s.core d.c).evtWord n)))
  | .thrStart rd req a => .done (s.fxStart d rd req a)
  | .thrStop rd a => .done (s.fxStop d rd a)
  | .thrResume rd a next => .done (s.fxResume d rd a next)
  | .thrSwap rd a => .done (s.fxSwap d rd a)
  | .thrSwapIn rd a => .done (s.fxSwapIn d rd a)
  | .yield => .done (s.fxYield d)
  | .nwrite core slot reg v => .done (s.fxNwrite d core slot reg v)
  | .wake core slot v => .done (s.fxWake d core slot v)
  | .arrive rd scope a => .done (s.fxArrive d rd scope a)
  | .acquire _ => .done s
  | .launch rd record => .done (s.fxLaunch d rd record)
  | .launchWait rd a => .done (s.fxWorkWait d rd a)
  | .launchQuery rd a => .done (s.fxWorkQuery d rd a)
  | .launchAge rd a => .done (s.fxAge d rd a)
  | .cancel rd level rewind a => s.fxCancel d rd level rewind a
  | .cancelEnd rd result ids rewind graph self => .done (s.fxCancelEnd d rd result ids rewind graph self)
  | .round rd a images pc => .done (s.fxRound d rd a images pc)
  | .memMap rd form prot attr v a =>
    let r := s.memMap d.p form prot attr d.f.order v a
    .done (r.2.putNat d rd r.1)
  | .memUnmap rd v a => s.changeRange d rd v a (fun s x => s.unmapStatus x d.f.order v a) (.memUnmapGo rd (rangeBase v) (rangeLen a))
  | .memAttr rd prot attr v a =>
    s.changeRange d rd v a (fun s x => s.attrStatus x prot attr d.f.order v a) (.memAttrGo rd prot attr (rangeBase v) (rangeLen a))
  | .memUnmapGo rd va len => .done ((s.memUnmap d.p va len).putNat d rd 0)
  | .memAttrGo rd prot attr va len => .done ((s.memAttr d.p prot attr va len).putNat d rd 0)
  | .rwtLoad rd a =>
    let r := s.rwtLoad d.c d.p a
    .done (r.2.putNat d rd r.1)
  | .rwtCtl rd a =>
    let r := s.rwtCtl d.p a
    .done (r.2.putNat d rd r.1)
  | .rwtCtlGet rd => .done (s.putNat d rd (match s.ctx? d.p with | some x => x.ceiling | none => 0))
  | .sbind rd n a => .done (s.fxSbind d rd n a)
  | .sdone rd n => .done (s.fxSdone d rd n)
  | .amSend v p => .done (s.amSend d.c d.sl d.p d.f.order v p)
  | .amHandler rd a =>
    let r := s.amHandler d.c d.p a
    .done (r.2.putNat d rd r.1)
  | .lnkStatus rd a => .done (s.put d rd (widen (s.linkStatus a)))
  | .keystoneWait => .done s
  | .recheck _ _ _ => .done s
  | .wrtPresent rd form a => s.fxPresent d rd form a
  | .wrtSplit rd v a =>
    let r := (s.release d.c d.sl).wrtSplit d.p v a
    .done (r.2.putNat d rd r.1)
  | .wrtDelegate rd v a =>
    let r := (s.release d.c d.sl).wrtDelegate d.p d.c v a
    .done (r.2.putNat d rd r.1)
  | .wrtSurrender rd a =>
    let r := (s.release d.c d.sl).wrtSurrender d.p a
    .done (match r.1 with | some n => r.2.putNat d rd n | none => r.2)
  | .wrtQuery rd n a =>
    let s := s.release d.c d.sl
    .done (s.put d rd (widen (s.wrtQuery n a)))
  | .codeAdmit rd v a =>
    let r := (s.release d.c d.sl).codeAdmit d.p d.c v a
    .done (r.2.putNat d rd r.1)
  | .attest rd a =>
    let r := (s.release d.c d.sl).attest d.p d.c a
    .done (r.2.putNat d rd r.1)

end Sys2Proof.Machine
end

