-- ==== Sys2Proof/Machine/Copy.lean ====
section
/-! DEFINITION. The copy engine: the checks of a command, its elements, its ranges, the eviction schedule, and its
completion (R178 to R186, R188, R191, R197, R199, R200). -/
namespace Sys2Proof.Machine

/-! ### Fields and checks (R180 to R182) -/

def CmdEntry.esz (e : CmdEntry) : Nat := e.bits 223 221
def CmdEntry.stream (e : CmdEntry) : Bool := e.bits 220 220 == 1
def CmdEntry.e0 (e : CmdEntry) : Nat := e.bits 219 196
def CmdEntry.e1 (e : CmdEntry) : Nat := e.bits 195 184
def CmdEntry.e2 (e : CmdEntry) : Nat := e.bits 183 172
/-- Bytes of an element. -/
def CmdEntry.elemSize (e : CmdEntry) : Nat := if e.esz = 4 then 64 else 2 ^ e.esz
/-- Extents that an opcode uses. -/
def copyDims (op : Nat) : Nat :=
  match op with | 1 => 1 | 2 => 2 | 3 => 3 | 4 => 1 | 5 => 3 | _ => 0
/-- Words that an opcode leaves unused, and those that hold addresses (R181, R182). -/
def copyUnused (op : Nat) : List Nat := match op with | 4 => [4, 5] | 5 => [2, 3] | 6 => [2, 3, 4, 5] | _ => []
def copyAddrs (op : Nat) : List Nat := match op with | 4 => [0, 1, 2] | 5 => [1] | 6 => [0] | _ => [0, 1]
/-- Words whose alignment check 4 of R182 asks for: strides that the opcode does not use, op2 to op5 of COPY and op3 and op5 of COPY.2D, are
not among them, a DESIGN CHOICE (log 96). -/
def copyAligned (op : Nat) : List Nat :=
  match op with | 1 => [0, 1] | 2 => [0, 1, 2, 4] | 3 => [0, 1, 2, 3, 4, 5] | 4 => [0, 1] | 5 => [1, 4, 5] | _ => []

/-- Check 3: a body or operand field is out of range. -/
def CmdEntry.copyFieldBad (e : CmdEntry) : Bool :=
  let op := e.opcode
  let dims := copyDims op
  let ext := [e.e0, e.e1, e.e2]
  (decide (5 ≤ e.esz)) || e.bits 171 0 != 0 || e.op 6 != 0 || e.op 7 != 0 || (copyUnused op).any (fun i => e.op i != 0) ||
  ((List.range 3).any fun i => if i < dims then ext.getD i 0 == 0 else ext.getD i 0 != 0) ||
  decide (2 ^ 32 < ((ext.take dims).foldl (· * ·) 1) * e.elemSize) || (e.stream && (op == 5 || op == 6)) ||
  (op == 6 && (e.esz != 0 || e.stream)) || (copyAddrs op).any fun i => decide (2 ^ 48 ≤ e.op i)

/-- Check 4: the first word that is not aligned. -/
def CmdEntry.copyMisaligned (e : CmdEntry) : Option Nat :=
  ((List.range 6).find? fun i => ((copyAligned e.opcode).contains i && e.op i % e.elemSize != 0) ||
    (e.opcode == 4 && i == 2 && e.op 2 % 4 != 0)).map e.op

/-- The checks in their order: the outcome of a command that fails one, or was cancelled (R182, R200). -/
def CmdEntry.copyRefusal (e : CmdEntry) : Option Outcome :=
  if e.cancelled then some (.plain 0x0F 4 0)
  else if !e.crcOk then some (.plain 0x0F 1 0)
  else if e.opcode = 0 ∨ 6 < e.opcode then some (.plain 0x0F 2 0)
  else if e.copyFieldBad then some (.plain 0x0F 3 0)
  else e.copyMisaligned.map fun a => .plain 0x04 0 a

/-! ### Elements (R183) -/

/-- Indices of element k. -/
def CmdEntry.index (e : CmdEntry) (k : Nat) : Nat × Nat × Nat :=
  (k % e.e0, k / e.e0 % (max 1 e.e1), k / e.e0 / (max 1 e.e1))
/-- A strided address. -/
def strideAddr (base n i0 i1 : Nat) (s1 : Int) (i2 : Nat) (s2 : Int) : Nat :=
  wrap64 ((base : Int) + (i0 * n : Nat) + (i1 : Int) * s1 + (i2 : Int) * s2)
/-- Strides of dimension 1 and 2 that an opcode uses. -/
def CmdEntry.stride (e : CmdEntry) (i : Nat) : Int :=
  let d := copyDims e.opcode
  if (i = 2 ∨ i = 4) ∧ 2 ≤ d then signed64 (e.op i) else if (i = 3 ∨ i = 5) ∧ 3 ≤ d then signed64 (e.op i) else 0
def CmdEntry.srcAddr (e : CmdEntry) (k : Nat) : Nat :=
  let i := e.index k
  strideAddr (e.op 0) e.elemSize i.1 i.2.1 (e.stride 2) i.2.2 (e.stride 3)
def CmdEntry.dstAddr (e : CmdEntry) (k : Nat) : Nat :=
  let i := e.index k
  strideAddr (e.op 1) e.elemSize i.1 i.2.1 (e.stride 4) i.2.2 (e.stride 5)

/-- Elements of a command by its used extents. -/
def CmdEntry.copyCount (e : CmdEntry) : Nat := ([e.e0, e.e1, e.e2].take (copyDims e.opcode)).foldl (· * ·) 1

/-- The value of element k, or its fault. -/
def State.copySource (s : State) (e : CmdEntry) (k : Nat) : Except ElemFault (List Byte) :=
  let n := e.elemSize
  match e.opcode with
  | 5 => .ok (if n = 64 then (List.range 8).flatMap fun _ => natBytes 8 (e.op 0) else natBytes n (e.op 0))
  | 4 =>
    let at_ := e.op 2 + 4 * k
    match s.elemRead e at_ 4 with
    | .error f => .error f
    | .ok b =>
      let idx := bytesNat b
      if (idx + 1) * n > e.op 3 then .error { status := 0x0F, detail := 3, addr := at_ } else s.elemRead e (e.op 0 + idx * n) n
  | _ => s.elemRead e (e.srcAddr k) n

/-- The writes of a command in order, up to its first fault: each element's read is checked before its write. -/
def State.copyGo (s : State) (e : CmdEntry) : Nat → Nat → List ElemWrite × Option ElemFault
  | 0, _ => ([], none)
  | n + 1, k =>
    match s.copySource e k with
    | .error f => ([], some f)
    | .ok b =>
      match s.elemWrite e (e.dstAddr k) b with
      | .error f => ([], some f)
      | .ok w =>
        let r := s.copyGo e n (k + 1)
        (w :: r.1, r.2)

/-- The core whose scratchpad error an engine's read found, by the address that failed (R312). -/
def State.doomAt (s : State) (e : CmdEntry) (va n : Nat) : State :=
  match s.elemHome e va n 0 with
  | .ok h => s.doom ((List.range n).map fun i => h + i)
  | .error _ => s

/-! ### Ranges (R188) -/

/-- A strided range from its lowest to its highest byte. -/
def CmdEntry.stridedSpan (e : CmdEntry) (base : Nat) (s1 s2 : Int) (write : Bool) : Span :=
  let r1 : Int := s1 * ((max 1 e.e1 - 1 : Nat) : Int)
  let r2 : Int := s2 * ((max 1 e.e2 - 1 : Nat) : Int)
  let lo : Int := (base : Int) + min 0 r1 + min 0 r2
  let hi : Int := (base : Int) + max 0 r1 + max 0 r2 + ((e.e0 * e.elemSize - 1 : Nat) : Int)
  { lo := lo.toNat, hi := hi.toNat, write := write }
def CmdEntry.copySpans (e : CmdEntry) : List Span :=
  let dst := e.stridedSpan (e.op 1) (e.stride 4) (e.stride 5) true
  match e.opcode with
  | 4 => span (e.op 0) (e.op 3) false ++ span (e.op 2) (4 * e.e0) false ++ [dst]
  | 5 => [dst]
  | 6 => span (e.op 0) (e.op 1) false
  | _ => [e.stridedSpan (e.op 0) (e.stride 2) (e.stride 3) false, dst]

/-! ### Eviction schedules (R184, R185) -/

/-- Read bytes as an engine does: the bytes, or the first fault. -/
def State.engineBytes (s : State) (e : CmdEntry) (va n : Nat) : Except ElemFault (List Byte) :=
  (List.range n).foldl (fun (acc : Except ElemFault (List Byte)) i =>
    match acc with
    | .error f => .error f
    | .ok l => match s.elemRead e (va + i) 1 with
      | .ok b => .ok (l ++ b)
      | .error f => .error f) (.ok [])

/-- Lines that intervals of lines cover together, each once. -/
def unionLines (l : List (Nat × Nat)) : Nat :=
  ((l.mergeSort fun a b => decide (a.1 ≤ b.1)).foldl (fun (acc : Nat × Nat) e =>
    (acc.1 + (e.1 + e.2 - max e.1 acc.2), max acc.2 (e.1 + e.2))) (0, 0)).1

/-- Entries of an image that is right for a context's share: header, entries, and lines kept in a round (R184, R185). -/
def readSched (b : List Byte) (l2 : Nat) : Option (List (BitVec 128) × Nat) :=
  let p := byteNat b 6 2
  let n := byteNat b 8 4
  let entries : List (BitVec 128) := (chunks 16 (b.drop 64)).map fun l => BitVec.ofNat 128 (bytesNat l)
  let good (x : BitVec 128) : Bool :=
    fieldAt x 0 8 % 64 == 0 && decide (fieldAt x 0 8 < 2 ^ 48) && decide (1 ≤ fieldAt x 8 4) && decide (fieldAt x 12 2 < p) &&
    decide (fieldAt x 14 1 ≤ 2) && fieldAt x 15 1 == 0
  let kept (r : Nat) : Nat := unionLines ((entries.filter fun x => fieldAt x 12 2 == r && fieldAt x 14 1 == 0).map fun x => (fieldAt x 0 8 / 64, fieldAt x 8 4))
  if byteNat b 0 4 = 0x53434845 ∧ byteNat b 4 2 = 1 ∧ 1 ≤ p ∧ p ≤ 4096 ∧ n ≤ 65536 ∧ b.length = 64 + 16 * n ∧
      bytesNat ((b.drop 12).take 48) = 0 ∧ BitVec.ofNat 32 (byteNat b 0x3C 4) = crc32c (b.take 0x3C ++ b.drop 64) ∧
      entries.all good ∧ (entries.map fun x => fieldAt x 12 2).all fun r => kept r * 64 * 2 ≤ l2 * 2 ^ 20
  then some (entries, p) else none

/-- The image of SCHED.LOAD, read at the start; a share of 0 MiB is the 1 MiB common to all such partitions (R278). The faulting address of
an image that fails with detail 3 is 0, as that of a command that fails checks 1 to 3 of R182: a DESIGN CHOICE, the spec gives none
(log 96). -/
def State.schedImage (s : State) (e : CmdEntry) : Except ElemFault (List (BitVec 128) × Nat) :=
  let bad : ElemFault := { status := 0x0F, detail := 3, addr := 0 }
  let share := match s.ctx? e.part with | some x => max 1 x.l2 | none => 0
  if e.op 1 < 64 then .error bad
  else match s.engineBytes e (e.op 0) 64 with
    | .error f => .error f
    | .ok h =>
      if e.op 1 ≠ 64 + 16 * byteNat h 8 4 then .error bad
      else match s.engineBytes e (e.op 0) (e.op 1) with
        | .error f => .error f
        | .ok b => match readSched b share with | some r => .ok r | none => .error bad

/-- A schedule is installed in the partition's share (R184, R186). -/
def State.installSched (s : State) (e : CmdEntry) (entries : List (BitVec 128)) (rounds : Nat) : State :=
  s.modCtx e.part fun x =>
    let g := match tabGet? x.launches e.launch with | some l => if l.state = 4 ∨ l.detached then 0 else recGraph l.record | none => 0
    let now := if g = 0 then 0 else x.graphRound g
    { x with sched := if entries.isEmpty then none
                      else some { rounds := rounds, entries := entries, graph := g, base := now, high := now, current := 0, applied := none } }

/-! ### Start and completion (R178, R191) -/

/-- Every start condition of R178 but the gate term. -/
def State.copyMayStart (s : State) (e : CmdEntry) : Bool :=
  !(s.core e.core).moving && !s.ending e.part && !s.fencedDecks.contains (deckOf e.core) &&
  decide ((s.activeOn 2 fun a => clusterOf a.entry.core == clusterOf e.core).length < 8) && (!e.stream || e.bound) &&
  s.spansFree e e.copySpans && s.spansRoom e e.copySpans && s.loadsClear e e.copySpans && !s.engineHeld e.core e.part

/-- The start of a checked command: its locks, and its accesses from now on (R188, R197; assumption 9). -/
def State.copyBegin (s : State) (e : CmdEntry) : State :=
  let s := { s.takeLocks e e.copySpans with copyTurn := tabSet s.copyTurn (clusterOf e.core) (e.core % 4) }
  let d := s.takeDelay
  let due := s.cycle + 1 + d.1
  if e.opcode = 6 then
    match s.schedImage e with
    | .ok r => d.2.activate { Active.new e s.cycle due [] (.plain 0 0 0) with sched := some r }
    | .error f => (d.2.doomAt e f.addr 1).activate (Active.new e s.cycle due [] (.plain f.status f.detail f.addr))
  else
    match s.copyGo e e.copyCount 0 with
    | (w, none) => d.2.activate (Active.new e s.cycle due w (.plain 0 0 0))
    | (w, some f) => (d.2.doomAt e f.addr e.elemSize).activate (Active.new e s.cycle due w (.plain f.status f.detail f.addr))

/-- A copy command at the head of its queue: refused by its checks, started, or left to wait (R178, R182). -/
def State.copyStep (s : State) (e : CmdEntry) : State :=
  match e.copyRefusal with
  | some o => s.refuseCommand e o
  | none => if s.copyMayStart e then s.copyBegin e else s

/-- The command whose start is taken. -/
def State.startWith (s : State) (f : CmdEntry → State) : Res :=
  match s.cur with
  | .command e => .next (f e)
  | _ => .fault .noIssuer

/-- COPY (R183). -/
def execCopy (s : State) : Res := s.startWith s.copyStep
/-- COPY.2D (R183). -/
def execCopy2d (s : State) : Res := s.startWith s.copyStep
/-- COPY.3D (R183). -/
def execCopy3d (s : State) : Res := s.startWith s.copyStep
/-- COPY.GATHER (R183). -/
def execCopyGather (s : State) : Res := s.startWith s.copyStep
/-- FILL (R183). -/
def execFill (s : State) : Res := s.startWith s.copyStep
/-- SCHED.LOAD (R184). -/
def execSchedLoad (s : State) : Res := s.startWith s.copyStep

/-- COMMAND_COMPLETION_COPY (R179, R191). -/
def State.copyEnd (s : State) (a : Active) : State :=
  let s := match a.sched with
    | some (entries, rounds) => if a.status = 0 then s.installSched a.entry entries rounds else s
    | none => s
  s.completeWith a [(0x18, 8, a.done), (0x20, 4, a.dropped)]
def execCommandCompletionCopy (s : State) : Res :=
  .next (match tabGet? s.active s.arg.n with
    | some a => if a.entry.queue = 2 ∧ s.mayComplete s.arg.n then s.copyEnd a else s
    | none => s)

end Sys2Proof.Machine
end

