-- ==== Sys2Proof/Machine/Float.lean ====
section
/-! DEFINITION. Exact binary floating point: formats, decoding, one rounding of an exact or truncated value, and the
operations of R68, R80 to R85, R110 and R201. -/
namespace Sys2Proof.Machine

/-- A binary format: exponent bits, mantissa bits (R68, R201). -/
structure Fmt where
  e : Nat
  m : Nat
  deriving DecidableEq, Repr

def f32 : Fmt := ⟨8, 23⟩
def f64 : Fmt := ⟨11, 52⟩
def bf16 : Fmt := ⟨8, 7⟩
def fE5M2 : Fmt := ⟨5, 2⟩

/-- Exponent bias, all-ones exponent field, patterns of infinity, of the largest finite value and of the canonical NaN. -/
def Fmt.bias (f : Fmt) : Nat := 2 ^ (f.e - 1) - 1
def Fmt.ones (f : Fmt) : Nat := 2 ^ f.e - 1
def Fmt.inf (f : Fmt) : Nat := f.ones * 2 ^ f.m
def Fmt.nan (f : Fmt) : Nat := f.inf + 2 ^ (f.m - 1)
def Fmt.sign (f : Fmt) : Nat := 2 ^ (f.e + f.m)
/-- Exponent of the lowest mantissa bit of a subnormal. -/
def Fmt.low (f : Fmt) : Int := 1 - (f.bias : Int) - (f.m : Int)

/-- A decoded value: (−1)^neg × mant × 2^exp when finite. -/
inductive Fp where
  | nan (neg : Bool) (payload : Nat) (quiet : Bool)
  | inf (neg : Bool)
  | fin (neg : Bool) (mant : Nat) (exp : Int)
  deriving DecidableEq, Repr

/-- Decode a pattern. -/
def unpack (f : Fmt) (x : Nat) : Fp :=
  let neg := natBits x (f.e + f.m) 1 == 1
  let e := natBits x f.m f.e
  let m := x % 2 ^ f.m
  if e = f.ones then
    if m = 0 then .inf neg else .nan neg m (natBits m (f.m - 1) 1 == 1)
  else if e = 0 then .fin neg m f.low
  else .fin neg (m + 2 ^ f.m) (f.low + (e : Int) - 1)

/-- Number of significant bits. -/
def bitLen (n : Nat) : Nat := if n = 0 then 0 else Nat.log2 n + 1

/-- Rounding modes of FCVT (R83): 0 RNE, 1 toward zero, 2 down, 3 up, 4 RNE saturating. -/
abbrev Mode := Nat

/-- Whether a magnitude with the given low bit, remainder against half (0 below, 1 equal, 2 above) and exactness
rounds away from zero. -/
def roundsUp (mode : Mode) (neg odd : Bool) (cmp : Nat) (exact : Bool) : Bool :=
  match mode with
  | 1 => false
  | 2 => neg && !exact
  | 3 => !neg && !exact
  | _ => cmp == 2 || (cmp == 1 && odd)

/-- Drop `sh` low bits of m (a truncated value when `sticky`), rounding: the quotient rounded, and exactness. -/
def roundShift (mode : Mode) (neg : Bool) (m sh : Nat) (sticky : Bool) : Nat × Bool :=
  let q := m / 2 ^ sh
  let r := m % 2 ^ sh
  let exact := r == 0 && !sticky
  let half := 2 ^ sh / 2
  let cmp := if sh = 0 then 0 else if r < half then 0 else if r = half && !sticky then 1 else 2
  (if roundsUp mode neg (q % 2 == 1) cmp exact then q + 1 else q, exact)

/-- Exception flags as bits NV 4, DZ 3, OF 2, UF 1, NX 0 (R69). -/
def flagNV : BitVec 5 := 16
def flagDZ : BitVec 5 := 8
def flagOF : BitVec 5 := 4
def flagUF : BitVec 5 := 2
def flagNX : BitVec 5 := 1

/-- A pattern with its sign. -/
def withSign (f : Fmt) (neg : Bool) (x : Nat) : Nat := if neg then x + f.sign else x

/-- Round (−1)^neg × (m, plus a fraction of a unit when `sticky`) × 2^e into a format: pattern and flags (R68, R84).
A truncated value carries at least f.m + 3 bits. -/
def roundPack (f : Fmt) (mode : Mode) (neg : Bool) (m : Nat) (e : Int) (sticky : Bool) : Nat × BitVec 5 :=
  if m = 0 && !sticky then (withSign f neg 0, 0)
  else
    let len := bitLen m
    let top : Int := e + (len : Int) - ((f.m : Int) + 1)
    let q := max top f.low
    let sh := q - e
    let r := if sh ≤ 0 then (m * 2 ^ (-sh).toNat, !sticky) else roundShift mode neg m sh.toNat sticky
    let x := (q - f.low).toNat * 2 ^ f.m + r.1
    if x ≥ f.inf then
      let toMax := mode == 4 || mode == 1 || (mode == 2 && !neg) || (mode == 3 && neg)
      (withSign f neg (if toMax then f.inf - 1 else f.inf), flagOF ||| flagNX)
    else
      let small := e + (len : Int) - 1 < 1 - (f.bias : Int)
      let up := top - e
      let grown := if up ≤ 0 then m else (roundShift mode neg m up.toNat sticky).1
      let tiny := small && !(decide (e + (len : Int) = 1 - (f.bias : Int)) && bitLen grown > f.m + 1)
      (withSign f neg x,
        (if r.2 then 0 else flagNX) ||| (if tiny && !r.2 then flagUF else 0))

/-- A pattern is a NaN, or a signalling NaN. -/
def isNan (f : Fmt) (x : Nat) : Bool := match unpack f x with | .nan _ _ _ => true | _ => false
def isSnan (f : Fmt) (x : Nat) : Bool := match unpack f x with | .nan _ _ q => !q | _ => false

/-- The first NaN operand with its quiet bit set, and NV when any is signalling (R68). -/
def firstNan (f : Fmt) (l : List Nat) : Option (Nat × BitVec 5) :=
  match l.find? (isNan f) with
  | none => none
  | some x => some (if natBits x (f.m - 1) 1 = 1 then x else x + 2 ^ (f.m - 1), if l.any (isSnan f) then flagNV else 0)

/-- A signed dyadic: value × 2^exp. -/
structure Dyadic where
  val : Int
  exp : Int
  deriving DecidableEq, Repr

def Dyadic.zero : Dyadic := ⟨0, 0⟩

/-- Exact product and exact sum. -/
def Dyadic.mul (a b : Dyadic) : Dyadic := ⟨a.val * b.val, a.exp + b.exp⟩
def Dyadic.add (a b : Dyadic) : Dyadic :=
  if a.val = 0 then b else if b.val = 0 then a
  else
    let e := min a.exp b.exp
    ⟨a.val * 2 ^ (a.exp - e).toNat + b.val * 2 ^ (b.exp - e).toNat, e⟩

/-- The exact value of a finite operand. -/
def Fp.dyadic : Fp → Dyadic
  | .fin neg m e => ⟨if neg then -(m : Int) else m, e⟩
  | _ => Dyadic.zero

/-- Round an exact value; an exact zero takes the given sign. -/
def roundDyadic (f : Fmt) (mode : Mode) (d : Dyadic) (zeroNeg : Bool) : Nat × BitVec 5 :=
  if d.val = 0 then (withSign f zeroNeg 0, 0)
  else roundPack f mode (decide (d.val < 0)) d.val.natAbs d.exp false

/-- Sign of a decoded value. -/
def Fp.neg : Fp → Bool
  | .nan n _ _ => n
  | .inf n => n
  | .fin n _ _ => n

def Fp.isZero : Fp → Bool
  | .fin _ 0 _ => true
  | _ => false

/-- The invalid result: canonical NaN with NV (R68). -/
def invalid (f : Fmt) : Nat × BitVec 5 := (f.nan, flagNV)

/-- a + b with one rounding (R80). -/
def fpAdd (f : Fmt) (a b : Nat) : Nat × BitVec 5 :=
  match firstNan f [a, b] with
  | some r => r
  | none =>
    match unpack f a, unpack f b with
    | .inf n, .inf k => if n = k then (withSign f n f.inf, 0) else invalid f
    | .inf n, _ => (withSign f n f.inf, 0)
    | _, .inf k => (withSign f k f.inf, 0)
    | x, y => roundDyadic f 0 (x.dyadic.add y.dyadic) (x.isZero && y.isZero && x.neg && y.neg)

/-- The operand with its sign flipped. -/
def flipSign (f : Fmt) (x : Nat) : Nat := if natBits x (f.e + f.m) 1 = 1 then x - f.sign else x + f.sign

/-- a − b (R80): a NaN operand keeps its sign. -/
def fpSub (f : Fmt) (a b : Nat) : Nat × BitVec 5 :=
  match firstNan f [a, b] with
  | some r => r
  | none => fpAdd f a (flipSign f b)

/-- a × b (R80). -/
def fpMul (f : Fmt) (a b : Nat) : Nat × BitVec 5 :=
  match firstNan f [a, b] with
  | some r => r
  | none =>
    let x := unpack f a
    let y := unpack f b
    let neg := x.neg != y.neg
    match x, y with
    | .inf _, z => if z.isZero then invalid f else (withSign f neg f.inf, 0)
    | z, .inf _ => if z.isZero then invalid f else (withSign f neg f.inf, 0)
    | u, v => roundDyadic f 0 (u.dyadic.mul v.dyadic) neg

/-- A quotient of naturals to n + 3 significant bits at least: quotient, exponent, sticky. -/
def divBits (n p q : Nat) : Nat × Int × Bool :=
  let s := n + 3 + bitLen q
  let x := p * 2 ^ s
  (x / q, -(s : Int), x % q != 0)

/-- a / b (R80). -/
def fpDiv (f : Fmt) (a b : Nat) : Nat × BitVec 5 :=
  match firstNan f [a, b] with
  | some r => r
  | none =>
    let x := unpack f a
    let y := unpack f b
    let neg := x.neg != y.neg
    match x, y with
    | .inf _, .inf _ => invalid f
    | .inf _, _ => (withSign f neg f.inf, 0)
    | _, .inf _ => (withSign f neg 0, 0)
    | .fin _ m e, .fin _ n g =>
      if n = 0 then if m = 0 then invalid f else (withSign f neg f.inf, flagDZ)
      else if m = 0 then (withSign f neg 0, 0)
      else
        let r := divBits f.m m n
        roundPack f 0 neg r.1 (r.2.1 + e - g) r.2.2
    | _, _ => invalid f

/-- Integer square root by binary digits; `fuel` counts the digits still to set. -/
def isqrtGo (n : Nat) : Nat → Nat → Nat
  | 0, r => r
  | fuel + 1, r =>
    let t := r + 2 ^ fuel
    if t * t ≤ n then isqrtGo n fuel t else isqrtGo n fuel r

def isqrt (n : Nat) : Nat := isqrtGo n (bitLen n / 2 + 1) 0

/-- sqrt(a) (R80). -/
def fpSqrt (f : Fmt) (a : Nat) : Nat × BitVec 5 :=
  match firstNan f [a] with
  | some r => r
  | none =>
    match unpack f a with
    | .inf neg => if neg then invalid f else (f.inf, 0)
    | .fin neg m e =>
      if m = 0 then (withSign f neg 0, 0)
      else if neg then invalid f
      else
        let s := f.m + 3
        let t := if (e - 2 * s) % 2 = 0 then (m * 2 ^ (2 * s), e - 2 * s) else (m * 2 ^ (2 * s + 1), e - 2 * s - 1)
        let r := isqrt t.1
        roundPack f 0 false r (t.2 / 2) (decide (r * r ≠ t.1))
    | .nan _ _ _ => invalid f

/-- a × b + c with one rounding (R81). -/
def fpFma (f : Fmt) (a b c : Nat) : Nat × BitVec 5 :=
  let x := unpack f a
  let y := unpack f b
  let bad := match x, y with
    | .inf _, z => z.isZero
    | z, .inf _ => z.isZero
    | _, _ => false
  match firstNan f [a, b, c] with
  | some r => (r.1, r.2 ||| (if bad then flagNV else 0))
  | none =>
    if bad then invalid f
    else
      let neg := x.neg != y.neg
      let z := unpack f c
      match x, y, z with
      | .fin _ _ _, .fin _ _ _, .fin _ _ _ =>
        let p := x.dyadic.mul y.dyadic
        roundDyadic f 0 (p.add z.dyadic) (decide (p.val = 0) && z.isZero && neg && z.neg)
      | .fin _ _ _, .fin _ _ _, .inf k => (withSign f k f.inf, 0)
      | _, _, .inf k => if neg = k then (withSign f k f.inf, 0) else invalid f
      | _, _, _ => (withSign f neg f.inf, 0)

/-- Order of two patterns that are no NaNs, as integers: −0 below +0 (R80). -/
def fpKey (f : Fmt) (x : Nat) : Int :=
  if natBits x (f.e + f.m) 1 = 1 then -((x - f.sign : Nat) : Int) - 1 else (x : Int)

/-- FMIN and FMAX (R80). -/
def fpMin (f : Fmt) (a b : Nat) : Nat × BitVec 5 :=
  match firstNan f [a, b] with
  | some r => r
  | none => (if fpKey f b < fpKey f a then b else a, 0)
def fpMax (f : Fmt) (a b : Nat) : Nat × BitVec 5 :=
  match firstNan f [a, b] with
  | some r => r
  | none => (if fpKey f a < fpKey f b then b else a, 0)

/-- The order of R82: +0 equals −0. -/
def fpLt (f : Fmt) (a b : Nat) : Bool :=
  let x := unpack f a
  let y := unpack f b
  !(x.isZero && y.isZero) && decide (fpKey f a < fpKey f b)
def fpSame (f : Fmt) (a b : Nat) : Bool := ((unpack f a).isZero && (unpack f b).isZero) || a == b

/-- The relations of FEQ, FLT, FLE and FUN with their flags (R82). -/
def fpEq (f : Fmt) (a b : Nat) : Bool × BitVec 5 :=
  if isNan f a || isNan f b then (false, if isSnan f a || isSnan f b then flagNV else 0) else (fpSame f a b, 0)
def fpLess (f : Fmt) (a b : Nat) : Bool × BitVec 5 :=
  if isNan f a || isNan f b then (false, flagNV) else (fpLt f a b, 0)
def fpLessEq (f : Fmt) (a b : Nat) : Bool × BitVec 5 :=
  if isNan f a || isNan f b then (false, flagNV) else (fpLt f a b || fpSame f a b, 0)
def fpUnordered (f : Fmt) (a b : Nat) : Bool × BitVec 5 :=
  (isNan f a || isNan f b, if isSnan f a || isSnan f b then flagNV else 0)

/-- FCLASS: the one bit set (R85). -/
def fpClass (f : Fmt) (a : Nat) : Nat :=
  match unpack f a with
  | .nan _ _ q => if q then 2 ^ 9 else 2 ^ 8
  | .inf neg => if neg then 2 ^ 0 else 2 ^ 7
  | .fin neg m _ =>
    if m = 0 then if neg then 2 ^ 3 else 2 ^ 4
    else if m < 2 ^ f.m then if neg then 2 ^ 2 else 2 ^ 5
    else if neg then 2 ^ 1 else 2 ^ 6

/-- Float to float (R84): a NaN keeps its sign and the leading payload bits that fit. -/
def fpConvert (from_ to_ : Fmt) (mode : Mode) (a : Nat) : Nat × BitVec 5 :=
  match unpack from_ a with
  | .nan neg p q =>
    let lead := if to_.m ≥ from_.m then p * 2 ^ (to_.m - from_.m) else p / 2 ^ (from_.m - to_.m)
    let kept := if natBits lead (to_.m - 1) 1 = 1 then lead else lead + 2 ^ (to_.m - 1)
    (withSign to_ neg (to_.inf + kept), if q then 0 else flagNV)
  | .inf neg => (withSign to_ neg to_.inf, 0)
  | .fin neg m e => roundPack to_ mode neg m e false

/-- Integer to float (R84). -/
def intToFp (f : Fmt) (mode : Mode) (x : Int) : Nat × BitVec 5 :=
  if x = 0 then (0, 0) else roundPack f mode (decide (x < 0)) x.natAbs 0 false

/-- Float to integer within lo to hi (R84): saturation sets NV alone. -/
def fpToInt (f : Fmt) (mode : Mode) (a : Nat) (lo hi : Int) : Int × BitVec 5 :=
  match unpack f a with
  | .nan _ _ _ => (0, flagNV)
  | .inf neg => (if neg then lo else hi, flagNV)
  | .fin neg m e =>
    let r := if e ≥ 0 then (m * 2 ^ e.toNat, true) else roundShift mode neg m (-e).toNat false
    let v : Int := if neg then -(r.1 : Int) else r.1
    if v > hi then (hi, flagNV)
    else if v < lo then (lo, flagNV)
    else (v, if r.2 then 0 else flagNX)

/-- Bits of the fixed-point work of VEXP2 and VLOG2; the enclosure always decides (assumption 16). -/
def workBits : Nat := 256

/-- Σ 1/(k 2^k): ln 2 in workBits fraction bits, rounded down. -/
def ln2Go : Nat → Nat → Nat → Nat
  | 0, _, acc => acc
  | fuel + 1, k, acc => ln2Go fuel (k + 1) (acc + 2 ^ workBits / (k * 2 ^ k))
def ln2 : Nat := ln2Go 256 1 0

/-- Σ y^n/n!, fixed point: term, index, sum. -/
def expGo (y : Nat) : Nat → Nat → Nat → Nat → Nat
  | 0, _, _, acc => acc
  | fuel + 1, n, t, acc =>
    let t' := t * y / 2 ^ workBits / n
    expGo y fuel (n + 1) t' (acc + t')

/-- 2^(m × 2^e) with its sign, for m ≠ 0: a magnitude, its exponent, and whether it is truncated (R110). -/
def exp2Parts (neg : Bool) (m : Nat) (e : Int) : Nat × Int × Bool :=
  if e + (bitLen m : Int) > 9 then (1, if neg then -1000 else 1000, true)
  else
    let x : Int := ((if e ≥ 0 then m * 2 ^ (e.toNat + workBits) else m * 2 ^ workBits / 2 ^ (-e).toNat : Nat) : Int)
    let v : Int := if neg then -x else x
    let k := v / 2 ^ workBits
    let fr := (v - k * 2 ^ workBits).toNat
    if fr = 0 then (1, k, false)
    else
      let y := fr * ln2 / 2 ^ workBits
      (expGo y 70 1 (2 ^ workBits) (2 ^ workBits), k - workBits, true)

/-- 2^(m × 2^e) as a binary32. -/
def exp2Round (neg : Bool) (m : Nat) (e : Int) : Nat × BitVec 5 :=
  let r := exp2Parts neg m e
  roundPack f32 0 false r.1 r.2.1 r.2.2

/-- Σ z^(2i+1)/(2i+1), fixed point. -/
def atanhGo (z2 : Nat) : Nat → Nat → Nat → Nat → Nat
  | 0, _, _, acc => acc
  | fuel + 1, n, p, acc => atanhGo z2 fuel (n + 2) (p * z2 / 2 ^ workBits) (acc + p / n)

/-- log2(m × 2^e) for m ≠ 0 (R110). -/
def log2Round (m : Nat) (e : Int) : Nat × BitVec 5 :=
  let k := e + (bitLen m : Int) - 1
  let one := 2 ^ (bitLen m - 1)
  if m = one then intToFp f32 0 k
  else
    let z := (m - one) * 2 ^ workBits / (m + one)
    let ln := 2 * atanhGo (z * z / 2 ^ workBits) 90 1 z 0
    let v : Int := k * 2 ^ workBits + ((ln * 2 ^ workBits / ln2 : Nat) : Int)
    if v ≥ 0 then roundPack f32 0 false v.natAbs (-(workBits : Int)) true
    else roundPack f32 0 true (v.natAbs - 1) (-(workBits : Int)) true

/-- VRCP, VRSQ, VEXP2 and VLOG2 of one lane (R110). -/
def fpRcp (a : Nat) : Nat × BitVec 5 :=
  match firstNan f32 [a] with
  | some r => r
  | none =>
    match unpack f32 a with
    | .inf neg => (withSign f32 neg 0, 0)
    | .fin neg m e =>
      if m = 0 then (withSign f32 neg f32.inf, flagDZ)
      else
        let r := divBits f32.m 1 m
        roundPack f32 0 neg r.1 (r.2.1 - e) r.2.2
    | .nan _ _ _ => invalid f32

def fpRsq (a : Nat) : Nat × BitVec 5 :=
  match firstNan f32 [a] with
  | some r => r
  | none =>
    match unpack f32 a with
    | .inf neg => if neg then invalid f32 else (0, 0)
    | .fin neg m e =>
      if m = 0 then (withSign f32 neg f32.inf, flagDZ)
      else if neg then invalid f32
      else
        let t := if e % 2 = 0 then (m, e) else (2 * m, e - 1)
        let s : Nat := 60
        let r := isqrt (2 ^ (2 * s) / t.1)
        roundPack f32 0 false r (-(s : Int) - t.2 / 2) (decide (r * r * t.1 ≠ 2 ^ (2 * s)))
    | .nan _ _ _ => invalid f32

def fpExp2 (a : Nat) : Nat × BitVec 5 :=
  match firstNan f32 [a] with
  | some r => r
  | none =>
    match unpack f32 a with
    | .inf neg => (if neg then 0 else f32.inf, 0)
    | .fin neg m e => if m = 0 then (0x3F800000, 0) else exp2Round neg m e
    | .nan _ _ _ => invalid f32

def fpLog2 (a : Nat) : Nat × BitVec 5 :=
  match firstNan f32 [a] with
  | some r => r
  | none =>
    match unpack f32 a with
    | .inf neg => if neg then invalid f32 else (f32.inf, 0)
    | .fin neg m e =>
      if m = 0 then (withSign f32 true f32.inf, flagDZ)
      else if neg then invalid f32
      else log2Round m e
    | .nan _ _ _ => invalid f32

end Sys2Proof.Machine
end

