-- ==== Sys2Proof/Machine/Route.lean ====
section
/-! DEFINITION. The route engine: checks, ranges, the token commands, and the collectives (R332 to R344, R404). -/
namespace Sys2Proof.Machine

/-! ### Fields and checks (R333, R335, R336) -/

def CmdEntry.nTok (e : CmdEntry) : Nat := e.bits 223 208
/-- Token bytes T. -/
def CmdEntry.tokenBytes (e : CmdEntry) : Nat := 64 * e.bits 207 200
def CmdEntry.nExp (e : CmdEntry) : Nat := e.bits 199 192
def CmdEntry.nDev (e : CmdEntry) : Nat := e.bits 191 184
def CmdEntry.topK (e : CmdEntry) : Bool := e.bits 183 183 == 1
def CmdEntry.collOp (e : CmdEntry) : Nat := e.bits 223 220
def CmdEntry.collType (e : CmdEntry) : Nat := e.bits 219 217
def CmdEntry.collCount (e : CmdEntry) : Nat := e.bits 216 193
def CmdEntry.collTag (e : CmdEntry) : Nat := e.bits 192 177
def CmdEntry.collRoot (e : CmdEntry) : Nat := e.bits 176 169
/-- The member map (R336). -/
def CmdEntry.collMap (e : CmdEntry) : BitVec 256 := BitVec.ofNat 256 (e.opr.toNat / 2 ^ 256)
/-- Members in increasing device ID: rank r is the r-th (R343). -/
def mapRanks (m : BitVec 256) : List Nat := (List.range 256).filter fun d => m.getLsbD d
def CmdEntry.ranks (e : CmdEntry) : List Nat := mapRanks e.collMap
def isColl (op : Nat) : Bool := decide (0x10 ≤ op) && decide (op ≤ 0x13)
/-- Bytes of a collective's element. -/
def CmdEntry.collSize (e : CmdEntry) : Nat := if e.collType = 1 then 2 else 4
def ownDevice : Nat := Config.deviceId.toNat

/-- Alignments of op0 to op4 (R336). -/
def CmdEntry.routeAligns (e : CmdEntry) : List (Nat × Nat) :=
  match e.opcode with
  | 0x01 => [(0, 16), (1, 16), (2, 4), (3, 2), (4, 2)]
  | 0x02 => [(0, 64), (1, 16), (2, 16), (3, 2), (4, 8)]
  | 0x03 => [(0, 64), (1, 16), (2, 16), (3, 2), (4, 8)]
  | _ => [(0, e.collSize), (1, e.collSize)]

/-- Check 3: a body or operand field is out of range (R335, R336, R343). -/
def CmdEntry.routeFieldBad (e : CmdEntry) : Bool :=
  let op := e.opcode
  if isColl op then
    let plain := op == 0x11 || op == 0x13
    decide (2 < e.collOp) || (plain && e.collOp != 0) || !([0, 1, 5].contains e.collType) || e.collCount == 0 ||
    (op != 0x13 && e.collRoot != 0) || e.bits 168 0 != 0 || e.op 2 != 0 || e.op 3 != 0 ||
    decide (2 ^ 48 ≤ e.op 0) || decide (2 ^ 48 ≤ e.op 1) || decide (e.ranks.length < 2) || !e.collMap.getLsbD ownDevice ||
    (op == 0x13 && !e.collMap.getLsbD e.collRoot)
  else
    e.nTok == 0 || decide (64 < e.bits 207 200) || e.bits 207 200 == 0 || (op != 1 && e.nDev != 0) || e.bits 182 0 != 0 ||
    [5, 6, 7].any (fun i => e.op i != 0) || (List.range (if op = 1 then 4 else 5)).any fun i => decide (2 ^ 48 ≤ e.op i)

/-- The checks in their order: the outcome of a command that fails one, or was cancelled (R182, R333, R334). -/
def CmdEntry.routeRefusal (e : CmdEntry) : Option Outcome :=
  if e.cancelled then some (.plain 0x0F 4 0)
  else if !e.crcOk then some (.plain 0x0F 1 0)
  else if !([0x01, 0x02, 0x03].contains e.opcode || isColl e.opcode) then some (.plain 0x0F 2 0)
  else if e.routeFieldBad then some (.plain 0x0F 3 0)
  else (e.routeAligns.find? fun a => e.op a.1 % a.2 != 0).map fun a => .plain 0x04 0 (e.op a.1)

/-! ### Reading -/

/-- Read n bytes at an address, in pieces that stay within a line: all of them, or the fault at the element's address. -/
def State.routeRead (s : State) (e : CmdEntry) (va n : Nat) : Except ElemFault (List Byte) :=
  match s.engineBytes e va n with
  | .ok b => .ok b
  | .error f => .error { f with addr := va }

/-- Writes of n bytes at an address, none of them when any byte fails. -/
def State.routeWrites (s : State) (e : CmdEntry) (va : Nat) (bs : List Byte) : Except ElemFault (List ElemWrite) :=
  let r := (List.range bs.length).map fun i => s.elemHome e (va + i) 1 1
  match r.find? fun x => match x with | .error _ => true | .ok _ => false with
  | some (.error f) => .error { f with addr := va }
  | _ => .ok (((r.zip bs).map fun x => match x.1 with | .ok h => (h, x.2) | .error _ => (0, x.2)).map fun x => { addr := x.1, bytes := [x.2] })

/-- Join writes of neighbouring bytes into one element. -/
def joinWrites : List ElemWrite → List ElemWrite
  | [] => []
  | w :: l =>
    match joinWrites l with
    | x :: rest => if w.addr + w.bytes.length = x.addr then { addr := w.addr, bytes := w.bytes ++ x.bytes } :: rest else w :: x :: rest
    | [] => [w]

/-- Fields of an expert entry: device, and control-line address (R337). -/
structure Expert where
  dev : Nat
  line : Nat
  deriving DecidableEq, Repr

/-- Expert entry x of a table, with the checks of its device (R342). -/
def State.expertAt (s : State) (e : CmdEntry) (table x : Nat) : Except ElemFault Expert :=
  let va := table + 16 * x
  match s.routeRead e va 16 with
  | .error f => .error f
  | .ok b =>
    let dev := byteNat b 0 1
    let allowed := match s.ctx? e.part with | some c => c.mayPeer dev | none => false
    if dev ≠ ownDevice ∧ (!allowed ∨ !Config.peerHolds dev e.order) then .error { status := 0x07, detail := 0, addr := va }
    else if !s.reachable dev then .error { status := 0x0E, detail := 0, addr := va }
    else .ok { dev := dev, line := byteNat b 8 8 }

/-- The status of a failed access on another device: not mapped, PERMISSION or ALIAS_ATTR (R199, R342). -/
def peerStatus (n : Nat) : Nat := match n % 3 with | 0 => 0x05 | 1 => 0x07 | _ => 0x08

/-- Homes of n bytes of the context's space on a device; a failure is at the element's address. -/
def State.peerHomes (s : State) (e : CmdEntry) (dev va n : Nat) (k : Kind) : Except ElemFault (List Nat) :=
  if dev = ownDevice then
    let r := (List.range n).map fun i => s.elemHome e (va + i) 1 k
    match r.find? fun x => match x with | .error _ => true | .ok _ => false with
    | some (.error f) => .error { f with addr := va }
    | _ => .ok (r.map fun x => match x with | .ok h => h | .error _ => 0)
  else
    let r := (List.range n).map fun i => Config.peerTranslate dev (va + i) e.order
    if r.all Option.isSome then .ok (r.map fun x => remoteHome dev (x.getD 0))
    else .error { status := peerStatus (Config.peerFault dev va e.order), detail := 0, addr := va }

/-- Bytes at homes; lost data fails at the element's address. -/
def State.peerBytes (s : State) (va : Nat) (homes : List Nat) : Except ElemFault (List Byte) :=
  if (s.homeLost homes).isSome ∨ (s.badScratch homes).isSome then .error { status := 0x0E, detail := 0, addr := va }
  else .ok (homes.map s.homeByte)

/-- A control line, checked: its homes and its bytes (R338, R342). -/
def State.controlLine (s : State) (e : CmdEntry) (x : Expert) (k : Kind) : Except ElemFault (List Nat × List Byte) :=
  if x.line % 64 ≠ 0 then .error { status := 0x0F, detail := 3, addr := x.line }
  else match s.peerHomes e x.dev x.line 64 k with
    | .error f => .error f
    | .ok h => match s.peerBytes x.line h with
      | .error f => .error f
      | .ok b =>
        if byteNat b 0 4 = 0 ∨ 65535 < byteNat b 0 4 ∨ bytesNat (b.drop 0x28) ≠ 0 then .error { status := 0x0F, detail := 3, addr := x.line }
        else .ok (h, b)

/-! ### Ranges (R404) -/

/-- The index list, as far as it can be read. -/
def State.indexList (s : State) (e : CmdEntry) : Except ElemFault (List Nat) :=
  (List.range e.nTok).foldl (fun (acc : Except ElemFault (List Nat)) q =>
    match acc with
    | .error f => .error f
    | .ok l => match s.routeRead e (e.op 3 + 2 * q) 2 with
      | .error f => .error f
      | .ok b => .ok (l ++ [bytesNat b])) (.ok [])

/-- The ranges that the operand record names (R404). -/
def State.routeRanges (s : State) (e : CmdEntry) : List Span :=
  let n := e.ranks.length
  let c := e.collCount * e.collSize
  match e.opcode with
  | 0x01 => span (e.op 0) (16 * e.nTok) false ++ span (e.op 1) (16 * (e.nExp + 1)) false ++
      span (e.op 2) (4 * (e.nDev + 1)) true ++ span (e.op 3) ((e.nDev + 1) * e.op 4) true
  | 0x02 =>
    span (e.op 3) (2 * e.nTok) false ++
    (match s.indexList e with
     | .error _ => []
     | .ok l =>
       let m := l.foldl max 0 + 1
       span (e.op 1) (16 * m) false ++ span (e.op 2) (16 * (e.nExp + 1)) false ++ span (e.op 0) (e.tokenBytes * m) false ++ span (e.op 4) (8 * m) true)
  | 0x03 =>
    span (e.op 3) (2 * e.nTok) false ++
    (match s.indexList e with
     | .error _ => []
     | .ok l =>
       let m := l.foldl max 0 + 1
       span (e.op 1) (16 * m) false ++ span (e.op 2) (16 * (e.nExp + 1)) false ++ span (e.op 4) (8 * m) false ++ span (e.op 0) (e.tokenBytes * m) true)
  | 0x11 => span (e.op 0) c false ++ span (e.op 1) (n * c) true
  | 0x12 => span (e.op 0) (n * c) false ++ span (e.op 1) c true
  | _ => span (e.op 0) c false ++ span (e.op 1) c true

/-- The page of an address of the context lies on another device. -/
def State.pageRemote (s : State) (p va : Nat) : Bool := match s.translate p va with | some l => l.dev.isSome | none => false
/-- A range by its pages: each page's part, and whether it lies on another device. -/
def State.pagePieces (s : State) (p : Nat) (x : Span) : List (Span × Bool) :=
  (List.range (x.hi / 4096 + 1 - x.lo / 4096)).map fun i =>
    let page := (x.lo / 4096 + i) * 4096
    let y := { x with lo := max x.lo page, hi := min x.hi (page + 4095) }
    (y, s.pageRemote p y.lo)
/-- Join neighbouring parts. -/
def joinSpans : List Span → List Span
  | [] => []
  | x :: l =>
    match joinSpans l with
    | y :: rest => if x.hi + 1 = y.lo then { x with hi := y.hi } :: rest else x :: y :: rest
    | [] => [x]
/-- The ranges that a command locks: those on other devices never are (R332, R404). -/
def State.routeSpans (s : State) (e : CmdEntry) : List Span :=
  (s.routeRanges e).flatMap fun x => joinSpans (((s.pagePieces e.part x).filter fun y => !y.2).map Prod.fst)
/-- A range of the command lies on another device: its completion scope is POD (R332). -/
def State.routeRemote (s : State) (e : CmdEntry) : Bool :=
  (s.routeRanges e).any fun x => (s.pagePieces e.part x).any fun y => y.2

/-! ### RTE.LIST (R339) -/

/-- Entries i of the choice table on: counts so far, writes up to a fault, and tokens listed. -/
def State.listGo (s : State) (e : CmdEntry) : Nat → Nat → Tab Nat → List ElemWrite × Option ElemFault × Tab Nat × Nat
  | 0, _, count => ([], none, count, 0)
  | n + 1, i, count =>
    let ce := e.op 0 + 16 * i
    let bad : ElemFault := { status := 0x0F, detail := 3, addr := ce }
    match s.routeRead e ce 16 with
    | .error f => ([], some f, count, 0)
    | .ok b =>
      let x := byteNat b 0 2
      if e.nExp < x then ([], some bad, count, 0)
      else match s.routeRead e (e.op 1 + 16 * x) 16 with
        | .error f => ([], some f, count, 0)
        | .ok eb =>
          let d := byteNat eb 0 1
          let k := tabGet count d 0
          if e.nDev < d ∨ e.op 4 < 2 * k + 2 then ([], some bad, count, 0)
          else match s.elemWrite e (e.op 3 + d * e.op 4 + 2 * k) (natBytes 2 i) with
            | .error f => ([], some f, count, 0)
            | .ok w =>
              let r := s.listGo e n (i + 1) (tabSet count d (k + 1))
              (w :: r.1, r.2.1, r.2.2.1, r.2.2.2 + 1)

/-- RTE.LIST: its writes up to a fault, and the tokens listed. -/
def State.listRun (s : State) (e : CmdEntry) : List ElemWrite × Option ElemFault × Nat :=
  match s.listGo e e.nTok 0 [] with
  | (w, some f, _, n) => (w, some f, n)
  | (w, none, count, n) =>
    let r := (List.range (e.nDev + 1)).foldl (fun (acc : List ElemWrite × Option ElemFault) d =>
      match acc.2 with
      | some _ => acc
      | none => match s.elemWrite e (e.op 2 + 4 * d) (natBytes 4 (tabGet count d 0)) with
        | .error f => (acc.1, some f)
        | .ok x => (acc.1 ++ [x], none)) (w, none)
    (r.1, r.2, n)

/-! ### RTE.DISPATCH (R340, R342), a step at a time -/

/-- The tokens a dispatch has counted, by outcome (R333), in record bytes 0x18 to 0x23. -/
def Active.counted (a : Active) (outcome : Nat) : Active :=
  { a with extra := packBytes 320 ([0, 1, 2].map fun o => (4 * o, 4, fieldAt a.extra (4 * o) 4 + if o = outcome then 1 else 0)) }
/-- The command ends with a fault: nothing after it is written. -/
def Active.fails (a : Active) (f : ElemFault) : Active :=
  { a with steps := [], writes := [], status := f.status, detail := f.detail, fault := BitVec.ofNat 64 f.addr }

/-- The command has reached another device, so that its completion is of scope POD (R332). -/
def Active.reached (a : Active) (away : Bool) : Active := { a with pod := a.pod || away }

/-- Write bytes at homes. -/
def State.writeHomes (s : State) (p : Nat) (homes : List Nat) (bs : List Byte) : State :=
  s.routeWrite p ((homes.zip bs).foldl (fun t x => tabSet t x.1 x.2) [])

/-- A placement record is written (R337). -/
def State.placeRecord (s : State) (e : CmdEntry) (i expert slot outcome : Nat) : Except ElemFault State :=
  match s.elemWrite e (e.op 4 + 8 * i) (natBytes 2 expert ++ natBytes 2 slot ++ natBytes 1 outcome ++ natBytes 3 0) with
  | .error f => .error f
  | .ok w => .ok ((s.routeWrite e.part (((List.range 8).map fun j => w.addr + j).zip w.bytes)).countDropped [w.addr])

/-- What one try of a token at an expert gave: a fault, a refusal, each with whether the expert stands on another device and its line
was reached there, or its slot and line. -/
inductive Claim where
  | fault (f : ElemFault) (away : Bool)
  | refused (away : Bool)
  | placed (slot : Nat) (x : Expert)
  deriving DecidableEq, Repr

/-- Claim a slot at an expert's control line and, with it, write the token and its header (R340). -/
def State.claimToken (s : State) (e : CmdEntry) (i expert rank weight : Nat) (choiceAt : Nat) : State × Claim :=
  if e.nExp < expert then (s, .fault { status := 0x0F, detail := 3, addr := choiceAt } false)
  else match s.expertAt e (e.op 2) expert with
    | .error f => (s, .fault f false)
    | .ok x =>
      let away := x.dev != ownDevice
      match s.controlLine e x 2 with
      | .error f => (s, .fault f false)
      | .ok (homes, b) =>
        let cap := byteNat b 0 4
        let claimed := byteNat b 4 4
        if cap ≤ claimed then
          (s.writeHomes e.part ((homes.drop 0xC).take 4) (natBytes 4 (byteNat b 0xC 4 + 1)), .refused away)
        else
          let s := s.writeHomes e.part ((homes.drop 4).take 4) (natBytes 4 (claimed + 1))
          let t := e.tokenBytes
          let header := natBytes 2 i ++ natBytes 1 ownDevice ++ natBytes 1 rank ++ natBytes 2 expert ++ natBytes 2 claimed ++
            natBytes 4 weight ++ natBytes 2 e.seq ++ natBytes 2 0
          match s.routeRead e (e.op 0 + i * t) t, s.peerHomes e x.dev (byteNat b 0x10 8 + claimed * t) t 1,
              s.peerHomes e x.dev (byteNat b 0x18 8 + 16 * claimed) 16 1 with
          | .error f, _, _ => (s, .fault f away)
          | _, .error f, _ => (s, .fault f away)
          | _, _, .error f => (s, .fault f away)
          | .ok bytes, .ok th, .ok hh =>
            let s := ((s.writeHomes e.part th bytes).writeHomes e.part hh header).countDropped (th ++ hh)
            let s := if x.dev = ownDevice then s else s.count e.part 9 (t + 16)
            (s, .placed claimed x)

/-- A token's placement: its ranks in order. -/
def State.tokenStep (s : State) (a : Active) (i : Nat) : State × Active :=
  let e := a.entry
  let at_ := e.op 1 + 16 * i
  let drop (s : State) (a : Active) : State × Active :=
    match s.placeRecord e i 0xFFFF 0 2 with
    | .error f => (s, a.fails f)
    | .ok s => (s, { a.counted 2 with steps := a.steps.drop 1, done := a.done + 1 })
  let won (s : State) (a : Active) (x : Expert) (expert slot rank : Nat) : State × Active :=
    (s, { a with steps := .fill i expert slot rank x.dev x.line :: a.steps.drop 1, done := a.done + 1, pod := a.pod || x.dev != ownDevice })
  match s.routeRead e at_ 16 with
  | .error f => (s, a.fails f)
  | .ok b =>
    let e0 := byteNat b 0 2
    let e1 := byteNat b 2 2
    match s.claimToken e i e0 0 (byteNat b 8 4) at_ with
    | (s, .fault f away) => (s, (a.reached away).fails f)
    | (s, .placed slot x) => won s a x e0 slot 0
    | (s, .refused away) =>
      if e.topK && e1 != 0xFFFF then
        match s.claimToken e i e1 1 (byteNat b 0xC 4) at_ with
        | (s, .fault f far) => (s, (a.reached (away || far)).fails f)
        | (s, .placed slot x) => won s (a.reached away) x e1 slot 1
        | (s, .refused far) => drop s (a.reached (away || far))
      else drop s (a.reached away)

/-- The Filled increment of a placed token and its placement record; a device that has become unreachable since the claim is named
by the expert's entry (R340, R342). -/
def State.fillStep (s : State) (a : Active) (i expert slot rank dev line : Nat) : State × Active :=
  if !s.reachable dev then (s, a.fails { status := 0x0E, detail := 0, addr := a.entry.op 2 + 16 * expert })
  else match s.peerHomes a.entry dev line 64 2 with
  | .error f => (s, a.fails f)
  | .ok h => match s.peerBytes line h with
    | .error f => (s, a.fails f)
    | .ok b =>
      let s := s.writeHomes a.entry.part ((h.drop 8).take 4) (natBytes 4 (byteNat b 8 4 + 1))
      match s.placeRecord a.entry i expert slot rank with
      | .error f => (s, a.fails f)
      | .ok s => (s, { a.counted rank with steps := a.steps.drop 1, done := a.done + 1 })

/-- The next step of a dispatch. -/
def State.routeStep (s : State) (key : Nat) : State :=
  match tabGet? s.active key with
  | none => s
  | some a =>
    let r := match a.steps with
      | [] => (s, a)
      | .token i :: _ => s.tokenStep a i
      | .fill i x sl rk d l :: _ => s.fillStep a i x sl rk d l
    let v := if r.2.status = 0x0E then r.1.doomAt a.entry r.2.fault.toNat a.entry.tokenBytes else r.1
    { v with active := tabSet v.active key r.2 }

/-! ### RTE.COMBINE (R341, R342) -/

/-- The output token of entry i: its bytes and its outcome, or a fault. -/
def State.combineToken (s : State) (e : CmdEntry) (i : Nat) : Except ElemFault (List Byte × Nat) :=
  let pa := e.op 4 + 8 * i
  match s.routeRead e pa 8 with
  | .error f => .error f
  | .ok p =>
    let outcome := byteNat p 4 1
    if 2 < outcome then .error { status := 0x0F, detail := 3, addr := pa }
    else if outcome = 2 then .ok (List.replicate e.tokenBytes 0, 2)
    else
      let ca := e.op 1 + 16 * i
      match s.routeRead e ca 16 with
      | .error f => .error f
      | .ok c =>
        let expert := byteNat p 0 2
        let w := byteNat c (8 + 4 * outcome) 4
        if e.nExp < expert then .error { status := 0x0F, detail := 3, addr := pa }
        else match s.expertAt e (e.op 2) expert with
          | .error f => .error f
          | .ok x => match s.controlLine e x 0 with
            | .error f => .error f
            | .ok (_, b) =>
              let va := byteNat b 0x20 8 + byteNat p 2 2 * e.tokenBytes
              match s.peerHomes e x.dev va e.tokenBytes 0 with
              | .error f => .error f
              | .ok h => match s.peerBytes va h with
                | .error f => .error f
                | .ok r => .ok ((chunks 4 r).flatMap fun v => natBytes 4 (fpMul f32 w (bytesNat v)).1, outcome)

/-- Entry i of a combine reads another device (R332, R341). -/
def State.combineRemote (s : State) (e : CmdEntry) (i : Nat) : Bool :=
  match s.routeRead e (e.op 4 + 8 * i) 8 with
  | .error _ => false
  | .ok p => decide (byteNat p 4 1 < 2) && (match s.expertAt e (e.op 2) (byteNat p 0 2) with | .ok x => x.dev != ownDevice | .error _ => false)

/-- RTE.COMBINE: its writes up to a fault, and the tokens by outcome. -/
def State.combineGo (s : State) (e : CmdEntry) : List Nat → List ElemWrite × Option ElemFault × (Nat × Nat × Nat)
  | [] => ([], none, (0, 0, 0))
  | i :: rest =>
    match s.combineToken e i with
    | .error f => ([], some f, (0, 0, 0))
    | .ok (b, o) => match s.routeWrites e (e.op 0 + i * e.tokenBytes) b with
      | .error f => ([], some f, (0, 0, 0))
      | .ok w =>
        let r := s.combineGo e rest
        let n := r.2.2
        (joinWrites w ++ r.1, r.2.1, (n.1 + (if o = 0 then 1 else 0), n.2.1 + (if o = 1 then 1 else 0), n.2.2 + (if o = 2 then 1 else 0)))

/-! ### Collectives (R343, R344) -/

/-- One element operation (R344). -/
def collCombine (op ty x y : Nat) : Nat :=
  let f := if ty = 1 then bf16 else f32
  if ty = 5 then
    let a := (BitVec.ofNat 32 x).toInt
    let b := (BitVec.ofNat 32 y).toInt
    match op with | 0 => (x + y) % 2 ^ 32 | 1 => if a < b then y else x | _ => if b < a then y else x
  else match op with | 0 => (fpAdd f x y).1 | 1 => (fpMax f x y).1 | _ => (fpMin f x y).1

/-- One level of the tree: neighbours are joined, an odd last one goes up alone. -/
def collLevel (f : Nat → Nat → Nat) : List (List Nat) → List (List Nat)
  | a :: b :: l => (List.zipWith f a b) :: collLevel f l
  | l => l
/-- The element tree over the ranks' values (R344). -/
def collTree (f : Nat → Nat → Nat) : Nat → List (List Nat) → List Nat
  | 0, l => l.head?.getD []
  | n + 1, l => match l with | [v] => v | l => collTree f n (collLevel f l)

/-- Elements of a byte string. -/
def elements (n : Nat) (b : List Byte) : List Nat := (chunks n b).map bytesNat

/-- The elements that a member's output takes from every rank's input, lowest rank first (R344). -/
def collOutput (e : CmdEntry) (own : Nat) (inputs : List (List Byte)) : List Nat :=
  let n := e.collSize
  let xs := inputs.map (elements n)
  let tree := collTree (collCombine e.collOp e.collType) xs.length xs
  match e.opcode with
  | 0x10 => tree
  | 0x11 => xs.flatten
  | 0x12 => (tree.drop (own * e.collCount)).take e.collCount
  | _ => xs.getD ((e.ranks.findIdx? fun d => d == e.collRoot).getD 0) []

/-- Two members gave the same command (R343). -/
def Member.agrees (a b : Member) : Bool := a.opcode == b.opcode && a.body == b.body && a.map == b.map

/-- Own rank of a command's device. -/
def CmdEntry.ownRank (e : CmdEntry) : Nat := (e.ranks.findIdx? fun d => d == ownDevice).getD 0

/-- Element writes at consecutive addresses, up to the first fault. -/
def State.outputWrites (s : State) (e : CmdEntry) (n : Nat) : Nat → List Nat → List ElemWrite × Option ElemFault
  | _, [] => ([], none)
  | va, x :: l =>
    match s.elemWrite e va (natBytes n x) with
    | .error f => ([], some f)
    | .ok w =>
      let r := s.outputWrites e n (va + n) l
      (w :: r.1, r.2)

/-- When the last use of a tag ended here, in quarters of a nanosecond; none before the first. What began no later belongs to it
(R343; log 107). -/
def State.lastColl (s : State) (tag : Nat) (serial : BitVec 128) : Option Nat :=
  (s.collEnded.find? fun e => e.1 == tag && e.2.1 == serial).map fun e => e.2.2
/-- A use of a tag ends here. -/
def State.endColl (s : State) (tag : Nat) (serial : BitVec 128) : State :=
  { s with collEnded := (s.collEnded.filter fun e => !(e.1 == tag && e.2.1 == serial)) ++ [(tag, serial, s.timeQ)] }
/-- A member of which only the difference is known: it agrees with no other (R343). -/
def Member.differing (dev : Nat) : Member := { dev := dev, opcode := 0, body := 0, map := 0, input := [] }
/-- It is one of those. -/
def Member.odd (m : Member) : Bool := m.opcode == 0
/-- The own join among those of a waiting collective. -/
def ownMember (ms : List Member) : Member := (ms.find? fun m => m.dev == ownDevice).getD (Member.differing ownDevice)

/-- A collective that waits for peers ends without them, having written nothing: with detail 5 or 6, or with DATA_LOST
(R343, R352). -/
def State.collFails (s : State) (key status detail : Nat) : State :=
  match tabGet? s.active key with
  | none => s
  | some a =>
    let s := match a.waiting with | some (t, n, _, _) => s.endColl t n | none => s
    { s with active := tabSet s.active key { a with waiting := none, status := status, detail := detail, due := s.cycle } }

/-- A waiting collective goes on when every member has joined, or ends when two members differ: the members that are not known to differ
are told, since a differing one need not have told them (R343). -/
def State.collCheck (s : State) (key : Nat) : State :=
  match tabGet? s.active key with
  | none => s
  | some a =>
    match a.waiting with
    | none => s
    | some (t, n, ms, since) =>
      let e := a.entry
      let own := ownMember ms
      let odd := ms.filter fun m => !m.agrees own
      if !odd.isEmpty then
        let told := e.ranks.filter fun d => d != ownDevice && odd.all fun m => m.dev != d
        (told.foldl (fun s d => s.sendLink d (.differ ownDevice t n since)) s).collFails key 0x0F 5
      else
        let inputs := e.ranks.filterMap fun d => (ms.find? fun m => m.dev == d).map Member.input
        if inputs.length < e.ranks.length then s
        else
          let d := s.takeDelay
          let r := d.2.outputWrites e e.collSize (e.op 1) (collOutput e e.ownRank inputs)
          let v := d.2.endColl t n
          let a := { a with waiting := none, due := s.cycle + 1 + d.1, writes := r.1, pod := true }
          let a := match r.2 with
            | some f => { a with status := f.status, detail := f.detail, fault := BitVec.ofNat 64 f.addr }
            | none => a
          { v with active := tabSet v.active key a }

/-- A member's command, begun at a time, reaches this device: it joins the waiting command of its context and tag, or is kept for the
next; one that began before the last use of the tag ended here belonged to that (R343; log 107). -/
def State.memberJoins (s : State) (tag : Nat) (serial : BitVec 128) (m : Member) (at_ : Nat) : State :=
  if (match s.lastColl tag serial with | some n => decide (at_ ≤ n) | none => false) then s
  else match s.active.find? fun e => match e.2.waiting with | some (t, n, _, _) => t == tag && n == serial | none => false with
  | some (key, a) =>
    (match a.waiting with
     | some (t, n, ms, since) => { s with active := tabSet s.active key { a with waiting := some (t, n, ms ++ [m], min since at_) } }.collCheck key
     | none => s)
  | none => { s with joins := s.joins ++ [(tag, serial, m, at_)] }

/-- A member withdraws: its join goes, wherever it stands, and the others wait for it to their timeouts (R334). -/
def State.memberLeaves (s : State) (tag : Nat) (serial : BitVec 128) (dev : Nat) : State :=
  { s with
    joins := s.joins.filter fun j => !(j.1 == tag && j.2.1 == serial && j.2.2.1.dev == dev)
    active := s.active.map fun e => match e.2.waiting with
      | some (t, n, ms, since) =>
        if t = tag ∧ n = serial then (e.1, { e.2 with waiting := some (t, n, ms.filter fun m => m.dev != dev, since) }) else e
      | none => e }

/-- Ten milliseconds in quarters of a nanosecond. -/
def collLimit : Nat := 40000000

/-- A collective starts: its input is read, its peers are told, and those that have begun join it (R343). -/
def State.collBegin (s : State) (e : CmdEntry) : State :=
  let n := e.collSize * e.collCount * (if e.opcode = 0x12 then e.ranks.length else 1)
  let reads := !(e.opcode == 0x13) || e.collRoot == ownDevice
  match (if reads then s.routeRead e (e.op 0) n else .ok []) with
  | .error f => (s.doomAt e f.addr 1).activate (Active.new e s.cycle (s.cycle + 1) [] (.plain f.status f.detail f.addr))
  | .ok input =>
    let serial := match s.ctx? e.part with | some x => x.serial | none => 0
    let me : Member := { dev := ownDevice, opcode := e.opcode, body := BitVec.ofNat 224 (e.bits 223 0), map := e.collMap, input := input }
    let mine := s.joins.filter fun j => j.1 == e.collTag && j.2.1 == serial
    let early := mine.filter fun j => decide (s.timeQ < j.2.2.2 + collLimit) || j.2.2.1.odd
    let since := early.foldl (fun t j => min t j.2.2.2) s.timeQ
    let told := e.ranks.filter fun d => d != ownDevice && early.all fun j => j.2.2.1.dev != d || !j.2.2.1.odd
    let s := told.foldl (fun s d => (s.sendLink d (.join ownDevice e.collTag serial s.timeQ me.opcode me.body me.map input)).count e.part 9 input.length) s
    let s := { s with joins := s.joins.filter fun j => !mine.contains j }
    let a := { Active.new e s.cycle s.cycle [] (.plain 0 0 0) with
      waiting := some (e.collTag, serial, me :: early.map fun j => j.2.2.1, since), pod := true }
    (s.activate a).collCheck e.order

/-- COLLECTIVE_TIMEOUT is due for a command (R343). -/
def State.collLate (s : State) (key : Nat) : Bool :=
  match tabGet? s.active key with
  | some a => (match a.waiting with | some (_, _, _, since) => decide (since + collLimit ≤ s.timeQ) | none => false)
  | none => false
/-- COLLECTIVE_TIMEOUT (R343). -/
def execCollectiveTimeout (s : State) : Res := .next (if s.collLate s.arg.n then s.collFails s.arg.n 0x0F 6 else s)

/-! ### Start and completion (R332, R334) -/

/-- Every start condition but the gate term. -/
def State.routeMayStart (s : State) (e : CmdEntry) : Bool :=
  !(s.core e.core).moving && !s.ending e.part && decide ((s.activeOn 4 fun _ => true).length < 32) &&
  s.spansFree e (s.routeSpans e) && s.spansRoom e (s.routeSpans e) && s.loadsClear e (s.routeSpans e)

/-- A token command starts: LIST and COMBINE read at the start, DISPATCH goes token by token (R339 to R341). -/
def State.tokensBegin (s : State) (e : CmdEntry) : State :=
  let d := s.takeDelay
  let due := s.cycle + 1 + d.1
  let start (w : List ElemWrite) (f : Option ElemFault) (pod : Bool) (x : List (Nat × Nat × Nat)) : State :=
    let o := match f with | some f => Outcome.plain f.status f.detail f.addr | none => Outcome.plain 0 0 0
    let v := match f with | some f => d.2.doomAt e f.addr 1 | none => d.2
    v.activate { Active.new e s.cycle due w o with extra := packBytes 320 x, pod := pod || s.routeRemote e }
  if e.opcode = 1 then
    let r := s.listRun e
    start r.1 r.2.1 false [(0, 4, r.2.2)]
  else match s.indexList e with
    | .error f => start [] (some f) false []
    | .ok l =>
      if e.opcode = 2 then d.2.activate { Active.new e s.cycle due [] (.plain 0 0 0) with steps := l.map RouteStep.token, pod := s.routeRemote e }
      else
        let r := s.combineGo e l
        start r.1 r.2.1 (l.any (s.combineRemote e)) [(0, 4, r.2.2.1), (4, 4, r.2.2.2.1), (8, 4, r.2.2.2.2)]

/-- The start of a checked command: its locks, then its work (R332, R404). -/
def State.routeBegin (s : State) (e : CmdEntry) : State :=
  let ranges := (s.routeRanges e).map fun x => (x.lo, x.hi)
  let s := { s.takeLocks e (s.routeSpans e) with routeTurn := e.core }
  let s := if isColl e.opcode then s.collBegin e else s.tokensBegin e
  match tabGet? s.active e.order with
  | some a => { s with active := tabSet s.active e.order { a with ranges := ranges } }
  | none => s

/-- A route command at the head of its queue: refused by its checks, started, or left to wait (R332, R333). -/
def State.routeHead (s : State) (e : CmdEntry) : State :=
  match e.routeRefusal with
  | some o => s.refuseCommand e o
  | none => if s.routeMayStart e then s.routeBegin e else s

/-- RTE.LIST (R339). -/
def execRteList (s : State) : Res := s.startWith s.routeHead
/-- RTE.DISPATCH (R340). -/
def execRteDispatch (s : State) : Res := s.startWith s.routeHead
/-- RTE.COMBINE (R341). -/
def execRteCombine (s : State) : Res := s.startWith s.routeHead
/-- COLL.ALLRED (R344). -/
def execCollAllred (s : State) : Res := s.startWith s.routeHead
/-- COLL.ALLGATH (R344). -/
def execCollAllgath (s : State) : Res := s.startWith s.routeHead
/-- COLL.REDSCAT (R344). -/
def execCollRedscat (s : State) : Res := s.startWith s.routeHead
/-- COLL.BCAST (R344). -/
def execCollBcast (s : State) : Res := s.startWith s.routeHead

/-- COMMAND_COMPLETION_ROUTE (R332, R333). -/
def State.routeEnd (s : State) (a : Active) : State :=
  s.completeWith a
    (if isColl a.entry.opcode then [(0x18, 4, a.entry.ranks.length), (0x1C, 4, a.entry.ownRank)]
     else [0, 1, 2].map fun o => (0x18 + 4 * o, 4, fieldAt a.extra (4 * o) 4))
/-- A cancelled collective tells its peers, which then end at their own timeouts (R334). -/
def State.withdraw (s : State) (a : Active) : State :=
  match a.waiting with
  | none => s
  | some (t, n, _, _) =>
    (a.entry.ranks.filter fun d => d != ownDevice).foldl (fun s d => s.sendLink d (.withdraw ownDevice t n)) s
/-- A collective that waits for peers was cancelled (R334). -/
def Active.abandoned (a : Active) : Bool := a.waiting.isSome && a.entry.cancelled
/-- A route command may complete. -/
def State.routeMayEnd (s : State) (key : Nat) : Bool :=
  match tabGet? s.active key with
  | some a => a.entry.queue == 4 && (a.abandoned || s.mayComplete key)
  | none => false
def execCommandCompletionRoute (s : State) : Res :=
  .next (match tabGet? s.active s.arg.n with
    | some a =>
      if s.routeMayEnd s.arg.n then
        (if a.abandoned then (s.withdraw a).routeEnd { a with status := 0x0F, detail := 4 } else s.routeEnd a)
      else s
    | none => s)

end Sys2Proof.Machine
end

