-- ==== Sys2Proof/Machine/Complete.lean ====
section
/-! DEFINITION. INSTRUCTION_COMPLETION: the traps of memory accesses, the checker, the effects, the loop levels, the
gang's agreement, the block's commit, and what was to happen once the instruction completed (R26, R43, R91, R92, R139,
R151, R152, R160, R164, R169, R314). -/
namespace Sys2Proof.Machine

/-- The thread of a slot with its instruction in flight. -/
def State.doneAt (s : State) (c sl : Nat) : Option Done :=
  match s.thread? c sl with
  | some t => match t.state with
    | .inflight f => some { c := c, sl := sl, p := ((s.core c).part).getD 0, t := t, f := f }
    | _ => none
  | none => none

/-- An effect that writes no register and nothing else that an issue reads. -/
def Effect.quiet : Effect → Bool
  | .load _ _ _ _ _ | .store _ _ _ | .atomic _ _ _ _ _ _ _ | .join _ | .pref _ _ | .fence _ _ | .fenceWait _ _ | .acquire _ | .nwrite _ _ _ _ | .wake _ _ _
  | .amSend _ _ => true
  | _ => false
/-- The instruction of a slot may complete: its latency has passed and nothing holds it (R26). What holds an instruction that writes
a register ends before its core issues in a cycle (`State.earlyMove`), so that what the issue reads are the writes completed by
then (R31); the others complete also after it. -/
def State.mayFinish (s : State) (c sl : Nat) : Bool :=
  match s.doneAt c sl with
  | some d =>
    decide (d.f.due ≤ s.cycle) && (tabGet? s.doomed c).isNone && ((s.core c).issued != s.cycle + 1 || d.f.fx.all Effect.quiet) &&
    (match d.f.fx with | e :: _ => !s.holds d e | [] => true)
  | none => false

/-- The outcome of a two-way exit, before the effects (R62). -/
def State.exitTaken (s : State) (d : Done) : Bool :=
  d.f.xfer != .none || (d.t.levelsAct d.last d.f.next).2.2 ||
  d.f.fx.any fun e => match e with
    | .fork _ _ => !s.forkPushes d
    | .join a => s.joinOld d a != 1
    | _ => false

/-- The same instruction of the same thread is still in flight. -/
def State.stillFlying (s : State) (d : Done) : Bool :=
  match s.doneAt d.c d.sl with
  | some x => x.t.uid == d.t.uid && x.f.order == d.f.order
  | none => false

/-- The effects so far: the state, a next PC of their own, and whether the completion goes on. -/
structure Ran where
  s : State
  jump : Option Addr
  goes : Bool
  deriving DecidableEq, Repr

/-- The instruction stays in flight with the effects still to come (R26). -/
def State.keepFlying (s : State) (d : Done) (fx : List Effect) : State :=
  s.modThread d.c d.sl fun t => match t.state with
    | .inflight f => { t with state := .inflight { f with fx := fx, checked := true } }
    | _ => t

/-- Run effects in order, until one holds or the thread ends. -/
def runEffects (d : Done) : Nat → List Effect → State → Option Addr → Ran
  | _, [], s, j => { s := s, jump := j, goes := s.stillFlying d }
  | 0, l, s, j => { s := s.keepFlying d l, jump := j, goes := false }
  | fuel + 1, e :: rest, s, j =>
    if s.holds d e then { s := s.keepFlying d (e :: rest), jump := j, goes := false }
    else
      let o := s.effect d e
      if o.stays then { s := o.s, jump := none, goes := false }
      else if !o.s.stillFlying d then { s := o.s, jump := none, goes := false }
      else runEffects d fuel (o.more ++ rest) o.s (match o.jump with | some a => some a | none => j)

/-- What was to happen once the instruction completed; the thread stands at its next PC (R139, R164, R169, R308). -/
def State.runAfter (s : State) (d : Done) (next : Addr) (a : Option After) : State :=
  let s := s.modThread d.c d.sl fun t => { t with after := none }
  match a with
  | none => s
  | some (.stop code gone) => s.haltThread d.c d.sl code gone
  | some (.swap r asked) => s.saveThread d.c d.sl r asked none
  | some .rewind => s.rewindHold d.c d.sl d.t.uid
  | some .notice =>
    match s.ctx? d.p with
    | some x => s.trap d.c d.sl { code := 0x10, detail := 0, pc := next, info := x.notAfter, second := x.notice, flags := 0x20 } none
    | none => s

/-- Every member of a gang has completed the word: on one outcome they go on together, else the gang uncouples (R42, R43). -/
def State.gangResolve (s : State) (c sl : Nat) : State :=
  match s.thread? c sl with
  | none => s
  | some t =>
    if !t.coupled then s
    else
      let outs := (gangCores c t).map fun m => (s.thread? m sl).bind Thread.outcome
      match outs with
      | some a :: rest =>
        if rest.all fun o => o == some a then
          (gangCores c t).foldl (fun s m => s.modThread m sl fun t => { t with pc := a, outcome := none }) s
        else if rest.all Option.isSome then s.uncouple c sl false
        else s
      | _ => s

/-- The thread goes on after its effects: levels, the block's commit, its next PC, and its gang. -/
def State.goOn (s : State) (d : Done) (jump : Option Addr) : State :=
  match s.thread? d.c d.sl with
  | none => s
  | some t =>
    let inlined := jump.isSome && d.f.fx.any fun e => match e with | .fork _ _ => true | _ => false
    let act := t.levelsAct d.last d.f.next
    let next := jump.getD act.1
    let t' := if d.f.xfer = .jump then act.2.1.levelsJump d.f.next else act.2.1
    let kept := d.f.xfer != .none || inlined
    let ends := s.blockEnds d
    let s := s.setThread d.c d.sl t'
    let s := if ends then s.commit d.c d.sl else s
    let member := d.t.coupled && t'.coupled
    let s := s.modThread d.c d.sl fun t =>
      let t := { t with state := .ready, readyAt := s.cycle }
      let t := { t with kept := kept }
      if member then { t with outcome := some next, forward := none } else { t with pc := next, forward := none }
    let s := s.runAfter d next t'.after
    if member then s.gangResolve d.c d.sl else s

/-- A memory trap at the completion: the destination is as it was, and what was to happen to the thread happens to the
trapped one; a swap does not (R116, R139, R174). -/
def State.trapLate (s : State) (d : Done) (x : TrapInfo) : State :=
  let s := d.f.wasFull.foldl (fun s e => s.setFull d.c e true) s
  let s := (s.modThread d.c d.sl fun t => { t with after := none }).trap d.c d.sl x d.f.pair
  match d.t.after with
  | some (.stop code gone) => s.haltThread d.c d.sl code gone
  | some .rewind => s.rewindHold d.c d.sl d.t.uid
  | some .notice => s.noticeCore d.p d.c
  | _ => s

/-- An instruction in flight completes (R26). A notice that its thread was to take passes on when the thread is no more
(R164; log 98). -/
def State.complete (s : State) (d : Done) : State :=
  match d.f.fx.findSome? fun e => s.fxTrap d e with
  | some (s, x) => s.trapLate d x
  | none =>
    match (if d.f.checked then .goes d.t.check else s.checkStep d (s.exitTaken d)) with
    | .fails block expected observed injected =>
      (s.discardBuffer d.c d.sl).doomCore d.c
        { cause := 0x11, source := 4, injected := injected, info := block, expected := expected, observed := observed }
    | .goes k =>
      let s := s.modThread d.c d.sl fun t => { t with check := k }
      let r := runEffects d 8 d.f.fx s none
      let s := if r.goes then r.s.goOn d r.jump else r.s
      let here : Bool := match s.thread? d.c d.sl with | some t => t.uid == d.t.uid && !t.state.isLeaving | none => false
      if d.t.after = some .notice ∧ !here then s.noticeCore d.p d.c else s

/-- INSTRUCTION_COMPLETION (R26). -/
def execInstructionCompletion (s : State) : Res :=
  .next (if s.mayFinish s.arg.n s.arg.m then
    match s.doneAt s.arg.n s.arg.m with
    | some d => s.complete d
    | none => s
  else s)

end Sys2Proof.Machine
end

