-- ==== Sys2Proof/Machine/Settle.lean ====
section
/-! DEFINITION. What follows every step at once: waits that have ended, ROUND's progress, emptied posts, cores found
faulty, and contexts that end or can be built (R27, R100, R309, R312, R369, R378). -/
namespace Sys2Proof.Machine

/-! ### ROUND while it waits (R309) -/

/-- Append round n's marker to the output channels that have room, in order; those served are noted. -/
def State.sendMarkers (s : State) (p n : Nat) (t : Thread) (served : List Nat) : State × List Nat :=
  t.chans.foldl (fun (acc : State × List Nat) b =>
    if b.2.dir ≠ 2 ∨ acc.2.contains b.1 then acc
    else
      let key := chanKey b.2.graph b.2.chan
      if acc.1.chanRoom p key = 0 then acc
      else match acc.1.chan? p key with
        | some h =>
          if let some k := h.sealed_ then (acc.1.countSealed k, acc.2 ++ [b.1])
          else (acc.1.sendEntry p key h (.marker n), acc.2 ++ [b.1])
        | none => acc) (s, served)

/-- Remove round n's marker from the input channels whose head it is; an end-of-stream token counts and stays. -/
def State.takeMarkers (s : State) (p n : Nat) (t : Thread) (served : List Nat) : State × List Nat :=
  t.chans.foldl (fun (acc : State × List Nat) b =>
    if b.2.dir ≠ 1 ∨ b.2.ended ∨ acc.2.contains b.1 then acc
    else
      let key := chanKey b.2.graph b.2.chan
      match acc.1.chan? p key with
      | some h =>
        (match h.entries with
         | .marker m :: rest => if m = n then (acc.1.setChan p key { h with entries := rest }, acc.2 ++ [b.1]) else acc
         | .eos :: _ => (acc.1, acc.2 ++ [b.1])
         | _ => acc)
      | none => acc) (s, served)

/-- Channels of a direction that are all served. -/
def Thread.served (t : Thread) (dir : Nat) (l : List Nat) : Bool :=
  t.chans.all fun b => b.2.dir != dir || (dir == 1 && b.2.ended) || l.contains b.1

/-- A ROUND that waits goes as far as it can; with every step done it is in flight until its least latency. The checker judges
it before its commit (R152, R309). -/
def State.roundGo (s : State) (c sl p n : Nat) (f : Flight) : State :=
  match s.thread? c sl with
  | none => s
  | some t =>
    let g := match (s.ctx? p).bind fun x => (tabGet? x.launches t.launch).map fun l => (x, l) with
      | some (x, l) => x.graphRound (recGraph l.record)
      | none => 0
    let d : Done := { c := c, sl := sl, p := p, t := t, f := f }
    if g + 1 < n then s
    else match (if f.checked then .goes t.check else s.checkStep d false) with
    | .fails block expected observed injected =>
      (s.discardBuffer c sl).doomCore c
        { cause := 0x11, source := 4, injected := injected, info := block, expected := expected, observed := observed }
    | .goes k =>
      let f := { f with checked := true }
      let step := match t.roundStep with | some (_, o, i) => (o, i) | none => ([], [])
      let s := (s.modThread c sl fun t => { t with check := k }).release c sl
      let o := s.sendMarkers p n t step.1
      let i := if t.served 2 o.2 then o.1.takeMarkers p n t step.2 else (o.1, step.2)
      let fin := t.served 2 o.2 && t.served 1 i.2
      i.1.modThread c sl fun t =>
        { t with roundStep := some (n, o.2, i.2)
                 state := if fin then .inflight { f with due := max f.due s.cycle } else .blocked (.round n f) }

/-! ### Waits (R27) -/

/-- The event that a wait awaits has come; a wait that its own rule ends in another way never ends here (R97, R137, R308, R309). -/
def State.waitOver (s : State) (c p : Nat) (t : Thread) : Wait → Bool
  | .regs l => l.all fun e => (s.regAt c e).full
  | .entry q => s.popReady c p t q
  | .room q => s.pushRoom c p t q
  | .launchRoom q => s.launchRoom p q
  | .stream n => t.streamReady n
  | .barrier key gen => (s.barrier key).gen != gen
  | .commands q _ => !s.fenceWaits t.uid q
  | .work level id => match s.ctx? p with | some x => x.levelCount level id == 0 | none => false
  | .arming ntf => if ntf then t.armNtf.isNone else t.armNbr.isNone
  | .park mask => (s.parkPick p t mask).isSome
  | .couple _ _ _ _ => false
  | .term _ => false
  | .round _ _ => false
  | .rewind => false

/-- One slot's wait, as a cycle begins: a thread whose event came in the last cycle is READY from now on (R27, R32); until
then it is BLOCKED or PARKED, and is saved so (R174). -/
def State.settleThread (s : State) (c sl : Nat) : State :=
  match s.thread? c sl with
  | none => s
  | some t =>
    let p := ((s.core c).part).getD 0
    let go (w : Wait) : State :=
      if s.waitOver c p t w then s.setThread c sl { t with state := .ready, readyAt := s.cycle }
      else match w with
        | .round n f => s.roundGo c sl p n f
        | _ => s
    match t.state with
    | .blocked w => go w
    | .parked w => go w
    | _ => s

/-- A thread whose EVT.WAIT term fires completes 12 cycles later (R137); the pair's word is read again from its place. -/
def State.fireWait (s : State) (c sl n : Nat) : State :=
  match s.thread? c sl with
  | none => s
  | some t =>
    let p := ((s.core c).part).getD 0
    let pair := s.pairAt p t.pc
    let sig : List Byte := (if pair.isSome then [0x3F, 0x00] else []) ++ [0x3C, 0x04]
    let f : Flight :=
      { due := s.cycle + lat12, least := s.cycle + lat12, order := s.order, pair := pair, sig := sig, major := 0x3C, store := false,
        ends := false, fx := [.acquire 5], next := t.pc + (if pair.isSome then 8 else 4), xfer := .none, kind := 0, posts := [],
        emptied := [], wasFull := [], checked := false }
    let s := (s.modCore c fun k => k.fire n).countCore c 2 1
    { s.setThread c sl { t with state := .inflight f } with order := s.order + 1 }

/-- Threads of a core that wait on a term, by increasing slot (R136). -/
def State.termWaiters (s : State) (c : Nat) : List (Nat × Nat) :=
  (s.threadsOf c).filterMap fun e => match e.2.state with | .blocked (.term n) => some (e.1, n) | _ => none
/-- Every consumer of a core's crossbar after the engines' queue heads (R136). -/
def State.fireTerms (s : State) (c : Nat) : State :=
  (s.termWaiters c).foldl (fun s w => if (s.core c).termTrue w.2 then s.fireWait c w.1 w.2 else s) s

/-! ### Everything that follows a step -/

/-- Contexts that are ending go on, and end once nothing of them is in flight (R378). -/
def State.settleContexts (s : State) : State :=
  ((s.ctxs.filter fun e => e.2.ending.isSome).map Prod.fst).foldl (fun s p =>
    let s := s.sweepContext p
    if s.contextQuiet p then s.finishContext p else s) s

/-- A context that holds a core again has its records delivered there, in order (R130). -/
def State.passBacklogs (s : State) : State :=
  (s.ctxs.filter fun e => !e.2.backlog.isEmpty).foldl (fun s e =>
    match s.lowestCore e.1 with
    | some c => (s.modCore c fun k => { k with backlog := k.backlog ++ e.2.backlog }).setCtx e.1 { e.2 with backlog := [] }
    | none => s) s

/-- What follows a step at once. -/
def State.settle (s : State) : State :=
  let s := (s.lostCores.settleContexts).emptyPosts
  let s := if s.coresWanted = 0 then s.resumeAdmission else s
  (s.freeLeft.endStranded.endDying.applySchedules.sendAwaited).passBacklogs.writeSpilled

/-- Every wait, as a cycle begins (R27). -/
def State.wakeAll (s : State) : State := s.threads.foldl (fun s e => s.settleThread (e.1 / 64) (e.1 % 64)) s

end Sys2Proof.Machine
end

