-- ==== Sys2Proof/Machine/Arrive.lean ====
section
/-! DEFINITION. Events of the core and its network: arrivals, landings, visibility, trap records, time-outs, steals,
messages and queue deliveries (R32, R40, R97, R100, R130, R141, R142, R150, R165, R173, R297, R347). An event that is
not due changes nothing. -/
namespace Sys2Proof.Machine

/-- LONG_LATENCY_ARRIVAL (R32); with the flag, an element of a VLDS or VGATH performs before its load arrives (R149). -/
def execLongLatencyArrival (s : State) : Res :=
  .next (if s.arg.flag then (if s.mayTake s.arg.n s.arg.m then s.takeElement s.arg.n s.arg.m else s)
    else if s.mayArrive s.arg.n then s.arrive s.arg.n else s)

/-- ONCE_POST_LANDING (R100). -/
def execOncePostLanding (s : State) : Res := .next (if s.mayLand s.arg.n then s.landPost s.arg.n else s)

/-- The message buffer takes what the next step of a dispatch sends there: none of it where it does not take all (R173). -/
def State.stepFits (s : State) (key : Nat) : Bool :=
  match tabGet? s.active key with
  | some a => a.steps.isEmpty || (match (s.routeStep key).ctx? a.entry.part with | some x => decide (x.buffered ≤ 512) | none => true)
  | none => true
/-- The next element of a started command, or the next step of a dispatch (R197, R340). -/
def State.nextElement (s : State) (key : Nat) : State :=
  match tabGet? s.active key with
  | some a => if a.steps.isEmpty then s.showElement key else s.routeStep key
  | none => s
/-- STORE_VISIBLE: a committed entry (R150), or with the flag the next element of a started command (R197). -/
def execStoreVisible (s : State) : Res :=
  .next (if s.arg.flag then (if s.mayShowElement s.arg.n && s.stepFits s.arg.n then s.nextElement s.arg.n else s)
    else if s.mayShow s.arg.n then s.showNext s.arg.n else s)

/-- NWRITE_LANDING (R141). -/
def execNwriteLanding (s : State) : Res :=
  .next (if s.mayLandNwrite s.arg.n then
    match s.nwrites[s.arg.n]? with
    | some d => { s with nwrites := listDrop s.nwrites s.arg.n }.landNwrite d
    | none => s
  else s)

/-- WAKE_DELIVERY (R142). -/
def State.mayWake (s : State) (n : Nat) : Bool := match s.wakes[n]? with | some d => decide (d.due ≤ s.cycle) | none => false
def execWakeDelivery (s : State) : Res :=
  .next (if s.mayWake s.arg.n then
    match s.wakes[s.arg.n]? with
    | some d => { s with wakes := listDrop s.wakes s.arg.n }.landWake d
    | none => s
  else s)

/-! ### Trap records (R161, R165) -/

/-- A record may enter q6: the stores its trap committed are visible, and no earlier record of the core waits. -/
def State.mayEnqueue (s : State) (n : Nat) : Bool :=
  match s.traps[n]? with
  | none => false
  | some r =>
    (s.pend.all fun e => e.uid != r.uid) &&
    s.traps.all fun q => !(q.core == r.core && (decide (q.cycle < r.cycle) || (q.cycle == r.cycle && decide (q.slot < r.slot))))
/-- A record enters q6 with the core's next sequence number and its CRC (R161). -/
def State.enqueueTrap (s : State) (n : Nat) : State :=
  match s.traps[n]? with
  | none => s
  | some r =>
    { s with traps := listDrop s.traps n }.modCore r.core fun k =>
      let v : Vec := packBytes 512 [(0, 6, fieldAt r.body 0 6), (6, 2, k.q6seq), (8, 52, fieldAt r.body 8 52)]
      { k with q6 := k.q6 ++ [sealVec v], q6seq := (k.q6seq + 1) % 2 ^ 16 }
/-- TRAP_RECORD_ENQUEUE (R165). -/
def execTrapRecordEnqueue (s : State) : Res := .next (if s.mayEnqueue s.arg.n then s.enqueueTrap s.arg.n else s)

/-- A COUPLE has waited 65,536 cycles (R97). -/
def State.coupleLate (s : State) (c sl : Nat) : Option Nat :=
  match s.thread? c sl with
  | some t => match t.state with
    | .blocked (.couple rd _ since _) => if since + 65536 ≤ s.cycle then some rd else none
    | _ => none
  | none => none
/-- COUPLE_TIMEOUT (R97). -/
def execCoupleTimeout (s : State) : Res :=
  .next (match s.coupleLate s.arg.n s.arg.m with
    | some rd => s.coupleDecided s.arg.n s.arg.m rd 4 []
    | none => s)

/-! ### Strands (R40, R94) -/

/-- Deques that a core searches, in their order (R40). -/
def stealOrder (c : Nat) : List Nat :=
  let near := ((List.range 4).map fun i => clusterOf c * 4 + i).filter fun d => d != c
  let deck := ((List.range 128).map fun i => deckOf c * 128 + i).filter fun d => clusterOf d != clusterOf c
  c :: near ++ deck
/-- A core takes strands: a thread of it belongs to a launch that permits them, or its own deque holds some (R40;
assumption 39). -/
def State.stealsStrands (s : State) (c : Nat) : Bool :=
  match (s.core c).part.bind s.ctx? with
  | none => false
  | some x => !(s.core c).deque.isEmpty || (s.threadsOf c).any fun e =>
      !e.2.handler && (match tabGet? x.launches e.2.launch with | some l => recStrands l.record | none => false)
/-- The strand that a core would take: the deque and its window base (R40). -/
def State.stealPick (s : State) (c : Nat) : Option (Nat × Strand × Nat) :=
  let k := s.core c
  if k.fenced || k.moving || !s.stealsStrands c then none
  else (stealOrder c).findSome? fun d =>
    match (s.core d).deque.getLast? with
    | none => none
    | some e =>
      if k.part ≠ some e.part then none
      else if d = c ∧ e.core = c then some (d, e, e.base)
      else (s.freeBase c e.size []).map fun b => (d, e, b)
/-- Take a strand into a slot: it starts at its arm with lk the counter's address (R40, R94). -/
def State.steal (s : State) (c sl : Nat) : State :=
  match s.stealPick c with
  | none => s
  | some (d, e, b) =>
    if (s.thread? c sl).isSome ∨ 63 ≤ sl ∨ s.ending e.part then s
    else
      let s := s.modCore d fun k => { k with deque := k.deque.dropLast }
      s.placeThread c sl { Thread.start 0 e.arm b e.size e.launch (s.cycle + 1) with lk := e.counter }
/-- STRAND_STEAL (R40). -/
def execStrandSteal (s : State) : Res := .next (s.steal s.arg.n s.arg.m)

/-! ### Messages (R173, R347) -/

/-- AM_ARRIVAL (R347). -/
def execAmArrival (s : State) : Res := .next (if s.mayArriveMessage s.arg.n then s.amArrive s.arg.n else s)
/-- AM_HANDLER_START (R347). -/
def execAmHandlerStart (s : State) : Res := .next (s.amStart s.arg.n)
/-- DIVERTED_MESSAGE_REPLAY (R173). -/
def execDivertedMessageReplay (s : State) : Res := .next (s.replayDiverted s.arg.n)

/-! ### Queues (R130, R297) -/

/-- A backlog's oldest record may enter q7. -/
def Core.mayDeliver (k : Core) : Bool := !k.backlog.isEmpty && decide (k.q7.length < 16)
/-- Q7_BACKLOG_DELIVERY (R130). -/
def execQ7BacklogDelivery (s : State) : Res :=
  .next (s.modCore s.arg.n fun k =>
    match k.backlog with
    | v :: rest => if k.mayDeliver then { k with q7 := k.q7 ++ [v], backlog := rest } else k
    | [] => k)

/-- A channel holds back an end-of-stream token and has room, as has the message buffer where the token goes there (R173, R297). -/
def State.mayAppend (s : State) (p : Nat) (h : Chan) : Bool := decide (0 < h.held) && decide (0 < h.room) && s.chanOpen p h
/-- END_OF_STREAM_APPEND (R297). -/
def execEndOfStreamAppend (s : State) : Res :=
  .next (match s.chan? s.arg.n s.arg.m with
    | some h => if s.mayAppend s.arg.n h then s.sendEntry s.arg.n s.arg.m { h with held := h.held - 1 } .eos else s
    | none => s)

end Sys2Proof.Machine
end

