-- ==== Sys2Proof/Machine/Faulty.lean ====
section
/-! DEFINITION. Soft errors, injections and deck fences as they come, write-backs of the L2, and the supply sag (R3, R276,
R277, R313, R325 to R327). -/
namespace Sys2Proof.Machine

/-- A structure's CORRECTED record is due: one for a second in which it corrected an error (R313). -/
def State.correctedDue (s : State) (key : Nat) : Bool := (tabGet? s.correctedNow key).isSome
/-- CORRECTED of a structure, numbered source*1024 + core; flag [0] when an injection is among the errors (R313, R322, R327). -/
def execCorrected (s : State) : Res :=
  .next (match tabGet? s.correctedNow s.arg.n with
    | some injected =>
      let c := s.arg.n % 1024
      let part := (s.core c).part
      let s := { s with correctedNow := tabErase s.correctedNow s.arg.n, correctedAt := tabSet s.correctedAt s.arg.n (s.time / 1000000000 + 1) }
      s.logRecord c [(0x00, 1, 0x24), (0x02, 1, if injected then 1 else 0), (0x03, 1, s.arg.n / 1024), (0x04, 2, c), (0x06, 1, part.getD 0xFF), (0x08, 8, s.time),
        (0x1C, 2, match part with | some p => (s.coresOf p).length | none => 0)] .none
    | none => s)

/-- DECK_FENCE: an uncorrectable interface error, or the loss of a deck's power or clock (R325). -/
def execDeckFence (s : State) : Res := .next (if s.arg.n < 8 then s.doomDeck s.arg.n false else s)

/-! ### Injections (R326, R327) -/

def Injection.kind (i : Injection) : Nat := fieldAt i.desc 0 1
def Injection.core (i : Injection) : Nat := fieldAt i.desc 2 2 % 1024
def Injection.slot (i : Injection) : Nat := fieldAt i.desc 4 1 % 64
/-- An armed injection's trigger (R326). -/
def State.injectionDue (s : State) (i : Injection) : Bool :=
  match fieldAt i.desc 1 1 with
  | 0 => true
  | 1 => decide (fieldAt i.desc 8 8 ≤ s.time)
  | _ => i.ready

/-- A physical line is lost, with its record (R276, R312, R322, R327). -/
def State.loseLine (s : State) (addr source : Nat) (injected : Bool) : State :=
  let part := (s.pageAt (addr / 64 * 64)).map fun e => e.2.owner
  let s := { s with lost := setInsert s.lost (addr / 64) }
  s.logRecord noCore [(0x00, 1, 0x22), (0x02, 1, if injected then 1 else 0), (0x03, 1, source), (0x04, 2, 0x3FF), (0x06, 1, part.getD 0xFF), (0x08, 8, s.time),
    (0x10, 8, addr / 64 * 64), (0x1C, 2, match part with | some p => (s.coresOf p).length | none => 0)] .none

/-- A partition's warrant permits injection: flag [1]. -/
def State.injectable (s : State) (p : Nat) : Bool := match s.ctx? p with | some x => x.flags.getLsbD 1 | none => true
/-- Partitions that a descriptor strikes as they stand now (R326, R401). -/
def State.struck (s : State) (d : BitVec 256) : List Nat :=
  let c := fieldAt d 2 2
  match fieldAt d 0 1 with
  | 4 => (List.range 128).filterMap fun i => (s.core (deckOf c * 128 + i)).part
  | 5 => ((s.pageAt (fieldAt d 0x10 8 / 64 * 64)).map fun e => e.2.owner).toList
  | _ => (s.core c).part.toList

/-- An injection fires: it is discarded at a fenced core, at a FREE slot when it concerns a thread, and where it would strike a
partition that does not permit it (R326, R327, R401). -/
def State.inject (s : State) (i : Injection) : State :=
  let c := i.core
  if (s.core c).fenced || !(s.struck i.desc).all s.injectable then s
  else
    let flip (n : Nat) : State :=
      match s.thread? c i.slot with
      | none => s
      | some t =>
        let reg := fieldAt i.desc 5 1
        if t.size ≤ reg then s
        else
          let r := s.regAt c (t.base + reg)
          s.setReg c (t.base + reg) { r with flips := min 2 (r.flips + n) }
    match i.kind with
    | 1 => flip 2
    | 2 => if fieldAt i.desc 0x10 8 < 0xE0000 then
        { s with badWords := setInsert s.badWords ((c * 2 ^ 20 + fieldAt i.desc 0x10 8) / 8) } else s
    | 3 => match s.thread? c i.slot with
      | none => s
      | some t => (s.modThread c i.slot fun t => { t with mismatch := true }).modCtx ((s.core c).part.getD 0) fun x =>
          { x with saved := x.saved.map fun v => if v.thread.uid = t.uid then { v with thread := { v.thread with mismatch := true } } else v }
    | 4 => s.doomDeck (deckOf c) true
    | 5 => if hasFrame (fieldAt i.desc 0x10 8) then s.loseLine (fieldAt i.desc 0x10 8) 7 true else s
    | 6 => flip 1
    | _ => s

/-! ### Errors that arise by themselves (R276, R312, R313) -/

/-- A copy engine's buffer loses an element: the command completes with DATA_LOST there (R199, R312). -/
def State.loseElement (s : State) (key : Nat) : State :=
  match tabGet? s.active key with
  | some a =>
    if a.entry.queue ≠ 2 ∨ a.writes.isEmpty then s
    else
      let at_ := if a.entry.opcode = 5 then a.entry.dstAddr a.done else a.entry.srcAddr a.done
      { s with active := tabSet s.active key { a with writes := [], status := 0x0E, detail := 0, fault := BitVec.ofNat 64 at_ } }
  | none => s
/-- A queued launch record is discarded and logged: its launch ends with DATA_LOST (R312, R322; log 103). -/
def State.loseLaunch (s : State) (p id : Nat) : State :=
  match (s.ctx? p).bind fun x => tabGet? x.launches id with
  | some l =>
    if 3 ≤ l.state then s
    else
      let s := s.logRecord noCore [(0x00, 1, 0x23), (0x03, 1, 10), (0x04, 2, 0x3FF), (0x06, 1, p), (0x08, 8, s.time), (0x1C, 2, (s.coresOf p).length)] .none
      let s := s.modCtx p fun x =>
        let x := x.leaveQueue id s.timeQ
        { x with launches := tabSet x.launches id { l with code := 0x0E } }
      s.launchEnd p id none
  | none => s
/-- The head entry of a channel holds an uncorrectable error (R312). -/
def State.loseEntry (s : State) (p key : Nat) : State :=
  match s.chan? p key with
  | some h => (match h.entries with
    | .data _ :: rest => s.setChan p key { h with entries := .token :: rest }
    | _ => s)
  | none => s

/-- The root of a key slot's counter tree is lost: the context that holds the slot ends with FAULTED (R276, R378). -/
def State.loseRoot (s : State) (slot : Nat) : State :=
  (s.ctxs.filter fun e => e.2.keySlot == some slot && e.2.ending.isNone).foldl (fun s e => s.endContext e.1 0x0103) s
/-- A soft error is found, by itself, in a structure: which one, by the number `what`, and where, by n and m (R276, R312, R313). -/
def State.softError (s : State) (what n m : Nat) : State :=
  match what with
  | 0 => s.noteCorrected (n % 1024) (m % 11) false
  | 1 => if m = 0 ∨ m = 1 ∨ m = 5 then s.doomCore (n % 1024) (errorKill m false) else s
  | 2 => (List.range 4).foldl (fun s i => s.doomCore (n % 256 * 4 + i) (errorKill 6 false)) s
  | 3 => s.modCtx n fun x => { x with saved := x.saved.map fun v => if v.record = m then { v with bad := true } else v }
  | 4 => s.modCtx n fun x => { x with images := x.images.modify m fun k => { k with bad := true } }
  | 5 => s.loseElement n
  | 6 => if s.dirty.contains n then s.loseLine (n * 64) 7 false else s
  | 7 => (match s.pageAt (n * 64) with
    | some (_, g) => if g.attr = 2 ∧ n * 64 < 2 ^ 52 ∧ !s.dirty.contains n then s.loseLine (n * 64) 8 false else s
    | none => s)
  | 8 => s.loseLaunch n m
  | 9 => s.loseEntry n m
  | 10 => s.loseRoot n
  | _ => s

/-- INJECTION_FIRE: once, and it is then disarmed (R327); with the flag, an error that nobody injected is found (R276, R312, R313; log
103). -/
def execInjectionFire (s : State) : Res :=
  .next (if s.arg.flag then s.softError s.arg.k s.arg.n s.arg.m else match s.host.injections[s.arg.n]? with
    | some i =>
      if s.injectionDue i then
        { s with host := { s.host with injections := listDrop s.host.injections s.arg.n } }.inject i
      else s
    | none => s)

/-! ### Write-backs and the sag -/

/-- L2_WRITE_BACK: the L2 replaces a dirty line, which goes to its pier, its elision state recomputed; a line that a schedule keeps
is passed over (R186, R276 to R278). -/
def execL2WriteBack (s : State) : Res :=
  .next (if s.dirty.contains s.arg.n ∧ !s.lost.contains s.arg.n ∧ !s.keptLine s.arg.n then s.writeBack s.arg.n else s)

/-- SUPPLY_SAG_TRIP: the arithmetic clock is stretched from now on (R3). -/
def execSupplySagTrip (s : State) : Res := .next { s with sag := true }
/-- SUPPLY_SAG_CLEAR: the clock has its nominal period again (R3). -/
def execSupplySagClear (s : State) : Res := .next { s with sag := false }

end Sys2Proof.Machine
end

