-- ==== Sys2Proof/Machine/Flags.lean ====
section
/-! DEFINITION. The sticky exception flags of lane-wise and scalar operations (R68, R69, R102), with their results. -/
namespace Sys2Proof.Machine

/-- The flags of sixteen lanes, ORed (R102). -/
def orFlags (f : Nat → BitVec 5) : BitVec 5 := laneList.foldl (fun acc i => acc ||| f i) 0

/-- A lane-wise operation on patterns with its flags: one, two and three operands (R102, R104, R105, R110). -/
def lanes1 (op : Nat → Nat × BitVec 5) (a : Vec) : Vec × BitVec 5 :=
  (ofLanes fun i => BitVec.ofNat 32 (op (lane a i).toNat).1, orFlags fun i => (op (lane a i).toNat).2)
def lanes2 (op : Nat → Nat → Nat × BitVec 5) (a b : Vec) : Vec × BitVec 5 :=
  (ofLanes fun i => BitVec.ofNat 32 (op (lane a i).toNat (lane b i).toNat).1,
   orFlags fun i => (op (lane a i).toNat (lane b i).toNat).2)
def lanes3 (op : Nat → Nat → Nat → Nat × BitVec 5) (a b c : Vec) : Vec × BitVec 5 :=
  (ofLanes fun i => BitVec.ofNat 32 (op (lane a i).toNat (lane b i).toNat (lane c i).toNat).1,
   orFlags fun i => (op (lane a i).toNat (lane b i).toNat (lane c i).toNat).2)

/-- A comparison of lanes as a mask with its flags (R106). -/
def maskOf (p : Nat → Bool) : Vec := (BitVec.ofBoolListLE (laneList.map p)).setWidth 512
def maskLanes (op : Nat → Nat → Bool × BitVec 5) (a b : Vec) : Vec × BitVec 5 :=
  (maskOf fun i => (op (lane a i).toNat (lane b i).toNat).1,
   orFlags fun i => (op (lane a i).toNat (lane b i).toNat).2)

/-- The reduction tree of R108 over values with flags. -/
def treeStep (op : Nat → Nat → Nat × BitVec 5) : List Nat → List Nat × BitVec 5
  | x :: y :: rest =>
    let r := op x y
    let t := treeStep op rest
    (r.1 :: t.1, r.2 ||| t.2)
  | l => (l, 0)
def reduceTree (op : Nat → Nat → Nat × BitVec 5) (a : Vec) : Vec × BitVec 5 :=
  let v1 := treeStep op (laneList.map fun i => (lane a i).toNat)
  let v2 := treeStep op v1.1
  let v3 := treeStep op v2.1
  let v4 := treeStep op v3.1
  (BitVec.ofNat 512 (v4.1.headD 0), v1.2 ||| v2.2 ||| v3.2 ||| v4.2)

/-- A 32-bit or 64-bit scalar result with zeros above it (R65, R67). -/
def scalarNat (r : Nat) : Vec := BitVec.ofNat 512 r

/-- A truth value as a scalar result. -/
def scalarBool (b : Bool) : Vec := if b then 1 else 0

end Sys2Proof.Machine
end

