-- ==== Sys2Proof/Machine/FloatOps.lean ====
section
/-! DEFINITION. Scalar floating point, majors 0x10 to 0x16 (R67, R68, R80 to R85). -/
namespace Sys2Proof.Machine

/-- An FP32 or FP64 operand (R67). -/
def fp32Of (w : Word) : Nat := w.toNat % 2 ^ 32
def fp64Of (w : Word) : Nat := w.toNat

/-- A pattern with flags as a scalar result (R67). -/
def fpResult (r : Nat × BitVec 5) : Vec × BitVec 5 := (scalarNat r.1, r.2)
/-- A relation with flags as a scalar result (R82). -/
def relResult (r : Bool × BitVec 5) : Vec × BitVec 5 := (scalarBool r.1, r.2)
/-- A 64-bit two's complement result with flags (R84). -/
def intResult (r : Int × BitVec 5) : Vec × BitVec 5 := (widen (BitVec.ofInt 64 r.1), r.2)

/-- FADD.F32 (R80). -/
def execFaddF32 (rd ra rb : BitVec 7) (ta tb : BitVec 1) (s : State) : Res :=
  s.issueFlags (formRRR 0x10 0 ra rb ta tb) rd fun o s => fpResult (fpAdd f32 (fp32Of (s.rx o ra)) (fp32Of (s.rx o rb)))

/-- FSUB.F32 (R80). -/
def execFsubF32 (rd ra rb : BitVec 7) (ta tb : BitVec 1) (s : State) : Res :=
  s.issueFlags (formRRR 0x10 1 ra rb ta tb) rd fun o s => fpResult (fpSub f32 (fp32Of (s.rx o ra)) (fp32Of (s.rx o rb)))

/-- FMUL.F32 (R80). -/
def execFmulF32 (rd ra rb : BitVec 7) (ta tb : BitVec 1) (s : State) : Res :=
  s.issueFlags (formRRR 0x10 2 ra rb ta tb) rd fun o s => fpResult (fpMul f32 (fp32Of (s.rx o ra)) (fp32Of (s.rx o rb)))

/-- FDIV.F32 (R80). -/
def execFdivF32 (rd ra rb : BitVec 7) (ta tb : BitVec 1) (s : State) : Res :=
  s.issueFlags ({ formRRR 0x10 3 ra rb ta tb with lat := 24 }) rd fun o s => fpResult (fpDiv f32 (fp32Of (s.rx o ra)) (fp32Of (s.rx o rb)))

/-- FMIN.F32 (R80). -/
def execFminF32 (rd ra rb : BitVec 7) (ta tb : BitVec 1) (s : State) : Res :=
  s.issueFlags (formRRR 0x10 4 ra rb ta tb) rd fun o s => fpResult (fpMin f32 (fp32Of (s.rx o ra)) (fp32Of (s.rx o rb)))

/-- FMAX.F32 (R80). -/
def execFmaxF32 (rd ra rb : BitVec 7) (ta tb : BitVec 1) (s : State) : Res :=
  s.issueFlags (formRRR 0x10 5 ra rb ta tb) rd fun o s => fpResult (fpMax f32 (fp32Of (s.rx o ra)) (fp32Of (s.rx o rb)))

/-- FSQRT.F32 (R80). -/
def execFsqrtF32 (rd ra : BitVec 7) (ta : BitVec 1) (s : State) : Res :=
  s.issueFlags { formRR 0x10 6 ra ta with lat := 24 } rd fun o s => fpResult (fpSqrt f32 (fp32Of (s.rx o ra)))

/-- FADD.F64 (R80). -/
def execFaddF64 (rd ra rb : BitVec 7) (ta tb : BitVec 1) (s : State) : Res :=
  s.issueFlags (formRRR 0x11 0 ra rb ta tb) rd fun o s => fpResult (fpAdd f64 (fp64Of (s.rx o ra)) (fp64Of (s.rx o rb)))

/-- FSUB.F64 (R80). -/
def execFsubF64 (rd ra rb : BitVec 7) (ta tb : BitVec 1) (s : State) : Res :=
  s.issueFlags (formRRR 0x11 1 ra rb ta tb) rd fun o s => fpResult (fpSub f64 (fp64Of (s.rx o ra)) (fp64Of (s.rx o rb)))

/-- FMUL.F64 (R80). -/
def execFmulF64 (rd ra rb : BitVec 7) (ta tb : BitVec 1) (s : State) : Res :=
  s.issueFlags (formRRR 0x11 2 ra rb ta tb) rd fun o s => fpResult (fpMul f64 (fp64Of (s.rx o ra)) (fp64Of (s.rx o rb)))

/-- FDIV.F64 (R80). -/
def execFdivF64 (rd ra rb : BitVec 7) (ta tb : BitVec 1) (s : State) : Res :=
  s.issueFlags ({ formRRR 0x11 3 ra rb ta tb with lat := 40 }) rd fun o s => fpResult (fpDiv f64 (fp64Of (s.rx o ra)) (fp64Of (s.rx o rb)))

/-- FMIN.F64 (R80). -/
def execFminF64 (rd ra rb : BitVec 7) (ta tb : BitVec 1) (s : State) : Res :=
  s.issueFlags (formRRR 0x11 4 ra rb ta tb) rd fun o s => fpResult (fpMin f64 (fp64Of (s.rx o ra)) (fp64Of (s.rx o rb)))

/-- FMAX.F64 (R80). -/
def execFmaxF64 (rd ra rb : BitVec 7) (ta tb : BitVec 1) (s : State) : Res :=
  s.issueFlags (formRRR 0x11 5 ra rb ta tb) rd fun o s => fpResult (fpMax f64 (fp64Of (s.rx o ra)) (fp64Of (s.rx o rb)))

/-- FSQRT.F64 (R80). -/
def execFsqrtF64 (rd ra : BitVec 7) (ta : BitVec 1) (s : State) : Res :=
  s.issueFlags { formRR 0x11 6 ra ta with lat := 40 } rd fun o s => fpResult (fpSqrt f64 (fp64Of (s.rx o ra)))

/-- FFMA.F32 (R81). -/
def execFfmaF32 (rd ra rb : BitVec 7) (rc : BitVec 5) (s : State) : Res :=
  s.issueFlags (formRRRR 0x12 ra rb rc) rd fun o s =>
    fpResult (fpFma f32 (fp32Of (s.rx o ra)) (fp32Of (s.rx o rb)) (fp32Of (s.rx o (rc.setWidth 7))))

/-- FFMA.F64 (R81). -/
def execFfmaF64 (rd ra rb : BitVec 7) (rc : BitVec 5) (s : State) : Res :=
  s.issueFlags (formRRRR 0x13 ra rb rc) rd fun o s =>
    fpResult (fpFma f64 (fp64Of (s.rx o ra)) (fp64Of (s.rx o rb)) (fp64Of (s.rx o (rc.setWidth 7))))

/-- FEQ.F32 (R82). -/
def execFeqF32 (rd ra rb : BitVec 7) (ta tb : BitVec 1) (s : State) : Res :=
  s.issueFlags (formRRR 0x14 0 ra rb ta tb) rd fun o s => relResult (fpEq f32 (fp32Of (s.rx o ra)) (fp32Of (s.rx o rb)))

/-- FLT.F32 (R82). -/
def execFltF32 (rd ra rb : BitVec 7) (ta tb : BitVec 1) (s : State) : Res :=
  s.issueFlags (formRRR 0x14 1 ra rb ta tb) rd fun o s => relResult (fpLess f32 (fp32Of (s.rx o ra)) (fp32Of (s.rx o rb)))

/-- FLE.F32 (R82). -/
def execFleF32 (rd ra rb : BitVec 7) (ta tb : BitVec 1) (s : State) : Res :=
  s.issueFlags (formRRR 0x14 2 ra rb ta tb) rd fun o s => relResult (fpLessEq f32 (fp32Of (s.rx o ra)) (fp32Of (s.rx o rb)))

/-- FUN.F32 (R82). -/
def execFunF32 (rd ra rb : BitVec 7) (ta tb : BitVec 1) (s : State) : Res :=
  s.issueFlags (formRRR 0x14 3 ra rb ta tb) rd fun o s => relResult (fpUnordered f32 (fp32Of (s.rx o ra)) (fp32Of (s.rx o rb)))

/-- FEQ.F64 (R82). -/
def execFeqF64 (rd ra rb : BitVec 7) (ta tb : BitVec 1) (s : State) : Res :=
  s.issueFlags (formRRR 0x14 4 ra rb ta tb) rd fun o s => relResult (fpEq f64 (fp64Of (s.rx o ra)) (fp64Of (s.rx o rb)))

/-- FLT.F64 (R82). -/
def execFltF64 (rd ra rb : BitVec 7) (ta tb : BitVec 1) (s : State) : Res :=
  s.issueFlags (formRRR 0x14 5 ra rb ta tb) rd fun o s => relResult (fpLess f64 (fp64Of (s.rx o ra)) (fp64Of (s.rx o rb)))

/-- FLE.F64 (R82). -/
def execFleF64 (rd ra rb : BitVec 7) (ta tb : BitVec 1) (s : State) : Res :=
  s.issueFlags (formRRR 0x14 6 ra rb ta tb) rd fun o s => relResult (fpLessEq f64 (fp64Of (s.rx o ra)) (fp64Of (s.rx o rb)))

/-- FUN.F64 (R82). -/
def execFunF64 (rd ra rb : BitVec 7) (ta tb : BitVec 1) (s : State) : Res :=
  s.issueFlags (formRRR 0x14 7 ra rb ta tb) rd fun o s => relResult (fpUnordered f64 (fp64Of (s.rx o ra)) (fp64Of (s.rx o rb)))

/-- fcvtF64F32, kind 0x00 (R83, R84). -/
def valFcvtF64F32 (_m : Mode) (a : Word) : Vec × BitVec 5 := fpResult (fpConvert f32 f64 0 (fp32Of a))
def execFcvtF64F32 (rd ra : BitVec 7) (mode : BitVec 3) (ta : BitVec 1) (s : State) : Res :=
  s.issueFlags (formRR 0x15 mode.toNat ra ta) rd fun o s => valFcvtF64F32 mode.toNat (s.rx o ra)

/-- fcvtF32F64, kind 0x01 (R83, R84). -/
def valFcvtF32F64 (m : Mode) (a : Word) : Vec × BitVec 5 := fpResult (fpConvert f64 f32 m (fp64Of a))
def execFcvtF32F64 (rd ra : BitVec 7) (mode : BitVec 3) (ta : BitVec 1) (s : State) : Res :=
  s.issueFlags (formRR 0x15 mode.toNat ra ta) rd fun o s => valFcvtF32F64 mode.toNat (s.rx o ra)

/-- fcvtI64F32, kind 0x02 (R83, R84). -/
def valFcvtI64F32 (m : Mode) (a : Word) : Vec × BitVec 5 := intResult (fpToInt f32 m (fp32Of a) (-(2 ^ 63)) (2 ^ 63 - 1))
def execFcvtI64F32 (rd ra : BitVec 7) (mode : BitVec 3) (ta : BitVec 1) (s : State) : Res :=
  s.issueFlags (formRR 0x15 mode.toNat ra ta) rd fun o s => valFcvtI64F32 mode.toNat (s.rx o ra)

/-- fcvtU64F32, kind 0x03 (R83, R84). -/
def valFcvtU64F32 (m : Mode) (a : Word) : Vec × BitVec 5 := intResult (fpToInt f32 m (fp32Of a) 0 (2 ^ 64 - 1))
def execFcvtU64F32 (rd ra : BitVec 7) (mode : BitVec 3) (ta : BitVec 1) (s : State) : Res :=
  s.issueFlags (formRR 0x15 mode.toNat ra ta) rd fun o s => valFcvtU64F32 mode.toNat (s.rx o ra)

/-- fcvtI64F64, kind 0x04 (R83, R84). -/
def valFcvtI64F64 (m : Mode) (a : Word) : Vec × BitVec 5 := intResult (fpToInt f64 m (fp64Of a) (-(2 ^ 63)) (2 ^ 63 - 1))
def execFcvtI64F64 (rd ra : BitVec 7) (mode : BitVec 3) (ta : BitVec 1) (s : State) : Res :=
  s.issueFlags (formRR 0x15 mode.toNat ra ta) rd fun o s => valFcvtI64F64 mode.toNat (s.rx o ra)

/-- fcvtU64F64, kind 0x05 (R83, R84). -/
def valFcvtU64F64 (m : Mode) (a : Word) : Vec × BitVec 5 := intResult (fpToInt f64 m (fp64Of a) 0 (2 ^ 64 - 1))
def execFcvtU64F64 (rd ra : BitVec 7) (mode : BitVec 3) (ta : BitVec 1) (s : State) : Res :=
  s.issueFlags (formRR 0x15 mode.toNat ra ta) rd fun o s => valFcvtU64F64 mode.toNat (s.rx o ra)

/-- fcvtF32I64, kind 0x06 (R83, R84). -/
def valFcvtF32I64 (m : Mode) (a : Word) : Vec × BitVec 5 := fpResult (intToFp f32 m a.toInt)
def execFcvtF32I64 (rd ra : BitVec 7) (mode : BitVec 3) (ta : BitVec 1) (s : State) : Res :=
  s.issueFlags (formRR 0x15 mode.toNat ra ta) rd fun o s => valFcvtF32I64 mode.toNat (s.rx o ra)

/-- fcvtF32U64, kind 0x07 (R83, R84). -/
def valFcvtF32U64 (m : Mode) (a : Word) : Vec × BitVec 5 := fpResult (intToFp f32 m a.toNat)
def execFcvtF32U64 (rd ra : BitVec 7) (mode : BitVec 3) (ta : BitVec 1) (s : State) : Res :=
  s.issueFlags (formRR 0x15 mode.toNat ra ta) rd fun o s => valFcvtF32U64 mode.toNat (s.rx o ra)

/-- fcvtF64I64, kind 0x08 (R83, R84). -/
def valFcvtF64I64 (m : Mode) (a : Word) : Vec × BitVec 5 := fpResult (intToFp f64 m a.toInt)
def execFcvtF64I64 (rd ra : BitVec 7) (mode : BitVec 3) (ta : BitVec 1) (s : State) : Res :=
  s.issueFlags (formRR 0x15 mode.toNat ra ta) rd fun o s => valFcvtF64I64 mode.toNat (s.rx o ra)

/-- fcvtF64U64, kind 0x09 (R83, R84). -/
def valFcvtF64U64 (m : Mode) (a : Word) : Vec × BitVec 5 := fpResult (intToFp f64 m a.toNat)
def execFcvtF64U64 (rd ra : BitVec 7) (mode : BitVec 3) (ta : BitVec 1) (s : State) : Res :=
  s.issueFlags (formRR 0x15 mode.toNat ra ta) rd fun o s => valFcvtF64U64 mode.toNat (s.rx o ra)

/-- fcvtI32F32, kind 0x0A (R83, R84). -/
def valFcvtI32F32 (m : Mode) (a : Word) : Vec × BitVec 5 := intResult (fpToInt f32 m (fp32Of a) (-(2 ^ 31)) (2 ^ 31 - 1))
def execFcvtI32F32 (rd ra : BitVec 7) (mode : BitVec 3) (ta : BitVec 1) (s : State) : Res :=
  s.issueFlags (formRR 0x15 mode.toNat ra ta) rd fun o s => valFcvtI32F32 mode.toNat (s.rx o ra)

/-- fcvtI32F64, kind 0x0B (R83, R84). -/
def valFcvtI32F64 (m : Mode) (a : Word) : Vec × BitVec 5 := intResult (fpToInt f64 m (fp64Of a) (-(2 ^ 31)) (2 ^ 31 - 1))
def execFcvtI32F64 (rd ra : BitVec 7) (mode : BitVec 3) (ta : BitVec 1) (s : State) : Res :=
  s.issueFlags (formRR 0x15 mode.toNat ra ta) rd fun o s => valFcvtI32F64 mode.toNat (s.rx o ra)

/-- fcvtBf16F32, kind 0x0C (R83, R84). -/
def valFcvtBf16F32 (m : Mode) (a : Word) : Vec × BitVec 5 := fpResult (fpConvert f32 bf16 m (fp32Of a))
def execFcvtBf16F32 (rd ra : BitVec 7) (mode : BitVec 3) (ta : BitVec 1) (s : State) : Res :=
  s.issueFlags (formRR 0x15 mode.toNat ra ta) rd fun o s => valFcvtBf16F32 mode.toNat (s.rx o ra)

/-- fcvtF32Bf16, kind 0x0D (R83, R84). -/
def valFcvtF32Bf16 (_m : Mode) (a : Word) : Vec × BitVec 5 := fpResult (fpConvert bf16 f32 0 (a.toNat % 2 ^ 16))
def execFcvtF32Bf16 (rd ra : BitVec 7) (mode : BitVec 3) (ta : BitVec 1) (s : State) : Res :=
  s.issueFlags (formRR 0x15 mode.toNat ra ta) rd fun o s => valFcvtF32Bf16 mode.toNat (s.rx o ra)

/-- FCLASS.F32 (R85). -/
def execFclassF32 (rd ra : BitVec 7) (ta : BitVec 1) (s : State) : Res :=
  s.issueValue (formRR 0x16 0 ra ta) rd fun o s => scalarNat (fpClass f32 (fp32Of (s.rx o ra)))

/-- FCLASS.F64 (R85). -/
def execFclassF64 (rd ra : BitVec 7) (ta : BitVec 1) (s : State) : Res :=
  s.issueValue (formRR 0x16 1 ra ta) rd fun o s => scalarNat (fpClass f64 (fp64Of (s.rx o ra)))

end Sys2Proof.Machine
end

