-- ==== Sys2Proof/Machine/Link.lean ====
section
/-! DEFINITION. The receiving side of Rypel Link, training, and the messages of peers (R281, R284, R343, R346, R349 to
R354), and the clock that the links and the management port discipline (R394, R395). -/
namespace Sys2Proof.Machine

/-! ### Authentication (R350 to R352) -/

/-- A flit is taken: its slot is open, its tag holds, and its CTR is fresh under its slot (R351, R353). -/
def Port.accepts (q : Port) (f : Flit) : Bool :=
  let slot := if f.ks then (q.rxOpen.2, q.rxCtr.2) else (q.rxOpen.1, q.rxCtr.1)
  f.good && slot.1 && (match slot.2 with | some n => decide (n < f.ctr) | none => true)

/-- Note a taken flit: the slot's last CTR, and the count under a slot being switched to (R351, R353). -/
def Port.took (q : Port) (f : Flit) : Port :=
  { q with rxCtr := if f.ks then (q.rxCtr.1, some f.ctr) else (some f.ctr, q.rxCtr.2)
           rxNew := q.rxNew.map fun e => if e.1 = f.ks then (e.1, e.2 + 1) else e }

/-- A data sequence number that has not been received (R352). -/
def Port.missing (q : Port) (seq : Nat) : Bool :=
  decide ((seq + 4096 - q.rxSeq) % 4096 < 64) && q.ahead.all fun e => e.1 != seq
/-- A flit that fails is discarded, and a NAK is returned (R352). -/
def Port.refuse (q : Port) (f : Flit) : Port :=
  let seq := if q.missing f.seq then f.seq else q.rxSeq
  { q.emit 3 seq with failures := min 0xFFFF (q.failures + 1), naks := q.naks ++ [seq] }

/-- A flit arrives at an up port: the port, and whether the flit is taken; a reserved type or bit makes it retrain (R349). -/
def Port.receive (q : Port) (now : Nat) (f : Flit) : Port × Bool :=
  if q.state ≠ 2 then (q, false)
  else if !q.accepts f then (q.refuse f, false)
  else if f.reserved != 0 || f.kind == 0 || decide (5 < f.kind.toNat) then ((q.took f).retrain, false)
  else ((q.took f).ackTo now f.ack, true)

/-- Deliver from the flits held ahead of a missing one, in SEQ order (R351). -/
def Port.unlock (q : Port) : Nat → List LinkMessage → Port × List LinkMessage
  | 0, out => (q, out)
  | fuel + 1, out =>
    match q.ahead.find? fun e => e.1 == q.rxSeq with
    | some e => ({ q with rxSeq := (q.rxSeq + 1) % 4096, ahead := q.ahead.filter fun x => x.1 != e.1 }).unlock fuel (out ++ [e.2])
    | none => (q, out)
/-- A taken data flit: the messages that it lets through (R351). -/
def Port.dataFlit (q : Port) (f : Flit) (m : LinkMessage) : Port × List LinkMessage :=
  if !q.missing f.seq then (q, [])
  else ({ q with ahead := q.ahead ++ [(f.seq, m)] }).unlock 65 []

/-! ### Messages of peers (R281, R284, R340, R343, R346, R363) -/

/-- The context of this device with a serial: the peer of a remote context (R363). -/
def State.peerCtx (s : State) (serial : BitVec 128) : Option (Nat × Ctx) :=
  s.ctxs.find? fun e => e.2.serial == serial && e.2.flags.getLsbD 2 && e.2.ending.isNone

/-- Give a peer frames of the context's grant: MEM.MAP's remote form at the named device (R281). -/
def State.givePages (s : State) (p dev size attr : Nat) : Nat → Option State
  | 0 => some s
  | n + 1 =>
    match s.ctx? p, s.freeFrame (pageBytes size) with
    | some x, some a =>
      let key := if attr = 0 then 0 else x.keySlot.getD 0
      let page : Page := { size := pageBytes size, owner := p, attr := attr, key := key, code := false, count := 1, charged := true,
                           peer := some dev }
      let s := { s.zeroFrames a (pageBytes size) with pages := tabSet s.pages a page }
      (s.modCtx p fun x => { x with used := x.used + charge attr (pageBytes size) }).givePages p dev size attr n
    | _, _ => none

/-- A peer's request for frames, refused for the grant's own statuses 1 to 6 (R280, R281). -/
def State.peerMap (s : State) (dev : Nat) (serial : BitVec 128) (size count attr : Nat) : State :=
  match s.peerCtx serial with
  | none => s
  | some (p, x) =>
    if count = 0 ∨ 9 < size ∨ 2 < attr ∨ x.modeRefused attr ∨ x.used + charge attr (count * pageBytes size) > x.memory then s
    else (s.givePages p dev size attr count).getD s

/-- Frames of a context that a peer on a device was given, inside a range of physical addresses. -/
def State.givenTo (s : State) (p dev base length : Nat) : List (Nat × Page) :=
  s.pages.filter fun e => e.2.owner == p && e.2.peer == some dev && decide (base ≤ e.1) && decide (e.1 + e.2.size ≤ base + length)
/-- A peer's leaf for frames that it was given goes: with the last one they return to the grant with their lines zero (R272, R282,
R284). No translation is cached in this model, so an invalidation alone changes nothing. -/
def State.peerInvalidate (s : State) (dev : Nat) (serial : BitVec 128) (base length : Nat) (release : Bool) : State :=
  match s.peerCtx serial with
  | none => s
  | some (p, _) =>
    if !release then s
    else
      (s.givenTo p dev base length).foldl (fun s e =>
        if e.2.count > 1 then { s with pages := tabSet s.pages e.1 { e.2 with count := e.2.count - 1 } }
        else
          let s := { s.zeroFrames e.1 e.2.size with pages := tabErase s.pages e.1 }
          s.modCtx p fun x => { x with used := x.used - charge e.2.attr e.2.size }) s
/-- A peer's alias names frames that it was given: their tag counts one leaf more (R272, R281). -/
def State.peerAlias (s : State) (dev : Nat) (serial : BitVec 128) (base length : Nat) : State :=
  match s.peerCtx serial with
  | none => s
  | some (p, _) => (s.givenTo p dev base length).foldl (fun s e => { s with pages := tabSet s.pages e.1 { e.2 with count := e.2.count + 1 } }) s
/-- A peer changes the ATTR of frames that it was given: tags, charge and lines follow; refused where the grant or the mode does not
admit it (R272, R276, R280, R283). -/
def State.peerRetag (s : State) (dev : Nat) (serial : BitVec 128) (base length attr : Nat) : State :=
  match s.peerCtx serial with
  | none => s
  | some (p, x) =>
    let key := if attr = 0 then 0 else x.keySlot.getD 0
    let l := s.givenTo p dev base length
    let cost := l.foldl (fun n e => n + (charge attr e.2.size - charge e.2.attr e.2.size)) 0
    if 2 < attr ∨ x.used + cost > x.memory ∨ x.modeRefused attr then s else l.foldl (fun s e => s.retagAt p attr key e.1) s

/-- A peer's dispatch places a token at an expert here: the claim, the token, its header, and the Filled count; a control line that
fails its checks is left alone (R338, R340, R342). -/
def State.peerToken (s : State) (serial : BitVec 128) (line : Nat) (bytes header : List Byte) : State :=
  match s.peerCtx serial with
  | none => s
  | some (p, _) =>
    let c := (s.lowestCore p).getD 0
    let b := s.virtBytes c p line 64
    if line % 64 ≠ 0 ∨ (s.checkRange c p line 64 2).isSome then s
    else if s.unreadable (s.virtHomes c p line 64) then s.doom (s.virtHomes c p line 64)
    else if
        byteNat b 0 4 = 0 ∨ 65535 < byteNat b 0 4 ∨ bytesNat (b.drop 0x28) ≠ 0 then s
    else
      let claimed := byteNat b 4 4
      if byteNat b 0 4 ≤ claimed then s.writeVirt c p (line + 0xC) (natBytes 4 (byteNat b 0xC 4 + 1))
      else
        let slot := byteNat b 0x10 8 + claimed * bytes.length
        let head := byteNat b 0x18 8 + 16 * claimed
        let s := s.writeVirt c p (line + 4) (natBytes 4 (claimed + 1))
        if (s.checkRange c p slot bytes.length 1).isSome ∨ (s.checkRange c p head 16 1).isSome then s
        else
          let s := (s.writeVirt c p slot bytes).writeVirt c p head (header.take 6 ++ natBytes 2 claimed ++ header.drop 8)
          s.writeVirt c p (line + 8) (natBytes 4 (byteNat b 8 4 + 1))

/-- The frames that n bytes lie in were given to a peer on the device, whose leaf has their tag's ATTR; a context's key slot is one
for its life (R271, R272, R281). -/
def State.peerReaches (s : State) (dev addr attr n : Nat) : Bool :=
  match s.pageAt addr with
  | some e => e.2.peer == some dev && e.2.attr == attr && decide (addr + n ≤ e.1 + e.2.size)
  | none => false
/-- A peer's load performs here, and its bytes go back (R290). -/
def State.peerLoad (s : State) (dev addr attr n : Nat) : State :=
  let homes := (List.range n).map fun i => addr + i
  s.sendLink dev (.answer Config.deviceId.toNat (if s.peerReaches dev addr attr n ∧ (s.homeLost homes).isNone then some (homes.map s.homeByte) else none))
/-- The operation of a peer's atomic, by its number (R127, R128). -/
def amoNumbered (n : Nat) : AmoOp := [AmoOp.add, .and, .or, .xor, .min, .max, .swp].getD n .cas
/-- A peer's AMO, CAS or JOIN performs here, where the line's home is, and the old value goes back (R95, R126, R290). -/
def State.peerAtomic (s : State) (dev addr attr op : Nat) (b c : Word) : State :=
  if s.peerReaches dev addr attr 8 then
    let r := s.perform (fun _ => none) (.atomic (amoNumbered op) addr b c)
    r.1.sendLink dev (.answer Config.deviceId.toNat (match r.2 with | .value v _ => some (natBytes 8 v.toNat) | _ => none))
  else s.sendLink dev (.answer Config.deviceId.toNat none)
/-- A message of a peer takes effect (R271, R281, R290, R340, R343, R346, R362). What this device's own remote accesses read is in the
state already, so the answers to them change nothing. -/
def State.linkDelivers (s : State) : LinkMessage → State
  | .empty => s
  | .store dev addr attr bytes => if s.peerReaches dev addr attr bytes.length then s.pokeBytes addr bytes else s
  | .fetch dev addr attr n => s.peerLoad dev addr attr n
  | .atomic dev addr attr op b c => s.peerAtomic dev addr attr op b c
  | .answer _ _ => s
  | .active dev core slot target handler serial payload =>
    match s.peerCtx serial with
    | some (p, _) => { s with
        messages := s.messages ++ [{ dev := dev, core := core, slot := slot, target := target % 1024, handler := handler % 64,
                                     payload := payload, part := p, order := s.order }]
        order := s.order + 1 }
    | none => s
  | .join dev tag serial at_ opcode body map input =>
    match s.peerCtx serial with
    | some _ => s.memberJoins tag serial { dev := dev, opcode := opcode, body := body, map := map, input := input } at_
    | none => s
  | .differ dev tag serial at_ =>
    match s.peerCtx serial with
    | some _ => (s.memberLeaves tag serial dev).memberJoins tag serial (Member.differing dev) at_
    | none => s
  | .token _ serial line bytes header => s.peerToken serial line bytes header
  | .map dev serial size count attr => s.peerMap dev serial size count attr
  | .addLeaf dev serial base length => s.peerAlias dev serial base length
  | .invalidate dev serial base length release => s.peerInvalidate dev serial base length release
  | .retag dev serial base length attr => s.peerRetag dev serial base length attr
  | .withdraw dev tag serial =>
    match s.peerCtx serial with
    | some _ => s.memberLeaves tag serial dev
    | none => s
  | .claim dev serial expiry group mark => s.claimFrom dev serial expiry group mark
  | .verdict dev serial mark status => s.verdictFrom dev serial mark status

/-! ### The clock (R394, R395) -/

/-- sr.time meets a master: it steps forward at the first lock, and is only slewed afterwards (R395). -/
def State.discipline (s : State) (master : Nat) : State :=
  if s.locked then { s with slew := (master : Int) - s.timeQ }
  else { s with timeQ := max s.timeQ master, locked := true }

/-- PTP_MESSAGE_RECEIVE: the exchange on the management port gives the master's time (R394). -/
def execPtpMessageReceive (s : State) : Res := .next (s.discipline s.arg.n)

/-- One millisecond in quarters of a nanosecond. -/
def milliQ : Nat := 4000000
/-- A port's time flit is due (R394). -/
def Port.timeDue (q : Port) (now : Nat) : Bool := q.state == 2 && decide (q.timeAt + milliQ ≤ now)
/-- TIME_FLIT_SEND (R394). -/
def execTimeFlitSend (s : State) : Res :=
  .next (if (tabGet s.ports s.arg.n Port.reset).timeDue s.timeQ then
    s.modPort s.arg.n fun q => { q.emit 5 0 with timeAt := s.timeQ }
  else s)
/-- TIME_FLIT_RECEIVE: a taken time flit disciplines the boundary clock (R394). -/
def execTimeFlitReceive (s : State) : Res :=
  let r := (tabGet s.ports s.arg.n Port.reset).receive s.timeQ s.arg.flit
  let t := { s with ports := tabSet s.ports s.arg.n r.1 }
  .next (if r.2 then t.discipline s.arg.m else t)

/-! ### Events of a port -/

/-- DATA_FLIT_RECEIVE (R351, R352). -/
def execDataFlitReceive (s : State) : Res :=
  let r := (tabGet s.ports s.arg.n Port.reset).receive s.timeQ s.arg.flit
  let d := if r.2 then r.1.dataFlit s.arg.flit s.arg.msg else (r.1, [])
  .next (d.2.foldl State.linkDelivers { s with ports := tabSet s.ports s.arg.n d.1 })

/-- IDLE_FLIT_RECEIVE (R349): nothing is delivered. -/
def execIdleFlitReceive (s : State) : Res :=
  .next (s.modPort s.arg.n fun q => (q.receive s.timeQ s.arg.flit).1)

/-- NAK_RECEIVE: an ACK stands first; then the flit is sent again, or the port retrains (R352, R354). -/
def execNakReceive (s : State) : Res :=
  .next (s.modPort s.arg.n fun q =>
    let r := q.receive s.timeQ s.arg.flit
    if r.2 then r.1.resend s.timeQ s.arg.flit.seq else r.1)

/-- The oldest unacknowledged flit has seen no advance for 2 microseconds (R351). -/
def Port.replayLate (q : Port) (now : Nat) : Bool := q.state == 2 && !q.replay.isEmpty && decide (q.ackAt + 8000 ≤ now)
/-- REPLAY_TIMEOUT (R351, R352). -/
def execReplayTimeout (s : State) : Res :=
  .next (if (tabGet s.ports s.arg.n Port.reset).replayLate s.timeQ then
    s.modPort s.arg.n fun q => match q.replay with
      | f :: _ => q.resend s.timeQ f.seq
      | [] => q
  else s)

/-- The sender's key has reached the count at which the next is agreed (R353). -/
def Port.switchDue (q : Port) : Bool := q.state == 2 && !q.switching && decide (switchAt ≤ q.txCtr)
/-- No open slot of the receive direction has a salt: the two directions always carry different salts (R350). -/
def Port.saltFree (q : Port) (salt : BitVec 32) : Bool :=
  !(q.rxOpen.1 && q.rxSalt.1 == salt) && !(q.rxOpen.2 && q.rxSalt.2 == salt)
/-- A salt that the firmware agrees for the next key when no event names one: the least that is free (R350, R353). -/
def Port.freshSalt (q : Port) : Nat := ((List.range 3).find? fun n => q.saltFree (BitVec.ofNat 32 n)).getD 0
/-- KEY_SWITCH_START: the next key is agreed with its salt, and its marker goes before any later flit; the peer's switch-over opens the
other slot of the receive direction (R353). -/
def execKeySwitchStart (s : State) : Res :=
  .next (s.modPort s.arg.n fun q =>
    if s.arg.flag then
      (if q.state ≠ 2 ∨ q.rxNew.isSome then q
       else
        let fresh := !q.rxOpen.2
        let salt := BitVec.ofNat 32 s.arg.m
        if salt = q.txSalt ∨ (q.switching ∧ salt = q.txNext) then q
        else
          { q with rxOpen := (true, true), rxNew := some (fresh, 0)
                   rxCtr := if fresh then (q.rxCtr.1, none) else (none, q.rxCtr.2)
                   rxEpoch := if fresh then (q.rxEpoch.1, q.rxEpoch.1 + 1) else (q.rxEpoch.2 + 1, q.rxEpoch.2)
                   rxSalt := if fresh then (q.rxSalt.1, salt) else (salt, q.rxSalt.2) })
    else if q.switchDue ∧ q.saltFree (BitVec.ofNat 32 s.arg.m) then ({ q with switching := true, txNext := BitVec.ofNat 32 s.arg.m }).marker else q)

/-- The slot switched from closes (R353). -/
def Port.closeOld (q : Port) : Port :=
  match q.rxNew with
  | some (fresh, _) => { q with rxOpen := (!fresh, fresh), rxNew := none }
  | none => q
/-- KEY_SWITCH_MARKER_RECEIVE: an authenticated marker under the old key closes its slot (R353). -/
def execKeySwitchMarkerReceive (s : State) : Res :=
  .next (s.modPort s.arg.n fun q =>
    let r := q.receive s.timeQ s.arg.flit
    match r.1.rxNew with
    | some (fresh, _) => if r.2 ∧ s.arg.flit.ks ≠ fresh then r.1.closeOld else r.1
    | none => r.1)
/-- The marker was lost: 64 flits have authenticated under the new key (R353). -/
def Port.oldCloses (q : Port) : Bool := match q.rxNew with | some (_, n) => decide (64 ≤ n) | none => false
/-- OLD_KEY_SLOT_CLOSE (R353). -/
def execOldKeySlotClose (s : State) : Res :=
  .next (s.modPort s.arg.n fun q => if q.oldCloses then q.closeOld else q)

/-- A port comes up with an agreed key, epoch and salt in each direction: the replay buffer is sent again in SEQ order
(R350, R352). -/
def Port.comesUp (q : Port) (now peer port : Nat) (epoch salt rxEpoch rxSalt : BitVec 32) : Port :=
  let last : BitVec 64 := match q.replay.getLast? with | some f => flitHeader (q.replay.length - 1) f.seq q.ack false 0 1 | none => q.lastFlit
  let iv := if q.replay.isEmpty then q.lastIv else flitIv salt epoch (q.replay.length - 1)
  { q with rxEpoch := (rxEpoch, 0), rxSalt := (rxSalt, 0), lastFlit := last, lastIv := iv, state := 2, peer := peer, peerPort := port, txSlot := false, txEpoch := epoch, txSalt := salt,
           txCtr := q.replay.length, switching := false, rxOpen := (true, false), rxCtr := (none, none), rxNew := none,
           badTrainings := 0, ackAt := now, timeAt := now }.pump now
/-- A message that no port delivers: a collective that waits with it ends with DATA_LOST (R352). -/
def State.loseMessage (s : State) : LinkMessage → State
  | .join _ tag serial _ _ _ _ _ =>
    (s.active.filter fun e => match e.2.waiting with | some (t, n, _, _) => t == tag && n == serial | none => false).foldl
      (fun s e => s.collFails e.1 0x0E 0) s
  | _ => s
/-- A port is fenced: what it had not delivered goes over another up port to the same peer, if there is one, and is lost
otherwise (R352). -/
def State.fencePort (s : State) (n : Nat) (q : Port) : State :=
  let rest := (q.replay.map (·.message) ++ q.outbox).filter fun m => m != .empty
  let s := { s with ports := tabSet s.ports n { q with state := 3, badTrainings := 3, replay := [], outbox := [] } }
  if s.ports.any fun e => e.2.state == 2 && e.2.leads q.peer then rest.foldl (fun s m => s.sendLink q.peer m) s
  else rest.foldl State.loseMessage s
/-- PORT_TRAINING_END: the firmware agrees keys whose salts differ in the two directions (R350, R352, R403). -/
def execPortTrainingEnd (s : State) : Res :=
  let q := tabGet s.ports s.arg.n Port.reset
  let tx := BitVec.ofNat 32 s.arg.flit.seq
  let rx := BitVec.ofNat 32 (byteNat s.arg.bytes 4 4)
  .next (if q.state ≠ 1 then s
    else if s.arg.flag then
      (if tx = rx then s
       else
         let q := q.comesUp s.timeQ (s.arg.m % 256) (s.arg.k % 16) (BitVec.ofNat 32 s.arg.flit.ctr) tx (BitVec.ofNat 32 (byteNat s.arg.bytes 0 4)) rx
         { s with ports := tabSet s.ports s.arg.n q })
    else if q.badTrainings + 1 ≥ 3 then s.fencePort s.arg.n q
    else { s with ports := tabSet s.ports s.arg.n { q with badTrainings := q.badTrainings + 1 } })

/-- REMOTE_MAPPING_REQUEST: the firmware serves a peer's request (R281, R284). -/
def execRemoteMappingRequest (s : State) : Res :=
  .next (match s.arg.msg with
    | .map dev serial size count attr => s.peerMap dev serial size count attr
    | .addLeaf dev serial base length => s.peerAlias dev serial base length
    | .invalidate dev serial base length release => s.peerInvalidate dev serial base length release
    | .retag dev serial base length attr => s.peerRetag dev serial base length attr
    | _ => s)

end Sys2Proof.Machine
end

