-- ==== Sys2Proof/Machine/Vector.lean ====
section
/-! DEFINITION. Vector instructions, majors 0x30 to 0x37 (R101 to R112). -/
namespace Sys2Proof.Machine

/-- A lane-wise integer operation (R103, R104). -/
def zipLanes (f : BitVec 32 → BitVec 32 → BitVec 32) (a b : Vec) : Vec := ofLanes fun i => f (lane a i) (lane b i)
/-- Lane shift count b[4:0] (R103). -/
def laneShift (b : BitVec 32) : Nat := b.toNat % 32
/-- The lesser and the greater of two lanes as signed values (R104, R108). -/
def laneMin (a b : BitVec 32) : BitVec 32 := if a.toInt ≤ b.toInt then a else b
def laneMax (a b : BitVec 32) : BitVec 32 := if a.toInt ≤ b.toInt then b else a
/-- A mask of lanes on which a relation holds (R106). -/
def zipMask (f : BitVec 32 → BitVec 32 → Bool) (a b : Vec) : Vec := maskOf fun i => f (lane a i) (lane b i)
/-- The reduction tree over an operation that sets no flag (R108). -/
def reduceLanes (f : BitVec 32 → BitVec 32 → BitVec 32) (a : Vec) : Vec :=
  (reduceTree (fun x y => ((f (BitVec.ofNat 32 x) (BitVec.ofNat 32 y)).toNat, 0)) a).1

/-- vaddI32 (R103). -/
def execVaddI32 (rd ra rb : BitVec 7) (ta tb : BitVec 1) (s : State) : Res :=
  s.issueValue (formRRR 0x30 0 ra rb ta tb) rd fun o s => zipLanes (fun x y => x + y) (s.rv o ra) (s.rv o rb)

/-- vsubI32 (R103). -/
def execVsubI32 (rd ra rb : BitVec 7) (ta tb : BitVec 1) (s : State) : Res :=
  s.issueValue (formRRR 0x30 1 ra rb ta tb) rd fun o s => zipLanes (fun x y => x - y) (s.rv o ra) (s.rv o rb)

/-- vand (R103). -/
def execVand (rd ra rb : BitVec 7) (ta tb : BitVec 1) (s : State) : Res :=
  s.issueValue (formRRR 0x30 2 ra rb ta tb) rd fun o s => zipLanes (fun x y => x &&& y) (s.rv o ra) (s.rv o rb)

/-- vor (R103). -/
def execVor (rd ra rb : BitVec 7) (ta tb : BitVec 1) (s : State) : Res :=
  s.issueValue (formRRR 0x30 3 ra rb ta tb) rd fun o s => zipLanes (fun x y => x ||| y) (s.rv o ra) (s.rv o rb)

/-- vxor (R103). -/
def execVxor (rd ra rb : BitVec 7) (ta tb : BitVec 1) (s : State) : Res :=
  s.issueValue (formRRR 0x30 4 ra rb ta tb) rd fun o s => zipLanes (fun x y => x ^^^ y) (s.rv o ra) (s.rv o rb)

/-- vshl (R103). -/
def execVshl (rd ra rb : BitVec 7) (ta tb : BitVec 1) (s : State) : Res :=
  s.issueValue (formRRR 0x30 5 ra rb ta tb) rd fun o s => zipLanes (fun x y => x <<< laneShift y) (s.rv o ra) (s.rv o rb)

/-- vshr (R103). -/
def execVshr (rd ra rb : BitVec 7) (ta tb : BitVec 1) (s : State) : Res :=
  s.issueValue (formRRR 0x30 6 ra rb ta tb) rd fun o s => zipLanes (fun x y => x >>> laneShift y) (s.rv o ra) (s.rv o rb)

/-- vsra (R103). -/
def execVsra (rd ra rb : BitVec 7) (ta tb : BitVec 1) (s : State) : Res :=
  s.issueValue (formRRR 0x30 7 ra rb ta tb) rd fun o s => zipLanes (fun x y => x.sshiftRight (laneShift y)) (s.rv o ra) (s.rv o rb)

/-- vaddF32 (R102, R104). -/
def execVaddF32 (rd ra rb : BitVec 7) (ta tb : BitVec 1) (s : State) : Res :=
  s.issueFlags (formRRR 0x31 0 ra rb ta tb) rd fun o s => lanes2 (fpAdd f32) (s.rv o ra) (s.rv o rb)

/-- vsubF32 (R102, R104). -/
def execVsubF32 (rd ra rb : BitVec 7) (ta tb : BitVec 1) (s : State) : Res :=
  s.issueFlags (formRRR 0x31 1 ra rb ta tb) rd fun o s => lanes2 (fpSub f32) (s.rv o ra) (s.rv o rb)

/-- vmulF32 (R102, R104). -/
def execVmulF32 (rd ra rb : BitVec 7) (ta tb : BitVec 1) (s : State) : Res :=
  s.issueFlags (formRRR 0x31 2 ra rb ta tb) rd fun o s => lanes2 (fpMul f32) (s.rv o ra) (s.rv o rb)

/-- vminF32 (R102, R104). -/
def execVminF32 (rd ra rb : BitVec 7) (ta tb : BitVec 1) (s : State) : Res :=
  s.issueFlags (formRRR 0x31 3 ra rb ta tb) rd fun o s => lanes2 (fpMin f32) (s.rv o ra) (s.rv o rb)

/-- vmaxF32 (R102, R104). -/
def execVmaxF32 (rd ra rb : BitVec 7) (ta tb : BitVec 1) (s : State) : Res :=
  s.issueFlags (formRRR 0x31 4 ra rb ta tb) rd fun o s => lanes2 (fpMax f32) (s.rv o ra) (s.rv o rb)

/-- vmulI32 (R104). -/
def execVmulI32 (rd ra rb : BitVec 7) (ta tb : BitVec 1) (s : State) : Res :=
  s.issueValue (formRRR 0x31 5 ra rb ta tb) rd fun o s => zipLanes (fun x y => x * y) (s.rv o ra) (s.rv o rb)

/-- vminI32 (R104). -/
def execVminI32 (rd ra rb : BitVec 7) (ta tb : BitVec 1) (s : State) : Res :=
  s.issueValue (formRRR 0x31 6 ra rb ta tb) rd fun o s => zipLanes (laneMin) (s.rv o ra) (s.rv o rb)

/-- vmaxI32 (R104). -/
def execVmaxI32 (rd ra rb : BitVec 7) (ta tb : BitVec 1) (s : State) : Res :=
  s.issueValue (formRRR 0x31 7 ra rb ta tb) rd fun o s => zipLanes (laneMax) (s.rv o ra) (s.rv o rb)

/-- VFMA.F32 (R105). -/
def execVfmaF32 (rd ra rb : BitVec 7) (rc : BitVec 5) (s : State) : Res :=
  s.issueFlags (formRRRR 0x32 ra rb rc) rd fun o s => lanes3 (fpFma f32) (s.rv o ra) (s.rv o rb) (s.rv o (rc.setWidth 7))

/-- vcmpEqI32 (R106). -/
def execVcmpEqI32 (rd ra rb : BitVec 7) (ta tb : BitVec 1) (s : State) : Res :=
  s.issueValue (formRRR 0x33 0 ra rb ta tb) rd fun o s => zipMask (fun x y => x == y) (s.rv o ra) (s.rv o rb)

/-- vcmpLtI32 (R106). -/
def execVcmpLtI32 (rd ra rb : BitVec 7) (ta tb : BitVec 1) (s : State) : Res :=
  s.issueValue (formRRR 0x33 1 ra rb ta tb) rd fun o s => zipMask (fun x y => decide (x.toInt < y.toInt)) (s.rv o ra) (s.rv o rb)

/-- vcmpLtuI32 (R106). -/
def execVcmpLtuI32 (rd ra rb : BitVec 7) (ta tb : BitVec 1) (s : State) : Res :=
  s.issueValue (formRRR 0x33 2 ra rb ta tb) rd fun o s => zipMask (fun x y => decide (x.toNat < y.toNat)) (s.rv o ra) (s.rv o rb)

/-- vcmpEqF32 (R106). -/
def execVcmpEqF32 (rd ra rb : BitVec 7) (ta tb : BitVec 1) (s : State) : Res :=
  s.issueFlags (formRRR 0x33 3 ra rb ta tb) rd fun o s => maskLanes (fpEq f32) (s.rv o ra) (s.rv o rb)

/-- vcmpLtF32 (R106). -/
def execVcmpLtF32 (rd ra rb : BitVec 7) (ta tb : BitVec 1) (s : State) : Res :=
  s.issueFlags (formRRR 0x33 4 ra rb ta tb) rd fun o s => maskLanes (fpLess f32) (s.rv o ra) (s.rv o rb)

/-- vcmpLeF32 (R106). -/
def execVcmpLeF32 (rd ra rb : BitVec 7) (ta tb : BitVec 1) (s : State) : Res :=
  s.issueFlags (formRRR 0x33 5 ra rb ta tb) rd fun o s => maskLanes (fpLessEq f32) (s.rv o ra) (s.rv o rb)

/-- vcmpUnF32 (R106). -/
def execVcmpUnF32 (rd ra rb : BitVec 7) (ta tb : BitVec 1) (s : State) : Res :=
  s.issueFlags (formRRR 0x33 6 ra rb ta tb) rd fun o s => maskLanes (fpUnordered f32) (s.rv o ra) (s.rv o rb)

/-- Lanes of a where the mask's bit is 1, of b elsewhere (R107). -/
def selectLanes (a b m : Vec) : Vec := ofLanes fun i => if m.getLsbD i then lane a i else lane b i
/-- VSEL (R107). -/
def execVsel (rd ra rb : BitVec 7) (rc : BitVec 5) (s : State) : Res :=
  s.issueValue (formRRRR 0x34 ra rb rc) rd fun o s => selectLanes (s.rv o ra) (s.rv o rb) (s.rv o (rc.setWidth 7))

/-- vredAddI32 (R108). -/
def execVredAddI32 (rd ra : BitVec 7) (ta : BitVec 1) (s : State) : Res :=
  s.issueValue (formRR 0x35 0 ra ta) rd fun o s => reduceLanes (fun x y => x + y) (s.rv o ra)

/-- vredMaxI32 (R108). -/
def execVredMaxI32 (rd ra : BitVec 7) (ta : BitVec 1) (s : State) : Res :=
  s.issueValue (formRR 0x35 4 ra ta) rd fun o s => reduceLanes (laneMax) (s.rv o ra)

/-- vredMinI32 (R108). -/
def execVredMinI32 (rd ra : BitVec 7) (ta : BitVec 1) (s : State) : Res :=
  s.issueValue (formRR 0x35 5 ra ta) rd fun o s => reduceLanes (laneMin) (s.rv o ra)

/-- vredOr (R108). -/
def execVredOr (rd ra : BitVec 7) (ta : BitVec 1) (s : State) : Res :=
  s.issueValue (formRR 0x35 6 ra ta) rd fun o s => reduceLanes (fun x y => x ||| y) (s.rv o ra)

/-- vredAnd (R108). -/
def execVredAnd (rd ra : BitVec 7) (ta : BitVec 1) (s : State) : Res :=
  s.issueValue (formRR 0x35 7 ra ta) rd fun o s => reduceLanes (fun x y => x &&& y) (s.rv o ra)

/-- vredAddF32 (R108). -/
def execVredAddF32 (rd ra : BitVec 7) (ta : BitVec 1) (s : State) : Res :=
  s.issueFlags (formRR 0x35 1 ra ta) rd fun o s => reduceTree (fpAdd f32) (s.rv o ra)

/-- vredMaxF32 (R108). -/
def execVredMaxF32 (rd ra : BitVec 7) (ta : BitVec 1) (s : State) : Res :=
  s.issueFlags (formRR 0x35 2 ra ta) rd fun o s => reduceTree (fpMax f32) (s.rv o ra)

/-- vredMinF32 (R108). -/
def execVredMinF32 (rd ra : BitVec 7) (ta : BitVec 1) (s : State) : Res :=
  s.issueFlags (formRR 0x35 3 ra ta) rd fun o s => reduceTree (fpMin f32) (s.rv o ra)

/-- VPERM (R109). -/
def permLanes (a b : Vec) : Vec := ofLanes fun i => lane a ((lane b i).toNat % 16)
def execVperm (rd ra rb : BitVec 7) (ta tb : BitVec 1) (s : State) : Res :=
  s.issueValue (formRRR 0x36 0 ra rb ta tb) rd fun o s => permLanes (s.rv o ra) (s.rv o rb)

/-- VBCAST (R109). -/
def execVbcast (rd ra : BitVec 7) (ta : BitVec 1) (s : State) : Res :=
  s.issueValue (formRR 0x36 1 ra ta) rd fun o s => ofLanes fun _ => lane (s.rv o ra) 0

/-- VINS (R109): rd is a third source that blocks. All 16 lanes are written, the other 15 as rd was read at issue: a sibling's
write to rd between issue and completion does not stay, a DESIGN CHOICE (log 96). -/
def insertLane (d : Vec) (i : Nat) (x : BitVec 32) : Vec := ofLanes fun j => if j = i then x else lane d j
def execVins (rd ra rb : BitVec 7) (ta tb : BitVec 1) (s : State) : Res :=
  s.issueValue { Form.plain 0x36 2 with srcs := [srcT 1 ra ta, srcT 2 rb tb, srcB 0 rd] } rd fun o s =>
    insertLane (s.rv o rd) ((s.rx o rb).toNat % 16) (lane (s.rv o ra) 0)

/-- VEXT (R109). -/
def execVext (rd ra rb : BitVec 7) (ta tb : BitVec 1) (s : State) : Res :=
  s.issueValue (formRRR 0x36 3 ra rb ta tb) rd fun o s => (lane (s.rv o ra) ((s.rx o rb).toNat % 16)).setWidth 512

/-- vrcpF32 (R110). -/
def execVrcpF32 (rd ra : BitVec 7) (ta : BitVec 1) (s : State) : Res :=
  s.issueFlags { formRR 0x37 0 ra ta with lat := 16 } rd fun o s => lanes1 fpRcp (s.rv o ra)

/-- vrsqF32 (R110). -/
def execVrsqF32 (rd ra : BitVec 7) (ta : BitVec 1) (s : State) : Res :=
  s.issueFlags { formRR 0x37 1 ra ta with lat := 16 } rd fun o s => lanes1 fpRsq (s.rv o ra)

/-- vexp2F32 (R110). -/
def execVexp2F32 (rd ra : BitVec 7) (ta : BitVec 1) (s : State) : Res :=
  s.issueFlags { formRR 0x37 2 ra ta with lat := 16 } rd fun o s => lanes1 fpExp2 (s.rv o ra)

/-- vlog2F32 (R110). -/
def execVlog2F32 (rd ra : BitVec 7) (ta : BitVec 1) (s : State) : Res :=
  s.issueFlags { formRR 0x37 3 ra ta with lat := 16 } rd fun o s => lanes1 fpLog2 (s.rv o ra)

/-- Thirty-two halfwords of an entry (R111). -/
def ofHalves (f : Nat → Nat) : Vec :=
  ofLanes fun i => BitVec.ofNat 32 (f (2 * i) % 2 ^ 16 + f (2 * i + 1) % 2 ^ 16 * 2 ^ 16)
/-- VPACK.BF16 (R111). -/
def packBf16 (a b : Vec) : Vec × BitVec 5 :=
  let one (v : Vec) (i : Nat) : Nat × BitVec 5 := fpConvert f32 bf16 0 (lane v i).toNat
  (ofHalves fun j => if j < 16 then (one a j).1 else (one b (j - 16)).1,
   orFlags (fun i => (one a i).2) ||| orFlags fun i => (one b i).2)
def execVpackBf16 (rd ra rb : BitVec 7) (ta tb : BitVec 1) (s : State) : Res :=
  s.issueFlags (formRRR 0x37 4 ra rb ta tb) rd fun o s => packBf16 (s.rv o ra) (s.rv o rb)

/-- VUNPACK.BF16 (R111). -/
def unpackBf16 (a : Vec) (h : Nat) : Vec := ofLanes fun i => (halfword a (16 * h + i)).setWidth 32 <<< 16
def execVunpackBf16 (rd ra rb : BitVec 7) (ta tb : BitVec 1) (s : State) : Res :=
  s.issueValue (formRRR 0x37 5 ra rb ta tb) rd fun o s => unpackBf16 (s.rv o ra) ((s.rx o rb).toNat % 2)

/-- VZMASK (R112): the zero flags of ra. -/
def execVzmask (rd ra : BitVec 7) (ta : BitVec 1) (s : State) : Res :=
  s.issueValue (formRR 0x37 6 ra ta) rd fun o s => (s.regAt o.c (o.entry ra)).zf.setWidth 512

end Sys2Proof.Machine
end

