-- ==== Sys2Proof/Machine/Once.lean ====
section
/-! DEFINITION. The ONCE prefix (R42, R57, R100): the pair issues as the prefixed instruction would, by the leader of a
gang alone; `cur` tells the issue that it is a pair. -/
namespace Sys2Proof.Machine

/-- Issue the prefixed instruction of a pair; none for an instruction that R100 refuses under the prefix. -/
def issuePair (i : Instr) (s : State) : Option Res :=
  match i with
  | .add rd ra rb ta tb => some (execAdd rd ra rb ta tb s)
  | .sub rd ra rb ta tb => some (execSub rd ra rb ta tb s)
  | .and rd ra rb ta tb => some (execAnd rd ra rb ta tb s)
  | .or rd ra rb ta tb => some (execOr rd ra rb ta tb s)
  | .xor rd ra rb ta tb => some (execXor rd ra rb ta tb s)
  | .shl rd ra rb ta tb => some (execShl rd ra rb ta tb s)
  | .shr rd ra rb ta tb => some (execShr rd ra rb ta tb s)
  | .sra rd ra rb ta tb => some (execSra rd ra rb ta tb s)
  | .mul rd ra rb ta tb => some (execMul rd ra rb ta tb s)
  | .mulh rd ra rb ta tb => some (execMulh rd ra rb ta tb s)
  | .mulhu rd ra rb ta tb => some (execMulhu rd ra rb ta tb s)
  | .div rd ra rb ta tb => some (execDiv rd ra rb ta tb s)
  | .divu rd ra rb ta tb => some (execDivu rd ra rb ta tb s)
  | .rem rd ra rb ta tb => some (execRem rd ra rb ta tb s)
  | .remu rd ra rb ta tb => some (execRemu rd ra rb ta tb s)
  | .min rd ra rb ta tb => some (execMin rd ra rb ta tb s)
  | .max rd ra rb ta tb => some (execMax rd ra rb ta tb s)
  | .minu rd ra rb ta tb => some (execMinu rd ra rb ta tb s)
  | .maxu rd ra rb ta tb => some (execMaxu rd ra rb ta tb s)
  | .slt rd ra rb ta tb => some (execSlt rd ra rb ta tb s)
  | .sltu rd ra rb ta tb => some (execSltu rd ra rb ta tb s)
  | .seq rd ra rb ta tb => some (execSeq rd ra rb ta tb s)
  | .sne rd ra rb ta tb => some (execSne rd ra rb ta tb s)
  | .clz rd ra ta => some (execClz rd ra ta s)
  | .popc rd ra ta => some (execPopc rd ra ta s)
  | .rev rd ra ta => some (execRev rd ra ta s)
  | .sextB rd ra ta => some (execSextB rd ra ta s)
  | .sextH rd ra ta => some (execSextH rd ra ta s)
  | .sextW rd ra ta => some (execSextW rd ra ta s)
  | .zextW rd ra ta => some (execZextW rd ra ta s)
  | .addi rd ra ta imm => some (execAddi rd ra ta imm s)
  | .andi rd ra ta imm => some (execAndi rd ra ta imm s)
  | .ori rd ra ta imm => some (execOri rd ra ta imm s)
  | .xori rd ra ta imm => some (execXori rd ra ta imm s)
  | .shli rd ra ta imm => some (execShli rd ra ta imm s)
  | .shri rd ra ta imm => some (execShri rd ra ta imm s)
  | .srai rd ra ta imm => some (execSrai rd ra ta imm s)
  | .slti rd ra ta imm => some (execSlti rd ra ta imm s)
  | .movi rd imm => some (execMovi rd imm s)
  | .ldpc rd imm => some (execLdpc rd imm s)
  | .lea rd ra rb sh ta tb => some (execLea rd ra rb sh ta tb s)
  | .sel rd ra rb rc => some (execSel rd ra rb rc s)
  | .faddF32 rd ra rb ta tb => some (execFaddF32 rd ra rb ta tb s)
  | .fsubF32 rd ra rb ta tb => some (execFsubF32 rd ra rb ta tb s)
  | .fmulF32 rd ra rb ta tb => some (execFmulF32 rd ra rb ta tb s)
  | .fdivF32 rd ra rb ta tb => some (execFdivF32 rd ra rb ta tb s)
  | .fminF32 rd ra rb ta tb => some (execFminF32 rd ra rb ta tb s)
  | .fmaxF32 rd ra rb ta tb => some (execFmaxF32 rd ra rb ta tb s)
  | .fsqrtF32 rd ra ta => some (execFsqrtF32 rd ra ta s)
  | .faddF64 rd ra rb ta tb => some (execFaddF64 rd ra rb ta tb s)
  | .fsubF64 rd ra rb ta tb => some (execFsubF64 rd ra rb ta tb s)
  | .fmulF64 rd ra rb ta tb => some (execFmulF64 rd ra rb ta tb s)
  | .fdivF64 rd ra rb ta tb => some (execFdivF64 rd ra rb ta tb s)
  | .fminF64 rd ra rb ta tb => some (execFminF64 rd ra rb ta tb s)
  | .fmaxF64 rd ra rb ta tb => some (execFmaxF64 rd ra rb ta tb s)
  | .fsqrtF64 rd ra ta => some (execFsqrtF64 rd ra ta s)
  | .ffmaF32 rd ra rb rc => some (execFfmaF32 rd ra rb rc s)
  | .ffmaF64 rd ra rb rc => some (execFfmaF64 rd ra rb rc s)
  | .feqF32 rd ra rb ta tb => some (execFeqF32 rd ra rb ta tb s)
  | .fltF32 rd ra rb ta tb => some (execFltF32 rd ra rb ta tb s)
  | .fleF32 rd ra rb ta tb => some (execFleF32 rd ra rb ta tb s)
  | .funF32 rd ra rb ta tb => some (execFunF32 rd ra rb ta tb s)
  | .feqF64 rd ra rb ta tb => some (execFeqF64 rd ra rb ta tb s)
  | .fltF64 rd ra rb ta tb => some (execFltF64 rd ra rb ta tb s)
  | .fleF64 rd ra rb ta tb => some (execFleF64 rd ra rb ta tb s)
  | .funF64 rd ra rb ta tb => some (execFunF64 rd ra rb ta tb s)
  | .fcvtF64F32 rd ra mode ta => some (execFcvtF64F32 rd ra mode ta s)
  | .fcvtF32F64 rd ra mode ta => some (execFcvtF32F64 rd ra mode ta s)
  | .fcvtI64F32 rd ra mode ta => some (execFcvtI64F32 rd ra mode ta s)
  | .fcvtU64F32 rd ra mode ta => some (execFcvtU64F32 rd ra mode ta s)
  | .fcvtI64F64 rd ra mode ta => some (execFcvtI64F64 rd ra mode ta s)
  | .fcvtU64F64 rd ra mode ta => some (execFcvtU64F64 rd ra mode ta s)
  | .fcvtF32I64 rd ra mode ta => some (execFcvtF32I64 rd ra mode ta s)
  | .fcvtF32U64 rd ra mode ta => some (execFcvtF32U64 rd ra mode ta s)
  | .fcvtF64I64 rd ra mode ta => some (execFcvtF64I64 rd ra mode ta s)
  | .fcvtF64U64 rd ra mode ta => some (execFcvtF64U64 rd ra mode ta s)
  | .fcvtI32F32 rd ra mode ta => some (execFcvtI32F32 rd ra mode ta s)
  | .fcvtI32F64 rd ra mode ta => some (execFcvtI32F64 rd ra mode ta s)
  | .fcvtBf16F32 rd ra mode ta => some (execFcvtBf16F32 rd ra mode ta s)
  | .fcvtF32Bf16 rd ra mode ta => some (execFcvtF32Bf16 rd ra mode ta s)
  | .fclassF32 rd ra ta => some (execFclassF32 rd ra ta s)
  | .fclassF64 rd ra ta => some (execFclassF64 rd ra ta s)
  | .ld rd ra sz p ta off => some (execLd rd ra sz p ta off s)
  | .ldx rd ra sz p ta off => some (execLdx rd ra sz p ta off s)
  | .ldAcq rd ra sz p ta off => some (execLdAcq rd ra sz p ta off s)
  | .st rs ra sz p ta off => some (execSt rs ra sz p ta off s)
  | .stRel rs ra sz p ta off => some (execStRel rs ra sz p ta off s)
  | .vld rd ra p ta off => some (execVld rd ra p ta off s)
  | .vst rs ra p ta off => some (execVst rs ra p ta off s)
  | .vlds rd ra rb ta tb => some (execVlds rd ra rb ta tb s)
  | .vgath rd ra rb sh ta tb => some (execVgath rd ra rb sh ta tb s)
  | .vscat rs ra rb sh ta tb => some (execVscat rs ra rb sh ta tb s)
  | .pref ra p ta off => some (execPref ra p ta off s)
  | .fenceRw p => some (execFenceRw p s)
  | .fenceAcq p => some (execFenceAcq p s)
  | .fenceRel p => some (execFenceRel p s)
  | .fenceSs p => some (execFenceSs p s)
  | .amoAdd rd ra rb ta tb => some (execAmoAdd rd ra rb ta tb s)
  | .amoAnd rd ra rb ta tb => some (execAmoAnd rd ra rb ta tb s)
  | .amoOr rd ra rb ta tb => some (execAmoOr rd ra rb ta tb s)
  | .amoXor rd ra rb ta tb => some (execAmoXor rd ra rb ta tb s)
  | .amoMin rd ra rb ta tb => some (execAmoMin rd ra rb ta tb s)
  | .amoMax rd ra rb ta tb => some (execAmoMax rd ra rb ta tb s)
  | .amoSwp rd ra rb ta tb => some (execAmoSwp rd ra rb ta tb s)
  | .cas rd ra rb rc => some (execCas rd ra rb rc s)
  | .vaddI32 rd ra rb ta tb => some (execVaddI32 rd ra rb ta tb s)
  | .vsubI32 rd ra rb ta tb => some (execVsubI32 rd ra rb ta tb s)
  | .vand rd ra rb ta tb => some (execVand rd ra rb ta tb s)
  | .vor rd ra rb ta tb => some (execVor rd ra rb ta tb s)
  | .vxor rd ra rb ta tb => some (execVxor rd ra rb ta tb s)
  | .vshl rd ra rb ta tb => some (execVshl rd ra rb ta tb s)
  | .vshr rd ra rb ta tb => some (execVshr rd ra rb ta tb s)
  | .vsra rd ra rb ta tb => some (execVsra rd ra rb ta tb s)
  | .vaddF32 rd ra rb ta tb => some (execVaddF32 rd ra rb ta tb s)
  | .vsubF32 rd ra rb ta tb => some (execVsubF32 rd ra rb ta tb s)
  | .vmulF32 rd ra rb ta tb => some (execVmulF32 rd ra rb ta tb s)
  | .vminF32 rd ra rb ta tb => some (execVminF32 rd ra rb ta tb s)
  | .vmaxF32 rd ra rb ta tb => some (execVmaxF32 rd ra rb ta tb s)
  | .vmulI32 rd ra rb ta tb => some (execVmulI32 rd ra rb ta tb s)
  | .vminI32 rd ra rb ta tb => some (execVminI32 rd ra rb ta tb s)
  | .vmaxI32 rd ra rb ta tb => some (execVmaxI32 rd ra rb ta tb s)
  | .vfmaF32 rd ra rb rc => some (execVfmaF32 rd ra rb rc s)
  | .vcmpEqI32 rd ra rb ta tb => some (execVcmpEqI32 rd ra rb ta tb s)
  | .vcmpLtI32 rd ra rb ta tb => some (execVcmpLtI32 rd ra rb ta tb s)
  | .vcmpLtuI32 rd ra rb ta tb => some (execVcmpLtuI32 rd ra rb ta tb s)
  | .vcmpEqF32 rd ra rb ta tb => some (execVcmpEqF32 rd ra rb ta tb s)
  | .vcmpLtF32 rd ra rb ta tb => some (execVcmpLtF32 rd ra rb ta tb s)
  | .vcmpLeF32 rd ra rb ta tb => some (execVcmpLeF32 rd ra rb ta tb s)
  | .vcmpUnF32 rd ra rb ta tb => some (execVcmpUnF32 rd ra rb ta tb s)
  | .vsel rd ra rb rc => some (execVsel rd ra rb rc s)
  | .vredAddI32 rd ra ta => some (execVredAddI32 rd ra ta s)
  | .vredAddF32 rd ra ta => some (execVredAddF32 rd ra ta s)
  | .vredMaxF32 rd ra ta => some (execVredMaxF32 rd ra ta s)
  | .vredMinF32 rd ra ta => some (execVredMinF32 rd ra ta s)
  | .vredMaxI32 rd ra ta => some (execVredMaxI32 rd ra ta s)
  | .vredMinI32 rd ra ta => some (execVredMinI32 rd ra ta s)
  | .vredOr rd ra ta => some (execVredOr rd ra ta s)
  | .vredAnd rd ra ta => some (execVredAnd rd ra ta s)
  | .vperm rd ra rb ta tb => some (execVperm rd ra rb ta tb s)
  | .vbcast rd ra ta => some (execVbcast rd ra ta s)
  | .vins rd ra rb ta tb => some (execVins rd ra rb ta tb s)
  | .vext rd ra rb ta tb => some (execVext rd ra rb ta tb s)
  | .vrcpF32 rd ra ta => some (execVrcpF32 rd ra ta s)
  | .vrsqF32 rd ra ta => some (execVrsqF32 rd ra ta s)
  | .vexp2F32 rd ra ta => some (execVexp2F32 rd ra ta s)
  | .vlog2F32 rd ra ta => some (execVlog2F32 rd ra ta s)
  | .vpackBf16 rd ra rb ta tb => some (execVpackBf16 rd ra rb ta tb s)
  | .vunpackBf16 rd ra rb ta tb => some (execVunpackBf16 rd ra rb ta tb s)
  | .vzmask rd ra ta => some (execVzmask rd ra ta s)
  | .qpush q rd wc ws tb => some (execQpush q rd wc ws tb s)
  | .qpop q rd => some (execQpop q rd s)
  | .qpopStatus q rd ws => some (execQpopStatus q rd ws s)
  | .qpopTrap q rd => some (execQpopTrap q rd s)
  | .qpopTrapStatus q rd ws => some (execQpopTrapStatus q rd ws s)
  | .qtest q rd => some (execQtest q rd s)
  | .evtTerm n ra ta => some (execEvtTerm n ra ta s)
  | .evtCnt n ra rb ta tb => some (execEvtCnt n ra rb ta tb s)
  | .evtArm n ra ta => some (execEvtArm n ra ta s)
  | .evtRead n rd => some (execEvtRead n rd s)
  | .evtWait n => some (execEvtWait n s)
  | .sysGet rd aux => some (execSysGet rd aux s)
  | .sysSet ra aux => some (execSysSet ra aux s)
  | .time rd => some (execTime rd s)
  | .trap ra aux => some (execTrap ra aux s)
  | .thrStart rd ra => some (execThrStart rd ra s)
  | .thrResume rd ra => some (execThrResume rd ra s)
  | .thrResumeNext rd ra => some (execThrResumeNext rd ra s)
  | .nwrite rd ra => some (execNwrite rd ra s)
  | .arriveClu rd ra => some (execArriveClu rd ra s)
  | .arriveDeck rd ra => some (execArriveDeck rd ra s)
  | .arriveDev rd ra => some (execArriveDev rd ra s)
  | .wake rd ra => some (execWake rd ra s)
  | .sample ra => some (execSample ra s)
  | .launch rd ra => some (execLaunch rd ra s)
  | .launchWait rd ra => some (execLaunchWait rd ra s)
  | .launchQuery rd ra => some (execLaunchQuery rd ra s)
  | .launchAge rd ra => some (execLaunchAge rd ra s)
  | .cancelLaunch rd ra => some (execCancelLaunch rd ra s)
  | .cancelGraph rd ra => some (execCancelGraph rd ra s)
  | .cancelPhase rd ra => some (execCancelPhase rd ra s)
  | .cancelJob rd ra => some (execCancelJob rd ra s)
  | .cancelGraphRewind rd ra => some (execCancelGraphRewind rd ra s)
  | .memMap rd ra attr p => some (execMemMap rd ra attr p s)
  | .memMapAlias rd ra attr p => some (execMemMapAlias rd ra attr p s)
  | .memMapRemote rd ra attr p => some (execMemMapRemote rd ra attr p s)
  | .memUnmap rd ra => some (execMemUnmap rd ra s)
  | .memAttr rd ra attr p => some (execMemAttr rd ra attr p s)
  | .qfence q => some (execQfence q s)
  | .rwtLoad rd ra => some (execRwtLoad rd ra s)
  | .rwtCtl rd ra => some (execRwtCtl rd ra s)
  | .rwtCtlGet rd => some (execRwtCtlGet rd s)
  | .sbind rd ra n => some (execSbind rd ra n s)
  | .snext rd n => some (execSnext rd n s)
  | .snextStatus rd ws n => some (execSnextStatus rd ws n s)
  | .sdone rd n => some (execSdone rd n s)
  | .amSend rd ra => some (execAmSend rd ra s)
  | .amHandler rd ra => some (execAmHandler rd ra s)
  | .lnkStatus rd ra => some (execLnkStatus rd ra s)
  | .wrtPresent rd ra => some (execWrtPresent rd ra s)
  | .wrtPresentToken rd ra => some (execWrtPresentToken rd ra s)
  | .wrtPresentRevoke rd ra => some (execWrtPresentRevoke rd ra s)
  | .wrtSplit rd ra => some (execWrtSplit rd ra s)
  | .wrtDelegate rd ra => some (execWrtDelegate rd ra s)
  | .wrtSurrender rd ra => some (execWrtSurrender rd ra s)
  | .wrtQuery rd ra n => some (execWrtQuery rd ra n s)
  | .codeAdmit rd ra => some (execCodeAdmit rd ra s)
  | .attest rd ra => some (execAttest rd ra s)
  | .nop => some (execNop s)
  | _ => none

/-- ONCE and the word that follows it (R57, R100): ILLEGAL_INSTRUCTION when that word is none or may not be prefixed. -/
def execOnce (w : BitVec 32) (s : State) : Res :=
  match s.cur with
  | .thread c sl =>
    match (if onceAllowed w then decodeWord w else none).bind fun i => issuePair i { s with cur := .pair c sl w } with
    | some r => r
    | none => .next (s.illegal c sl w (some w))
  | _ => .fault .noIssuer

end Sys2Proof.Machine
end

