-- ==== Sys2Proof/Machine/Timers.lean ====
section
/-! DEFINITION. The Keystone's and the Sage's events in time, and those of the arbiter and the beacons (R362, R364, R365,
R374, R378, R396, R399). An event that is not due changes nothing. -/
namespace Sys2Proof.Machine

/-! ### The arbiter (R362) -/

/-- ARBITER_CLAIM: another device's claim is decided, and the reply sent to it (R362). -/
def execArbiterClaim (s : State) : Res :=
  .next (s.claimFrom (s.arg.m % 256) (BitVec.ofNat 128 s.arg.n) s.arg.k s.arg.flag (byteNat s.arg.bytes 0 8))
/-- ARBITER_REPLY: the pending admission finishes or is refused (R362). -/
def execArbiterReply (s : State) : Res := .next (s.claimAnswered s.arg.n)
/-- The pending claim has had no reply for 1 ms (R362). -/
def State.claimLate (s : State) : Bool :=
  match s.keystone.pending with
  | some q => !q.granted && decide (q.limit ≤ s.timeQ)
  | none => false
/-- ARBITER_REPLY_TIMEOUT: ARBITER_UNREACHABLE (R362). -/
def execArbiterReplyTimeout (s : State) : Res := .next (if s.claimLate then s.claimAnswered 0x0008 else s)
/-- SPENT_ENTRY_EXPIRY: a TRUSTED arbiter frees an entry whose expiry has passed (R362). -/
def execSpentEntryExpiry (s : State) : Res :=
  .next { s with keystone := { s.keystone with
    spent := s.keystone.spent.filter fun e => !(e.serial == BitVec.ofNat 128 s.arg.n && s.spentExpired e) } }

/-! ### Time (R364, R365) -/

/-- TIME_BEACON_ETHERNET: nothing is reported (R364). -/
def execTimeBeaconEthernet (s : State) : Res := .next (s.beacon s.arg.bytes).2
/-- 60 s of sr.time have passed since the last accepted beacon (R365). -/
def State.beaconLate (s : State) : Bool := s.keystone.trusted && decide (s.keystone.beaconAt + sixtySeconds ≤ s.time)
/-- BEACON_TIMEOUT (R365). -/
def execBeaconTimeout (s : State) : Res := .next (if s.beaconLate then s.setTrust false else s)
/-- A second has passed since H was written (R365). -/
def State.highDue (s : State) : Bool := decide (s.keystone.highAt + 4000000000 ≤ s.timeQ)
/-- HIGH_WATER_UPDATE (R365). -/
def execHighWaterUpdate (s : State) : Res := .next (if s.highDue then s.raiseHigh else s)

/-! ### Contexts and tokens (R374, R378) -/

/-- A context's not-after is reached (R365, R378). -/
def State.contextDue (s : State) (x : Ctx) : Bool := x.ending.isNone && s.reached x.notAfter.toNat
/-- CONTEXT_EXPIRY: EXPIRED_TERMINATED (R378). -/
def execContextExpiry (s : State) : Res :=
  .next (match s.ctx? s.arg.n with
    | some x => if s.contextDue x then s.endContext s.arg.n 0x0101 else s
    | none => s)
/-- An unredeemed token's not-after is reached (R365, R374). -/
def State.tokenDue (s : State) (n : Nat) : Bool :=
  match s.keystone.tokens[n]? with | some t => s.reached t.notAfter.toNat | none => false
/-- TOKEN_LAPSED (R374). -/
def execTokenLapsed (s : State) : Res := .next (if s.tokenDue s.arg.n then s.lapse s.arg.n else s)

/-- A mode-1 region is no longer readable (R378). -/
def State.dropHeld (s : State) (p : Nat) : State := { s with keystone := { s.keystone with held := tabErase s.keystone.held p } }
/-- A held region's 60 s have passed (R378). -/
def State.heldLate (s : State) (p : Nat) : Bool :=
  match tabGet? s.keystone.held p with | some h => decide (h.until_ ≤ s.trustedTime) | none => false
/-- HANDOVER_HOLD_EXPIRY (R378). -/
def execHandoverHoldExpiry (s : State) : Res := .next (if s.heldLate s.arg.n then s.dropHeld s.arg.n else s)
/-- HANDOVER_RELEASE: the host has read the region (R378, R390). -/
def execHandoverRelease (s : State) : Res := .next (s.dropHeld s.arg.n)

/-! ### The Sage (R396, R399) -/

/-- A core's periodic sample is due in this cycle (R396). -/
def State.sampleDue (s : State) (c : Nat) : Bool :=
  (s.core c).part.isSome && s.cycle != 0 && s.cycle % 2 ^ s.host.period == 0 && (s.core c).sageAt != s.cycle
/-- The sample of a core's next slot (R396, R397). -/
def State.takeSample (s : State) (c : Nat) : State :=
  let sl := (s.core c).sageSlot
  let pc := match s.thread? c sl with | some t => t.pc | none => 0
  let code := s.slotCode c sl
  (s.modCore c fun k => { k with sageSlot := (sl + 1) % 64, sageAt := s.cycle }).placeSample c sl 0 code pc 0
/-- SAGE_PERIODIC_SAMPLE (R396). -/
def execSagePeriodicSample (s : State) : Res := .next (if s.sampleDue s.arg.n then s.takeSample s.arg.n else s)

/-- A context's counter page is due for its update: a microsecond has begun since the last (R399). -/
def State.countersDue (s : State) (x : Ctx) : Bool := tabGet x.counts 13 0 / 1000 != s.time / 1000
/-- COUNTER_PAGE_UPDATE (R399). -/
def execCounterPageUpdate (s : State) : Res :=
  .next ((s.ctxs.filter fun e => s.countersDue e.2).foldl (fun s e => s.updateCounters e.1) s)

end Sys2Proof.Machine
end

