-- ==== Sys2Proof/Machine/Outside.lean ====
section
/-! DEFINITION. The host port: the admission window, the queue pages, the partition windows, BAR0, the management window,
hot patches, and resets (R381, R387 to R393, R401 to R403). -/
namespace Sys2Proof.Machine

/-- Change the host port. -/
def State.modHost (s : State) (f : HostPort → HostPort) : State := { s with host := f s.host }
/-- Store bytes in a window's table. -/
def putBytes (t : Tab Byte) (off : Nat) (bs : List Byte) : Tab Byte :=
  ((List.range bs.length).zip bs).foldl (fun t e => tabPut t (off + e.1) e.2 0) t
/-- Bytes of a window. -/
def windowBytes (t : Tab Byte) (off n : Nat) : List Byte := (List.range n).map fun i => tabGet t (off + i) 0

/-! ### The admission window (R389) -/

/-- A write met a busy window: it is dropped and counted. -/
def HostPort.drop (h : HostPort) : HostPort := { h with drops := h.drops + 1 }
/-- A doorbell of a presentation: its bytes are read, and the Keystone decides (R361, R372, R389). -/
def State.doorbell (s : State) (kind : Nat) : State :=
  if s.host.busy then s.modHost HostPort.drop
  else
    let q : Pending := { kind := kind, bytes := windowBytes s.host.window 0 (if kind = 2 then 256 else 640), thread := none,
                         presenter := none, limit := 0, granted := false, image := [], prio := 0, flags := 0 }
    (s.modHost fun h => { h with busy := true, tag := BitVec.ofNat 16 s.arg.n }).present q
/-- ADMISSION_DOORBELL_WARRANT (R389). -/
def execAdmissionDoorbellWarrant (s : State) : Res := .next (s.doorbell 0)
/-- ADMISSION_DOORBELL_TOKEN (R389). -/
def execAdmissionDoorbellToken (s : State) : Res := .next (s.doorbell 1)
/-- ADMISSION_DOORBELL_REVOCATION (R389). -/
def execAdmissionDoorbellRevocation (s : State) : Res := .next (s.doorbell 2)
/-- ADMISSION_DOORBELL_BEACON: its status is that of R364 (R389). -/
def execAdmissionDoorbellBeacon (s : State) : Res :=
  .next (if s.host.busy then s.modHost HostPort.drop
    else
      let r := s.beacon (windowBytes s.host.window 0 256)
      (r.2.modHost fun h => { h with tag := BitVec.ofNat 16 s.arg.n, status := BitVec.ofNat 16 r.1, handle := 0 }).signal 256)

/-! ### Queue pages (R390) -/

/-- The context of a partition that lets its host in: flag [0] of its warrant, until the context has ended (R8, R388). -/
def State.hostCtx (s : State) (p : Nat) : Option Ctx := (s.ctx? p).filter fun x => x.flags.getLsbD 0
/-- A write to the page, or to the window, of a partition that does not let it in is dropped and counted (R390, R391). -/
def State.pageDropped (s : State) (p : Nat) : State := s.modHost fun h => { h with pageDrops := tabSet h.pageDrops p (tabGet h.pageDrops p 0 + 1) }
def State.windowDropped (s : State) (p : Nat) : State :=
  s.modHost fun h => { h with windowDrops := tabSet h.windowDrops p (tabGet h.windowDrops p 0 + 1) }
/-- A launch record, or a write in its place, is discarded and logged (R322, R390). -/
def State.discardLaunch (s : State) (p : Nat) : State :=
  s.logRecord noCore [(0x00, 1, 0x23), (0x03, 1, 10), (0x04, 2, 0x3FF), (0x06, 1, p), (0x08, 8, s.time), (0x1C, 2, (s.coresOf p).length)] .none
/-- A launch record of the host; one for a context that is ending fails (R295, R378, R390). -/
def State.hostLaunch (s : State) (p q : Nat) (bs : List Byte) : State :=
  match s.hostCtx p with
  | none => s.pageDropped p
  | some x =>
    let r := bytesVec bs
    if x.ending.isSome ∨ bs.length ≠ 64 ∨ !sealed r ∨ fieldAt r 3 1 ≠ q ∨ s.checkRecord p x r ≠ 0 ∨ !s.launchRoom p q then s.discardLaunch p
    else (s.queueRecord p x r true).2
/-- HOST_LAUNCH_RECORD (R390). -/
def execHostLaunchRecord (s : State) : Res := .next (if s.arg.m < 8 then s.hostLaunch s.arg.n s.arg.m s.arg.bytes else s)

/-- Another write to a queue page: the release bit, or a dropped write (R390). -/
def State.queuePage (s : State) (p off : Nat) (bs : List Byte) : State :=
  if off = 0x200 ∧ (tabGet? s.keystone.held p).isSome then (if natBits (byteNat bs 0 1) 0 1 = 1 then s.dropHeld p else s)
  else if (s.hostCtx p).isNone then s.pageDropped p
  else if off % 64 = 0 ∧ off < 0x200 ∧ bs.length = 64 then s.hostLaunch p (off / 64) bs
  else if off < 0x200 then s.discardLaunch p
  else s

/-! ### Partition windows (R391) -/

/-- What a host read of a partition window gives: none is poison. A held mode-1 region is read from its copy (R378, R391). -/
def State.hostRead (s : State) (p off n : Nat) : Option (List Byte) :=
  match tabGet? s.keystone.held p with
  | some h => if h.base ≤ off ∧ off + n ≤ h.base + h.bytes.length then some (bytePart h.bytes (off - h.base) n) else none
  | none =>
    if 2 ^ 40 < off + n ∨ (s.hostCtx p).isNone ∨ (s.checkRange 0 p off n 0).isSome then none
    else
      let homes := s.virtHomes 0 p off n
      if (s.homeLost homes).isSome then none else some (homes.map s.homeByte)
/-- HOST_PARTITION_READ (R391). -/
def execHostPartitionRead (s : State) : Res :=
  .next (s.modHost fun h => { h with answers := s.hostRead s.arg.n s.arg.m s.arg.k :: h.answers })
/-- HOST_PARTITION_WRITE (R391). -/
def execHostPartitionWrite (s : State) : Res :=
  let n := s.arg.bytes.length
  .next (if 2 ^ 40 < s.arg.m + n ∨ (s.hostCtx s.arg.n).isNone ∨ (s.checkRange 0 s.arg.n s.arg.m n 1).isSome then s.windowDropped s.arg.n
    else s.writeVirt 0 s.arg.n s.arg.m s.arg.bytes)

/-! ### BAR0 (R388) -/

/-- Held vectors that are no longer masked are sent (R393). -/
def HostPort.unmask (h : HostPort) : HostPort :=
  let open_ := h.pendingVectors.filter fun v => !(tabGet h.msix (16 * v + 12) 0).getLsbD 0
  { h with pendingVectors := h.pendingVectors.filter fun v => !open_.contains v, sentVectors := open_.reverse ++ h.sentVectors }
/-- Offsets of the management window that hold staged bytes: not the status and nonce words, nor a doorbell (R401, R402). -/
def isStaged (off : Nat) : Bool :=
  !(decide (0xE0100 ≤ off) && decide (off < 0xE0110)) && !(decide (0xE1000 ≤ off) && decide (off < 0xE1008)) &&
  !(decide (0xF0000 ≤ off) && decide (off < 0xF0010))
/-- A write to BAR0: stored where its window stores it, else dropped (R388 to R390, R401). -/
def State.bar0Write (s : State) (off : Nat) (bs : List Byte) : State :=
  if off < 0x1000 then
    if s.host.busy then s.modHost HostPort.drop
    else if off + bs.length ≤ 0x800 then s.modHost fun h => { h with window := putBytes h.window off bs }
    else s
  else if 0x10000 ≤ off ∧ off < 0x30000 then s.queuePage ((off - 0x10000) / 0x1000) (off % 0x1000) bs
  else if 0x40000 ≤ off ∧ off + bs.length ≤ 0x40000 + 258 * 16 then
    s.modHost fun h => { h with msix := putBytes h.msix (off - 0x40000) bs }.unmask
  else if 0x1000000 ≤ off ∧ off + bs.length ≤ 0x1100000 then
    s.modHost fun h => { h with staged := ((List.range bs.length).zip bs).foldl (fun t e =>
      if isStaged (off - 0x1000000 + e.1) then tabPut t (off - 0x1000000 + e.1) e.2 0 else t) h.staged }
  else s
/-- REGISTER_WRITE (R388). -/
def execRegisterWrite (s : State) : Res := .next (s.bar0Write s.arg.n s.arg.bytes)

/-! ### The apply record (R326, R401, R402) -/

/-- A descriptor obeys R326, and every partition that it strikes permits it. -/
def State.descriptorOk (s : State) (d : BitVec 256) : Bool :=
  let c := fieldAt d 2 2
  decide (1 ≤ fieldAt d 0 1) && decide (fieldAt d 0 1 ≤ 6) && decide (fieldAt d 1 1 ≤ 2) && decide (c < 1024) &&
  decide (fieldAt d 4 1 < 64) && fieldAt d 6 2 == 0 && fieldAt d 0x18 8 == 0 && (s.struck d).all s.injectable
/-- The descriptors marked for arming (R401). -/
def HostPort.marked (h : HostPort) : List (BitVec 256) :=
  (List.range 8).filterMap fun i =>
    if (tabGet h.staged (0x1100 + 8 * i) 0).getLsbD 0 then some (BitVec.ofNat 256 (bytesNat (windowBytes h.staged (0x1000 + 32 * i) 32))) else none
/-- The check of an apply record: its status (R402). -/
def State.applyCheck (s : State) : Nat :=
  let h := s.host
  let b := windowBytes h.staged 0xE0000 256
  let n := bytesNat (windowBytes h.staged 0 8)
  let w := bytesNat (windowBytes h.staged 8 8)
  if byteNat b 0 4 ≠ 0x4D474150 ∨ !zeroAt b [(5, 1), (0x50, 44)] ∨ !Config.provisioned (byteNat b 4 1) ∨
      byteNat b 6 2 ≠ Config.podId.toNat ∨ !operatorOk (byteNat b 4 1) b 0x7C then 1
  else if byteNat b 8 8 ≠ h.nonce then 2
  else if sha512 (windowBytes h.staged 0 0x2000) ≠ bytePart b 0x10 64 then 3
  else if n < 10 ∨ 20 < n ∨ w < 1000 ∨ 2800 < w ∨ 8 < h.injections.length + h.marked.length ∨
      !h.marked.all s.descriptorOk then 4
  else 0
/-- APPLY_DOORBELL (R402). -/
def execApplyDoorbell (s : State) : Res :=
  let st := s.applyCheck
  .next (s.modHost fun h =>
    let h := { h with applyStatus := st, nonce := (h.nonce + 1) % 2 ^ 64 }
    if st ≠ 0 then h
    else
      { h with period := bytesNat (windowBytes h.staged 0 8), power := bytesNat (windowBytes h.staged 8 8)
               injections := h.injections ++ h.marked.map fun d => { desc := d, ready := false }
               staged := (List.range 8).foldl (fun t i =>
                 tabPut t (0x1100 + 8 * i) (tabGet t (0x1100 + 8 * i) 0 &&& 0xFE) 0) h.staged })

/-! ### Hot patches (R381) -/

/-- The submitted patch. -/
def HostPort.patch (h : HostPort) : List Byte := windowBytes h.staged 0x80000 0x60000
/-- Saved records take a converter's layout, with new CRC-32C values; a record in which a double error stands is still lost (R312,
R381; log 104). -/
def State.convertSaved (s : State) (layout : Nat) : State :=
  { s with ctxs := s.ctxs.map fun e => (e.1, { e.2 with saved := e.2.saved.map fun v => { v with layout := layout } }) }
/-- A saved record, or a queue saved in an image, uses a layout that a patch does not accept (R170, R303, R381). -/
def State.layoutBlocked (s : State) (b : List Byte) : Bool :=
  s.ctxs.any fun e => (e.2.saved.any fun v => !(Config.patchLayouts b).contains v.layout) || (!e.2.images.isEmpty && !(Config.patchLayouts b).contains 1)

/-- Activate a patch, or report why not; `serving` are the functions that are serving a request (R381). -/
def State.tryPatch (s : State) (serving : List Byte) : State :=
  let b := s.host.patch
  let ends (st : Nat) : State := s.modHost fun h => { h with patchStatus := st, patchLimit := none }
  if !Config.patchValid b then ends 1
  else if Config.patchBase b ≠ s.host.firmware then ends 2
  else if serving.any fun n => (Config.patchMask b).getLsbD n.toNat then
    s.modHost fun h => { h with patchLimit := some (h.patchLimit.getD (s.timeQ + 400000000)) }
  else if s.layoutBlocked b && !Config.patchConverts b then ends 4
  else
    (if Config.patchConverts b then s.convertSaved (Config.patchLayout b) else s).modHost fun h => { h with
      patchStatus := 0, patchLimit := none, firmware := (Config.patchVersion b).toNat
      functions := (Config.patchEntries b).foldl (fun t e => tabSet t e.1.toNat e.2) h.functions }
/-- HOT_PATCH_DOORBELL: the patch is submitted, or tried again at a message boundary; the event brings the numbers of the functions
that are serving a request (R381). -/
def execHotPatchDoorbell (s : State) : Res := .next (s.tryPatch s.arg.bytes)
/-- A patch has been retried for 100 ms (R381). -/
def State.patchLate (s : State) : Bool := match s.host.patchLimit with | some t => decide (t ≤ s.timeQ) | none => false
/-- PATCH_BUSY (R381). -/
def execPatchBusy (s : State) : Res :=
  .next (if s.patchLate then s.modHost fun h => { h with patchStatus := 3, patchLimit := none } else s)

/-! ### Lanes and resets (R387, R403) -/

/-- HOST_LANE_FAILURE: the port trains down to x8 or x4 (R387). -/
def execHostLaneFailure (s : State) : Res :=
  .next (s.modHost fun h =>
    let n := if 16 ≤ s.arg.n then 16 else if 8 ≤ s.arg.n then 8 else 4
    { h with lanes := min h.lanes n })

/-- A reset: only the MRAM survives of the device; the host's memory, the other devices' and the events to come are
outside it (R403). -/
def State.restart (s : State) : State :=
  { State.afterReset s.keystone.high s.keystone.spent (s.host.resets + 1) with
    inputs := s.inputs, draws := s.draws
    mem := s.mem.filter fun e => decide (2 ^ 51 ≤ e.1) && decide (e.1 < scratchHome) }
/-- COLD_RESET (R403). -/
def execColdReset (s : State) : Res := .next s.restart
/-- WARM_RESET: a CXL reset proceeds as a cold reset (R403). -/
def execWarmReset (s : State) : Res := .next s.restart

end Sys2Proof.Machine
end

