-- ==== Sys2Proof/Machine/TileNumber.lean ====
section
/-! DEFINITION. The tile engine's numbers: element formats, one rounding into a type, the EC8 block container, sparse
metadata, the order of accumulation, and the functions of the loop nests (R201 to R212, R246 to R248, R252). -/
namespace Sys2Proof.Machine

/-! ### Element types (R201, R219): 0 FP32, 1 BF16, 2 E4M3, 3 E5M2, 4 I8, 5 I32 -/

/-- Bytes of an element type. -/
def typeBytes : Nat → Nat
  | 0 => 4 | 1 => 2 | 2 => 1 | 3 => 1 | 4 => 1 | _ => 4

/-- E4M3: no infinities, one NaN per sign (R201). -/
def unpackE4M3 (x : Nat) : Fp :=
  let neg := natBits x 7 1 == 1
  let e := natBits x 3 4
  let m := x % 8
  if e = 15 ∧ m = 7 then .nan neg m true else if e = 0 then .fin neg m (-9) else .fin neg (m + 8) ((e : Int) - 10)

/-- Decode an element of a floating-point type. -/
def decodeType (ty x : Nat) : Fp :=
  match ty with
  | 1 => unpack bf16 x
  | 2 => unpackE4M3 x
  | 3 => unpack fE5M2 x
  | _ => unpack f32 x

/-- Decode an element of an integer type. -/
def decodeInt (ty x : Nat) : Int := if ty = 4 then (BitVec.ofNat 8 x).toInt else (BitVec.ofNat 32 x).toInt

/-- A value before its one rounding: exact, or truncated when `sticky` with bits enough to round. -/
inductive Num where
  | nan
  | inf (neg : Bool)
  | fin (neg : Bool) (m : Nat) (e : Int) (sticky : Bool)
  deriving DecidableEq, Repr

def Fp.num : Fp → Num
  | .nan _ _ _ => .nan
  | .inf n => .inf n
  | .fin n m e => .fin n m e false
def Dyadic.num (d : Dyadic) (zeroNeg : Bool) : Num :=
  if d.val = 0 then .fin zeroNeg 0 0 false else .fin (decide (d.val < 0)) d.val.natAbs d.exp false

/-- Exponent field and mantissa of a magnitude rounded to nearest even, with no upper bound. -/
def roundMag (bits : Nat) (low : Int) (m : Nat) (e : Int) (sticky : Bool) : Nat :=
  let q := max (e + (bitLen m : Int) - ((bits : Int) + 1)) low
  let sh := q - e
  let r := if sh ≤ 0 then m * 2 ^ (-sh).toNat else (roundShift 0 false m sh.toNat sticky).1
  (q - low).toNat * 2 ^ bits + r

/-- Round into a floating-point type (R246). -/
def encodeType (ty : Nat) (x : Num) : Nat :=
  let s (neg : Bool) (top : Nat) : Nat := if neg then top else 0
  match ty, x with
  | 1, .nan => 0x7FC0
  | 1, .inf n => withSign bf16 n bf16.inf
  | 1, .fin n m e st => (roundPack bf16 0 n m e st).1
  | 2, .nan => 0x7F
  | 2, .inf n => 0x7E + s n 0x80
  | 2, .fin n m e st => min 0x7E (if m = 0 then 0 else roundMag 3 (-9) m e st) + s n 0x80
  | 3, .nan => 0x7E
  | 3, .inf n => 0x7C + s n 0x80
  | 3, .fin n m e st => (roundPack fE5M2 4 n m e st).1
  | _, .nan => f32.nan
  | _, .inf n => withSign f32 n f32.inf
  | _, .fin n m e st => (roundPack f32 0 n m e st).1

/-- Saturate into an integer type: the pattern, and whether it saturated (R246). -/
def encodeInt (ty : Nat) (v : Int) : Nat × Bool :=
  let w := if ty = 4 then 8 else 32
  let hi : Int := 2 ^ (w - 1) - 1
  let lo : Int := -(2 ^ (w - 1))
  if v > hi then (hi.toNat, true)
  else if v < lo then ((lo % 2 ^ w).toNat, true)
  else ((v % 2 ^ w).toNat, false)

/-- A widened value as a binary32 pattern, exactly. -/
def Fp.to32 (x : Fp) : Nat := encodeType 0 x.num

/-- x × y + z before rounding (R80, R81). -/
def exactFma (x y z : Fp) : Num :=
  let neg := x.neg != y.neg
  match x, y, z with
  | .nan _ _ _, _, _ => .nan
  | _, .nan _ _ _, _ => .nan
  | _, _, .nan _ _ _ => .nan
  | .fin _ _ _, .fin _ _ _, .fin _ _ _ =>
    let p := x.dyadic.mul y.dyadic
    (p.add z.dyadic).num (decide (p.val = 0) && z.isZero && neg && z.neg)
  | .fin _ _ _, .fin _ _ _, .inf k => .inf k
  | _, _, .inf k => if x.isZero || y.isZero || neg != k then .nan else .inf k
  | _, _, .fin _ _ _ => if x.isZero || y.isZero then .nan else .inf neg

/-- 1/x, 1/sqrt(x) and 2^x before rounding, with the specials of R110. -/
def rcpNum : Fp → Num
  | .nan _ _ _ => .nan
  | .inf n => .fin n 0 0 false
  | .fin n m e =>
    if m = 0 then .inf n
    else
      let r := divBits f32.m 1 m
      .fin n r.1 (r.2.1 - e) r.2.2
def rsqNum : Fp → Num
  | .nan _ _ _ => .nan
  | .inf n => if n then .nan else .fin false 0 0 false
  | .fin n m e =>
    if m = 0 then .inf n
    else if n then .nan
    else
      let t := if e % 2 = 0 then (m, e) else (2 * m, e - 1)
      let s : Nat := 60
      let r := isqrt (2 ^ (2 * s) / t.1)
      .fin false r (-(s : Int) - t.2 / 2) (decide (r * r * t.1 ≠ 2 ^ (2 * s)))
def exp2Num : Fp → Num
  | .nan _ _ _ => .nan
  | .inf n => if n then .fin false 0 0 false else .inf false
  | .fin n m e =>
    if m = 0 then .fin false 1 0 false
    else
      let r := exp2Parts n m e
      .fin false r.1 r.2.1 r.2.2

/-! ### Loop-nest functions (R247, R248) -/

/-- A function uses operand 2; it is for floating point alone. -/
def ewUsesY (fn : Nat) : Bool := decide (1 ≤ fn) && decide (fn ≤ 6)
def ewFloatOnly (fn : Nat) : Bool := decide (10 ≤ fn)

def ewFloat (fn : Nat) (x y d : Fp) : Num :=
  let one : Fp := .fin false 1 0
  let flip : Fp → Fp := fun v => match v with
    | .nan n p q => .nan (!n) p q | .inf n => .inf (!n) | .fin n m e => .fin (!n) m e
  let clear : Fp → Fp := fun v => match v with
    | .nan _ p q => .nan false p q | .inf _ => .inf false | .fin _ m e => .fin false m e
  match fn with
  | 0 => x.num
  | 1 => exactFma x one y
  | 2 => exactFma x one (flip y)
  | 3 => exactFma x y (.fin (x.neg != y.neg) 0 0)
  | 4 => exactFma x y d
  | 5 => (unpack f32 (fpMin f32 x.to32 y.to32).1).num
  | 6 => (unpack f32 (fpMax f32 x.to32 y.to32).1).num
  | 7 => (clear x).num
  | 8 => (flip x).num
  | 9 => (unpack f32 (fpMax f32 x.to32 0).1).num
  | 10 => rcpNum x
  | 11 => rsqNum x
  | _ => exp2Num x

def ewInt (fn : Nat) (x y d : Int) : Int :=
  match fn with
  | 0 => x
  | 1 => x + y
  | 2 => x - y
  | 3 => x * y
  | 4 => d + x * y
  | 5 => min x y
  | 6 => max x y
  | 7 => (x.natAbs : Int)
  | 8 => -x
  | _ => max x 0

/-- A reduction's first accumulator from its first term, and one step, in binary32 (R248). -/
def redFirst (fn : Nat) (x y : Nat) : Nat :=
  match fn % 16 with
  | 3 => (fpMul f32 x x).1
  | 4 => (fpMul f32 x y).1
  | _ => x
def redStep (fn : Nat) (acc x y : Nat) : Nat :=
  match fn % 16 with
  | 0 => (fpAdd f32 acc x).1
  | 1 => (fpMax f32 acc x).1
  | 2 => (fpMin f32 acc x).1
  | 3 => (fpFma f32 x x acc).1
  | _ => (fpFma f32 x y acc).1
def redTermInt (fn : Nat) (x y : Int) : Int :=
  match fn % 16 with | 3 => x * x | 4 => x * y | _ => x
def redStepInt (fn : Nat) (acc t : Int) : Int :=
  match fn % 16 with | 1 => max acc t | 2 => min acc t | _ => acc + t

/-! ### The matrix product (R207 to R210) -/

/-- The exact sum of a chunk's products: a NaN, infinities of one sign, or a number (R208, R209). -/
inductive ChunkSum where
  | nan
  | inf (neg : Bool)
  | fin (d : Dyadic)
  deriving DecidableEq, Repr

/-- Add one product; a pruned position adds nothing (R209). -/
def ChunkSum.step (t : ChunkSum) (a : Option Fp) (b : Fp) : ChunkSum :=
  match a with
  | none => t
  | some a =>
    match t, a, b with
    | .nan, _, _ => .nan
    | _, .nan _ _ _, _ => .nan
    | _, _, .nan _ _ _ => .nan
    | .fin d, .fin _ _ _, .fin _ _ _ => .fin (d.add (a.dyadic.mul b.dyadic))
    | .inf k, .fin _ _ _, .fin _ _ _ => .inf k
    | t, a, b =>
      let neg := a.neg != b.neg
      if a.isZero || b.isZero then .nan
      else match t with
        | .inf k => if k = neg then .inf k else .nan
        | _ => .inf neg

/-- u of R208: the sum scaled by sAB, rounded once. -/
def chunkTerm (t : ChunkSum) (sab : Fp) : Nat :=
  match t, sab with
  | .nan, _ => f32.nan
  | _, .nan _ _ _ => f32.nan
  | .inf k, s => if s.isZero then f32.nan else withSign f32 (k != s.neg) f32.inf
  | .fin d, .inf k => if d.val = 0 then f32.nan else withSign f32 (decide (d.val < 0) != k) f32.inf
  | .fin d, s =>
    if d.val = 0 then 0
    else (roundDyadic f32 0 (d.mul s.dyadic) (decide (d.val < 0) != s.neg)).1

/-- acc after one chunk (R208, R209). -/
def chunkStep (neg : Bool) (sab : Fp) (acc : Nat) (l : List (Option Fp × Fp)) : Nat :=
  let u := chunkTerm (l.foldl (fun t p => t.step p.1 p.2) (.fin Dyadic.zero)) sab
  let u := if neg && !isNan f32 u then flipSign f32 u else u
  if isNan f32 acc || isNan f32 u then f32.nan else (fpAdd f32 acc u).1

/-- One output element of a floating-point product. -/
def mmaFloat (neg : Bool) (sab : Fp) (acc : Nat) (chunksOf : List (List (Option Fp × Fp))) : Nat :=
  chunksOf.foldl (chunkStep neg sab) acc

/-- One output element of MMA.I8.I8, and whether it saturated (R210). -/
def mmaInt (neg : Bool) (acc : Int) (chunksOf : List (List (Int × Int))) : Int × Bool :=
  chunksOf.foldl (fun (r : Int × Bool) l =>
    let t := l.foldl (fun (n : Int) p => n + p.1 * p.2) 0
    let v := r.1 + (if neg then -t else t)
    if v > 2 ^ 31 - 1 then (2 ^ 31 - 1, true) else if v < -(2 ^ 31) then (-(2 ^ 31), true) else (v, r.2)) (acc, false)

/-! ### EC8 blocks (R203 to R206, R252) -/

/-- Why a block does not decode: its bits are wrong, or a bit is needed beyond those given. -/
inductive BlockError where
  | wrong
  | short
  deriving DecidableEq, Repr

/-- The value of bits, least significant first. -/
def bitsVal : List Bool → Nat
  | [] => 0
  | b :: l => (if b then 1 else 0) + 2 * bitsVal l
/-- The low n bits of a number, least significant first. -/
def valBits : Nat → Nat → List Bool
  | 0, _ => []
  | n + 1, x => (x % 2 == 1) :: valBits n (x / 2)

def takeBits (n : Nat) (l : List Bool) : Except BlockError (Nat × List Bool) :=
  if l.length < n then .error .short else .ok (bitsVal (l.take n), l.drop n)

/-- Ones before the next zero-bit, at most `lim`. -/
def onesGo (lim : Nat) : List Bool → Nat → Except BlockError (Nat × List Bool)
  | [], _ => .error .short
  | b :: l, q => if b then (if lim < q + 1 then .error .wrong else onesGo lim l (q + 1)) else .ok (q, l)

/-- n values of w bits each. -/
def fieldsGo (w : Nat) : Nat → List Bool → Except BlockError (List Nat × List Bool)
  | 0, l => .ok ([], l)
  | n + 1, l =>
    match takeBits w l with
    | .error e => .error e
    | .ok (v, l) => match fieldsGo w n l with
      | .error e => .error e
      | .ok (r, l) => .ok (v :: r, l)

/-- n exponent tokens: the fields emax − d. -/
def tokensGo (k emax : Nat) : Nat → List Bool → Except BlockError (List Nat × List Bool)
  | 0, l => .ok ([], l)
  | n + 1, l =>
    match onesGo (emax / 2 ^ k) l 0 with
    | .error e => .error e
    | .ok (q, l) => match takeBits k l with
      | .error e => .error e
      | .ok (low, l) =>
        let d := q * 2 ^ k + low
        if emax < d then .error .wrong
        else match tokensGo k emax n l with
          | .error e => .error e
          | .ok (r, l) => .ok ((emax - d) :: r, l)

/-- An element of a block: its byte's value times the block scale. -/
def scaledElem (fmt scale s e m : Nat) : Fp :=
  let byte := s * 128 + e * 2 ^ (if fmt = 0 then 3 else 2) + m
  match (if fmt = 0 then unpackE4M3 byte else unpack fE5M2 byte) with
  | .fin n m x => .fin n m (x + (scale : Int) - 127)
  | v => v

/-- Header word's LEN. -/
def blockLen (h : Nat) : Nat := natBits h 16 8

/-- Decode a block from its header word and the stream bits read so far (R205). -/
def decodeBlock (h bs : Nat) (stream : List Bool) : Except BlockError (List Fp) :=
  let b := 16 * 2 ^ bs
  if natBits h 0 6 ≠ 0 ∨ natBits h 6 2 ≠ bs then .error .wrong
  else if natBits h 24 8 = 0xFF then
    if natBits h 16 8 ≠ 1 ∨ natBits h 8 8 ≠ 0 then .error .wrong else .ok (List.replicate b (.nan false 0 true))
  else if 1 < natBits h 8 2 then .error .wrong
  else
    let fmt := natBits h 8 2
    match fieldsGo 1 b stream with
    | .error e => .error e
    | .ok (signs, l) => match fieldsGo (if fmt = 0 then 3 else 2) b l with
      | .error e => .error e
      | .ok (ms, l) => match tokensGo (natBits h 10 2) (natBits h 12 4) b l with
        | .error e => .error e
        | .ok (es, l) =>
          let p := stream.length - l.length
          if blockLen h ≠ 1 + (p + 31) / 32 ∨ l.any (fun x => x) then .error .wrong
          else .ok (((signs.zip es).zip ms).map fun x => scaledElem fmt (natBits h 24 8) x.1.1 x.1.2 x.2)

/-- Exponent field and mantissa that an element of a block takes, with the block's shift (R252). -/
def blockField (fmt shift x : Nat) : Nat × Nat :=
  if fmt = 0 then (natBits x 3 4, x % 8)
  else
    let e := natBits x 2 5
    let m := x % 4
    if shift + 1 ≤ e then (e - shift, m)
    else
      let mant := if e = 0 then m else m + 4
      let r := (roundShift 0 false mant (shift + 1 - max e 1) false).1
      (r / 4, r % 4)

/-- Token bits of a block for a Rice parameter. -/
def tokenBits (emax k : Nat) (es : List Nat) : Nat := es.foldl (fun n e => n + (emax - e) / 2 ^ k + 1 + k) 0

/-- The words of the block that encodes elements of E4M3 (format 0) or E5M2 (format 1) (R252). -/
def encodeBlock (fmt bs : Nat) (xs : List Nat) : List Nat :=
  let special (x : Nat) : Bool := match (if fmt = 0 then unpackE4M3 x else unpack fE5M2 x) with | .fin _ _ _ => false | _ => true
  if xs.any special then [0xFF010000 + bs * 64]
  else
    let w := if fmt = 0 then 3 else 2
    let shift := if fmt = 0 then 0 else (xs.foldl (fun n x => max n (natBits x 2 5)) 0) - 15
    let fs := xs.map (blockField fmt shift)
    let es := fs.map Prod.fst
    let emax := es.foldl max 0
    let k := [1, 2, 3].foldl (fun best k => if tokenBits emax k es < tokenBits emax best es then k else best) 0
    let stream : List Bool := xs.map (fun x => natBits x 7 1 == 1) ++ fs.flatMap (fun f => valBits w f.2) ++
      es.flatMap fun e => List.replicate ((emax - e) / 2 ^ k) true ++ [false] ++ valBits k (emax - e)
    let words := (chunks 32 stream).map bitsVal
    let head := (127 + shift) * 2 ^ 24 + (1 + words.length) * 2 ^ 16 + emax * 2 ^ 12 + k * 2 ^ 10 + fmt * 2 ^ 8 + bs * 64
    head :: words

/-! ### Sparse metadata (R211, R212) -/

/-- Kept indices of a group from its metadata field, or none when it is not valid: groups of 8 when `wide`. -/
def groupIndices (wide : Bool) (x : Nat) : Option (List Nat) :=
  let l := if wide then [natBits x 0 3, natBits x 3 3, natBits x 6 3, natBits x 9 3] else [natBits x 0 2, natBits x 2 2]
  let rising := (l.zip (l.drop 1)).all fun p => decide (p.1 < p.2)
  if rising && (!wide || natBits x 12 4 == 0) then some l else none

/-- Rank of a value for COMPRESS (R212). -/
def keepRank (wide : Bool) (x : Nat) : Nat := if wide then min (x % 2 ^ 15) 0x7F81 else x % 2 ^ 7
/-- Indices that COMPRESS keeps of a group, ascending (R212). -/
def keptIndices (wide : Bool) (xs : List Nat) : List Nat :=
  let n := xs.length
  let key (i : Nat) : Nat := keepRank wide (xs.getD i 0)
  (List.range n).filter fun i =>
    decide ((List.range n).countP (fun j => decide (key i < key j) || (key j == key i && decide (j < i))) < n / 2)
/-- The metadata field of kept indices. -/
def groupField (wide : Bool) (l : List Nat) : Nat := l.foldr (fun i n => i + n * (if wide then 8 else 4)) 0

end Sys2Proof.Machine
end

