-- ==== Sys2Proof/Machine/Tile.lean ====
section
/-! DEFINITION. The tile engine: fields and checks of its commands, their ranges, what each computes from the memory,
registers and accumulator tiles it finds, its start and its completion (R213 to R221, R238 to R255, R259, R260). -/
namespace Sys2Proof.Machine

/-! ### Fields (R215 to R220) -/

def CmdEntry.tM (e : CmdEntry) : Nat := 32 * (e.bits 223 221 + 1)
def CmdEntry.tN (e : CmdEntry) : Nat := 32 * (e.bits 220 218 + 1)
def CmdEntry.tK (e : CmdEntry) : Nat := 32 * e.bits 217 208
def CmdEntry.tAcc (e : CmdEntry) : Nat := e.bits 201 199
def CmdEntry.tType (e : CmdEntry) : Nat := e.bits 207 205
def CmdEntry.tBs (e : CmdEntry) : Nat := e.bits 204 203
def CmdEntry.srcA (e : CmdEntry) : Bool := e.bits 203 203 == 1
def CmdEntry.srcB (e : CmdEntry) : Bool := e.bits 202 202 == 1
def CmdEntry.accum (e : CmdEntry) : Bool := e.bits 198 198 == 1
def CmdEntry.tA (e : CmdEntry) : Bool := e.bits 197 197 == 1
def CmdEntry.tB (e : CmdEntry) : Bool := e.bits 196 196 == 1
def CmdEntry.negate (e : CmdEntry) : Bool := e.bits 195 195 == 1
def CmdEntry.tReg (e : CmdEntry) : Nat := e.bits 194 188
/-- Tiles that a command covers. -/
def CmdEntry.tTiles (e : CmdEntry) : Nat := e.tM / 32 * (e.tN / 32)

def isMma (op : Nat) : Bool := decide (0x10 ≤ op) && decide (op ≤ 0x19)
def isAcc (op : Nat) : Bool := decide (1 ≤ op) && decide (op ≤ 3)
def isNest (op : Nat) : Bool := op == 0x20 || op == 0x21
def isLayout (op : Nat) : Bool := decide (0x30 ≤ op) && decide (op ≤ 0x34)

/-- Formats of A and B (R242): the types of R219, 6 EC8, 7 sparse E4M3, 8 sparse BF16. -/
def mmaFormats : Nat → Nat × Nat
  | 0x10 => (2, 2) | 0x11 => (2, 3) | 0x12 => (3, 2) | 0x13 => (6, 6) | 0x14 => (6, 2)
  | 0x15 => (1, 1) | 0x16 => (0, 0) | 0x17 => (4, 4) | 0x18 => (7, 2) | _ => (8, 1)
/-- Bytes of a stored value of a format; 1 for EC8, whose rows are words. -/
def formatBytes (f : Nat) : Nat := match f with | 6 => 1 | 7 => 1 | 8 => 2 | f => typeBytes f
def isSparse (op : Nat) : Bool := op == 0x18 || op == 0x19

/-- Body bits that an opcode uses, high and low. -/
def tileFields (op : Nat) : List (Nat × Nat) :=
  if isMma op then
    [(223, 221), (220, 218), (217, 208), (207, 206), (205, 204), (203, 203), (202, 202), (201, 199), (198, 198), (197, 197),
     (196, 196), (195, 195), (194, 188)]
  else match op with
    | 0x01 => [(223, 221), (220, 218), (201, 199)]
    | 0x02 => [(223, 221), (220, 218), (207, 205), (201, 199)]
    | 0x03 => [(223, 221), (220, 218), (207, 205), (201, 199)]
    | 0x20 => [(223, 44)]
    | 0x21 => [(223, 44)]
    | 0x30 => [(223, 221), (217, 208), (207, 205)]
    | 0x34 => [(223, 221), (217, 208), (207, 205)]
    | 0x33 => [(223, 221), (217, 208), (207, 205)]
    | 0x31 => [(223, 221), (217, 208), (207, 205), (204, 203)]
    | 0x32 => [(223, 221), (217, 208), (207, 205), (204, 203)]
    | _ => []
/-- Operand words that an opcode uses, and those that are geometry words. -/
def tileOps (op : Nat) : List Nat :=
  if isMma op then [0, 1, 2, 3, 6, 7] ++ (if isSparse op then [4, 5] else [])
  else match op with
    | 0x02 => [0, 1] | 0x03 => [0, 1] | 0x20 => [0, 1, 2, 3] | 0x21 => [0, 1, 2, 3]
    | 0x30 => [0, 1, 2, 3] | 0x31 => [0, 1, 2, 3] | 0x32 => [0, 1, 2, 3] | 0x33 => [0, 1, 2, 3, 4, 5]
    | 0x34 => [0, 1, 2, 3, 6] | _ => []
def tileGeos (op : Nat) : List Nat := if isMma op || isLayout op then [1, 3] else if op = 2 ∨ op = 3 then [1] else []

/-- Tile pitch and row pitch of a geometry word (R217). -/
def geoTile (g : Nat) : Nat := natBits g 24 24
def geoRow (g : Nat) : Nat := natBits g 0 24
/-- Address of position p of row r (R218, R244, R249). -/
def place (base g r p s : Nat) : Nat := base + r / 32 * geoTile g + r % 32 * geoRow g + p * s

/-! ### Ranges (R188, R227) -/

/-- A range that a command touches: its base and geometry word as written, and its bytes; `tile` counts accumulator
tiles instead. -/
structure Range where
  base : Nat
  geo : Nat
  lo : Nat
  len : Nat
  tile : Bool
  deriving DecidableEq, Repr

/-- Rows of a geometry, each `n` bytes long. -/
def rowsRange (base g rows n : Nat) : Range :=
  { base := base, geo := g, lo := base, len := if n = 0 then 0 else (rows - 1) / 32 * geoTile g + (rows - 1) % 32 * geoRow g + n, tile := false }

/-- The nest's stride of operand j at level l in bytes, its extents and types (R219). -/
def CmdEntry.nestStride (e : CmdEntry) (j l : Nat) : Int :=
  let n := 5 * j + l
  (BitVec.ofNat 10 (e.bits (193 - 10 * n) (184 - 10 * n))).toInt * 2 ^ e.bits (205 - 4 * j) (202 - 4 * j)
def CmdEntry.nestType (e : CmdEntry) (j : Nat) : Nat := e.bits (217 - 3 * j) (215 - 3 * j)
def CmdEntry.nestLevels (e : CmdEntry) : Nat := e.bits 208 206
def CmdEntry.nestFn (e : CmdEntry) : Nat := e.bits 223 218
def CmdEntry.nestExtent (e : CmdEntry) (l : Nat) : Nat := natBits (e.op 3) (12 * l) 12
/-- Operand 2 is used. -/
def CmdEntry.nestY (e : CmdEntry) : Bool := if e.opcode = 0x20 then ewUsesY e.nestFn else e.nestFn % 16 == 4
/-- Extents of the levels in use. -/
def CmdEntry.nestExtents (e : CmdEntry) : List Nat := (List.range e.nestLevels).map e.nestExtent

/-- The interval that an operand of a nest touches. -/
def CmdEntry.nestRange (e : CmdEntry) (j : Nat) : Range :=
  let spread := (List.range e.nestLevels).map fun l => e.nestStride j l * ((e.nestExtent l - 1 : Nat) : Int)
  let lo : Int := (e.op j : Int) + spread.foldl (fun n x => n + min 0 x) 0
  let hi : Int := (e.op j : Int) + spread.foldl (fun n x => n + max 0 x) 0
  { base := e.op j, geo := 0, lo := lo.toNat, len := (hi - lo).toNat + typeBytes (e.nestType j), tile := false }

/-- Bytes of an element of TYPE for the layout and accumulator commands (R219, R220, R227). -/
def CmdEntry.elemBytes (e : CmdEntry) : Option Nat :=
  if isLayout e.opcode then (if e.tType ≤ 5 then some (typeBytes e.tType) else none)
  else if e.opcode = 2 ∨ e.opcode = 3 then
    (match e.tType with | 0 => some 4 | 1 => some 2 | 2 => some 4 | _ => none)
  else none

/-- An operand of a product in scratch (R218): EC8 rows count ROW bytes each (R188). -/
def operandRange (base g fmt side k : Nat) (trans : Bool) : Range :=
  if fmt = 6 then rowsRange base g side (geoRow g)
  else if fmt = 7 ∨ fmt = 8 then rowsRange base g side (k / 2 * formatBytes fmt)
  else if trans then rowsRange base g k (side * formatBytes fmt)
  else rowsRange base g side (k * formatBytes fmt)

/-- Metadata bytes of a row: a word for each 32 columns in groups of 4, two in groups of 8 (R211). -/
def metaBytes (wide : Bool) (k : Nat) : Nat := k / 32 * (if wide then 8 else 4)
/-- Rows of metadata. -/
def metaRange (base pitch rows n : Nat) : Range :=
  { base := base, geo := pitch, lo := base, len := if n = 0 then 0 else (rows - 1) * pitch + n, tile := false }

/-- The ranges that the codes 0x30 to 0x34 of R227 name. -/
def CmdEntry.rangeOf (e : CmdEntry) (code : Nat) : Option Range :=
  let op := e.opcode
  let f := mmaFormats op
  let s := e.elemBytes.getD 1
  if isMma op then
    match code with
    | 0x30 => if e.srcA then none else some (operandRange (e.op 0) (e.op 1) f.1 e.tM e.tK e.tA)
    | 0x31 => if e.srcB then none else some (operandRange (e.op 2) (e.op 3) f.2 e.tN e.tK e.tB)
    | 0x33 => some { base := e.tAcc, geo := e.tTiles, lo := e.tAcc, len := e.tTiles, tile := true }
    | 0x34 => if isSparse op then some (metaRange (e.op 4) (e.op 5) e.tM (metaBytes (op == 0x19) e.tK)) else none
    | _ => none
  else if isAcc op then
    match code with
    | 0x30 => if op = 2 then some (rowsRange (e.op 0) (e.op 1) e.tM (e.tN * s)) else none
    | 0x32 => if op = 3 then some (rowsRange (e.op 0) (e.op 1) e.tM (e.tN * s)) else none
    | 0x33 => some { base := e.tAcc, geo := e.tTiles, lo := e.tAcc, len := e.tTiles, tile := true }
    | _ => none
  else if isNest op then
    match code with
    | 0x30 => some (e.nestRange 1)
    | 0x31 => if e.nestY then some (e.nestRange 2) else none
    | 0x32 => some (e.nestRange 0)
    | _ => none
  else if isLayout op then
    match code with
    | 0x30 => some (rowsRange (e.op 0) (e.op 1) e.tM (if op = 0x32 then geoRow (e.op 1) else e.tK * s))
    | 0x32 =>
      some (match op with
        | 0x30 => rowsRange (e.op 2) (e.op 3) e.tK (e.tM * s)
        | 0x31 => rowsRange (e.op 2) (e.op 3) e.tM (geoRow (e.op 3))
        | 0x33 => rowsRange (e.op 2) (e.op 3) e.tM (e.tK / 2 * s)
        | _ => rowsRange (e.op 2) (e.op 3) e.tM (e.tK * s))
    | 0x34 => if op = 0x33 then some (metaRange (e.op 4) (e.op 5) e.tM (metaBytes (e.tType == 1) e.tK)) else none
    | _ => none
  else none

/-- The range is written by the command. -/
def CmdEntry.rangeWritten (e : CmdEntry) (code : Nat) : Bool :=
  code == 0x32 || (code == 0x34 && e.opcode == 0x33) || (code == 0x33 && e.opcode != 0x03)
/-- Every range that a command touches, with whether it is written. -/
def CmdEntry.touched (e : CmdEntry) : List (Range × Bool) :=
  [0x30, 0x31, 0x32, 0x33, 0x34].filterMap fun c => (e.rangeOf c).map fun r => (r, e.rangeWritten c)
/-- The ranges it locks (R188, R238). -/
def CmdEntry.tileSpans (e : CmdEntry) : List Span :=
  (e.touched.filter fun x => !x.1.tile).flatMap fun x => span x.1.lo x.1.len x.2

/-- Two ranges of commands of a core share a byte, computed as for locks, or share a tile (R188, R223, R249). -/
def Range.meets (a b : Range) (c : Nat) : Bool :=
  if a.tile || b.tile then a.tile && b.tile && decide (a.lo < b.lo + b.len) && decide (b.lo < a.lo + a.len)
  else decide (0 < a.len) && decide (0 < b.len) &&
    (let x := ({ lo := a.lo, hi := a.lo + a.len - 1, write := true } : Span).lock c 0 0
     let y := ({ lo := b.lo, hi := b.lo + b.len - 1, write := true } : Span).lock c 0 1
     decide (x.first ≤ y.last) && decide (y.first ≤ x.last))

/-! ### Checks (R221, R243 to R255) -/

/-- The window of the pushing thread at start (R218, R243): where it stands now, else where it stood at the push. -/
def State.windowOf (s : State) (e : CmdEntry) : Nat × Nat :=
  match s.thread? e.core e.slot with
  | some t => if t.uid = e.uid then (t.base, t.size) else (e.base, e.size)
  | none => (e.base, e.size)

/-- An address lies in a scratch window. -/
def inScratch (a : Nat) : Bool := (scratchTarget 0 a).isSome

/-- A product's field is out of range (R221, R243). -/
def CmdEntry.mmaBad (e : CmdEntry) (window : Nat) : Bool :=
  let f := mmaFormats e.opcode
  let side (fmt : Nat) (src trans : Bool) (bs base g n : Nat) : Bool :=
    (bs != 0 && fmt != 6) || (trans && decide (6 ≤ fmt)) ||
    (if src then
      base != 0 || g != 0 || trans || decide (6 ≤ fmt) || n != 32 || e.tK * formatBytes fmt % 64 != 0 ||
      decide (window < e.tReg + 32 * e.tK * formatBytes fmt / 64)
    else !inScratch base)
  e.tK == 0 || decide (8 < e.tTiles + e.tAcc) || (e.srcA && e.srcB) ||
  side f.1 e.srcA e.tA (e.bits 207 206) (e.op 0) (e.op 1) e.tM || side f.2 e.srcB e.tB (e.bits 205 204) (e.op 2) (e.op 3) e.tN ||
  (isSparse e.opcode && !inScratch (e.op 4)) ||
  decide (2 ^ 32 ≤ e.op 6) || decide (2 ^ 32 ≤ e.op 7) || (e.opcode == 0x17 && (e.op 6 != 0 || e.op 7 != 0))

/-- A nest's field is out of range (R219, R245 to R248). -/
def CmdEntry.nestBad (e : CmdEntry) : Bool :=
  let fn := e.nestFn
  let lv := e.nestLevels
  let y := e.nestY
  let int (j : Nat) : Bool := decide (4 ≤ e.nestType j)
  let stridesFrom (j l : Nat) : Bool := (List.range 5).any fun i => decide (l ≤ i) && e.nestStride j i != 0
  decide (lv < 1) || decide (5 < lv) || decide (5 < e.nestType 0) || decide (5 < e.nestType 1) || decide (5 < e.nestType 2) ||
  (if e.opcode = 0x20 then decide (12 < fn) || (ewFloatOnly fn && int 0) else decide (4 < fn % 16) || decide (20 < fn) || e.nestStride 0 0 != 0) ||
  int 0 != int 1 || (y && int 0 != int 2) ||
  (!y && (e.op 2 != 0 || e.nestType 2 != 0 || e.bits 197 194 != 0 || stridesFrom 2 0)) ||
  [0, 1, 2].any (fun j => stridesFrom j lv) ||
  (List.range 5).any (fun l => if l < lv then e.nestExtent l == 0 else e.nestExtent l != 0) || decide (2 ^ 60 ≤ e.op 3)

/-- The least row pitch of an ENC8 destination (R252). -/
def CmdEntry.encPitch (e : CmdEntry) : Nat :=
  let b := 16 * 2 ^ e.tBs
  let w := if e.tType = 2 then 3 else 2
  (e.tK + b - 1) / b * 4 * (1 + (b * (17 + w) + 31) / 32)

/-- A layout command's field is out of range (R249 to R254). -/
def CmdEntry.layoutBad (e : CmdEntry) : Bool :=
  let op := e.opcode
  let types : List Nat := match op with
    | 0x30 => [0, 1, 2, 3, 4, 5] | 0x34 => [0, 1, 2, 3] | 0x33 => [1, 2] | _ => [2, 3]
  let meets (c d : Nat) : Bool := match e.rangeOf c, e.rangeOf d with | some a, some b => a.meets b e.core | _, _ => false
  e.tK == 0 || !types.contains e.tType || (op == 0x34 && decide (2 ^ 32 ≤ e.op 6)) ||
  (op == 0x31 && decide (geoRow (e.op 3) < e.encPitch)) || meets 0x30 0x32 || meets 0x30 0x34

/-- Check 3 of R221. -/
def CmdEntry.tileFieldBad (e : CmdEntry) (window : Nat) : Bool :=
  let op := e.opcode
  let used := (tileFields op).foldl (fun n f => n + e.bits f.1 f.2 * 2 ^ f.2) 0
  used != e.bits 223 0 || (List.range 8).any (fun i => !(tileOps op).contains i && e.op i != 0) ||
  (tileGeos op).any (fun i => natBits (e.op i) 48 12 != 0) ||
  (if isMma op then e.mmaBad window
   else if isAcc op then decide (8 < e.tTiles + e.tAcc) || (op != 1 && decide (2 < e.tType))
   else if isNest op then e.nestBad
   else if isLayout op then e.layoutBad
   else false)

/-- Check 4: bases and pitches that are multiples of 4. MISALIGNED reports the first that is not: of the first operand its base, TILE and ROW,
then those of the second, then op4 and op5; the order is a DESIGN CHOICE, R221 gives none (log 96). -/
def CmdEntry.tileAligned (e : CmdEntry) : List Nat :=
  let op := e.opcode
  let at_ (i : Nat) : List Nat := [e.op i, geoTile (e.op (i + 1)), geoRow (e.op (i + 1))]
  if isMma op then at_ 0 ++ at_ 2 ++ (if isSparse op then [e.op 4, e.op 5] else [])
  else if op = 2 ∨ op = 3 then at_ 0
  else if isLayout op then at_ 0 ++ at_ 2 ++ (if op = 0x33 then [e.op 4, e.op 5] else [])
  else []

/-- The checks in their order: the outcome of a command that fails one, or was cancelled (R182, R221, R260). -/
def State.tileRefusal (s : State) (e : CmdEntry) : Option Outcome :=
  if e.cancelled then some (.plain 0x0F 4 0)
  else if !e.crcOk then some (.plain 0x0F 1 0)
  else if !([0x01, 0x02, 0x03, 0x20, 0x21, 0x3F].contains e.opcode || isMma e.opcode || isLayout e.opcode) then some (.plain 0x0F 2 0)
  else if e.tileFieldBad (s.windowOf e).2 then some (.plain 0x0F 3 0)
  else (e.tileAligned.find? fun v => v % 4 != 0).map fun v => .plain 0x04 0 v

/-! ### Reading (R199, R218, R239, R259) -/

/-- Map a function that can fail over a list, in order. -/
def mapEx {α β ε : Type} (f : α → Except ε β) : List α → Except ε (List β)
  | [] => .ok []
  | a :: l =>
    match f a with
    | .error e => .error e
    | .ok b => match mapEx f l with
      | .error e => .error e
      | .ok r => .ok (b :: r)

/-- One element as a number; lost data names its line (R259). -/
def State.tileRead (s : State) (e : CmdEntry) (va n : Nat) : Except ElemFault Nat :=
  match s.elemRead e va n with
  | .ok b => .ok (bytesNat b)
  | .error f => .error (if f.status = 0x0E then { f with addr := va - va % 64 } else f)

/-- Words from an address on, as far as they can be read. -/
def State.tileWords (s : State) (e : CmdEntry) : Nat → Nat → List Nat × Option ElemFault
  | 0, _ => ([], none)
  | n + 1, va =>
    match s.tileRead e va 4 with
    | .error f => ([], some f)
    | .ok w =>
      let r := s.tileWords e n (va + 4)
      (w :: r.1, r.2)

/-- One EC8 block: its elements and its words (R205). -/
def State.readBlock (s : State) (e : CmdEntry) (at_ bs : Nat) : Except ElemFault (List Fp × Nat) :=
  match s.tileRead e at_ 4 with
  | .error f => .error f
  | .ok h =>
    let w := s.tileWords e (blockLen h - 1) (at_ + 4)
    match decodeBlock h bs (w.1.flatMap (valBits 32)) with
    | .ok l => .ok (l, blockLen h)
    | .error .wrong => .error { status := 0x13, detail := 0, addr := at_ }
    | .error .short => .error (w.2.getD { status := 0x13, detail := 0, addr := at_ })

/-- n blocks back to back (R206). -/
def State.readBlocks (s : State) (e : CmdEntry) (bs : Nat) : Nat → Nat → Except ElemFault (List Fp)
  | 0, _ => .ok []
  | n + 1, at_ =>
    match s.readBlock e at_ bs with
    | .error f => .error f
    | .ok (l, len) => match s.readBlocks e bs n (at_ + 4 * len) with
      | .error f => .error f
      | .ok r => .ok (l ++ r)

/-- The metadata of a sparse row: the kept indices of each group (R211). -/
def State.readMeta (s : State) (e : CmdEntry) (wide : Bool) (at_ words : Nat) : Except ElemFault (List (List Nat)) :=
  match mapEx (fun i =>
    match s.tileRead e (at_ + 4 * i) 4 with
    | .error f => .error f
    | .ok w =>
      let fields := if wide then [natBits w 0 16, natBits w 16 16] else (List.range 8).map fun j => natBits w (4 * j) 4
      match fields.mapM (groupIndices wide) with
      | some l => .ok l
      | none => .error ({ status := 0x13, detail := 0, addr := at_ + 4 * i } : ElemFault)) (List.range words) with
  | .error f => .error f
  | .ok l => .ok l.flatten

/-- A sparse row's elements by position, pruned ones none (R211). -/
def expandRow (size : Nat) : List (List Nat) → List Fp → List (Option Fp)
  | [], _ => []
  | g :: gs, vals =>
    let here := g.zip vals
    ((List.range size).map fun i => (here.find? fun p => p.1 == i).map Prod.snd) ++ expandRow size gs (vals.drop g.length)

/-- One value of a register operand: row r, byte offset b within the row (R218). -/
def State.readOperandReg (s : State) (e : CmdEntry) (rowBytes r b n : Nat) : Except ElemFault Nat :=
  let reg := e.tReg + (r * rowBytes + b) / 64
  let x := s.regAt e.core ((s.windowOf e).1 + reg)
  if x.lost then .error { status := 0x0E, detail := 0, addr := 2 ^ 63 + reg }
  else .ok (natBits x.val.toNat (8 * (b % 64)) (8 * n))

/-- Patterns of a plain operand of a product, by row and k (R218). -/
def State.plainOperand (s : State) (e : CmdEntry) (fmt base g side : Nat) (trans reg : Bool) : Except ElemFault (List (List Nat)) :=
  let n := formatBytes fmt
  mapEx (fun i => mapEx (fun k =>
    if reg then s.readOperandReg e (e.tK * n) i (k * n) n
    else if trans then s.tileRead e (place base g k i n) n
    else s.tileRead e (place base g i k n) n) (List.range e.tK)) (List.range side)

/-- A floating-point operand of a product: rows of K elements, pruned ones none. All of a sparse row's metadata words are read and checked
before its values, so that of two faults the metadata's is reported: a DESIGN CHOICE (R211; log 96). -/
def State.floatOperand (s : State) (e : CmdEntry) (fmt base g side : Nat) (trans reg : Bool) (bs : Nat) :
    Except ElemFault (List (List (Option Fp))) :=
  if fmt = 6 then
    let b := 16 * 2 ^ bs
    mapEx (fun r => match s.readBlocks e bs ((e.tK + b - 1) / b) (place base g r 0 1) with
      | .error f => .error f
      | .ok l => .ok ((l.take e.tK).map some)) (List.range side)
  else if fmt = 7 ∨ fmt = 8 then
    let wide := fmt == 8
    let ty := if wide then 1 else 2
    mapEx (fun r =>
      match s.readMeta e wide (e.op 4 + r * e.op 5) (metaBytes wide e.tK / 4) with
      | .error f => .error f
      | .ok idx => match mapEx (fun q => s.tileRead e (place base g r q (typeBytes ty)) (typeBytes ty)) (List.range (e.tK / 2)) with
        | .error f => .error f
        | .ok l => .ok (expandRow (if wide then 8 else 4) idx (l.map (decodeType ty)))) (List.range side)
  else
    match s.plainOperand e fmt base g side trans reg with
    | .error f => .error f
    | .ok l => .ok (l.map fun row => row.map fun x => some (decodeType fmt x))

/-! ### What a command computes -/

/-- The outcome of a command's work: writes in destination order up to its fault, tile words, saturation, and the longest
row of ENC8. -/
structure TileRun where
  writes : List ElemWrite
  tiles : Tab (BitVec 32)
  fault : Option ElemFault
  sat : Bool
  longest : Nat
  deriving DecidableEq, Repr

def TileRun.failed (f : ElemFault) : TileRun := { writes := [], tiles := [], fault := some f, sat := false, longest := 0 }

/-- Word of an accumulator tile that element (i, j) has (R215). -/
def CmdEntry.tileKey (e : CmdEntry) (i j : Nat) : Nat :=
  (e.tAcc + i / 32 * (e.tN / 32) + j / 32) * 1024 + i % 32 * 32 + j % 32
/-- Tile words of all elements. -/
def CmdEntry.tileWordsOf (e : CmdEntry) (f : Nat → Nat → BitVec 32) : Tab (BitVec 32) :=
  (List.range e.tM).foldl (fun t i => (List.range e.tN).foldl (fun t j => tabSet t (e.tileKey i j) (f i j)) t) []
def State.tileWord (s : State) (c key : Nat) : BitVec 32 := tabGet (s.core c).tiles key 0

/-- Pieces of 32 of two rows, paired. -/
def chunkPairs {α β : Type} (a : List α) (b : List β) : List (List (α × β)) := chunks 32 (a.zip b)

/-- A product (R208 to R210, R242). -/
def State.mmaRun (s : State) (e : CmdEntry) : TileRun :=
  let f := mmaFormats e.opcode
  if e.opcode = 0x17 then
    match s.plainOperand e 4 (e.op 0) (e.op 1) e.tM e.tA e.srcA, s.plainOperand e 4 (e.op 2) (e.op 3) e.tN e.tB e.srcB with
    | .error x, _ => .failed x
    | _, .error x => .failed x
    | .ok a, .ok b =>
      let elem (i j : Nat) : Int × Bool :=
        mmaInt e.negate (if e.accum then (s.tileWord e.core (e.tileKey i j)).toInt else 0)
          (chunkPairs ((a.getD i []).map (decodeInt 4)) ((b.getD j []).map (decodeInt 4)))
      { writes := [], tiles := e.tileWordsOf fun i j => BitVec.ofInt 32 (elem i j).1, fault := none, longest := 0
        sat := (List.range e.tM).any fun i => (List.range e.tN).any fun j => (elem i j).2 }
  else
    match s.floatOperand e f.1 (e.op 0) (e.op 1) e.tM e.tA e.srcA (e.bits 207 206),
        s.floatOperand e f.2 (e.op 2) (e.op 3) e.tN e.tB e.srcB (e.bits 205 204) with
    | .error x, _ => .failed x
    | _, .error x => .failed x
    | .ok a, .ok b =>
      let sab := unpack f32 (fpMul f32 (e.op 6) (e.op 7)).1
      let elem (i j : Nat) : Nat :=
        mmaFloat e.negate sab (if e.accum then (s.tileWord e.core (e.tileKey i j)).toNat else 0)
          (chunkPairs (a.getD i []) ((b.getD j []).map fun x => x.getD (.fin false 0 0)))
      { writes := [], tiles := e.tileWordsOf fun i j => BitVec.ofNat 32 (elem i j), fault := none, sat := false, longest := 0 }

/-- ACC.ZERO and ACC.LOAD (R244). -/
def accZeroRun (e : CmdEntry) : TileRun :=
  { writes := [], tiles := e.tileWordsOf fun _ _ => 0, fault := none, sat := false, longest := 0 }
def State.accLoadRun (s : State) (e : CmdEntry) : TileRun :=
  let n := e.elemBytes.getD 4
  match mapEx (fun i => mapEx (fun j => s.tileRead e (place (e.op 0) (e.op 1) i j n) n) (List.range e.tN)) (List.range e.tM) with
  | .error f => .failed f
  | .ok l =>
    { writes := [], fault := none, sat := false, longest := 0
      tiles := e.tileWordsOf fun i j => BitVec.ofNat 32 ((l.getD i []).getD j 0 * (if n = 2 then 2 ^ 16 else 1)) }

/-- Check writes in order. -/
def State.placeWrites (s : State) (e : CmdEntry) : List (Nat × List Byte) → List ElemWrite × Option ElemFault
  | [] => ([], none)
  | (va, b) :: l =>
    match s.elemWrite e va b with
    | .error f => ([], some f)
    | .ok w =>
      let r := s.placeWrites e l
      (w :: r.1, r.2)

/-- Steps that each give destination elements in order, up to the first fault; a value is carried along. -/
def State.collect {σ : Type} (s : State) (e : CmdEntry) (f : σ → Nat → Except ElemFault (List (Nat × List Byte) × σ)) :
    Nat → Nat → σ → List ElemWrite × Option ElemFault × σ
  | 0, _, x => ([], none, x)
  | n + 1, k, x =>
    match f x k with
    | .error g => ([], some g, x)
    | .ok (l, y) =>
      match s.placeWrites e l with
      | (w, some g) => (w, some g, x)
      | (w, none) =>
        let r := s.collect e f n (k + 1) y
        (w ++ r.1, r.2.1, r.2.2)

/-- The run of a command that writes memory. -/
def memRun {σ : Type} (r : List ElemWrite × Option ElemFault × σ) (longest : Nat) : TileRun :=
  { writes := r.1, tiles := [], fault := r.2.1, sat := false, longest := longest }

/-- ACC.STORE (R244). -/
def State.accStoreRun (s : State) (e : CmdEntry) : TileRun :=
  let n := e.elemBytes.getD 4
  memRun (s.collect e (fun (_ : Unit) k =>
    let i := k / e.tN
    let j := k % e.tN
    let w := (s.tileWord e.core (e.tileKey i j)).toNat
    .ok ([(place (e.op 0) (e.op 1) i j n, natBytes n (if n = 2 then (fpConvert f32 bf16 0 w).1 else w))], ())) (e.tM * e.tN) 0 ()) 0

/-! Loop nests (R245 to R248) -/

/-- Address of operand j in iteration t. -/
def CmdEntry.nestAddr (e : CmdEntry) (j t : Nat) : Nat :=
  let r := (List.range e.nestLevels).foldl (fun (acc : Nat × Int) l =>
    let n := max 1 (e.nestExtent l)
    (acc.1 / n, acc.2 + (acc.1 % n : Nat) * e.nestStride j l)) (t, 0)
  wrap64 ((e.op j : Int) + r.2)
/-- Read operand j in iteration t; a misaligned address fails there. -/
def State.nestRead (s : State) (e : CmdEntry) (j t : Nat) : Except ElemFault Nat :=
  let a := e.nestAddr j t
  let n := typeBytes (e.nestType j)
  if a % n ≠ 0 then .error { status := 0x04, detail := 0, addr := a } else s.tileRead e a n
/-- Write operand 0 in iteration t. -/
def State.nestWrite (s : State) (e : CmdEntry) (t x : Nat) : Except ElemFault ElemWrite :=
  let a := e.nestAddr 0 t
  let n := typeBytes (e.nestType 0)
  if a % n ≠ 0 then .error { status := 0x04, detail := 0, addr := a } else s.elemWrite e a (natBytes n x)
/-- A write seen by the command's own later reads. -/
def State.withElem (s : State) (w : ElemWrite) : State :=
  s.applyWrites (((List.range w.bytes.length).map fun i => w.addr + i).zip w.bytes)
/-- The command's domain is the integers. -/
def CmdEntry.nestInt (e : CmdEntry) : Bool := decide (4 ≤ e.nestType 0)

/-- One value of NEST.EW and whether it saturates. -/
def CmdEntry.ewValue (e : CmdEntry) (x y d : Nat) : Nat × Bool :=
  if e.nestInt then
    encodeInt (e.nestType 0) (ewInt e.nestFn (decodeInt (e.nestType 1) x) (decodeInt (e.nestType 2) y) (decodeInt (e.nestType 0) d))
  else
    (encodeType (e.nestType 0)
      (ewFloat e.nestFn (decodeType (e.nestType 1) x) (decodeType (e.nestType 2) y) (decodeType (e.nestType 0) d)), false)
/-- The value that iteration t of NEST.EW writes. -/
def State.ewIter (s : State) (e : CmdEntry) (t : Nat) : Except ElemFault (Nat × Bool) :=
  match s.nestRead e 1 t, (if e.nestY then s.nestRead e 2 t else .ok 0), (if e.nestFn = 4 then s.nestRead e 0 t else .ok 0) with
  | .error f, _, _ => .error f
  | _, .error f, _ => .error f
  | _, _, .error f => .error f
  | .ok x, .ok y, .ok d => .ok (e.ewValue x y d)

/-- Iterations of a nest, one at a time, each seeing the writes before it. -/
def State.nestGo (s : State) (e : CmdEntry) (val : State → Nat → Except ElemFault (Nat × Bool)) (at_ : Nat → Nat) : Nat → Nat → TileRun
  | 0, _ => { writes := [], tiles := [], fault := none, sat := false, longest := 0 }
  | n + 1, t =>
    match val s t with
    | .error f => .failed f
    | .ok (x, sat) =>
      match s.nestWrite e (at_ t) x with
      | .error f => .failed f
      | .ok w =>
        let r := (s.withElem w).nestGo e val at_ n (t + 1)
        { r with writes := w :: r.writes, sat := sat || r.sat }

/-- Terms of a reduction from iteration t on, as operand patterns. -/
def State.redTerms (s : State) (e : CmdEntry) : Nat → Nat → Except ElemFault (List (Nat × Nat))
  | 0, _ => .ok []
  | n + 1, t =>
    match s.nestRead e 1 t, (if e.nestY then s.nestRead e 2 t else .ok 0) with
    | .error f, _ => .error f
    | _, .error f => .error f
    | .ok x, .ok y => match s.redTerms e n (t + 1) with
      | .error f => .error f
      | .ok l => .ok ((x, y) :: l)
/-- The value of one destination element of NEST.RED. -/
def State.redIter (s : State) (e : CmdEntry) (d : Nat) : Except ElemFault (Nat × Bool) :=
  let n := e.nestExtent 0
  let fn := e.nestFn
  match (if 16 ≤ fn then s.nestRead e 0 (d * n) else .ok 0), s.redTerms e n (d * n) with
  | .error f, _ => .error f
  | _, .error f => .error f
  | .ok old, .ok terms =>
    if e.nestInt then
      let l := terms.map fun t => redTermInt fn (decodeInt (e.nestType 1) t.1) (decodeInt (e.nestType 2) t.2)
      let r : Int := if 16 ≤ fn then l.foldl (redStepInt fn) (decodeInt (e.nestType 0) old)
        else match l with | [] => 0 | t :: rest => rest.foldl (redStepInt fn) t
      .ok (encodeInt (e.nestType 0) r)
    else
      let l := terms.map fun t => ((decodeType (e.nestType 1) t.1).to32, (decodeType (e.nestType 2) t.2).to32)
      let r : Nat := if 16 ≤ fn then l.foldl (fun acc t => redStep fn acc t.1 t.2) (decodeType (e.nestType 0) old).to32
        else match l with | [] => 0 | t :: rest => rest.foldl (fun acc t => redStep fn acc t.1 t.2) (redFirst fn t.1 t.2)
      .ok (encodeType (e.nestType 0) (unpack f32 r).num, false)

/-- NEST.EW and NEST.RED. -/
def State.nestRun (s : State) (e : CmdEntry) : TileRun :=
  if e.opcode = 0x20 then s.nestGo e (fun v t => v.ewIter e t) id (e.nestExtents.foldl (· * ·) 1) 0
  else s.nestGo e (fun v d => v.redIter e d) (fun d => d * e.nestExtent 0) ((e.nestExtents.drop 1).foldl (· * ·) 1) 0

/-! Layout commands (R249 to R254) -/

/-- TRANSPOSE: element k in destination order (R250). -/
def State.transposeRun (s : State) (e : CmdEntry) : TileRun :=
  let n := e.elemBytes.getD 1
  memRun (s.collect e (fun (_ : Unit) k =>
    let c := k / e.tM
    let r := k % e.tM
    match s.tileRead e (place (e.op 0) (e.op 1) r c n) n with
    | .error f => .error f
    | .ok x => .ok ([(place (e.op 2) (e.op 3) c r n, natBytes n x)], ())) (e.tM * e.tK) 0 ()) 0

/-- SCALE (R251). -/
def State.scaleRun (s : State) (e : CmdEntry) : TileRun :=
  let n := e.elemBytes.getD 1
  let f := unpack f32 (e.op 6)
  memRun (s.collect e (fun (_ : Unit) k =>
    let r := k / e.tK
    let c := k % e.tK
    match s.tileRead e (place (e.op 0) (e.op 1) r c n) n with
    | .error g => .error g
    | .ok x => .ok ([(place (e.op 2) (e.op 3) r c n, natBytes n (encodeType e.tType (ewFloat 3 (decodeType e.tType x) f f)))], ()))
    (e.tM * e.tK) 0 ()) 0

/-- Blocks of a row. -/
def CmdEntry.rowBlocks (e : CmdEntry) : Nat := (e.tK + 16 * 2 ^ e.tBs - 1) / (16 * 2 ^ e.tBs)

/-- ENC8: a block at a time; the place of the next block and the longest row are carried (R252). -/
def State.enc8Run (s : State) (e : CmdEntry) : TileRun :=
  let b := 16 * 2 ^ e.tBs
  let r := s.collect e (fun (x : Nat × Nat) k =>
    let row := k / e.rowBlocks
    let i := k % e.rowBlocks
    let start := place (e.op 2) (e.op 3) row 0 1
    let at_ := if i = 0 then start else x.1
    match mapEx (fun c => if c < e.tK then s.tileRead e (place (e.op 0) (e.op 1) row c 1) 1 else .ok 0) ((List.range b).map (i * b + ·)) with
    | .error f => .error f
    | .ok l =>
      let words := encodeBlock (e.tType - 2) e.tBs l
      let next := at_ + 4 * words.length
      .ok (((List.range words.length).zip words).map fun w => (at_ + 4 * w.1, natBytes 4 w.2), (next, max x.2 (next - start))))
    (e.tM * e.rowBlocks) 0 (0, 0)
  memRun r r.2.2.2

/-- DEC8: a block at a time; the place of the next block is carried (R253). -/
def State.dec8Run (s : State) (e : CmdEntry) : TileRun :=
  let b := 16 * 2 ^ e.tBs
  memRun (s.collect e (fun (x : Nat) k =>
    let row := k / e.rowBlocks
    let i := k % e.rowBlocks
    let at_ := if i = 0 then place (e.op 0) (e.op 1) row 0 1 else x
    match s.readBlock e at_ e.tBs with
    | .error f => .error f
    | .ok (l, len) =>
      .ok ((((List.range b).zip l).filter fun p => decide (i * b + p.1 < e.tK)).map fun p =>
        (place (e.op 2) (e.op 3) row (i * b + p.1) 1, natBytes 1 (encodeType e.tType p.2.num)), at_ + 4 * len))
    (e.tM * e.rowBlocks) 0 0) 0

/-- Patterns of a group of a row of COMPRESS. -/
def State.groupAt (s : State) (e : CmdEntry) (row g : Nat) : Except ElemFault (List Nat) :=
  let size := if e.tType = 1 then 8 else 4
  let n := typeBytes e.tType
  mapEx (fun i => s.tileRead e (place (e.op 0) (e.op 1) row (g * size + i) n) n) (List.range size)
/-- COMPRESS: for each row its groups, then its metadata words (R254; assumption 40). -/
def State.compressRun (s : State) (e : CmdEntry) : TileRun :=
  let wide := e.tType == 1
  let size := if wide then 8 else 4
  let n := typeBytes e.tType
  let groups := e.tK / size
  let per := if wide then 2 else 8
  let steps := groups + groups / per
  memRun (s.collect e (fun (_ : Unit) k =>
    let row := k / steps
    let j := k % steps
    if j < groups then
      match s.groupAt e row j with
      | .error f => .error f
      | .ok l =>
        let kept := keptIndices wide l
        .ok (((List.range kept.length).zip kept).map fun p =>
          (place (e.op 2) (e.op 3) row (j * (size / 2) + p.1) n, natBytes n (l.getD p.2 0)), ())
    else
      let w := j - groups
      match mapEx (fun i => s.groupAt e row (w * per + i)) (List.range per) with
      | .error f => .error f
      | .ok l => .ok ([(e.op 4 + row * e.op 5 + 4 * w,
          natBytes 4 (l.foldr (fun g acc => groupField wide (keptIndices wide g) + acc * (if wide then 2 ^ 16 else 2 ^ 4)) 0))], ()))
    (e.tM * steps) 0 ()) 0

/-- TE.MARK computes nothing (R255). -/
def markRun : TileRun := { writes := [], tiles := [], fault := none, sat := false, longest := 0 }

/-- What a checked command computes from the state it finds. -/
def State.tileRun (s : State) (e : CmdEntry) : TileRun :=
  let op := e.opcode
  if isMma op then s.mmaRun e
  else match op with
    | 0x01 => accZeroRun e
    | 0x02 => s.accLoadRun e
    | 0x03 => s.accStoreRun e
    | 0x20 => s.nestRun e
    | 0x21 => s.nestRun e
    | 0x30 => s.transposeRun e
    | 0x31 => s.enc8Run e
    | 0x32 => s.dec8Run e
    | 0x33 => s.compressRun e
    | 0x34 => s.scaleRun e
    | _ => markRun

/-! ### Register operands (R218, R312) -/

/-- File entries of a command's register operand. -/
def State.operandRegs (s : State) (e : CmdEntry) : List Nat :=
  if isMma e.opcode && (e.srcA || e.srcB) then
    let fmt := if e.srcA then (mmaFormats e.opcode).1 else (mmaFormats e.opcode).2
    (List.range (32 * e.tK * formatBytes fmt / 64)).map fun i => (s.windowOf e).1 + e.tReg + i
  else []
/-- They are all full. -/
def State.operandFull (s : State) (e : CmdEntry) : Bool := (s.operandRegs e).all fun r => (s.regAt e.core r).full
/-- Reading them corrects single flipped bits; an uncorrectable one kills the core (R312). -/
def State.readRegs (s : State) (e : CmdEntry) : State :=
  let l := s.operandRegs e
  if l.any fun r => decide (2 ≤ (s.regAt e.core r).flips) then s.doomCore e.core (errorKill 0 true)
  else s.correctRegs e.core l

/-! ### Start and completion (R238 to R243, R255) -/

/-- Cycles from the start to the completion: R243 for a product, 2 for TE.MARK, else a free delay (log 4). -/
def CmdEntry.busy (e : CmdEntry) (delay : Nat) : Nat :=
  let t := e.tTiles * e.tK
  match e.opcode with
  | 0x15 => 16 + t
  | 0x16 => 16 + t * 4
  | 0x18 => 16 + t / 4
  | 0x19 => 16 + t / 2
  | 0x3F => 2
  | op => if isMma op then 16 + t / 2 else 1 + delay

/-- A tile command of a core has started and not completed (R238). -/
def State.tileBusy (s : State) (c : Nat) : Bool := s.active.any fun e => e.2.entry.queue == 0 && e.2.entry.core == c

/-- Every start condition of R238 but the checks and the gate term; the originals of a failed group are run also on a core that
is to move, which they keep there (R235, R260). -/
def State.tileMayStart (s : State) (e : CmdEntry) : Bool :=
  (!(s.core e.core).moving || (s.core e.core).replay.any fun x => x.1.order == e.order) && !(s.core e.core).fenced && !s.ending e.part &&
  !s.tileBusy e.core && s.spansFree e e.tileSpans && s.spansRoom e e.tileSpans && s.loadsClear e e.tileSpans && !s.engineHeld e.core e.part

/-- The active command that a run gives. -/
def Active.ofRun (a : Active) (due : Nat) (r : TileRun) : Active :=
  { a with due := due, writes := r.writes, stalled := false, sat := r.sat, extra := packBytes 320 [(4, 4, r.longest)]
           tiles := if r.fault.isNone then r.tiles else []
           status := match r.fault with | some f => f.status | none => 0
           detail := match r.fault with | some f => f.detail | none => 0
           fault := match r.fault with | some f => BitVec.ofNat 64 f.addr | none => 0
           pod := r.writes.any ElemWrite.remote }

/-- A lost scratch word among those read has its owner killed (R312). -/
def State.doomRun (s : State) (e : CmdEntry) (r : TileRun) : State :=
  match r.fault with
  | some f => s.doomAt e f.addr 64
  | none => s

/-- A started command reads and computes, once its register operands are full (R218, R239). -/
def State.tileCompute (s : State) (key : Nat) : State :=
  match tabGet? s.active key with
  | none => s
  | some a =>
    if !a.stalled || a.grouped || !s.operandFull a.entry then s
    else
      let s := s.readRegs a.entry
      if (s.core a.entry.core).fenced then s
      else
        let d := s.takeDelay
        let r := s.tileRun a.entry
        { (d.2.doomRun a.entry r) with active := tabSet d.2.active key (a.ofRun (s.cycle + a.entry.busy d.1) r) }

/-- The start of a checked command: its locks, then its work. A replayed command leaves the replay (R235). -/
def State.tileBegin (s : State) (e : CmdEntry) : State :=
  let mark := ((s.core e.core).replay.find? fun r => r.1.order == e.order).map fun r => r.2
  let s := (s.takeLocks e e.tileSpans).modCore e.core fun k => { k with replay := k.replay.filter fun r => r.1.order != e.order }
  let a := { Active.new e s.cycle s.cycle [] (.plain 0 0 0) with stalled := true, rewrite := mark }
  (s.activate a).tileCompute e.order

/-- A tile command in its turn: refused by its checks, started, or left to wait; a conflict with a lock is a flush point
for the core's window (R221, R232, R238). -/
def State.tileStep (s : State) (e : CmdEntry) : State :=
  match s.tileRefusal e with
  | some o => s.refuseCommand e o
  | none =>
    if s.tileMayStart e then s.tileBegin e
    else if s.spansFree e e.tileSpans || (s.core e.core).window.head?.map CmdEntry.order != some e.order then s
    else s.flushCore e.core

/-- ACC.ZERO (R244). -/
def execAccZero (s : State) : Res := s.startWith s.tileStep
/-- ACC.LOAD (R244). -/
def execAccLoad (s : State) : Res := s.startWith s.tileStep
/-- ACC.STORE (R244). -/
def execAccStore (s : State) : Res := s.startWith s.tileStep
/-- MMA.E4M3.E4M3 (R242). -/
def execMmaE4m3E4m3 (s : State) : Res := s.startWith s.tileStep
/-- MMA.E4M3.E5M2 (R242). -/
def execMmaE4m3E5m2 (s : State) : Res := s.startWith s.tileStep
/-- MMA.E5M2.E4M3 (R242). -/
def execMmaE5m2E4m3 (s : State) : Res := s.startWith s.tileStep
/-- MMA.EC8.EC8 (R242). -/
def execMmaEc8Ec8 (s : State) : Res := s.startWith s.tileStep
/-- MMA.EC8.E4M3 (R242). -/
def execMmaEc8E4m3 (s : State) : Res := s.startWith s.tileStep
/-- MMA.BF16.BF16 (R242). -/
def execMmaBf16Bf16 (s : State) : Res := s.startWith s.tileStep
/-- MMA.F32.F32 (R242). -/
def execMmaF32F32 (s : State) : Res := s.startWith s.tileStep
/-- MMA.I8.I8 (R242). -/
def execMmaI8I8 (s : State) : Res := s.startWith s.tileStep
/-- MMA.SP.E4M3.E4M3 (R211, R242). -/
def execMmaSpE4m3E4m3 (s : State) : Res := s.startWith s.tileStep
/-- MMA.SP.BF16.BF16 (R211, R242). -/
def execMmaSpBf16Bf16 (s : State) : Res := s.startWith s.tileStep
/-- NEST.EW (R247). -/
def execNestEw (s : State) : Res := s.startWith s.tileStep
/-- NEST.RED (R248). -/
def execNestRed (s : State) : Res := s.startWith s.tileStep
/-- TRANSPOSE (R250). -/
def execTranspose (s : State) : Res := s.startWith s.tileStep
/-- SCALE (R251). -/
def execScale (s : State) : Res := s.startWith s.tileStep
/-- ENC8 (R252). -/
def execEnc8 (s : State) : Res := s.startWith s.tileStep
/-- DEC8 (R253). -/
def execDec8 (s : State) : Res := s.startWith s.tileStep
/-- COMPRESS (R254). -/
def execCompress (s : State) : Res := s.startWith s.tileStep
/-- TE.MARK (R255). -/
def execTeMark (s : State) : Res := s.startWith s.tileStep

/-- Write tile words of a core. -/
def State.writeTiles (s : State) (c : Nat) (t : Tab (BitVec 32)) : State :=
  s.modCore c fun k => { k with tiles := t.foldl (fun m w => tabPut m w.1 w.2 0) k.tiles }

/-- COMMAND_COMPLETION_TILE (R239, R241). -/
def State.tileEnd (s : State) (a : Active) : State :=
  (s.writeTiles a.entry.core a.tiles).completeWith a [(0x1C, 4, fieldAt a.extra 4 4), (0x20, 8, s.cycle - a.start)]
def execCommandCompletionTile (s : State) : Res :=
  .next (match tabGet? s.active s.arg.n with
    | some a => if a.entry.queue = 0 ∧ s.mayComplete s.arg.n then s.tileEnd a else s
    | none => s)

end Sys2Proof.Machine
end

