-- ==== Sys2Proof/Machine/Rewrite.lean ====
section
/-! DEFINITION. The rewrite stage: the window, matching, the decision of its head, and groups from their formation to
their commit or replay (R222 to R236). -/
namespace Sys2Proof.Machine

/-! ### Fields of a command by the codes of R227 -/

/-- The value of a code, or none when the opcode does not define the field (R227); MMA.I8.I8 has no scales (R242). -/
def CmdEntry.fieldOf (e : CmdEntry) (code : Nat) : Option Nat :=
  let op := e.opcode
  let f := mmaFormats op
  let size (x : Nat) : Nat := if 6 ≤ x then 0 else formatBytes x
  let when_ (b : Bool) (v : Nat) : Option Nat := if b then some v else none
  let scaled := isMma op && op != 0x17
  match code with
  | 0x01 => some op
  | 0x02 => some (e.bits 231 231)
  | 0x03 => some (e.bits 230 230)
  | 0x04 => some (e.bits 229 229)
  | 0x08 => when_ (isMma op || isAcc op || isLayout op) e.tM
  | 0x09 => when_ (isMma op || isAcc op) e.tN
  | 0x0A => when_ (isMma op || isLayout op) e.tK
  | 0x0B => when_ (isMma op) (e.bits 207 206)
  | 0x0C => when_ (isMma op) (e.bits 205 204)
  | 0x0D => when_ (isMma op) (e.bits 203 203)
  | 0x0E => when_ (isMma op) (e.bits 202 202)
  | 0x0F => when_ (isMma op || isAcc op) e.tAcc
  | 0x10 => when_ (isMma op) (e.bits 198 198)
  | 0x11 => when_ (isMma op) (e.bits 197 197)
  | 0x12 => when_ (isMma op) (e.bits 196 196)
  | 0x13 => when_ (isMma op) (e.bits 195 195)
  | 0x14 => when_ (isMma op) e.tReg
  | 0x15 => when_ (isLayout op || op == 2 || op == 3) e.tType
  | 0x16 => e.elemBytes
  | 0x17 => when_ (isMma op) (size f.1)
  | 0x18 => when_ (isMma op) (size f.2)
  | 0x28 => when_ (scaled || op == 0x34) (e.op 6 % 2 ^ 32)
  | 0x29 => when_ scaled (e.op 7 % 2 ^ 32)
  | c => when_ (decide (0x20 ≤ c) && decide (c ≤ 0x27)) (e.op (c - 0x20))

/-- Bits of the command word under a code that a mapping may set: high, low, and elements per unit. -/
def fieldPlace : Nat → Option (Nat × Nat × Nat)
  | 0x01 => some (247, 240, 0) | 0x02 => some (231, 231, 0) | 0x03 => some (230, 230, 0) | 0x04 => some (229, 229, 0)
  | 0x08 => some (223, 221, 1) | 0x09 => some (220, 218, 1) | 0x0A => some (217, 208, 2) | 0x0B => some (207, 206, 0)
  | 0x0C => some (205, 204, 0) | 0x0D => some (203, 203, 0) | 0x0E => some (202, 202, 0) | 0x0F => some (201, 199, 0)
  | 0x10 => some (198, 198, 0) | 0x11 => some (197, 197, 0) | 0x12 => some (196, 196, 0) | 0x13 => some (195, 195, 0)
  | 0x14 => some (194, 188, 0) | 0x15 => some (207, 205, 0) | _ => none

/-- A number with bits hi to lo replaced. -/
def putBits (x hi lo v : Nat) : Nat := x - natBits x lo (hi + 1 - lo) * 2 ^ lo + v * 2 ^ lo

/-- Set a field of a command; none when the value does not fit or the opcode has no such field (R227, R228). -/
def CmdEntry.setField (e : CmdEntry) (code v : Nat) : Option CmdEntry :=
  if (e.fieldOf code).isNone then none
  else if 0x20 ≤ code then
    let at_ := if code < 0x28 then code - 0x20 else code - 0x22
    let w := if code < 0x28 then 64 else 32
    if 2 ^ w ≤ v then none else some { e with opr := BitVec.ofNat 512 (putBits e.opr.toNat (64 * at_ + w - 1) (64 * at_) v) }
  else match fieldPlace code with
    | none => none
    | some (hi, lo, unit) =>
      let raw : Option Nat := if unit = 0 then some v else if v % 32 ≠ 0 ∨ (unit = 1 ∧ v = 0) then none else some (v / 32 - (if unit = 1 then 1 else 0))
      match raw with
      | some r => if 2 ^ (hi + 1 - lo) ≤ r then none else some { e with cmd := BitVec.ofNat 256 (putBits e.cmd.toNat hi lo r) }
      | none => none

/-! ### Matching (R222, R224, R228, R230, R231) -/

/-- A relation holds of the commands there are; one that names a command still absent is left open. Ranges in scratch are
compared in cluster-window form (R188, R227). -/
def Relation.holds (x : Relation) (cs : List CmdEntry) : Bool :=
  match cs[x.slotA]? with
  | none => true
  | some a =>
    if x.kind = 2 ∨ x.kind = 5 then
      match a.fieldOf x.codeA with
      | some v => if x.kind = 2 then v == x.const else v != x.const
      | none => false
    else match cs[x.slotB]? with
      | none => if 3 ≤ x.kind then (a.rangeOf x.codeA).isSome else (a.fieldOf x.codeA).isSome
      | some b =>
        if x.kind = 1 then
          match a.fieldOf x.codeA, b.fieldOf x.codeB with
          | some u, some v => u == v
          | _, _ => false
        else match a.rangeOf x.codeA, b.rangeOf x.codeB with
          | some u, some v => if x.kind = 3 then windowForm a.core u.base == windowForm b.core v.base && u.geo == v.geo && u.len == v.len && u.tile == v.tile else !u.meets v a.core
          | _, _ => false

/-- Commands match the first pattern slots of a rule, as far as they go (R224, R228, R230). -/
def ruleFits (r : Rule) (ceiling : Nat) (cs : List CmdEntry) : Bool :=
  let cls := ruleClass r
  decide (cls + 1 ≤ ceiling) &&
  (((List.range cs.length).zip cs).all fun p =>
    let op := ruleOpcode r p.1
    (p.2.opcode == op || (op == 0xFF && isMma p.2.opcode)) && !p.2.literal && !p.2.cancelled && p.2.gate == 0 && p.2.bits 228 228 == 0 &&
    (cls == 0 || (cls == 1 && p.2.bits 230 230 == 1) || (cls == 2 && p.2.bits 229 229 == 1))) &&
  (cs.dropLast.all fun e => !e.cut) && (ruleRelations r).all fun x => x.holds cs

/-- Apply one mapping to a replacement; none when it cannot be applied (R228). -/
def Mapping.apply (m : Mapping) (cs : List CmdEntry) (e : CmdEntry) : Option CmdEntry :=
  if m.kind = 2 then e.setField m.target m.const
  else match (cs[m.slot]?).bind fun c => c.fieldOf m.code with
    | none => none
    | some v =>
      match m.kind with
      | 3 => if 1 < v then none else e.setField m.target (1 - v)
      | 4 => (e.fieldOf m.target).bind fun x => e.setField m.target (fpMul f32 x v).1
      | _ => e.setField m.target v

/-- A replacement command with its source slot: the source without gate and counter, then the mappings (R228). -/
def ruleReplace (r : Rule) (cs : List CmdEntry) (q : Nat) : Option (CmdEntry × Nat) :=
  let src := ruleSource r q
  match cs[src]?, cs.head? with
  | some c, some first =>
    let op := if ruleNewOpcode r q = 0 then c.opcode else ruleNewOpcode r q
    let cmd := putBits (putBits c.cmd.toNat 239 232 0) 247 240 op
    ((ruleMappings r q).foldl (fun (e : Option CmdEntry) m => e.bind (m.apply cs))
      (some { c with cmd := BitVec.ofNat 256 cmd, order := first.order })).map fun e => (e, src)
  | _, _ => none
/-- Every replacement command, or none. -/
def ruleReplacements (r : Rule) (cs : List CmdEntry) : Option (List (CmdEntry × Nat)) :=
  (List.range (ruleQ r)).mapM (ruleReplace r cs)

/-- The factor of a SCALE command is a power of two (R231). -/
def powerOfTwo (f : Nat) : Bool :=
  match unpack f32 f with | .fin _ m _ => m != 0 && m == 2 ^ (bitLen m - 1) | _ => false
/-- The SCALE command among those matched. -/
def scaleOf (cs : List CmdEntry) : Option CmdEntry := cs.find? fun c => c.opcode == 0x34

/-- The guard at formation (R231). -/
def State.guardForms (s : State) (r : Rule) (cs : List CmdEntry) : Bool :=
  match ruleGuard r with
  | 1 => (match scaleOf cs with | some c => powerOfTwo (c.op 6) | none => false)
  | 2 => (match cs with
    | a :: b :: _ => !s.operandFull a && (s.operandRegs b).isEmpty
    | _ => false)
  | _ => true

/-- A command of another thread between the first and the last member touches what a member touches, and one of them
writes (R223). -/
def Core.interferes (k : Core) (cs : List CmdEntry) (c : Nat) : Bool :=
  match cs.head?, cs.getLast? with
  | some a, some z =>
    (k.window.filter fun e => decide (a.order < e.order) && decide (e.order < z.order) && e.uid != a.uid).any fun e =>
      e.touched.any fun x => cs.any fun m => m.touched.any fun y => (x.2 || y.2) && x.1.meets y.1 c
  | _, _ => false

/-- Bytes that a replacement would write. -/
def CmdEntry.bytesWritten (e : CmdEntry) : Nat :=
  match e.opcode with
  | 0x03 => e.tM * e.tN * e.elemBytes.getD 4
  | 0x20 => (e.nestExtents.foldl (· * ·) 1) * typeBytes (e.nestType 0)
  | 0x21 => ((e.nestExtents.drop 1).foldl (· * ·) 1) * typeBytes (e.nestType 0)
  | 0x31 => e.tM * geoRow (e.op 3)
  | 0x33 => e.tM * (e.tK / 2 * typeBytes e.tType + metaBytes (e.tType == 1) e.tK)
  | op => if isLayout op then e.tM * e.tK * e.elemBytes.getD 1 else 0

/-- The group that a rule forms of commands that it matches fully, if it forms one (R223, R228, R229, R231). -/
def State.formGroup (s : State) (c : Nat) (r : Rule) (cs : List CmdEntry) : Option Group :=
  if !s.guardForms r cs || (s.core c).interferes cs c || cs.any (fun e => (s.tileRefusal e).isSome) then none
  else match ruleReplacements r cs with
    | none => none
    | some l =>
      let good (e : CmdEntry) : Bool := (s.tileRefusal { e with crc := crc32c (natBytes 32 e.cmd.toNat ++ natBytes 64 e.opr.toNat) }).isNone
      if l.all (fun x => good x.1) && decide ((l.foldl (fun n x => n + x.1.bytesWritten) 0) ≤ 65536) then
        some { rule := r, members := cs, repl := l, failed := none, sats := [], rows := [] }
      else none

/-- The head's thread's commands in the window whose matching has ended, from the head on (R222). -/
def Core.run (k : Core) (now : Nat) : List CmdEntry :=
  match k.window.head? with
  | none => []
  | some h => k.window.filter fun e => e.uid == h.uid && decide (e.since ≤ now)

/-- How the head of the window is decided (R224). -/
inductive HeadVerdict where
  | hold
  | literal
  | group (g : Group)
  deriving DecidableEq, Repr

/-- The decision among the rules in index order; with `all` every open prefix is dropped (R224). -/
def State.judge (s : State) (c ceiling : Nat) (run : List CmdEntry) (all : Bool) : List Rule → HeadVerdict
  | [] => .literal
  | r :: rest =>
    let p := ruleP r
    if p ≤ run.length then
      match (if ruleFits r ceiling (run.take p) then s.formGroup c r (run.take p) else none) with
      | some g => .group g
      | none => s.judge c ceiling run all rest
    else if !all && ruleFits r ceiling run && !(run.any CmdEntry.cut) then .hold
    else s.judge c ceiling run all rest

/-- The head of a core's window, judged (R224). -/
def State.verdict (s : State) (c : Nat) (all : Bool) : HeadVerdict :=
  let k := s.core c
  let ceiling := match k.part.bind s.ctx? with | some x => x.ceiling | none => 0
  s.judge c ceiling (k.run s.cycle) all k.rules

/-- The head stands for decision: matched, not decided, and no formed group before it; one that runs has left (R224). The move of a
core is a flush point: nothing is decided from then on (R232). -/
def State.undecided (s : State) (c : Nat) : Bool :=
  let k := s.core c
  match k.window.head? with
  | some h => k.group.isNone && !k.moving && !h.literal && !h.cancelled && decide (h.since ≤ s.cycle)
  | none => false

/-- A verdict takes effect: the group's members leave the window for its place, or the head is literal (R224). -/
def State.decideHead (s : State) (c : Nat) : HeadVerdict → State
  | .hold => s
  | .literal => s.modCore c fun k =>
    match k.window with
    | h :: rest => { k with window := { h with literal := true } :: rest }
    | [] => k
  | .group g => s.modCore c fun k =>
    let ids := g.members.map CmdEntry.order
    { k.keepWindow (fun e => !ids.contains e.order) s.cycle with group := some g }

/-- The head of every window is decided when it can be, without a release (R224). -/
def State.decideHeads (s : State) : State :=
  s.cores.foldl (fun s e => if e.2.window.isEmpty || !s.undecided e.1 then s else s.decideHead e.1 (s.verdict e.1 false)) s

/-! ### Window entry and release (R222, R224, R230, R232) -/

/-- A command may enter the window. -/
def Core.mayEnter (k : Core) : Bool :=
  !(k.cmdsOf 0).isEmpty &&
  decide (k.window.length + (match k.group with | some g => g.members.length | none => 0) < 8)
/-- The oldest command of q0 enters the window; one with LITERAL or a gate is a flush point of its thread (R222, R230, R232). -/
def State.enterWindow (s : State) (c : Nat) : State :=
  s.modCore c fun k =>
    if !k.mayEnter then k
    else match k.cmdsOf 0 with
      | [] => k
      | e :: rest =>
        let fixed := e.bits 228 228 == 1 || e.gate != 0
        let e := { e with since := s.cycle + 2, literal := e.literal || fixed }
        let w := if fixed then k.window.map fun x => if x.uid = e.uid then { x with literal := true } else x else k.window
        { k.setCmds 0 rest with window := w ++ [e], headSince := if k.window.isEmpty then s.cycle else k.headSince }
/-- REWRITE_WINDOW_ENTRY (R222). -/
def execRewriteWindowEntry (s : State) : Res := .next (s.enterWindow s.arg.n)

/-- A held head is released: it has stood for 64 cycles, or the window holds 8 commands, each of them matched (R222, R224; log 105). -/
def State.releases (s : State) (c : Nat) : Bool :=
  let k := s.core c
  s.undecided c && (decide (k.headSince + 64 ≤ s.cycle) || decide (8 ≤ k.window.countP fun e => decide (e.since ≤ s.cycle)))
/-- REWRITE_HEAD_RELEASE (R224). -/
def execRewriteHeadRelease (s : State) : Res :=
  .next (if s.releases s.arg.n then s.decideHead s.arg.n (s.verdict s.arg.n true) else s)

/-! ### Groups (R231, R234, R235) -/

/-- Ranges that a group locks. -/
def Group.spans (g : Group) : List Span := g.repl.flatMap fun x => x.1.tileSpans
/-- The first member, whose key the group's command has. -/
def Group.first (g : Group) : Option CmdEntry := g.members.head?

/-- A formed group may start, on a core that is to pass on as well: formed groups stand (R224, R232, R234, R238). -/
def State.groupMayStart (s : State) (c : Nat) (g : Group) (e : CmdEntry) : Bool :=
  let k := s.core c
  !k.fenced && !s.ending e.part && !s.tileBusy c && k.replay.isEmpty &&
  s.spansFree e g.spans && s.spansRoom e g.spans && s.loadsClear e g.spans
/-- A conflict with a lock holds the group back (R232). -/
def State.groupBlocked (s : State) (c : Nat) (g : Group) (e : CmdEntry) : Bool :=
  !s.tileBusy c && !s.spansFree e g.spans

/-- A started group: its locks, and a command that waits for the register operands; what stands behind it is the window's head
from now on (R224, R234). -/
def State.groupBegin (s : State) (c : Nat) (g : Group) (e : CmdEntry) : State :=
  let s := (s.takeLocks e g.spans).modCore c fun k =>
    { k with group := none, running := some g, headSince := s.cycle }
  { s with active := tabSet s.active e.order { Active.new e s.cycle s.cycle [] (.plain 0 0 0) with stalled := true, grouped := true } }

/-- A group's start, when it can start. -/
def State.startGroup (s : State) (c : Nat) : State :=
  match (s.core c).group with
  | none => s
  | some g => match g.first with
    | none => s
    | some e => if s.groupMayStart c g e then s.groupBegin c g e else if s.groupBlocked c g e then s.flushCore c else s

/-- A binary32 pattern is normal, and the product of two is exact and normal. -/
def isNormal (x : Nat) : Bool := decide (0 < natBits x 23 8) && decide (natBits x 23 8 < 255)
def exactNormal (a b : Nat) : Bool := (fpMul f32 a b).2 == 0 && isNormal (fpMul f32 a b).1

/-- Every element of a SCALE command's source times the factor is exact in its type (R231). -/
def State.scaleExact (s : State) (e : CmdEntry) : Bool :=
  let n := e.elemBytes.getD 1
  let f := unpack f32 (e.op 6)
  (List.range e.tM).all fun r => (List.range e.tK).all fun c =>
    match s.tileRead e (place (e.op 0) (e.op 1) r c n) n with
    | .error _ => false
    | .ok x =>
      match ewFloat 3 (decodeType e.tType x) f f with
      | .fin neg m x st =>
        (match decodeType e.tType (encodeType e.tType (.fin neg m x st)) with
         | .fin _ m' x' => (Dyadic.add ⟨(m : Int), x⟩ ⟨-(m' : Int), x'⟩).val == 0
         | _ => false)
      | _ => true

/-- The SCALE2 guard at run time: exact elements, and exact normal SA, SB and sAB (R231). -/
def State.guardRuns (s : State) (g : Group) : Bool :=
  if ruleGuard g.rule ≠ 1 then true
  else match scaleOf g.members with
    | none => false
    | some c =>
      s.scaleExact c && (List.range (ruleQ g.rule)).all fun q =>
        let scales := (ruleMappings g.rule q).filter fun m => m.kind == 4
        scales.isEmpty ||
        (match g.members[ruleSource g.rule q]?, g.repl[q]? with
         | some src, some rep =>
           (scales.all fun m =>
             match src.fieldOf m.target, (g.members[m.slot]?).bind fun x => x.fieldOf m.code with
             | some x, some v => exactNormal x v
             | _, _ => false) && exactNormal (rep.1.op 6) (rep.1.op 7)
         | _, _ => false)

/-- Replacements run in order, each on what those before it left, until one faults (R234). -/
def State.groupRun (s : State) : List (CmdEntry × Nat) → List ElemWrite × Tab (BitVec 32) × Option (CmdEntry × ElemFault) × List Nat × List (Nat × Nat)
  | [] => ([], [], none, [], [])
  | (e, slot) :: rest =>
    let r := s.tileRun e
    match r.fault with
    | some f => ([], [], some (e, f), [], [])
    | none =>
      let v := (r.writes.foldl State.withElem s).writeTiles e.core r.tiles
      let q := v.groupRun rest
      (r.writes ++ q.1, q.2.1.foldl (fun t w => tabSet t w.1 w.2) r.tiles, q.2.2.1, (if r.sat then [slot] else []) ++ q.2.2.2.1,
        (if e.opcode = 0x31 then [(slot, r.longest)] else []) ++ q.2.2.2.2)

/-- Literal execution of the members would fault, an elided one's destination with it: the statuses would differ (R229). -/
def State.literalFaults (s : State) (g : Group) : Bool := (s.groupRun (g.members.map fun m => (m, 0))).2.2.1.isSome

/-- A started group computes once every register operand is full: it will commit, or has failed (R229, R234, R235). -/
def State.groupCompute (s : State) (c : Nat) : State :=
  match (s.core c).running with
  | none => s
  | some g =>
    match g.first.bind fun e => tabGet? s.active e.order with
    | none => s
    | some a =>
      if !a.stalled || !(g.repl.all fun x => s.operandFull x.1) then s
      else
        let s := g.repl.foldl (fun s x => s.readRegs x.1) s
        if (s.core c).fenced then s
        else
          let d := s.takeDelay
          let r := s.groupRun g.repl
          let failed :=
            if r.2.2.1.isSome then some true else if !s.guardRuns g then some false else if s.literalFaults g then some true else none
          let busy := g.repl.foldl (fun n x => n + x.1.busy d.1) 1
          let s := match r.2.2.1 with | some (e, f) => d.2.doomAt e f.addr 64 | none => d.2
          let s := s.modCore c fun k => { k with running := some { g with failed := failed, sats := r.2.2.2.1, rows := r.2.2.2.2 } }
          { s with active := tabSet s.active a.entry.order
                    { a with stalled := false, due := s.cycle + busy, writes := if failed.isNone then r.1 else [],
                             tiles := if failed.isNone then r.2.1 else [], pod := r.1.any ElemWrite.remote } }

/-- A group whose work is done. -/
def State.groupDone (s : State) (c : Nat) : Option (Group × Active) :=
  match (s.core c).running with
  | none => none
  | some g => match g.first.bind fun e => tabGet? s.active e.order with
    | some a => if a.grouped && !a.stalled && decide (a.due ≤ s.cycle) then some (g, a) else none
    | none => none

/-- The record of a group's member (R236, R241). -/
def Group.outcome (g : Group) (slot code cycles : Nat) : Outcome :=
  let seq := match g.first with | some e => e.seq | none => 0
  { status := 0, detail := 0, fault := 0, sat := g.sats.contains slot, rewrite := some (code, slot, seq, ruleId g.rule)
    extra := [(0x1C, 4, ((g.rows.find? fun x => x.1 == slot).map Prod.snd).getD 0), (0x20, 8, cycles)] }

/-- Commit: writes and tiles, locks, pulses and records of every member, in one cycle (R234). -/
def State.groupCommit (s : State) (c : Nat) (g : Group) (a : Active) : State :=
  let s := (a.writes.foldl State.withElem s).writeTiles c a.tiles
  let s := (s.dropActive a.entry.order).modCore c fun k => { k with running := none }
  let s := g.members.foldl State.pulseFor s
  let s := ((List.range g.members.length).zip g.members).foldl (fun s m =>
    s.putRecord m.2 (g.outcome m.1 (if g.repl.any fun x => x.2 == m.1 then 1 else 2) (s.cycle - a.start))) s
  s.count a.entry.part 7 1
/-- REWRITE_GROUP_COMMIT (R234). -/
def execRewriteGroupCommit (s : State) : Res :=
  .next (match s.groupDone s.arg.n with
    | some (g, a) => if g.failed.isNone then s.groupCommit s.arg.n g a else s
    | none => s)

/-- A failed group discards its writes and releases its locks; its members are replayed literally (R235). -/
def State.groupReplay (s : State) (c : Nat) (g : Group) (a : Active) (fault : Bool) : State :=
  let seq := a.entry.seq
  (s.dropActive a.entry.order).modCore c fun k =>
    { k with running := none
             replay := ((List.range g.members.length).zip g.members).map fun m => (m.2, if fault then 3 else 4, m.1, seq, ruleId g.rule) }
/-- REWRITE_GROUP_REPLAY (R235). -/
def execRewriteGroupReplay (s : State) : Res :=
  .next (match s.groupDone s.arg.n with
    | some (g, a) => (match g.failed with | some f => s.groupReplay s.arg.n g a f | none => s)
    | none => s)

/-- Commands and groups that waited for their register operands compute when those are full (R218), and while no access has passed
others under a scope that covers their engine (R285). -/
def State.settleTiles (s : State) : State :=
  (s.active.filter fun e => e.2.stalled && !s.engineHeld e.2.entry.core e.2.entry.part).foldl (fun s e =>
    if e.2.grouped then s.groupCompute e.2.entry.core else s.tileCompute e.1) s

/-- What a core's tile engine would start next: a replayed command, a formed group, or the window's head when it is
decided literal (R224, R235). -/
inductive TileNext where
  | none
  | command (e : CmdEntry)
  | group
  deriving DecidableEq, Repr
def State.tileNext (s : State) (c : Nat) : TileNext :=
  let k := s.core c
  if s.tileBusy c then .none
  else match k.replay, k.group, k.window with
    | r :: _, _, _ => .command r.1
    | [], some _, _ => .group
    | [], none, h :: _ => if h.literal then .command h else .none
    | [], none, [] => .none

end Sys2Proof.Machine
end

