-- ==== Sys2Proof/Machine/Schedule.lean ====
section
/-! DEFINITION. The dispatcher: placement of queue heads, the region reservation, pre-emption and restoring; and the
moves of cores between partitions (R169, R172, R296 to R303, R369). -/
namespace Sys2Proof.Machine

/-! ### Where a launch fits (R300) -/

/-- A unit's place: its slot and its window base. -/
structure Seat where
  slot : Nat
  base : Nat
  deriving DecidableEq, Repr

/-- The threads of a core but those of the listed slots, which are taken for gone. -/
def State.staying (s : State) (gone : List (Nat × Nat)) (c : Nat) : List (Nat × Thread) :=
  (s.threadsOf c).filter fun e => !gone.contains (c, e.1)

/-- Seats for the given slots of one core: each window takes the lowest base that is free (R296). -/
def seatsGo (size : Nat) : List Nat → List (Nat × Nat) → List Seat → Option (List Seat)
  | [], _, acc => some acc
  | sl :: rest, taken, acc =>
    match lowestBase size taken with
    | some b => seatsGo size rest ((b, size) :: taken) (acc ++ [{ slot := sl, base := b }])
    | none => none

/-- Seats for the units of a record on one core, in the lowest FREE slots from 0 to 62 (R296, R300). -/
def State.seats (s : State) (gone : List (Nat × Nat)) (r : Vec) (c : Nat) : Option (List Seat) :=
  let there := s.staying gone c
  let slots := ((List.range 63).filter fun sl => there.all fun e => e.1 != sl).take (recThreads r)
  if slots.length < recThreads r then none
  else seatsGo (recWindow r) slots (there.map fun e => (e.2.base, e.2.size)) []

/-- The scratch split of a core suits a record, or may be changed for it (R47, R300). -/
def State.stepsSuit (s : State) (x : Ctx) (r : Vec) (c : Nat) : Bool :=
  (s.core c).steps == recSteps r || ((s.threadsOf c).isEmpty && x.saved.all fun v => v.core != c)

/-- A core qualifies for a launch of its kind: its seats there (R300). -/
def State.coreSeats (s : State) (x : Ctx) (gone : List (Nat × Nat)) (r : Vec) (c : Nat) : Option (List Seat) :=
  let there := s.staying gone c
  let suits := if recKind r = 1 then there.all fun e => e.2.handler else there.all fun e => !e.2.coupled
  if suits && s.stepsSuit x r c && !(s.core c).moving then s.seats gone r c else none

/-- Cores of a launch with their seats, in placement order. -/
abbrev Plan := List (Nat × List Seat)

/-- A gang launch among the cores that qualify (R300): one cluster for up to 4 cores; else all of a region's lower
cluster and the rest of its upper. -/
def gangPlan (n : Nat) (ok : Plan) : Option Plan :=
  let of_ (k : Nat) : Plan := ok.filter fun e => clusterOf e.1 == k
  if n ≤ 4 then
    (List.range 256).findSome? fun k => if n ≤ (of_ k).length then some ((of_ k).take n) else none
  else
    (List.range 128).findSome? fun r =>
      if (of_ (2 * r)).length = 4 ∧ n - 4 ≤ (of_ (2 * r + 1)).length then some (of_ (2 * r) ++ (of_ (2 * r + 1)).take (n - 4)) else none

/-- The cores of a region of 8 (R300). -/
def regionOf (c : Nat) : Nat := c / 8

/-- Where a launch fits with the listed threads gone (R300); the reserved region takes only its own head (R301). -/
def State.fit (s : State) (p : Nat) (x : Ctx) (gone : List (Nat × Nat)) (id : Nat) (r : Vec) : Option Plan :=
  let open_ (c : Nat) : Bool := match x.reservation with
    | some v => v.1 == id || regionOf c != v.2
    | none => true
  let ok : Plan := ((s.coresOf p).filter open_).filterMap fun c => (s.coreSeats x gone r c).map fun l => (c, l)
  if recKind r = 1 then gangPlan (recCores r) ok
  else if ok.length < recCores r then none else some (ok.take (recCores r))

/-! ### Heads (R298, R299) -/

/-- The heads of a partition in the order of visit: by priority, then round-robin after the queue last placed from (R299). -/
def Ctx.heads (x : Ctx) : List (Nat × Launch) :=
  let hs := (List.range 8).filterMap fun q => (tabGet x.queues q []).head?.bind fun id => (tabGet? x.launches id).map fun l => (q, id, l)
  (List.range 32).reverse.flatMap fun pr =>
    let last := tabGet x.rotor pr 7
    (List.range 8).filterMap fun i =>
      let q := (last + 1 + i) % 8
      (hs.find? fun h => h.1 == q && recPrio h.2.2.record == pr).map fun h => h.2

/-- A swapped thread that the dispatcher will restore holds back every launch of its launch's priority or lower (R302). -/
def Ctx.heldBack (x : Ctx) (r : Vec) : Bool :=
  x.saved.any fun v => !v.asked && (match tabGet? x.launches v.thread.launch with
    | some l => decide (recPrio r ≤ recPrio l.record)
    | none => false)

/-- The first head that fits, with its plan (R299). -/
def State.nextPlace (s : State) (p : Nat) (x : Ctx) : Option (Nat × Launch × Plan) :=
  x.heads.findSome? fun h =>
    if x.heldBack h.2.record then none else (s.fit p x [] h.1 h.2.record).map fun l => (h.1, h.2, l)

/-- The blocked head: the first one visited that does not fit, unless a swapped thread holds it back (R299, R302). -/
def State.blockedHead (s : State) (p : Nat) (x : Ctx) : Option (Nat × Launch) :=
  (x.heads.find? fun h => x.heldBack h.2.record || (s.fit p x [] h.1 h.2.record).isNone).filter fun h => !x.heldBack h.2.record

/-! ### Placement (R296, R297, R300) -/

/-- Bind a task's channels: a channel is created by the first launch that binds its number (R297). -/
def Ctx.bindChans (x : Ctx) (id : Nat) (r : Vec) : Ctx :=
  (List.range 8).foldl (fun (x : Ctx) i =>
    let dir := recDir r i
    if dir = 0 then x
    else
      let k := chanKey (recGraph r) (recChan r i)
      let h := (tabGet? x.chans k).getD { depth := recDepth r, entries := [], input := none, output := none, killed := none, sealed_ := none, held := 0, diverted := 0 }
      { x with chans := tabSet x.chans k (if dir = 1 then { h with input := some id, sealed_ := none, diverted := 0 } else { h with output := some id }) }) x

/-- The bindings of a task's q8 to q15 (R38, R297). -/
def bindingsOf (r : Vec) : Tab Binding :=
  (List.range 8).filterMap fun i =>
    if recDir r i = 0 then none
    else some (i, { chan := recChan r i, dir := recDir r i, depth := recDepth r, ended := false, graph := recGraph r })

/-- The gang of a slot on a core of a gang launch: the mask of the launch's cores in its cluster (R300). -/
def planMask (l : Plan) (c : Nat) : BitVec 4 :=
  l.foldl (fun m e => if clusterOf e.1 = clusterOf c then m ||| (1#4 <<< (e.1 % 4)) else m) 0
/-- Position of a core in its cluster's gang. -/
def planRank (l : Plan) (c : Nat) : Nat := l.countP fun e => clusterOf e.1 == clusterOf c && decide (e.1 < c)

/-- One unit starts: its thread, and its registers (R296, R306). -/
def State.startUnit (s : State) (id : Nat) (r : Vec) (k : Option Checkpoint) (plan : Plan) (c index : Nat) (seat : Seat) : State :=
  let t := Thread.start 0 (BitVec.ofNat 48 (recEntry r)) seat.base (recWindow r) id (s.cycle + 1)
  let t := { t.restart r k (s.cycle + 1) with chans := bindingsOf r }
  let m := planMask plan c
  let gang : Bool := recKind r == 1 && plan.countP (fun e => clusterOf e.1 == clusterOf c) != 1
  let t := if gang then { t with coupled := true, gangMask := m, gangPos := BitVec.ofNat 2 (planRank plan c) } else t
  let s := s.placeThread c seat.slot t
  (restartRegs r k index).foldl (fun s e => s.writeReg c (seat.base + e.1) e.2) s

/-- Every unit of a launch starts at one decision (R300). -/
def State.startUnits (s : State) (id : Nat) (r : Vec) (k : Option Checkpoint) (plan : Plan) : State :=
  ((List.range plan.length).zip plan).foldl (fun s e =>
    let s := (s.setSteps e.2.1 (recSteps r)).restoreScratch e.2.1 k
    ((List.range e.2.2.length).zip e.2.2).foldl (fun s u =>
      s.startUnit id r k plan e.2.1 (e.1 * recThreads r + u.1) u.2) s) s

/-- A launch that cannot start ends at its placement with a code (R293). -/
def State.failPlace (s : State) (p id code : Nat) : State :=
  let s := s.modCtx p fun x =>
    let x := x.leaveQueue id s.timeQ
    match tabGet? x.launches id with
    | some l => { x with launches := tabSet x.launches id { l with code := code } }
    | none => x
  s.launchEnd p id none

/-- Place a launch (R296 to R300, R305, R306). -/
def State.placeLaunch (s : State) (p : Nat) (x : Ctx) (id : Nat) (l : Launch) (plan : Plan) : State :=
  let r := l.record
  let g := x.graphRound (recGraph r)
  let home := (plan.head?.map Prod.fst).getD 0
  let k := if recResume r ∧ g ≠ 0 then s.readCheckpoint home p (recArg r 2) g else none
  if x.chanConflict r then s.failPlace p id 0x83
  else if recResume r ∧ g ≠ 0 ∧ k.isNone then s.failPlace p id 0x82
  else
    let site := if recKind r = 2 then (plan.head?.bind fun e => e.2.head?.map fun u => (e.1, u.slot)) else none
    let l := { l with state := 3, placed := s.order, site := site, rounds := if recResume r then g else l.rounds }
    let x := (x.leaveQueue id s.timeQ).bindChans id r
    let x := { x with launches := tabSet x.launches id l, rotor := tabSet x.rotor (recPrio r) (recQueue r) }
    let x := if recGraph r = 0 then x else x.updateRound (recGraph r)
    let s := { s.setCtx p x with order := s.order + 1 }
    s.startUnits id r k plan

/-- A decision: the first placement that some partition can make; with none left, the dispatcher rests until something
changes (R299). -/
def State.decision (s : State) : State :=
  match s.ctxs.findSome? fun e => if e.2.ending.isSome then none else (s.nextPlace e.1 e.2).map fun h => (e.1, e.2, h) with
  | some (p, x, id, l, plan) => s.placeLaunch p x id l plan
  | none => { s with dispatch := false }
/-- DISPATCHER_DECISION (R299). -/
def execDispatcherDecision (s : State) : Res := .next (if s.dispatch then s.decision else s)

/-! ### The region reservation (R301) -/

/-- Cores of a region that are free or held only by launches of lower priority (R301). -/
def State.regionCount (s : State) (p : Nat) (x : Ctx) (prio r : Nat) : Nat :=
  (s.coresOf p).countP fun c => regionOf c == r && (s.threadsOf c).all fun e =>
    e.2.handler || (match tabGet? x.launches e.2.launch with | some l => decide (recPrio l.record < prio) | none => false)
/-- The region of the grant with the most such cores, the lowest on a tie (R301). -/
def State.bestRegion (s : State) (p : Nat) (x : Ctx) (prio : Nat) : Option Nat :=
  let rs := ((s.coresOf p).map regionOf).eraseDups
  (rs.foldl (fun (acc : Option (Nat × Nat)) r =>
    let n := s.regionCount p x prio r
    match acc with
    | some a => if a.2 < n then some (r, n) else acc
    | none => some (r, n)) none).map Prod.fst

/-- The head of a queue whose age has reached the limit, and which may take the reservation: no other holds it, or one of
lower priority (R301). -/
def State.agedHead (s : State) (p q : Nat) : Option (Ctx × Nat × Launch) :=
  match s.ctx? p with
  | none => none
  | some x =>
    match (tabGet x.queues q []).head?.bind fun id => (tabGet? x.launches id).map fun l => (id, l) with
    | none => none
    | some (id, l) =>
      let free : Bool := match x.reservation with
        | none => true
        | some v => match tabGet? x.launches v.1 with
          | some h => decide (recPrio h.record < recPrio l.record)
          | none => true
      if x.ending.isNone ∧ l.state = 1 ∧ l.headAt + x.ageLimit * 4000 ≤ s.timeQ ∧ free then some (x, id, l) else none
/-- HEAD_AGE_LIMIT: the head enters RESERVING; an earlier one returns to HEAD with its age kept (R301). -/
def execHeadAgeLimit (s : State) : Res :=
  .next (match s.agedHead s.arg.n s.arg.m with
    | none => s
    | some (x, id, l) =>
      match s.bestRegion s.arg.n x (recPrio l.record) with
      | none => s
      | some r =>
        let back (t : Tab Launch) : Tab Launch := match x.reservation with
          | some v => (match tabGet? t v.1 with | some h => tabSet t v.1 { h with state := 1 } | none => t)
          | none => t
        { s.setCtx s.arg.n { x with launches := tabSet (back x.launches) id { l with state := 2 }, reservation := some (id, r) } with
          dispatch := true })

/-! ### Pre-emption within a partition (R302) -/

/-- A thread of a launch that the dispatcher may pre-empt for a head of the given priority (R169, R302, R369). -/
def Thread.preemptible (t : Thread) (x : Ctx) (prio : Nat) : Bool :=
  !t.handler && t.after.isNone &&
  (match t.state with | .trapped _ => false | .leaving _ _ => false | .blocked .rewind => false | _ => true) &&
  (match tabGet? x.launches t.launch with
   | some l => decide (recPrio l.record < prio) && (recPreempt l.record || x.cls == 2)
   | none => false)

/-- Threads in the order in which they are chosen: the lowest priority, the most recently placed launch, the highest
slot (R302). -/
def State.victims (s : State) (p : Nat) (x : Ctx) (prio : Nat) : List (Nat × Nat) :=
  let ts := (s.coresOf p).flatMap fun c => (s.threadsOf c).filterMap fun e =>
    if e.1 != 63 && e.2.preemptible x prio then
      (tabGet? x.launches e.2.launch).map fun l => (recPrio l.record, l.placed, e.1, c)
    else none
  let before (a b : Nat × Nat × Nat × Nat) : Bool :=
    if a.1 ≠ b.1 then decide (a.1 < b.1)
    else if a.2.1 ≠ b.2.1 then decide (b.2.1 < a.2.1)
    else decide (b.2.2.1 ≤ a.2.2.1)
  (ts.mergeSort before).map fun a => (a.2.2.2, a.2.2.1)

/-- Slots of a partition that are being emptied, or will be when their instruction completes. -/
def State.leavingSlots (s : State) (p : Nat) : List (Nat × Nat) :=
  s.pickThreads p fun t => t.state.isLeaving || (match t.after with | some (.swap _ _) => true | _ => false)

/-- The shortest run of victims without which a head fits. -/
def State.enoughGone (s : State) (p : Nat) (x : Ctx) (id : Nat) (r : Vec) : List (Nat × Nat) → List (Nat × Nat) → Option (List (Nat × Nat))
  | gone, [] => if (s.fit p x gone id r).isSome then some [] else none
  | gone, v :: rest =>
    if (s.fit p x gone id r).isSome then some [] else (s.enoughGone p x id r (gone ++ [v]) rest).map fun l => v :: l

/-- Threads to swap out for the blocked head of a partition, those on their way out left aside; none when that does not
make it fit (R302). A victim whose place is not needed stays. -/
def State.preemptPlan (s : State) (p : Nat) (x : Ctx) : Option (Launch × List (Nat × Nat)) :=
  match s.blockedHead p x with
  | none => none
  | some (id, l) =>
    let out := s.leavingSlots p
    (s.enoughGone p x id l.record out (s.victims p x (recPrio l.record))).map fun vs =>
      (l, vs.reverse.foldl (fun keep v =>
        if (s.fit p x (out ++ keep.filter (· != v)) id l.record).isSome then keep.filter (· != v) else keep) vs)

/-- The thread that a partition's dispatcher pre-empts now: one at a time (R169). -/
def State.preemptNow (s : State) (p : Nat) : Option (Nat × Nat) :=
  match s.ctx? p with
  | none => none
  | some x =>
    if x.ending.isSome ∨ !(s.leavingSlots p).isEmpty then none
    else match s.preemptPlan p x with
      | some (_, v :: _) => some v
      | _ => none

/-- Swap a thread out, at once or when its instruction completes (R169). -/
def State.swapOut (s : State) (p c sl : Nat) : State :=
  match s.thread? c sl with
  | none => s
  | some t =>
    let r := s.reserveRecord p
    match t.state with
    | .inflight _ => r.2.modThread c sl fun t => { t with after := some (.swap r.1 false) }
    | _ => r.2.saveThread c sl r.1 false none
/-- PREEMPT_SWAP_OUT (R169, R302). -/
def execPreemptSwapOut (s : State) : Res :=
  .next (match (s.core s.arg.n).part with
    | some p => if s.preemptNow p = some (s.arg.n, s.arg.m) then s.swapOut p s.arg.n s.arg.m else s
    | none => s)

/-! ### Restoring (R172) -/

/-- The dispatcher may restore a record: its core is held, its slot is FREE, and no pre-emption for a head of higher
priority goes on (R172, R302). -/
def State.mayRestore (s : State) (p : Nat) (x : Ctx) (v : Saved) : Bool :=
  !v.asked && x.ending.isNone && (s.core v.core).part == some p && !(s.core v.core).moving &&
  (s.thread? v.core v.slot).isNone &&
  (match s.preemptPlan p x, tabGet? x.launches v.thread.launch with
   | some h, some l => decide (recPrio h.1.record ≤ recPrio l.record)
   | _, _ => true)
/-- THREAD_RESTORE (R172). -/
def execThreadRestore (s : State) : Res :=
  .next (match s.ctx? s.arg.n with
    | none => s
    | some x => match x.saved.find? fun v => v.record == s.arg.m with
      | some v => if s.mayRestore s.arg.n x v then s.restoreThread s.arg.n v v.core v.slot else s
      | none => s)

/-! ### EXPIRY_NOTICE (R164) -/

/-- The notice is due (R164, R365, R378). -/
def State.noticeDue (s : State) (x : Ctx) : Bool :=
  !x.noticed && x.ending.isNone && x.notice != 0 && s.reached (x.notAfter.toNat - x.notice.toNat)
/-- EXPIRY_NOTICE (R164). -/
def execExpiryNotice (s : State) : Res :=
  .next (match s.ctx? s.arg.n with
    | some x => if s.noticeDue x then s.notice s.arg.n else s
    | none => s)

/-! ### Moves of a core (R172, R302, R303) -/

/-- The record of a TRAPPED thread that has not been popped: in q6, or still on its way there (R172). -/
def State.unpopped (s : State) (c sl : Nat) : Option Vec :=
  match ((s.core c).q6.filter fun r => fieldAt r 2 1 == sl).getLast? with
  | some r => some r
  | none => (s.traps.find? fun r => r.core == c && r.slot == sl).map fun r => r.body

/-- Slots of a core in the order in which its threads are saved: those with a record in q6 first, in q6's order, then
those with a record on its way, then the rest (R172). -/
def State.saveOrder (s : State) (c : Nat) : List Nat :=
  let q := (s.core c).q6.map (fun r => fieldAt r 2 1) ++ (s.traps.filter fun r => r.core == c).map (·.slot)
  (q ++ (s.threadsOf c).map Prod.fst).eraseDups

/-- A command of this core has started and not completed, or stands in a formed group, which a flush leaves (R232, R302). -/
def State.coreActive (s : State) (c : Nat) : Bool :=
  (s.active.any fun e => e.2.entry.core == c) || !(s.core c).replay.isEmpty || (s.core c).group.isSome

/-- Save every thread of a core that has nothing in flight; those in flight are saved when they complete. Slot 63 is taken
between handlers only: a running handler goes on to its end (R169, R172, R302). -/
def State.saveCore (s : State) (p c : Nat) : State :=
  (s.saveOrder c).foldl (fun s sl =>
    match s.thread? c sl with
    | none => s
    | some t =>
      match t.state with
      | .leaving _ _ => s
      | .trapped _ =>
        let trap := s.unpopped c sl
        let r := s.reserveRecord p
        (r.2.dropRecord c sl).saveThread c sl r.1 false trap
      | .inflight _ => if t.after.isSome ∨ sl = 63 then s else s.swapOut p c sl
      | _ => if sl = 63 then s else s.swapOut p c sl) s

/-- Some thread of a core is still to be saved or told to leave. -/
def State.unsaved (s : State) (c : Nat) : Bool :=
  (s.threadsOf c).any fun e => match e.2.state with
    | .leaving _ _ => false
    | .trapped _ => true
    | .inflight _ => e.1 != 63 && e.2.after.isNone
    | _ => e.1 != 63

/-- Nothing of a moving core is in flight, nothing is on its way to it, and the message buffer takes what waits on it (R173). -/
def State.coreQuiet (s : State) (c : Nat) : Bool :=
  (s.threadsOf c).isEmpty && !s.coreActive c && (s.nwrites.all fun d => d.core != c) && (s.wakes.all fun d => d.core != c) &&
  (s.posts.all fun q => q.dest.core != c) && (s.messages.all fun m => m.target != c) && s.divertRoom c

/-- The unstarted commands of a core: those of the window come first, to enter a window afresh; the core's passing on is a flush
point for every command there is, so none of them is matched again (R232, R302, R303). -/
def Core.unstarted (k : Core) : Tab (List CmdEntry) :=
  let l := (k.window ++ tabGet k.cmds 0 []).map fun e => { e with literal := true }
  if l.isEmpty then k.cmds else tabSet k.cmds 0 l

/-- The core image of a core: every byte of its scratchpad, of which a zero is not listed (R303). -/
def State.imageOf (s : State) (p c : Nat) (x : Ctx) : Image :=
  let k := s.core c
  { core := c, steps := k.steps, counters := k.counters, terms := k.terms, tiles := k.tiles, rules := k.rules, landing := k.landing,
    deque := k.deque.filter fun d => d.part == p
    scratch := (List.range (k.steps * 0x10000)).filterMap fun i =>
      let b := s.homeByte (scratchHome + c * 2 ^ 20 + i)
      if b = 0 then none else some (i, b)
    cmds := k.unstarted, comps := k.comps, q7 := k.q7 ++ k.backlog, seqs := k.seqs, handlers := k.handlers,
    records := (x.saved.filter fun v => v.core == c).map (·.record), bad := false }

/-- The threads saved with a core, and the tasks among them, stand on another: off to the context area, or back from it. -/
def Ctx.seatSaved (x : Ctx) (records : List Nat) (c : Nat) : Ctx :=
  let mine := x.saved.filter fun v => records.contains v.record
  { x with
    saved := x.saved.map fun v => if records.contains v.record then { v with core := c } else v
    launches := x.launches.map fun e =>
      match mine.find? fun v => v.thread.launch == e.1 && e.2.site == some (v.core, v.slot) with
      | some v => (e.1, { e.2 with site := some (c, v.slot) })
      | none => e }

/-- An uncorrectable error stands in the scratchpad of a core. -/
def State.scratchBad (s : State) (c : Nat) : Bool := s.badWords.any fun k => k / 2 ^ 17 == c && decide (k % 2 ^ 17 < (s.core c).steps * 0x2000)
/-- The core passes on: its image is written, the threads saved with it go with the image, its waiting messages are diverted,
and the context is told (R173, R302, R303, R380). A scratch word that cannot be corrected is found as the image is written, and
the core is killed instead (R312). -/
def State.leaveCore (s : State) (p c : Nat) : State :=
  let s := s.drainPart p
  match s.ctx? p with
  | none => s.passCore c none
  | some x =>
    if s.scratchBad c then s.doomCore c (errorKill 1 true) else
    let m := s.imageOf p c x
    let x := { x with images := x.images ++ [m], diverted := x.diverted ++ (s.core c).arrivals }
    let s := s.setCtx p (x.seatSaved m.records awayCore)
    { (s.passCore c none).ownEvent p 6 c with dispatch := true }

/-- A core is due to be reclaimed for an admission (R369). -/
def State.reclaimDue (s : State) (c : Nat) : Bool := decide (0 < s.coresWanted) && s.lentCore == some c

/-- A step of a core's move that is due: the order, the saving of its threads, its leaving. -/
def State.mayMove (s : State) (c : Nat) : Bool :=
  if (s.core c).moving then (tabGet? s.doomed c).isNone && !s.coreActive c && (s.unsaved c || s.coreQuiet c) else s.reclaimDue c
/-- CORE_MOVE: on the Keystone's order; its started commands complete before its threads are saved (R302, R303). -/
def State.moveCore (s : State) (p c : Nat) : State :=
  if !(s.core c).moving then (s.flushCore c).modCore c fun k => { k with moving := true }
  else if s.unsaved c then s.saveCore p c
  else s.leaveCore p c
def execCoreMove (s : State) : Res :=
  .next (match (s.core s.arg.n).part with
    | some p => if s.mayMove s.arg.n then s.moveCore p s.arg.n else s
    | none => s)

/-! ### Lending (R369) -/

/-- A context that may borrow a core now: a burstable one below its stated cores, or a best-effort one whose work waits (R369). -/
def State.mayBorrow (s : State) (p : Nat) (x : Ctx) : Bool :=
  let waits := x.launches.any (fun e => decide (e.2.state < 3)) || !x.images.isEmpty
  x.ending.isNone && decide ((s.coresOf p).length < x.cores) && (x.cls == 1 || (x.cls == 2 && waits && !s.dispatch))
/-- The oldest of the contexts of a class that may borrow. -/
def State.oldestBorrower (s : State) (cls : Nat) : Option (Nat × Ctx) :=
  (s.ctxs.filter fun e => e.2.cls == cls && s.mayBorrow e.1 e.2).foldl (fun (acc : Option (Nat × Ctx)) e =>
    match acc with
    | some a => if e.2.age < a.2.age then some e else acc
    | none => some e) none
/-- The core that is lent next, and the partition that borrows it: burstable contexts first. -/
def State.nextLoan (s : State) : Option (Nat × Nat) :=
  if 0 < s.coresWanted ∨ s.keystone.pending.any fun q => q.granted then none
  else match s.freeCores.head?, (match s.oldestBorrower 1 with | some e => some e | none => s.oldestBorrower 2) with
    | some c, some e => some (c, e.1)
    | _, _ => none

/-- An image that fails its CRC-32C is not restored: every thread saved with it is lost, and its strands with it (R171, R303). -/
def State.dropImage (s : State) (p : Nat) (m : Image) : State :=
  let s := m.records.foldl (fun s r => s.loseSaved p r) (s.modCtx p fun x => { x with deliveries := x.deliveries.filter fun d => d.1 / 2 ^ 20 != m.core })
  m.deque.foldl (fun s d => s.unitEnd p d.launch 0x0E 0 none) s

/-- The messages for a core's part of the context follow its image (R173; log 101). -/
def Ctx.follow (x : Ctx) (old new : Nat) : Ctx :=
  { x with
    diverted := x.diverted.map fun d => if d.target = old then { d with target := new } else d
    moved := if old = new then x.moved else tabSet (x.moved.map fun e => if e.2 = old then (e.1, new) else e) old new }

/-- Channel entries in the message buffer go into the queues of the consumers that are back (R173). -/
def Ctx.replayEntries (x : Ctx) : Ctx :=
  { x with chans := x.chans.map fun e => if x.chanAway e.2 then e else (e.1, { e.2 with diverted := 0 }) }
/-- Route deliveries to a core's scratchpad, in their order, as its image is restored on core c (R173). -/
def State.replayDeliveries (s : State) (p old c : Nat) : State :=
  match s.ctx? p with
  | none => s
  | some x =>
    let mine := x.deliveries.filter fun d => d.1 / 2 ^ 20 == old
    mine.foldl (fun s d => s.applyWrites (((List.range d.2.length).map fun i => scratchHome + c * 2 ^ 20 + d.1 % 2 ^ 20 + i).zip d.2))
      (s.setCtx p { x with deliveries := x.deliveries.filter fun d => d.1 / 2 ^ 20 != old })

/-- An image is restored onto a core before any thread or command of the context runs there: every byte of the scratchpad, and then what
was diverted; the threads saved with it stand there from now on, and those that the move saved return together (R172, R173, R303). Where
the windows of two of them share an entry, the older record is restored first and its contents stand: a DESIGN CHOICE, the spec gives no
order (log 97). -/
def State.restoreImage (s : State) (p c : Nat) (m : Image) : State :=
  let here (e : CmdEntry) : CmdEntry := { e with core := c, since := s.cycle }
  let s := s.setSteps c m.steps
  let s := s.applyWrites ((List.range (m.steps * 0x10000)).map fun i => (scratchHome + c * 2 ^ 20 + i, tabGet m.scratch i 0))
  let s := s.modCore c fun k =>
    { k with counters := m.counters, terms := m.terms, tiles := m.tiles, rules := m.rules, landing := m.landing, seqs := m.seqs
             deque := m.deque.map fun d => if d.core = m.core then { d with core := c } else d
             cmds := m.cmds.map fun q => (q.1, q.2.map here)
             comps := m.comps, q7 := m.q7.take 16, backlog := m.q7.drop 16, handlers := m.handlers
             reserved := (m.cmds.filter fun q => !q.2.isEmpty).map fun q => (q.1 + 1, q.2.length) }
  let s := (s.modCtx p fun x => ((x.seatSaved m.records c).follow m.core c).replayEntries).replayDeliveries p m.core c
  let mine : List Saved := match s.ctx? p with
    | some x => x.saved.filter fun v => m.records.contains v.record && v.moved && !v.asked
    | none => []
  mine.foldl (fun s v => if (s.thread? c v.slot).isNone then s.restoreThread p v c v.slot else s) s

/-- A free core passes to a context, with its oldest image if it has one (R302, R303, R380). -/
def State.lendCore (s : State) (c p : Nat) : State :=
  let s := s.passCore c (some p)
  let s := match s.ctx? p with
    | none => s
    | some x => match x.images with
      | [] => s
      | m :: rest =>
        let s := s.setCtx p { x with images := rest, moved := tabErase x.moved c }
        if m.bad then s.dropImage p m else s.restoreImage p c m
  { s.ownEvent p 7 c with dispatch := true }
/-- CORE_LEND (R369). -/
def execCoreLend (s : State) : Res :=
  .next (if s.nextLoan = some (s.arg.n, s.arg.m) then s.lendCore s.arg.n s.arg.m else s)

end Sys2Proof.Machine
end

