-- ==== Sys2Proof/Machine/Dispatch.lean ====
section
/-! DEFINITION. What each constructor of Instr does: one arm each, every arm one call of a meaning. -/
namespace Sys2Proof.Machine


def exec (i : Instr) (s : State) : Host.Outcome State Fault Refusal :=
  match i with
  | .add rd ra rb ta tb => Sys2Proof.Machine.execAdd rd ra rb ta tb s
  | .sub rd ra rb ta tb => Sys2Proof.Machine.execSub rd ra rb ta tb s
  | .and rd ra rb ta tb => Sys2Proof.Machine.execAnd rd ra rb ta tb s
  | .or rd ra rb ta tb => Sys2Proof.Machine.execOr rd ra rb ta tb s
  | .xor rd ra rb ta tb => Sys2Proof.Machine.execXor rd ra rb ta tb s
  | .shl rd ra rb ta tb => Sys2Proof.Machine.execShl rd ra rb ta tb s
  | .shr rd ra rb ta tb => Sys2Proof.Machine.execShr rd ra rb ta tb s
  | .sra rd ra rb ta tb => Sys2Proof.Machine.execSra rd ra rb ta tb s
  | .mul rd ra rb ta tb => Sys2Proof.Machine.execMul rd ra rb ta tb s
  | .mulh rd ra rb ta tb => Sys2Proof.Machine.execMulh rd ra rb ta tb s
  | .mulhu rd ra rb ta tb => Sys2Proof.Machine.execMulhu rd ra rb ta tb s
  | .div rd ra rb ta tb => Sys2Proof.Machine.execDiv rd ra rb ta tb s
  | .divu rd ra rb ta tb => Sys2Proof.Machine.execDivu rd ra rb ta tb s
  | .rem rd ra rb ta tb => Sys2Proof.Machine.execRem rd ra rb ta tb s
  | .remu rd ra rb ta tb => Sys2Proof.Machine.execRemu rd ra rb ta tb s
  | .min rd ra rb ta tb => Sys2Proof.Machine.execMin rd ra rb ta tb s
  | .max rd ra rb ta tb => Sys2Proof.Machine.execMax rd ra rb ta tb s
  | .minu rd ra rb ta tb => Sys2Proof.Machine.execMinu rd ra rb ta tb s
  | .maxu rd ra rb ta tb => Sys2Proof.Machine.execMaxu rd ra rb ta tb s
  | .slt rd ra rb ta tb => Sys2Proof.Machine.execSlt rd ra rb ta tb s
  | .sltu rd ra rb ta tb => Sys2Proof.Machine.execSltu rd ra rb ta tb s
  | .seq rd ra rb ta tb => Sys2Proof.Machine.execSeq rd ra rb ta tb s
  | .sne rd ra rb ta tb => Sys2Proof.Machine.execSne rd ra rb ta tb s
  | .clz rd ra ta => Sys2Proof.Machine.execClz rd ra ta s
  | .popc rd ra ta => Sys2Proof.Machine.execPopc rd ra ta s
  | .rev rd ra ta => Sys2Proof.Machine.execRev rd ra ta s
  | .sextB rd ra ta => Sys2Proof.Machine.execSextB rd ra ta s
  | .sextH rd ra ta => Sys2Proof.Machine.execSextH rd ra ta s
  | .sextW rd ra ta => Sys2Proof.Machine.execSextW rd ra ta s
  | .zextW rd ra ta => Sys2Proof.Machine.execZextW rd ra ta s
  | .addi rd ra ta imm => Sys2Proof.Machine.execAddi rd ra ta imm s
  | .andi rd ra ta imm => Sys2Proof.Machine.execAndi rd ra ta imm s
  | .ori rd ra ta imm => Sys2Proof.Machine.execOri rd ra ta imm s
  | .xori rd ra ta imm => Sys2Proof.Machine.execXori rd ra ta imm s
  | .shli rd ra ta imm => Sys2Proof.Machine.execShli rd ra ta imm s
  | .shri rd ra ta imm => Sys2Proof.Machine.execShri rd ra ta imm s
  | .srai rd ra ta imm => Sys2Proof.Machine.execSrai rd ra ta imm s
  | .slti rd ra ta imm => Sys2Proof.Machine.execSlti rd ra ta imm s
  | .movi rd imm => Sys2Proof.Machine.execMovi rd imm s
  | .ldpc rd imm => Sys2Proof.Machine.execLdpc rd imm s
  | .lea rd ra rb sh ta tb => Sys2Proof.Machine.execLea rd ra rb sh ta tb s
  | .sel rd ra rb rc => Sys2Proof.Machine.execSel rd ra rb rc s
  | .faddF32 rd ra rb ta tb => Sys2Proof.Machine.execFaddF32 rd ra rb ta tb s
  | .fsubF32 rd ra rb ta tb => Sys2Proof.Machine.execFsubF32 rd ra rb ta tb s
  | .fmulF32 rd ra rb ta tb => Sys2Proof.Machine.execFmulF32 rd ra rb ta tb s
  | .fdivF32 rd ra rb ta tb => Sys2Proof.Machine.execFdivF32 rd ra rb ta tb s
  | .fminF32 rd ra rb ta tb => Sys2Proof.Machine.execFminF32 rd ra rb ta tb s
  | .fmaxF32 rd ra rb ta tb => Sys2Proof.Machine.execFmaxF32 rd ra rb ta tb s
  | .fsqrtF32 rd ra ta => Sys2Proof.Machine.execFsqrtF32 rd ra ta s
  | .faddF64 rd ra rb ta tb => Sys2Proof.Machine.execFaddF64 rd ra rb ta tb s
  | .fsubF64 rd ra rb ta tb => Sys2Proof.Machine.execFsubF64 rd ra rb ta tb s
  | .fmulF64 rd ra rb ta tb => Sys2Proof.Machine.execFmulF64 rd ra rb ta tb s
  | .fdivF64 rd ra rb ta tb => Sys2Proof.Machine.execFdivF64 rd ra rb ta tb s
  | .fminF64 rd ra rb ta tb => Sys2Proof.Machine.execFminF64 rd ra rb ta tb s
  | .fmaxF64 rd ra rb ta tb => Sys2Proof.Machine.execFmaxF64 rd ra rb ta tb s
  | .fsqrtF64 rd ra ta => Sys2Proof.Machine.execFsqrtF64 rd ra ta s
  | .ffmaF32 rd ra rb rc => Sys2Proof.Machine.execFfmaF32 rd ra rb rc s
  | .ffmaF64 rd ra rb rc => Sys2Proof.Machine.execFfmaF64 rd ra rb rc s
  | .feqF32 rd ra rb ta tb => Sys2Proof.Machine.execFeqF32 rd ra rb ta tb s
  | .fltF32 rd ra rb ta tb => Sys2Proof.Machine.execFltF32 rd ra rb ta tb s
  | .fleF32 rd ra rb ta tb => Sys2Proof.Machine.execFleF32 rd ra rb ta tb s
  | .funF32 rd ra rb ta tb => Sys2Proof.Machine.execFunF32 rd ra rb ta tb s
  | .feqF64 rd ra rb ta tb => Sys2Proof.Machine.execFeqF64 rd ra rb ta tb s
  | .fltF64 rd ra rb ta tb => Sys2Proof.Machine.execFltF64 rd ra rb ta tb s
  | .fleF64 rd ra rb ta tb => Sys2Proof.Machine.execFleF64 rd ra rb ta tb s
  | .funF64 rd ra rb ta tb => Sys2Proof.Machine.execFunF64 rd ra rb ta tb s
  | .fcvtF64F32 rd ra mode ta => Sys2Proof.Machine.execFcvtF64F32 rd ra mode ta s
  | .fcvtF32F64 rd ra mode ta => Sys2Proof.Machine.execFcvtF32F64 rd ra mode ta s
  | .fcvtI64F32 rd ra mode ta => Sys2Proof.Machine.execFcvtI64F32 rd ra mode ta s
  | .fcvtU64F32 rd ra mode ta => Sys2Proof.Machine.execFcvtU64F32 rd ra mode ta s
  | .fcvtI64F64 rd ra mode ta => Sys2Proof.Machine.execFcvtI64F64 rd ra mode ta s
  | .fcvtU64F64 rd ra mode ta => Sys2Proof.Machine.execFcvtU64F64 rd ra mode ta s
  | .fcvtF32I64 rd ra mode ta => Sys2Proof.Machine.execFcvtF32I64 rd ra mode ta s
  | .fcvtF32U64 rd ra mode ta => Sys2Proof.Machine.execFcvtF32U64 rd ra mode ta s
  | .fcvtF64I64 rd ra mode ta => Sys2Proof.Machine.execFcvtF64I64 rd ra mode ta s
  | .fcvtF64U64 rd ra mode ta => Sys2Proof.Machine.execFcvtF64U64 rd ra mode ta s
  | .fcvtI32F32 rd ra mode ta => Sys2Proof.Machine.execFcvtI32F32 rd ra mode ta s
  | .fcvtI32F64 rd ra mode ta => Sys2Proof.Machine.execFcvtI32F64 rd ra mode ta s
  | .fcvtBf16F32 rd ra mode ta => Sys2Proof.Machine.execFcvtBf16F32 rd ra mode ta s
  | .fcvtF32Bf16 rd ra mode ta => Sys2Proof.Machine.execFcvtF32Bf16 rd ra mode ta s
  | .fclassF32 rd ra ta => Sys2Proof.Machine.execFclassF32 rd ra ta s
  | .fclassF64 rd ra ta => Sys2Proof.Machine.execFclassF64 rd ra ta s
  | .bcEqz ra ta n => Sys2Proof.Machine.execBcEqz ra ta n s
  | .bcNez ra ta n => Sys2Proof.Machine.execBcNez ra ta n s
  | .bcLtz ra ta n => Sys2Proof.Machine.execBcLtz ra ta n s
  | .bcGez ra ta n => Sys2Proof.Machine.execBcGez ra ta n s
  | .bcGtz ra ta n => Sys2Proof.Machine.execBcGtz ra ta n s
  | .bcLez ra ta n => Sys2Proof.Machine.execBcLez ra ta n s
  | .bcFull ra n => Sys2Proof.Machine.execBcFull ra n s
  | .bcEmpty ra n => Sys2Proof.Machine.execBcEmpty ra n s
  | .j n => Sys2Proof.Machine.execJ n s
  | .call n => Sys2Proof.Machine.execCall n s
  | .jr ra ta => Sys2Proof.Machine.execJr ra ta s
  | .callr ra ta => Sys2Proof.Machine.execCallr ra ta s
  | .loop ra stop level => Sys2Proof.Machine.execLoop ra stop level s
  | .fork ra ta n => Sys2Proof.Machine.execFork ra ta n s
  | .join ra ta => Sys2Proof.Machine.execJoin ra ta s
  | .couple rd ra ta => Sys2Proof.Machine.execCouple rd ra ta s
  | .gangid rd => Sys2Proof.Machine.execGangid rd s
  | .ld rd ra sz p ta off => Sys2Proof.Machine.execLd rd ra sz p ta off s
  | .ldx rd ra sz p ta off => Sys2Proof.Machine.execLdx rd ra sz p ta off s
  | .ldAcq rd ra sz p ta off => Sys2Proof.Machine.execLdAcq rd ra sz p ta off s
  | .st rs ra sz p ta off => Sys2Proof.Machine.execSt rs ra sz p ta off s
  | .stRel rs ra sz p ta off => Sys2Proof.Machine.execStRel rs ra sz p ta off s
  | .vld rd ra p ta off => Sys2Proof.Machine.execVld rd ra p ta off s
  | .vst rs ra p ta off => Sys2Proof.Machine.execVst rs ra p ta off s
  | .vlds rd ra rb ta tb => Sys2Proof.Machine.execVlds rd ra rb ta tb s
  | .vgath rd ra rb sh ta tb => Sys2Proof.Machine.execVgath rd ra rb sh ta tb s
  | .vscat rs ra rb sh ta tb => Sys2Proof.Machine.execVscat rs ra rb sh ta tb s
  | .pref ra p ta off => Sys2Proof.Machine.execPref ra p ta off s
  | .fenceRw p => Sys2Proof.Machine.execFenceRw p s
  | .fenceAcq p => Sys2Proof.Machine.execFenceAcq p s
  | .fenceRel p => Sys2Proof.Machine.execFenceRel p s
  | .fenceSs p => Sys2Proof.Machine.execFenceSs p s
  | .amoAdd rd ra rb ta tb => Sys2Proof.Machine.execAmoAdd rd ra rb ta tb s
  | .amoAnd rd ra rb ta tb => Sys2Proof.Machine.execAmoAnd rd ra rb ta tb s
  | .amoOr rd ra rb ta tb => Sys2Proof.Machine.execAmoOr rd ra rb ta tb s
  | .amoXor rd ra rb ta tb => Sys2Proof.Machine.execAmoXor rd ra rb ta tb s
  | .amoMin rd ra rb ta tb => Sys2Proof.Machine.execAmoMin rd ra rb ta tb s
  | .amoMax rd ra rb ta tb => Sys2Proof.Machine.execAmoMax rd ra rb ta tb s
  | .amoSwp rd ra rb ta tb => Sys2Proof.Machine.execAmoSwp rd ra rb ta tb s
  | .cas rd ra rb rc => Sys2Proof.Machine.execCas rd ra rb rc s
  | .vaddI32 rd ra rb ta tb => Sys2Proof.Machine.execVaddI32 rd ra rb ta tb s
  | .vsubI32 rd ra rb ta tb => Sys2Proof.Machine.execVsubI32 rd ra rb ta tb s
  | .vand rd ra rb ta tb => Sys2Proof.Machine.execVand rd ra rb ta tb s
  | .vor rd ra rb ta tb => Sys2Proof.Machine.execVor rd ra rb ta tb s
  | .vxor rd ra rb ta tb => Sys2Proof.Machine.execVxor rd ra rb ta tb s
  | .vshl rd ra rb ta tb => Sys2Proof.Machine.execVshl rd ra rb ta tb s
  | .vshr rd ra rb ta tb => Sys2Proof.Machine.execVshr rd ra rb ta tb s
  | .vsra rd ra rb ta tb => Sys2Proof.Machine.execVsra rd ra rb ta tb s
  | .vaddF32 rd ra rb ta tb => Sys2Proof.Machine.execVaddF32 rd ra rb ta tb s
  | .vsubF32 rd ra rb ta tb => Sys2Proof.Machine.execVsubF32 rd ra rb ta tb s
  | .vmulF32 rd ra rb ta tb => Sys2Proof.Machine.execVmulF32 rd ra rb ta tb s
  | .vminF32 rd ra rb ta tb => Sys2Proof.Machine.execVminF32 rd ra rb ta tb s
  | .vmaxF32 rd ra rb ta tb => Sys2Proof.Machine.execVmaxF32 rd ra rb ta tb s
  | .vmulI32 rd ra rb ta tb => Sys2Proof.Machine.execVmulI32 rd ra rb ta tb s
  | .vminI32 rd ra rb ta tb => Sys2Proof.Machine.execVminI32 rd ra rb ta tb s
  | .vmaxI32 rd ra rb ta tb => Sys2Proof.Machine.execVmaxI32 rd ra rb ta tb s
  | .vfmaF32 rd ra rb rc => Sys2Proof.Machine.execVfmaF32 rd ra rb rc s
  | .vcmpEqI32 rd ra rb ta tb => Sys2Proof.Machine.execVcmpEqI32 rd ra rb ta tb s
  | .vcmpLtI32 rd ra rb ta tb => Sys2Proof.Machine.execVcmpLtI32 rd ra rb ta tb s
  | .vcmpLtuI32 rd ra rb ta tb => Sys2Proof.Machine.execVcmpLtuI32 rd ra rb ta tb s
  | .vcmpEqF32 rd ra rb ta tb => Sys2Proof.Machine.execVcmpEqF32 rd ra rb ta tb s
  | .vcmpLtF32 rd ra rb ta tb => Sys2Proof.Machine.execVcmpLtF32 rd ra rb ta tb s
  | .vcmpLeF32 rd ra rb ta tb => Sys2Proof.Machine.execVcmpLeF32 rd ra rb ta tb s
  | .vcmpUnF32 rd ra rb ta tb => Sys2Proof.Machine.execVcmpUnF32 rd ra rb ta tb s
  | .vsel rd ra rb rc => Sys2Proof.Machine.execVsel rd ra rb rc s
  | .vredAddI32 rd ra ta => Sys2Proof.Machine.execVredAddI32 rd ra ta s
  | .vredAddF32 rd ra ta => Sys2Proof.Machine.execVredAddF32 rd ra ta s
  | .vredMaxF32 rd ra ta => Sys2Proof.Machine.execVredMaxF32 rd ra ta s
  | .vredMinF32 rd ra ta => Sys2Proof.Machine.execVredMinF32 rd ra ta s
  | .vredMaxI32 rd ra ta => Sys2Proof.Machine.execVredMaxI32 rd ra ta s
  | .vredMinI32 rd ra ta => Sys2Proof.Machine.execVredMinI32 rd ra ta s
  | .vredOr rd ra ta => Sys2Proof.Machine.execVredOr rd ra ta s
  | .vredAnd rd ra ta => Sys2Proof.Machine.execVredAnd rd ra ta s
  | .vperm rd ra rb ta tb => Sys2Proof.Machine.execVperm rd ra rb ta tb s
  | .vbcast rd ra ta => Sys2Proof.Machine.execVbcast rd ra ta s
  | .vins rd ra rb ta tb => Sys2Proof.Machine.execVins rd ra rb ta tb s
  | .vext rd ra rb ta tb => Sys2Proof.Machine.execVext rd ra rb ta tb s
  | .vrcpF32 rd ra ta => Sys2Proof.Machine.execVrcpF32 rd ra ta s
  | .vrsqF32 rd ra ta => Sys2Proof.Machine.execVrsqF32 rd ra ta s
  | .vexp2F32 rd ra ta => Sys2Proof.Machine.execVexp2F32 rd ra ta s
  | .vlog2F32 rd ra ta => Sys2Proof.Machine.execVlog2F32 rd ra ta s
  | .vpackBf16 rd ra rb ta tb => Sys2Proof.Machine.execVpackBf16 rd ra rb ta tb s
  | .vunpackBf16 rd ra rb ta tb => Sys2Proof.Machine.execVunpackBf16 rd ra rb ta tb s
  | .vzmask rd ra ta => Sys2Proof.Machine.execVzmask rd ra ta s
  | .qpush q rd wc ws tb => Sys2Proof.Machine.execQpush q rd wc ws tb s
  | .qpop q rd => Sys2Proof.Machine.execQpop q rd s
  | .qpopStatus q rd ws => Sys2Proof.Machine.execQpopStatus q rd ws s
  | .qpopTrap q rd => Sys2Proof.Machine.execQpopTrap q rd s
  | .qpopTrapStatus q rd ws => Sys2Proof.Machine.execQpopTrapStatus q rd ws s
  | .qtest q rd => Sys2Proof.Machine.execQtest q rd s
  | .evtTerm n ra ta => Sys2Proof.Machine.execEvtTerm n ra ta s
  | .evtCnt n ra rb ta tb => Sys2Proof.Machine.execEvtCnt n ra rb ta tb s
  | .evtArm n ra ta => Sys2Proof.Machine.execEvtArm n ra ta s
  | .evtRead n rd => Sys2Proof.Machine.execEvtRead n rd s
  | .evtWait n => Sys2Proof.Machine.execEvtWait n s
  | .sysGet rd aux => Sys2Proof.Machine.execSysGet rd aux s
  | .sysSet ra aux => Sys2Proof.Machine.execSysSet ra aux s
  | .time rd => Sys2Proof.Machine.execTime rd s
  | .trap ra aux => Sys2Proof.Machine.execTrap ra aux s
  | .thrStart rd ra => Sys2Proof.Machine.execThrStart rd ra s
  | .thrStop rd ra => Sys2Proof.Machine.execThrStop rd ra s
  | .thrResume rd ra => Sys2Proof.Machine.execThrResume rd ra s
  | .thrResumeNext rd ra => Sys2Proof.Machine.execThrResumeNext rd ra s
  | .thrSwap rd ra => Sys2Proof.Machine.execThrSwap rd ra s
  | .thrSwapIn rd ra => Sys2Proof.Machine.execThrSwapIn rd ra s
  | .nwrite rd ra => Sys2Proof.Machine.execNwrite rd ra s
  | .arriveClu rd ra => Sys2Proof.Machine.execArriveClu rd ra s
  | .arriveDeck rd ra => Sys2Proof.Machine.execArriveDeck rd ra s
  | .arriveDev rd ra => Sys2Proof.Machine.execArriveDev rd ra s
  | .wait ra => Sys2Proof.Machine.execWait ra s
  | .wake rd ra => Sys2Proof.Machine.execWake rd ra s
  | .nwaitNbr rd => Sys2Proof.Machine.execNwaitNbr rd s
  | .nwaitNtf rd => Sys2Proof.Machine.execNwaitNtf rd s
  | .sample ra => Sys2Proof.Machine.execSample ra s
  | .launch rd ra => Sys2Proof.Machine.execLaunch rd ra s
  | .launchWait rd ra => Sys2Proof.Machine.execLaunchWait rd ra s
  | .launchQuery rd ra => Sys2Proof.Machine.execLaunchQuery rd ra s
  | .launchAge rd ra => Sys2Proof.Machine.execLaunchAge rd ra s
  | .cancelLaunch rd ra => Sys2Proof.Machine.execCancelLaunch rd ra s
  | .cancelGraph rd ra => Sys2Proof.Machine.execCancelGraph rd ra s
  | .cancelPhase rd ra => Sys2Proof.Machine.execCancelPhase rd ra s
  | .cancelJob rd ra => Sys2Proof.Machine.execCancelJob rd ra s
  | .cancelGraphRewind rd ra => Sys2Proof.Machine.execCancelGraphRewind rd ra s
  | .round rd ra n => Sys2Proof.Machine.execRound rd ra n s
  | .park rd ra => Sys2Proof.Machine.execPark rd ra s
  | .memMap rd ra attr p => Sys2Proof.Machine.execMemMap rd ra attr p s
  | .memMapAlias rd ra attr p => Sys2Proof.Machine.execMemMapAlias rd ra attr p s
  | .memMapRemote rd ra attr p => Sys2Proof.Machine.execMemMapRemote rd ra attr p s
  | .memUnmap rd ra => Sys2Proof.Machine.execMemUnmap rd ra s
  | .memAttr rd ra attr p => Sys2Proof.Machine.execMemAttr rd ra attr p s
  | .qfence q => Sys2Proof.Machine.execQfence q s
  | .rwtLoad rd ra => Sys2Proof.Machine.execRwtLoad rd ra s
  | .rwtCtl rd ra => Sys2Proof.Machine.execRwtCtl rd ra s
  | .rwtCtlGet rd => Sys2Proof.Machine.execRwtCtlGet rd s
  | .sbind rd ra n => Sys2Proof.Machine.execSbind rd ra n s
  | .snext rd n => Sys2Proof.Machine.execSnext rd n s
  | .snextStatus rd ws n => Sys2Proof.Machine.execSnextStatus rd ws n s
  | .sdone rd n => Sys2Proof.Machine.execSdone rd n s
  | .amSend rd ra => Sys2Proof.Machine.execAmSend rd ra s
  | .amHandler rd ra => Sys2Proof.Machine.execAmHandler rd ra s
  | .lnkStatus rd ra => Sys2Proof.Machine.execLnkStatus rd ra s
  | .wrtPresent rd ra => Sys2Proof.Machine.execWrtPresent rd ra s
  | .wrtPresentToken rd ra => Sys2Proof.Machine.execWrtPresentToken rd ra s
  | .wrtPresentRevoke rd ra => Sys2Proof.Machine.execWrtPresentRevoke rd ra s
  | .wrtSplit rd ra => Sys2Proof.Machine.execWrtSplit rd ra s
  | .wrtDelegate rd ra => Sys2Proof.Machine.execWrtDelegate rd ra s
  | .wrtSurrender rd ra => Sys2Proof.Machine.execWrtSurrender rd ra s
  | .wrtQuery rd ra n => Sys2Proof.Machine.execWrtQuery rd ra n s
  | .codeAdmit rd ra => Sys2Proof.Machine.execCodeAdmit rd ra s
  | .attest rd ra => Sys2Proof.Machine.execAttest rd ra s
  | .once w => Sys2Proof.Machine.execOnce w s
  | .ret => Sys2Proof.Machine.execRet s
  | .ends => Sys2Proof.Machine.execEnds s
  | .split => Sys2Proof.Machine.execSplit s
  | .nop => Sys2Proof.Machine.execNop s
  | .thrStopSelf => Sys2Proof.Machine.execThrStopSelf s
  | .thrYield => Sys2Proof.Machine.execThrYield s
  | .accZero => Sys2Proof.Machine.execAccZero s
  | .accLoad => Sys2Proof.Machine.execAccLoad s
  | .accStore => Sys2Proof.Machine.execAccStore s
  | .mmaE4m3E4m3 => Sys2Proof.Machine.execMmaE4m3E4m3 s
  | .mmaE4m3E5m2 => Sys2Proof.Machine.execMmaE4m3E5m2 s
  | .mmaE5m2E4m3 => Sys2Proof.Machine.execMmaE5m2E4m3 s
  | .mmaEc8Ec8 => Sys2Proof.Machine.execMmaEc8Ec8 s
  | .mmaEc8E4m3 => Sys2Proof.Machine.execMmaEc8E4m3 s
  | .mmaBf16Bf16 => Sys2Proof.Machine.execMmaBf16Bf16 s
  | .mmaF32F32 => Sys2Proof.Machine.execMmaF32F32 s
  | .mmaI8I8 => Sys2Proof.Machine.execMmaI8I8 s
  | .mmaSpE4m3E4m3 => Sys2Proof.Machine.execMmaSpE4m3E4m3 s
  | .mmaSpBf16Bf16 => Sys2Proof.Machine.execMmaSpBf16Bf16 s
  | .nestEw => Sys2Proof.Machine.execNestEw s
  | .nestRed => Sys2Proof.Machine.execNestRed s
  | .transpose => Sys2Proof.Machine.execTranspose s
  | .scale => Sys2Proof.Machine.execScale s
  | .enc8 => Sys2Proof.Machine.execEnc8 s
  | .dec8 => Sys2Proof.Machine.execDec8 s
  | .compress => Sys2Proof.Machine.execCompress s
  | .teMark => Sys2Proof.Machine.execTeMark s
  | .copy => Sys2Proof.Machine.execCopy s
  | .copy2d => Sys2Proof.Machine.execCopy2d s
  | .copy3d => Sys2Proof.Machine.execCopy3d s
  | .copyGather => Sys2Proof.Machine.execCopyGather s
  | .fill => Sys2Proof.Machine.execFill s
  | .schedLoad => Sys2Proof.Machine.execSchedLoad s
  | .rteList => Sys2Proof.Machine.execRteList s
  | .rteDispatch => Sys2Proof.Machine.execRteDispatch s
  | .rteCombine => Sys2Proof.Machine.execRteCombine s
  | .collAllred => Sys2Proof.Machine.execCollAllred s
  | .collAllgath => Sys2Proof.Machine.execCollAllgath s
  | .collRedscat => Sys2Proof.Machine.execCollRedscat s
  | .collBcast => Sys2Proof.Machine.execCollBcast s
  | .instructionCompletion => Sys2Proof.Machine.execInstructionCompletion s
  | .longLatencyArrival => Sys2Proof.Machine.execLongLatencyArrival s
  | .oncePostLanding => Sys2Proof.Machine.execOncePostLanding s
  | .storeVisible => Sys2Proof.Machine.execStoreVisible s
  | .trapRecordEnqueue => Sys2Proof.Machine.execTrapRecordEnqueue s
  | .coupleTimeout => Sys2Proof.Machine.execCoupleTimeout s
  | .strandSteal => Sys2Proof.Machine.execStrandSteal s
  | .nwriteLanding => Sys2Proof.Machine.execNwriteLanding s
  | .wakeDelivery => Sys2Proof.Machine.execWakeDelivery s
  | .expiryNotice => Sys2Proof.Machine.execExpiryNotice s
  | .preemptSwapOut => Sys2Proof.Machine.execPreemptSwapOut s
  | .threadRestore => Sys2Proof.Machine.execThreadRestore s
  | .divertedMessageReplay => Sys2Proof.Machine.execDivertedMessageReplay s
  | .commandCompletionCopy => Sys2Proof.Machine.execCommandCompletionCopy s
  | .commandCompletionTile => Sys2Proof.Machine.execCommandCompletionTile s
  | .commandCompletionRoute => Sys2Proof.Machine.execCommandCompletionRoute s
  | .rewriteWindowEntry => Sys2Proof.Machine.execRewriteWindowEntry s
  | .rewriteHeadRelease => Sys2Proof.Machine.execRewriteHeadRelease s
  | .rewriteGroupCommit => Sys2Proof.Machine.execRewriteGroupCommit s
  | .rewriteGroupReplay => Sys2Proof.Machine.execRewriteGroupReplay s
  | .dispatcherDecision => Sys2Proof.Machine.execDispatcherDecision s
  | .headAgeLimit => Sys2Proof.Machine.execHeadAgeLimit s
  | .endOfStreamAppend => Sys2Proof.Machine.execEndOfStreamAppend s
  | .coreMove => Sys2Proof.Machine.execCoreMove s
  | .coreLend => Sys2Proof.Machine.execCoreLend s
  | .q7BacklogDelivery => Sys2Proof.Machine.execQ7BacklogDelivery s
  | .corrected => Sys2Proof.Machine.execCorrected s
  | .deckFence => Sys2Proof.Machine.execDeckFence s
  | .injectionFire => Sys2Proof.Machine.execInjectionFire s
  | .l2WriteBack => Sys2Proof.Machine.execL2WriteBack s
  | .amArrival => Sys2Proof.Machine.execAmArrival s
  | .amHandlerStart => Sys2Proof.Machine.execAmHandlerStart s
  | .collectiveTimeout => Sys2Proof.Machine.execCollectiveTimeout s
  | .dataFlitReceive => Sys2Proof.Machine.execDataFlitReceive s
  | .nakReceive => Sys2Proof.Machine.execNakReceive s
  | .replayTimeout => Sys2Proof.Machine.execReplayTimeout s
  | .keySwitchStart => Sys2Proof.Machine.execKeySwitchStart s
  | .keySwitchMarkerReceive => Sys2Proof.Machine.execKeySwitchMarkerReceive s
  | .oldKeySlotClose => Sys2Proof.Machine.execOldKeySlotClose s
  | .idleFlitReceive => Sys2Proof.Machine.execIdleFlitReceive s
  | .timeFlitSend => Sys2Proof.Machine.execTimeFlitSend s
  | .timeFlitReceive => Sys2Proof.Machine.execTimeFlitReceive s
  | .ptpMessageReceive => Sys2Proof.Machine.execPtpMessageReceive s
  | .arbiterClaim => Sys2Proof.Machine.execArbiterClaim s
  | .arbiterReplyTimeout => Sys2Proof.Machine.execArbiterReplyTimeout s
  | .spentEntryExpiry => Sys2Proof.Machine.execSpentEntryExpiry s
  | .timeBeaconEthernet => Sys2Proof.Machine.execTimeBeaconEthernet s
  | .beaconTimeout => Sys2Proof.Machine.execBeaconTimeout s
  | .highWaterUpdate => Sys2Proof.Machine.execHighWaterUpdate s
  | .contextExpiry => Sys2Proof.Machine.execContextExpiry s
  | .tokenLapsed => Sys2Proof.Machine.execTokenLapsed s
  | .handoverHoldExpiry => Sys2Proof.Machine.execHandoverHoldExpiry s
  | .handoverRelease => Sys2Proof.Machine.execHandoverRelease s
  | .hotPatchDoorbell => Sys2Proof.Machine.execHotPatchDoorbell s
  | .patchBusy => Sys2Proof.Machine.execPatchBusy s
  | .applyDoorbell => Sys2Proof.Machine.execApplyDoorbell s
  | .admissionDoorbellWarrant => Sys2Proof.Machine.execAdmissionDoorbellWarrant s
  | .admissionDoorbellToken => Sys2Proof.Machine.execAdmissionDoorbellToken s
  | .admissionDoorbellRevocation => Sys2Proof.Machine.execAdmissionDoorbellRevocation s
  | .admissionDoorbellBeacon => Sys2Proof.Machine.execAdmissionDoorbellBeacon s
  | .hostLaunchRecord => Sys2Proof.Machine.execHostLaunchRecord s
  | .hostPartitionRead => Sys2Proof.Machine.execHostPartitionRead s
  | .hostPartitionWrite => Sys2Proof.Machine.execHostPartitionWrite s
  | .registerWrite => Sys2Proof.Machine.execRegisterWrite s
  | .sagePeriodicSample => Sys2Proof.Machine.execSagePeriodicSample s
  | .counterPageUpdate => Sys2Proof.Machine.execCounterPageUpdate s
  | .supplySagTrip => Sys2Proof.Machine.execSupplySagTrip s
  | .coldReset => Sys2Proof.Machine.execColdReset s
  | .warmReset => Sys2Proof.Machine.execWarmReset s
  | .arbiterReply => Sys2Proof.Machine.execArbiterReply s
  | .remoteMappingRequest => Sys2Proof.Machine.execRemoteMappingRequest s
  | .portTrainingEnd => Sys2Proof.Machine.execPortTrainingEnd s
  | .hostLaneFailure => Sys2Proof.Machine.execHostLaneFailure s
  | .supplySagClear => Sys2Proof.Machine.execSupplySagClear s

end Sys2Proof.Machine
end

