-- ==== Sys2Proof/Machine/Dests.lean ====
section
/-! DEFINITION. The destination registers of an instruction, by its register fields: what a ONCE pair sets empty in the
members of a gang when it reaches them (R42, R100). -/
namespace Sys2Proof

/-- The window registers that an instruction writes: rd, and ws of the status forms; none for stores, control transfers,
NWRITE, WAKE and AM.SEND, and none for what no thread issues (R32, R100, R131 to R133, R195). -/
def Instr.dests : Instr → List (BitVec 7)
  | .add rd _ _ _ _ => [rd]
  | .sub rd _ _ _ _ => [rd]
  | .and rd _ _ _ _ => [rd]
  | .or rd _ _ _ _ => [rd]
  | .xor rd _ _ _ _ => [rd]
  | .shl rd _ _ _ _ => [rd]
  | .shr rd _ _ _ _ => [rd]
  | .sra rd _ _ _ _ => [rd]
  | .mul rd _ _ _ _ => [rd]
  | .mulh rd _ _ _ _ => [rd]
  | .mulhu rd _ _ _ _ => [rd]
  | .div rd _ _ _ _ => [rd]
  | .divu rd _ _ _ _ => [rd]
  | .rem rd _ _ _ _ => [rd]
  | .remu rd _ _ _ _ => [rd]
  | .min rd _ _ _ _ => [rd]
  | .max rd _ _ _ _ => [rd]
  | .minu rd _ _ _ _ => [rd]
  | .maxu rd _ _ _ _ => [rd]
  | .slt rd _ _ _ _ => [rd]
  | .sltu rd _ _ _ _ => [rd]
  | .seq rd _ _ _ _ => [rd]
  | .sne rd _ _ _ _ => [rd]
  | .clz rd _ _ => [rd]
  | .popc rd _ _ => [rd]
  | .rev rd _ _ => [rd]
  | .sextB rd _ _ => [rd]
  | .sextH rd _ _ => [rd]
  | .sextW rd _ _ => [rd]
  | .zextW rd _ _ => [rd]
  | .addi rd _ _ _ => [rd]
  | .andi rd _ _ _ => [rd]
  | .ori rd _ _ _ => [rd]
  | .xori rd _ _ _ => [rd]
  | .shli rd _ _ _ => [rd]
  | .shri rd _ _ _ => [rd]
  | .srai rd _ _ _ => [rd]
  | .slti rd _ _ _ => [rd]
  | .movi rd _ => [rd]
  | .ldpc rd _ => [rd]
  | .lea rd _ _ _ _ _ => [rd]
  | .sel rd _ _ _ => [rd]
  | .faddF32 rd _ _ _ _ => [rd]
  | .fsubF32 rd _ _ _ _ => [rd]
  | .fmulF32 rd _ _ _ _ => [rd]
  | .fdivF32 rd _ _ _ _ => [rd]
  | .fminF32 rd _ _ _ _ => [rd]
  | .fmaxF32 rd _ _ _ _ => [rd]
  | .fsqrtF32 rd _ _ => [rd]
  | .faddF64 rd _ _ _ _ => [rd]
  | .fsubF64 rd _ _ _ _ => [rd]
  | .fmulF64 rd _ _ _ _ => [rd]
  | .fdivF64 rd _ _ _ _ => [rd]
  | .fminF64 rd _ _ _ _ => [rd]
  | .fmaxF64 rd _ _ _ _ => [rd]
  | .fsqrtF64 rd _ _ => [rd]
  | .ffmaF32 rd _ _ _ => [rd]
  | .ffmaF64 rd _ _ _ => [rd]
  | .feqF32 rd _ _ _ _ => [rd]
  | .fltF32 rd _ _ _ _ => [rd]
  | .fleF32 rd _ _ _ _ => [rd]
  | .funF32 rd _ _ _ _ => [rd]
  | .feqF64 rd _ _ _ _ => [rd]
  | .fltF64 rd _ _ _ _ => [rd]
  | .fleF64 rd _ _ _ _ => [rd]
  | .funF64 rd _ _ _ _ => [rd]
  | .fcvtF64F32 rd _ _ _ => [rd]
  | .fcvtF32F64 rd _ _ _ => [rd]
  | .fcvtI64F32 rd _ _ _ => [rd]
  | .fcvtU64F32 rd _ _ _ => [rd]
  | .fcvtI64F64 rd _ _ _ => [rd]
  | .fcvtU64F64 rd _ _ _ => [rd]
  | .fcvtF32I64 rd _ _ _ => [rd]
  | .fcvtF32U64 rd _ _ _ => [rd]
  | .fcvtF64I64 rd _ _ _ => [rd]
  | .fcvtF64U64 rd _ _ _ => [rd]
  | .fcvtI32F32 rd _ _ _ => [rd]
  | .fcvtI32F64 rd _ _ _ => [rd]
  | .fcvtBf16F32 rd _ _ _ => [rd]
  | .fcvtF32Bf16 rd _ _ _ => [rd]
  | .fclassF32 rd _ _ => [rd]
  | .fclassF64 rd _ _ => [rd]
  | .bcEqz _ _ _ => []
  | .bcNez _ _ _ => []
  | .bcLtz _ _ _ => []
  | .bcGez _ _ _ => []
  | .bcGtz _ _ _ => []
  | .bcLez _ _ _ => []
  | .bcFull _ _ => []
  | .bcEmpty _ _ => []
  | .j _ => []
  | .call _ => []
  | .jr _ _ => []
  | .callr _ _ => []
  | .loop _ _ _ => []
  | .fork _ _ _ => []
  | .join _ _ => []
  | .couple rd _ _ => [rd]
  | .gangid rd => [rd]
  | .ld rd _ _ _ _ _ => [rd]
  | .ldx rd _ _ _ _ _ => [rd]
  | .ldAcq rd _ _ _ _ _ => [rd]
  | .st _ _ _ _ _ _ => []
  | .stRel _ _ _ _ _ _ => []
  | .vld rd _ _ _ _ => [rd]
  | .vst _ _ _ _ _ => []
  | .vlds rd _ _ _ _ => [rd]
  | .vgath rd _ _ _ _ _ => [rd]
  | .vscat _ _ _ _ _ _ => []
  | .pref _ _ _ _ => []
  | .fenceRw _ => []
  | .fenceAcq _ => []
  | .fenceRel _ => []
  | .fenceSs _ => []
  | .amoAdd rd _ _ _ _ => [rd]
  | .amoAnd rd _ _ _ _ => [rd]
  | .amoOr rd _ _ _ _ => [rd]
  | .amoXor rd _ _ _ _ => [rd]
  | .amoMin rd _ _ _ _ => [rd]
  | .amoMax rd _ _ _ _ => [rd]
  | .amoSwp rd _ _ _ _ => [rd]
  | .cas rd _ _ _ => [rd]
  | .vaddI32 rd _ _ _ _ => [rd]
  | .vsubI32 rd _ _ _ _ => [rd]
  | .vand rd _ _ _ _ => [rd]
  | .vor rd _ _ _ _ => [rd]
  | .vxor rd _ _ _ _ => [rd]
  | .vshl rd _ _ _ _ => [rd]
  | .vshr rd _ _ _ _ => [rd]
  | .vsra rd _ _ _ _ => [rd]
  | .vaddF32 rd _ _ _ _ => [rd]
  | .vsubF32 rd _ _ _ _ => [rd]
  | .vmulF32 rd _ _ _ _ => [rd]
  | .vminF32 rd _ _ _ _ => [rd]
  | .vmaxF32 rd _ _ _ _ => [rd]
  | .vmulI32 rd _ _ _ _ => [rd]
  | .vminI32 rd _ _ _ _ => [rd]
  | .vmaxI32 rd _ _ _ _ => [rd]
  | .vfmaF32 rd _ _ _ => [rd]
  | .vcmpEqI32 rd _ _ _ _ => [rd]
  | .vcmpLtI32 rd _ _ _ _ => [rd]
  | .vcmpLtuI32 rd _ _ _ _ => [rd]
  | .vcmpEqF32 rd _ _ _ _ => [rd]
  | .vcmpLtF32 rd _ _ _ _ => [rd]
  | .vcmpLeF32 rd _ _ _ _ => [rd]
  | .vcmpUnF32 rd _ _ _ _ => [rd]
  | .vsel rd _ _ _ => [rd]
  | .vredAddI32 rd _ _ => [rd]
  | .vredAddF32 rd _ _ => [rd]
  | .vredMaxF32 rd _ _ => [rd]
  | .vredMinF32 rd _ _ => [rd]
  | .vredMaxI32 rd _ _ => [rd]
  | .vredMinI32 rd _ _ => [rd]
  | .vredOr rd _ _ => [rd]
  | .vredAnd rd _ _ => [rd]
  | .vperm rd _ _ _ _ => [rd]
  | .vbcast rd _ _ => [rd]
  | .vins rd _ _ _ _ => [rd]
  | .vext rd _ _ _ _ => [rd]
  | .vrcpF32 rd _ _ => [rd]
  | .vrsqF32 rd _ _ => [rd]
  | .vexp2F32 rd _ _ => [rd]
  | .vlog2F32 rd _ _ => [rd]
  | .vpackBf16 rd _ _ _ _ => [rd]
  | .vunpackBf16 rd _ _ _ _ => [rd]
  | .vzmask rd _ _ => [rd]
  | .qpush _ rd _ _ _ => [rd]
  | .qpop _ rd => [rd]
  | .qpopStatus _ rd ws => [rd, ws]
  | .qpopTrap _ rd => [rd]
  | .qpopTrapStatus _ rd ws => [rd, ws]
  | .qtest _ rd => [rd]
  | .evtTerm _ _ _ => []
  | .evtCnt _ _ _ _ _ => []
  | .evtArm _ _ _ => []
  | .evtRead _ rd => [rd]
  | .evtWait _ => []
  | .sysGet rd _ => [rd]
  | .sysSet _ _ => []
  | .time rd => [rd]
  | .trap _ _ => []
  | .thrStart rd _ => [rd]
  | .thrStop rd _ => [rd]
  | .thrResume rd _ => [rd]
  | .thrResumeNext rd _ => [rd]
  | .thrSwap rd _ => [rd]
  | .thrSwapIn rd _ => [rd]
  | .nwrite _ _ => []
  | .arriveClu rd _ => [rd]
  | .arriveDeck rd _ => [rd]
  | .arriveDev rd _ => [rd]
  | .wait _ => []
  | .wake _ _ => []
  | .nwaitNbr rd => [rd]
  | .nwaitNtf rd => [rd]
  | .sample _ => []
  | .launch rd _ => [rd]
  | .launchWait rd _ => [rd]
  | .launchQuery rd _ => [rd]
  | .launchAge rd _ => [rd]
  | .cancelLaunch rd _ => [rd]
  | .cancelGraph rd _ => [rd]
  | .cancelPhase rd _ => [rd]
  | .cancelJob rd _ => [rd]
  | .cancelGraphRewind rd _ => [rd]
  | .round rd _ _ => [rd]
  | .park rd _ => [rd]
  | .memMap rd _ _ _ => [rd]
  | .memMapAlias rd _ _ _ => [rd]
  | .memMapRemote rd _ _ _ => [rd]
  | .memUnmap rd _ => [rd]
  | .memAttr rd _ _ _ => [rd]
  | .qfence _ => []
  | .rwtLoad rd _ => [rd]
  | .rwtCtl rd _ => [rd]
  | .rwtCtlGet rd => [rd]
  | .sbind rd _ _ => [rd]
  | .snext rd _ => [rd]
  | .snextStatus rd ws _ => [rd, ws]
  | .sdone rd _ => [rd]
  | .amSend _ _ => []
  | .amHandler rd _ => [rd]
  | .lnkStatus rd _ => [rd]
  | .wrtPresent rd _ => [rd]
  | .wrtPresentToken rd _ => [rd]
  | .wrtPresentRevoke rd _ => [rd]
  | .wrtSplit rd _ => [rd]
  | .wrtDelegate rd _ => [rd]
  | .wrtSurrender rd _ => [rd]
  | .wrtQuery rd _ _ => [rd]
  | .codeAdmit rd _ => [rd]
  | .attest rd _ => [rd]
  | .once _ => []
  | .ret => []
  | .ends => []
  | .split => []
  | .nop => []
  | .thrStopSelf => []
  | .thrYield => []
  | .accZero => []
  | .accLoad => []
  | .accStore => []
  | .mmaE4m3E4m3 => []
  | .mmaE4m3E5m2 => []
  | .mmaE5m2E4m3 => []
  | .mmaEc8Ec8 => []
  | .mmaEc8E4m3 => []
  | .mmaBf16Bf16 => []
  | .mmaF32F32 => []
  | .mmaI8I8 => []
  | .mmaSpE4m3E4m3 => []
  | .mmaSpBf16Bf16 => []
  | .nestEw => []
  | .nestRed => []
  | .transpose => []
  | .scale => []
  | .enc8 => []
  | .dec8 => []
  | .compress => []
  | .teMark => []
  | .copy => []
  | .copy2d => []
  | .copy3d => []
  | .copyGather => []
  | .fill => []
  | .schedLoad => []
  | .rteList => []
  | .rteDispatch => []
  | .rteCombine => []
  | .collAllred => []
  | .collAllgath => []
  | .collRedscat => []
  | .collBcast => []
  | .instructionCompletion => []
  | .longLatencyArrival => []
  | .oncePostLanding => []
  | .storeVisible => []
  | .trapRecordEnqueue => []
  | .coupleTimeout => []
  | .strandSteal => []
  | .nwriteLanding => []
  | .wakeDelivery => []
  | .expiryNotice => []
  | .preemptSwapOut => []
  | .threadRestore => []
  | .divertedMessageReplay => []
  | .commandCompletionCopy => []
  | .commandCompletionTile => []
  | .commandCompletionRoute => []
  | .rewriteWindowEntry => []
  | .rewriteHeadRelease => []
  | .rewriteGroupCommit => []
  | .rewriteGroupReplay => []
  | .dispatcherDecision => []
  | .headAgeLimit => []
  | .endOfStreamAppend => []
  | .coreMove => []
  | .coreLend => []
  | .q7BacklogDelivery => []
  | .corrected => []
  | .deckFence => []
  | .injectionFire => []
  | .l2WriteBack => []
  | .amArrival => []
  | .amHandlerStart => []
  | .collectiveTimeout => []
  | .dataFlitReceive => []
  | .nakReceive => []
  | .replayTimeout => []
  | .keySwitchStart => []
  | .keySwitchMarkerReceive => []
  | .oldKeySlotClose => []
  | .idleFlitReceive => []
  | .timeFlitSend => []
  | .timeFlitReceive => []
  | .ptpMessageReceive => []
  | .arbiterClaim => []
  | .arbiterReplyTimeout => []
  | .spentEntryExpiry => []
  | .timeBeaconEthernet => []
  | .beaconTimeout => []
  | .highWaterUpdate => []
  | .contextExpiry => []
  | .tokenLapsed => []
  | .handoverHoldExpiry => []
  | .handoverRelease => []
  | .hotPatchDoorbell => []
  | .patchBusy => []
  | .applyDoorbell => []
  | .admissionDoorbellWarrant => []
  | .admissionDoorbellToken => []
  | .admissionDoorbellRevocation => []
  | .admissionDoorbellBeacon => []
  | .hostLaunchRecord => []
  | .hostPartitionRead => []
  | .hostPartitionWrite => []
  | .registerWrite => []
  | .sagePeriodicSample => []
  | .counterPageUpdate => []
  | .supplySagTrip => []
  | .coldReset => []
  | .warmReset => []
  | .arbiterReply => []
  | .remoteMappingRequest => []
  | .portTrainingEnd => []
  | .hostLaneFailure => []
  | .supplySagClear => []

end Sys2Proof
end

