-- ==== Sys2Proof/Machine/Fetch.lean ====
section
/-! DEFINITION. Fetching the next instruction of a thread, the leader's fetch for a gang, and the choice of the slot that
issues (R25, R42, R48, R56, R57, R162, R163). -/
namespace Sys2Proof.Machine

/-- What stands at a program counter. -/
inductive Found where
  | instr (i : Instr)
  /-- No instruction: the word that the record holds, and the prefixed word of a pair. -/
  | illegal (w : BitVec 32) (pair : Option (BitVec 32))
  /-- The fetch address that faults, and whether its line is lost. -/
  | fault (addr : Addr) (lost : Bool)
  deriving DecidableEq, Repr

/-- The instruction that one or two words form (R56, R57). -/
def foundWords (w : BitVec 32) (w2 : Option (BitVec 32)) : Found :=
  match w2 with
  | none => match decode (wordBytes w) with | some (i, _) => .instr i | none => .illegal w none
  | some v => match decode (wordBytes w ++ wordBytes v) with | some (i, _) => .instr i | none => .illegal v (some v)

/-- The words at a program counter: two for a ONCE pair (R48, R57). -/
def State.fetchWords (s : State) (p : Nat) (pc : Addr) : Except (Addr × Bool) (BitVec 32 × Option (BitVec 32)) :=
  match s.fetchBytes p pc.toNat 4 with
  | .fault => .error (pc, false)
  | .lost => .error (pc, true)
  | .ok b =>
    let w : BitVec 32 := BitVec.ofNat 32 (bytesNat b)
    if w = oncePrefix then
      match s.fetchBytes p (pc + 4).toNat 4 with
      | .fault => .error (pc + 4, false)
      | .lost => .error (pc + 4, true)
      | .ok b => .ok (w, some (BitVec.ofNat 32 (bytesNat b)))
    else .ok (w, none)

/-- The instruction at a program counter. -/
def State.fetchAt (s : State) (p : Nat) (pc : Addr) : Found :=
  match s.fetchWords p pc with
  | .error (a, lost) => .fault a lost
  | .ok (w, w2) => foundWords w w2

/-- A fetch faults: FETCH_FAULT, or DATA_LOST for a lost line, at the program counter; flag [3] after a taken transfer
(R48, R57, R162, R163). Flag [2] stays clear when it is the word after ONCE that cannot be fetched, since no pair has been
read: a DESIGN CHOICE (log 96). So is it that flag [3] and the place of THR.RESUME.NEXT, saved PC + 4, are those of R163 also where it is
the word after a ONCE at the target of a taken transfer that cannot be fetched (log 96). -/
def State.fetchTrap (s : State) (c sl : Nat) (addr : Addr) (lost : Bool) : State :=
  match s.thread? c sl with
  | none => s
  | some t =>
    (s.tookTurn c sl).trap c sl
      { code := if lost then 0x0E else 0x06, detail := 0, pc := t.pc, info := addr.setWidth 64, second := if lost then 0 else 3,
        flags := if t.kept then 8 else 0 } none

/-! ### Gangs (R42) -/

/-- A thread is READY in this cycle. -/
def State.readyNow (s : State) (t : Thread) : Bool := t.state == .ready && decide (t.readyAt ≤ s.cycle)

/-- Every member of a thread's gang waits for the next word. -/
def State.gangIdle (s : State) (c sl : Nat) (t : Thread) : Bool :=
  (gangCores c t).all fun m => match s.thread? m sl with
    | some u => s.readyNow u && u.forward.isNone && u.outcome.isNone
    | none => false

/-- The posts of a pair that a gang's leader has fetched: the destinations of its instruction, at every member whose
window holds them all. The pair reaches the member at hop h in cycle f + h, which sets those entries empty; a member whose
window is too small gets no post (R42, R100, R168). -/
def State.pairPosts (s : State) (c sl : Nat) (t : Thread) (dests : List Nat) : List Post :=
  ((gangCores c t).filter fun m => m != c).flatMap fun m =>
    match s.thread? m sl with
    | none => []
    | some u =>
      if dests.any fun d => decide (u.size ≤ d) then []
      else dests.map fun d =>
        { dest := { from_ := t.base + d, core := m, slot := sl, entry := u.base + d, hop := u.gangPos.toNat },
          due := s.cycle + u.gangPos.toNat, leader := c, val := none, ready := false, emptied := false, uid := u.uid, src := t.uid,
          pair := 0 }
/-- Destinations of the instruction that a leader's words form, when they are a pair (R57, R100). -/
def pairDests (w : BitVec 32) (w2 : Option (BitVec 32)) : List Nat :=
  match foundWords w w2 with
  | .instr (.once v) => match decode (wordBytes v) with | some (i, _) => i.dests.map BitVec.toNat | none => []
  | _ => []

/-- The leader fetches, and the words go to each member h cycles later, with the posts of a pair (R42, R100). -/
def State.gangFetch (s : State) (c sl : Nat) : State :=
  match s.thread? c sl with
  | none => s
  | some t =>
    if t.coupled && t.gangPos == 0 && s.gangIdle c sl t then
      match s.fetchWords (((s.core c).part).getD 0) t.pc with
      | .error _ => s
      | .ok (w, w2) =>
        let s := { s with posts := s.posts ++ s.pairPosts c sl t (pairDests w w2) }
        (gangCores c t).foldl (fun s m => s.modThread m sl fun u => { u with forward := some (w, w2, s.cycle + u.gangPos.toNat) }) s
    else s
/-- Every gang's leader fetches when its members wait. -/
def State.gangFetches (s : State) : State :=
  s.threads.foldl (fun s e => if e.2.coupled then s.gangFetch (e.1 / 64) (e.1 % 64) else s) s

/-! ### The slot that issues (R25) -/

/-- What a thread that may issue in this cycle would issue. -/
def State.offer (s : State) (c sl : Nat) (t : Thread) : Option Found :=
  if !s.readyNow t then none
  else
    let p := ((s.core c).part).getD 0
    if !t.coupled then
      match t.forward with
      | some (w, w2, at_) => if at_ ≤ s.cycle then some (foundWords w w2) else none
      | none => some (s.fetchAt p t.pc)
    else match t.forward with
      | some (w, w2, at_) =>
        if at_ ≤ s.cycle ∧ t.outcome.isNone then some (foundWords w w2) else none
      | none =>
        if t.gangPos == 0 && s.gangIdle c sl t then
          (match s.fetchAt p t.pc with | .fault a lost => some (.fault a lost) | _ => none)
        else none

/-- A core may issue in this cycle. -/
def State.coreIssues (s : State) (c : Nat) (k : Core) : Bool :=
  (match k.part with | some p => !s.ending p | none => false) && !k.fenced && (tabGet? s.doomed c).isNone &&
  k.issued != s.cycle + 1 &&
  s.threads.any fun e => e.1 / 64 == c && s.readyNow e.2

/-- The first slot after the one that issued last which may issue (R25). On a core that moves, the threads go on for the
sake of its started commands, and a handler until it ends (R169, R302). -/
def State.pickSlot (s : State) (c : Nat) (k : Core) : Option (Nat × Found) :=
  (List.range 64).findSome? fun i =>
    let sl := (k.last + 1 + i) % 64
    if k.moving && sl != 63 && s.active.all fun e => e.2.entry.core != c then none
    else match s.thread? c sl with
    | some t => (s.offer c sl t).map fun f => (sl, f)
    | none => none

/-- The next issue of this cycle: core, slot and what stands there. -/
def State.pickIssue (s : State) : Option (Nat × Nat × Found) :=
  s.cores.findSome? fun e =>
    if s.coreIssues e.1 e.2 then (s.pickSlot e.1 e.2).map fun x => (e.1, x.1, x.2) else none

end Sys2Proof.Machine
end

