-- ==== Sys2Proof/Machine/Turn.lean ====
section
/-! DEFINITION. What the machine does next, one move at a time (R25, R26, R135, R136, R174): an event given from outside; in
a cycle the completions, the issues, the arrivals and what else is due; the starts of the engines; then the clock. And
what follows every move. -/
namespace Sys2Proof.Machine

/-- The events of the machine: rows of the opcode table that nothing issues or starts. -/
def isEvent : Instr → Bool
  | .instructionCompletion | .longLatencyArrival | .oncePostLanding | .storeVisible | .trapRecordEnqueue
  | .coupleTimeout | .strandSteal | .nwriteLanding | .wakeDelivery | .expiryNotice | .preemptSwapOut | .threadRestore
  | .divertedMessageReplay | .commandCompletionCopy | .commandCompletionTile | .commandCompletionRoute
  | .rewriteWindowEntry | .rewriteHeadRelease | .rewriteGroupCommit | .rewriteGroupReplay | .dispatcherDecision
  | .headAgeLimit | .endOfStreamAppend | .coreMove | .coreLend | .q7BacklogDelivery | .corrected | .deckFence
  | .injectionFire | .l2WriteBack | .amArrival | .amHandlerStart | .collectiveTimeout | .dataFlitReceive
  | .nakReceive | .replayTimeout | .keySwitchStart | .keySwitchMarkerReceive | .oldKeySlotClose | .idleFlitReceive
  | .timeFlitSend | .timeFlitReceive | .ptpMessageReceive | .arbiterClaim | .arbiterReplyTimeout | .spentEntryExpiry
  | .timeBeaconEthernet | .beaconTimeout | .highWaterUpdate | .contextExpiry | .tokenLapsed | .handoverHoldExpiry
  | .handoverRelease | .hotPatchDoorbell | .patchBusy | .applyDoorbell | .admissionDoorbellWarrant
  | .admissionDoorbellToken | .admissionDoorbellRevocation | .admissionDoorbellBeacon | .hostLaunchRecord
  | .hostPartitionRead | .hostPartitionWrite | .registerWrite | .sagePeriodicSample | .counterPageUpdate
  | .supplySagTrip | .coldReset | .warmReset | .arbiterReply | .remoteMappingRequest | .portTrainingEnd
  | .hostLaneFailure | .supplySagClear => true
  | _ => false
/-- One move of the machine. -/
inductive Move where
  /-- An event, with its subject. -/
  | event (i : Instr) (a : Arg)
  /-- A thread issues an instruction; stands before a word that is none; or before an address that cannot be fetched. -/
  | issue (c sl : Nat) (i : Instr)
  | illegal (c sl : Nat) (w : BitVec 32) (pair : Option (BitVec 32))
  | badFetch (c sl : Nat) (addr : Addr) (lost : Bool)
  /-- An engine takes up a command; or one whose opcode names none. -/
  | command (e : CmdEntry) (i : Instr)
  | refuse (e : CmdEntry) (o : Outcome)
  /-- A core's tile engine takes up a formed group. -/
  | group (c : Nat)
  /-- An input that is no event is put aside. -/
  | skip
  /-- The clock goes on. -/
  | tick
  deriving DecidableEq, Repr

/-- An event of a subject numbered n, or n and m. -/
def ev (i : Instr) (n : Nat) : Move := .event i { Arg.none with n := n }
def ev2 (i : Instr) (n m : Nat) : Move := .event i { Arg.none with n := n, m := m }

/-- The least of a list by two numbers. -/
def leastOf {α : Type} (f : α → Nat × Nat) : List α → Option α
  | [] => none
  | a :: l =>
    match leastOf f l with
    | none => some a
    | some b => if (f b).1 < (f a).1 ∨ ((f b).1 = (f a).1 ∧ (f b).2 < (f a).2) then some b else some a

/-- The first index below n that a test picks. -/
def firstIdx (n : Nat) (p : Nat → Bool) : Option Nat := (List.range n).find? p

/-! ### Inputs, completions, issues -/

/-- The next input (model). -/
def State.inputMove (s : State) : Option Move :=
  match s.inputs with
  | [] => none
  | (i, a) :: _ => some (if isEvent i then .event i a else .skip)

/-- Threads whose instruction may complete in this cycle, in issue order, so that the later-issued write prevails (R31); a CANCEL takes
effect after the ends of its cycle (R311). -/
def State.completionMove (s : State) : Option Move :=
  let l := s.threads.filter fun e => s.mayFinish (e.1 / 64) (e.1 % 64)
  let key (e : Nat × Thread) : Nat × Nat := match e.2.state with | .inflight f => (if f.fx.any Effect.isCancel then 1 else 0, f.order) | _ => (0, 0)
  (leastOf key l).map fun e => ev2 .instructionCompletion (e.1 / 64) (e.1 % 64)

/-- The next issue of this cycle (R25). -/
def State.issueMove (s : State) : Option Move :=
  s.pickIssue.map fun x => match x.2.2 with
    | .instr i => .issue x.1 x.2.1 i
    | .illegal w pair => .illegal x.1 x.2.1 w pair
    | .fault a lost => .badFetch x.1 x.2.1 a lost

/-! ### What arrives and becomes visible -/

/-- An element of a VLDS or VGATH that performs before its load arrives (R149). -/
def State.takeMove (s : State) : Option Move :=
  (List.range s.arrivals.length).findSome? fun n => match s.arrivals[n]? with
    | some a => (a.takes.find? fun t => decide (t.1 ≤ s.cycle) && decide (t.1 < a.due) && s.mayTake n t.2).map fun t =>
        .event .longLatencyArrival { Arg.none with n := n, m := t.2, flag := true }
    | none => none
/-- The next arrival, the earliest first (R32). -/
def State.arrivalMove (s : State) : Option Move :=
  let l := (List.range s.arrivals.length).filter s.mayArrive
  let key (n : Nat) : Nat × Nat := match s.arrivals[n]? with | some a => (a.due, a.order) | none => (0, 0)
  (leastOf key l).map (ev .longLatencyArrival)
/-- Posts, landings and notifies (R100, R141, R142). -/
def State.landMove (s : State) : Option Move :=
  match firstIdx s.posts.length s.mayLand with
  | some n => some (ev .oncePostLanding n)
  | none => match firstIdx s.nwrites.length s.mayLandNwrite with
  | some n => some (ev .nwriteLanding n)
  | none => (firstIdx s.wakes.length s.mayWake).map (ev .wakeDelivery)
/-- Committed stores, and elements of commands (R150, R197). -/
def State.showMove (s : State) : Option Move :=
  match firstIdx s.pend.length s.mayShow with
  | some n => some (ev .storeVisible n)
  | none => (s.active.find? fun e => s.mayShowElement e.1 && s.stepFits e.1).map fun e => .event .storeVisible { Arg.none with n := e.1, flag := true }
/-- Trap records, and COUPLEs that time out (R97, R165). -/
def State.threadMove (s : State) : Option Move :=
  match firstIdx s.traps.length s.mayEnqueue with
  | some n => some (ev .trapRecordEnqueue n)
  | none => (s.threads.find? fun e => (s.coupleLate (e.1 / 64) (e.1 % 64)).isSome).map fun e => ev2 .coupleTimeout (e.1 / 64) (e.1 % 64)

/-! ### Engines: completions and the rewrite stage -/

/-- A started command that may complete, or a collective that times out (R191, R239, R332, R343). -/
def State.commandEnds (s : State) : Option Move :=
  s.active.findSome? fun e =>
    match e.2.entry.queue with
    | 0 => if s.mayComplete e.1 then some (ev .commandCompletionTile e.1) else none
    | 2 => if s.mayComplete e.1 then some (ev .commandCompletionCopy e.1) else none
    | _ => if s.routeMayEnd e.1 then some (ev .commandCompletionRoute e.1)
           else if s.collLate e.1 then some (ev .collectiveTimeout e.1) else none
/-- The rewrite stage of a core (R222, R224, R234, R235). -/
def State.rewriteMove (s : State) : Option Move :=
  s.cores.findSome? fun e =>
    if e.2.mayEnter then some (ev .rewriteWindowEntry e.1)
    else if s.releases e.1 then some (ev .rewriteHeadRelease e.1)
    else match s.groupDone e.1 with
      | some (g, _) => some (ev (if g.failed.isNone then .rewriteGroupCommit else .rewriteGroupReplay) e.1)
      | none => none

/-! ### Queues, messages, strands -/

/-- A core's queue deliveries and its message thread (R130, R347). -/
def State.queueMove (s : State) : Option Move :=
  match s.cores.find? fun e => e.2.mayDeliver with
  | some e => some (ev .q7BacklogDelivery e.1)
  | none =>
    let eos := s.ctxs.findSome? fun e => (e.2.chans.find? fun h => s.mayAppend e.1 h.2).map fun h => ev2 .endOfStreamAppend e.1 h.1
    match eos with
    | some m => some m
    | none => match firstIdx s.messages.length s.mayArriveMessage with
    | some n => some (ev .amArrival n)
    | none => match s.cores.find? fun e => s.mayStartHandler e.1 with
    | some e => some (ev .amHandlerStart e.1)
    | none => (s.ctxs.find? fun e => s.mayReplayDiverted e.1).map fun e => ev .divertedMessageReplay e.1
/-- A core with a FREE slot takes a strand, into its lowest FREE slot from 0 to 62; of several cores that could take one in
a cycle, the lowest-numbered takes first: a DESIGN CHOICE, the spec names no slot and no order (R40; log 96). -/
def State.stealMove (s : State) : Option Move :=
  if s.cores.all fun e => e.2.deque.isEmpty then none
  else s.cores.findSome? fun e =>
    match s.stealPick e.1, s.lowestFree e.1 with
    | some (_, d, _), some sl => if s.ending d.part then none else some (ev2 .strandSteal e.1 sl)
    | _, _ => none

/-! ### The dispatcher and the Keystone's core moves -/

/-- Decisions of the dispatcher: placements, aged heads, pre-emption, restores (R172, R299, R301, R302). -/
def State.dispatchMove (s : State) : Option Move :=
  if s.dispatch then some (.event .dispatcherDecision Arg.none)
  else
    let aged := s.ctxs.findSome? fun e => (List.range 8).findSome? fun q =>
      match s.agedHead e.1 q with
      | some (x, _, l) => if (s.bestRegion e.1 x (recPrio l.record)).isSome then some (ev2 .headAgeLimit e.1 q) else none
      | none => none
    match aged with
    | some m => some m
    | none => match s.ctxs.findSome? fun e => s.preemptNow e.1 with
    | some v => some (ev2 .preemptSwapOut v.1 v.2)
    | none => s.ctxs.findSome? fun e => (e.2.saved.find? fun v => s.mayRestore e.1 e.2 v).map fun v => ev2 .threadRestore e.1 v.record
/-- Moves and loans of cores (R302, R369). -/
def State.coreMove (s : State) : Option Move :=
  match s.cores.find? fun e => e.2.part.isSome && s.mayMove e.1 with
  | some e => some (ev2 .coreMove e.1 (e.2.part.getD 0))
  | none => if s.ctxs.isEmpty then none else s.nextLoan.map fun l => ev2 .coreLend l.1 l.2

/-! ### What is due in time -/

/-- A notice that is due, whose record is one of the core's (R164). -/
def State.noticeMove (s : State) : Option Move :=
  (s.ctxs.find? fun e => !s.contextDue e.2 && s.noticeDue e.2).map fun e => ev .expiryNotice e.1
/-- Ends and time-outs of the Keystone (R362, R365, R374, R378). -/
def State.keystoneMove (s : State) : Option Move :=
  match s.ctxs.find? fun e => s.contextDue e.2 with
  | some e => some (ev .contextExpiry e.1)
  | none => match firstIdx s.keystone.tokens.length s.tokenDue with
  | some n => some (ev .tokenLapsed n)
  | none => match s.keystone.held.find? fun e => s.heldLate e.1 with
  | some e => some (ev .handoverHoldExpiry e.1)
  | none =>
    if s.claimLate then some (.event .arbiterReplyTimeout Arg.none)
    else match s.keystone.spent.find? s.spentExpired with
    | some e => some (ev .spentEntryExpiry e.serial.toNat)
    | none =>
      if s.beaconLate then some (.event .beaconTimeout Arg.none)
      else if s.highDue then some (.event .highWaterUpdate Arg.none) else none
/-- What is due on a link's port (R351, R353, R394). -/
def State.linkMove (s : State) : Option Move :=
  s.ports.findSome? fun e =>
    if e.2.replayLate s.timeQ then some (ev .replayTimeout e.1)
    else if e.2.switchDue then some (ev2 .keySwitchStart e.1 e.2.freshSalt)
    else if e.2.oldCloses then some (ev .oldKeySlotClose e.1)
    else if e.2.timeDue s.timeQ then some (ev .timeFlitSend e.1) else none
/-- Records, injections, patches, samples and counters (R313, R327, R381, R396, R399). -/
def State.timerMove (s : State) : Option Move :=
  match s.correctedNow with
  | e :: _ => some (ev .corrected e.1)
  | [] =>
    match firstIdx s.host.injections.length (fun n => match s.host.injections[n]? with | some i => s.injectionDue i | none => false) with
    | some n => some (ev .injectionFire n)
    | none =>
      if s.patchLate then some (.event .patchBusy Arg.none)
      else match s.cores.find? fun e => s.sampleDue e.1 with
      | some e => some (ev .sagePeriodicSample e.1)
      | none => if s.ctxs.any fun e => s.countersDue e.2 then some (.event .counterPageUpdate Arg.none) else none

/-! ### Starts of the engines (R178, R221, R238, R332) -/

/-- The command that an opcode of a queue names. -/
def commandInstr (q op : Nat) : Option Instr :=
  match q, op with
  | 0, 0x01 => some .accZero
  | 0, 0x02 => some .accLoad
  | 0, 0x03 => some .accStore
  | 0, 0x10 => some .mmaE4m3E4m3
  | 0, 0x11 => some .mmaE4m3E5m2
  | 0, 0x12 => some .mmaE5m2E4m3
  | 0, 0x13 => some .mmaEc8Ec8
  | 0, 0x14 => some .mmaEc8E4m3
  | 0, 0x15 => some .mmaBf16Bf16
  | 0, 0x16 => some .mmaF32F32
  | 0, 0x17 => some .mmaI8I8
  | 0, 0x18 => some .mmaSpE4m3E4m3
  | 0, 0x19 => some .mmaSpBf16Bf16
  | 0, 0x20 => some .nestEw
  | 0, 0x21 => some .nestRed
  | 0, 0x30 => some .transpose
  | 0, 0x31 => some .enc8
  | 0, 0x32 => some .dec8
  | 0, 0x33 => some .compress
  | 0, 0x34 => some .scale
  | 0, 0x3F => some .teMark
  | 2, 1 => some .copy
  | 2, 2 => some .copy2d
  | 2, 3 => some .copy3d
  | 2, 4 => some .copyGather
  | 2, 5 => some .fill
  | 2, 6 => some .schedLoad
  | 4, 1 => some .rteList
  | 4, 2 => some .rteDispatch
  | 4, 3 => some .rteCombine
  | 4, 0x10 => some .collAllred
  | 4, 0x11 => some .collAllgath
  | 4, 0x12 => some .collRedscat
  | 4, 0x13 => some .collBcast
  | _, _ => none

/-- What an engine's checks give a command before its start (R182, R221, R260, R334). -/
def State.commandRefusal (s : State) (e : CmdEntry) : Option Outcome :=
  match e.queue with
  | 0 => s.tileRefusal e
  | 2 => e.copyRefusal
  | _ => e.routeRefusal
/-- Every start condition but the gate term. -/
def State.commandMayStart (s : State) (e : CmdEntry) : Bool :=
  match e.queue with
  | 0 => s.tileMayStart e
  | 2 => s.copyMayStart e
  | _ => s.routeMayStart e
/-- A gated command starts from the cycle after its term was found true (R136). -/
def State.gateOpen (s : State) (e : CmdEntry) : Bool :=
  e.gate == 0 || (match e.fired with | some f => decide (f ≤ s.cycle) | none => false)
/-- The move that takes up a command. -/
def State.takeUp (s : State) (e : CmdEntry) : Move :=
  match commandInstr e.queue e.opcode with
  | some i => .command e i
  | none => .refuse e ((s.commandRefusal e).getD (.plain 0x0F 2 0))
/-- A flush of a core's window changes it (R232). -/
def State.flushes (s : State) (c : Nat) : Bool := (s.flushCore c).core c != s.core c
/-- A head's move: its refusal, its start, or the flush point that a conflict with a lock makes (R178, R182, R232). -/
def State.headMove (s : State) (e : CmdEntry) : Option Move :=
  if (s.commandRefusal e).isSome then some (s.takeUp e)
  else if !s.gateOpen e then none
  else if s.commandMayStart e then some (s.takeUp e)
  else if e.queue = 0 ∧ !s.spansFree e e.tileSpans ∧ (s.core e.core).window.head?.map CmdEntry.order = some e.order ∧ s.flushes e.core then
    some (s.takeUp e)
  else none

/-- A cancelled command of a core, which goes at once wherever it stands, the commands of a queue in push order (R200, R260). -/
def State.cancelledMove (s : State) : Option Move :=
  s.cores.findSome? fun e =>
    ((e.2.window ++ e.2.cmds.flatMap Prod.snd).find? fun x => x.cancelled).map s.takeUp

/-- A core's tile engine (R224, R235, R238). -/
def State.tileMove (s : State) (c : Nat) : Option Move :=
  match s.tileNext c with
  | .none => none
  | .command e => s.headMove e
  | .group =>
    match (s.core c).group.bind fun g => g.first.map fun e => (g, e) with
    | some (g, e) => if s.groupMayStart c g e || (s.groupBlocked c g e && s.flushes c) then some (.group c) else none
    | none => none

/-- Cores that hold a command in a queue, in the order of a round after the one last served (R178, R332). -/
def State.turnOrder (s : State) (q size last : Nat) (f : Nat → Bool) : List Nat :=
  let l := (s.cores.filter fun e => f e.1 && !(tabGet e.2.cmds q []).isEmpty).map Prod.fst
  l.mergeSort fun a b => decide ((a + size - last % size - 1) % size ≤ (b + size - last % size - 1) % size)
/-- The head of a core's queue. -/
def State.queueHead (s : State) (c q : Nat) : Option CmdEntry := ((s.core c).cmdsOf q).head?

/-- The next start of an engine: tile engines by core, each copy engine round its cluster's cores, the route engine round
all cores (R178, R238, R332). -/
def State.startMove (s : State) : Option Move :=
  match s.cancelledMove with
  | some m => some m
  | none => match s.cores.findSome? fun e => s.tileMove e.1 with
  | some m => some m
  | none =>
    let clusters := ((s.cores.filter fun e => !(tabGet e.2.cmds 2 []).isEmpty).map fun e => clusterOf e.1).eraseDups
    let copy := clusters.findSome? fun k =>
      (s.turnOrder 2 4 (tabGet s.copyTurn k 3) fun c => clusterOf c == k).findSome? fun c => (s.queueHead c 2).bind s.headMove
    match copy with
    | some m => some m
    | none => (s.turnOrder 4 1024 s.routeTurn fun _ => true).findSome? fun c => (s.queueHead c 4).bind s.headMove

/-! ### The clock (R3, R135, R136, R395) -/

/-- Record that the gate of a queue's command has fired (R136). -/
def Core.markFired (k : Core) (order at_ : Nat) : Core :=
  let mark (x : CmdEntry) : CmdEntry := if x.order = order then { x with fired := some at_ } else x
  { k with cmds := k.cmds.map fun q => (q.1, q.2.map mark)
           window := k.window.map mark }
/-- The head of a queue whose term may be evaluated: it is gated, unfired, passes its checks and could start (R135). -/
def State.gatedHead (s : State) (c q : Nat) : Option CmdEntry :=
  let h := if q = 0 then (match s.tileNext c with | .command e => some e | _ => none) else s.queueHead c q
  h.filter fun e => e.gate != 0 && e.fired.isNone && (s.commandRefusal e).isNone && s.commandMayStart e
/-- The crossbar of a core at the end of a cycle: the queue heads, then the waiting threads (R136). -/
def State.crossbar (s : State) (c : Nat) : State :=
  let s := [0, 2, 4].foldl (fun s q =>
    match s.gatedHead c q with
    | some e => if (s.core c).termTrue e.gate then s.modCore c fun k => (k.fire e.gate).markFired e.order (s.cycle + 1) else s
    | none => s) s
  s.fireTerms c

/-- What a cycle adds to the counts of a core's partition (R399). -/
def State.countCycle (s : State) (c : Nat) : State :=
  let ts := s.threadsOf c
  let ready := ts.countP fun e => s.readyNow e.2
  let waits := ts.countP fun e => match e.2.state with | .blocked _ => true | .parked _ => true | _ => false
  let s := if ready = 0 then s else s.countCore c 3 ready
  let s := if waits = 0 then s else s.countCore c 4 waits
  if s.sag then s.countCore c 12 1 else s

/-- sr.time goes on by the cycle's length; the servo slews it by at most 100 ppm, never back (R3, R395). -/
def State.tickTime (s : State) : State :=
  let n := if s.sag then 2 else 1
  if s.slew ≠ 0 ∧ (s.cycle + 1) % 10000 = 0 then
    if 0 < s.slew then { s with timeQ := s.timeQ + n + 1, slew := s.slew - 1 }
    else { s with timeQ := s.timeQ + n - 1, slew := s.slew + 1 }
  else { s with timeQ := s.timeQ + n }

/-- With the last cycle of a nanosecond, its samples and records enter (R395). -/
def State.enterTimed (s : State) : State :=
  if (s.samples.isEmpty && s.outgoing.isEmpty) || s.tickTime.timeQ / 4 == s.timeQ / 4 then s else s.enterSamples.enterRecords

/-- The cycle ends. -/
def State.tick (s : State) : State :=
  let s := (if s.doomed.isEmpty then s else s.killDoomed).enterTimed
  let held := (s.cores.filter fun e => e.2.part.isSome).map Prod.fst
  let s := ((s.cores.filter fun e => e.2.part.isSome && !e.2.terms.isEmpty).map Prod.fst).foldl State.crossbar s
  let s := held.foldl State.countCycle s
  let s := s.tickTime
  { s with cycle := s.cycle + 1, wrote := [], stretched := s.stretched + (if s.sag then 1 else 0) }.forgetOrders.wakeAll

/-! ### One move -/

/-- What comes first in a cycle: what may end the conditions that hold instructions in flight, so that those complete in this
cycle before its issues (R26, R31). -/
def State.earlyMove (s : State) : Option Move := [s.showMove, s.commandEnds, s.rewriteMove, s.keystoneMove].findSome? id
/-- What is due after the issues, in the order of a cycle: a notice comes before the trap records enter, so that those of one cycle
enter by slot (R165, R174). -/
def State.dueMoves (s : State) : List (Option Move) :=
  [s.takeMove, s.arrivalMove, s.landMove, s.noticeMove, s.threadMove, s.queueMove, s.dispatchMove, s.stealMove,
   s.coreMove, s.timerMove, s.startMove, s.linkMove]

/-- What the machine does next (R26, R174; assumption 18). -/
def State.move (s : State) : Move :=
  match s.inputMove with
  | some m => m
  | none => match s.earlyMove with
  | some m => m
  | none => match s.completionMove with
  | some m => m
  | none => match s.issueMove with
  | some m => m
  | none => (s.dueMoves.findSome? id).getD .tick

/-- Lines of local memory among homes. -/
def linesOf (homes : List Nat) : List Nat := (homes.filterMap fun a => if a < 2 ^ 51 then some (a / 64) else none).eraseDups
/-- Lines that an engine's command reads, as it starts: those of the ranges that it locks for reading (R188, R404). -/
def State.spanLines (s : State) (e : CmdEntry) : List Nat :=
  let spans := match e.queue with | 0 => e.tileSpans | 2 => e.copySpans | _ => s.routeSpans e
  linesOf ((spans.filter fun x => !x.write).flatMap fun x => (List.range (x.hi / 64 + 1 - x.lo / 64)).filterMap fun i =>
    (s.translate e.part ((x.lo / 64 + i) * 64)).map (·.home))
/-- Lines of local memory that a move reads through the L2 (R278): the words that a thread fetches, the data of an arrival, the ranges of
a command that starts. Every such read is one of the L2: what the L1 serves is counted too, a DESIGN CHOICE (log 114). -/
def State.readLines (s : State) : Move → List Nat
  | .issue c sl _ =>
    match s.thread? c sl with
    | some t => linesOf ((s.fetchHome (((s.core c).part).getD 0) t.pc.toNat).toList)
    | none => []
  | .event .longLatencyArrival a =>
    match s.arrivals[a.n]? with
    | some x => linesOf (if a.flag then elementHomes x.prod a.m else x.prod.homes)
    | none => []
  | .command e _ => if (s.commandRefusal e).isNone ∧ s.commandMayStart e then s.spanLines e else []
  | .group c => (match (s.core c).group with | some g => g.members.flatMap s.spanLines | none => [])
  | _ => []

/-- What follows every move at once: waits, gangs and engines go on, and nobody executes. -/
def State.finish (s : State) : State :=
  { s.settle.settleTiles.decideHeads.gangFetches with cur := .none, arg := Arg.none }

/-- The outcome of a move, finished: the lines that it read, and those that it wrote, are in the L2 from now on. -/
def finishRes (read : List Nat) : Res → Res
  | .next s => .next (s.fillLines read).finish
  | .fault f => .fault f
  | .refused r => .refused r

/-- Do a move. -/
def State.doMove (s : State) : Move → Res
  | .event i a => exec i { s with cur := .none, arg := a }
  | .issue c sl i => exec i { s with cur := .thread c sl, arg := Arg.none }
  | .illegal c sl w pair => .next (s.illegal c sl w pair)
  | .badFetch c sl a lost => .next (s.fetchTrap c sl a lost)
  | .command e i => exec i { s with cur := .command e, arg := Arg.none }
  | .refuse e o => .next (s.refuseCommand e o)
  | .group c => .next (s.startGroup c)
  | .skip => .next s
  | .tick => .next s.tick

/-- An input that is taken leaves the list. -/
def State.taken (s : State) : State := if s.inputs.isEmpty then s else { s with inputs := s.inputs.drop 1 }

/-- One step: the next move, and what follows it at once. -/
def State.turn (s : State) : Res := finishRes (s.readLines s.move) (s.taken.doMove s.move)

/-! ### An instruction placed where the next step fetches (assumption 1) -/

/-- The warrant of the context that the placed instruction runs in: everything permitted, and no end in sight. -/
def placedWarrant : Warrant :=
  { serial := 1, cls := 0, prio := 31, flags := 0xFF, devices := BitVec.allOnes 256, notAfter := 2 ^ 64 - 1, notice := 0, cores := 1,
    threads := 64, keys := 0, queues := 8, l2 := 1, memory := 2 ^ 32, link := 0, minCores := 1, digest := [], mode := 0, depth := 0,
    resultBase := 0, resultLen := 0, handover := 0, index := none }
/-- The address at which the instruction is placed. -/
def placedPc : Nat := 0x10000
/-- The record of the launch that the thread belongs to: one thread, a window of 128 entries. -/
def placedRecord : Vec := packBytes 512 [(0, 1, 1), (4, 2, 1), (6, 1, 1), (7, 1, 15), (8, 6, placedPc)]
/-- A running launch with one unit. -/
def placedLaunch : Launch :=
  { record := placedRecord, state := 3, counter := 1, code := 0, pc := 0, headAt := 0, host := false, placed := 0, site := none,
    rounds := 0, lost := false, lostAt := none, dying := none, detached := false, replacedBy := none }

/-- The state with these words where the next step fetches: core 0 is held by partition 0, whose one thread, in slot 0 with
window base 0 and size 128, stands before them in an execute-only page. -/
def State.withWords (s : State) (bytes : List Byte) : State :=
  let root := s.freeTable
  let x := { placedWarrant.context 1 s.nextAge root none [0] 0 none with launches := [(1, placedLaunch)], nextLaunch := 2 }
  let s := { s with inputs := [], threads := [], doomed := [], ctxs := tabSet s.ctxs 0 x }
  let s := s.setCore 0 { s.core 0 with part := some 0, fenced := false, moving := false, last := 63, issued := 0 }
  let frame := s.freeFrame 4096
  let s := match s.mapPage 0 placedPc 0 0 2 true false, frame with
    | some s, some a => s.pokeBytes a bytes
    | _, _ => s
  s.placeThread 0 0 (Thread.start 0 (BitVec.ofNat 48 placedPc) 0 128 1 s.cycle)

end Sys2Proof.Machine
end

