-- ==== Sys2Proof/Machine/Step.lean ====
section
/-! DEFINITION. The step function, and where the next step fetches. -/
namespace Sys2Proof.Machine

/-- One step of the machine: one event, one instruction, one command, or the end of a cycle (R25, R26). -/
def step (s : State) : Host.Outcome State Fault Refusal := s.turn

/-- The state in which the next step fetches the instruction whose bits are w: its word, and a zero word after it (log 1). -/
def State.withFetchWord (s : State) (nbits w : Nat) : State := s.withWords (natBytes 8 (w % 2 ^ nbits))

end Sys2Proof.Machine
end

