-- ==== Sys2Proof/Safety.lean ====
section
/-! DEFINITION. What a safe run is: one in which no step ends in a fault or a refusal. And the terms in which claims speak of
an issue: who issues, what is readable, what goes in flight, and what the issue leaves alone. -/
namespace Sys2Proof

/-- A run of k steps from a state meets neither a fault nor a refusal. -/
def Safe (s : Machine.State) (k : Nat) : Prop := ∃ t, core.run k s = .next t

end Sys2Proof

namespace Sys2Proof.Machine

/-! ### Before an issue -/

/-- The READY thread t of a slot is the one that issues; its window lies in the file (R25, R27, R28). -/
structure Issuing (s : State) (c sl : Nat) (t : Thread) : Prop where
  cur : s.cur = .thread c sl
  inCore : sl < 64
  inFile : t.base + t.size ≤ 2048
  slot : s.thread? c sl = some t
  ready : t.state = .ready

/-- A register of the window that a read takes: full, no error token, at most a correctable flip (R29, R33, R36, R312). -/
structure Readable (s : State) (c : Nat) (t : Thread) (r : Nat) : Prop where
  inWindow : r < t.size
  full : (s.regAt c (t.base + r)).full = true
  sound : (s.regAt c (t.base + r)).poison = false
  correctable : (s.regAt c (t.base + r)).flips < 2

/-- A register of the window that an instruction may take as its destination at once (R29, R34). -/
structure Writable (s : State) (c : Nat) (t : Thread) (r : Nat) : Prop where
  inWindow : r < t.size
  settled : (s.regAt c (t.base + r)).full = true ∨ s.outstanding c (t.base + r) = false

/-- Contents of a register of the window, and its scalar (R28, R65). -/
def regVec (s : State) (c : Nat) (t : Thread) (r : BitVec 7) : Vec := (s.regAt c (t.base + r.toNat)).val
def regWord (s : State) (c : Nat) (t : Thread) (r : BitVec 7) : Word := scalarOf (regVec s c t r)

/-! ### After an issue -/

/-- The thread's instruction is in flight: it completes `lat` cycles after its issue, does `fx` then, and goes on at `next`
(R26). -/
def InFlight (s u : State) (c sl : Nat) (t : Thread) (lat : Nat) (fx : List Effect) (next : Addr) : Prop :=
  ∃ f : Flight, u.thread? c sl = some { t with state := .inflight f } ∧ f.fx = fx ∧ f.next = next ∧ f.order = s.order ∧
    f.due = s.cycle + lat

/-- The same for an instruction that a further condition may hold beyond its latency (R26, R115, R280). -/
def InFlightAtLeast (s u : State) (c sl : Nat) (t : Thread) (lat : Nat) (fx : List Effect) (next : Addr) : Prop :=
  ∃ f : Flight, u.thread? c sl = some { t with state := .inflight f } ∧ f.fx = fx ∧ f.next = next ∧ f.order = s.order ∧
    f.least = s.cycle + lat ∧ f.least ≤ f.due

/-- A register reads as before: contents, full/empty bit, zero flags, poison mark and token. Only a correctable flip may have
been corrected (R312). -/
structure SameReg (r q : Reg) : Prop where
  val : q.val = r.val
  full : q.full = r.full
  zf : q.zf = r.zf
  poison : q.poison = r.poison
  token : q.token = r.token

/-- Every register of every core reads as before, but for the listed entries of one core, which are empty (R32, R116). -/
def RegsKept (s u : State) (c : Nat) (emptied : List Nat) : Prop :=
  (∀ c' n, n < 2048 → ¬(c' = c ∧ n ∈ emptied) → SameReg (s.regAt c' n) (u.regAt c' n)) ∧
  ∀ n, n ∈ emptied → (u.regAt c n).full = false

/-- Every byte of memory and of the scratchpads reads as before. -/
def MemKept (s u : State) : Prop := ∀ a, u.homeByte a = s.homeByte a

/-- A core without what an issue or a read's correction changes in it: whose turn it is, and its count of corrections. -/
def Core.still (k : Core) : Core := { k with last := 0, issued := 0, corrected := [] }
/-- A context without its activity counts (R399). -/
def Ctx.still (x : Ctx) : Ctx := { x with counts := [] }

/-- Reads change correctable flips and what counts them, and nothing else (R312, R313). -/
structure OnlyFlips (s u : State) : Prop where
  regs : ∀ c n, SameReg (s.regAt c n) (u.regAt c n)
  cores : ∀ c, (u.core c).still = (s.core c).still
  ctxs : ∀ p, (u.ctx? p).map Ctx.still = (s.ctx? p).map Ctx.still
  rest : u = { s with regs := u.regs, cores := u.cores, ctxs := u.ctxs, correctedNow := u.correctedNow }

/-- An issue leaves everything alone but its own thread: registers as said; every other thread; every core but for whose
turn it is; every context but for its counts; and all the rest of the machine, memory and scratchpads among it. -/
structure IssueFrame (s u : State) (c sl : Nat) (emptied : List Nat) : Prop where
  regs : RegsKept s u c emptied
  threads : ∀ c' sl', ¬(c' = c ∧ sl' = sl) → sl' < 64 → u.thread? c' sl' = s.thread? c' sl'
  cores : ∀ c', (u.core c').still = (s.core c').still
  ctxs : ∀ p, (u.ctx? p).map Ctx.still = (s.ctx? p).map Ctx.still
  rest : u = { s with regs := u.regs, threads := u.threads, cores := u.cores, ctxs := u.ctxs, order := u.order,
                      correctedNow := u.correctedNow, draws := u.draws }

end Sys2Proof.Machine
end

