-- ==== Sys2Proof/Certificates/Slice0/Obligations.lean ====
section
/-! DEFINITION. The statements for the provers. The first part gathers instructions of one shape with the value or the effect
that the rules give each; the statements quantify over these lists. -/
namespace Sys2Proof.Slice0
open Sys2Proof.Machine

/-! ### Integer and address instructions (R70 to R79) -/

/-- An instruction with destination, two sources and their trap bits. -/
abbrev RRR := BitVec 7 → BitVec 7 → BitVec 7 → BitVec 1 → BitVec 1 → Instr
/-- An instruction with destination, one source and its trap bit. -/
abbrev RR := BitVec 7 → BitVec 7 → BitVec 1 → Instr
/-- An instruction with destination and three sources, the third in w0 to w31. -/
abbrev RRRR := BitVec 7 → BitVec 7 → BitVec 7 → BitVec 5 → Instr

/-- Two operands, latency, and D as integers give it (R70 to R73). -/
def integerBinary : List (RRR × Nat × (Word → Word → Word)) :=
  [(.add, 12, fun a b => BitVec.ofNat 64 (a.toNat + b.toNat)),
   (.sub, 12, fun a b => BitVec.ofInt 64 (a.toInt - b.toInt)),
   (.and, 12, fun a b => a &&& b), (.or, 12, fun a b => a ||| b), (.xor, 12, fun a b => a ^^^ b),
   (.shl, 12, fun a b => BitVec.ofNat 64 (a.toNat * 2 ^ (b.toNat % 64))),
   (.shr, 12, fun a b => BitVec.ofNat 64 (a.toNat / 2 ^ (b.toNat % 64))),
   (.sra, 12, fun a b => BitVec.ofInt 64 (a.toInt / 2 ^ (b.toNat % 64))),
   (.mul, 12, fun a b => BitVec.ofNat 64 (a.toNat * b.toNat)),
   (.mulh, 12, fun a b => BitVec.ofInt 64 (a.toInt * b.toInt / 2 ^ 64)),
   (.mulhu, 12, fun a b => BitVec.ofNat 64 (a.toNat * b.toNat / 2 ^ 64)),
   (.div, 40, fun a b => if b = 0 then BitVec.allOnes 64 else BitVec.ofInt 64 (a.toInt.tdiv b.toInt)),
   (.divu, 40, fun a b => if b = 0 then BitVec.allOnes 64 else BitVec.ofNat 64 (a.toNat / b.toNat)),
   (.rem, 40, fun a b => if b = 0 then a else BitVec.ofInt 64 (a.toInt - b.toInt * a.toInt.tdiv b.toInt)),
   (.remu, 40, fun a b => if b = 0 then a else BitVec.ofNat 64 (a.toNat % b.toNat)),
   (.min, 12, fun a b => BitVec.ofInt 64 (min a.toInt b.toInt)), (.max, 12, fun a b => BitVec.ofInt 64 (max a.toInt b.toInt)),
   (.minu, 12, fun a b => BitVec.ofNat 64 (min a.toNat b.toNat)), (.maxu, 12, fun a b => BitVec.ofNat 64 (max a.toNat b.toNat)),
   (.slt, 12, fun a b => if a.toInt < b.toInt then 1 else 0), (.sltu, 12, fun a b => if a.toNat < b.toNat then 1 else 0),
   (.seq, 12, fun a b => if a = b then 1 else 0), (.sne, 12, fun a b => if a = b then 0 else 1)]

/-- The operations of the three majors in the order of their fn (R70 to R73). -/
def integerMajors : List (BitVec 6 × List RRR) :=
  [(0, [.add, .sub, .and, .or, .xor, .shl, .shr, .sra]), (1, [.mul, .mulh, .mulhu, .div, .divu, .rem, .remu]),
   (2, [.min, .max, .minu, .maxu, .slt, .sltu, .seq, .sne])]

/-- One operand, and D (R74). -/
def integerUnary : List (RR × (Word → Word)) :=
  [(.clz, fun a => if a = 0 then 64 else BitVec.ofNat 64 (63 - Nat.log2 a.toNat)),
   (.popc, fun a => BitVec.ofNat 64 ((List.range 64).countP fun i => a.getLsbD i)),
   (.rev, fun a => BitVec.ofNat 64 (bytesNat (natBytes 8 a.toNat).reverse)),
   (.sextB, fun a => BitVec.ofInt 64 (Int.bmod a.toNat (2 ^ 8))), (.sextH, fun a => BitVec.ofInt 64 (Int.bmod a.toNat (2 ^ 16))),
   (.sextW, fun a => BitVec.ofInt 64 (Int.bmod a.toNat (2 ^ 32))), (.zextW, fun a => BitVec.ofNat 64 (a.toNat % 2 ^ 32))]

/-- An operand and a signed 11-bit immediate, and D (R75). -/
def integerImmediate : List ((BitVec 7 → BitVec 7 → BitVec 1 → BitVec 11 → Instr) × (Word → Int → Word)) :=
  [(.addi, fun a i => BitVec.ofInt 64 (a.toInt + i)), (.andi, fun a i => a &&& BitVec.ofInt 64 i),
   (.ori, fun a i => a ||| BitVec.ofInt 64 i), (.xori, fun a i => a ^^^ BitVec.ofInt 64 i),
   (.slti, fun a i => if a.toInt < i then 1 else 0)]

/-- An operand and a shift count, and D (R75). -/
def shiftImmediate : List ((BitVec 7 → BitVec 7 → BitVec 1 → BitVec 6 → Instr) × (Word → Nat → Word)) :=
  [(.shli, fun a n => BitVec.ofNat 64 (a.toNat * 2 ^ n)), (.shri, fun a n => BitVec.ofNat 64 (a.toNat / 2 ^ n)),
   (.srai, fun a n => BitVec.ofInt 64 (a.toInt / 2 ^ n))]

/-! ### Floating point (R80 to R85) -/

/-- Two FP operands, latency, and D with its flags (R80, R82). -/
def floatBinary : List (RRR × Nat × (Word → Word → Vec × BitVec 5)) :=
  [(.faddF32, 12, fun a b => fpResult (fpAdd f32 (fp32Of a) (fp32Of b))), (.fsubF32, 12, fun a b => fpResult (fpSub f32 (fp32Of a) (fp32Of b))),
   (.fmulF32, 12, fun a b => fpResult (fpMul f32 (fp32Of a) (fp32Of b))), (.fdivF32, 24, fun a b => fpResult (fpDiv f32 (fp32Of a) (fp32Of b))),
   (.fminF32, 12, fun a b => fpResult (fpMin f32 (fp32Of a) (fp32Of b))), (.fmaxF32, 12, fun a b => fpResult (fpMax f32 (fp32Of a) (fp32Of b))),
   (.faddF64, 12, fun a b => fpResult (fpAdd f64 (fp64Of a) (fp64Of b))), (.fsubF64, 12, fun a b => fpResult (fpSub f64 (fp64Of a) (fp64Of b))),
   (.fmulF64, 12, fun a b => fpResult (fpMul f64 (fp64Of a) (fp64Of b))), (.fdivF64, 40, fun a b => fpResult (fpDiv f64 (fp64Of a) (fp64Of b))),
   (.fminF64, 12, fun a b => fpResult (fpMin f64 (fp64Of a) (fp64Of b))), (.fmaxF64, 12, fun a b => fpResult (fpMax f64 (fp64Of a) (fp64Of b))),
   (.feqF32, 12, fun a b => relResult (fpEq f32 (fp32Of a) (fp32Of b))), (.fltF32, 12, fun a b => relResult (fpLess f32 (fp32Of a) (fp32Of b))),
   (.fleF32, 12, fun a b => relResult (fpLessEq f32 (fp32Of a) (fp32Of b))), (.funF32, 12, fun a b => relResult (fpUnordered f32 (fp32Of a) (fp32Of b))),
   (.feqF64, 12, fun a b => relResult (fpEq f64 (fp64Of a) (fp64Of b))), (.fltF64, 12, fun a b => relResult (fpLess f64 (fp64Of a) (fp64Of b))),
   (.fleF64, 12, fun a b => relResult (fpLessEq f64 (fp64Of a) (fp64Of b))), (.funF64, 12, fun a b => relResult (fpUnordered f64 (fp64Of a) (fp64Of b)))]

/-- Three FP operands (R81). -/
def floatTernary : List (RRRR × (Word → Word → Word → Vec × BitVec 5)) :=
  [(.ffmaF32, fun a b c => fpResult (fpFma f32 (fp32Of a) (fp32Of b) (fp32Of c))),
   (.ffmaF64, fun a b c => fpResult (fpFma f64 (fp64Of a) (fp64Of b) (fp64Of c)))]

/-- One FP operand: latency, and D with its flags (R80). -/
def floatUnary : List (RR × Nat × (Word → Vec × BitVec 5)) :=
  [(.fsqrtF32, 24, fun a => fpResult (fpSqrt f32 (fp32Of a))), (.fsqrtF64, 40, fun a => fpResult (fpSqrt f64 (fp64Of a)))]

/-- The classes (R85). -/
def floatClass : List (RR × (Word → Nat)) :=
  [(.fclassF32, fun a => fpClass f32 (fp32Of a)), (.fclassF64, fun a => fpClass f64 (fp64Of a))]

/-- Conversions under a rounding mode (R83, R84). -/
def conversions : List ((BitVec 7 → BitVec 7 → BitVec 3 → BitVec 1 → Instr) × (Nat → Word → Vec × BitVec 5)) :=
  [(.fcvtF64F32, fun _ a => fpResult (fpConvert f32 f64 0 (fp32Of a))), (.fcvtF32F64, fun m a => fpResult (fpConvert f64 f32 m (fp64Of a))),
   (.fcvtI64F32, fun m a => intResult (fpToInt f32 m (fp32Of a) (-(2 ^ 63)) (2 ^ 63 - 1))),
   (.fcvtU64F32, fun m a => intResult (fpToInt f32 m (fp32Of a) 0 (2 ^ 64 - 1))),
   (.fcvtI64F64, fun m a => intResult (fpToInt f64 m (fp64Of a) (-(2 ^ 63)) (2 ^ 63 - 1))),
   (.fcvtU64F64, fun m a => intResult (fpToInt f64 m (fp64Of a) 0 (2 ^ 64 - 1))),
   (.fcvtF32I64, fun m a => fpResult (intToFp f32 m a.toInt)), (.fcvtF32U64, fun m a => fpResult (intToFp f32 m a.toNat)),
   (.fcvtF64I64, fun m a => fpResult (intToFp f64 m a.toInt)), (.fcvtF64U64, fun m a => fpResult (intToFp f64 m a.toNat)),
   (.fcvtI32F32, fun m a => intResult (fpToInt f32 m (fp32Of a) (-(2 ^ 31)) (2 ^ 31 - 1))),
   (.fcvtI32F64, fun m a => intResult (fpToInt f64 m (fp64Of a) (-(2 ^ 31)) (2 ^ 31 - 1))),
   (.fcvtBf16F32, fun m a => fpResult (fpConvert f32 bf16 m (fp32Of a))), (.fcvtF32Bf16, fun _ a => fpResult (fpConvert bf16 f32 0 (a.toNat % 2 ^ 16)))]

/-! ### Rounding, in exact arithmetic (R68, R80, R83, R84) -/

/-- The value of a pattern that is a finite number: sign, exponent field and mantissa field as IEEE 754 gives them (R68). -/
def numberOf (f : Fmt) (a : Nat) : Option Rat :=
  let e := a / 2 ^ f.m % 2 ^ f.e
  let m := a % 2 ^ f.m
  if e = 2 ^ f.e - 1 then none
  else some ((if a / 2 ^ (f.e + f.m) % 2 = 1 then -1 else 1) * ((if e = 0 then m else 2 ^ f.m + m : Nat) : Rat) *
    (2 : Rat) ^ (((max e 1 : Nat) : Int) - (f.bias : Int) - (f.m : Int)))
/-- A pattern is a NaN; it is a signalling one; and the NaN with its quiet bit set (R68). -/
def nanBits (f : Fmt) (a : Nat) : Prop := a / 2 ^ f.m % 2 ^ f.e = 2 ^ f.e - 1 ∧ a % 2 ^ f.m ≠ 0
def snanBits (f : Fmt) (a : Nat) : Prop := nanBits f a ∧ a % 2 ^ f.m < 2 ^ (f.m - 1)
def quieted (f : Fmt) (a : Nat) : Nat := a ||| 2 ^ (f.m - 1)
/-- A sign bit in its place, and a pattern's own sign. -/
def signed (f : Fmt) (neg : Bool) (a : Nat) : Nat := if neg then a + 2 ^ (f.e + f.m) else a
def negBit (f : Fmt) (a : Nat) : Bool := a / 2 ^ (f.e + f.m) % 2 == 1
/-- The pattern of +∞. -/
def infBits (f : Fmt) : Nat := (2 ^ f.e - 1) * 2 ^ f.m
/-- A pattern of the format. -/
def Pattern (f : Fmt) (a : Nat) : Prop := a < 2 ^ (f.e + f.m + 1)

/-- n is y rounded to an integer in a mode: 1 toward zero, 2 down, 3 up, and else to the nearest with ties to even (R83). -/
def RoundedTo (mode : Nat) (y : Rat) (n : Int) : Prop :=
  match mode with
  | 1 => (0 ≤ y → (n : Rat) ≤ y ∧ y < n + 1) ∧ (y < 0 → (n : Rat) - 1 < y ∧ y ≤ n)
  | 2 => (n : Rat) ≤ y ∧ y < n + 1
  | 3 => (n : Rat) - 1 < y ∧ y ≤ n
  | _ => 2 * (n : Rat) - 1 ≤ 2 * y ∧ 2 * y ≤ 2 * n + 1 ∧ (2 * y = 2 * n - 1 ∨ 2 * y = 2 * n + 1 → n % 2 = 0)
/-- Pattern and flags of a non-zero exact value x rounded once into a format (R68, R69, R84): the quantum is that of the value's
binade, and no finer than that of the subnormals; a result beyond the largest finite magnitude is ∞ or that magnitude, by the mode, with OF
and NX; an inexact one sets NX, and UF where it is tiny after rounding. -/
def RoundsTo (f : Fmt) (mode : Nat) (x : Rat) (r : Nat × BitVec 5) : Prop :=
  ∃ k n u : Int, (2 : Rat) ^ k ≤ x.abs ∧ x.abs < (2 : Rat) ^ (k + 1) ∧
    let q := max (k - f.m) (1 - (f.bias : Int) - f.m)
    let v : Rat := n * (2 : Rat) ^ q
    let least : Rat := (2 : Rat) ^ (1 - (f.bias : Int))
    RoundedTo mode (x / (2 : Rat) ^ q) n ∧ RoundedTo mode (x / (2 : Rat) ^ (k - f.m)) u ∧ Pattern f r.1 ∧ negBit f r.1 = decide (x < 0) ∧
    (v.abs < (2 : Rat) ^ ((f.bias : Int) + 1) → numberOf f r.1 = some v ∧
      r.2 = (if v = x then 0 else if (u * (2 : Rat) ^ (k - f.m)).abs < least then flagUF ||| flagNX else flagNX)) ∧
    (¬ v.abs < (2 : Rat) ^ ((f.bias : Int) + 1) → r.2 = flagOF ||| flagNX ∧
      r.1 = signed f (decide (x < 0)) (if mode = 1 ∨ mode = 4 ∨ mode = 2 ∧ 0 < x ∨ mode = 3 ∧ x < 0 then infBits f - 1 else infBits f))
/-- Pattern and flags of the positive root of x > 0, rounded once to the nearest, where it needs neither the subnormals nor more than the
largest finite magnitude (R80, R110). -/
def RootsTo (f : Fmt) (x : Rat) (r : Nat × BitVec 5) : Prop :=
  ∃ k n : Int, (2 : Rat) ^ (2 * k) ≤ x ∧ x < (2 : Rat) ^ (2 * k + 2) ∧ 0 < n ∧
    let step : Rat := (2 : Rat) ^ (2 * (k - f.m))
    (2 * (n : Rat) - 1) ^ 2 * step ≤ 4 * x ∧ 4 * x ≤ (2 * (n : Rat) + 1) ^ 2 * step ∧
    ((2 * (n : Rat) - 1) ^ 2 * step = 4 * x ∨ 4 * x = (2 * (n : Rat) + 1) ^ 2 * step → n % 2 = 0) ∧
    numberOf f r.1 = some (n * (2 : Rat) ^ (k - f.m)) ∧ Pattern f r.1 ∧ negBit f r.1 = false ∧ r.2 = if (n : Rat) ^ 2 * step = x then 0 else flagNX

/-- What the arithmetic operations round to (R80, R81), with their zeros, ∞ and NaN (R68, R69). -/
def ArithmeticRounds : Prop :=
  ∀ f ∈ [f32, f64], ∀ a b c : Nat, Pattern f a → Pattern f b → Pattern f c →
    let zero (neg : Bool) : Nat × BitVec 5 := (signed f neg 0, 0)
    let cross := negBit f a != negBit f b
    (∀ x y, numberOf f a = some x → numberOf f b = some y →
      (x + y ≠ 0 → RoundsTo f 0 (x + y) (fpAdd f a b)) ∧ (x + y = 0 → fpAdd f a b = zero (decide (x = 0) && negBit f a && negBit f b)) ∧
      (x - y ≠ 0 → RoundsTo f 0 (x - y) (fpSub f a b)) ∧ (x - y = 0 → fpSub f a b = zero (decide (x = 0) && negBit f a && !negBit f b)) ∧
      (x * y ≠ 0 → RoundsTo f 0 (x * y) (fpMul f a b)) ∧ (x * y = 0 → fpMul f a b = zero cross) ∧
      (x ≠ 0 → y ≠ 0 → RoundsTo f 0 (x / y) (fpDiv f a b)) ∧ (x = 0 → y ≠ 0 → fpDiv f a b = zero cross) ∧
      (x ≠ 0 → y = 0 → fpDiv f a b = (signed f cross (infBits f), flagDZ)) ∧ (x = 0 → y = 0 → fpDiv f a b = (f.nan, flagNV)) ∧
      (∀ z, numberOf f c = some z → (x * y + z ≠ 0 → RoundsTo f 0 (x * y + z) (fpFma f a b c)) ∧
        (x * y + z = 0 → fpFma f a b c = zero (decide (z = 0) && cross && negBit f c))) ∧
      (0 < x → RootsTo f x (fpSqrt f a)) ∧ (x = 0 → fpSqrt f a = (a, 0)) ∧ (x < 0 → fpSqrt f a = (f.nan, flagNV)) ∧
      fpMin f a b = (if x < y ∨ x = y ∧ negBit f a = true then a else b, 0) ∧ fpMax f a b = (if y < x ∨ x = y ∧ negBit f a = false then a else b, 0) ∧
      fpEq f a b = (decide (x = y), 0) ∧ fpLess f a b = (decide (x < y), 0) ∧ fpLessEq f a b = (decide (x ≤ y), 0) ∧
      fpUnordered f a b = (false, 0)) ∧
    (∀ op ∈ [fpAdd, fpSub, fpMul, fpDiv, fpMin, fpMax],
      (nanBits f a → (op f a b).1 = quieted f a) ∧ (¬ nanBits f a → nanBits f b → (op f a b).1 = quieted f b) ∧
      (nanBits f a ∨ nanBits f b → (snanBits f a ∨ snanBits f b → (op f a b).2 = flagNV) ∧ (¬(snanBits f a ∨ snanBits f b) → (op f a b).2 = 0))) ∧
    (∀ s t : Bool, a = signed f s (infBits f) → b = signed f t (infBits f) →
      fpAdd f a b = (if s = t then (a, 0) else (f.nan, flagNV)) ∧ fpSub f a b = (if s = t then (f.nan, flagNV) else (a, 0)) ∧
      fpMul f a b = (signed f cross (infBits f), 0) ∧ fpDiv f a b = (f.nan, flagNV)) ∧
    (∀ (s : Bool) (y : Rat), a = signed f s (infBits f) → numberOf f b = some y →
      fpAdd f a b = (a, 0) ∧ fpAdd f b a = (a, 0) ∧ fpSub f a b = (a, 0) ∧ fpSub f b a = (signed f (!s) (infBits f), 0) ∧
      fpMul f a b = (if y = 0 then (f.nan, flagNV) else (signed f cross (infBits f), 0)) ∧ fpDiv f a b = (signed f cross (infBits f), 0) ∧
      fpDiv f b a = zero cross ∧ fpSqrt f a = (if s then (f.nan, flagNV) else (a, 0)))
/-- What the conversions round to (R83, R84). -/
def ConversionsRound : Prop :=
  (∀ p ∈ [(f32, f64), (f64, f32), (f32, bf16), (bf16, f32)], ∀ (mode a : Nat) (x : Rat), mode ≤ 4 → Pattern p.1 a → numberOf p.1 a = some x →
    (x ≠ 0 → RoundsTo p.2 mode x (fpConvert p.1 p.2 mode a)) ∧ (x = 0 → fpConvert p.1 p.2 mode a = (signed p.2 (negBit p.1 a) 0, 0))) ∧
  (∀ f ∈ [f32, f64], ∀ (mode : Nat) (n : Int), mode ≤ 4 →
    (n ≠ 0 → RoundsTo f mode n (intToFp f mode n)) ∧ (n = 0 → intToFp f mode n = (0, 0))) ∧
  ∀ f ∈ [f32, f64], ∀ (mode a : Nat) (lo hi : Int), mode ≤ 4 → Pattern f a → lo ≤ 0 → 0 ≤ hi →
    (∀ x, numberOf f a = some x → ∃ n, RoundedTo mode x n ∧
      fpToInt f mode a lo hi = if hi < n then (hi, flagNV) else if n < lo then (lo, flagNV) else (n, if (n : Rat) = x then 0 else flagNX)) ∧
    (nanBits f a → fpToInt f mode a lo hi = (0, flagNV)) ∧
    (∀ s : Bool, a = signed f s (infBits f) → fpToInt f mode a lo hi = (if s then lo else hi, flagNV))

/-! ### Vectors (R103 to R112) -/

/-- Lane by lane, with no flags (R103, R104). -/
def laneBinary : List (RRR × (BitVec 32 → BitVec 32 → BitVec 32)) :=
  [(.vaddI32, fun x y => BitVec.ofNat 32 (x.toNat + y.toNat)), (.vsubI32, fun x y => BitVec.ofInt 32 (x.toInt - y.toInt)),
   (.vand, fun x y => x &&& y), (.vor, fun x y => x ||| y), (.vxor, fun x y => x ^^^ y),
   (.vshl, fun x y => BitVec.ofNat 32 (x.toNat * 2 ^ (y.toNat % 32))), (.vshr, fun x y => BitVec.ofNat 32 (x.toNat / 2 ^ (y.toNat % 32))),
   (.vsra, fun x y => BitVec.ofInt 32 (x.toInt / 2 ^ (y.toNat % 32))), (.vmulI32, fun x y => BitVec.ofNat 32 (x.toNat * y.toNat)),
   (.vminI32, fun x y => BitVec.ofInt 32 (min x.toInt y.toInt)), (.vmaxI32, fun x y => BitVec.ofInt 32 (max x.toInt y.toInt))]

/-- A mask of the lanes on which a relation holds, with no flags (R106). -/
def laneRelations : List (RRR × (BitVec 32 → BitVec 32 → Bool)) :=
  [(.vcmpEqI32, fun x y => x == y), (.vcmpLtI32, fun x y => decide (x.toInt < y.toInt)), (.vcmpLtuI32, fun x y => decide (x.toNat < y.toNat))]

/-- Lanes of FP32 with flags, from two entries (R102, R104, R106, R111). -/
def laneFloat : List (RRR × (Vec → Vec → Vec × BitVec 5)) :=
  [(.vaddF32, lanes2 (fpAdd f32)), (.vsubF32, lanes2 (fpSub f32)), (.vmulF32, lanes2 (fpMul f32)), (.vminF32, lanes2 (fpMin f32)),
   (.vmaxF32, lanes2 (fpMax f32)), (.vcmpEqF32, maskLanes (fpEq f32)), (.vcmpLtF32, maskLanes (fpLess f32)),
   (.vcmpLeF32, maskLanes (fpLessEq f32)), (.vcmpUnF32, maskLanes (fpUnordered f32)), (.vpackBf16, packBf16)]

/-- From one entry, with flags and latency (R108, R110). -/
def vectorUnaryFloat : List (RR × Nat × (Vec → Vec × BitVec 5)) :=
  [(.vredAddF32, 12, reduceTree (fpAdd f32)), (.vredMaxF32, 12, reduceTree (fpMax f32)), (.vredMinF32, 12, reduceTree (fpMin f32)),
   (.vrcpF32, 16, lanes1 fpRcp), (.vrsqF32, 16, lanes1 fpRsq), (.vexp2F32, 16, lanes1 fpExp2), (.vlog2F32, 16, lanes1 fpLog2)]

/-- Reductions of all sixteen lanes by an operation that has one order-free result (R108). -/
def laneReductions : List (RR × (List (BitVec 32) → BitVec 32)) :=
  [(.vredAddI32, fun l => BitVec.ofNat 32 ((l.map (·.toNat)).sum)),
   (.vredMaxI32, fun l => BitVec.ofInt 32 ((l.map (·.toInt)).foldl max (l.headD 0).toInt)),
   (.vredMinI32, fun l => BitVec.ofInt 32 ((l.map (·.toInt)).foldl min (l.headD 0).toInt)),
   (.vredOr, fun l => l.foldl (· ||| ·) 0), (.vredAnd, fun l => l.foldl (· &&& ·) (BitVec.allOnes 32))]

/-- The lanes of an entry in order. -/
def lanesOf (v : Vec) : List (BitVec 32) := (List.range 16).map (lane v)

end Sys2Proof.Slice0

open Sys2Proof Sys2Proof.Machine Sys2Proof.Slice0

/-! ### Results of the core's instructions: each issues, is in flight for its latency, and will write D (R26, R65) -/

/-- R70 to R73 with R26, R65: the words of majors 0 to 2 are the binary integer instructions, with fn 7 of major 1 undefined and the
all-zero word excepted. Every one of them with readable sources and a free destination issues; it completes after its latency with D,
and its issue changes nothing else.
Read as log 5 and 22 say, the model's own readings. -/
def Obligations.IntegerBinaryIssues : Prop :=
  (∀ m ∈ integerMajors, ∀ (n : Nat) (op : RRR) (rd ra rb : BitVec 7) (ta tb : BitVec 1), m.2[n]? = some op →
    m.1 ++ rd ++ ra ++ rb ++ BitVec.ofNat 3 n ++ ta ++ tb ≠ 0#32 →
    decodeWord (m.1 ++ rd ++ ra ++ rb ++ BitVec.ofNat 3 n ++ ta ++ tb) = some (op rd ra rb ta tb)) ∧
  (∀ (rd ra rb : BitVec 7) (ta tb : BitVec 1), decodeWord (1#6 ++ rd ++ ra ++ rb ++ 7#3 ++ ta ++ tb) = none) ∧
  ∀ x ∈ integerBinary, ∀ (s : State) (c sl : Nat) (t : Thread) (rd ra rb : BitVec 7) (ta tb : BitVec 1),
    Issuing s c sl t → Readable s c t ra.toNat → Readable s c t rb.toNat → Writable s c t rd.toNat →
    ∃ u, exec (x.1 rd ra rb ta tb) s = .next u ∧
      InFlight s u c sl t x.2.1 [.reg (t.base + rd.toNat) (widen (x.2.2 (regWord s c t ra) (regWord s c t rb)))] (t.pc + 4) ∧
      IssueFrame s u c sl []

/-- R74 to R79 with R26, R65: the words of major 3 with fn 0 to 6, of majors 4 to 0x0C and of major 0x0E are the unary and immediate integer
instructions, MOVI and LEA; they and SEL issue likewise, with D as the rules say.
Read as log 5 and 22 say, the model's own readings. -/
def Obligations.IntegerOtherIssues : Prop :=
  (∀ (n : Nat) (op : RR), (integerUnary.map Prod.fst)[n]? = some op → ∀ (rd ra rb : BitVec 7) (ta tb : BitVec 1),
    decodeWord (3#6 ++ rd ++ ra ++ rb ++ BitVec.ofNat 3 n ++ ta ++ tb) = if rb = 0 ∧ tb = 0 then some (op rd ra ta) else none) ∧
  (∀ (n : Nat) m op, ([4, 5, 6, 7, 11] : List (BitVec 6))[n]? = some m → (integerImmediate.map Prod.fst)[n]? = some op →
    ∀ (rd ra : BitVec 7) (ta : BitVec 1) (imm : BitVec 11), decodeWord (m ++ rd ++ ra ++ ta ++ imm) = some (op rd ra ta imm)) ∧
  (∀ (n : Nat) m op, ([8, 9, 10] : List (BitVec 6))[n]? = some m → (shiftImmediate.map Prod.fst)[n]? = some op →
    ∀ (rd ra : BitVec 7) (ta : BitVec 1) (high : BitVec 5) (k : BitVec 6),
      decodeWord (m ++ rd ++ ra ++ ta ++ high ++ k) = if high = 0 then some (op rd ra ta k) else none) ∧
  (∀ (rd : BitVec 7) (imm : BitVec 19), decodeWord (0x0C#6 ++ rd ++ imm) = some (.movi rd imm)) ∧
  (∀ (rd ra rb : BitVec 7) (sh : BitVec 3) (ta tb : BitVec 1), decodeWord (0x0E#6 ++ rd ++ ra ++ rb ++ sh ++ ta ++ tb) = some (.lea rd ra rb sh ta tb)) ∧
  (∀ x ∈ integerUnary, ∀ (s : State) (c sl : Nat) (t : Thread) (rd ra : BitVec 7) (ta : BitVec 1),
    Issuing s c sl t → Readable s c t ra.toNat → Writable s c t rd.toNat →
    ∃ u, exec (x.1 rd ra ta) s = .next u ∧
      InFlight s u c sl t 12 [.reg (t.base + rd.toNat) (widen (x.2 (regWord s c t ra)))] (t.pc + 4) ∧ IssueFrame s u c sl []) ∧
  (∀ x ∈ integerImmediate, ∀ (s : State) (c sl : Nat) (t : Thread) (rd ra : BitVec 7) (ta : BitVec 1) (imm : BitVec 11),
    Issuing s c sl t → Readable s c t ra.toNat → Writable s c t rd.toNat →
    ∃ u, exec (x.1 rd ra ta imm) s = .next u ∧
      InFlight s u c sl t 12 [.reg (t.base + rd.toNat) (widen (x.2 (regWord s c t ra) imm.toInt))] (t.pc + 4) ∧ IssueFrame s u c sl []) ∧
  (∀ x ∈ shiftImmediate, ∀ (s : State) (c sl : Nat) (t : Thread) (rd ra : BitVec 7) (ta : BitVec 1) (n : BitVec 6),
    Issuing s c sl t → Readable s c t ra.toNat → Writable s c t rd.toNat →
    ∃ u, exec (x.1 rd ra ta n) s = .next u ∧
      InFlight s u c sl t 12 [.reg (t.base + rd.toNat) (widen (x.2 (regWord s c t ra) n.toNat))] (t.pc + 4) ∧ IssueFrame s u c sl []) ∧
  (∀ (s : State) (c sl : Nat) (t : Thread) (rd : BitVec 7) (imm : BitVec 19), Issuing s c sl t → Writable s c t rd.toNat →
    ∃ u, exec (.movi rd imm) s = .next u ∧
      InFlight s u c sl t 12 [.reg (t.base + rd.toNat) (widen (BitVec.ofInt 64 imm.toInt))] (t.pc + 4) ∧ IssueFrame s u c sl []) ∧
  (∀ (s : State) (c sl : Nat) (t : Thread) (rd ra rb : BitVec 7) (sh : BitVec 3) (ta tb : BitVec 1),
    Issuing s c sl t → Readable s c t ra.toNat → Readable s c t rb.toNat → Writable s c t rd.toNat →
    ∃ u, exec (.lea rd ra rb sh ta tb) s = .next u ∧
      InFlight s u c sl t 12
        [.reg (t.base + rd.toNat) (widen (BitVec.ofNat 64 ((regWord s c t ra).toNat + (regWord s c t rb).toNat * 2 ^ sh.toNat)))] (t.pc + 4) ∧
      IssueFrame s u c sl []) ∧
  (∀ (s : State) (c sl : Nat) (t : Thread) (rd ra rb : BitVec 7) (rc : BitVec 5),
    Issuing s c sl t → Readable s c t ra.toNat → Readable s c t rb.toNat → Readable s c t rc.toNat → Writable s c t rd.toNat →
    ∃ u, exec (.sel rd ra rb rc) s = .next u ∧
      InFlight s u c sl t 12
        [.reg (t.base + rd.toNat) (widen (if regWord s c t (rc.setWidth 7) = 0 then regWord s c t rb else regWord s c t ra))] (t.pc + 4) ∧
      IssueFrame s u c sl [])

/-- R77: LDPC. E is PC plus the signed word offset times four; a misaligned E traps MISALIGNED with E, an E that cannot be
fetched traps FETCH_FAULT with E, and otherwise D is the little-endian doubleword at E, or an error token for a lost line.
Read as log 5 and 83 say, the model's own readings. -/
def Obligations.LdpcIssues : Prop :=
  ∀ (s : State) (c sl : Nat) (t : Thread) (rd : BitVec 7) (imm : BitVec 19), Issuing s c sl t → Writable s c t rd.toNat →
    let e : Word := BitVec.ofInt 64 (t.pc.toNat + imm.toInt * 4)
    let o : Op := { c := c, sl := sl, p := ((s.core c).part).getD 0, t := t, pair := none, form := { Form.plain 0x0D 0 with dsts := [(0, rd.toNat)] } }
    (e.toNat % 8 ≠ 0 → exec (.ldpc rd imm) s = .next (s.trapOp o (trapAt t.pc 0x04 e 0))) ∧
    (e.toNat % 8 = 0 → match s.fetchBytes (((s.core c).part).getD 0) e.toNat 8 with
      | .ok bs => ∃ u, exec (.ldpc rd imm) s = .next u ∧
          InFlight s u c sl t 12 [.reg (t.base + rd.toNat) (BitVec.ofNat 512 (bytesNat bs))] (t.pc + 4) ∧ IssueFrame s u c sl []
      | .lost => ∃ u, exec (.ldpc rd imm) s = .next u ∧
          InFlight s u c sl t 12 [.token (t.base + rd.toNat)] (t.pc + 4) ∧ IssueFrame s u c sl []
      | .fault => exec (.ldpc rd imm) s = .next (s.trapOp o (trapAt t.pc 0x06 e 3)))

/-- R80 to R85 with R26, R65, R69: every scalar floating-point instruction issues; it completes after its latency with D and
with the exception flags of its operation. R68, R80 to R84: its operation rounds the exact result once, into the format and in the mode of
the instruction, with the zeros, ∞, NaN and flags that R68 and R69 give.
Read as log 5 says, the model's own readings. -/
def Obligations.FloatIssues : Prop :=
  ArithmeticRounds ∧ ConversionsRound ∧
  (∀ x ∈ floatBinary, ∀ (s : State) (c sl : Nat) (t : Thread) (rd ra rb : BitVec 7) (ta tb : BitVec 1),
    Issuing s c sl t → Readable s c t ra.toNat → Readable s c t rb.toNat → Writable s c t rd.toNat →
    ∃ u, exec (x.1 rd ra rb ta tb) s = .next u ∧
      InFlight s u c sl t x.2.1 [.reg (t.base + rd.toNat) (x.2.2 (regWord s c t ra) (regWord s c t rb)).1,
        .flags (x.2.2 (regWord s c t ra) (regWord s c t rb)).2] (t.pc + 4) ∧ IssueFrame s u c sl []) ∧
  (∀ x ∈ floatTernary, ∀ (s : State) (c sl : Nat) (t : Thread) (rd ra rb : BitVec 7) (rc : BitVec 5),
    Issuing s c sl t → Readable s c t ra.toNat → Readable s c t rb.toNat → Readable s c t rc.toNat → Writable s c t rd.toNat →
    let v := x.2 (regWord s c t ra) (regWord s c t rb) (regWord s c t (rc.setWidth 7))
    ∃ u, exec (x.1 rd ra rb rc) s = .next u ∧
      InFlight s u c sl t 12 [.reg (t.base + rd.toNat) v.1, .flags v.2] (t.pc + 4) ∧ IssueFrame s u c sl []) ∧
  (∀ x ∈ floatUnary, ∀ (s : State) (c sl : Nat) (t : Thread) (rd ra : BitVec 7) (ta : BitVec 1),
    Issuing s c sl t → Readable s c t ra.toNat → Writable s c t rd.toNat →
    ∃ u, exec (x.1 rd ra ta) s = .next u ∧
      InFlight s u c sl t x.2.1 [.reg (t.base + rd.toNat) (x.2.2 (regWord s c t ra)).1, .flags (x.2.2 (regWord s c t ra)).2] (t.pc + 4) ∧
      IssueFrame s u c sl []) ∧
  (∀ x ∈ floatClass, ∀ (s : State) (c sl : Nat) (t : Thread) (rd ra : BitVec 7) (ta : BitVec 1),
    Issuing s c sl t → Readable s c t ra.toNat → Writable s c t rd.toNat →
    ∃ u, exec (x.1 rd ra ta) s = .next u ∧
      InFlight s u c sl t 12 [.reg (t.base + rd.toNat) (BitVec.ofNat 512 (x.2 (regWord s c t ra)))] (t.pc + 4) ∧ IssueFrame s u c sl []) ∧
  (∀ x ∈ conversions, ∀ (s : State) (c sl : Nat) (t : Thread) (rd ra : BitVec 7) (mode : BitVec 3) (ta : BitVec 1),
    Issuing s c sl t → Readable s c t ra.toNat → Writable s c t rd.toNat →
    ∃ u, exec (x.1 rd ra mode ta) s = .next u ∧
      InFlight s u c sl t 12 [.reg (t.base + rd.toNat) (x.2 mode.toNat (regWord s c t ra)).1, .flags (x.2 mode.toNat (regWord s c t ra)).2] (t.pc + 4) ∧
      IssueFrame s u c sl [])

/-- R101 to R108, R110, R111: lane-wise instructions, masks, fused multiply-add, reductions, VRCP, VRSQ, VEXP2, VLOG2 and VPACK issue; D is
given lane by lane. VRCP rounds 1/x and VRSQ 1/√x once to the nearest (R110); what VEXP2 and VLOG2 round to rests on log 16.
Read as log 5 and 16 say, the model's own readings. -/
def Obligations.VectorLaneIssues : Prop :=
  (∀ (a : Nat) (x : Rat), Pattern f32 a → numberOf f32 a = some x →
    (x ≠ 0 → RoundsTo f32 0 (1 / x) (fpRcp a)) ∧ (x = 0 → fpRcp a = (signed f32 (negBit f32 a) (infBits f32), flagDZ)) ∧
    (0 < x → RootsTo f32 (1 / x) (fpRsq a)) ∧ (x = 0 → fpRsq a = (signed f32 (negBit f32 a) (infBits f32), flagDZ)) ∧
    (x < 0 → fpRsq a = (f32.nan, flagNV))) ∧
  (∀ x ∈ laneBinary, ∀ (s : State) (c sl : Nat) (t : Thread) (rd ra rb : BitVec 7) (ta tb : BitVec 1),
    Issuing s c sl t → Readable s c t ra.toNat → Readable s c t rb.toNat → Writable s c t rd.toNat →
    ∃ u d, exec (x.1 rd ra rb ta tb) s = .next u ∧ InFlight s u c sl t 12 [.reg (t.base + rd.toNat) d] (t.pc + 4) ∧ IssueFrame s u c sl [] ∧
      ∀ i < 16, lane d i = x.2 (lane (regVec s c t ra) i) (lane (regVec s c t rb) i)) ∧
  (∀ x ∈ laneRelations, ∀ (s : State) (c sl : Nat) (t : Thread) (rd ra rb : BitVec 7) (ta tb : BitVec 1),
    Issuing s c sl t → Readable s c t ra.toNat → Readable s c t rb.toNat → Writable s c t rd.toNat →
    ∃ u d, exec (x.1 rd ra rb ta tb) s = .next u ∧ InFlight s u c sl t 12 [.reg (t.base + rd.toNat) d] (t.pc + 4) ∧ IssueFrame s u c sl [] ∧
      ∀ i < 512, d.getLsbD i = (decide (i < 16) && x.2 (lane (regVec s c t ra) i) (lane (regVec s c t rb) i))) ∧
  (∀ x ∈ laneFloat, ∀ (s : State) (c sl : Nat) (t : Thread) (rd ra rb : BitVec 7) (ta tb : BitVec 1),
    Issuing s c sl t → Readable s c t ra.toNat → Readable s c t rb.toNat → Writable s c t rd.toNat →
    let v := x.2 (regVec s c t ra) (regVec s c t rb)
    ∃ u, exec (x.1 rd ra rb ta tb) s = .next u ∧
      InFlight s u c sl t 12 [.reg (t.base + rd.toNat) v.1, .flags v.2] (t.pc + 4) ∧ IssueFrame s u c sl []) ∧
  (∀ x ∈ vectorUnaryFloat, ∀ (s : State) (c sl : Nat) (t : Thread) (rd ra : BitVec 7) (ta : BitVec 1),
    Issuing s c sl t → Readable s c t ra.toNat → Writable s c t rd.toNat →
    let v := x.2.2 (regVec s c t ra)
    ∃ u, exec (x.1 rd ra ta) s = .next u ∧
      InFlight s u c sl t x.2.1 [.reg (t.base + rd.toNat) v.1, .flags v.2] (t.pc + 4) ∧ IssueFrame s u c sl []) ∧
  (∀ x ∈ laneReductions, ∀ (s : State) (c sl : Nat) (t : Thread) (rd ra : BitVec 7) (ta : BitVec 1),
    Issuing s c sl t → Readable s c t ra.toNat → Writable s c t rd.toNat →
    ∃ u, exec (x.1 rd ra ta) s = .next u ∧
      InFlight s u c sl t 12 [.reg (t.base + rd.toNat) ((x.2 (lanesOf (regVec s c t ra))).setWidth 512)] (t.pc + 4) ∧ IssueFrame s u c sl []) ∧
  (∀ (s : State) (c sl : Nat) (t : Thread) (rd ra rb : BitVec 7) (rc : BitVec 5),
    Issuing s c sl t → Readable s c t ra.toNat → Readable s c t rb.toNat → Readable s c t rc.toNat → Writable s c t rd.toNat →
    (∃ u, exec (.vfmaF32 rd ra rb rc) s = .next u ∧
      InFlight s u c sl t 12
        [.reg (t.base + rd.toNat) (lanes3 (fpFma f32) (regVec s c t ra) (regVec s c t rb) (regVec s c t (rc.setWidth 7))).1,
         .flags (lanes3 (fpFma f32) (regVec s c t ra) (regVec s c t rb) (regVec s c t (rc.setWidth 7))).2] (t.pc + 4) ∧ IssueFrame s u c sl []) ∧
    (∃ u d, exec (.vsel rd ra rb rc) s = .next u ∧ InFlight s u c sl t 12 [.reg (t.base + rd.toNat) d] (t.pc + 4) ∧ IssueFrame s u c sl [] ∧
      ∀ i < 16, lane d i = if (regVec s c t (rc.setWidth 7)).getLsbD i then lane (regVec s c t ra) i else lane (regVec s c t rb) i))

/-- R109, R111, R112: permutations, broadcasts, insertion, extraction, unpacking and the zero-flag mask.
Read as log 5 and 96 say, the model's own readings. -/
def Obligations.VectorMoveIssues : Prop :=
  (∀ (s : State) (c sl : Nat) (t : Thread) (rd ra rb : BitVec 7) (ta tb : BitVec 1),
    Issuing s c sl t → Readable s c t ra.toNat → Readable s c t rb.toNat → Writable s c t rd.toNat →
    let a := regVec s c t ra
    let b := regVec s c t rb
    (∃ u d, exec (.vperm rd ra rb ta tb) s = .next u ∧ InFlight s u c sl t 12 [.reg (t.base + rd.toNat) d] (t.pc + 4) ∧ IssueFrame s u c sl [] ∧
      ∀ i < 16, lane d i = lane a ((lane b i).toNat % 16)) ∧
    (∃ u, exec (.vext rd ra rb ta tb) s = .next u ∧ IssueFrame s u c sl [] ∧
      InFlight s u c sl t 12 [.reg (t.base + rd.toNat) ((lane a ((scalarOf b).toNat % 16)).setWidth 512)] (t.pc + 4)) ∧
    (∃ u d, exec (.vunpackBf16 rd ra rb ta tb) s = .next u ∧ InFlight s u c sl t 12 [.reg (t.base + rd.toNat) d] (t.pc + 4) ∧ IssueFrame s u c sl [] ∧
      ∀ i < 16, (lane d i).toNat = (halfword a (16 * ((scalarOf b).toNat % 2) + i)).toNat * 2 ^ 16) ∧
    (Readable s c t rd.toNat → ∃ u d, exec (.vins rd ra rb ta tb) s = .next u ∧ InFlight s u c sl t 12 [.reg (t.base + rd.toNat) d] (t.pc + 4) ∧
      IssueFrame s u c sl [] ∧ ∀ i < 16, lane d i = if i = (scalarOf b).toNat % 16 then lane a 0 else lane (regVec s c t rd) i)) ∧
  (∀ (s : State) (c sl : Nat) (t : Thread) (rd ra : BitVec 7) (ta : BitVec 1),
    Issuing s c sl t → Readable s c t ra.toNat → Writable s c t rd.toNat →
    (∃ u d, exec (.vbcast rd ra ta) s = .next u ∧ InFlight s u c sl t 12 [.reg (t.base + rd.toNat) d] (t.pc + 4) ∧ IssueFrame s u c sl [] ∧
      ∀ i < 16, lane d i = lane (regVec s c t ra) 0) ∧
    (∃ u, exec (.vzmask rd ra ta) s = .next u ∧ IssueFrame s u c sl [] ∧
      InFlight s u c sl t 12 [.reg (t.base + rd.toNat) ((s.regAt c (t.base + ra.toNat)).zf.setWidth 512)] (t.pc + 4)))

namespace Sys2Proof.Slice0

/-! An instruction's completion (R26, R31, R65, R91). -/

/-- An instruction in flight may complete: its thread, in no gang and with nothing to happen to it afterwards, stands in code
without a signature table, and its core has not issued in this cycle and is not to be killed at its end (R26, R31, R62, R317). -/
structure Completing (s : State) (c sl : Nat) (t : Thread) (f : Flight) : Prop where
  subject : s.arg.n = c ∧ s.arg.m = sl
  inCore : sl < 64
  slot : s.thread? c sl = some t
  flying : t.state = .inflight f
  due : f.due ≤ s.cycle
  unchecked : f.checked = false
  alone : t.coupled = false
  ordinary : t.after = none
  standing : tabGet? s.doomed c = none
  turn : (s.core c).issued ≠ s.cycle + 1
  plain : s.sectionAt (((s.core c).part).getD 0) t.pc.toNat = none

/-- It is no pair, no last word of an active level, and owes no post. -/
structure Single (t : Thread) (f : Flight) : Prop where
  level0 : t.lp0.active = false
  level1 : t.lp1.active = false
  single : f.pair = none
  owes : f.posts = []

/-- It takes no transfer and ends no block either. -/
structure Straight (t : Thread) (f : Flight) : Prop extends Single t f where
  xfer : f.xfer = .none
  inBlock : f.major < 0x17 ∨ 0x1D < f.major
  goes : f.ends = false

/-- Nothing of the thread is outstanding: no store in its buffer or on its way, no load, and no access has passed others. -/
structure NothingOwed (s : State) (t : Thread) : Prop where
  buffer : t.buffer = []
  stores : ∀ e ∈ s.pend, e.uid ≠ t.uid
  loads : ∀ a ∈ s.arrivals, a.uid ≠ t.uid
  passed : s.passed = []

/-- The thread goes on at the next instruction. -/
def goneOn (s : State) (t : Thread) (f : Flight) : Thread :=
  { t with state := .ready, readyAt := s.cycle, pc := f.next, kept := f.xfer != .none, check := none, forward := none }

/-- One register is written, and no other; and none is. -/
def OnlyReg (s u : State) (c e : Nat) (v : Vec) : Prop :=
  u.regAt c e = Reg.ofVec v ∧ ∀ c' n, n < 2048 → ¬(c' = c ∧ n = e) → u.regAt c' n = s.regAt c' n
def NoReg (s u : State) : Prop := ∀ c' n, u.regAt c' n = s.regAt c' n

/-- Everything but the listed kinds of state is as before: a completion of one thread. -/
def OnlyThread (s u : State) (c sl : Nat) : Prop :=
  (∀ c' sl', ¬(c' = c ∧ sl' = sl) → sl' < 64 → u.thread? c' sl' = s.thread? c' sl') ∧ MemKept s u

/-- No later-issued instruction has written an entry in this cycle (R31). -/
def Prevails (s : State) (c e order : Nat) : Prop := ∀ w ∈ s.wrote, w.1 = c * 2048 + e → w.2 ≤ order

/-- The conditions of BC on A as a signed value (R87). -/
def branches : List ((BitVec 7 → BitVec 1 → BitVec 15 → Instr) × (Int → Prop)) :=
  [(.bcEqz, (· = 0)), (.bcNez, (· ≠ 0)), (.bcLtz, (· < 0)), (.bcGez, (0 ≤ ·)), (.bcGtz, (0 < ·)), (.bcLez, (· ≤ 0))]

/-- A signed displacement in words from an address (R49). -/
def displaced (pc : Addr) (n : Int) : Addr := BitVec.ofInt 48 (pc.toNat + n * 4)

/-- E of a memory word with a scaled signed offset (R113). -/
def effective (a : Word) (off : BitVec 6) (scale : Nat) : Word := BitVec.ofInt 64 (a.toInt + off.toInt * scale)

/-- The scope of acquire and release words: code 0 stands for the device (R120). -/
def orderScope (p : BitVec 3) : Nat := if p = 0 then 5 else p.toNat

/-- Scalar loads: how the value is widened, and the acquire scope (R121). -/
def scalarLoads : List ((BitVec 7 → BitVec 7 → BitVec 2 → BitVec 3 → BitVec 1 → BitVec 6 → Instr) × (Nat → LoadKind) × (BitVec 3 → Option Nat)) :=
  [(.ld, .zero, fun _ => none), (.ldx, .sign, fun _ => none), (.ldAcq, .zero, fun p => some (orderScope p))]
/-- Scalar stores and the release scope (R121). -/
def scalarStores : List ((BitVec 7 → BitVec 7 → BitVec 2 → BitVec 3 → BitVec 1 → BitVec 6 → Instr) × (BitVec 3 → Option Nat)) :=
  [(.st, fun _ => none), (.stRel, fun p => some (orderScope p))]
/-- Fences and their kinds (R125). -/
def fences : List ((BitVec 7 → Instr) × Nat) := [(.fenceRw, 0), (.fenceAcq, 1), (.fenceRel, 2), (.fenceSs, 3)]
/-- Atomics with their operations (R127). -/
def atomics : List (RRR × AmoOp) :=
  [(.amoAdd, .add), (.amoAnd, .and), (.amoOr, .or), (.amoXor, .xor), (.amoMin, .min), (.amoMax, .max), (.amoSwp, .swp)]

/-- The thread's place of trap at an issue, for the statements of traps. -/
def opAt (s : State) (c sl : Nat) (t : Thread) (f : Form) : Op :=
  { c := c, sl := sl, p := ((s.core c).part).getD 0, t := t, pair := none, form := f }

end Sys2Proof.Slice0

/-! ### Control transfer (R86 to R99) -/

/-- R87, R49: BC issues, and goes on at the displaced address where its condition holds and after itself elsewhere; FULL and
EMPTY look at the full/empty bit alone, and trap DATA_LOST on a poisoned entry, full or empty (R36).
Read as log 5 and 96 say, the model's own readings. -/
def Obligations.BranchIssues : Prop :=
  (∀ x ∈ branches, ∀ (s : State) (c sl : Nat) (t : Thread) (ra : BitVec 7) (ta : BitVec 1) (n : BitVec 15),
    Issuing s c sl t → Readable s c t ra.toNat → t.loopEndsAt t.pc = false →
    ∃ u, exec (x.1 ra ta n) s = .next u ∧ IssueFrame s u c sl [] ∧
      (x.2 (regWord s c t ra).toInt → InFlight s u c sl t 12 [] (displaced t.pc n.toInt)) ∧
      (¬ x.2 (regWord s c t ra).toInt → InFlight s u c sl t 12 [] (t.pc + 4))) ∧
  (∀ (s : State) (c sl : Nat) (t : Thread) (ra : BitVec 7) (n : BitVec 15),
    Issuing s c sl t → ra.toNat < t.size → t.loopEndsAt t.pc = false →
    let r := s.regAt c (t.base + ra.toNat)
    (r.poison = false → r.full = true →
      (∃ u, exec (.bcFull ra n) s = .next u ∧ IssueFrame s u c sl [] ∧ InFlight s u c sl t 12 [] (displaced t.pc n.toInt)) ∧
      (∃ u, exec (.bcEmpty ra n) s = .next u ∧ IssueFrame s u c sl [] ∧ InFlight s u c sl t 12 [] (t.pc + 4))) ∧
    (r.poison = false → r.full = false →
      (∃ u, exec (.bcFull ra n) s = .next u ∧ IssueFrame s u c sl [] ∧ InFlight s u c sl t 12 [] (t.pc + 4)) ∧
      (∃ u, exec (.bcEmpty ra n) s = .next u ∧ IssueFrame s u c sl [] ∧ InFlight s u c sl t 12 [] (displaced t.pc n.toInt))) ∧
    (r.poison = true → ∀ i, i = .bcFull ra n ∨ i = .bcEmpty ra n →
      ∃ o, o.c = c ∧ o.sl = sl ∧ o.t = t ∧ o.pair = none ∧
        exec i s = .next (s.trapOp o (trapAt t.pc 0x0E (BitVec.ofNat 64 (ra.toNat + 256)) (match r.token with
          | some k => BitVec.ofNat 64 (k + 2 ^ 16)
          | none => 0)))))

/-- R88, R89: J, CALL, JR, CALLR and RET issue with their targets, the calls with lk; a misaligned register target traps
MISALIGNED with the target, and lk is unchanged. A displaced target outside 48 bits wraps, as log 96 has it.
Read as log 5 and 96 say, the model's own readings. -/
def Obligations.JumpIssues : Prop :=
  ∀ (s : State) (c sl : Nat) (t : Thread), Issuing s c sl t → t.loopEndsAt t.pc = false →
    (∀ n : BitVec 26, (∃ u, exec (.j n) s = .next u ∧ IssueFrame s u c sl [] ∧ InFlight s u c sl t 12 [] (displaced t.pc n.toInt)) ∧
      (∃ u, exec (.call n) s = .next u ∧ IssueFrame s u c sl [] ∧ InFlight s u c sl t 12 [.lk (t.pc + 4)] (displaced t.pc n.toInt))) ∧
    (∀ (ra : BitVec 7) (ta : BitVec 1), Readable s c t ra.toNat →
      let target : Addr := (regWord s c t ra).setWidth 48
      (target.toNat % 4 = 0 →
        (∃ u, exec (.jr ra ta) s = .next u ∧ IssueFrame s u c sl [] ∧ InFlight s u c sl t 12 [] target) ∧
        (∃ u, exec (.callr ra ta) s = .next u ∧ IssueFrame s u c sl [] ∧ InFlight s u c sl t 12 [.lk (t.pc + 4)] target)) ∧
      (target.toNat % 4 ≠ 0 → ∀ i, i = .jr ra ta ∨ i = .callr ra ta →
        ∃ v o, OnlyFlips s v ∧ o.c = c ∧ o.sl = sl ∧ o.t = t ∧ o.pair = none ∧
          exec i s = .next (v.trapOp o (trapAt t.pc 0x04 (target.setWidth 64) 0)))) ∧
    (t.lk.toNat % 4 = 0 → ∃ u, exec .ret s = .next u ∧ IssueFrame s u c sl [] ∧ InFlight s u c sl t 12 [] t.lk)

/-- R90: LOOP with a count of zero clears the level and skips the body; with another count it sets the level. An end or a skip address outside
48 bits wraps, as log 96 has it.
Read as log 5 and 96 say, the model's own readings. -/
def Obligations.LoopIssues : Prop :=
  ∀ (s : State) (c sl : Nat) (t : Thread) (ra : BitVec 7) (stop : BitVec 12) (level : BitVec 1),
    Issuing s c sl t → Readable s c t ra.toNat → t.loopEndsAt t.pc = false →
    let a := regWord s c t ra
    let old := if level = 0 then t.lp0 else t.lp1
    ∃ u, exec (.loop ra stop level) s = .next u ∧ IssueFrame s u c sl [] ∧
      (a = 0 → InFlight s u c sl t 12 [.loop level.toNat { old with active := false }]
        (BitVec.ofNat 48 (t.pc.toNat + (stop.toNat + 1) * 4))) ∧
      (a ≠ 0 → InFlight s u c sl t 12
        [.loop level.toNat { start := t.pc + 4, stop := BitVec.ofNat 48 (t.pc.toNat + stop.toNat * 4), count := a, active := true }] (t.pc + 4))

/-- R93 to R96, R98: FORK, JOIN, ENDS and SPLIT issue.
Read as log 5, 7 and 96 say, the model's own readings. -/
def Obligations.StrandAndGangIssues : Prop :=
  (∀ (s : State) (c sl : Nat) (t : Thread) (ra : BitVec 7) (ta : BitVec 1) (n : BitVec 15),
    Issuing s c sl t → Readable s c t ra.toNat → t.loopEndsAt t.pc = false →
    (∃ u, exec (.fork ra ta n) s = .next u ∧ IssueFrame s u c sl [] ∧
      InFlight s u c sl t 12 [.fork (displaced t.pc n.toInt) (regWord s c t ra)] (t.pc + 4)) ∧
    (∃ u, exec (.join ra ta) s = .next u ∧ IssueFrame s u c sl [] ∧
      InFlightAtLeast s u c sl t 12 [.join (regWord s c t ra)] (t.pc + 4))) ∧
  (∀ (s : State) (c sl : Nat) (t : Thread), Issuing s c sl t →
    (t.loopEndsAt t.pc = false → ∃ u, exec .ends s = .next u ∧ IssueFrame s u c sl [] ∧ InFlight s u c sl t 12 [.ends] (t.pc + 4)) ∧
    (∃ u, exec .split s = .next u ∧ IssueFrame s u c sl [] ∧ InFlight s u c sl t 12 [.split] (t.pc + 4)))

/-- R99: the word of GANGID is major 0x1E, fn 2, with ra, rb, ta and tb zero, 0x78180008 for w3; its D holds the gang fields of
sr.thread: COUPLED in bit 6, GANG_POS in bits 5 and 4, GANG_MASK in bits 3 to 0; the member on core 2 of a gang of cores 0 to 3 gets
0x6F.
Read as log 5 says, the model's own readings. -/
def Obligations.GangidGivesItsGang : Prop :=
  (∀ (rd ra rb : BitVec 7) (ta tb : BitVec 1), decodeWord (0x1E#6 ++ rd ++ ra ++ rb ++ 2#3 ++ ta ++ tb) =
    if ra = 0 ∧ rb = 0 ∧ ta = 0 ∧ tb = 0 then some (.gangid rd) else none) ∧
  decodeWord 0x78180008#32 = some (.gangid 3) ∧
  ∀ (s : State) (c sl : Nat) (t : Thread) (rd : BitVec 7), Issuing s c sl t → Writable s c t rd.toNat →
    ∃ u d, exec (.gangid rd) s = .next u ∧ IssueFrame s u c sl [] ∧ InFlight s u c sl t 12 [.reg (t.base + rd.toNat) d] (t.pc + 4) ∧
      (∀ i, d.getLsbD i = if i < 4 then t.gangMask.getLsbD i else if i < 6 then t.gangPos.getLsbD (i - 4) else decide (i = 6) && t.coupled) ∧
      (t.coupled = true → t.gangMask = 15 → t.gangPos = 2 → d = 0x6F)

/-- R97: COUPLE in a core that its mask names, of at least two cores, whose every other member waits in COUPLE in the same slot with
the same mask, while no other core of the cluster does: it completes 12 cycles later with status 0 and joins the gang. A mask
that R97 refuses gives status 1, a thread that is coupled already status 3.
Read as log 24, 25 and 96 say, the model's own readings. -/
def Obligations.CoupleMeets : Prop :=
  ∀ (s : State) (c sl : Nat) (t : Thread) (rd ra : BitVec 7) (ta : BitVec 1),
    Issuing s c sl t → Readable s c t ra.toNat → Writable s c t rd.toNat →
    let a := regWord s c t ra
    let m : BitVec 4 := a.setWidth 4
    let members := (List.range 4).filter fun n => m.getLsbD n
    (16 ≤ a.toNat ∨ m.getLsbD (c % 4) = false ∨ members.length < 2 →
      ∃ u, exec (.couple rd ra ta) s = .next u ∧ IssueFrame s u c sl [] ∧ InFlight s u c sl t 12 [.reg (t.base + rd.toNat) 1] (t.pc + 4)) ∧
    (a.toNat < 16 → m.getLsbD (c % 4) = true → 2 ≤ members.length → t.coupled = true →
      ∃ u, exec (.couple rd ra ta) s = .next u ∧ IssueFrame s u c sl [] ∧ InFlight s u c sl t 12 [.reg (t.base + rd.toNat) 3] (t.pc + 4)) ∧
    (a.toNat < 16 → m.getLsbD (c % 4) = true → 2 ≤ members.length → t.coupled = false →
      (∀ n < 4, n ≠ c % 4 → m.getLsbD n = true → (s.core (c / 4 * 4 + n)).part = some (((s.core c).part).getD 0) ∧
        ∃ v d since sig, s.thread? (c / 4 * 4 + n) sl = some v ∧ v.state = .blocked (.couple d m since sig)) →
      (∀ n < 4, n ≠ c % 4 → m.getLsbD n = false → ∀ v, s.thread? (c / 4 * 4 + n) sl = some v →
        ∀ d k since sig, v.state ≠ .blocked (.couple d k since sig)) →
      ∃ u f, exec (.couple rd ra ta) s = .next u ∧ u.thread? c sl = some { t with state := .inflight f } ∧
        f.fx = [.reg (t.base + rd.toNat) 0, .gang m] ∧ f.due = s.cycle + 12)

/-! ### Memory (R113 to R128) -/

/-- R116, R120, R121: scalar loads and stores issue with E and the size of their code; a load's destination is empty from then on.
Read as log 5 says, the model's own readings. -/
def Obligations.ScalarMemoryIssues : Prop :=
  (∀ x ∈ scalarLoads, ∀ (s : State) (c sl : Nat) (t : Thread) (rd ra : BitVec 7) (sz : BitVec 2) (p : BitVec 3) (ta : BitVec 1) (off : BitVec 6),
    Issuing s c sl t → Readable s c t ra.toNat → Writable s c t rd.toNat →
    let n := 2 ^ sz.toNat
    ∃ u, exec (x.1 rd ra sz p ta off) s = .next u ∧ IssueFrame s u c sl [t.base + rd.toNat] ∧
      InFlightAtLeast s u c sl t 12 [.load (t.base + rd.toNat) (x.2.1 n) [effective (regWord s c t ra) off n] n (x.2.2 p)] (t.pc + 4)) ∧
  (∀ x ∈ scalarStores, ∀ (s : State) (c sl : Nat) (t : Thread) (rs ra : BitVec 7) (sz : BitVec 2) (p : BitVec 3) (ta : BitVec 1) (off : BitVec 6),
    Issuing s c sl t → Readable s c t ra.toNat → Readable s c t rs.toNat →
    let n := 2 ^ sz.toNat
    ∃ u, exec (x.1 rs ra sz p ta off) s = .next u ∧ IssueFrame s u c sl [] ∧
      InFlightAtLeast s u c sl t 12
        [.store [(effective (regWord s c t ra) off n, natBytes n (regWord s c t rs).toNat)] n (x.2 p)] (t.pc + 4))

/-- R122, R123: vector loads and stores issue with the addresses of their lines and lanes.
Read as log 5 says, the model's own readings. -/
def Obligations.VectorMemoryIssues : Prop :=
  (∀ (s : State) (c sl : Nat) (t : Thread) (rd ra : BitVec 7) (p : BitVec 3) (ta : BitVec 1) (off : BitVec 6),
    Issuing s c sl t → Readable s c t ra.toNat →
    (Writable s c t rd.toNat → ∃ u, exec (.vld rd ra p ta off) s = .next u ∧ IssueFrame s u c sl [t.base + rd.toNat] ∧
      InFlightAtLeast s u c sl t 12 [.load (t.base + rd.toNat) .line [effective (regWord s c t ra) off 64] 64 none] (t.pc + 4)) ∧
    (Readable s c t rd.toNat → ∃ u, exec (.vst rd ra p ta off) s = .next u ∧ IssueFrame s u c sl [] ∧
      InFlightAtLeast s u c sl t 12
        [.store [(effective (regWord s c t ra) off 64, natBytes 64 (regVec s c t rd).toNat)] 64 none] (t.pc + 4))) ∧
  (∀ (s : State) (c sl : Nat) (t : Thread) (rd ra rb : BitVec 7) (sh : BitVec 3) (ta tb : BitVec 1),
    Issuing s c sl t → Readable s c t ra.toNat → Readable s c t rb.toNat →
    let spread := (List.range 16).map fun i =>
      BitVec.ofInt 64 ((regWord s c t ra).toInt + (lane (regVec s c t rb) i).toInt * 2 ^ sh.toNat)
    (Writable s c t rd.toNat →
      (∃ u, exec (.vlds rd ra rb ta tb) s = .next u ∧ IssueFrame s u c sl [t.base + rd.toNat] ∧
        InFlightAtLeast s u c sl t 12 [.load (t.base + rd.toNat) .lanes
          ((List.range 16).map fun (i : Nat) => BitVec.ofInt 64 ((regWord s c t ra).toInt + (i : Int) * (regWord s c t rb).toInt)) 4 none] (t.pc + 4)) ∧
      (∃ u, exec (.vgath rd ra rb sh ta tb) s = .next u ∧ IssueFrame s u c sl [t.base + rd.toNat] ∧
        InFlightAtLeast s u c sl t 12 [.load (t.base + rd.toNat) .lanes spread 4 none] (t.pc + 4))) ∧
    (Readable s c t rd.toNat → ∃ u, exec (.vscat rd ra rb sh ta tb) s = .next u ∧ IssueFrame s u c sl [] ∧
      InFlightAtLeast s u c sl t 12
        [.store (spread.zip ((List.range 16).map fun i => natBytes 4 (lane (regVec s c t rd) i).toNat)) 4 none] (t.pc + 4)))

/-- R124 to R128: PREF, the fences, the atomics and CAS issue; an atomic's destination is empty from then on.
Read as log 5 and 7 say, the model's own readings. -/
def Obligations.OrderAndAtomicIssues : Prop :=
  (∀ (s : State) (c sl : Nat) (t : Thread) (ra : BitVec 7) (p : BitVec 3) (ta : BitVec 1) (off : BitVec 6),
    Issuing s c sl t → Readable s c t ra.toNat →
    ∃ u, exec (.pref ra p ta off) s = .next u ∧ IssueFrame s u c sl [] ∧
      InFlight s u c sl t 12 [.pref (effective (regWord s c t ra) off 64) p.toNat] (t.pc + 4)) ∧
  (∀ x ∈ fences, ∀ (s : State) (c sl : Nat) (t : Thread) (p : BitVec 7), Issuing s c sl t →
    ∃ u, exec (x.1 p) s = .next u ∧ IssueFrame s u c sl [] ∧
      InFlight s u c sl t 12 [.fence x.2 (if p = 0 then 5 else p.toNat)] (t.pc + 4)) ∧
  (∀ x ∈ atomics, ∀ (s : State) (c sl : Nat) (t : Thread) (rd ra rb : BitVec 7) (acq rel : BitVec 1),
    Issuing s c sl t → Readable s c t ra.toNat → Readable s c t rb.toNat → Writable s c t rd.toNat →
    ∃ u, exec (x.1 rd ra rb acq rel) s = .next u ∧ IssueFrame s u c sl [t.base + rd.toNat] ∧
      InFlightAtLeast s u c sl t 12
        [.atomic (t.base + rd.toNat) x.2 (regWord s c t ra) (regWord s c t rb) 0 (acq == 1#1) (rel == 1#1)] (t.pc + 4)) ∧
  (∀ (s : State) (c sl : Nat) (t : Thread) (rd ra rb : BitVec 7) (rc : BitVec 5),
    Issuing s c sl t → Readable s c t ra.toNat → Readable s c t rb.toNat → Readable s c t rc.toNat → Writable s c t rd.toNat →
    ∃ u, exec (.cas rd ra rb rc) s = .next u ∧ IssueFrame s u c sl [t.base + rd.toNat] ∧
      InFlightAtLeast s u c sl t 12
        [.atomic (t.base + rd.toNat) .cas (regWord s c t ra) (regWord s c t rb) (regWord s c t (rc.setWidth 7)) true true] (t.pc + 4))

namespace Sys2Proof.Slice0

/-- SYS instructions with destination rd and source ra that complete in their latency: their effect on the destination entry and
A (R139, R144, R307, R308, R345, R348). -/
def sysEffects : List ((BitVec 7 → BitVec 7 → Instr) × (Nat → Word → Effect)) :=
  [(.thrStop, .thrStop), (.thrResume, fun e a => .thrResume e a false), (.thrResumeNext, fun e a => .thrResume e a true),
   (.thrSwap, .thrSwap), (.thrSwapIn, .thrSwapIn), (.arriveClu, fun e a => .arrive e 3 a), (.arriveDeck, fun e a => .arrive e 4 a),
   (.arriveDev, fun e a => .arrive e 5 a), (.launchQuery, .launchQuery), (.launchAge, .launchAge),
   (.cancelLaunch, fun e a => .cancel e 0 false a), (.cancelGraph, fun e a => .cancel e 1 false a),
   (.cancelPhase, fun e a => .cancel e 2 false a), (.cancelJob, fun e a => .cancel e 3 false a),
   (.cancelGraphRewind, fun e a => .cancel e 1 true a), (.amHandler, .amHandler), (.lnkStatus, .lnkStatus)]

/-- SYS requests that the firmware serves, and that a condition may hold beyond the latency (R257, R258, R281 to R283). -/
def sysRequests : List ((BitVec 7 → BitVec 7 → Instr) × (Nat → Word → Word → Effect)) :=
  [(.memUnmap, .memUnmap)]
/-- The mapping requests with protection and attribute fields (R281, R283). -/
def mapRequests : List ((BitVec 7 → BitVec 7 → BitVec 2 → BitVec 2 → Instr) × (Nat → Nat → Nat → Word → Word → Effect)) :=
  [(.memMap, fun e p at_ d a => .memMap e 0 p at_ d a), (.memMapAlias, fun e p at_ d a => .memMap e 1 p at_ d a),
   (.memMapRemote, fun e p at_ d a => .memMap e 2 p at_ d a), (.memAttr, fun e p at_ d a => .memAttr e p at_ d a)]

/-- The requests of the Keystone: the length of the buffer at A that is checked, whether it is written, and the effect (R371 to R377). -/
def keystoneRequests : List ((BitVec 7 → BitVec 7 → Instr) × Nat × Bool × (Nat → Word → Word → Effect)) :=
  [(.wrtPresent, 640, false, fun e _ a => .wrtPresent e 0 a), (.wrtPresentToken, 640, false, fun e _ a => .wrtPresent e 1 a),
   (.wrtPresentRevoke, 256, false, fun e _ a => .wrtPresent e 2 a), (.wrtDelegate, 512, true, .wrtDelegate),
   (.attest, 512, true, fun e _ a => .attest e a)]

/-- The task channel q8 + q that PARK names (R310): an open input of its mask, all of whose channels are inputs, below which no open
channel of the mask has an entry or a killed feeder. -/
structure ParkPicks (s : State) (c : Nat) (t : Thread) (mask : Word) (q : Nat) (b : Binding) (h : Chan) : Prop where
  inputs : ∀ i < 8, mask.getLsbD i = true → ∃ d, tabGet? t.chans i = some d ∧ d.dir = 1
  inMask : q < 8 ∧ mask.getLsbD q = true
  binding : tabGet? t.chans q = some b
  goesOn : b.ended = false
  chan : s.chan? (((s.core c).part).getD 0) (chanKey b.graph b.chan) = some h
  lowest : ∀ i < q, mask.getLsbD i = true → ∀ d, tabGet? t.chans i = some d → d.ended = false →
    ∃ k, s.chan? (((s.core c).part).getD 0) (chanKey d.graph d.chan) = some k ∧ k.entries = [] ∧ k.killed = none

/-- The system registers that SYS.GET reads without a free value (R147): time, thread, core, window, scratch steps, flags, link,
cycle, and the lost count. -/
def systemRegister (s : State) (c sl : Nat) (t : Thread) (x : Nat) : Nat :=
  match x with
  | 0 => s.timeQ / 4 % 2 ^ 64
  | 1 => sl + ((s.core c).part).getD 0 % 32 * 2 ^ 8 + c % 1024 * 2 ^ 16 + t.gangMask.toNat * 2 ^ 32 + t.gangPos.toNat * 2 ^ 36 +
      (if t.coupled then 2 ^ 38 else 0) + (if t.forkInline then 2 ^ 39 else 0)
  | 2 => c % 1024 + ((s.core c).part).getD 0 % 32 * 2 ^ 16 + Config.deviceId.toNat * 2 ^ 32
  | 3 => t.base + t.size % 256 * 2 ^ 16
  | 4 => (s.core c).steps % 2 ^ 64
  | 5 => t.fflags.toNat
  | 6 => t.lk.toNat
  | 7 => s.cycle % 2 ^ 64
  | _ => (s.core c).nlost.toNat

end Sys2Proof.Slice0

/-! ### Queues and events (R129 to R137) -/

/-- R131: QPUSH to a command queue with a well-formed command and room issues; it takes one place of the completion queue at once
and will give its command and operands to the queue. To a bound output channel with room it will give the entry wc.
Read as log 5 says, the model's own readings. -/
def Obligations.QpushIssues : Prop :=
  ∀ (s : State) (c sl : Nat) (t : Thread) (q : BitVec 5) (rd wc : BitVec 7) (ws : BitVec 5) (tb : BitVec 1),
    Issuing s c sl t → Readable s c t wc.toNat → Writable s c t rd.toNat → rd ≠ wc →
    (q = 0 ∨ q = 2 ∨ q = 4 → Readable s c t (wc.toNat + 1) → (ws ≠ 0 → Readable s c t ws.toNat) → rd.toNat ≠ wc.toNat + 1 →
      let cmd : BitVec 256 := (regVec s c t wc).setWidth 256
      let v := (s.regAt c (t.base + wc.toNat + 1)).val
      let opr := if ws = 0 then v else withScales v (regWord s c t (ws.setWidth 7))
      cmd.toNat / 2 ^ 248 = q.toNat / 2 + 1 → cmd.toNat / 2 ^ 224 % 16 = 0 → s.cmdRoom c q.toNat ≠ 0 →
      ∃ u, exec (.qpush q rd wc ws tb) s = .next u ∧
        InFlight s u c sl t 12 [.qpush (t.base + rd.toNat) q.toNat cmd opr] (t.pc + 4) ∧
        IssueFrame (s.modCore c fun k => k.setReserved (q.toNat + 1) (k.reservedOf (q.toNat + 1) + 1)) u c sl []) ∧
    (∀ key, t.queueOf q.toNat = .output key → s.chanRoom (((s.core c).part).getD 0) key ≠ 0 →
      ∃ u, exec (.qpush q rd wc ws tb) s = .next u ∧ IssueFrame s u c sl [] ∧
        InFlight s u c sl t 12 [.qpush (t.base + rd.toNat) q.toNat 0 (regVec s c t wc)] (t.pc + 4))

/-- A record at the head of a queue that a pop takes: a completion queue, q6 or q7, and what follows it. -/
def Sys2Proof.Slice0.HeadOf (s : State) (c : Nat) (q : BitVec 5) (v : Vec) (rest : List Vec) : Prop :=
  (q = 1 ∨ q = 3 ∨ q = 5) ∧ (s.core c).compsOf q.toNat = v :: rest ∨ q = 6 ∧ (s.core c).q6 = v :: rest ∨ q = 7 ∧ (s.core c).q7 = v :: rest

/-- R132, R32: a pop of a completion queue, q6 or q7 that holds a record removes the oldest at its issue; the record arrives in
the destination 12 cycles later, with the status word (kind 0, entries left in bits 31 to 16) in the status forms. The trapping
forms do so too when the record is not one of a fault.
Read as log 5 says, the model's own readings. -/
def Obligations.QpopIssues : Prop :=
  ∀ (s : State) (c sl : Nat) (t : Thread) (q : BitVec 5) (rd : BitVec 7) (v : Vec) (rest : List Vec),
    Issuing s c sl t → Writable s c t rd.toNat → HeadOf s c q v rest →
    (∀ i : Instr, i = .qpop q rd ∨ i = .qpopTrap q rd ∧ (q.toNat < 6 → fieldAt v 4 1 = 0) →
      ∃ u a, exec i s = .next u ∧ InFlight s u c sl t 12 [] (t.pc + 4) ∧
        u.arrivals = s.arrivals ++ [a] ∧ a.core = c ∧ a.rd = t.base + rd.toNat ∧ a.ws = none ∧ a.prod = .value v none ∧ a.due = s.cycle + 12 ∧
        (u.regAt c (t.base + rd.toNat)).full = false ∧
        (u.core c).compsOf q.toNat = (if q.toNat < 6 then rest else (s.core c).compsOf q.toNat) ∧
        (u.core c).q6 = (if q = 6 then rest else (s.core c).q6) ∧ (u.core c).q7 = (if q = 7 then rest else (s.core c).q7)) ∧
    (∀ (ws : BitVec 7) (i : Instr), Writable s c t ws.toNat → ws ≠ rd → i = .qpopStatus q rd ws ∨ i = .qpopTrapStatus q rd ws ∧ (q.toNat < 6 → fieldAt v 4 1 = 0) →
      ∃ u a, exec i s = .next u ∧ InFlight s u c sl t 12 [] (t.pc + 4) ∧
        u.arrivals = s.arrivals ++ [a] ∧ a.core = c ∧ a.rd = t.base + rd.toNat ∧ a.ws = some (t.base + ws.toNat) ∧
        a.prod = .value v (some (BitVec.ofNat 64 (rest.length * 2 ^ 16))) ∧ a.due = s.cycle + 12 ∧
        (u.regAt c (t.base + rd.toNat)).full = false ∧ (u.regAt c (t.base + ws.toNat)).full = false)

/-- R132: a trapping pop of a completion record whose status is not zero traps ENGINE_FAULT's or the recorded code with the record's
first doubleword, and the record is not removed.
Read as log 5 says, the model's own readings. -/
def Obligations.QpopTrapTakesTheFault : Prop :=
  ∀ (s : State) (c sl : Nat) (t : Thread) (q : BitVec 5) (rd ws : BitVec 7) (v : Vec) (rest : List Vec),
    Issuing s c sl t → Writable s c t rd.toNat → Writable s c t ws.toNat → ws ≠ rd → q = 1 ∨ q = 3 ∨ q = 5 →
    (s.core c).compsOf q.toNat = v :: rest → fieldAt v 4 1 ≠ 0 →
    ∀ i, i = .qpopTrap q rd ∨ i = .qpopTrapStatus q rd ws →
      ∃ o, o.c = c ∧ o.sl = sl ∧ o.t = t ∧ o.pair = none ∧
        exec i s = .next (s.trapOp o
          { trapAt t.pc (fieldAt v 4 1) (BitVec.ofNat 64 (v.toNat % 2 ^ 64)) (BitVec.ofNat 64 (fieldAt v 0x10 8)) with
            detail := if fieldAt v 4 1 = 0x0F then fieldAt v 5 1 else 0, flags := 0x10 })

/-- R133, R137: QTEST of a queue the thread has, and the event instructions, issue; EVT.WAIT waits for its term.
Read as log 5 and 24 say, the model's own readings. -/
def Obligations.QueueTestAndEventIssues : Prop :=
  (∀ (s : State) (c sl : Nat) (t : Thread) (n : BitVec 5) (ra rb rd : BitVec 7) (ta tb : BitVec 1), Issuing s c sl t →
    (Readable s c t ra.toNat →
      (∃ u, exec (.evtTerm n ra ta) s = .next u ∧ IssueFrame s u c sl [] ∧ InFlight s u c sl t 12 [.evtTerm n.toNat (regWord s c t ra)] (t.pc + 4)) ∧
      (∃ u, exec (.evtArm n ra ta) s = .next u ∧ IssueFrame s u c sl [] ∧ InFlight s u c sl t 12 [.evtArm n.toNat (regWord s c t ra)] (t.pc + 4)) ∧
      (Readable s c t rb.toNat → ∃ u, exec (.evtCnt n ra rb ta tb) s = .next u ∧ IssueFrame s u c sl [] ∧
        InFlight s u c sl t 12 [.evtCnt n.toNat (regWord s c t ra) (regWord s c t rb)] (t.pc + 4))) ∧
    (Writable s c t rd.toNat →
      (∃ u, exec (.evtRead n rd) s = .next u ∧ IssueFrame s u c sl [] ∧ InFlight s u c sl t 12 [.evtRead (t.base + rd.toNat) n.toNat] (t.pc + 4)) ∧
      (t.queueOf n.toNat ≠ .invalid → ∃ u, exec (.qtest n rd) s = .next u ∧ IssueFrame s u c sl [] ∧
        InFlight s u c sl t 12 [.qtest (t.base + rd.toNat) n.toNat] (t.pc + 4)) ∧
      (t.queueOf n.toNat = .invalid → ∃ o, o.c = c ∧ o.sl = sl ∧ o.t = t ∧ o.pair = none ∧
        exec (.qtest n rd) s = .next (s.trapOp o (trapAt t.pc 0x0A (BitVec.ofNat 64 n.toNat) 0)))) ∧
    (∃ u, exec (.evtWait n) s = .next u ∧ u.thread? c sl = some { t with state := .blocked (.term n.toNat) } ∧ MemKept s u ∧ RegsKept s u c []))

/-! ### System registers, traps and thread control (R138 to R148) -/

/-- R147, R148: SYS.GET gives the system register that aux names, and of the energy counter a free value; SYS.SET will write A to it;
TIME gives the time (R148).
Read as log 5 and 14 say, the model's own readings. -/
def Obligations.SystemRegisterIssues : Prop :=
  ∀ (s : State) (c sl : Nat) (t : Thread) (rd ra : BitVec 7) (aux : BitVec 6), Issuing s c sl t →
    (Writable s c t rd.toNat → aux.toNat < 10 → aux ≠ 8 → ∃ u, exec (.sysGet rd aux) s = .next u ∧ IssueFrame s u c sl [] ∧
      InFlight s u c sl t 12 [.reg (t.base + rd.toNat) (BitVec.ofNat 512 (systemRegister s c sl t aux.toNat))] (t.pc + 4)) ∧
    (Writable s c t rd.toNat → ∃ u, exec (.sysGet rd 8) s = .next u ∧ u.estimates = s.estimates + 1 ∧ RegsKept s u c [] ∧ MemKept s u ∧
      InFlight s u c sl t 12 [.reg (t.base + rd.toNat) (BitVec.ofNat 512 (Config.energy c s.estimates % 2 ^ 64))] (t.pc + 4)) ∧
    (Readable s c t ra.toNat → ∃ u, exec (.sysSet ra aux) s = .next u ∧ IssueFrame s u c sl [] ∧
      InFlight s u c sl t 12 [.sysSet aux.toNat (regWord s c t ra)] (t.pc + 4)) ∧
    (Writable s c t rd.toNat → ∃ u, exec (.time rd) s = .next u ∧ IssueFrame s u c sl [] ∧
      InFlight s u c sl t 12 [.reg (t.base + rd.toNat) (BitVec.ofNat 512 (s.timeQ / 4 % 2 ^ 64))] (t.pc + 4))

/-- R148, R160: TRAP takes its trap: SOFTWARE (0x0D) with aux as the detail and A as information; the thread is TRAPPED at the
instruction after it when another thread of the core could handle it (log 87). That it traps in its issue cycle is log 5's.
Read as log 5 and 87 say, the model's own readings. -/
def Obligations.TrapTakesItsTrap : Prop :=
  ∀ (s : State) (c sl : Nat) (t : Thread) (ra : BitVec 7) (aux : BitVec 6), Issuing s c sl t → Readable s c t ra.toNat →
    t.coupled = false → (∀ q ∈ s.posts, t.owes q = false) → s.hasHandler c sl (((s.core c).part).getD 0) = true →
    ∃ u v x r, exec (.trap ra aux) s = .next u ∧ u.thread? c sl = some v ∧ v.state = .trapped x ∧ v.pc = t.pc + 4 ∧
      x = { code := 0x0D, detail := aux.toNat, pc := t.pc + 4, info := regWord s c t ra, second := 0, flags := 0 } ∧
      u.traps = s.traps ++ [r] ∧ r.core = c ∧ r.slot = sl ∧ r.cycle = s.cycle ∧ fieldAt r.body 0 1 = 0x0D ∧ fieldAt r.body 1 1 = aux.toNat ∧
      RegsKept s u c [] ∧ MemKept s u

/-- R138 to R140, R144, R148, R307, R308, R345, R348: NOP, THR.START, THR.STOP, THR.YIELD, SAMPLE and the SYS instructions of one
destination and one source issue with their effects. SAMPLE places a software sample with its tag, PC, slot and time, or is dropped and
counted fewer than 64 cycles after the core's last accepted one (R148).
Read as log 5 says, the model's own readings. -/
def Obligations.SysIssues : Prop :=
  (∀ x ∈ sysEffects, ∀ (s : State) (c sl : Nat) (t : Thread) (rd ra : BitVec 7),
    Issuing s c sl t → Readable s c t ra.toNat → Writable s c t rd.toNat →
    ∃ u, exec (x.1 rd ra) s = .next u ∧ IssueFrame s u c sl [] ∧
      InFlight s u c sl t 12 [x.2 (t.base + rd.toNat) (regWord s c t ra)] (t.pc + 4)) ∧
  (∀ (s : State) (c sl : Nat) (t : Thread), Issuing s c sl t →
    (∃ u, exec .nop s = .next u ∧ IssueFrame s u c sl [] ∧ InFlight s u c sl t 12 [] (t.pc + 4)) ∧
    (∃ u, exec .thrStopSelf s = .next u ∧ IssueFrame s u c sl [] ∧ InFlight s u c sl t 12 [.ends] (t.pc + 4)) ∧
    (∃ u, exec .thrYield s = .next u ∧ IssueFrame s u c sl [] ∧ InFlight s u c sl t 12 [.yield] (t.pc + 4))) ∧
  (∀ (s : State) (c sl : Nat) (t : Thread) (rd ra : BitVec 7),
    Issuing s c sl t → Readable s c t ra.toNat → Readable s c t rd.toNat →
    ∃ u, exec (.thrStart rd ra) s = .next u ∧ IssueFrame s u c sl [] ∧
      InFlight s u c sl t 12 [.thrStart (t.base + rd.toNat) (regWord s c t rd) (regWord s c t ra)] (t.pc + 4)) ∧
  (∀ (s : State) (c sl : Nat) (t : Thread) (ra : BitVec 7), Issuing s c sl t → Readable s c t ra.toNat →
    let last := (s.core c).softSample
    ∃ u, exec (.sample ra) s = .next u ∧ RegsKept s u c [] ∧ MemKept s u ∧ InFlight s u c sl t 12 [] (t.pc + 4) ∧
      (last ≠ 0 ∧ s.cycle < last - 1 + 64 → u.samples = s.samples ∧ (u.core c).softSample = last ∧
        ∀ p x, (s.core c).part = some p → s.ctx? p = some x → (u.ctx? p).map (fun y => tabGet y.counts 1 0) = some (tabGet x.counts 1 0 + 1)) ∧
      (¬(last ≠ 0 ∧ s.cycle < last - 1 + 64) → (u.core c).softSample = s.cycle + 1 ∧ ∀ p, (s.core c).part = some p →
        ∃ r, u.samples = s.samples ++ [(p, c, r)] ∧ r.length = 32 ∧ byteNat r 0 8 = s.timeQ / 4 % 2 ^ 64 ∧ byteNat r 8 6 = t.pc.toNat ∧
          byteNat r 14 2 = c % 2 ^ 16 ∧ byteNat r 16 1 = sl ∧ byteNat r 17 1 = 1 ∧ byteNat r 24 8 = (regWord s c t ra).toNat))

/-- R141 to R143: NWRITE and WAKE to a core of the sender's partition issue; a target of another partition or of none traps
PERMISSION with the target. NWAIT takes the oldest value for its register, which arrives 12 cycles later, or arms the register.
Read as log 5 and 24 say, the model's own readings. -/
def Obligations.NeighbourIssues : Prop :=
  (∀ (s : State) (c sl : Nat) (t : Thread) (rd ra : BitVec 7), Issuing s c sl t → Readable s c t ra.toNat → Readable s c t rd.toNat →
    let d := (regWord s c t rd).toNat
    let near := c / 4 * 4 + d % 4
    let far := d % 1024
    ((s.core near).part = some (((s.core c).part).getD 0) ∨ (s.core near).fenced = true →
      ∃ u, exec (.nwrite rd ra) s = .next u ∧ IssueFrame s u c sl [] ∧
        InFlight s u c sl t 12 [.nwrite near (d / 2 ^ 8 % 64) (d / 2 ^ 16 % 128) (regVec s c t ra)] (t.pc + 4)) ∧
    ((s.core far).part = some (((s.core c).part).getD 0) ∨ (s.core far).fenced = true →
      ∃ u, exec (.wake rd ra) s = .next u ∧ IssueFrame s u c sl [] ∧
        InFlight s u c sl t 12 [.wake far (d / 2 ^ 16 % 64) (regWord s c t ra)] (t.pc + 4)) ∧
    ((s.core near).part ≠ some (((s.core c).part).getD 0) → (s.core near).fenced = false →
      ∃ v o, OnlyFlips s v ∧ o.c = c ∧ o.sl = sl ∧ o.t = t ∧ o.pair = none ∧
        exec (.nwrite rd ra) s = .next (v.trapOp o (trapAt t.pc 0x07 (BitVec.ofNat 64 near) 1))) ∧
    ((s.core far).part ≠ some (((s.core c).part).getD 0) → (s.core far).fenced = false →
      ∃ v o, OnlyFlips s v ∧ o.c = c ∧ o.sl = sl ∧ o.t = t ∧ o.pair = none ∧
        exec (.wake rd ra) s = .next (v.trapOp o (trapAt t.pc 0x07 (BitVec.ofNat 64 far) 1)))) ∧
  (∀ (s : State) (c sl : Nat) (t : Thread) (rd : BitVec 7), Issuing s c sl t → Writable s c t rd.toNat →
    (t.armNbr = none → (s.core c).landing.find? (fun l => l.slot == sl && l.reg == rd.toNat) = none →
      ∃ u f, exec (.nwaitNbr rd) s = .next u ∧ u.thread? c sl = some { t with state := .inflight f, armNbr := some (t.base + rd.toNat) } ∧
        f.fx = [] ∧ f.due = s.cycle + 12 ∧ RegsKept s u c [t.base + rd.toNat] ∧ MemKept s u) ∧
    (∀ l, t.armNbr = none → (s.core c).landing.find? (fun l => l.slot == sl && l.reg == rd.toNat) = some l →
      ∃ u a, exec (.nwaitNbr rd) s = .next u ∧ InFlight s u c sl t 12 [] (t.pc + 4) ∧ u.arrivals = s.arrivals ++ [a] ∧
        a.rd = t.base + rd.toNat ∧ a.due = s.cycle + 12 ∧
        a.prod = (match l.val with | some v => .value v none | none => .token (some l.from_) none) ∧
        (u.core c).landing.length + 1 = (s.core c).landing.length) ∧
    (t.armNtf = none → t.notify = none →
      ∃ u f, exec (.nwaitNtf rd) s = .next u ∧ u.thread? c sl = some { t with state := .inflight f, armNtf := some (t.base + rd.toNat) } ∧
        f.fx = [] ∧ f.due = s.cycle + 12 ∧ RegsKept s u c [t.base + rd.toNat] ∧ MemKept s u) ∧
    (∀ v, t.armNtf = none → t.notify = some v →
      ∃ u f a, exec (.nwaitNtf rd) s = .next u ∧ u.thread? c sl = some { t with state := .inflight f, notify := none } ∧
        u.arrivals = s.arrivals ++ [a] ∧ a.rd = t.base + rd.toNat ∧ a.due = s.cycle + 12 ∧ a.prod = .value (widen v) none))

/-- R145: WAIT on a generation that has passed goes on, with the acquire of its scope; on the present one it waits for the change;
with the top bit or no barrier scope it goes on at once.
Read as log 24 says, the model's own readings. -/
def Obligations.WaitIssues : Prop :=
  ∀ (s : State) (c sl : Nat) (t : Thread) (ra : BitVec 7), Issuing s c sl t → Readable s c t ra.toNat →
    let a := (regWord s c t ra).toNat
    let scope := a / 16 % 8
    let key := barrierKey (((s.core c).part).getD 0) scope (barrierUnit scope c) (a % 16)
    (a / 2 ^ 63 = 1 ∨ scope < 3 ∨ 5 < scope →
      ∃ u, exec (.wait ra) s = .next u ∧ IssueFrame s u c sl [] ∧ InFlight s u c sl t 12 [] (t.pc + 4)) ∧
    (a / 2 ^ 63 = 0 → 3 ≤ scope → scope ≤ 5 → (s.barrier key).gen ≠ a / 2 ^ 16 % 2 ^ 16 →
      ∃ u, exec (.wait ra) s = .next u ∧ IssueFrame s u c sl [] ∧ InFlight s u c sl t 12 [.acquire scope] (t.pc + 4)) ∧
    (a / 2 ^ 63 = 0 → 3 ≤ scope → scope ≤ 5 → (s.barrier key).gen = a / 2 ^ 16 % 2 ^ 16 →
      ∃ u, exec (.wait ra) s = .next u ∧ u.thread? c sl = some { t with state := .blocked (.barrier key (s.barrier key).gen) } ∧
        RegsKept s u c [] ∧ MemKept s u)

/-! ### Launches, mapping, streams, messages, the Keystone (R194 to R196, R256 to R258, R281 to R283, R307 to R310, R346, R371 to R377) -/

/-- R307, R309, R310: LAUNCH with room in its queue, LAUNCH.WAIT on ended work, ROUND and PARK issue: PARK names the lowest eligible channel of
its mask with an entry or a killed feeder, and what stands at its head (kind 0 data, 1 marker, 2 end of stream, which it removes, 4 feeder
killed), or kind 3 when no channel of the mask is open any more.
Read as log 5, 24 and 26 say, the model's own readings. -/
def Obligations.WorkIssues : Prop :=
  (∀ (s : State) (c sl : Nat) (t : Thread) (rd ra : BitVec 7), Issuing s c sl t → Readable s c t ra.toNat → Writable s c t rd.toNat →
    (s.launchRoom (((s.core c).part).getD 0) (recQueue (regVec s c t ra)) = true →
      ∃ u, exec (.launch rd ra) s = .next u ∧ IssueFrame s u c sl [] ∧
        InFlight s u c sl t 12 [.launch (t.base + rd.toNat) (regVec s c t ra)] (t.pc + 4)) ∧
    (∀ x level id, s.ctx? (((s.core c).part).getD 0) = some x →
      s.workNamed (((s.core c).part).getD 0) (regWord s c t ra) = some (level, id) → x.levelCount level id = 0 →
      ∃ u, exec (.launchWait rd ra) s = .next u ∧ IssueFrame s u c sl [] ∧
        InFlight s u c sl t 12 [.launchWait (t.base + rd.toNat) (regWord s c t ra)] (t.pc + 4)) ∧
    (∀ n : BitVec 6, ∀ x l, s.ctx? (((s.core c).part).getD 0) = some x → tabGet? x.launches t.launch = some l →
      (recKind l.record ≠ 2 ∨ recSuper l.record = true) →
      ∃ u, exec (.round rd ra n) s = .next u ∧ IssueFrame s u c sl [] ∧
        InFlight s u c sl t 12 [.reg (t.base + rd.toNat) (BitVec.ofNat 512 (2 ^ 63 + 1))] (t.pc + 4)) ∧
    ((∀ i < 8, (regWord s c t ra).getLsbD i = true → ∃ b, tabGet? t.chans i = some b ∧ b.dir = 1 ∧ b.ended = true) →
      ∃ u, exec (.park rd ra) s = .next u ∧ IssueFrame s u c sl [] ∧
        InFlight s u c sl t 12 [.reg (t.base + rd.toNat) (BitVec.ofNat 512 (3 * 2 ^ 8))] (t.pc + 4)) ∧
    (∀ (q : Nat) (b : Binding) (h : Chan), ParkPicks s c t (regWord s c t ra) q b h →
      let parked (u : State) (kind : Nat) : Prop :=
        InFlight s u c sl t 12 [.reg (t.base + rd.toNat) (BitVec.ofNat 512 (8 + q + kind * 2 ^ 8))] (t.pc + 4)
      ((∃ v rest, h.entries = .data v :: rest) ∨ (∃ rest, h.entries = .token :: rest) →
        ∃ u, exec (.park rd ra) s = .next u ∧ IssueFrame s u c sl [] ∧ parked u 0) ∧
      (∀ n rest, h.entries = .marker n :: rest → ∃ u, exec (.park rd ra) s = .next u ∧ IssueFrame s u c sl [] ∧ parked u 1) ∧
      (h.entries = [] → h.killed.isSome = true → ∃ u, exec (.park rd ra) s = .next u ∧ IssueFrame s u c sl [] ∧ parked u 4) ∧
      (∀ rest, h.entries = .eos :: rest → ∃ u v f, exec (.park rd ra) s = .next u ∧ u.thread? c sl = some v ∧ v.state = .inflight f ∧
        f.fx = [.reg (t.base + rd.toNat) (BitVec.ofNat 512 (8 + q + 2 * 2 ^ 8))] ∧ f.next = t.pc + 4 ∧ f.due = s.cycle + 12 ∧
        v.chans = tabSet t.chans q { b with ended := true } ∧
        u.chan? (((s.core c).part).getD 0) (chanKey b.graph b.chan) = some { h with entries := rest } ∧ RegsKept s u c [] ∧ MemKept s u)))

/-- R309: ROUND of a task, with a checkpoint in range, waits for its round with the images of its registers taken at the issue.
Read as log 7 says, the model's own readings. -/
def Obligations.RoundBegins : Prop :=
  ∀ (s : State) (c sl : Nat) (t : Thread) (rd ra : BitVec 7) (n : BitVec 6) (x : Ctx) (l : Launch),
    Issuing s c sl t → Readable s c t ra.toNat → Writable s c t rd.toNat →
    s.ctx? (((s.core c).part).getD 0) = some x → tabGet? x.launches t.launch = some l → recKind l.record = 2 → recSuper l.record = false →
    l.site = some (c, sl) →
    let a := (regWord s c t ra).toNat
    let off := a % 2 ^ 20
    let len := a / 2 ^ 20 % 2 ^ 20
    a / 2 ^ 40 = 0 → off % 64 = 0 → len % 64 = 0 → off + len ≤ (s.core c).steps * 0x10000 → n.toNat ≤ t.size →
    s.checkRange c (((s.core c).part).getD 0) (checkpointSlot (recArg l.record 2) (l.rounds + 1)) 0x100000 1 = none →
    (∀ r < n.toNat, Readable s c t r) →
    ∃ u v f, exec (.round rd ra n) s = .next u ∧ u.thread? c sl = some v ∧ v.state = .blocked (.round (l.rounds + 1) f) ∧
      f.fx = [.round (t.base + rd.toNat) (regWord s c t ra) ((List.range n.toNat).map fun r => (s.regAt c (t.base + r)).val) (t.pc + 4)] ∧
      RegsKept s u c [] ∧ MemKept s u

namespace Sys2Proof.Slice0

/-- A request is served: its status stands in rd, and its thread goes on. -/
def Served (s u : State) (c sl : Nat) (t : Thread) (f : Flight) (rd status : Nat) : Prop :=
  OnlyReg s u c rd (BitVec.ofNat 512 status) ∧ u.thread? c sl = some (goneOn s t f)
/-- No other request, command, store or load of the machine holds a request back (R284). -/
structure Unhampered (s : State) (p : Nat) (f : Flight) : Prop where
  first : s.mapsBefore p f.order = false
  buffers : ∀ e ∈ s.threads, e.2.buffer = []
  quiet : s.pend = [] ∧ s.arrivals = [] ∧ s.passed = []
  engines : s.locks = [] ∧ s.active = []

end Sys2Proof.Slice0

/-- R280 to R284, R257, R258: the mapping requests, RWT.LOAD and RWT.CTL issue, and are served when nothing holds them: MEM.UNMAP
removes the leaves of its range, MEM.ATTR gives them their protection and attribute, RWT.LOAD gives the core its table, RWT.CTL sets the ceiling and
gives the old one; a refused request changes nothing.
Read as log 5 says, the model's own readings. -/
def Obligations.MappingIssues : Prop :=
  (∀ x ∈ mapRequests, ∀ (s : State) (c sl : Nat) (t : Thread) (rd ra : BitVec 7) (at_ p : BitVec 2),
    Issuing s c sl t → Readable s c t ra.toNat → Readable s c t rd.toNat →
    ∃ u, exec (x.1 rd ra at_ p) s = .next u ∧ IssueFrame s u c sl [] ∧
      InFlightAtLeast s u c sl t 12 [x.2 (t.base + rd.toNat) p.toNat at_.toNat (regWord s c t rd) (regWord s c t ra)] (t.pc + 4)) ∧
  (∀ x ∈ sysRequests, ∀ (s : State) (c sl : Nat) (t : Thread) (rd ra : BitVec 7),
    Issuing s c sl t → Readable s c t ra.toNat → Readable s c t rd.toNat →
    ∃ u, exec (x.1 rd ra) s = .next u ∧ IssueFrame s u c sl [] ∧
      InFlightAtLeast s u c sl t 12 [x.2 (t.base + rd.toNat) (regWord s c t rd) (regWord s c t ra)] (t.pc + 4)) ∧
  (∀ (s : State) (c sl : Nat) (t : Thread) (rd ra : BitVec 7), Issuing s c sl t → Writable s c t rd.toNat →
    (Readable s c t ra.toNat →
      (∃ u, exec (.rwtLoad rd ra) s = .next u ∧ IssueFrame s u c sl [] ∧
        InFlightAtLeast s u c sl t 12 [.rwtLoad (t.base + rd.toNat) (regWord s c t ra)] (t.pc + 4)) ∧
      (∃ u, exec (.rwtCtl rd ra) s = .next u ∧ IssueFrame s u c sl [] ∧
        InFlightAtLeast s u c sl t 12 [.rwtCtl (t.base + rd.toNat) (regWord s c t ra)] (t.pc + 4))) ∧
    (∃ u, exec (.rwtCtlGet rd) s = .next u ∧ IssueFrame s u c sl [] ∧
      InFlight s u c sl t 12 [.rwtCtlGet (t.base + rd.toNat)] (t.pc + 4))) ∧
  (∀ (s : State) (c sl : Nat) (t : Thread) (f : Flight) (rd : Nat) (x : Ctx), Completing s c sl t f → Straight t f → rd < 2048 →
    Prevails s c rd f.order → s.ctx? (((s.core c).part).getD 0) = some x →
    let p := ((s.core c).part).getD 0
    let Nothing (u : State) : Prop := u = { s with threads := u.threads, regs := u.regs, wrote := u.wrote }
    (∀ form prot attr d a, f.fx = [.memMap rd form prot attr d a] → s.mapsBefore p f.order = false →
      let r := s.memMap p form prot attr f.order d a
      ∃ u, exec .instructionCompletion s = .next u ∧ Served s u c sl t f rd r.1 ∧ u.ptes = r.2.ptes ∧ u.pages = r.2.pages ∧ (r.1 ≠ 0 → Nothing u) ∧
        (d.toNat / 2 ^ 52 ≠ 0 ∨ (if form = 1 then a.toNat / 2 ^ 48 else a.toNat % 2 ^ 32) = 0 ∨ 9 < d.toNat / 2 ^ 48 % 16 → r.1 = 1)) ∧
    (∀ d a, f.fx = [.memUnmap rd d a] → Unhampered s p f →
      let status := s.unmapStatus x f.order d a
      ∃ u, exec .instructionCompletion s = .next u ∧ Served s u c sl t f rd status ∧ (status ≠ 0 → Nothing u) ∧
        (status = 0 → ∀ k ∈ s.leavesIn x (rangeBase d) (rangeLen a), tabGet? u.ptes k.slot = none)) ∧
    (∀ prot attr d a, f.fx = [.memAttr rd prot attr d a] → prot < 4 → attr < 4 → Unhampered s p f →
      let status := s.attrStatus x prot attr f.order d a
      ∃ u, exec .instructionCompletion s = .next u ∧ Served s u c sl t f rd status ∧ (status ≠ 0 → Nothing u) ∧
        (status = 0 → ∀ k ∈ s.leavesIn x (rangeBase d) (rangeLen a), ∃ e, tabGet? u.ptes k.slot = some e ∧
          e.toNat / 2 ^ 6 % 4 = prot ∧ e.toNat / 2 ^ 8 % 4 = attr)) ∧
    (∀ a, f.fx = [.rwtLoad rd a] → s.rangeHeld p [a.toNat] (64 * 193) = false →
      (a.toNat % 64 ≠ 0 ∨ 2 ^ 48 ≤ a.toNat → ∃ u, exec .instructionCompletion s = .next u ∧ Served s u c sl t f rd 3 ∧ Nothing u) ∧
      (a.toNat % 64 = 0 → a.toNat < 2 ^ 48 →
        (s.fetchLines p a.toNat 1 = .fault → ∃ u, exec .instructionCompletion s = .next u ∧ Served s u c sl t f rd 1 ∧ Nothing u) ∧
        (s.fetchLines p a.toNat 1 = .lost → ∃ u, exec .instructionCompletion s = .next u ∧ Served s u c sl t f rd 4 ∧ Nothing u) ∧
        ∀ h b, s.fetchLines p a.toNat 1 = .ok h → s.fetchLines p a.toNat (1 + 3 * min 64 (byteNat h 6 2)) = .ok b →
          (readRules b = none → ∃ u, exec .instructionCompletion s = .next u ∧ Served s u c sl t f rd 2 ∧ Nothing u) ∧
          ∀ rules, readRules b = some rules → ∃ u, exec .instructionCompletion s = .next u ∧ Served s u c sl t f rd 0 ∧ (u.core c).rules = rules)) ∧
    (∀ a, f.fx = [.rwtCtl rd a] →
      (a.toNat < 4 → ∃ u, exec .instructionCompletion s = .next u ∧ Served s u c sl t f rd x.ceiling ∧ (u.ctx? p).map Ctx.ceiling = some a.toNat) ∧
      (4 ≤ a.toNat → ∃ u, exec .instructionCompletion s = .next u ∧ Served s u c sl t f rd (x.ceiling + 2 ^ 16) ∧ Nothing u)) ∧
    (f.fx = [.rwtCtlGet rd] → ∃ u, exec .instructionCompletion s = .next u ∧ Served s u c sl t f rd x.ceiling ∧ Nothing u))

/-- R194 to R196, R256, R346: SBIND, SNEXT, SDONE, QFENCE and AM.SEND issue: SNEXT takes the oldest element of its stream, which
arrives 12 cycles later with the element's index in the status form.
Read as log 5 says, the model's own readings. -/
def Obligations.StreamAndMessageIssues : Prop :=
  (∀ (s : State) (c sl : Nat) (t : Thread) (rd ra : BitVec 7) (n : BitVec 3), Issuing s c sl t → Writable s c t rd.toNat →
    (Readable s c t ra.toNat → ∃ u, exec (.sbind rd ra n) s = .next u ∧ IssueFrame s u c sl [] ∧
      InFlight s u c sl t 12 [.sbind (t.base + rd.toNat) n.toNat (regWord s c t ra)] (t.pc + 4)) ∧
    (∃ u, exec (.sdone rd n) s = .next u ∧ IssueFrame s u c sl [] ∧ InFlight s u c sl t 12 [.sdone (t.base + rd.toNat) n.toNat] (t.pc + 4))) ∧
  (∀ (s : State) (c sl : Nat) (t : Thread) (rd ws : BitVec 7) (n : BitVec 3) (b : Stream) (v : Vec) (rest : List Vec),
    Issuing s c sl t → Writable s c t rd.toNat → Writable s c t ws.toNat → ws ≠ rd →
    tabGet? t.streams n.toNat = some b → b.buffer = v :: rest →
    (∃ u a f, exec (.snext rd n) s = .next u ∧ (u.thread? c sl).map (·.state) = some (.inflight f) ∧ f.due = s.cycle + 12 ∧
      u.arrivals = s.arrivals ++ [a] ∧ a.rd = t.base + rd.toNat ∧ a.ws = none ∧ a.prod = .value v none ∧ a.due = s.cycle + 12) ∧
    (∃ u a f w, exec (.snextStatus rd ws n) s = .next u ∧ u.thread? c sl = some w ∧ w.state = .inflight f ∧ f.due = s.cycle + 12 ∧
      (tabGet? w.streams n.toNat).map (fun d => (d.buffer, d.k)) = some (rest, b.k + 1) ∧
      u.arrivals = s.arrivals ++ [a] ∧ a.rd = t.base + rd.toNat ∧ a.ws = some (t.base + ws.toNat) ∧
      a.prod = .value v (some (BitVec.ofNat 64 b.k)) ∧ a.due = s.cycle + 12)) ∧
  (∀ (s : State) (c sl : Nat) (t : Thread) (q : BitVec 3), Issuing s c sl t →
    (∀ i < 3, q.getLsbD i = true → s.commandsOf t.uid (2 * i) = false) →
    ∃ u, exec (.qfence q) s = .next u ∧ InFlight s u c sl t 12 [.acquire 5] (t.pc + 4) ∧ RegsKept s u c [] ∧ MemKept s u) ∧
  (∀ (s : State) (c sl : Nat) (t : Thread) (rd ra : BitVec 7), Issuing s c sl t → Readable s c t ra.toNat → Readable s c t rd.toNat →
    s.peerContext (((s.core c).part).getD 0) ((regWord s c t rd).toNat % 256) s.order = true →
    ∃ u, exec (.amSend rd ra) s = .next u ∧ IssueFrame s u c sl [] ∧
      InFlight s u c sl t 12 [.amSend (regWord s c t rd) (regVec s c t ra)] (t.pc + 4))

/-- R371 to R377: the requests of the Keystone issue when every line of their buffer may be read, and written for output; CODE.ADMIT's image
is checked at its completion, once the store buffer has been committed.
Read as log 5 says, the model's own readings. -/
def Obligations.KeystoneIssues : Prop :=
  (∀ x ∈ keystoneRequests, ∀ (s : State) (c sl : Nat) (t : Thread) (rd ra : BitVec 7),
    Issuing s c sl t → Readable s c t ra.toNat → Readable s c t rd.toNat →
    (∀ i < x.2.1 / 64, ∀ k : Kind, k = 0 ∨ k = 1 ∧ x.2.2.1 = true →
      ∃ h, s.check c (((s.core c).part).getD 0) ((regWord s c t ra).toNat + 64 * i) 64 k true = .ok h) →
    ∃ u, exec (x.1 rd ra) s = .next u ∧ IssueFrame s u c sl [] ∧
      InFlightAtLeast s u c sl t 12 [x.2.2.2 (t.base + rd.toNat) (regWord s c t rd) (regWord s c t ra)] (t.pc + 4)) ∧
  (∀ (s : State) (c sl : Nat) (t : Thread) (rd ra : BitVec 7) (n : BitVec 4), Issuing s c sl t → Readable s c t ra.toNat → Readable s c t rd.toNat →
    (∃ u, exec (.wrtSplit rd ra) s = .next u ∧ IssueFrame s u c sl [] ∧
      InFlightAtLeast s u c sl t 12 [.wrtSplit (t.base + rd.toNat) (regWord s c t rd) (regWord s c t ra)] (t.pc + 4)) ∧
    (∃ u, exec (.wrtSurrender rd ra) s = .next u ∧ IssueFrame s u c sl [] ∧
      InFlightAtLeast s u c sl t 12 [.wrtSurrender (t.base + rd.toNat) (regWord s c t ra)] (t.pc + 4)) ∧
    (∃ u, exec (.wrtQuery rd ra n) s = .next u ∧ IssueFrame s u c sl [] ∧
      InFlightAtLeast s u c sl t 12 [.wrtQuery (t.base + rd.toNat) n.toNat (regWord s c t ra)] (t.pc + 4)) ∧
    (∃ u, exec (.codeAdmit rd ra) s = .next u ∧ IssueFrame s u c sl [] ∧
      InFlightAtLeast s u c sl t 12 [.codeAdmit (t.base + rd.toNat) (regWord s c t rd) (regWord s c t ra)] (t.pc + 4)))

/-! ### ONCE, completions, arrivals, landings, visibility (R26, R32, R65, R69, R91, R100, R114, R118, R119, R126, R141, R142, R150) -/

namespace Sys2Proof.Slice0

/-- A thread that stops at its place owes no post of a pair that it leads (R43, R100). -/
def OwesNone (s : State) (t : Thread) : Prop := ∀ q ∈ s.posts, t.owes q = false

/-- An issue of a ONCE pair leaves every other thread, every byte, and every register but the listed entries as it was. -/
structure PairFrame (s u : State) (c sl : Nat) (emptied : List Nat) : Prop where
  regs : RegsKept s u c emptied
  mem : MemKept s u
  threads : ∀ c' sl', ¬(c' = c ∧ sl' = sl) → sl' < 64 → u.thread? c' sl' = s.thread? c' sl'

/-- The words that ONCE may prefix, by major and SYS sub (R57, R100). -/
def mayFollowOnce (w : BitVec 32) : Bool :=
  let major := w.toNat / 2 ^ 26
  let sub := w.toNat / 2 ^ 6 % 2 ^ 6
  !(0x17 ≤ major && major ≤ 0x1E) && major != 0x3F && !(major == 0x3D && [0x06, 0x07, 0x09, 0x0C, 0x0E, 0x12, 0x13].contains sub)

/-- What AMO and CAS leave at their home (R127, R128). -/
def atomicNew : List (AmoOp × (Word → Word → Word → Word)) :=
  [(.add, fun o b _ => BitVec.ofNat 64 (o.toNat + b.toNat)), (.and, fun o b _ => o &&& b), (.or, fun o b _ => o ||| b),
   (.xor, fun o b _ => o ^^^ b), (.min, fun o b _ => BitVec.ofInt 64 (min o.toInt b.toInt)),
   (.max, fun o b _ => BitVec.ofInt 64 (max o.toInt b.toInt)), (.swp, fun _ b _ => b), (.cas, fun o b c => if o = c then b else o)]

/-- SYS.SET, the calls' link register, LOOP and the event instructions take effect (R88, R90, R137, R147). -/
def SpecialsWritten (s : State) (c sl : Nat) (t : Thread) (f : Flight) : Prop :=
  t.buffer = [] → Single t f →
    (∀ n a, f.fx = [.sysSet n a] → ∃ u, exec .instructionCompletion s = .next u ∧ NoReg s u ∧ OnlyThread s u c sl ∧
      u.thread? c sl = some { goneOn s t f with
        forkInline := if n = 1 then t.forkInline && !a.getLsbD 39 else t.forkInline
        fflags := if n = 5 then a.setWidth 5 else t.fflags
        lk := if n = 6 then a.setWidth 48 else t.lk } ∧
      u.core c = { s.core c with nlost := if n = 9 then a.setWidth 32 else (s.core c).nlost } ∧
      u = { s with threads := u.threads, cores := u.cores }) ∧
    (∀ a, f.fx = [.lk a] → ∃ u, exec .instructionCompletion s = .next u ∧ u.thread? c sl = some { goneOn s t f with lk := a } ∧
      u = { s with threads := u.threads } ∧ OnlyThread s u c sl) ∧
    (∀ n l, f.fx = [.loop n l] → l.active = false ∨ l.stop ≠ t.pc → f.xfer ≠ .jump →
      ∃ u, exec .instructionCompletion s = .next u ∧ u = { s with threads := u.threads } ∧ OnlyThread s u c sl ∧
        u.thread? c sl = some { goneOn s t f with lp0 := if n = 0 then l else t.lp0, lp1 := if n = 0 then t.lp1 else l }) ∧
    (∀ n a, f.fx = [.evtTerm n a] →
      ∃ u, exec .instructionCompletion s = .next u ∧ u.thread? c sl = some (goneOn s t f) ∧ u = { s with threads := u.threads, cores := u.cores } ∧
        (u.core c).term n = { (s.core c).term n with m0 := a.setWidth 16, m1 := (a >>> 16).setWidth 16 } ∧
        ∀ m, m ≠ n → (u.core c).term m = (s.core c).term m) ∧
    (∀ n a, f.fx = [.evtArm n a] →
      ∃ u, exec .instructionCompletion s = .next u ∧ u.thread? c sl = some (goneOn s t f) ∧ u = { s with threads := u.threads, cores := u.cores } ∧
        (u.core c).term n = { (s.core c).term n with armed := a.getLsbD 0 } ∧ ∀ m, m ≠ n → (u.core c).term m = (s.core c).term m) ∧
    (∀ n a b, f.fx = [.evtCnt n a b] →
      let old := (s.core c).counter n
      let sum := old.count + a.toNat % 2 ^ 16
      ∃ u, exec .instructionCompletion s = .next u ∧ u.thread? c sl = some (goneOn s t f) ∧ u = { s with threads := u.threads, cores := u.cores } ∧
        (b.getLsbD 16 = false → (u.core c).counter n = { count := a.toNat % 2 ^ 16, threshold := b.toNat % 2 ^ 16, overflow := false }) ∧
        (b.getLsbD 16 = true → sum < 2 ^ 16 → (u.core c).counter n = { old with count := sum }) ∧
        (b.getLsbD 16 = true → 2 ^ 16 ≤ sum → (u.core c).counter n = { old with count := 0xFFFF, overflow := true }) ∧
        ∀ m, m ≠ n → (u.core c).counter m = (s.core c).counter m)

/-- QPUSH, ARRIVE and the fences take effect (R125, R131, R144). -/
def QueuesAndBarriers (s : State) (c sl : Nat) (t : Thread) (f : Flight) : Prop :=
  let p := ((s.core c).part).getD 0
  Single t f → NothingOwed s t →
    (∀ rd q cmd opr, f.fx = [.qpush rd q cmd opr] → rd < 2048 → Prevails s c rd f.order →
      let seq := tabGet (s.core c).seqs q 0
      (t.queueOf q = .command → ∃ u e, exec .instructionCompletion s = .next u ∧ u.thread? c sl = some (goneOn s t f) ∧
        OnlyReg s u c rd (BitVec.ofNat 512 seq) ∧ (u.core c).cmdsOf q = (s.core c).cmdsOf q ++ [e] ∧ e.cmd = cmd ∧ e.opr = opr ∧ e.seq = seq ∧
        e.queue = q ∧ e.uid = t.uid ∧ e.core = c ∧ e.slot = sl ∧ e.part = p ∧ e.launch = t.launch ∧ e.order = f.order ∧
        tabGet (u.core c).seqs q 0 = (seq + 1) % 2 ^ 16 ∧ OnlyThread s u c sl) ∧
      (∀ key h x, t.queueOf q = .output key → s.chan? p key = some h → h.sealed_ = none → s.ctx? p = some x → x.chanAway h = false →
        ∃ u, exec .instructionCompletion s = .next u ∧ u.thread? c sl = some (goneOn s t f) ∧ OnlyReg s u c rd (BitVec.ofNat 512 seq) ∧
          u.chan? p key = some { h with entries := h.entries ++ [.data opr] } ∧ OnlyThread s u c sl)) ∧
    (∀ rd scope a, f.fx = [.arrive rd scope a] → rd < 2048 → Prevails s c rd f.order →
      let n := a.toNat % 16
      let want := a.toNat / 2 ^ 16 % 2 ^ 16
      let key := barrierKey p scope (barrierUnit scope c) n
      let b := s.barrier key
      let gives (top : Nat) (d : Barrier) : Prop := ∃ u, exec .instructionCompletion s = .next u ∧ u.thread? c sl = some (goneOn s t f) ∧
        OnlyReg s u c rd (BitVec.ofNat 512 (n + scope * 2 ^ 4 + b.gen * 2 ^ 16 + top)) ∧ u.barrier key = d ∧
        (∀ k, k ≠ key → u.barrier k = s.barrier k) ∧ OnlyThread s u c sl
      (want = 0 ∨ (∃ w, b.want = some w ∧ w ≠ want) → gives (2 ^ 63) b) ∧
      (want ≠ 0 → (∀ w, b.want = some w → w = want) →
        (b.arrived.length + 1 < want → gives 0 { b with want := some want, arrived := b.arrived ++ [(t.uid, false)] }) ∧
        (want ≤ b.arrived.length + 1 → gives 0 { gen := (b.gen + 1) % 2 ^ 16, want := none, arrived := [] }))) ∧
    (∀ k sc, f.fx = [.fence k sc] → ∃ u, exec .instructionCompletion s = .next u ∧ u.thread? c sl = some (goneOn s t f) ∧
      u = { s with threads := u.threads } ∧ OnlyThread s u c sl)

/-- FORK, JOIN, ENDS, LAUNCH and CANCEL take effect, and a fence that waits for loads stays in flight (R93 to R96, R125, R292, R307, R308). -/
def UnitsAndWork (s : State) (c sl : Nat) (t : Thread) (f : Flight) : Prop :=
  let p := ((s.core c).part).getD 0
  let launchOf (u : State) (id : Nat) : Option Launch := (u.ctx? p).bind fun y => tabGet? y.launches id
  Single t f →
    (∀ k sc, f.fx = [.fence k sc] → t.buffer = [] → k ≤ 1 → (∃ a ∈ s.arrivals, a.uid = t.uid ∧ a.order < f.order) →
      ∃ u g, exec .instructionCompletion s = .next u ∧ u.thread? c sl = some { t with state := .inflight g, check := none } ∧
        g.fx = [.fenceWait k sc] ∧ u = { s with threads := u.threads }) ∧
    (∀ arm a l, f.fx = [.fork arm a] → t.buffer = [] → f.xfer = .none → launchOf s t.launch = some l →
      (recStrands l.record = true → t.handler = false → (s.core c).deque.length < 64 →
        ∃ u, exec .instructionCompletion s = .next u ∧ u.thread? c sl = some (goneOn s t f) ∧
          (u.core c).deque = { arm := arm, counter := a.setWidth 48, base := t.base, size := t.size, part := p, launch := t.launch, core := c } ::
            (s.core c).deque ∧
          launchOf u t.launch = some { l with counter := l.counter + 1 } ∧ NoReg s u ∧ OnlyThread s u c sl) ∧
      (recStrands l.record = false ∨ t.handler = true ∨ 64 ≤ (s.core c).deque.length →
        ∃ u, exec .instructionCompletion s = .next u ∧ u.thread? c sl = some { goneOn s t f with pc := arm, lk := f.next, forkInline := true, kept := true } ∧
          u = { s with threads := u.threads } ∧ OnlyThread s u c sl)) ∧
    (∀ a h, f.fx = [.join a] → NothingOwed s t → f.xfer = .none → s.rangeHeld p [a.toNat] 8 = false → s.checkAll c p [a.toNat] 8 2 true = .ok [h] →
      s.homeLost (eight h) = none → s.badScratch (eight h) = none →
      let old := bytesNat (s.homeBytes h 8)
      ∃ u, exec .instructionCompletion s = .next u ∧ NoReg s u ∧ u.homeBytes h 8 = natBytes 8 (BitVec.ofInt 64 ((old : Int) - 1)).toNat ∧
        (∀ y, (y < h ∨ h + 8 ≤ y) → u.homeByte y = s.homeByte y) ∧
        (old = 1 → u.thread? c sl = some (goneOn s t f)) ∧ (old ≠ 1 → u.thread? c sl = none)) ∧
    (f.fx = [.ends] → t.buffer = [] →
      ∃ u, exec .instructionCompletion s = .next u ∧ u.thread? c sl = none ∧ NoReg s u ∧ OnlyThread s u c sl ∧
        ∀ l, (s.core c).part = some p → t.handler = false → launchOf s t.launch = some l →
          (2 ≤ l.counter → launchOf u t.launch = some { l with counter := l.counter - 1 }) ∧
          (l.counter = 1 → l.state ≠ 4 → (launchOf u t.launch).map (fun m => (m.state, m.code)) = some (4, l.code))) ∧
    (∀ rd record x, f.fx = [.launch rd record] → NothingOwed s t → rd < 2048 → Prevails s c rd f.order → s.ctx? p = some x →
      let status := s.checkRecord p x record
      (status ≠ 0 → ∃ u, exec .instructionCompletion s = .next u ∧ u.thread? c sl = some (goneOn s t f) ∧
        OnlyReg s u c rd (BitVec.ofNat 512 status) ∧ u = { s with threads := u.threads, regs := u.regs, wrote := u.wrote }) ∧
      (status = 0 → (tabGet x.queues (recQueue record) []).length < 64 →
        ∃ u y id l, exec .instructionCompletion s = .next u ∧ u.thread? c sl = some (goneOn s t f) ∧ OnlyReg s u c rd (BitVec.ofNat 512 (id * 2 ^ 16)) ∧
          u.ctx? p = some y ∧ tabGet y.queues (recQueue record) [] = tabGet x.queues (recQueue record) [] ++ [id] ∧ tabGet? y.launches id = some l ∧
          l.host = false ∧ l.counter = recCores record * recThreads record ∧ u.dispatch = true)) ∧
    (∀ rd level a x, f.fx = [.cancel rd level false a] → rd < 2048 → Prevails s c rd f.order → s.ctx? p = some x →
      let id := if level = 3 then 0 else if level = 0 then a.toNat % 2 ^ 16 else a.toNat % 2 ^ 8
      let plain (u : State) (n : Nat) : Prop := u.thread? c sl = some (goneOn s t f) ∧ OnlyReg s u c rd (BitVec.ofNat 512 n) ∧
        u = { s with threads := u.threads, regs := u.regs, wrote := u.wrote }
      (t.buffer = [] → a.toNat ≠ id → ∃ u, exec .instructionCompletion s = .next u ∧ plain u 2) ∧
      (t.buffer = [] → a.toNat = id → x.named level id = false → ∃ u, exec .instructionCompletion s = .next u ∧ plain u 1) ∧
      (∀ l, level = 0 → a.toNat = id → tabSorted x.launches = true → tabGet? x.launches id = some l → l.state < 3 → l.dying = none →
        (∀ e ∈ s.threads, e.2.launch ≠ id) → t.buffer = [] →
        ∃ u, exec .instructionCompletion s = .next u ∧ u.thread? c sl = some (goneOn s t f) ∧ u.regAt c rd = Reg.ofVec (BitVec.ofNat 512 (2 ^ 16)) ∧
          (launchOf u id).map (fun m => (m.state, m.code)) = some (4, 0x80)))

end Sys2Proof.Slice0

/-- R57, R100 with R26: outside a gang a ONCE pair is the prefixed instruction, as one instruction of two words: the same
operands, the same effect and the same latency, and the next instruction is 8 bytes on. A member of a gang that does not lead it
executes nothing, and completes after 12 cycles. Every word that may follow the prefix issues, blocks or traps; one that may not, or is no
instruction, traps ILLEGAL_INSTRUCTION with that word.
Read as log 5 and 20 say, the model's own readings. -/
def Obligations.OnceIsThePrefixedInstruction : Prop :=
  (∀ (s : State) (c sl : Nat) (t : Thread) (w : BitVec 32), Issuing s c sl t → t.coupled = false → t.forward = none → t.loopEndsAt t.pc = false →
    (∀ x ∈ integerBinary, ∀ (rd ra rb : BitVec 7) (ta tb : BitVec 1), decodeWord w = some (x.1 rd ra rb ta tb) →
      Readable s c t ra.toNat → Readable s c t rb.toNat → Writable s c t rd.toNat →
      ∃ u, exec (.once w) s = .next u ∧ PairFrame s u c sl [] ∧
        InFlight s u c sl t x.2.1 [.reg (t.base + rd.toNat) (widen (x.2.2 (regWord s c t ra) (regWord s c t rb)))] (t.pc + 8)) ∧
    (∀ x ∈ integerUnary, ∀ (rd ra : BitVec 7) (ta : BitVec 1), decodeWord w = some (x.1 rd ra ta) →
      Readable s c t ra.toNat → Writable s c t rd.toNat →
      ∃ u, exec (.once w) s = .next u ∧ PairFrame s u c sl [] ∧
        InFlight s u c sl t 12 [.reg (t.base + rd.toNat) (widen (x.2 (regWord s c t ra)))] (t.pc + 8)) ∧
    (∀ x ∈ floatBinary, ∀ (rd ra rb : BitVec 7) (ta tb : BitVec 1), decodeWord w = some (x.1 rd ra rb ta tb) →
      Readable s c t ra.toNat → Readable s c t rb.toNat → Writable s c t rd.toNat →
      ∃ u, exec (.once w) s = .next u ∧ PairFrame s u c sl [] ∧
        InFlight s u c sl t x.2.1 [.reg (t.base + rd.toNat) (x.2.2 (regWord s c t ra) (regWord s c t rb)).1,
          .flags (x.2.2 (regWord s c t ra) (regWord s c t rb)).2] (t.pc + 8)) ∧
    (∀ x ∈ scalarLoads, ∀ (rd ra : BitVec 7) (sz : BitVec 2) (p : BitVec 3) (ta : BitVec 1) (off : BitVec 6),
      decodeWord w = some (x.1 rd ra sz p ta off) → Readable s c t ra.toNat → Writable s c t rd.toNat →
      let n := 2 ^ sz.toNat
      ∃ u, exec (.once w) s = .next u ∧ PairFrame s u c sl [t.base + rd.toNat] ∧
        InFlightAtLeast s u c sl t 12 [.load (t.base + rd.toNat) (x.2.1 n) [effective (regWord s c t ra) off n] n (x.2.2 p)] (t.pc + 8))) ∧
  (∀ (s : State) (c sl : Nat) (t : Thread) (w : BitVec 32), Issuing s c sl t → t.coupled = true → t.gangPos ≠ 0 →
    (∀ x ∈ integerBinary, ∀ (rd ra rb : BitVec 7) (ta tb : BitVec 1), decodeWord w = some (x.1 rd ra rb ta tb) → rd.toNat < t.size →
      ∃ u, exec (.once w) s = .next u ∧ PairFrame s u c sl [] ∧ InFlight s u c sl t 12 [] (t.pc + 8)) ∧
    (∀ x ∈ scalarLoads, ∀ (rd ra : BitVec 7) (sz : BitVec 2) (p : BitVec 3) (ta : BitVec 1) (off : BitVec 6),
      decodeWord w = some (x.1 rd ra sz p ta off) → rd.toNat < t.size →
      ∃ u, exec (.once w) s = .next u ∧ PairFrame s u c sl [] ∧ InFlight s u c sl t 12 [] (t.pc + 8))) ∧
  (∀ (s : State) (c sl : Nat) (t : Thread) (w : BitVec 32), Issuing s c sl t →
    ((decodeWord w).isSome = true → mayFollowOnce w = true → ∃ u, exec (.once w) s = .next u) ∧
    (decodeWord w = none ∨ mayFollowOnce w = false → exec (.once w) s = .next (s.illegal c sl w (some w))))

/-- R26, R31, R65, R69: an instruction completes in its last cycle: D is written whole, where no later-issued one has written it
in this cycle, its flags are set from the value, its exception flags are ORed into sr.fflags, and the thread is READY at the next instruction. R91: a
hardware loop whose last word it is goes back to its start with one pass less, or ends. And what the other effects of the core do: SYS.SET (R147) and the link
register; the loop levels; the crossbar's counters and terms (R137); QPUSH's entry (R131); ARRIVE (R144); FORK (R93), JOIN (R95) and ENDS; a fence (R125); LAUNCH; CANCEL.
Read as log 5, 7, 96 and 112 say, the model's own readings. -/
def Obligations.CompletionTakesEffect : Prop :=
  ∀ (s : State) (c sl : Nat) (t : Thread) (f : Flight), Completing s c sl t f →
    (∀ e v fl, Straight t f → f.fx = [.reg e v, .flags fl] → e < 2048 → Prevails s c e f.order →
      ∃ u, exec .instructionCompletion s = .next u ∧ OnlyReg s u c e v ∧
        u.thread? c sl = some { goneOn s t f with fflags := t.fflags ||| fl } ∧ OnlyThread s u c sl) ∧
    (∀ e v, Straight t f → f.fx = [.reg e v] → e < 2048 → Prevails s c e f.order →
      ∃ u, exec .instructionCompletion s = .next u ∧ OnlyReg s u c e v ∧
        u.thread? c sl = some (goneOn s t f) ∧ OnlyThread s u c sl) ∧
    (t.buffer = [] → f.fx = [] → f.xfer = .none → f.pair = none →
      let goesOn (pc : Addr) (a b : Loop) : Prop := ∃ u, exec .instructionCompletion s = .next u ∧ NoReg s u ∧
        u.thread? c sl = some { goneOn s t f with pc := pc, lp0 := a, lp1 := b } ∧ OnlyThread s u c sl
      let less (l : Loop) : Loop := { l with count := l.count - 1 }
      let atEnd (l : Loop) : Loop := { l with count := 0, active := false }
      let ends (l : Loop) : Prop := l.active = true ∧ l.stop = t.pc
      (ends t.lp1 → t.lp1.count ≠ 1 → goesOn t.lp1.start t.lp0 (less t.lp1)) ∧
      (ends t.lp1 → t.lp1.count = 1 → ¬ ends t.lp0 → goesOn f.next t.lp0 (atEnd t.lp1)) ∧
      (ends t.lp1 → t.lp1.count = 1 → ends t.lp0 → t.lp0.count ≠ 1 → goesOn t.lp0.start (less t.lp0) (atEnd t.lp1)) ∧
      (ends t.lp1 → t.lp1.count = 1 → ends t.lp0 → t.lp0.count = 1 → goesOn f.next (atEnd t.lp0) (atEnd t.lp1)) ∧
      (¬ ends t.lp1 → ends t.lp0 → t.lp0.count ≠ 1 → goesOn t.lp0.start (less t.lp0) t.lp1) ∧
      (¬ ends t.lp1 → ends t.lp0 → t.lp0.count = 1 → goesOn f.next (atEnd t.lp0) t.lp1)) ∧
    SpecialsWritten s c sl t f ∧ QueuesAndBarriers s c sl t f ∧ UnitsAndWork s c sl t f

/-- R114 to R119: a load with its checks passed completes and leaves an outstanding access, which a free delay sets due (log 4); a
store enters the thread's own buffer and no byte of memory changes; an access that fails a check traps with the failing code and address,
its destination as it was, and no byte changes.
Read as log 6, 8 and 87 say, the model's own readings. -/
def Obligations.MemoryAccessCompletes : Prop :=
  ∀ (s : State) (c sl : Nat) (t : Thread) (f : Flight), Completing s c sl t f → Straight t f →
    let p := ((s.core c).part).getD 0
    (∀ rd kind a n acq h, f.fx = [.load rd kind [a] n acq] → kind ≠ .lanes → s.rangeHeld p [a.toNat] n = false →
      s.checkAll c p [a.toNat] n 0 true = .ok [h] →
      ∃ u x, exec .instructionCompletion s = .next u ∧ u.thread? c sl = some (goneOn s t f) ∧ u.arrivals = s.arrivals ++ [x] ∧
        x.acq = acq ∧ x.rel = none ∧
        x.rd = rd ∧ x.uid = t.uid ∧ x.order = f.order ∧ x.due = s.cycle + s.takeDelay.1 ∧ x.ws = none ∧ x.posts = [] ∧
        x.prod = .load kind ((List.range n).map fun i => h + i) [] ∧
        (∀ c' n, u.regAt c' n = s.regAt c' n) ∧ OnlyThread s u c sl) ∧
    (∀ a bs n h, f.fx = [.store [(a, bs)] n none] → t.buffer.length < 7 → s.rangeHeld p [a.toNat] n = false →
      s.checkAll c p [a.toNat] n 1 true = .ok [h] →
      ∃ u x, exec .instructionCompletion s = .next u ∧ u.thread? c sl = some { goneOn s t f with buffer := t.buffer ++ [x] } ∧
        (∀ i, i < bs.length → tabGet? x.writes (h + i) = bs[i]?) ∧ (∀ b, (b < h ∨ h + bs.length ≤ b) → tabGet? x.writes b = none) ∧
        x.order = f.order ∧ x.uid = t.uid ∧ u.pend = s.pend ∧ (∀ c' n, u.regAt c' n = s.regAt c' n) ∧ OnlyThread s u c sl) ∧
    (∀ a n x, (∃ rd kind acq, f.fx = [.load rd kind [a] n acq] ∧ s.checkAll c p [a.toNat] n 0 true = .error x) ∨
        (∃ bs rel, f.fx = [.store [(a, bs)] n rel] ∧ s.checkAll c p [a.toNat] n 1 true = .error x) →
      s.rangeHeld p [a.toNat] n = false → s.hasHandler c sl p = true → f.wasFull = [] → OwesNone s t →
      ∃ u v, exec .instructionCompletion s = .next u ∧ u.thread? c sl = some v ∧
        v.state = .trapped { code := x.1, detail := 0, pc := t.pc, info := BitVec.ofNat 64 x.2.2, second := BitVec.ofNat 64 x.2.1, flags := 0 } ∧
        v.pc = t.pc ∧ (∀ c' n, u.regAt c' n = s.regAt c' n) ∧ OnlyThread s u c sl)

/-- R32, R36, R116, R126 to R128: a long-latency producer delivers its value to its entry, which becomes full with the value's
flags, or an error token, which poisons it; a load takes each byte from what it has taken already, else from the thread's own stores, else
from its home; an atomic reads and writes its eight bytes at their home in one step.
Read as log 4, 6 and 8 say, the model's own readings. -/
def Obligations.ArrivalDelivers : Prop :=
  ∀ (s : State) (n : Nat) (a : Arrival), s.arg.flag = false → s.arg.n = n → s.arrivals[n]? = some a → s.mayArrive n = true → a.rd < 2048 → a.ws = none → a.posts = [] →
    s.savedOf a.part a.uid = none →
    let Others (u : State) : Prop := u.arrivals = s.arrivals.eraseIdx n ∧ u.threads = s.threads ∧ u.cores = s.cores ∧ u.ctxs = s.ctxs ∧
      ∀ c' m, m < 2048 → ¬(c' = a.core ∧ m = a.rd) → u.regAt c' m = s.regAt c' m
    (∀ v, a.prod = .value v none →
      ∃ u, exec .longLatencyArrival s = .next u ∧ u.regAt a.core a.rd = Reg.ofVec v ∧ Others u ∧ MemKept s u) ∧
    (∀ k, a.prod = .token k none →
      ∃ u, exec .longLatencyArrival s = .next u ∧ (u.regAt a.core a.rd).poison = true ∧ (u.regAt a.core a.rd).full = true ∧
        (u.regAt a.core a.rd).val = 0 ∧ (u.regAt a.core a.rd).token = k ∧ Others u ∧ MemKept s u) ∧
    (∀ kind addrs got, a.prod = .load kind addrs got →
      let own := s.ownByte a.uid a.core a.slot a.order
      let asked := addrs.filter fun x => (tabGet? got x).isNone && (own x).isNone
      s.homeLost asked = none → s.badScratch asked = none →
      ∃ u, exec .longLatencyArrival s = .next u ∧
        u.regAt a.core a.rd = Reg.ofVec (widenLoad kind (addrs.map fun x => (tabGet? got x).getD ((own x).getD (s.homeByte x)))) ∧
        Others u ∧ MemKept s u) ∧
    (∀ x ∈ atomicNew, ∀ (h : Nat) (b c : Word), a.prod = .atomic x.1 h b c → s.homeLost (eight h) = none → s.badScratch (eight h) = none →
      let old : Word := BitVec.ofNat 64 (bytesNat (s.homeBytes h 8))
      ∃ u, exec .longLatencyArrival s = .next u ∧ u.regAt a.core a.rd = Reg.ofVec (widen old) ∧ Others u ∧
        u.homeBytes h 8 = natBytes 8 (x.2 old b c).toNat ∧ ∀ y, (y < h ∨ h + 8 ≤ y) → u.homeByte y = s.homeByte y)

/-- R100, R141 to R143, R318: a ONCE post lands in the member's entry; an NWRITE lands in the armed register, else in the
core's landing queue, and is counted lost at a FREE slot or outside the window; a WAKE lands in the armed register, else in the
thread's latch, ORed with what it holds.
Read as log 18 says, the model's own readings. -/
def Obligations.PostsAndNotifiesLand : Prop :=
  (∀ (s : State) (n : Nat) (q : Post) (v : Vec), s.arg.n = n → s.posts[n]? = some q → q.ready = true → q.emptied = true → q.due ≤ s.cycle →
    q.val = some v → q.dest.entry < 2048 → s.savedOf (((s.core q.dest.core).part).getD 0) q.uid = none →
    ∃ u, exec .oncePostLanding s = .next u ∧ u.regAt q.dest.core q.dest.entry = Reg.ofVec v ∧ u.posts = s.posts.eraseIdx n ∧
      (∀ c' m, m < 2048 → ¬(c' = q.dest.core ∧ m = q.dest.entry) → u.regAt c' m = s.regAt c' m) ∧
      u = { s with regs := u.regs, posts := u.posts }) ∧
  (∀ (s : State) (n : Nat) (d : Delivery) (v : Vec), s.arg.n = n → s.nwrites[n]? = some d → s.mayLandNwrite n = true → d.val = some v →
    (s.core d.core).fenced = false → s.swappedAt d.core d.slot = none →
    (∀ t, s.thread? d.core d.slot = some t → d.reg < t.size → t.base + t.size ≤ 2048 →
      (t.armNbr = some (t.base + d.reg) →
        ∃ u, exec .nwriteLanding s = .next u ∧ u.regAt d.core (t.base + d.reg) = Reg.ofVec v ∧
          u.thread? d.core d.slot = some { t with armNbr := none } ∧ u.nwrites = s.nwrites.eraseIdx n ∧
          u = { s with regs := u.regs, threads := u.threads, nwrites := u.nwrites }) ∧
      (t.armNbr ≠ some (t.base + d.reg) →
        ∃ u, exec .nwriteLanding s = .next u ∧ (u.core d.core).landing = (s.core d.core).landing ++
            [{ slot := d.slot, reg := d.reg, from_ := d.from_, val := some v }] ∧
          u.nwrites = s.nwrites.eraseIdx n ∧ u = { s with cores := u.cores, nwrites := u.nwrites })) ∧
    ((s.thread? d.core d.slot = none ∨ ∃ t, s.thread? d.core d.slot = some t ∧ t.size ≤ d.reg) →
      ∃ u, exec .nwriteLanding s = .next u ∧ (u.core d.core).nlost = (s.core d.core).nlost + 1 ∧
        u.nwrites = s.nwrites.eraseIdx n ∧ u = { s with cores := u.cores, nwrites := u.nwrites })) ∧
  (∀ (s : State) (n : Nat) (d : Delivery) (v : Word) (t : Thread), s.arg.n = n → s.wakes[n]? = some d → d.due ≤ s.cycle → d.val = some (widen v) →
    (s.core d.core).fenced = false → s.swappedAt d.core d.slot = none → s.thread? d.core d.slot = some t →
    (∀ e, t.armNtf = some e → e < 2048 →
      ∃ u, exec .wakeDelivery s = .next u ∧ u.regAt d.core e = Reg.ofVec (widen v) ∧
        u.thread? d.core d.slot = some { t with armNtf := none } ∧ u.wakes = s.wakes.eraseIdx n ∧
        u = { s with regs := u.regs, threads := u.threads, wakes := u.wakes }) ∧
    (t.armNtf = none →
      ∃ u, exec .wakeDelivery s = .next u ∧ u.thread? d.core d.slot = some { t with notify := some (t.notify.getD 0 ||| v) } ∧
        u.wakes = s.wakes.eraseIdx n ∧ u = { s with threads := u.threads, wakes := u.wakes }))

/-- R150, R197, R276: a committed entry becomes visible whole: exactly its bytes change; an element of a started command becomes
visible, in order, with exactly its bytes.
Read as log 8, 9 and 19 say, the model's own readings. -/
def Obligations.StoreBecomesVisible : Prop :=
  (∀ (s : State) (n : Nat) (e : Store), s.arg.flag = false → s.arg.n = n → s.pend[n]? = some e → s.mayShow n = true →
    tabSorted e.writes = true →
    (∀ w ∈ e.writes, (∀ d, homeDevice w.1 = some d → s.reachable d = true) ∧
      (scratchHome ≤ w.1 → (s.core ((w.1 - scratchHome) / 2 ^ 20)).fenced = false)) →
    ∃ u, exec .storeVisible s = .next u ∧ (∀ a, u.homeByte a = (tabGet? e.writes a).getD (s.homeByte a)) ∧
      u.pend = s.pend.eraseIdx n ∧
      u = { s with pend := u.pend, mem := u.mem, scratch := u.scratch, lost := u.lost, badWords := u.badWords, dirty := u.dirty, passed := u.passed }) ∧
  (∀ (s : State) (k : Nat) (a : Active) (w : ElemWrite) (rest : List ElemWrite), s.arg.flag = true → s.arg.n = k →
    tabGet? s.active k = some a → a.steps = [] → a.writes = w :: rest → s.mayShowElement k = true → s.streamOf k = none → a.entry.bound = false →
    w.bytes ≠ [] → (∀ i, i < w.bytes.length → w.addr + i < divertHome) →
    (∀ i, i < w.bytes.length → scratchHome ≤ w.addr + i → (s.core ((w.addr + i - scratchHome) / 2 ^ 20)).fenced = false) →
    ∃ u, exec .storeVisible s = .next u ∧ (∀ i, i < w.bytes.length → u.homeByte (w.addr + i) = w.bytes.getD i 0) ∧
      (∀ b, (b < w.addr ∨ w.addr + w.bytes.length ≤ b) → u.homeByte b = s.homeByte b) ∧
      tabGet? u.active k = some { a with writes := rest, done := a.done + 1 } ∧
      u = { s with mem := u.mem, scratch := u.scratch, lost := u.lost, badWords := u.badWords, dirty := u.dirty, active := u.active, ctxs := u.ctxs })

/-! ### Records, strands, queues and messages (R40, R97, R130, R161, R165, R173, R297, R345 to R347) -/

/-- R161, R165: a trap's record enters q6 once the stores that its trap committed are visible, with the core's next sequence
number and a CRC-32C over its first 60 bytes. R97: a COUPLE that has waited 65,536 cycles ends with status 4. R40: a core takes the
oldest strand of its first non-empty deque, which begins at its arm with its counter's address in lk.
Read as log 18, 39 and 96 say, the model's own readings. -/
def Obligations.RecordsTimeoutsAndStrands : Prop :=
  (∀ (s : State) (n : Nat) (r : TrapOut), s.arg.n = n → s.traps[n]? = some r → s.mayEnqueue n = true →
    ∃ u v, exec .trapRecordEnqueue s = .next u ∧ (u.core r.core).q6 = (s.core r.core).q6 ++ [v] ∧
      v = sealVec (packBytes 512 [(0, 6, fieldAt r.body 0 6), (6, 2, (s.core r.core).q6seq), (8, 52, fieldAt r.body 8 52)]) ∧
      (u.core r.core).q6seq = ((s.core r.core).q6seq + 1) % 2 ^ 16 ∧ u.traps = s.traps.eraseIdx n ∧
      u = { s with cores := u.cores, traps := u.traps }) ∧
  (∀ (s : State) (c sl rd since : Nat) (m : BitVec 4) (sig : List Byte) (t : Thread), s.arg.n = c → s.arg.m = sl →
    s.thread? c sl = some t → t.state = .blocked (.couple rd m since sig) → since + 65536 ≤ s.cycle →
    ∃ u f, exec .coupleTimeout s = .next u ∧ u.thread? c sl = some { t with state := .inflight f } ∧ f.fx = [.reg rd (widen 4)] ∧
      f.next = t.pc + 4 ∧ f.due = s.cycle + 12 ∧ u = { s with threads := u.threads, order := u.order }) ∧
  (∀ (s : State) (c sl d b : Nat) (e : Strand), s.arg.n = c → s.arg.m = sl → s.stealPick c = some (d, e, b) → s.thread? c sl = none → sl < 63 →
    s.ending e.part = false →
    ∃ u t, exec .strandSteal s = .next u ∧ u.thread? c sl = some t ∧ t.state = .ready ∧ t.readyAt = s.cycle + 1 ∧ t.pc = e.arm ∧ t.lk = e.counter ∧
      t.base = b ∧ t.size = e.size ∧ t.launch = e.launch ∧ t.buffer = [] ∧
      (u.core d).deque = (s.core d).deque.dropLast ∧
      u = { s with threads := u.threads, cores := u.cores, uid := u.uid })

/-- R130, R297: a record enters q7 from behind its backlog while fewer than 16 stand there; a held end-of-stream token enters its channel
once there is room. R173, R345 to R347: a message reaches its core's arrival queue, and is counted in sr.nlost where its handler is
none; the message thread takes the oldest one, at its handler's address with the payload in w0 and the sender in w1; a
diverted message is replayed on a core that its context holds again.
Read as log 18 and 101 say, the model's own readings. -/
def Obligations.QueuesAndMessagesGoOn : Prop :=
  (∀ (s : State) (c : Nat) (v : Vec) (rest : List Vec), s.arg.n = c → (s.core c).backlog = v :: rest → (s.core c).q7.length < 16 →
    ∃ u, exec .q7BacklogDelivery s = .next u ∧ u.core c = { s.core c with q7 := (s.core c).q7 ++ [v], backlog := rest } ∧
      u = { s with cores := u.cores }) ∧
  (∀ (s : State) (p key : Nat) (h : Chan), s.arg.n = p → s.arg.m = key → s.chan? p key = some h → 0 < h.held → h.entries.length < 2 ^ h.depth →
    ∀ x, s.ctx? p = some x → (x.chanAway h = true → x.buffered < 512) →
    ∃ u, exec .endOfStreamAppend s = .next u ∧ u = { s with ctxs := u.ctxs } ∧ u.chan? p key = some { h with
      entries := h.entries ++ [.eos], held := h.held - 1, diverted := h.diverted + if x.chanAway h then 1 else 0 }) ∧
  (∀ (s : State) (n : Nat) (m : Message), s.arg.n = n → s.messages[n]? = some m → s.mayArriveMessage n = true →
    (s.core m.target).fenced = false → (s.core m.target).part = some m.part →
    (∀ tab b z, (s.core m.target).handlers = some (tab, b, z) → tab.getD m.handler 0 ≠ 0 →
      ∃ u, exec .amArrival s = .next u ∧ (u.core m.target).arrivals = (s.core m.target).arrivals ++ [m] ∧
        u.messages = s.messages.eraseIdx n ∧ u = { s with cores := u.cores, messages := u.messages }) ∧
    ((s.core m.target).handlers = none →
      ∃ u, exec .amArrival s = .next u ∧ (u.core m.target).nlost = (s.core m.target).nlost + 1 ∧
        (u.core m.target).arrivals = (s.core m.target).arrivals ∧ u.messages = s.messages.eraseIdx n ∧
        u = { s with cores := u.cores, messages := u.messages })) ∧
  (∀ (s : State) (c b z : Nat) (tab : List Word) (m : Message) (rest : List Message), s.arg.n = c → (s.core c).arrivals = m :: rest →
    s.thread? c 63 = none → (s.core c).moving = false → (s.core c).handlers = some (tab, b, z) →
    (tab.getD m.handler 0).setWidth 48 ≠ (0 : Addr) → b + z ≤ 2048 → 8 ≤ z →
    ∃ u t, exec .amHandlerStart s = .next u ∧ u.thread? c 63 = some t ∧ t.state = .ready ∧ t.readyAt = s.cycle + 1 ∧ t.handler = true ∧
      t.uid = (if (s.core c).messageUid = 0 then s.uid else (s.core c).messageUid) ∧ (u.core c).messageUid = t.uid ∧
      t.pc = (tab.getD m.handler 0).setWidth 48 ∧ t.base = b ∧ t.size = z ∧ u.regAt c b = Reg.ofVec m.payload ∧
      (u.regAt c (b + 1)).val = BitVec.ofNat 512 ((m.dev + m.core * 2 ^ 8 + m.slot * 2 ^ 24 + m.handler * 2 ^ 32) % 2 ^ 64) ∧
      (u.core c).arrivals = rest ∧ u = { s with threads := u.threads, cores := u.cores, regs := u.regs, uid := u.uid }) ∧
  (∀ (s : State) (p b z : Nat) (x : Ctx) (tab : List Word) (m : Message) (rest : List Message), s.arg.n = p → s.ctx? p = some x →
    x.diverted = m :: rest → (s.core m.target).part = some p → (s.core m.target).arrivals.length < 64 →
    (s.core m.target).handlers = some (tab, b, z) → tab.getD m.handler 0 ≠ 0 →
    ∃ u, exec .divertedMessageReplay s = .next u ∧ (u.core m.target).arrivals = (s.core m.target).arrivals ++ [m] ∧
      u.ctx? p = some { x with diverted := rest } ∧ u = { s with cores := u.cores, ctxs := u.ctxs })

/-! ### Engine commands: start, refusal, completion; the rewrite stage (R134, R135, R178 to R191, R199, R218 to R260, R332 to R344) -/

namespace Sys2Proof.Slice0

/-- Commands of the copy engines by opcode (R183, R184), of the tile engine (R242 to R255), of the route engine (R339 to R344). -/
def copyCommands : List (Nat × Instr) := [(1, .copy), (2, .copy2d), (3, .copy3d), (4, .copyGather), (5, .fill), (6, .schedLoad)]
def tileCommands : List (Nat × Instr) :=
  [(0x01, .accZero), (0x02, .accLoad), (0x03, .accStore), (0x10, .mmaE4m3E4m3), (0x11, .mmaE4m3E5m2), (0x12, .mmaE5m2E4m3),
   (0x13, .mmaEc8Ec8), (0x14, .mmaEc8E4m3), (0x15, .mmaBf16Bf16), (0x16, .mmaF32F32), (0x17, .mmaI8I8), (0x18, .mmaSpE4m3E4m3),
   (0x19, .mmaSpBf16Bf16), (0x20, .nestEw), (0x21, .nestRed), (0x30, .transpose), (0x31, .enc8), (0x32, .dec8), (0x33, .compress),
   (0x34, .scale), (0x3F, .teMark)]
def tokenCommands : List (Nat × Instr) := [(1, .rteList), (2, .rteDispatch), (3, .rteCombine)]
def collectives : List (Nat × Instr) := [(0x10, .collAllred), (0x11, .collAllgath), (0x12, .collRedscat), (0x13, .collBcast)]

/-- The command e starts: its queue, its opcode, and its checks. -/
structure Starting (s : State) (e : CmdEntry) (queue opcode : Nat) : Prop where
  cur : s.cur = .command e
  queue : e.queue = queue
  opcode : e.opcode = opcode
  passes : s.commandRefusal e = none
  conditions : s.commandMayStart e = true

/-- The command e starts on a machine in which nothing holds it back: its queue, its opcode, and its checks (R182, R221, R334); its core is
neither killed nor on the move, nor its deck fenced; its context goes on; no engine is at work, no range is locked, no access of a thread
is outstanding, or has passed another, and its ranges find room in the lock table (R178, R188, R190, R198, R238, R285, R332). -/
structure Unhindered (s : State) (e : CmdEntry) (queue opcode : Nat) (spans : List Span) : Prop where
  cur : s.cur = .command e
  queue : e.queue = queue
  opcode : e.opcode = opcode
  passes : s.commandRefusal e = none
  core : (s.core e.core).moving = false ∧ (s.core e.core).fenced = false ∧ deckOf e.core ∉ s.fencedDecks
  context : ∃ x, s.ctx? e.part = some x ∧ x.ending = none
  idle : s.active = []
  unlocked : s.locks = [] ∧ spans.length ≤ 64
  settled : s.arrivals = [] ∧ s.passed = []

/-- The started command stands among the active ones with its locks, has left its queue, and no byte has changed (R178, R188). -/
structure Started (s u : State) (e : CmdEntry) (spans : List Span) (a : Active) : Prop where
  active : tabGet? u.active e.order = some a
  entry : a.entry = e
  start : a.start = s.cycle
  left : ∀ x ∈ (u.core e.core).cmdsOf e.queue, x.order ≠ e.order
  locks : ∀ x ∈ spans, ∃ i, tabGet? u.locks i = some (x.lock e.core e.part e.order) ∧ i / 64 = clusterOf e.core
  memory : MemKept s u

/-- Every element's source can be read, and its destination written (R199). -/
def ElementsGood (s : State) (e : CmdEntry) (src dst : Nat → Nat) : Prop :=
  ∀ k, k < e.copyCount →
    s.elemHome e (e.srcAddr k) e.elemSize 0 = .ok (src k) ∧ s.elemHome e (e.dstAddr k) e.elemSize 1 = .ok (dst k) ∧
    s.homeLost ((List.range e.elemSize).map fun i => src k + i) = none ∧ s.badScratch ((List.range e.elemSize).map fun i => src k + i) = none

/-! Bodies and operand words of tile commands (R215, R217, R220, R249). -/

def body (e : CmdEntry) (low width : Nat) : Nat := e.cmd.toNat / 2 ^ low % 2 ^ width
def operand (e : CmdEntry) (i : Nat) : Nat := e.opr.toNat / 2 ^ (64 * i) % 2 ^ 64
/-- M, and ROWS; N; K, and COLS; TYPE. -/
def bodyM (e : CmdEntry) : Nat := 32 * (body e 221 3 + 1)
def bodyN (e : CmdEntry) : Nat := 32 * (body e 218 3 + 1)
def bodyK (e : CmdEntry) : Nat := 32 * body e 208 10
def bodyType (e : CmdEntry) : Nat := body e 205 3
/-- The accumulator word of element (i, j): tile ACC + ⌊i/32⌋ × (N/32) + ⌊j/32⌋, row i mod 32, column j mod 32 (R215). -/
def accWord (e : CmdEntry) (i j : Nat) : Nat := (body e 199 3 + i / 32 * (bodyN e / 32) + j / 32) * 1024 + i % 32 * 32 + j % 32
/-- Address of byte b of row r under a base and a geometry word, whose pitches are TILE in bits 47 to 24 and ROW in bits 23 to 0
(R217, R218, R244, R249). -/
def rowByte (base geometry r b : Nat) : Nat := base + r / 32 * (geometry / 2 ^ 24 % 2 ^ 24) + r % 32 * (geometry % 2 ^ 24) + b

/-- A floating-point value that is a number. -/
def Finite (x : Fp) : Prop := ∃ neg m e, x = .fin neg m e

/-- One chunk of R208 on numbers: the exact sum of the 32 products, scaled by sAB and rounded once, negated when NEG is set, and added to
the accumulator with one rounding; an accumulator that is a NaN, or a NaN sum, gives the canonical NaN (R209). -/
def productChunk (neg : Bool) (sab : Fp) (a b : Nat → Fp) (acc c : Nat) : Nat :=
  let t := (List.range 32).foldl (fun (d : Machine.Dyadic) k => d.add ((a (32 * c + k)).dyadic.mul (b (32 * c + k)).dyadic)) Machine.Dyadic.zero
  let u := if t.val = 0 then 0 else (roundDyadic f32 0 (t.mul sab.dyadic) (decide (t.val < 0) != sab.neg)).1
  let u := if neg then flipSign f32 u else u
  if isNan f32 acc || isNan f32 u then f32.nan else (fpAdd f32 acc u).1
/-- Products of plain operands, by opcode, with the types of A and of B (R219, R242). -/
def plainProducts : List (Nat × Nat × Nat × Instr) :=
  [(0x10, 2, 2, .mmaE4m3E4m3), (0x11, 2, 3, .mmaE4m3E5m2), (0x12, 3, 2, .mmaE5m2E4m3), (0x15, 1, 1, .mmaBf16Bf16), (0x16, 0, 0, .mmaF32F32)]

/-- A byte after writes in their order. -/
def writtenByte (writes : List ElemWrite) (a : Nat) (old : Byte) : Byte :=
  writes.foldl (fun x w => if w.addr ≤ a ∧ a < w.addr + w.bytes.length then w.bytes.getD (a - w.addr) 0 else x) old
/-- The bytes that writes make, one by one in their order. -/
def flatBytes (writes : List ElemWrite) : List (Nat × Byte) :=
  writes.flatMap fun w => (List.range w.bytes.length).map fun j => (w.addr + j, w.bytes.getD j 0)

/-- What RTE.COMBINE finds for entry i of its list (R341): the placement and choice entries, the expert entry and its control line here, the
returned token, and the homes of the output token. -/
structure CombineFinds (s : State) (e : CmdEntry) (i : Nat) (place choice expert line token : List Byte) (out : Nat → Nat) : Prop where
  placed : s.routeRead e (operand e 4 + 8 * i) 8 = .ok place
  outcome : byteNat place 4 1 ≤ 2
  returned : byteNat place 4 1 < 2 →
    s.routeRead e (operand e 1 + 16 * i) 16 = .ok choice ∧ byteNat place 0 2 ≤ body e 192 8 ∧
    s.routeRead e (operand e 2 + 16 * byteNat place 0 2) 16 = .ok expert ∧ byteNat expert 0 1 = ownDevice ∧ byteNat expert 8 8 % 64 = 0 ∧
    s.routeRead e (byteNat expert 8 8) 64 = .ok line ∧ 1 ≤ byteNat line 0 4 ∧ byteNat line 0 4 ≤ 65535 ∧ bytesNat (line.drop 0x28) = 0 ∧
    s.routeRead e (byteNat line 0x20 8 + byteNat place 2 2 * (64 * body e 200 8)) (64 * body e 200 8) = .ok token
  home : ∀ j, j < 64 * body e 200 8 → s.elemHome e (operand e 0 + i * (64 * body e 200 8) + j) 1 1 = .ok (out j)
/-- The output token: zeros for a dropped token, else every word of the returned one times the weight of its rank (R341). -/
def combined (e : CmdEntry) (place choice token : List Byte) : List Byte :=
  if byteNat place 4 1 = 2 then List.replicate (64 * body e 200 8) 0
  else (chunks 4 token).flatMap fun v => natBytes 4 (fpMul f32 (byteNat choice (8 + 4 * byteNat place 4 1) 4) (bytesNat v)).1

/-- A rule matches the head of the window fully: its pattern slots fit the thread's first matched commands there, and it forms a group of
them (R223, R224, R230). -/
def FullMatch (s : State) (c : Nat) (h : CmdEntry) (r : Rule) (g : Group) : Prop :=
  let run := (s.core c).window.filter fun e => e.uid == h.uid && decide (e.since ≤ s.cycle)
  let ceiling := match (s.core c).part.bind s.ctx? with | some x => x.ceiling | none => 0
  ruleP r ≤ run.length ∧ ruleFits r ceiling (run.take (ruleP r)) = true ∧ s.formGroup c r (run.take (ruleP r)) = some g

/-- A completed command: its locks and its place are gone, its counter is pulsed, and its record stands in its queue (R134, R135, R191). -/
structure Completed (s u : State) (a : Active) (status detail : Nat) : Prop where
  gone : tabGet? u.active a.entry.order = none
  unlocked : ∀ l ∈ u.locks, l.2.owner ≠ a.entry.order
  record : ∃ o, (u.core a.entry.core).compsOf (a.entry.queue + 1) =
      (s.core a.entry.core).compsOf (a.entry.queue + 1) ++ [completionRecord a.entry s.time o] ∧
    o.status = status ∧ o.detail = detail ∧ o.fault = a.fault.toNat ∧ o.sat = a.sat ∧ o.rewrite = a.rewrite
  pulsed : (u.core a.entry.core).counters = ((s.core a.entry.core).pulse a.entry.cnt).counters
  memory : MemKept s u

end Sys2Proof.Slice0

/-- R178, R180 to R184, R188, R197: a copy command whose checks and start conditions hold starts: its ranges are locked, and its
elements are to be written in order, element k to its destination with its source's bytes (COPY in one, two and three dimensions), with
the bytes of the source that its index names (COPY.GATHER), or with the fill value (FILL); SCHED.LOAD will install its schedule.
Read as log 9 says, the model's own readings. -/
def Obligations.CopyCommandsStart : Prop :=
  (∀ x ∈ copyCommands, ∀ (s : State) (e : CmdEntry), Unhindered s e 2 x.1 e.copySpans → (e.stream = true → e.bound = true) →
    ∃ u a, exec x.2 s = .next u ∧ Started s u e e.copySpans a) ∧
  (∀ x ∈ copyCommands, ∀ (s : State) (e : CmdEntry), Starting s e 2 x.1 → ∃ u a, exec x.2 s = .next u ∧ Started s u e e.copySpans a) ∧
  (∀ x ∈ copyCommands, x.1 ≤ 3 → ∀ (s : State) (e : CmdEntry) (src dst : Nat → Nat), Starting s e 2 x.1 → ElementsGood s e src dst →
    ∃ u a, exec x.2 s = .next u ∧ tabGet? u.active e.order = some a ∧ a.status = 0 ∧ a.done = 0 ∧
      a.writes = (List.range e.copyCount).map fun k => { addr := dst k, bytes := s.homeBytes (src k) e.elemSize }) ∧
  (∀ (s : State) (e : CmdEntry) (idx src dst : Nat → Nat), Starting s e 2 4 →
    (∀ k, k < e.copyCount →
      s.elemRead e (e.op 2 + 4 * k) 4 = .ok (natBytes 4 (idx k)) ∧ idx k < 2 ^ 32 ∧ (idx k + 1) * e.elemSize ≤ e.op 3 ∧
      s.elemHome e (e.op 0 + idx k * e.elemSize) e.elemSize 0 = .ok (src k) ∧ s.elemHome e (e.dstAddr k) e.elemSize 1 = .ok (dst k) ∧
      s.homeLost ((List.range e.elemSize).map fun i => src k + i) = none ∧
      s.badScratch ((List.range e.elemSize).map fun i => src k + i) = none) →
    ∃ u a, exec .copyGather s = .next u ∧ tabGet? u.active e.order = some a ∧ a.status = 0 ∧
      a.writes = (List.range e.copyCount).map fun k => { addr := dst k, bytes := s.homeBytes (src k) e.elemSize }) ∧
  (∀ (s : State) (e : CmdEntry) (dst : Nat → Nat), Starting s e 2 5 →
    (∀ k, k < e.copyCount → s.elemHome e (e.dstAddr k) e.elemSize 1 = .ok (dst k)) →
    ∃ u a, exec .fill s = .next u ∧ tabGet? u.active e.order = some a ∧ a.status = 0 ∧
      a.writes = (List.range e.copyCount).map fun k =>
        { addr := dst k, bytes := if e.elemSize = 64 then (List.range 8).flatMap fun _ => natBytes 8 (e.op 0) else natBytes e.elemSize (e.op 0) }) ∧
  (∀ (s : State) (e : CmdEntry) (r : List (BitVec 128) × Nat), Starting s e 2 6 → s.schedImage e = .ok r →
    ∃ u a, exec .schedLoad s = .next u ∧ tabGet? u.active e.order = some a ∧ a.status = 0 ∧ a.writes = [] ∧ a.sched = some r)

/-- R188, R197, R218, R238 to R243: a tile command whose checks and start conditions hold, and whose register operands are full,
starts and computes what its opcode says from the memory, registers and accumulator tiles that it finds; its writes become
visible one by one, and its tile words are written at its completion: in R243's cycles for a product, 2 for TE.MARK. ACC.LOAD takes each
word, or halfword into the upper half; ACC.STORE gives each tile word, or its BF16; a product of plain operands that are numbers is that of R208,
chunk by chunk; TRANSPOSE moves src(r, c) to dst(c, r); SCALE multiplies each element exactly and rounds once.
Read as log 9 and 74 say, the model's own readings. -/
def Obligations.TileCommandsStart : Prop :=
  (∀ x ∈ tileCommands, ∀ (s : State) (e : CmdEntry), Starting s e 0 x.1 → (s.core e.core).replay = [] → s.operandFull e = true →
    (∀ r ∈ s.operandRegs e, (s.regAt e.core r).flips < 2) →
    ∃ (u v : State) (a : Active), exec x.2 s = .next u ∧ Started s u e e.tileSpans a ∧
      (v = { s with regs := v.regs, cores := v.cores, ctxs := v.ctxs, locks := v.locks, active := v.active, correctedNow := v.correctedNow } ∧
        (∀ c n, SameReg (s.regAt c n) (v.regAt c n)) ∧ ∀ c, (v.core c).tiles = (s.core c).tiles) ∧
      a.stalled = false ∧ a.due = s.cycle + e.busy s.takeDelay.1 ∧ a.writes = (v.tileRun e).writes ∧
      ((v.tileRun e).fault = none → a.status = 0 ∧ a.sat = (v.tileRun e).sat ∧ a.tiles = (v.tileRun e).tiles) ∧
      (∀ f, (v.tileRun e).fault = some f → a.status = f.status ∧ a.detail = f.detail ∧ a.fault = BitVec.ofNat 64 f.addr ∧ a.tiles = []) ∧
      (x.1 = 0x01 → ∀ i j, i < e.tM → j < e.tN → tabGet? a.tiles (e.tileKey i j) = some 0)) ∧
  (∀ x ∈ tileCommands, ∀ (s : State) (e : CmdEntry), Unhindered s e 0 x.1 e.tileSpans →
    (∀ r ∈ s.operandRegs e, (s.regAt e.core r).full = true ∧ (s.regAt e.core r).flips < 2) →
    ∃ u a, exec x.2 s = .next u ∧ Started s u e e.tileSpans a ∧ a.stalled = false) ∧
  (∀ (s : State) (e : CmdEntry) (src : Nat → Nat → List Byte), Starting s e 0 0x02 → (s.core e.core).replay = [] →
    let n := if bodyType e = 1 then 2 else 4
    (∀ i j, i < bodyM e → j < bodyN e → s.elemRead e (rowByte (operand e 0) (operand e 1) i (j * n)) n = .ok (src i j)) →
    ∃ u a, exec .accLoad s = .next u ∧ tabGet? u.active e.order = some a ∧ a.status = 0 ∧ a.writes = [] ∧
      ∀ i j, i < bodyM e → j < bodyN e →
        tabGet? a.tiles (accWord e i j) = some (BitVec.ofNat 32 (bytesNat (src i j) * if bodyType e = 1 then 2 ^ 16 else 1))) ∧
  (∀ (s : State) (e : CmdEntry) (dst : Nat → Nat → Nat), Starting s e 0 0x03 → (s.core e.core).replay = [] →
    let n := if bodyType e = 1 then 2 else 4
    (∀ i j, i < bodyM e → j < bodyN e → s.elemHome e (rowByte (operand e 0) (operand e 1) i (j * n)) n 1 = .ok (dst i j)) →
    ∃ u a, exec .accStore s = .next u ∧ tabGet? u.active e.order = some a ∧ a.status = 0 ∧ a.tiles = [] ∧
      a.writes = (List.range (bodyM e * bodyN e)).map fun k =>
        let w := (tabGet (s.core e.core).tiles (accWord e (k / bodyN e) (k % bodyN e)) 0).toNat
        { addr := dst (k / bodyN e) (k % bodyN e), bytes := if bodyType e = 1 then natBytes 2 (fpConvert f32 bf16 0 w).1 else natBytes 4 w }) ∧
  (∀ x ∈ plainProducts, ∀ (s : State) (e : CmdEntry) (a b : Nat → Nat → List Byte), Starting s e 0 x.1 → (s.core e.core).replay = [] →
    body e 202 2 = 0 → body e 196 2 = 0 →
    let m := typeBytes x.2.1
    let n := typeBytes x.2.2.1
    let av (i k : Nat) : Fp := decodeType x.2.1 (bytesNat (a i k))
    let bv (j k : Nat) : Fp := decodeType x.2.2.1 (bytesNat (b j k))
    let sab := unpack f32 (fpMul f32 (operand e 6) (operand e 7)).1
    (∀ i k, i < bodyM e → k < bodyK e → s.elemRead e (rowByte (operand e 0) (operand e 1) i (k * m)) m = .ok (a i k) ∧ Finite (av i k)) →
    (∀ j k, j < bodyN e → k < bodyK e → s.elemRead e (rowByte (operand e 2) (operand e 3) j (k * n)) n = .ok (b j k) ∧ Finite (bv j k)) →
    Finite sab →
    ∃ u y, exec x.2.2.2 s = .next u ∧ tabGet? u.active e.order = some y ∧ y.status = 0 ∧ y.writes = [] ∧
      ∀ i j, i < bodyM e → j < bodyN e →
        tabGet? y.tiles (accWord e i j) = some (BitVec.ofNat 32
          ((List.range (bodyK e / 32)).foldl (productChunk (body e 195 1 == 1) sab (av i) (bv j))
            (if body e 198 1 = 1 then (tabGet (s.core e.core).tiles (accWord e i j) 0).toNat else 0)))) ∧
  (∀ (s : State) (e : CmdEntry) (src : Nat → Nat → List Byte) (dst : Nat → Nat → Nat), (s.core e.core).replay = [] →
    let n := [4, 2, 1, 1, 1, 4].getD (bodyType e) 1
    (∀ r c, r < bodyM e → c < bodyK e → s.elemRead e (rowByte (operand e 0) (operand e 1) r (c * n)) n = .ok (src r c)) →
    (Starting s e 0 0x30 →
      (∀ r c, r < bodyM e → c < bodyK e → s.elemHome e (rowByte (operand e 2) (operand e 3) c (r * n)) n 1 = .ok (dst c r)) →
      ∃ u a, exec .transpose s = .next u ∧ tabGet? u.active e.order = some a ∧ a.status = 0 ∧ a.tiles = [] ∧
        a.writes = (List.range (bodyM e * bodyK e)).map fun k =>
          { addr := dst (k / bodyM e) (k % bodyM e), bytes := src (k % bodyM e) (k / bodyM e) }) ∧
    (Starting s e 0 0x34 →
      (∀ r c, r < bodyM e → c < bodyK e → s.elemHome e (rowByte (operand e 2) (operand e 3) r (c * n)) n 1 = .ok (dst r c)) →
      let f := unpack f32 (operand e 6)
      ∃ u a, exec .scale s = .next u ∧ tabGet? u.active e.order = some a ∧ a.status = 0 ∧ a.tiles = [] ∧
        a.writes = (List.range (bodyM e * bodyK e)).map fun k =>
          let x := decodeType (bodyType e) (bytesNat (src (k / bodyK e) (k % bodyK e)))
          { addr := dst (k / bodyK e) (k % bodyK e)
            bytes := natBytes n (encodeType (bodyType e) (exactFma x f (.fin (x.neg != f.neg) 0 0))) }))

/-- R332, R339 to R344: a route command whose checks and start conditions hold starts: RTE.LIST with the writes of its queue lists,
every token under the device of its first expert, and of the counts; RTE.DISPATCH with its tokens in the order of its list; RTE.COMBINE with
its outputs, every returned word times its rank's weight and zeros for a dropped token; a collective with its input read and its
peers still to join.
Read as log 9 and 78 say, the model's own readings. -/
def Obligations.RouteCommandsStart : Prop :=
  (∀ x ∈ tokenCommands ++ collectives, ∀ (s : State) (e : CmdEntry), Unhindered s e 4 x.1 (s.routeSpans e) →
    ∃ u a, exec x.2 s = .next u ∧ Started s u e (s.routeSpans e) a) ∧
  (∀ x ∈ tokenCommands ++ collectives, ∀ (s : State) (e : CmdEntry), Starting s e 4 x.1 →
    ∃ u a, exec x.2 s = .next u ∧ Started s u e (s.routeSpans e) a) ∧
  (∀ (s : State) (e : CmdEntry) (choice expert : Nat → List Byte) (place total : Nat → Nat), Starting s e 4 1 →
    let tokens := body e 208 16
    let dev (i : Nat) : Nat := byteNat (expert i) 0 1
    let before (i : Nat) : Nat := (List.range i).countP fun k => dev k == dev i
    (∀ i, i < tokens →
      s.routeRead e (operand e 0 + 16 * i) 16 = .ok (choice i) ∧ byteNat (choice i) 0 2 ≤ body e 192 8 ∧
      s.routeRead e (operand e 1 + 16 * byteNat (choice i) 0 2) 16 = .ok (expert i) ∧ dev i ≤ body e 184 8 ∧
      2 * before i + 2 ≤ operand e 4 ∧ s.elemHome e (operand e 3 + dev i * operand e 4 + 2 * before i) 2 1 = .ok (place i)) →
    (∀ d, d ≤ body e 184 8 → s.elemHome e (operand e 2 + 4 * d) 4 1 = .ok (total d)) →
    ∃ u a, exec .rteList s = .next u ∧ tabGet? u.active e.order = some a ∧ a.status = 0 ∧ a.steps = [] ∧
      a.writes = ((List.range tokens).map fun i => { addr := place i, bytes := natBytes 2 i }) ++
        (List.range (body e 184 8 + 1)).map fun d =>
          { addr := total d, bytes := natBytes 4 ((List.range tokens).countP fun i => dev i == d) }) ∧
  (∀ (s : State) (e : CmdEntry) (l : List Nat) (place choice expert line token : Nat → List Byte) (out : Nat → Nat → Nat), Starting s e 4 3 →
    s.indexList e = .ok l →
    (∀ i ∈ l, CombineFinds s e i (place i) (choice i) (expert i) (line i) (token i) (out i)) →
    ∃ u a, exec .rteCombine s = .next u ∧ tabGet? u.active e.order = some a ∧ a.status = 0 ∧ a.steps = [] ∧
      flatBytes a.writes = l.flatMap fun i =>
        (List.range (64 * body e 200 8)).map fun j => (out i j, (combined e (place i) (choice i) (token i)).getD j 0)) ∧
  (∀ (s : State) (e : CmdEntry), Starting s e 4 1 →
    ∃ u a, exec .rteList s = .next u ∧ tabGet? u.active e.order = some a ∧ a.writes = (s.listRun e).1 ∧ a.steps = []) ∧
  (∀ (s : State) (e : CmdEntry) (l : List Nat), s.indexList e = .ok l →
    (Starting s e 4 2 → ∃ u a, exec .rteDispatch s = .next u ∧ tabGet? u.active e.order = some a ∧ a.writes = [] ∧
      a.steps = l.map RouteStep.token) ∧
    (Starting s e 4 3 → ∃ u a, exec .rteCombine s = .next u ∧ tabGet? u.active e.order = some a ∧ a.writes = (s.combineGo e l).1 ∧ a.steps = [])) ∧
  (∀ x ∈ collectives, ∀ (s : State) (e : CmdEntry) (input : List Byte) (d : Nat), Starting s e 4 x.1 → s.joins = [] →
    d ∈ e.ranks → d ≠ ownDevice →
    s.routeRead e (e.op 0) (e.collSize * e.collCount * if x.1 = 0x12 then e.ranks.length else 1) = .ok input →
    ∃ u a w, exec x.2 s = .next u ∧ tabGet? u.active e.order = some a ∧ a.writes = [] ∧ a.waiting = some w ∧ w.1 = e.collTag ∧
      w.2.2.1.length = 1 ∧ w.2.2.2 = s.timeQ)

/-- R182, R200, R221, R260, R334: a command that fails a check, or was cancelled, completes at once: it leaves its queue, its
record says why, and it pulses nothing, locks nothing and writes nothing.
Read as log 31 says, the model's own readings. -/
def Obligations.RefusedCommandCompletesAtOnce : Prop :=
  ∀ q, q = 0 ∨ q = 2 ∨ q = 4 → ∀ (s : State) (e : CmdEntry) (i : Instr) (o : Outcome), s.cur = .command e → e.queue = q →
    commandInstr q e.opcode = some i → s.commandRefusal e = some o → s.takesRecord e = true →
    ∃ u, exec i s = .next u ∧ (u.core e.core).compsOf (q + 1) = (s.core e.core).compsOf (q + 1) ++ [completionRecord e s.time o] ∧
      (u.core e.core).counters = (s.core e.core).counters ∧ (∀ x ∈ (u.core e.core).cmdsOf q, x.order ≠ e.order) ∧
      u.active = s.active ∧ u.locks = s.locks ∧ MemKept s u ∧ o.status ≠ 0

/-- R134, R135, R191, R239, R240, R332, R343: a command whose element writes are all visible completes in one cycle: its locks go, its
counter is pulsed, and its record enters its reserved place; a tile command's accumulator words are written; a collective that its peers have
not joined within 10 ms will complete with status 0x0F, detail 6.
Read as log 31 and 78 say, the model's own readings. -/
def Obligations.CommandsComplete : Prop :=
  ∀ (s : State) (k : Nat) (a : Active), s.arg.n = k → tabGet? s.active k = some a → a.entry.order = k →
    (s.mayComplete k = true → s.takesRecord a.entry = true →
      (a.entry.queue = 2 → ∃ u, exec .commandCompletionCopy s = .next u ∧ Completed s u a a.status a.detail) ∧
      (a.entry.queue = 4 → ∃ u, exec .commandCompletionRoute s = .next u ∧ Completed s u a a.status a.detail) ∧
      (a.entry.queue = 0 → ∃ u, exec .commandCompletionTile s = .next u ∧ Completed s u a a.status a.detail ∧
        (tabSorted a.tiles = true → ∀ n, tabGet (u.core a.entry.core).tiles n 0 = (tabGet? a.tiles n).getD (tabGet (s.core a.entry.core).tiles n 0)))) ∧
    (∀ w, a.waiting = some w → w.2.2.2 + 40000000 ≤ s.timeQ →
      ∃ u, exec .collectiveTimeout s = .next u ∧
        tabGet? u.active k = some { a with waiting := none, status := 0x0F, detail := 6, due := s.cycle } ∧
        u = { s with active := u.active, collEnded := u.collEnded })

/-- R222 to R225, R230 to R236: the oldest command of q0 enters the window while fewer than 8 stand there, and is matched two cycles
later; a head that has stood for 64 cycles, or heads a full window, is decided: the lowest-indexed rule that matches it fully forms its
group, and with none it is literal; a group's replacements commit at once: the held
writes land in their order, the tile words are written, its locks go, every member's counter is pulsed, and every member has its record with
the rewrite's outcome; a group that has failed writes nothing, and its members are to be replayed in order.
Read as log 75, 76 and 105 say, the model's own readings. -/
def Obligations.RewriteStageGoesOn : Prop :=
  (∀ (s : State) (c : Nat) (e : CmdEntry) (rest : List CmdEntry), s.arg.n = c → (s.core c).cmdsOf 0 = e :: rest → (s.core c).mayEnter = true →
    ∃ u w x, exec .rewriteWindowEntry s = .next u ∧ (u.core c).cmdsOf 0 = rest ∧ (u.core c).window = w ++ [x] ∧
      w.map CmdEntry.order = (s.core c).window.map CmdEntry.order ∧ x.order = e.order ∧ x.cmd = e.cmd ∧ x.opr = e.opr ∧ x.since = s.cycle + 2 ∧
      (x.literal = (e.literal || e.bits 228 228 == 1 || e.gate != 0)) ∧ u = { s with cores := u.cores }) ∧
  (∀ (s : State) (c : Nat) (h : CmdEntry) (rest : List CmdEntry), s.arg.n = c → s.releases c = true → (s.core c).window = h :: rest →
    ((∀ r ∈ (s.core c).rules, ∀ g, ¬FullMatch s c h r g) →
      ∃ u, exec .rewriteHeadRelease s = .next u ∧ u = { s with cores := u.cores } ∧ (u.core c).window = { h with literal := true } :: rest ∧
        (u.core c).group = none) ∧
    (∀ before r after g, (s.core c).rules = before ++ r :: after → (∀ x ∈ before, ∀ k, ¬FullMatch s c h x k) → FullMatch s c h r g →
      ∃ u, exec .rewriteHeadRelease s = .next u ∧ u = { s with cores := u.cores } ∧ (u.core c).group = some g ∧
        (u.core c).window = (s.core c).window.filter fun e => g.members.all fun m => m.order != e.order)) ∧
  (∀ (s : State) (c : Nat) (g : Group) (a : Active), s.arg.n = c → s.groupDone c = some (g, a) →
    (g.failed = none → (∀ m ∈ g.members, m.core = c ∧ m.queue = 0 ∧ s.takesRecord m = true) →
      (∀ w ∈ a.writes, ∀ i < w.bytes.length, scratchHome ≤ w.addr + i → (s.core ((w.addr + i - scratchHome) / 2 ^ 20)).fenced = false) →
      ∃ (u : State) (outcome : Nat → Outcome), exec .rewriteGroupCommit s = .next u ∧ (u.core c).running = none ∧ tabGet? u.active a.entry.order = none ∧
        (∀ l ∈ u.locks, l.2.owner ≠ a.entry.order) ∧
        (∀ b, u.homeByte b = writtenByte a.writes b (s.homeByte b)) ∧
        (tabSorted a.tiles = true → ∀ n, tabGet (u.core c).tiles n 0 = (tabGet? a.tiles n).getD (tabGet (s.core c).tiles n 0)) ∧
        (u.core c).counters = (g.members.foldl (fun k m => k.pulse m.cnt) (s.core c)).counters ∧
        (u.core c).compsOf 1 = (s.core c).compsOf 1 ++
          ((List.range g.members.length).zip g.members).map (fun m => completionRecord m.2 s.time (outcome m.1)) ∧
        ∀ i, (outcome i).status = 0 ∧ (outcome i).detail = 0 ∧ (outcome i).sat = g.sats.contains i ∧
          (outcome i).rewrite = some (if g.repl.any fun x => x.2 == i then 1 else 2, i, ((g.members.head?).map CmdEntry.seq).getD 0, ruleId g.rule)) ∧
    (∀ f, g.failed = some f →
      ∃ u, exec .rewriteGroupReplay s = .next u ∧ (u.core c).running = none ∧ (u.core c).replay.map (fun r => r.1) = g.members ∧
        (∀ l ∈ u.locks, l.2.owner ≠ a.entry.order) ∧ MemKept s u))

/-! ### The dispatcher, core moves, observation (R3, R164, R169, R172, R276, R277, R296 to R303, R313, R325 to R327, R369, R396 to R399) -/

namespace Sys2Proof.Slice0

/-- The first placement that some partition can make (R299). -/
def firstPlace (s : State) : Option (Nat × Ctx × Nat × Launch × Plan) :=
  s.ctxs.findSome? fun e => if e.2.ending.isSome then none else (s.nextPlace e.1 e.2).map fun h => (e.1, e.2, h)

/-- The entries of a core read as at reset. -/
def RegsAtReset (u : State) (c : Nat) : Prop := ∀ n, n < 2048 → u.regAt c n = Reg.reset

end Sys2Proof.Slice0

/-- R296, R299, R301, R302, R169, R172: a decision of the dispatcher places the launch that comes first: its thread is READY from the next
cycle at the entry address, with its index and the record's arguments in w0 to w3; with none to place the dispatcher rests. A head that
reaches the age limit takes the region reservation. A victim is swapped out, at once or once its instruction completes, with its
registers in its record; a record is restored with its registers and program counter.
Read as log 18, 55 and 57 say, the model's own readings. -/
def Obligations.DispatcherDecides : Prop :=
  (∀ (s : State) (p id c : Nat) (x : Ctx) (l : Launch) (seat : Seat), s.dispatch = true → firstPlace s = some (p, x, id, l, [(c, [seat])]) →
    s.ctx? p = some x → recKind l.record ≠ 1 → recResume l.record = false → x.chanConflict l.record = false → seat.slot < 64 → seat.base + 4 ≤ 2048 →
    ∃ u t, exec .dispatcherDecision s = .next u ∧ u.thread? c seat.slot = some t ∧ t.state = .ready ∧ t.readyAt = s.cycle + 1 ∧
      t.pc = BitVec.ofNat 48 (recEntry l.record) ∧ t.base = seat.base ∧ t.size = recWindow l.record ∧ t.launch = id ∧ t.coupled = false ∧
      t.lk = 0 ∧ t.fflags = 0 ∧
      u.regAt c seat.base = Reg.ofVec 0 ∧ u.regAt c (seat.base + 1) = Reg.ofVec (BitVec.ofNat 512 (recArg l.record 0)) ∧
      u.regAt c (seat.base + 2) = Reg.ofVec (BitVec.ofNat 512 (recArg l.record 1)) ∧
      u.regAt c (seat.base + 3) = Reg.ofVec (BitVec.ofNat 512 (recArg l.record 2)) ∧
      (u.ctx? p).bind (fun y => (tabGet? y.launches id).map Launch.state) = some 3 ∧
      (∀ c' n, n < 2048 → (c' ≠ c ∨ n < seat.base ∨ seat.base + 4 ≤ n) → u.regAt c' n = s.regAt c' n)) ∧
  (∀ s : State, s.dispatch = true → firstPlace s = none → exec .dispatcherDecision s = .next { s with dispatch := false }) ∧
  (∀ (s : State) (p q id r : Nat) (x : Ctx) (l : Launch), s.arg.n = p → s.arg.m = q → s.agedHead p q = some (x, id, l) →
    s.bestRegion p x (recPrio l.record) = some r →
    ∃ u y, exec .headAgeLimit s = .next u ∧ u.ctx? p = some y ∧ y.reservation = some (id, r) ∧
      (tabGet? y.launches id).map Launch.state = some 2 ∧ u = { s with ctxs := u.ctxs, dispatch := true }) ∧
  (∀ (s : State) (p c sl : Nat) (t : Thread), s.arg.n = c → s.arg.m = sl → (s.core c).part = some p → s.preemptNow p = some (c, sl) →
    s.thread? c sl = some t → t.coupled = false → sl < 64 →
    (∀ f, t.state = .inflight f → ∃ u r, exec .preemptSwapOut s = .next u ∧ u.thread? c sl = some { t with after := some (.swap r false) } ∧
      (∀ c' n, u.regAt c' n = s.regAt c' n) ∧ MemKept s u) ∧
    (t.state = .ready → ∃ u r y v, exec .preemptSwapOut s = .next u ∧
      (u.thread? c sl).map Thread.state = some (.leaving r (s.cycle + 8 + t.size / 2)) ∧ u.ctx? p = some y ∧ v ∈ y.saved ∧ v.record = r ∧
      v.core = c ∧ v.slot = sl ∧ v.thread.pc = t.pc ∧ v.thread.lk = t.lk ∧
      v.image = (List.range t.size).map (fun i => { s.regAt c (t.base + i) with flips := 0 }) ∧ MemKept s u)) ∧
  (∀ (s : State) (p n : Nat) (x : Ctx) (v : Saved), s.arg.n = p → s.arg.m = n → s.ctx? p = some x →
    x.saved.find? (fun w => w.record == n) = some v → s.mayRestore p x v = true → s.savedGood p v = true → v.slot < 64 →
    ∃ u t, exec .threadRestore s = .next u ∧ u.thread? v.core v.slot = some t ∧ t.pc = v.thread.pc ∧ t.lk = v.thread.lk ∧
      t.base = v.thread.base ∧ t.size = v.thread.size ∧ t.fflags = v.thread.fflags ∧
      t.state = (match v.thread.state with | .trapped i => .trapped i | _ => .ready) ∧ t.readyAt = s.cycle + 1 ∧
      (∀ i r, v.image[i]? = some r → v.thread.base + i < 2048 → s.liveWindow v.core (v.thread.base + i) = false →
        u.regAt v.core (v.thread.base + i) = { r with zf := zeroFlags r.val }) ∧
      (∀ y, u.ctx? p = some y → ∀ w ∈ y.saved, w.record ≠ n) ∧ MemKept s u)

/-- R302, R303, R369: a core that is due to be reclaimed is flagged as moving, its window's commands decided literal; one of which nothing is left in flight leaves
the context with its image kept and the threads saved with it, its register file as at reset; a free core is lent with its register file as at reset. R164: the
notice is raised once, and traps a READY thread of the core with EXPIRY_NOTICE, or an executing one once its instruction completes.
Read as log 60, 61, 98 and 102 say, the model's own readings. -/
def Obligations.CoresMoveAndNoticesCome : Prop :=
  (∀ (s : State) (p c : Nat) (x : Ctx), s.arg.n = c → (s.core c).part = some p → s.ctx? p = some x →
    ((s.core c).moving = false → s.reclaimDue c = true →
      ∃ u, exec .coreMove s = .next u ∧ u.core c = { (s.flushCore c).core c with moving := true } ∧ u = { s with cores := u.cores }) ∧
    ((s.core c).moving = true → s.coreActive c = false → s.unsaved c = false → s.coreQuiet c = true →
      s.scratchBad c = false → tabGet? s.doomed c = none →
      ∃ u y, exec .coreMove s = .next u ∧ (u.core c).part = none ∧ (u.core c).moving = false ∧ RegsAtReset u c ∧
        u.ctx? p = some y ∧ y.images.length = x.images.length + 1 ∧ u.threads = s.threads ∧
        (∀ v ∈ x.saved, v.core = c → ∃ w ∈ y.saved, w.record = v.record ∧ w.core = awayCore ∧ w.thread = v.thread ∧ w.image = v.image))) ∧
  (∀ (s : State) (p c : Nat) (x : Ctx), s.arg.n = c → s.arg.m = p → s.nextLoan = some (c, p) → s.ctx? p = some x → x.images = [] →
    ∃ u, exec .coreLend s = .next u ∧ (u.core c).part = some p ∧ (u.core c).moving = false ∧ (u.core c).steps = 0 ∧ RegsAtReset u c ∧
      u.dispatch = true ∧ u.threads = s.threads) ∧
  (∀ (s : State) (p c sl : Nat) (x : Ctx) (t : Thread), s.arg.n = p → s.ctx? p = some x → s.noticeDue x = true → s.coresOf p = [c] →
    s.noticeSlot c = some sl → s.thread? c sl = some t → t.coupled = false → (s.core c).part = some p →
    (∀ f, t.state = .inflight f → ∃ u, exec .expiryNotice s = .next u ∧ u.thread? c sl = some { t with after := some .notice } ∧
      (u.ctx? p).map Ctx.noticed = some true ∧ MemKept s u) ∧
    (t.state = .ready → s.hasHandler c sl p = true → ∃ u v i, exec .expiryNotice s = .next u ∧ u.thread? c sl = some v ∧ v.state = .trapped i ∧
      i.code = 0x10 ∧ i.pc = t.pc ∧ i.info = x.notAfter ∧ i.second = x.notice ∧ (u.ctx? p).map Ctx.noticed = some true ∧ MemKept s u))

namespace Sys2Proof.Slice0

/-- A record is written, to enter with its nanosecond. -/
def Writes (s u : State) (r : Outgoing) : Prop := u.outgoing = s.outgoing ++ [r]

/-- An armed injection whose trigger has come, at a core that is not fenced, where every partition that it strikes permits it. -/
structure Fires (s : State) (i : Injection) : Prop where
  own : s.arg.flag = false
  armed : s.host.injections[s.arg.n]? = some i
  due : s.injectionDue i = true
  live : (s.core i.core).fenced = false
  allowed : ∀ p ∈ s.struck i.desc, s.injectable p = true

end Sys2Proof.Slice0

/-- R3, R276, R277, R312, R313, R325 to R327, R396, R399, R401: a structure's CORRECTED record is written once for its second, and a record that is
written enters the device log with its sequence number and CRC; a deck that is fenced goes with all its cores as the cycle ends; an injection fires once, with its kind's effect, and only where the warrant permits it; an error that arises by itself loses what it is found in;
a write-back recomputes a line's elision state and changes no byte; the Sage's sample goes to the next slot; the counter page is brought up
to date; the sag sensor stretches the clock.
Read as log 18, 21, 65, 69 and 103 say, the model's own readings. -/
def Obligations.ObservationEventsHappen : Prop :=
  (∀ (s : State) (k : Nat) (b : Bool), s.arg.n = k → tabGet? s.correctedNow k = some b →
    ∃ u r, exec .corrected s = .next u ∧ Writes s u r ∧ r.logged = true ∧ r.outlet = .none ∧ fieldAt r.body 0 1 = 0x24 ∧ fieldAt r.body 2 1 = b.toNat ∧
      fieldAt r.body 4 2 = k % 1024 ∧ (k < 0x40000 → fieldAt r.body 3 1 = k / 1024) ∧
      u.correctedNow = tabErase s.correctedNow k ∧ tabGet? u.correctedAt k = some (s.time / 1000000000 + 1) ∧
      u = { s with correctedNow := u.correctedNow, correctedAt := u.correctedAt, outgoing := u.outgoing }) ∧
  (∀ (s : State) (r : Outgoing), r.logged = true → s.outgoing = [r] →
    ∃ v, tabGet? s.enterRecords.log (s.logSeq % 8192) = some v ∧ s.enterRecords.logSeq = (s.logSeq + 1) % 2 ^ 16 ∧ s.enterRecords.outgoing = [] ∧
      (∀ i, i < 0x1E → fieldAt v i 1 = fieldAt r.body i 1) ∧ fieldAt v 0x1E 2 = s.logSeq % 2 ^ 16 ∧
      fieldAt v 0x3C 4 = (crc32c (natBytes 60 (v.toNat % 2 ^ 480))).toNat) ∧
  (∀ (s : State) (d : Nat), s.arg.n = d → d < 8 → d ∉ s.fencedDecks → (∀ e ∈ s.doomed, e.1 < 1024) →
    ∃ u k, exec .deckFence s = .next u ∧ u = { s with doomed := u.doomed } ∧ tabGet? u.doomed (1024 + d) = some k ∧ k.cause = 0 ∧
      (∀ i, i < 128 → (s.core (d * 128 + i)).fenced = false → (tabGet? u.doomed (d * 128 + i)).isSome = true) ∧
      d ∈ u.killDoomed.fencedDecks ∧ ∀ i, i < 128 → (u.killDoomed.core (d * 128 + i)).fenced = true) ∧
  (∀ (s : State) (i : Injection), Fires s i →
    (∀ t reg, s.thread? i.core i.slot = some t → fieldAt i.desc 5 1 = reg → reg < t.size → t.base + reg < 2048 →
      (i.kind = 1 ∨ i.kind = 6) →
      ∃ u, exec .injectionFire s = .next u ∧ u.host.injections = s.host.injections.eraseIdx s.arg.n ∧
        u.regAt i.core (t.base + reg) = { s.regAt i.core (t.base + reg) with
          flips := min 2 ((s.regAt i.core (t.base + reg)).flips + if i.kind = 1 then 2 else 1) } ∧
        u = { s with regs := u.regs, host := u.host }) ∧
    (i.kind = 2 → fieldAt i.desc 0x10 8 < 0xE0000 →
      ∃ u, exec .injectionFire s = .next u ∧ (i.core * 2 ^ 20 + fieldAt i.desc 0x10 8) / 8 ∈ u.badWords ∧
        u = { s with badWords := u.badWords, host := u.host }) ∧
    (∀ t, i.kind = 3 → s.thread? i.core i.slot = some t →
      ∃ u, exec .injectionFire s = .next u ∧ u.thread? i.core i.slot = some { t with mismatch := true } ∧
        u = { s with threads := u.threads, ctxs := u.ctxs, host := u.host }) ∧
    (i.kind = 5 → hasFrame (fieldAt i.desc 0x10 8) = true →
      ∃ u r, exec .injectionFire s = .next u ∧ fieldAt i.desc 0x10 8 / 64 ∈ u.lost ∧ Writes s u r ∧ fieldAt r.body 0 1 = 0x22 ∧
        fieldAt r.body 2 1 = 1 ∧ fieldAt r.body 0x10 8 = fieldAt i.desc 0x10 8 / 64 * 64 ∧
        u = { s with lost := u.lost, outgoing := u.outgoing, host := u.host })) ∧
  (∀ (s : State) (i : Injection) (p : Nat), s.arg.flag = false → s.host.injections[s.arg.n]? = some i → s.injectionDue i = true →
    p ∈ s.struck i.desc → s.injectable p = false →
    exec .injectionFire s = .next { s with host := { s.host with injections := s.host.injections.eraseIdx s.arg.n } }) ∧
  (∀ (s : State) (n : Nat), s.arg.flag = true → s.arg.n = n →
    (s.arg.k = 6 → n ∈ s.dirty → ∃ u r, exec .injectionFire s = .next u ∧ n ∈ u.lost ∧ Writes s u r ∧ fieldAt r.body 0 1 = 0x22 ∧
      fieldAt r.body 2 1 = 0 ∧ u = { s with lost := u.lost, outgoing := u.outgoing }) ∧
    (∀ x, s.arg.k = 3 → s.ctx? n = some x → ∃ u y, exec .injectionFire s = .next u ∧ u.ctx? n = some y ∧ u = { s with ctxs := u.ctxs } ∧
      y.saved = x.saved.map fun v => if v.record = s.arg.m then { v with bad := true } else v) ∧
    (s.arg.k = 1 → s.arg.m = 0 ∨ s.arg.m = 1 ∨ s.arg.m = 5 → (s.core (n % 1024)).fenced = false → tabGet? s.doomed (n % 1024) = none →
      ∃ u k, exec .injectionFire s = .next u ∧ tabGet? u.doomed (n % 1024) = some k ∧ k.cause = 0x0E ∧ k.source = s.arg.m ∧
        u = { s with doomed := u.doomed }) ∧
    (∀ p x, s.arg.k = 10 → s.ctx? p = some x → x.keySlot = some n → x.ending = none →
      ∃ u, exec .injectionFire s = .next u ∧ (u.ctx? p).bind Ctx.ending = some 0x0103 ∧ MemKept s u)) ∧
  (∀ (s : State) (k : Nat), s.arg.n = k → k ∈ s.dirty → k ∉ s.lost → s.keptLine k = false →
    ∃ u g, exec .l2WriteBack s = .next u ∧ tabGet? u.lines k = some g ∧ k ∉ u.dirty ∧
      (g.elision = 0 ↔ ∀ i, i < 64 → s.homeByte (k * 64 + i) = 0) ∧ g.elision ≤ 2 ∧ u = { s with lines := u.lines, dirty := u.dirty }) ∧
  (∀ (s : State) (c p : Nat), s.arg.n = c → s.sampleDue c = true → (s.core c).part = some p →
    ∃ u r, exec .sagePeriodicSample s = .next u ∧ (u.core c).sageSlot = ((s.core c).sageSlot + 1) % 64 ∧ (u.core c).sageAt = s.cycle ∧
      u = { s with cores := u.cores, samples := s.samples ++ [(p, c, r)] } ∧ r.length = 32) ∧
  (∀ (s : State) (p : Nat) (x : Ctx), s.ctxs = [(p, x)] → s.countersDue x = true → x.counterPage + 4096 < scratchHome →
    ∃ u, exec .counterPageUpdate s = .next u ∧ (u.ctx? p).map (fun y => tabGet y.counts 13 0) = some s.time ∧
      u.homeBytes (x.counterPage + 8 * 13) 8 = natBytes 8 s.time ∧ u.homeBytes (x.counterPage + 8 * 2) 8 = natBytes 8 (tabGet x.counts 2 0) ∧
      u.regs = s.regs ∧ u.threads = s.threads ∧ u.cores = s.cores) ∧
  ∀ s : State, exec .supplySagTrip s = .next { s with sag := true } ∧ exec .supplySagClear s = .next { s with sag := false }

/-! ### Rypel Link and the clock (R281, R349 to R354, R394, R395) -/

namespace Sys2Proof.Slice0

/-- The port that an event concerns. -/
def portOf (s : State) : Port := tabGet s.ports s.arg.n Port.reset
/-- The event's flit arrives at an up port and is taken; it carries no reserved bit, and acknowledges nothing that waits. -/
structure FlitTaken (s : State) : Prop where
  up : (portOf s).state = 2
  accepted : (portOf s).accepts s.arg.flit = true
  ordinary : s.arg.flit.reserved = 0
  kind : 0 < s.arg.flit.kind.toNat ∧ s.arg.flit.kind.toNat ≤ 5
  acks : (portOf s).replay.all (fun f => f.seq != s.arg.flit.ack) = true

end Sys2Proof.Slice0

/-- R349 to R354: the next data flit in sequence delivers its message, and moves the sequence on; one already received delivers
nothing; one whose tag does not hold is counted, answered by a NAK and discarded. A NAK, or 2 microseconds without an advance, sends a flit
again with a fresh counter, and retrains the port at its third failure. An idle flit delivers nothing.
Read as log 17, 62 and 106 say, the model's own readings. -/
def Obligations.LinkDeliversAndRetries : Prop :=
  (∀ s : State, FlitTaken s → (portOf s).ahead = [] →
    (s.arg.flit.seq = (portOf s).rxSeq → s.arg.flit.seq < 4096 →
      ∃ u q, exec .dataFlitReceive s = .next u ∧ u = State.linkDelivers { s with ports := tabSet s.ports s.arg.n q } s.arg.msg ∧
        q.rxSeq = ((portOf s).rxSeq + 1) % 4096 ∧ q.state = 2 ∧ q.ahead = [] ∧ q.failures = (portOf s).failures) ∧
    ((portOf s).missing s.arg.flit.seq = false →
      ∃ u, exec .dataFlitReceive s = .next u ∧ (portOf u).rxSeq = (portOf s).rxSeq ∧ u = { s with ports := u.ports })) ∧
  (∀ s : State, (portOf s).state = 2 → (portOf s).accepts s.arg.flit = false →
    (∃ u, exec .dataFlitReceive s = .next u ∧ (portOf u).failures = min 0xFFFF ((portOf s).failures + 1) ∧
      (portOf u).naks.length = (portOf s).naks.length + 1 ∧ (portOf u).rxSeq = (portOf s).rxSeq ∧ u = { s with ports := u.ports }) ∧
    (∃ u, exec .idleFlitReceive s = .next u ∧ (portOf u).failures = min 0xFFFF ((portOf s).failures + 1) ∧ u = { s with ports := u.ports })) ∧
  (∀ s : State, FlitTaken s → ∃ u, exec .idleFlitReceive s = .next u ∧ (portOf u).rxSeq = (portOf s).rxSeq ∧ (portOf u).state = 2 ∧
    u = { s with ports := u.ports }) ∧
  (∀ (s : State) (f : Sent), FlitTaken s → (portOf s).replay.find? (fun g => g.seq == s.arg.flit.seq) = some f →
    (2 ≤ f.fails → ∃ u, exec .nakReceive s = .next u ∧ (portOf u).state = 1 ∧ (portOf u).retrains = min 255 ((portOf s).retrains + 1) ∧
      u = { s with ports := u.ports }) ∧
    (f.fails < 2 → (portOf s).switching = false → (portOf s).txCtr < ctrLast →
      ∃ u, exec .nakReceive s = .next u ∧ (portOf u).state = 2 ∧ (portOf u).txCtr = (portOf s).txCtr + 1 ∧
        (portOf u).replay.find? (fun g => g.seq == s.arg.flit.seq) = some { f with fails := f.fails + 1 } ∧ u = { s with ports := u.ports })) ∧
  (∀ (s : State) (f : Sent) (rest : List Sent), (portOf s).state = 2 → (portOf s).replay = f :: rest → (portOf s).ackAt + 8000 ≤ s.timeQ →
    (2 ≤ f.fails → ∃ u, exec .replayTimeout s = .next u ∧ (portOf u).state = 1 ∧ u = { s with ports := u.ports }) ∧
    (f.fails < 2 → (portOf s).switching = false → (portOf s).txCtr < ctrLast →
      ∃ u, exec .replayTimeout s = .next u ∧ (portOf u).state = 2 ∧ (portOf u).ackAt = s.timeQ ∧
        (portOf u).replay.head? = some { f with fails := f.fails + 1 } ∧ u = { s with ports := u.ports }))

/-- R352, R353, R394, R395, R403: a key is switched at its count, with the marker sent under the old one; the receiver closes the old slot at
the marker, or after 64 flits under the new key; a port that is trained comes up, and the third failed training in a row fences it. A time
flit goes out each millisecond. sr.time steps forward at the first lock and is only slewed afterwards. A peer's request for frames is
served from the grant of its peer context, and they return to it with the last leaf that names them (R281, R282, R284); the two directions
carry different salts (R350).
Read as log 17, 62 and 64 say, the model's own readings. -/
def Obligations.KeysTrainingAndTime : Prop :=
  (∀ s : State, s.arg.flag = false → (portOf s).switchDue = true → (portOf s).txCtr < ctrLast → (portOf s).saltFree (BitVec.ofNat 32 s.arg.m) = true →
    ∃ u, exec .keySwitchStart s = .next u ∧ (portOf u).txSlot = !(portOf s).txSlot ∧ (portOf u).txEpoch = (portOf s).txEpoch + 1 ∧
      (portOf u).txSalt = BitVec.ofNat 32 s.arg.m ∧ (portOf u).txCtr = 0 ∧ (portOf u).switching = false ∧ (portOf u).state = 2 ∧
      u = { s with ports := u.ports }) ∧
  (∀ s : State, s.arg.flag = true → (portOf s).state = 2 → (portOf s).rxNew = none → (portOf s).switching = false →
    BitVec.ofNat 32 s.arg.m ≠ (portOf s).txSalt →
    ∃ u fresh, exec .keySwitchStart s = .next u ∧ fresh = !(portOf s).rxOpen.2 ∧ (portOf u).rxNew = some (fresh, 0) ∧ (portOf u).rxOpen = (true, true) ∧
      (if fresh then (portOf u).rxSalt.2 else (portOf u).rxSalt.1) = BitVec.ofNat 32 s.arg.m ∧ (portOf u).txCtr = (portOf s).txCtr ∧
      u = { s with ports := u.ports }) ∧
  (∀ (s : State) (fresh : Bool) (n : Nat), FlitTaken s → (portOf s).rxNew = some (fresh, n) → s.arg.flit.ks ≠ fresh →
    ∃ u, exec .keySwitchMarkerReceive s = .next u ∧ (portOf u).rxOpen = (!fresh, fresh) ∧ (portOf u).rxNew = none ∧ u = { s with ports := u.ports }) ∧
  (∀ (s : State) (fresh : Bool) (n : Nat), (portOf s).rxNew = some (fresh, n) → 64 ≤ n →
    ∃ u, exec .oldKeySlotClose s = .next u ∧ (portOf u).rxOpen = (!fresh, fresh) ∧ (portOf u).rxNew = none ∧ u = { s with ports := u.ports }) ∧
  (∀ s : State, (portOf s).state = 1 →
    (s.arg.flag = true → (portOf s).outbox = [] → BitVec.ofNat 32 s.arg.flit.seq ≠ BitVec.ofNat 32 (byteNat s.arg.bytes 4 4) →
      ∃ u, exec .portTrainingEnd s = .next u ∧ (portOf u).state = 2 ∧
      (portOf u).peer = s.arg.m % 256 ∧ (portOf u).badTrainings = 0 ∧ (portOf u).txCtr = (portOf s).replay.length ∧
      (portOf u).txSalt = BitVec.ofNat 32 s.arg.flit.seq ∧ (portOf u).rxSalt.1 = BitVec.ofNat 32 (byteNat s.arg.bytes 4 4) ∧
      (portOf u).rxOpen = (true, false) ∧ u = { s with ports := u.ports }) ∧
    (s.arg.flag = false → (portOf s).badTrainings < 2 →
      ∃ u, exec .portTrainingEnd s = .next u ∧ portOf u = { portOf s with badTrainings := (portOf s).badTrainings + 1 } ∧ u = { s with ports := u.ports }) ∧
    (s.arg.flag = false → 2 ≤ (portOf s).badTrainings → (portOf s).replay = [] → (portOf s).outbox = [] →
      ∃ u, exec .portTrainingEnd s = .next u ∧ (portOf u).state = 3 ∧ u = { s with ports := u.ports })) ∧
  (∀ s : State, (portOf s).timeDue s.timeQ = true → (portOf s).switching = false → (portOf s).txCtr < ctrLast →
    ∃ u, exec .timeFlitSend s = .next u ∧ (portOf u).timeAt = s.timeQ ∧ (portOf u).txCtr = (portOf s).txCtr + 1 ∧ u = { s with ports := u.ports }) ∧
  (∀ s : State,
    (s.locked = false → exec .ptpMessageReceive s = .next { s with timeQ := max s.timeQ s.arg.n, locked := true }) ∧
    (s.locked = true → exec .ptpMessageReceive s = .next { s with slew := (s.arg.n : Int) - s.timeQ })) ∧
  (∀ s : State, FlitTaken s →
    (s.locked = false → ∃ u, exec .timeFlitReceive s = .next u ∧ u.timeQ = max s.timeQ s.arg.m ∧ u.locked = true ∧
      u = { s with ports := u.ports, timeQ := u.timeQ, locked := u.locked }) ∧
    (s.locked = true → ∃ u, exec .timeFlitReceive s = .next u ∧ u.timeQ = s.timeQ ∧ u.slew = (s.arg.m : Int) - s.timeQ ∧
      u = { s with ports := u.ports, slew := u.slew })) ∧
  (∀ (s : State) (dev size attr p a : Nat) (serial : BitVec 128) (x : Ctx), s.arg.msg = .map dev serial size 1 attr → s.peerCtx serial = some (p, x) →
    s.ctx? p = some x → size ≤ 9 → attr ≤ 2 → x.modeRefused attr = false → x.used + charge attr (pageBytes size) ≤ x.memory →
    s.freeFrame (pageBytes size) = some a →
    ∃ u g, exec .remoteMappingRequest s = .next u ∧ tabGet? u.pages a = some g ∧ g.owner = p ∧ g.peer = some dev ∧ g.attr = attr ∧
      g.size = pageBytes size ∧ (u.ctx? p).map Ctx.used = some (x.used + charge attr (pageBytes size))) ∧
  (∀ (s : State) (dev base length p a : Nat) (serial : BitVec 128) (x : Ctx) (g : Page), s.peerCtx serial = some (p, x) → s.ctx? p = some x →
    s.givenTo p dev base length = [(a, g)] → tabGet? s.pages a = some g →
    (s.arg.msg = .invalidate dev serial base length true → g.count ≤ 1 →
      ∃ u, exec .remoteMappingRequest s = .next u ∧ u.pages = tabErase s.pages a ∧ (u.ctx? p).map Ctx.used = some (x.used - charge g.attr g.size)) ∧
    (s.arg.msg = .invalidate dev serial base length true → 1 < g.count →
      exec .remoteMappingRequest s = .next { s with pages := tabSet s.pages a { g with count := g.count - 1 } }) ∧
    (s.arg.msg = .invalidate dev serial base length false → exec .remoteMappingRequest s = .next s) ∧
    (s.arg.msg = .addLeaf dev serial base length →
      exec .remoteMappingRequest s = .next { s with pages := tabSet s.pages a { g with count := g.count + 1 } }))

/-! ### The Keystone in time, the host, resets (R361 to R365, R372, R374, R378, R381, R387 to R393, R401 to R403) -/

/-- R362, R364, R365, R374, R378: the arbiter grants a serial once, and a group's once per device; a pending claim ends with its answer, or
with ARBITER_UNREACHABLE after 1 ms; an accepted beacon sets trusted time and the trust state; 60 s without one end the trust; the
high-water mark never falls; a context ends at its not-after time; an unredeemed token lapses; a held region goes.
Read as log 12, 17 and 110 say, the model's own readings. -/
def Obligations.KeystoneTimeGoesOn : Prop :=
  (∀ (s : State) (dev : Nat) (serial : BitVec 128), s.arg.m % 256 = dev → BitVec.ofNat 128 s.arg.n = serial →
    let reply (u : State) (status : Nat) : State := u.sendLink dev (.verdict Config.deviceId.toNat serial (byteNat s.arg.bytes 0 8) status)
    let mine (e : Spent) : Prop := e.serial = serial ∧ e.index = none
    (s.keystone.trusted = false → exec .arbiterClaim s = .next (reply s 0x0008)) ∧
    (s.keystone.trusted = true → (∀ e ∈ s.keystone.spent, ¬mine e) → s.keystone.spent.length < 32704 →
      exec .arbiterClaim s = .next (reply { s with keystone := { s.keystone with spent := s.keystone.spent ++
        [{ serial := serial, index := none, expiry := s.arg.k + 2000000000, devices := 1#256 <<< dev }] } } 0)) ∧
    (s.keystone.trusted = true → (∀ e ∈ s.keystone.spent, ¬mine e) → 32704 ≤ s.keystone.spent.length → exec .arbiterClaim s = .next (reply s 0x000E)) ∧
    (s.keystone.trusted = true → s.arg.flag = false → (∃ e ∈ s.keystone.spent, mine e) → exec .arbiterClaim s = .next (reply s 0x0007)) ∧
    (s.keystone.trusted = true → s.arg.flag = true → ∀ before e after, s.keystone.spent = before ++ e :: after → mine e → (∀ x ∈ before, ¬mine x) →
      (e.devices.getLsbD dev = true → exec .arbiterClaim s = .next (reply s 0x0007)) ∧
      (e.devices.getLsbD dev = false → (∀ x ∈ after, ¬mine x) →
        exec .arbiterClaim s = .next (reply { s with keystone := { s.keystone with
          spent := before ++ { e with devices := e.devices ||| 1#256 <<< dev } :: after } } 0)))) ∧
  (∀ (s : State) (q : Pending), s.keystone.pending = some q → q.granted = false → q.thread = none → s.keystone.waiting = [] →
    (s.arg.n ≠ 0 → ∃ u, exec .arbiterReply s = .next u ∧ u.keystone = { s.keystone with pending := none } ∧
      u.host.status = BitVec.ofNat 16 s.arg.n ∧ u.host.busy = false ∧ u = { s with keystone := u.keystone, host := u.host }) ∧
    (∀ w secs, s.arg.n = 0 → q.warrant = some w → readImage q.image (byteNat q.bytes 528 8) = some secs → s.freeCores.length < w.minCores →
      exec .arbiterReply s = .next { s with keystone := { s.keystone with pending := some { q with granted := true } } }) ∧
    (q.limit ≤ s.timeQ → ∃ u, exec .arbiterReplyTimeout s = .next u ∧ u.keystone = { s.keystone with pending := none } ∧
      u.host.status = 0x0008 ∧ u.host.busy = false ∧ u = { s with keystone := u.keystone, host := u.host })) ∧
  (∀ s : State, ∃ u, exec .spentEntryExpiry s = .next u ∧ u = { s with keystone := u.keystone } ∧
    u.keystone.spent = s.keystone.spent.filter fun e =>
      !(e.serial == BitVec.ofNat 128 s.arg.n && s.keystone.trusted && decide (e.expiry < max s.time s.keystone.high))) ∧
  (∀ s : State, (s.arg.bytes.length < 256 ∨ byteNat s.arg.bytes 0 4 ≠ 0x5442434E → exec .timeBeaconEthernet s = .next s) ∧
    ((s.beacon s.arg.bytes).1 = 0 → ∃ u, exec .timeBeaconEthernet s = .next u ∧ u.keystone.beacon = byteNat s.arg.bytes 8 8 ∧
      u.keystone.beaconAt = s.time ∧ u.keystone.high = max s.time s.keystone.high ∧ s.keystone.beacon < u.keystone.beacon ∧
      (u.keystone.trusted = true ↔ byteNat s.arg.bytes 0x10 8 ≤ s.time + 1000000000 ∧ s.time ≤ byteNat s.arg.bytes 0x10 8 + 1000000000))) ∧
  (∀ s : State, s.keystone.trusted = true → s.keystone.beaconAt + 60000000000 ≤ s.time →
    ∃ u, exec .beaconTimeout s = .next u ∧ u.keystone = { s.keystone with trusted := false } ∧
      u = { s with keystone := u.keystone, outgoing := u.outgoing, host := u.host } ∧ u.outgoing.length = s.outgoing.length + s.ctxs.length) ∧
  (∀ s : State, s.keystone.highAt + 4000000000 ≤ s.timeQ →
    exec .highWaterUpdate s = .next { s with keystone := { s.keystone with high := max s.time s.keystone.high, highAt := s.timeQ } }) ∧
  (∀ (s : State) (p : Nat) (x : Ctx), s.arg.n = p → s.ctx? p = some x → x.ending = none → s.reached x.notAfter.toNat = true →
    ∃ u, exec .contextExpiry s = .next u ∧ (u.ctx? p).bind Ctx.ending = some 0x0101 ∧ u.regs = s.regs ∧ MemKept s u) ∧
  (∀ (s : State) (n : Nat) (t : Token) (h : Handle), s.arg.n = n → s.keystone.tokens[n]? = some t → s.reached t.notAfter.toNat = true →
    tabGet? s.keystone.handles t.handle = some h →
    ∃ u, exec .tokenLapsed s = .next u ∧ u.keystone.tokens = s.keystone.tokens.eraseIdx n ∧
      (tabGet? u.keystone.handles t.handle).map (fun g => (g.state, g.code)) = some (3, 0) ∧
      u = { s with keystone := u.keystone, outgoing := u.outgoing, host := u.host }) ∧
  (∀ (s : State) (p : Nat) (h : Held), s.arg.n = p → tabGet? s.keystone.held p = some h →
    (h.until_ ≤ max s.time s.keystone.high → ∃ u, exec .handoverHoldExpiry s = .next u ∧ tabGet? u.keystone.held p = none ∧ u = { s with keystone := u.keystone }) ∧
    (∃ u, exec .handoverRelease s = .next u ∧ tabGet? u.keystone.held p = none ∧ u = { s with keystone := u.keystone }))

namespace Sys2Proof.Slice0

/-- The bytes in the admission window. -/
def windowOf (s : State) (n : Nat) : List Byte := windowBytes s.host.window 0 n
/-- The Keystone's answer stands in the admission window: its tag, its status, no handle, and the window is free (R389). -/
def Answered (s u : State) (status : Nat) : Prop :=
  u.host.busy = false ∧ u.host.tag = BitVec.ofNat 16 s.arg.n ∧ u.host.status = BitVec.ofNat 16 status ∧ u.host.handle = 0
/-- A write to a partition's page, or to its window, is dropped and counted. -/
def pageDrop (s : State) (p : Nat) : State :=
  { s with host := { s.host with pageDrops := tabSet s.host.pageDrops p (tabGet s.host.pageDrops p 0 + 1) } }
def windowDrop (s : State) (p : Nat) : State :=
  { s with host := { s.host with windowDrops := tabSet s.host.windowDrops p (tabGet s.host.windowDrops p 0 + 1) } }
/-- The admission window and the Keystone are free. -/
def KeystoneFree (s : State) : Prop := s.host.busy = false ∧ s.keystone.pending = none ∧ s.keystone.waiting = []

/-- Steps 7 and 9 to 11 of R361, for what the host presents in the window's bytes b: the device, a partition, a key slot where one is asked for,
and the image in the host's memory; and the cores that the context needs are free (R369). -/
structure Admissible (s : State) (w : Warrant) (b : List Byte) (secs : List Section) : Prop where
  block : w.blockOk (b.drop 512) = true
  device : w.devices.getLsbD Config.deviceId.toNat = true
  part : s.freePart.isSome = true
  key : w.keys = 1 → s.freeKey.isSome = true
  inHost : 2 ^ 51 ≤ byteNat b 512 8 ∧ byteNat b 512 8 + byteNat b 520 8 ≤ 2 ^ 52
  read : s.anyLost ((List.range (byteNat b 520 8)).map fun i => byteNat b 512 8 + i) = false
  image : readImage (s.homeBytes (byteNat b 512 8) (byteNat b 520 8)) (byteNat b 528 8) = some secs
  digest : sha512 (s.homeBytes (byteNat b 512 8) (byteNat b 520 8)) = w.digest
  entry : byteNat b 528 8 ≤ recEntry (bytesVec (bytePart b 576 64)) ∧
    recEntry (bytesVec (bytePart b 576 64)) < byteNat b 528 8 + (codeOf secs).text
  below : ∀ k ∈ secs, k.va + k.bytes.length ≤ 0xFFEFFFF00000
  cores : w.minCores ≤ s.freeCores.length

/-- Steps 1 to 8 and 12 of R361 for a warrant that this device arbitrates. -/
structure GoodWarrant (s : State) (w : Warrant) (b : List Byte) (secs : List Section) : Prop extends Admissible s w b secs where
  fields : readWarrant b = some w
  operator : Config.provisioned (byteNat b 0x18 1) = true
  signature : operatorVerifies (byteNat b 0x18 1) (b.take 0x17C) (bytePart b 0x17C 132) = true
  trusted : s.keystone.trusted = true
  began : byteNat b 0x40 8 ≤ s.trustedTime
  goes : s.trustedTime < w.notAfter
  pod : byteNat b 0x1E 2 = Config.podId.toNat
  capacity : s.capacityOk w = true
  arbiter : byteNat b 0x1C 1 = Config.deviceId.toNat
  unspent : ∀ e ∈ s.keystone.spent, ¬(e.serial = w.serial ∧ e.index = none)
  room : s.keystone.spent.length < 32704

/-- The same for a token of this device that has not been redeemed, and whose reservation t stands (R372, R374). -/
structure GoodToken (s : State) (w : Warrant) (t : Token) (b : List Byte) (secs : List Section) : Prop extends Admissible s w b secs where
  issued : s.tokenOf b = some t
  fields : readToken t.prio t.flags b = some w
  device_ : byteNat b 0x1C 1 = Config.deviceId.toNat
  signature : deviceVerifies (b.take 0x17C) (bytePart b 0x17C 132) = true
  trusted : s.keystone.trusted = true
  goes : s.trustedTime < w.notAfter
  unspent : ∀ e ∈ s.keystone.spent, ¬(e.serial = w.serial ∧ e.index = w.index)
  room : s.keystone.spent.length < 32704

/-- A context has been admitted: the window tells its handle, its serial is spent, and it stands in the lowest free partition with its first
launch in queue 0, its ceiling at 1 and its measurement the code digest; the other contexts are as before (R361, R362, R389). -/
structure Admitted (s u : State) (w : Warrant) : Prop where
  answer : u.host.busy = false ∧ u.host.tag = BitVec.ofNat 16 s.arg.n ∧ u.host.status = 0
  spent : u.keystone.spent = s.keystone.spent ++
    [{ serial := w.serial, index := w.index, expiry := w.notAfter + 2000000000, devices := 1#256 <<< Config.deviceId.toNat }]
  context : ∃ p x id l, s.freePart = some p ∧ u.ctx? p = some x ∧ u.host.handle = BitVec.ofNat 16 x.handle ∧ x.serial = w.serial ∧ x.cls = w.cls ∧
    x.ceiling = 1 ∧ x.measure = bytesVec w.digest ∧ tabGet x.queues 0 [] = [id] ∧ tabGet? x.launches id = some l ∧
    ∀ q, q ≠ p → u.ctx? q = s.ctx? q

end Sys2Proof.Slice0

/-- R388, R389, R372: a doorbell of a free admission window presents its bytes: a record of the wrong form is answered MALFORMED (0x0001), a
warrant that this device arbitrates, or a token of this device, that passes every check is admitted (R361, R362), and
a verified revocation ends every context of its serial; a write to a busy window is dropped and counted. R390: the host's launch records are
checked and queued, or discarded and logged. R391: reads and writes of a partition window. R388, R393, R401: what each window of BAR0 does with a
write.
Read as log 12, 81 and 110 say, the model's own readings. -/
def Obligations.HostPortActs : Prop :=
  (∀ s : State, s.host.busy = true → ∀ i ∈ [Instr.admissionDoorbellWarrant, .admissionDoorbellToken, .admissionDoorbellRevocation, .admissionDoorbellBeacon],
    exec i s = .next { s with host := { s.host with drops := s.host.drops + 1 } }) ∧
  (∀ s : State, s.host.busy = false → s.keystone.pending = none → s.keystone.waiting = [] →
    (readWarrant (windowOf s 640) = none →
      ∃ u, exec .admissionDoorbellWarrant s = .next u ∧ Answered s u 0x0001 ∧ u = { s with host := u.host, keystone := u.keystone }) ∧
    ((∀ prio f, readToken prio f (windowOf s 640) = none) →
      ∃ u, exec .admissionDoorbellToken s = .next u ∧ Answered s u 0x0001 ∧ u = { s with host := u.host, keystone := u.keystone }) ∧
    (byteNat (windowOf s 256) 0 4 ≠ 0x52564B45 →
      ∃ u, exec .admissionDoorbellRevocation s = .next u ∧ Answered s u 0x0001 ∧ u = { s with host := u.host, keystone := u.keystone }) ∧
    (∀ (p : Nat) (x : Ctx), (s.revoke (windowOf s 256)).1 = 0 → s.ctx? p = some x → x.ending = none →
      x.serial = BitVec.ofNat 128 (byteNat (windowOf s 256) 8 16) →
      ∃ u, exec .admissionDoorbellRevocation s = .next u ∧ Answered s u 0 ∧ (u.ctx? p).bind Ctx.ending = some 0x0102 ∧ MemKept s u)) ∧
  (∀ (s : State) (w : Warrant) (secs : List Section), KeystoneFree s →
    (GoodWarrant s w (windowOf s 640) secs → ∃ u, exec .admissionDoorbellWarrant s = .next u ∧ Admitted s u w) ∧
    (∀ t, GoodToken s w t (windowOf s 640) secs → ∃ u, exec .admissionDoorbellToken s = .next u ∧ Admitted s u w ∧
      u.keystone.tokens = s.keystone.tokens.filter fun x => !(x.serial == t.serial && x.index == t.index))) ∧
  (∀ s : State, s.host.busy = false →
    ∃ u, exec .admissionDoorbellBeacon s = .next u ∧ Answered s u (s.beacon (windowOf s 256)).1 ∧ u.regs = s.regs ∧ u.threads = s.threads ∧ MemKept s u) ∧
  (∀ (s : State) (p q : Nat) (x : Ctx), s.arg.n = p → s.arg.m = q → q < 8 → s.ctx? p = some x → x.ending = none →
    (x.flags.getLsbD 0 = true → s.arg.bytes.length = 64 → sealed (bytesVec s.arg.bytes) = true → fieldAt (bytesVec s.arg.bytes) 3 1 = q →
      s.checkRecord p x (bytesVec s.arg.bytes) = 0 → s.launchRoom p q = true → recQueue (bytesVec s.arg.bytes) = q →
      ∃ u y id l, exec .hostLaunchRecord s = .next u ∧ u.ctx? p = some y ∧ tabGet y.queues q [] = tabGet x.queues q [] ++ [id] ∧
        tabGet? y.launches id = some l ∧ l.host = true ∧ l.counter = recCores (bytesVec s.arg.bytes) * recThreads (bytesVec s.arg.bytes) ∧
        u = { s with ctxs := u.ctxs, dispatch := true }) ∧
    (x.flags.getLsbD 0 = true → sealed (bytesVec s.arg.bytes) = false →
      ∃ u r, exec .hostLaunchRecord s = .next u ∧ Writes s u r ∧ r.logged = true ∧ fieldAt r.body 0 1 = 0x23 ∧ fieldAt r.body 3 1 = 10 ∧
        fieldAt r.body 6 1 = p % 256 ∧ u = { s with outgoing := u.outgoing }) ∧
    (x.flags.getLsbD 0 = false → exec .hostLaunchRecord s = .next (pageDrop s p))) ∧
  (∀ (s : State) (p : Nat), s.arg.n = p → s.arg.m < 8 →
    (s.ctx? p = none → exec .hostLaunchRecord s = .next (pageDrop s p)) ∧
    (∀ x, s.ctx? p = some x → x.flags.getLsbD 0 = true → x.ending.isSome = true →
      ∃ u r, exec .hostLaunchRecord s = .next u ∧ Writes s u r ∧ r.logged = true ∧ fieldAt r.body 0 1 = 0x23 ∧ fieldAt r.body 3 1 = 10 ∧
        fieldAt r.body 6 1 = p % 256 ∧ u = { s with outgoing := u.outgoing })) ∧
  (∀ s : State, ∃ u, exec .hostPartitionRead s = .next u ∧ u = { s with host := { s.host with answers := u.host.answers } } ∧
    ∀ x homes, tabGet? s.keystone.held s.arg.n = none → s.ctx? s.arg.n = some x → s.arg.m + s.arg.k ≤ 2 ^ 40 →
      s.checkRange 0 s.arg.n s.arg.m s.arg.k 0 = none → s.virtHomes 0 s.arg.n s.arg.m s.arg.k = homes → s.homeLost homes = none →
      (x.flags.getLsbD 0 = true → u.host.answers = some (homes.map s.homeByte) :: s.host.answers) ∧
      (x.flags.getLsbD 0 = false → u.host.answers = none :: s.host.answers)) ∧
  (∀ s : State, s.ctx? s.arg.n = none → exec .hostPartitionWrite s = .next (windowDrop s s.arg.n)) ∧
  (∀ (s : State) (x : Ctx), s.ctx? s.arg.n = some x →
    (x.flags.getLsbD 0 = false → exec .hostPartitionWrite s = .next (windowDrop s s.arg.n)) ∧
    (x.flags.getLsbD 0 = true → s.arg.m + s.arg.bytes.length ≤ 2 ^ 40 → s.checkRange 0 s.arg.n s.arg.m s.arg.bytes.length 1 = none →
      ∃ u, exec .hostPartitionWrite s = .next u ∧
        (∀ a, a ∉ s.virtHomes 0 s.arg.n s.arg.m s.arg.bytes.length → u.homeByte a = s.homeByte a) ∧
        ((s.virtHomes 0 s.arg.n s.arg.m s.arg.bytes.length).Nodup →
          (∀ a ∈ s.virtHomes 0 s.arg.n s.arg.m s.arg.bytes.length, scratchHome ≤ a → (s.core ((a - scratchHome) / 2 ^ 20)).fenced = false) →
          s.arg.bytes = (s.virtHomes 0 s.arg.n s.arg.m s.arg.bytes.length).map u.homeByte) ∧
        u = { s with mem := u.mem, scratch := u.scratch, lost := u.lost, badWords := u.badWords, dirty := u.dirty })) ∧
  (∀ s : State, s.arg.n < 0x800 → s.arg.n + s.arg.bytes.length ≤ 0x800 → s.host.busy = false →
    ∃ u, exec .registerWrite s = .next u ∧ (∀ i, i < s.arg.bytes.length → tabGet u.host.window (s.arg.n + i) 0 = s.arg.bytes.getD i 0) ∧
      (∀ i, (i < s.arg.n ∨ s.arg.n + s.arg.bytes.length ≤ i) → tabGet u.host.window i 0 = tabGet s.host.window i 0) ∧
      u = { s with host := { s.host with window := u.host.window } }) ∧
  ∀ s : State,
    let o := s.arg.n
    let n := s.arg.bytes.length
    let p := (o - 0x10000) / 0x1000
    (o < 0x1000 → s.host.busy = true → exec .registerWrite s = .next { s with host := { s.host with drops := s.host.drops + 1 } }) ∧
    (o < 0x1000 → s.host.busy = false → 0x800 < o + n → exec .registerWrite s = .next s) ∧
    (0x10000 ≤ o → o < 0x30000 → tabGet? s.keystone.held p = none → (∀ x, s.ctx? p = some x → x.flags.getLsbD 0 = false) →
      exec .registerWrite s = .next (pageDrop s p)) ∧
    (0x10000 ≤ o → o < 0x30000 → o % 0x1000 = 0x200 → (tabGet? s.keystone.held p).isSome = true → byteNat s.arg.bytes 0 1 % 2 = 1 →
      ∃ u, exec .registerWrite s = .next u ∧ tabGet? u.keystone.held p = none ∧ u = { s with keystone := u.keystone }) ∧
    (0x40000 ≤ o → o + n ≤ 0x40000 + 258 * 16 →
      ∃ u, exec .registerWrite s = .next u ∧ (∀ i, i < n → tabGet u.host.msix (o - 0x40000 + i) 0 = s.arg.bytes.getD i 0) ∧
        (∀ i, (i + 0x40000 < o ∨ o + n ≤ i + 0x40000) → tabGet u.host.msix i 0 = tabGet s.host.msix i 0) ∧
        (∀ v, v ∈ u.host.pendingVectors ↔ v ∈ s.host.pendingVectors ∧ (tabGet u.host.msix (16 * v + 12) 0).getLsbD 0 = true) ∧
        u = { s with host := { s.host with msix := u.host.msix, pendingVectors := u.host.pendingVectors, sentVectors := u.host.sentVectors } }) ∧
    (0x1000000 ≤ o → o + n ≤ 0x1100000 →
      let at_ := o - 0x1000000
      ∃ u, exec .registerWrite s = .next u ∧
        (∀ i, i < n → let a := at_ + i
          tabGet u.host.staged a 0 = if (0xE0100 ≤ a ∧ a < 0xE0110) ∨ (0xE1000 ≤ a ∧ a < 0xE1008) ∨ (0xF0000 ≤ a ∧ a < 0xF0010) then
            tabGet s.host.staged a 0 else s.arg.bytes.getD i 0) ∧
        (∀ i, (i < at_ ∨ at_ + n ≤ i) → tabGet u.host.staged i 0 = tabGet s.host.staged i 0) ∧
        u = { s with host := { s.host with staged := u.host.staged } }) ∧
    (0x1000 ≤ o → (o < 0x10000 ∨ 0x30000 ≤ o) → (o < 0x40000 ∨ 0x42000 ≤ o) → (o < 0x1000000 ∨ 0x1100000 ≤ o) → exec .registerWrite s = .next s)

/-- R381, R387, R401, R402: a hot patch that is not valid, of another base version, or that meets a saved layout it neither accepts nor converts, is
reported and changes nothing; one of whose functions is serving waits; a valid one replaces its functions, and its converter gives saved records its
layout; one retried for 100 ms is given up. An apply record is judged: its status is stored and the nonce goes on, and nothing else changes unless
it is accepted. A lane failure trains the port down.
Read as log 66, 67, 69 and 104 say, the model's own readings. -/
def Obligations.PatchApplyAndLanes : Prop :=
  (∀ s : State, (Config.patchValid s.host.patch = false →
      exec .hotPatchDoorbell s = .next { s with host := { s.host with patchStatus := 1, patchLimit := none } }) ∧
    (Config.patchValid s.host.patch = true → Config.patchBase s.host.patch ≠ s.host.firmware →
      exec .hotPatchDoorbell s = .next { s with host := { s.host with patchStatus := 2, patchLimit := none } }) ∧
    (Config.patchValid s.host.patch = true → Config.patchBase s.host.patch = s.host.firmware →
      let idle : Prop := ∀ n ∈ s.arg.bytes, (Config.patchMask s.host.patch).getLsbD n.toNat = false
      let active (u : State) : Prop := u.host.patchStatus = 0 ∧ u.host.patchLimit = none ∧
        u.host.firmware = (Config.patchVersion s.host.patch).toNat
      ((∃ n ∈ s.arg.bytes, (Config.patchMask s.host.patch).getLsbD n.toNat = true) →
        exec .hotPatchDoorbell s = .next { s with host := { s.host with patchLimit := some (s.host.patchLimit.getD (s.timeQ + 400000000)) } }) ∧
      (idle → Config.patchConverts s.host.patch = false → s.layoutBlocked s.host.patch = true →
        exec .hotPatchDoorbell s = .next { s with host := { s.host with patchStatus := 4, patchLimit := none } }) ∧
      (idle → Config.patchConverts s.host.patch = false → s.layoutBlocked s.host.patch = false →
        ∃ u, exec .hotPatchDoorbell s = .next u ∧ active u ∧ u = { s with host := u.host }) ∧
      (idle → Config.patchConverts s.host.patch = true →
        ∃ u, exec .hotPatchDoorbell s = .next u ∧ active u ∧ u = { s with host := u.host, ctxs := u.ctxs } ∧
          ∀ p x, s.ctx? p = some x → u.ctx? p = some { x with saved := x.saved.map fun v => { v with layout := Config.patchLayout s.host.patch } }))) ∧
  (∀ (s : State) (t : Nat), s.host.patchLimit = some t → t ≤ s.timeQ →
    exec .patchBusy s = .next { s with host := { s.host with patchStatus := 3, patchLimit := none } }) ∧
  (∀ s : State, ∃ u, exec .applyDoorbell s = .next u ∧ u.host.applyStatus = s.applyCheck ∧ u.host.nonce = (s.host.nonce + 1) % 2 ^ 64 ∧
    (s.applyCheck ≠ 0 → u = { s with host := { s.host with applyStatus := s.applyCheck, nonce := (s.host.nonce + 1) % 2 ^ 64 } }) ∧
    (s.applyCheck = 0 → u.host.period = bytesNat (windowBytes s.host.staged 0 8) ∧ u.host.power = bytesNat (windowBytes s.host.staged 8 8) ∧
      u.host.injections.length = s.host.injections.length + s.host.marked.length ∧ u = { s with host := u.host })) ∧
  ∀ s : State, s.host.lanes ∈ [16, 8, 4] → ∃ u, exec .hostLaneFailure s = .next u ∧ u.host.lanes ∈ [16, 8, 4] ∧ u.host.lanes ≤ s.host.lanes ∧
    (s.arg.n < 16 → u.host.lanes ≤ 8) ∧ (s.arg.n < 8 → u.host.lanes = 4) ∧ u = { s with host := { s.host with lanes := u.host.lanes } }

/-! ### Reset, the checks of an issue, traps and their return, encodings, the step (R28 to R37, R48 to R57, R139, R160 to R166, R403) -/

namespace Sys2Proof.Slice0

/-- A register at device reset (R37). -/
def RegAtReset (r : Reg) : Prop := r.val = 0 ∧ r.full = true ∧ r.zf = 0xFFFF ∧ r.poison = false

/-- What a reset leaves of a machine (R365, R403): no thread, no context, no work in flight, no time passed; the Keystone's
high-water mark and spent store stand in the MRAM. -/
structure Restarted (s u : State) : Prop where
  idle : u.threads = [] ∧ u.cores = [] ∧ u.ctxs = [] ∧ u.active = [] ∧ u.pend = [] ∧ u.arrivals = [] ∧ u.ptes = []
  clock : u.cycle = 0 ∧ u.timeQ = 0 ∧ u.locked = false
  trust : u.keystone.trusted = false
  mram : u.keystone.high = s.keystone.high ∧ u.keystone.spent = s.keystone.spent
  host : ∀ a, 2 ^ 51 ≤ a → a < scratchHome → tabGet? u.mem a = tabGet? s.mem a
  device : ∀ a, a < 2 ^ 51 → tabGet? u.mem a = none
  scratch : u.scratch = [] ∧ u.epochs = []

/-- The first of the register fields that lies outside a window, coded as R162 says. -/
def firstOutside (size : Nat) (fields : List (Nat × BitVec 7)) : Option Nat :=
  (fields.find? fun f => decide (size ≤ f.2.toNat)).map fun f => f.2.toNat + 256 * f.1

/-- A trap of a thread in no gang that owes no post: it stands TRAPPED at its saved PC, with its link, loops, flags and window as before and its
record on the way; no register and no byte of memory has changed (R160). -/
structure Trapped (s u : State) (c sl : Nat) (t : Thread) (x : TrapInfo) : Prop where
  thread : ∃ v, u.thread? c sl = some v ∧ v.state = .trapped x ∧ v.pc = x.pc ∧ v.lk = t.lk ∧ v.lp0 = t.lp0 ∧ v.lp1 = t.lp1 ∧
    v.fflags = t.fflags ∧ v.base = t.base ∧ v.size = t.size ∧ v.buffer = [] ∧ v.kept = x.flags.getLsbD 3
  record : ∃ r, u.traps = s.traps ++ [r] ∧ r.core = c ∧ r.slot = sl ∧ r.uid = t.uid ∧ r.cycle = s.cycle ∧
    r.body = trapRecord s c sl (((s.core c).part).getD 0) t x none
  regs : ∀ c' n, u.regAt c' n = s.regAt c' n
  mem : MemKept s u
  others : ∀ c' sl', ¬(c' = c ∧ sl' = sl) → sl' < 64 → u.thread? c' sl' = s.thread? c' sl'

/-- Words of the spec's own examples, written from the encodings (R50 to R57), one family after another. -/
def specWords1 : List (BitVec 32 × Instr) :=
  [(0x00082064, .sub 1 2 3 0 0), (0x042860EC, .div 5 6 7 0 0), (0x20081003, .shli 1 1 0 3), (0x3017FFFF, .movi 2 0x7FFFF),
   (0x34300004, .ldpc 6 4), (0x3C082064, .sel 1 2 3 4), (0x48082064, .ffmaF32 1 2 3 4), (0x54101020, .fcvtF32F64 2 1 0 0),
   (0x5C197FFE, .bcLtz 3 0 0x7FFE), (0x68007004, .callr 7 0), (0x74005000, .join 5 0), (0x78180008, .gangid 3),
   (0x94201001, .vld 4 1 0 0 1), (0xAC0000A0, .fenceRw 5), (0xB03850C1, .amoAdd 7 5 6 0 1), (0xB4181044, .cas 3 1 2 4),
   (0xC0082060, .vaddI32 1 2 3 0 0), (0xD0409141, .vsel 8 9 10 1), (0xE0004218, .qpush 0 1 4 6 0), (0xF4103140, .thrStart 2 3),
   (0xF4003086, .sysSet 3 6), (0xF4103505, .memMap 2 3 1 1), (0xF4103445, .cancelGraphRewind 2 3), (0xF4286740, .amSend 5 6)]
def specWords2 : List (BitVec 32 × Instr) :=
  [(0xF41037C0, .lnkStatus 2 3), (0xF42056C9, .snextStatus 4 5 1), (0xF40005C7, .qfence 7)]
/-- All of them. -/
def specWords : List (BitVec 32 × Instr) := specWords1 ++ specWords2

/-- The shifts by an immediate, with their majors (R53). -/
def immediateShifts : List (BitVec 6 × (BitVec 7 → BitVec 7 → BitVec 1 → BitVec 6 → Instr)) := [(0x08, .shli), (0x09, .shri), (0x0A, .srai)]

/-- Words that are no instruction: the all-zero word, an unassigned major, a field that must be zero, an undefined function. -/
def refusedWords : List (BitVec 32) := [0, 0x7C000000, 0xB8000000, 0xEC000000, 0xF8000000, 0x74000020, 0x0400001C]

/-- The thread t of a slot is the one whose turn it is: nothing else is due before it, and its core is the first that can
issue, with this slot the first after the one that issued last (R25). -/
structure OnTurn (s : State) (c sl : Nat) (t : Thread) : Prop where
  quiet : s.inputs = []
  nothingEarly : s.earlyMove = none
  nothingCompletes : s.completionMove = none
  first : ∃ pre post, s.cores = pre ++ (c, s.core c) :: post ∧ ∀ e ∈ pre, s.coreIssues e.1 e.2 = false
  issues : s.coreIssues c (s.core c) = true
  turn : ∃ i < 64, sl = ((s.core c).last + 1 + i) % 64 ∧
    ∀ j < i, ∀ v, s.thread? c (((s.core c).last + 1 + j) % 64) = some v → s.readyNow v = false
  slot : s.thread? c sl = some t
  ready : t.state = .ready ∧ t.readyAt ≤ s.cycle
  alone : t.coupled = false ∧ t.forward = none
  stays : (s.core c).moving = false

end Sys2Proof.Slice0

/-- R37: at device reset, the first and every later one, every entry of every register file is zero and full, with every zero
flag set and no poison mark. THR.START alters no entry, the new thread's window among them, but its own destination. -/
def Obligations.RegistersAtReset : Prop :=
  (∀ c n, n < 2048 → RegAtReset (State.reset.regAt c n)) ∧
  (∀ s : State, ∃ u, exec .coldReset s = .next u ∧ ∀ c n, n < 2048 → RegAtReset (u.regAt c n)) ∧
  (∀ s : State, ∃ u, exec .warmReset s = .next u ∧ ∀ c n, n < 2048 → RegAtReset (u.regAt c n)) ∧
  (∀ (s : State) (c sl : Nat) (t : Thread) (f : Flight) (rd : Nat) (req a : Word), Completing s c sl t f → Straight t f →
    f.fx = [.thrStart rd req a] → rd < 2048 →
    ∃ u, exec .instructionCompletion s = .next u ∧ ∀ c' n, n < 2048 → ¬(c' = c ∧ n = rd) → u.regAt c' n = s.regAt c' n)

/-- R365, R403: COLD_RESET and WARM_RESET restart the machine, and keep the Keystone's MRAM and the host's memory. The memory and the
scratchpads of the reset machine, in which nothing is written, are in their canonical form (log 3).
Read as log 68 says, the model's own readings. -/
def Obligations.ResetLeavesTheMachine : Prop :=
  (∀ s : State, ∃ u, exec .coldReset s = .next u ∧ Restarted s u) ∧ (∀ s : State, ∃ u, exec .warmReset s = .next u ∧ Restarted s u) ∧
  Memory.wf State.reset.mem = true ∧ State.reset.scratchWf = true

/-- R29, R33, R34, R36, R162 (and the order of log 22): what an instruction of two sources does before it may run. A field outside
the window traps REG_RANGE; a destination that a producer still owes blocks; a poisoned source traps DATA_LOST, but for a read that
waits for a value that its empty entry is still to get; an empty source traps EMPTY_READ where its bit is set, and else blocks the
thread on the empty entries. -/
def Obligations.FieldChecks : Prop :=
  ∀ x ∈ integerBinary, ∀ (s : State) (c sl : Nat) (t : Thread) (rd ra rb : BitVec 7) (ta tb : BitVec 1),
    Issuing s c sl t → t.coupled = false → (∀ q ∈ s.posts, t.owes q = false) → s.hasHandler c sl (((s.core c).part).getD 0) = true →
    let i := x.1 rd ra rb ta tb
    let at_ (r : BitVec 7) : Reg := s.regAt c (t.base + r.toNat)
    let inWindow := rd.toNat < t.size ∧ ra.toNat < t.size ∧ rb.toNat < t.size
    let owed := (at_ rd).full = false ∧ s.outstanding c (t.base + rd.toNat) = true
    let lost (r : BitVec 7) (b : BitVec 1) : Prop :=
      (at_ r).poison = true ∧ (b = 1 ∨ (at_ r).full = true ∨ s.outstanding c (t.base + r.toNat) = false)
    let blocked (l : List Nat) : State := s.setThread c sl { t with state := .blocked (.regs l) }
    (∀ code, firstOutside t.size [(0, rd), (1, ra), (2, rb)] = some code →
      ∃ u, exec i s = .next u ∧ Trapped s u c sl t (trapAt t.pc 0x02 (BitVec.ofNat 64 code) (BitVec.ofNat 64 t.size))) ∧
    (inWindow → owed → ∃ l, exec i s = .next (blocked l) ∧ t.base + rd.toNat ∈ l) ∧
    (inWindow → ¬owed → ∀ k r b, (k, r, b) ∈ [(1, ra, ta), (2, rb, tb)] → lost r b → (k = 2 → ¬lost ra ta) →
      ∃ u, exec i s = .next u ∧ Trapped s u c sl t (trapAt t.pc 0x0E (BitVec.ofNat 64 (r.toNat + 256 * k)) (lostCore (at_ r).token))) ∧
    (inWindow → ¬owed → ¬lost ra ta → ¬lost rb tb →
      (∀ k r, (k, r) ∈ [(1, ra), (2, rb)] → (at_ r).full = false → (k = 1 → ta = 1) → (k = 2 → tb = 1 ∧ ((at_ ra).full = true ∨ ta = 0)) →
        ∃ u, exec i s = .next u ∧ Trapped s u c sl t (trapAt t.pc 0x03 (BitVec.ofNat 64 (r.toNat + 256 * k)) 0)) ∧
      ((at_ ra).full = false ∨ (at_ rb).full = false → ((at_ ra).full = false → ta = 0) → ((at_ rb).full = false → tb = 0) →
        exec i s = .next (blocked (([ra, rb].filter fun r => !(at_ r).full).map fun r => t.base + r.toNat))))

/-- R139, R160 to R163, R166: taking a trap saves the PC that the code names and writes a record whose fields say what happened;
THR.RESUME makes a TRAPPED thread READY at its saved PC and THR.RESUME.NEXT after the instruction there, both with status 0; any other
thread gives NOT_RUNNING, and slot 63 NOT_PERMITTED. R163: a fetch fault keeps that its address is the target of a taken transfer, and
THR.RESUME.NEXT then goes to the word after the target, whatever stands at the target now.
Read as log 7, 18, 87, 96 and 97 say, the model's own readings. -/
def Obligations.TrapSavesAndResumeReturns : Prop :=
  (∀ (s : State) (c sl : Nat) (t : Thread) (x : TrapInfo), s.thread? c sl = some t → c < 1024 → sl < 64 → x.code < 256 → x.detail < 256 →
    t.coupled = false → (∀ q ∈ s.posts, t.owes q = false) → s.hasHandler c sl (((s.core c).part).getD 0) = true →
    Trapped s (s.trap c sl x none) c sl t x ∧
    let r := trapRecord s c sl (((s.core c).part).getD 0) t x none
    fieldAt r 0 1 = x.code ∧ fieldAt r 1 1 = x.detail ∧ fieldAt r 2 1 = sl ∧ fieldAt r 4 2 = c ∧ fieldAt r 8 8 = x.pc.toNat ∧
    fieldAt r 0x10 8 = x.info.toNat ∧ fieldAt r 0x18 4 = (s.wordAt (((s.core c).part).getD 0) x.pc.toNat).toNat ∧
    fieldAt r 0x20 8 = s.timeQ / 4 % 2 ^ 64 ∧ fieldAt r 0x30 8 = x.second.toNat) ∧
  (∀ (s : State) (c sl : Nat) (t : Thread) (addr : Addr), s.thread? c sl = some t → t.coupled = false → (∀ q ∈ s.posts, t.owes q = false) →
    s.hasHandler c sl (((s.core c).part).getD 0) = true →
    ∃ v x, (s.fetchTrap c sl addr false).thread? c sl = some v ∧ v.state = .trapped x ∧ x.code = 0x06 ∧ x.pc = t.pc ∧ v.pc = t.pc ∧
      x.info = addr.setWidth 64 ∧ x.second = 3 ∧ v.kept = t.kept ∧ (t.kept = true ↔ x.flags = 8)) ∧
  (∀ (s : State) (c sl : Nat) (t : Thread) (f : Flight) (rd : Nat) (a : Word) (next : Bool), Completing s c sl t f → Straight t f →
    t.buffer = [] → f.fx = [.thrResume rd a next] → rd < 2048 →
    let k := a.toNat % 64
    let status (u : State) (n : Nat) : Prop := u.regAt c rd = Reg.ofVec (BitVec.ofNat 512 n) ∧
      ∀ c' m, m < 2048 → ¬(c' = c ∧ m = rd) → u.regAt c' m = s.regAt c' m
    (∀ v x, k ≠ 63 → s.thread? c k = some v → v.state = .trapped x →
      ∃ u, exec .instructionCompletion s = .next u ∧ status u 0 ∧ ∃ w, u.thread? c k = some w ∧ w.state = .ready ∧
        (next = false → w.pc = v.pc ∧ w.kept = v.kept) ∧
        (next = true → v.kept = false → w.pc = v.pc + if s.wordAt (((s.core c).part).getD 0) v.pc.toNat = 0xFC000000#32 then 8 else 4) ∧
        (next = true → v.kept = true → w.pc = v.pc + 4) ∧ (next = true → w.kept = false) ∧
        w.lk = v.lk ∧ w.lp0 = v.lp0 ∧ w.lp1 = v.lp1 ∧ w.fflags = v.fflags ∧ w.base = v.base ∧ w.size = v.size) ∧
    (k ≠ 63 → (∀ v x, s.thread? c k = some v → v.state ≠ .trapped x) →
      ∃ u, exec .instructionCompletion s = .next u ∧ status u 1) ∧
    (k = 63 → ∃ u, exec .instructionCompletion s = .next u ∧ status u 2))

/-- R48 to R57: decode and encode agree. Every well-formed core instruction, at every value of every operand, is what its own words
decode to, and whatever bytes decode to an instruction are that instruction's words; a command word names the command it was written for,
with every open field. -/
def Obligations.DecodeOfEncode : Prop :=
  (∀ (i : Instr) (rest : List Byte), wellFormed i = true → encode i ≠ [] → (∀ w, i = .once w → (decodeWord w).isSome = true) →
    decode ((encode i).flatMap wordBytes ++ rest) = some (i, rest)) ∧
  (∀ (i : Instr) (bs rest : List Byte), decode bs = some (i, rest) → wellFormed i = true ∧ bs = (encode i).flatMap wordBytes ++ rest) ∧
  (∀ (i : Instr) (c : Cmd) (w : BitVec 256), encodeCommand i c = some w → decodeCommand w = some i ∧ readCmd w c.opr = c)

/-- R50 to R57: the words of the spec's examples decode to the instructions they stand for, and words that R56 lists are refused. R53: SHLI, SHRI and
SRAI take their count from imm11[5:0], with imm11[10:6] zero; sz of VLD, VST and PREF is zero; PREF scales off6 by 64 like VLD. -/
def Obligations.DecodingOfSpecWords : Prop :=
  (∀ x ∈ specWords, decodeWord x.1 = some x.2) ∧ (∀ w ∈ refusedWords, decodeWord w = none) ∧
  decode (wordBytes 0xFC000000 ++ wordBytes 0x00082064) = some (.once 0x00082064, []) ∧
  decode (wordBytes 0xFC000000 ++ wordBytes 0xFC000000) = none ∧
  (∀ x ∈ immediateShifts, ∀ (rd ra : BitVec 7) (ta : BitVec 1) (high : BitVec 5) (count : BitVec 6),
    decodeWord (x.1 ++ rd ++ ra ++ ta ++ high ++ count) = if high = 0 then some (x.2 rd ra ta count) else none) ∧
  (∀ (rd ra : BitVec 7) (sz : BitVec 2) (p : BitVec 3) (ta : BitVec 1) (off : BitVec 6),
    decodeWord (0x25#6 ++ rd ++ ra ++ sz ++ p ++ ta ++ off) = (if sz = 0 ∧ p ≠ 7 then some (.vld rd ra p ta off) else none) ∧
    decodeWord (0x26#6 ++ rd ++ ra ++ sz ++ p ++ ta ++ off) = (if sz = 0 ∧ p ≠ 7 then some (.vst rd ra p ta off) else none) ∧
    decodeWord (0x2A#6 ++ rd ++ ra ++ sz ++ p ++ ta ++ off) = if sz = 0 ∧ rd = 0 ∧ p ≠ 7 then some (.pref ra p ta off) else none) ∧
  (∀ (s : State) (c sl : Nat) (t : Thread) (rd ra : BitVec 7) (p : BitVec 3) (ta : BitVec 1) (off : BitVec 6), Issuing s c sl t → Readable s c t ra.toNat →
    let scaled := BitVec.ofInt 64 ((regWord s c t ra).toInt + off.toInt * 64)
    (∃ u v f, exec (.pref ra p ta off) s = .next u ∧ u.thread? c sl = some v ∧ v.state = .inflight f ∧ f.fx = [.pref scaled p.toNat]) ∧
    (Writable s c t rd.toNat →
      ∃ u v f x, exec (.vld rd ra p ta off) s = .next u ∧ u.thread? c sl = some v ∧ v.state = .inflight f ∧ f.fx = [.load (t.base + rd.toNat) x [scaled] 64 none]))

/-- R25, R26, R48, R56, R57: a step runs the decoded instruction. When it is a thread's turn and the bytes at its PC decode to an
instruction i, the step is exec of i with that thread issuing, followed by what follows every move at once: the lines read and written fill
the L2 (R278), and waits go on; a word that is no
instruction traps ILLEGAL_INSTRUCTION with the word, and an address that cannot be fetched traps FETCH_FAULT, or
DATA_LOST for a lost line.
Read as log 18, 23 and 83 say, the model's own readings. -/
def Obligations.StepRunsTheDecodedInstruction : Prop :=
  ∀ (s : State) (c sl : Nat) (t : Thread), OnTurn s c sl t →
    let p := ((s.core c).part).getD 0
    (∀ bs i, s.fetchBytes p t.pc.toNat 4 = .ok bs → decode bs = some (i, []) →
      step s = finishRes (s.readLines (.issue c sl i)) (exec i { s with cur := .thread c sl, arg := Arg.none })) ∧
    (∀ bs bs' i, s.fetchBytes p t.pc.toNat 4 = .ok bs → s.fetchBytes p (t.pc + 4).toNat 4 = .ok bs' →
      bs = wordBytes 0xFC000000 → decode (bs ++ bs') = some (i, []) →
      step s = finishRes (s.readLines (.issue c sl i)) (exec i { s with cur := .thread c sl, arg := Arg.none })) ∧
    (∀ bs, s.fetchBytes p t.pc.toNat 4 = .ok bs → bs ≠ wordBytes 0xFC000000 → decode bs = none →
      step s = .next ((s.illegal c sl (BitVec.ofNat 32 (bytesNat bs)) none).fillLines []).finish) ∧
    (s.fetchBytes p t.pc.toNat 4 = .fault → step s = .next ((s.fetchTrap c sl t.pc false).fillLines []).finish) ∧
    (s.fetchBytes p t.pc.toNat 4 = .lost → step s = .next ((s.fetchTrap c sl t.pc true).fillLines []).finish)

/-- Every state has a next one: the machine as the model has it neither stops nor refuses (R20, R26: what a program does wrong is
a trap, and what the spec leaves open is a free value).
Read as log 82 says, the model's own readings. -/
def Obligations.EveryStepGoesOn : Prop := ∀ s : State, ∃ u, step s = .next u

/-- Memory and scratchpads stay in their canonical form at every step, so that equal memories are equal data (log 3). -/
def Obligations.StepKeepsMemoryCanonical : Prop :=
  ∀ s u : State, step s = .next u → Memory.wf s.mem = true → s.scratchWf = true → Memory.wf u.mem = true ∧ u.scratchWf = true
end

