-- ==== Sys2Proof/Laws/Decode.lean ====
section
/-! SUPPORT. Fields of words that are joined from fields, and what a layout gives a decoding (R50 to R56). -/
namespace Sys2Proof
set_option Elab.async false

/-- A field that lies in the lower part of a joined word. -/
theorem bits_append_low {n m : Nat} (a : BitVec n) (b : BitVec m) {lo len : Nat} (h : lo + len ≤ m) :
    bits (a ++ b) lo len = bits b lo len := by
  unfold bits
  apply BitVec.eq_of_getLsbD_eq
  intro i hi
  have : lo + i < m := by omega
  simp [BitVec.getLsbD_extractLsb', BitVec.getLsbD_append, this]

/-- A field that lies in the upper part of a joined word. -/
theorem bits_append_high {n m : Nat} (a : BitVec n) (b : BitVec m) {lo len : Nat} (h : m ≤ lo) :
    bits (a ++ b) lo len = bits a (lo - m) len := by
  unfold bits
  apply BitVec.eq_of_getLsbD_eq
  intro i hi
  have h1 : ¬ lo + i < m := by omega
  have h2 : lo + i - m = lo - m + i := by omega
  simp [BitVec.getLsbD_extractLsb', BitVec.getLsbD_append, h1, h2]

/-- The whole of a word. -/
@[simp] theorem bits_self {n : Nat} (a : BitVec n) : bits a 0 n = a := by simp [bits]

/-! Each major has its own layout (R53). -/
theorem layout00 {w : BitVec 32} (h : bits w 26 6 = 0x00#6) : decodeLayout w = decode00 w := by unfold decodeLayout; rw [h]; rfl
theorem layout01 {w : BitVec 32} (h : bits w 26 6 = 0x01#6) : decodeLayout w = decode01 w := by unfold decodeLayout; rw [h]; rfl
theorem layout02 {w : BitVec 32} (h : bits w 26 6 = 0x02#6) : decodeLayout w = decode02 w := by unfold decodeLayout; rw [h]; rfl
theorem layout03 {w : BitVec 32} (h : bits w 26 6 = 0x03#6) : decodeLayout w = decode03 w := by unfold decodeLayout; rw [h]; rfl
theorem layout04 {w : BitVec 32} (h : bits w 26 6 = 0x04#6) : decodeLayout w = decode04 w := by unfold decodeLayout; rw [h]; rfl
theorem layout05 {w : BitVec 32} (h : bits w 26 6 = 0x05#6) : decodeLayout w = decode05 w := by unfold decodeLayout; rw [h]; rfl
theorem layout06 {w : BitVec 32} (h : bits w 26 6 = 0x06#6) : decodeLayout w = decode06 w := by unfold decodeLayout; rw [h]; rfl
theorem layout07 {w : BitVec 32} (h : bits w 26 6 = 0x07#6) : decodeLayout w = decode07 w := by unfold decodeLayout; rw [h]; rfl
theorem layout08 {w : BitVec 32} (h : bits w 26 6 = 0x08#6) : decodeLayout w = decode08 w := by unfold decodeLayout; rw [h]; rfl
theorem layout09 {w : BitVec 32} (h : bits w 26 6 = 0x09#6) : decodeLayout w = decode09 w := by unfold decodeLayout; rw [h]; rfl
theorem layout0A {w : BitVec 32} (h : bits w 26 6 = 0x0A#6) : decodeLayout w = decode0A w := by unfold decodeLayout; rw [h]; rfl
theorem layout0B {w : BitVec 32} (h : bits w 26 6 = 0x0B#6) : decodeLayout w = decode0B w := by unfold decodeLayout; rw [h]; rfl
theorem layout0C {w : BitVec 32} (h : bits w 26 6 = 0x0C#6) : decodeLayout w = decode0C w := by unfold decodeLayout; rw [h]; rfl
theorem layout0D {w : BitVec 32} (h : bits w 26 6 = 0x0D#6) : decodeLayout w = decode0D w := by unfold decodeLayout; rw [h]; rfl
theorem layout0E {w : BitVec 32} (h : bits w 26 6 = 0x0E#6) : decodeLayout w = decode0E w := by unfold decodeLayout; rw [h]; rfl
theorem layout0F {w : BitVec 32} (h : bits w 26 6 = 0x0F#6) : decodeLayout w = decode0F w := by unfold decodeLayout; rw [h]; rfl
theorem layout10 {w : BitVec 32} (h : bits w 26 6 = 0x10#6) : decodeLayout w = decode10 w := by unfold decodeLayout; rw [h]; rfl
theorem layout11 {w : BitVec 32} (h : bits w 26 6 = 0x11#6) : decodeLayout w = decode11 w := by unfold decodeLayout; rw [h]; rfl
theorem layout12 {w : BitVec 32} (h : bits w 26 6 = 0x12#6) : decodeLayout w = decode12 w := by unfold decodeLayout; rw [h]; rfl
theorem layout13 {w : BitVec 32} (h : bits w 26 6 = 0x13#6) : decodeLayout w = decode13 w := by unfold decodeLayout; rw [h]; rfl
theorem layout14 {w : BitVec 32} (h : bits w 26 6 = 0x14#6) : decodeLayout w = decode14 w := by unfold decodeLayout; rw [h]; rfl
theorem layout15 {w : BitVec 32} (h : bits w 26 6 = 0x15#6) : decodeLayout w = decode15 w := by unfold decodeLayout; rw [h]; rfl
theorem layout16 {w : BitVec 32} (h : bits w 26 6 = 0x16#6) : decodeLayout w = decode16 w := by unfold decodeLayout; rw [h]; rfl
theorem layout17 {w : BitVec 32} (h : bits w 26 6 = 0x17#6) : decodeLayout w = decode17 w := by unfold decodeLayout; rw [h]; rfl
theorem layout18 {w : BitVec 32} (h : bits w 26 6 = 0x18#6) : decodeLayout w = decode18 w := by unfold decodeLayout; rw [h]; rfl
theorem layout19 {w : BitVec 32} (h : bits w 26 6 = 0x19#6) : decodeLayout w = decode19 w := by unfold decodeLayout; rw [h]; rfl
theorem layout1A {w : BitVec 32} (h : bits w 26 6 = 0x1A#6) : decodeLayout w = decode1A w := by unfold decodeLayout; rw [h]; rfl
theorem layout1B {w : BitVec 32} (h : bits w 26 6 = 0x1B#6) : decodeLayout w = decode1B w := by unfold decodeLayout; rw [h]; rfl
theorem layout1C {w : BitVec 32} (h : bits w 26 6 = 0x1C#6) : decodeLayout w = decode1C w := by unfold decodeLayout; rw [h]; rfl
theorem layout1D {w : BitVec 32} (h : bits w 26 6 = 0x1D#6) : decodeLayout w = decode1D w := by unfold decodeLayout; rw [h]; rfl
theorem layout1E {w : BitVec 32} (h : bits w 26 6 = 0x1E#6) : decodeLayout w = decode1E w := by unfold decodeLayout; rw [h]; rfl
theorem layout20 {w : BitVec 32} (h : bits w 26 6 = 0x20#6) : decodeLayout w = decode20 w := by unfold decodeLayout; rw [h]; rfl
theorem layout21 {w : BitVec 32} (h : bits w 26 6 = 0x21#6) : decodeLayout w = decode21 w := by unfold decodeLayout; rw [h]; rfl
theorem layout22 {w : BitVec 32} (h : bits w 26 6 = 0x22#6) : decodeLayout w = decode22 w := by unfold decodeLayout; rw [h]; rfl
theorem layout23 {w : BitVec 32} (h : bits w 26 6 = 0x23#6) : decodeLayout w = decode23 w := by unfold decodeLayout; rw [h]; rfl
theorem layout24 {w : BitVec 32} (h : bits w 26 6 = 0x24#6) : decodeLayout w = decode24 w := by unfold decodeLayout; rw [h]; rfl
theorem layout25 {w : BitVec 32} (h : bits w 26 6 = 0x25#6) : decodeLayout w = decode25 w := by unfold decodeLayout; rw [h]; rfl
theorem layout26 {w : BitVec 32} (h : bits w 26 6 = 0x26#6) : decodeLayout w = decode26 w := by unfold decodeLayout; rw [h]; rfl
theorem layout27 {w : BitVec 32} (h : bits w 26 6 = 0x27#6) : decodeLayout w = decode27 w := by unfold decodeLayout; rw [h]; rfl
theorem layout28 {w : BitVec 32} (h : bits w 26 6 = 0x28#6) : decodeLayout w = decode28 w := by unfold decodeLayout; rw [h]; rfl
theorem layout29 {w : BitVec 32} (h : bits w 26 6 = 0x29#6) : decodeLayout w = decode29 w := by unfold decodeLayout; rw [h]; rfl
theorem layout2A {w : BitVec 32} (h : bits w 26 6 = 0x2A#6) : decodeLayout w = decode2A w := by unfold decodeLayout; rw [h]; rfl
theorem layout2B {w : BitVec 32} (h : bits w 26 6 = 0x2B#6) : decodeLayout w = decode2B w := by unfold decodeLayout; rw [h]; rfl
theorem layout2C {w : BitVec 32} (h : bits w 26 6 = 0x2C#6) : decodeLayout w = decode2C w := by unfold decodeLayout; rw [h]; rfl
theorem layout2D {w : BitVec 32} (h : bits w 26 6 = 0x2D#6) : decodeLayout w = decode2D w := by unfold decodeLayout; rw [h]; rfl
theorem layout30 {w : BitVec 32} (h : bits w 26 6 = 0x30#6) : decodeLayout w = decode30 w := by unfold decodeLayout; rw [h]; rfl
theorem layout31 {w : BitVec 32} (h : bits w 26 6 = 0x31#6) : decodeLayout w = decode31 w := by unfold decodeLayout; rw [h]; rfl
theorem layout32 {w : BitVec 32} (h : bits w 26 6 = 0x32#6) : decodeLayout w = decode32 w := by unfold decodeLayout; rw [h]; rfl
theorem layout33 {w : BitVec 32} (h : bits w 26 6 = 0x33#6) : decodeLayout w = decode33 w := by unfold decodeLayout; rw [h]; rfl
theorem layout34 {w : BitVec 32} (h : bits w 26 6 = 0x34#6) : decodeLayout w = decode34 w := by unfold decodeLayout; rw [h]; rfl
theorem layout35 {w : BitVec 32} (h : bits w 26 6 = 0x35#6) : decodeLayout w = decode35 w := by unfold decodeLayout; rw [h]; rfl
theorem layout36 {w : BitVec 32} (h : bits w 26 6 = 0x36#6) : decodeLayout w = decode36 w := by unfold decodeLayout; rw [h]; rfl
theorem layout37 {w : BitVec 32} (h : bits w 26 6 = 0x37#6) : decodeLayout w = decode37 w := by unfold decodeLayout; rw [h]; rfl
theorem layout38 {w : BitVec 32} (h : bits w 26 6 = 0x38#6) : decodeLayout w = decode38 w := by unfold decodeLayout; rw [h]; rfl
theorem layout39 {w : BitVec 32} (h : bits w 26 6 = 0x39#6) : decodeLayout w = decode39 w := by unfold decodeLayout; rw [h]; rfl
theorem layout3A {w : BitVec 32} (h : bits w 26 6 = 0x3A#6) : decodeLayout w = decode3A w := by unfold decodeLayout; rw [h]; rfl
theorem layout3C {w : BitVec 32} (h : bits w 26 6 = 0x3C#6) : decodeLayout w = decode3C w := by unfold decodeLayout; rw [h]; rfl
theorem layout3D {w : BitVec 32} (h : bits w 26 6 = 0x3D#6) : decodeLayout w = decode3D w := by unfold decodeLayout; rw [h]; rfl

/-- What a layout gives and the refusals admit is what a word decodes to. -/
theorem decodeWord_of_layout {w : BitVec 32} {i : Instr} (h : decodeLayout w = some i) (k : wellFormed i = true) : decodeWord w = some i := by
  simp [decodeWord, h, k]

/-- A word that decodes holds a well-formed instruction. -/
theorem decodeWord_wellFormed {w : BitVec 32} {i : Instr} (h : decodeWord w = some i) : wellFormed i = true :=
  (Option.filter_eq_some_iff.mp h).2

end Sys2Proof

namespace Sys2Proof.Laws.OneWord
set_option Elab.async false

theorem oneWord {i : Instr} {v : BitVec 32} {l : List (BitVec 32)} (e : l = [v]) (h : decodeLayout v = some i) :
    wellFormed i = true → ∀ w, l = [w] → decodeWord w = some i := by
  intro k w g
  rw [e] at g
  cases g
  exact decodeWord_of_layout h k

theorem noWord {i : Instr} {l : List (BitVec 32)} (e : l = []) : wellFormed i = true → ∀ w, l = [w] → decodeWord w = some i := by
  intro _ w g
  rw [e] at g
  cases g

theorem noWord2 {i : Instr} {l : List (BitVec 32)} {a b : BitVec 32} (e : l = [a, b]) :
    wellFormed i = true → ∀ w, l = [w] → decodeWord w = some i := by
  intro _ w g
  rw [e] at g
  cases g

end Sys2Proof.Laws.OneWord
end

