-- ==== Sys2Proof/Laws/State.lean ====
section
/-! SUPPORT. What the named updates of the state leave alone: one lemma per field and update. -/
namespace Sys2Proof.Machine

/-! ### setReg -/

@[simp] theorem State.setReg_cycle (s : State) (c n : Nat) (r : Reg) : (s.setReg c n r).cycle = s.cycle := rfl
@[simp] theorem State.setReg_timeQ (s : State) (c n : Nat) (r : Reg) : (s.setReg c n r).timeQ = s.timeQ := rfl
@[simp] theorem State.setReg_sag (s : State) (c n : Nat) (r : Reg) : (s.setReg c n r).sag = s.sag := rfl
@[simp] theorem State.setReg_locked (s : State) (c n : Nat) (r : Reg) : (s.setReg c n r).locked = s.locked := rfl
@[simp] theorem State.setReg_slew (s : State) (c n : Nat) (r : Reg) : (s.setReg c n r).slew = s.slew := rfl
@[simp] theorem State.setReg_stretched (s : State) (c n : Nat) (r : Reg) : (s.setReg c n r).stretched = s.stretched := rfl
@[simp] theorem State.setReg_order (s : State) (c n : Nat) (r : Reg) : (s.setReg c n r).order = s.order := rfl
@[simp] theorem State.setReg_uid (s : State) (c n : Nat) (r : Reg) : (s.setReg c n r).uid = s.uid := rfl
@[simp] theorem State.setReg_cur (s : State) (c n : Nat) (r : Reg) : (s.setReg c n r).cur = s.cur := rfl
@[simp] theorem State.setReg_arg (s : State) (c n : Nat) (r : Reg) : (s.setReg c n r).arg = s.arg := rfl
@[simp] theorem State.setReg_inputs (s : State) (c n : Nat) (r : Reg) : (s.setReg c n r).inputs = s.inputs := rfl
@[simp] theorem State.setReg_draws (s : State) (c n : Nat) (r : Reg) : (s.setReg c n r).draws = s.draws := rfl
@[simp] theorem State.setReg_estimates (s : State) (c n : Nat) (r : Reg) : (s.setReg c n r).estimates = s.estimates := rfl
@[simp] theorem State.setReg_wrote (s : State) (c n : Nat) (r : Reg) : (s.setReg c n r).wrote = s.wrote := rfl
@[simp] theorem State.setReg_threads (s : State) (c n : Nat) (r : Reg) : (s.setReg c n r).threads = s.threads := rfl
@[simp] theorem State.setReg_cores (s : State) (c n : Nat) (r : Reg) : (s.setReg c n r).cores = s.cores := rfl
@[simp] theorem State.setReg_mem (s : State) (c n : Nat) (r : Reg) : (s.setReg c n r).mem = s.mem := rfl
@[simp] theorem State.setReg_scratch (s : State) (c n : Nat) (r : Reg) : (s.setReg c n r).scratch = s.scratch := rfl
@[simp] theorem State.setReg_epochs (s : State) (c n : Nat) (r : Reg) : (s.setReg c n r).epochs = s.epochs := rfl
@[simp] theorem State.setReg_badWords (s : State) (c n : Nat) (r : Reg) : (s.setReg c n r).badWords = s.badWords := rfl
@[simp] theorem State.setReg_lost (s : State) (c n : Nat) (r : Reg) : (s.setReg c n r).lost = s.lost := rfl
@[simp] theorem State.setReg_lines (s : State) (c n : Nat) (r : Reg) : (s.setReg c n r).lines = s.lines := rfl
@[simp] theorem State.setReg_dirty (s : State) (c n : Nat) (r : Reg) : (s.setReg c n r).dirty = s.dirty := rfl
@[simp] theorem State.setReg_l2 (s : State) (c n : Nat) (r : Reg) : (s.setReg c n r).l2 = s.l2 := rfl
@[simp] theorem State.setReg_cleared (s : State) (c n : Nat) (r : Reg) : (s.setReg c n r).cleared = s.cleared := rfl
@[simp] theorem State.setReg_ptes (s : State) (c n : Nat) (r : Reg) : (s.setReg c n r).ptes = s.ptes := rfl
@[simp] theorem State.setReg_pages (s : State) (c n : Nat) (r : Reg) : (s.setReg c n r).pages = s.pages := rfl
@[simp] theorem State.setReg_pend (s : State) (c n : Nat) (r : Reg) : (s.setReg c n r).pend = s.pend := rfl
@[simp] theorem State.setReg_passed (s : State) (c n : Nat) (r : Reg) : (s.setReg c n r).passed = s.passed := rfl
@[simp] theorem State.setReg_fences (s : State) (c n : Nat) (r : Reg) : (s.setReg c n r).fences = s.fences := rfl
@[simp] theorem State.setReg_arrivals (s : State) (c n : Nat) (r : Reg) : (s.setReg c n r).arrivals = s.arrivals := rfl
@[simp] theorem State.setReg_posts (s : State) (c n : Nat) (r : Reg) : (s.setReg c n r).posts = s.posts := rfl
@[simp] theorem State.setReg_nwrites (s : State) (c n : Nat) (r : Reg) : (s.setReg c n r).nwrites = s.nwrites := rfl
@[simp] theorem State.setReg_wakes (s : State) (c n : Nat) (r : Reg) : (s.setReg c n r).wakes = s.wakes := rfl
@[simp] theorem State.setReg_traps (s : State) (c n : Nat) (r : Reg) : (s.setReg c n r).traps = s.traps := rfl
@[simp] theorem State.setReg_active (s : State) (c n : Nat) (r : Reg) : (s.setReg c n r).active = s.active := rfl
@[simp] theorem State.setReg_locks (s : State) (c n : Nat) (r : Reg) : (s.setReg c n r).locks = s.locks := rfl
@[simp] theorem State.setReg_copyTurn (s : State) (c n : Nat) (r : Reg) : (s.setReg c n r).copyTurn = s.copyTurn := rfl
@[simp] theorem State.setReg_routeTurn (s : State) (c n : Nat) (r : Reg) : (s.setReg c n r).routeTurn = s.routeTurn := rfl
@[simp] theorem State.setReg_barriers (s : State) (c n : Nat) (r : Reg) : (s.setReg c n r).barriers = s.barriers := rfl
@[simp] theorem State.setReg_ctxs (s : State) (c n : Nat) (r : Reg) : (s.setReg c n r).ctxs = s.ctxs := rfl
@[simp] theorem State.setReg_nextAge (s : State) (c n : Nat) (r : Reg) : (s.setReg c n r).nextAge = s.nextAge := rfl
@[simp] theorem State.setReg_keystone (s : State) (c n : Nat) (r : Reg) : (s.setReg c n r).keystone = s.keystone := rfl
@[simp] theorem State.setReg_ports (s : State) (c n : Nat) (r : Reg) : (s.setReg c n r).ports = s.ports := rfl
@[simp] theorem State.setReg_messages (s : State) (c n : Nat) (r : Reg) : (s.setReg c n r).messages = s.messages := rfl
@[simp] theorem State.setReg_joins (s : State) (c n : Nat) (r : Reg) : (s.setReg c n r).joins = s.joins := rfl
@[simp] theorem State.setReg_collEnded (s : State) (c n : Nat) (r : Reg) : (s.setReg c n r).collEnded = s.collEnded := rfl
@[simp] theorem State.setReg_host (s : State) (c n : Nat) (r : Reg) : (s.setReg c n r).host = s.host := rfl
@[simp] theorem State.setReg_samples (s : State) (c n : Nat) (r : Reg) : (s.setReg c n r).samples = s.samples := rfl
@[simp] theorem State.setReg_outgoing (s : State) (c n : Nat) (r : Reg) : (s.setReg c n r).outgoing = s.outgoing := rfl
@[simp] theorem State.setReg_log (s : State) (c n : Nat) (r : Reg) : (s.setReg c n r).log = s.log := rfl
@[simp] theorem State.setReg_logSeq (s : State) (c n : Nat) (r : Reg) : (s.setReg c n r).logSeq = s.logSeq := rfl
@[simp] theorem State.setReg_correctedNow (s : State) (c n : Nat) (r : Reg) : (s.setReg c n r).correctedNow = s.correctedNow := rfl
@[simp] theorem State.setReg_correctedAt (s : State) (c n : Nat) (r : Reg) : (s.setReg c n r).correctedAt = s.correctedAt := rfl
@[simp] theorem State.setReg_doomed (s : State) (c n : Nat) (r : Reg) : (s.setReg c n r).doomed = s.doomed := rfl
@[simp] theorem State.setReg_dispatch (s : State) (c n : Nat) (r : Reg) : (s.setReg c n r).dispatch = s.dispatch := rfl
@[simp] theorem State.setReg_fencedDecks (s : State) (c n : Nat) (r : Reg) : (s.setReg c n r).fencedDecks = s.fencedDecks := rfl

/-! ### setThread -/

@[simp] theorem State.setThread_cycle (s : State) (c sl : Nat) (t : Thread) : (s.setThread c sl t).cycle = s.cycle := rfl
@[simp] theorem State.setThread_timeQ (s : State) (c sl : Nat) (t : Thread) : (s.setThread c sl t).timeQ = s.timeQ := rfl
@[simp] theorem State.setThread_sag (s : State) (c sl : Nat) (t : Thread) : (s.setThread c sl t).sag = s.sag := rfl
@[simp] theorem State.setThread_locked (s : State) (c sl : Nat) (t : Thread) : (s.setThread c sl t).locked = s.locked := rfl
@[simp] theorem State.setThread_slew (s : State) (c sl : Nat) (t : Thread) : (s.setThread c sl t).slew = s.slew := rfl
@[simp] theorem State.setThread_stretched (s : State) (c sl : Nat) (t : Thread) : (s.setThread c sl t).stretched = s.stretched := rfl
@[simp] theorem State.setThread_order (s : State) (c sl : Nat) (t : Thread) : (s.setThread c sl t).order = s.order := rfl
@[simp] theorem State.setThread_uid (s : State) (c sl : Nat) (t : Thread) : (s.setThread c sl t).uid = s.uid := rfl
@[simp] theorem State.setThread_cur (s : State) (c sl : Nat) (t : Thread) : (s.setThread c sl t).cur = s.cur := rfl
@[simp] theorem State.setThread_arg (s : State) (c sl : Nat) (t : Thread) : (s.setThread c sl t).arg = s.arg := rfl
@[simp] theorem State.setThread_inputs (s : State) (c sl : Nat) (t : Thread) : (s.setThread c sl t).inputs = s.inputs := rfl
@[simp] theorem State.setThread_draws (s : State) (c sl : Nat) (t : Thread) : (s.setThread c sl t).draws = s.draws := rfl
@[simp] theorem State.setThread_estimates (s : State) (c sl : Nat) (t : Thread) : (s.setThread c sl t).estimates = s.estimates := rfl
@[simp] theorem State.setThread_regs (s : State) (c sl : Nat) (t : Thread) : (s.setThread c sl t).regs = s.regs := rfl
@[simp] theorem State.setThread_wrote (s : State) (c sl : Nat) (t : Thread) : (s.setThread c sl t).wrote = s.wrote := rfl
@[simp] theorem State.setThread_cores (s : State) (c sl : Nat) (t : Thread) : (s.setThread c sl t).cores = s.cores := rfl
@[simp] theorem State.setThread_mem (s : State) (c sl : Nat) (t : Thread) : (s.setThread c sl t).mem = s.mem := rfl
@[simp] theorem State.setThread_scratch (s : State) (c sl : Nat) (t : Thread) : (s.setThread c sl t).scratch = s.scratch := rfl
@[simp] theorem State.setThread_epochs (s : State) (c sl : Nat) (t : Thread) : (s.setThread c sl t).epochs = s.epochs := rfl
@[simp] theorem State.setThread_badWords (s : State) (c sl : Nat) (t : Thread) : (s.setThread c sl t).badWords = s.badWords := rfl
@[simp] theorem State.setThread_lost (s : State) (c sl : Nat) (t : Thread) : (s.setThread c sl t).lost = s.lost := rfl
@[simp] theorem State.setThread_lines (s : State) (c sl : Nat) (t : Thread) : (s.setThread c sl t).lines = s.lines := rfl
@[simp] theorem State.setThread_dirty (s : State) (c sl : Nat) (t : Thread) : (s.setThread c sl t).dirty = s.dirty := rfl
@[simp] theorem State.setThread_l2 (s : State) (c sl : Nat) (t : Thread) : (s.setThread c sl t).l2 = s.l2 := rfl
@[simp] theorem State.setThread_cleared (s : State) (c sl : Nat) (t : Thread) : (s.setThread c sl t).cleared = s.cleared := rfl
@[simp] theorem State.setThread_ptes (s : State) (c sl : Nat) (t : Thread) : (s.setThread c sl t).ptes = s.ptes := rfl
@[simp] theorem State.setThread_pages (s : State) (c sl : Nat) (t : Thread) : (s.setThread c sl t).pages = s.pages := rfl
@[simp] theorem State.setThread_pend (s : State) (c sl : Nat) (t : Thread) : (s.setThread c sl t).pend = s.pend := rfl
@[simp] theorem State.setThread_passed (s : State) (c sl : Nat) (t : Thread) : (s.setThread c sl t).passed = s.passed := rfl
@[simp] theorem State.setThread_fences (s : State) (c sl : Nat) (t : Thread) : (s.setThread c sl t).fences = s.fences := rfl
@[simp] theorem State.setThread_arrivals (s : State) (c sl : Nat) (t : Thread) : (s.setThread c sl t).arrivals = s.arrivals := rfl
@[simp] theorem State.setThread_posts (s : State) (c sl : Nat) (t : Thread) : (s.setThread c sl t).posts = s.posts := rfl
@[simp] theorem State.setThread_nwrites (s : State) (c sl : Nat) (t : Thread) : (s.setThread c sl t).nwrites = s.nwrites := rfl
@[simp] theorem State.setThread_wakes (s : State) (c sl : Nat) (t : Thread) : (s.setThread c sl t).wakes = s.wakes := rfl
@[simp] theorem State.setThread_traps (s : State) (c sl : Nat) (t : Thread) : (s.setThread c sl t).traps = s.traps := rfl
@[simp] theorem State.setThread_active (s : State) (c sl : Nat) (t : Thread) : (s.setThread c sl t).active = s.active := rfl
@[simp] theorem State.setThread_locks (s : State) (c sl : Nat) (t : Thread) : (s.setThread c sl t).locks = s.locks := rfl
@[simp] theorem State.setThread_copyTurn (s : State) (c sl : Nat) (t : Thread) : (s.setThread c sl t).copyTurn = s.copyTurn := rfl
@[simp] theorem State.setThread_routeTurn (s : State) (c sl : Nat) (t : Thread) : (s.setThread c sl t).routeTurn = s.routeTurn := rfl
@[simp] theorem State.setThread_barriers (s : State) (c sl : Nat) (t : Thread) : (s.setThread c sl t).barriers = s.barriers := rfl
@[simp] theorem State.setThread_ctxs (s : State) (c sl : Nat) (t : Thread) : (s.setThread c sl t).ctxs = s.ctxs := rfl
@[simp] theorem State.setThread_nextAge (s : State) (c sl : Nat) (t : Thread) : (s.setThread c sl t).nextAge = s.nextAge := rfl
@[simp] theorem State.setThread_keystone (s : State) (c sl : Nat) (t : Thread) : (s.setThread c sl t).keystone = s.keystone := rfl
@[simp] theorem State.setThread_ports (s : State) (c sl : Nat) (t : Thread) : (s.setThread c sl t).ports = s.ports := rfl
@[simp] theorem State.setThread_messages (s : State) (c sl : Nat) (t : Thread) : (s.setThread c sl t).messages = s.messages := rfl
@[simp] theorem State.setThread_joins (s : State) (c sl : Nat) (t : Thread) : (s.setThread c sl t).joins = s.joins := rfl
@[simp] theorem State.setThread_collEnded (s : State) (c sl : Nat) (t : Thread) : (s.setThread c sl t).collEnded = s.collEnded := rfl
@[simp] theorem State.setThread_host (s : State) (c sl : Nat) (t : Thread) : (s.setThread c sl t).host = s.host := rfl
@[simp] theorem State.setThread_samples (s : State) (c sl : Nat) (t : Thread) : (s.setThread c sl t).samples = s.samples := rfl
@[simp] theorem State.setThread_outgoing (s : State) (c sl : Nat) (t : Thread) : (s.setThread c sl t).outgoing = s.outgoing := rfl
@[simp] theorem State.setThread_log (s : State) (c sl : Nat) (t : Thread) : (s.setThread c sl t).log = s.log := rfl
@[simp] theorem State.setThread_logSeq (s : State) (c sl : Nat) (t : Thread) : (s.setThread c sl t).logSeq = s.logSeq := rfl
@[simp] theorem State.setThread_correctedNow (s : State) (c sl : Nat) (t : Thread) : (s.setThread c sl t).correctedNow = s.correctedNow := rfl
@[simp] theorem State.setThread_correctedAt (s : State) (c sl : Nat) (t : Thread) : (s.setThread c sl t).correctedAt = s.correctedAt := rfl
@[simp] theorem State.setThread_doomed (s : State) (c sl : Nat) (t : Thread) : (s.setThread c sl t).doomed = s.doomed := rfl
@[simp] theorem State.setThread_dispatch (s : State) (c sl : Nat) (t : Thread) : (s.setThread c sl t).dispatch = s.dispatch := rfl
@[simp] theorem State.setThread_fencedDecks (s : State) (c sl : Nat) (t : Thread) : (s.setThread c sl t).fencedDecks = s.fencedDecks := rfl

/-! ### freeSlot -/

@[simp] theorem State.freeSlot_cycle (s : State) (c sl : Nat) : (s.freeSlot c sl).cycle = s.cycle := rfl
@[simp] theorem State.freeSlot_timeQ (s : State) (c sl : Nat) : (s.freeSlot c sl).timeQ = s.timeQ := rfl
@[simp] theorem State.freeSlot_sag (s : State) (c sl : Nat) : (s.freeSlot c sl).sag = s.sag := rfl
@[simp] theorem State.freeSlot_locked (s : State) (c sl : Nat) : (s.freeSlot c sl).locked = s.locked := rfl
@[simp] theorem State.freeSlot_slew (s : State) (c sl : Nat) : (s.freeSlot c sl).slew = s.slew := rfl
@[simp] theorem State.freeSlot_stretched (s : State) (c sl : Nat) : (s.freeSlot c sl).stretched = s.stretched := rfl
@[simp] theorem State.freeSlot_order (s : State) (c sl : Nat) : (s.freeSlot c sl).order = s.order := rfl
@[simp] theorem State.freeSlot_uid (s : State) (c sl : Nat) : (s.freeSlot c sl).uid = s.uid := rfl
@[simp] theorem State.freeSlot_cur (s : State) (c sl : Nat) : (s.freeSlot c sl).cur = s.cur := rfl
@[simp] theorem State.freeSlot_arg (s : State) (c sl : Nat) : (s.freeSlot c sl).arg = s.arg := rfl
@[simp] theorem State.freeSlot_inputs (s : State) (c sl : Nat) : (s.freeSlot c sl).inputs = s.inputs := rfl
@[simp] theorem State.freeSlot_draws (s : State) (c sl : Nat) : (s.freeSlot c sl).draws = s.draws := rfl
@[simp] theorem State.freeSlot_estimates (s : State) (c sl : Nat) : (s.freeSlot c sl).estimates = s.estimates := rfl
@[simp] theorem State.freeSlot_regs (s : State) (c sl : Nat) : (s.freeSlot c sl).regs = s.regs := rfl
@[simp] theorem State.freeSlot_wrote (s : State) (c sl : Nat) : (s.freeSlot c sl).wrote = s.wrote := rfl
@[simp] theorem State.freeSlot_cores (s : State) (c sl : Nat) : (s.freeSlot c sl).cores = s.cores := rfl
@[simp] theorem State.freeSlot_mem (s : State) (c sl : Nat) : (s.freeSlot c sl).mem = s.mem := rfl
@[simp] theorem State.freeSlot_scratch (s : State) (c sl : Nat) : (s.freeSlot c sl).scratch = s.scratch := rfl
@[simp] theorem State.freeSlot_epochs (s : State) (c sl : Nat) : (s.freeSlot c sl).epochs = s.epochs := rfl
@[simp] theorem State.freeSlot_badWords (s : State) (c sl : Nat) : (s.freeSlot c sl).badWords = s.badWords := rfl
@[simp] theorem State.freeSlot_lost (s : State) (c sl : Nat) : (s.freeSlot c sl).lost = s.lost := rfl
@[simp] theorem State.freeSlot_lines (s : State) (c sl : Nat) : (s.freeSlot c sl).lines = s.lines := rfl
@[simp] theorem State.freeSlot_dirty (s : State) (c sl : Nat) : (s.freeSlot c sl).dirty = s.dirty := rfl
@[simp] theorem State.freeSlot_l2 (s : State) (c sl : Nat) : (s.freeSlot c sl).l2 = s.l2 := rfl
@[simp] theorem State.freeSlot_cleared (s : State) (c sl : Nat) : (s.freeSlot c sl).cleared = s.cleared := rfl
@[simp] theorem State.freeSlot_ptes (s : State) (c sl : Nat) : (s.freeSlot c sl).ptes = s.ptes := rfl
@[simp] theorem State.freeSlot_pages (s : State) (c sl : Nat) : (s.freeSlot c sl).pages = s.pages := rfl
@[simp] theorem State.freeSlot_pend (s : State) (c sl : Nat) : (s.freeSlot c sl).pend = s.pend := rfl
@[simp] theorem State.freeSlot_passed (s : State) (c sl : Nat) : (s.freeSlot c sl).passed = s.passed := rfl
@[simp] theorem State.freeSlot_fences (s : State) (c sl : Nat) : (s.freeSlot c sl).fences = s.fences := rfl
@[simp] theorem State.freeSlot_arrivals (s : State) (c sl : Nat) : (s.freeSlot c sl).arrivals = s.arrivals := rfl
@[simp] theorem State.freeSlot_posts (s : State) (c sl : Nat) : (s.freeSlot c sl).posts = s.posts := rfl
@[simp] theorem State.freeSlot_nwrites (s : State) (c sl : Nat) : (s.freeSlot c sl).nwrites = s.nwrites := rfl
@[simp] theorem State.freeSlot_wakes (s : State) (c sl : Nat) : (s.freeSlot c sl).wakes = s.wakes := rfl
@[simp] theorem State.freeSlot_traps (s : State) (c sl : Nat) : (s.freeSlot c sl).traps = s.traps := rfl
@[simp] theorem State.freeSlot_active (s : State) (c sl : Nat) : (s.freeSlot c sl).active = s.active := rfl
@[simp] theorem State.freeSlot_locks (s : State) (c sl : Nat) : (s.freeSlot c sl).locks = s.locks := rfl
@[simp] theorem State.freeSlot_copyTurn (s : State) (c sl : Nat) : (s.freeSlot c sl).copyTurn = s.copyTurn := rfl
@[simp] theorem State.freeSlot_routeTurn (s : State) (c sl : Nat) : (s.freeSlot c sl).routeTurn = s.routeTurn := rfl
@[simp] theorem State.freeSlot_barriers (s : State) (c sl : Nat) : (s.freeSlot c sl).barriers = s.barriers := rfl
@[simp] theorem State.freeSlot_ctxs (s : State) (c sl : Nat) : (s.freeSlot c sl).ctxs = s.ctxs := rfl
@[simp] theorem State.freeSlot_nextAge (s : State) (c sl : Nat) : (s.freeSlot c sl).nextAge = s.nextAge := rfl
@[simp] theorem State.freeSlot_keystone (s : State) (c sl : Nat) : (s.freeSlot c sl).keystone = s.keystone := rfl
@[simp] theorem State.freeSlot_ports (s : State) (c sl : Nat) : (s.freeSlot c sl).ports = s.ports := rfl
@[simp] theorem State.freeSlot_messages (s : State) (c sl : Nat) : (s.freeSlot c sl).messages = s.messages := rfl
@[simp] theorem State.freeSlot_joins (s : State) (c sl : Nat) : (s.freeSlot c sl).joins = s.joins := rfl
@[simp] theorem State.freeSlot_collEnded (s : State) (c sl : Nat) : (s.freeSlot c sl).collEnded = s.collEnded := rfl
@[simp] theorem State.freeSlot_host (s : State) (c sl : Nat) : (s.freeSlot c sl).host = s.host := rfl
@[simp] theorem State.freeSlot_samples (s : State) (c sl : Nat) : (s.freeSlot c sl).samples = s.samples := rfl
@[simp] theorem State.freeSlot_outgoing (s : State) (c sl : Nat) : (s.freeSlot c sl).outgoing = s.outgoing := rfl
@[simp] theorem State.freeSlot_log (s : State) (c sl : Nat) : (s.freeSlot c sl).log = s.log := rfl
@[simp] theorem State.freeSlot_logSeq (s : State) (c sl : Nat) : (s.freeSlot c sl).logSeq = s.logSeq := rfl
@[simp] theorem State.freeSlot_correctedNow (s : State) (c sl : Nat) : (s.freeSlot c sl).correctedNow = s.correctedNow := rfl
@[simp] theorem State.freeSlot_correctedAt (s : State) (c sl : Nat) : (s.freeSlot c sl).correctedAt = s.correctedAt := rfl
@[simp] theorem State.freeSlot_doomed (s : State) (c sl : Nat) : (s.freeSlot c sl).doomed = s.doomed := rfl
@[simp] theorem State.freeSlot_dispatch (s : State) (c sl : Nat) : (s.freeSlot c sl).dispatch = s.dispatch := rfl
@[simp] theorem State.freeSlot_fencedDecks (s : State) (c sl : Nat) : (s.freeSlot c sl).fencedDecks = s.fencedDecks := rfl

/-! ### setCore -/

@[simp] theorem State.setCore_cycle (s : State) (c : Nat) (k : Core) : (s.setCore c k).cycle = s.cycle := rfl
@[simp] theorem State.setCore_timeQ (s : State) (c : Nat) (k : Core) : (s.setCore c k).timeQ = s.timeQ := rfl
@[simp] theorem State.setCore_sag (s : State) (c : Nat) (k : Core) : (s.setCore c k).sag = s.sag := rfl
@[simp] theorem State.setCore_locked (s : State) (c : Nat) (k : Core) : (s.setCore c k).locked = s.locked := rfl
@[simp] theorem State.setCore_slew (s : State) (c : Nat) (k : Core) : (s.setCore c k).slew = s.slew := rfl
@[simp] theorem State.setCore_stretched (s : State) (c : Nat) (k : Core) : (s.setCore c k).stretched = s.stretched := rfl
@[simp] theorem State.setCore_order (s : State) (c : Nat) (k : Core) : (s.setCore c k).order = s.order := rfl
@[simp] theorem State.setCore_uid (s : State) (c : Nat) (k : Core) : (s.setCore c k).uid = s.uid := rfl
@[simp] theorem State.setCore_cur (s : State) (c : Nat) (k : Core) : (s.setCore c k).cur = s.cur := rfl
@[simp] theorem State.setCore_arg (s : State) (c : Nat) (k : Core) : (s.setCore c k).arg = s.arg := rfl
@[simp] theorem State.setCore_inputs (s : State) (c : Nat) (k : Core) : (s.setCore c k).inputs = s.inputs := rfl
@[simp] theorem State.setCore_draws (s : State) (c : Nat) (k : Core) : (s.setCore c k).draws = s.draws := rfl
@[simp] theorem State.setCore_estimates (s : State) (c : Nat) (k : Core) : (s.setCore c k).estimates = s.estimates := rfl
@[simp] theorem State.setCore_regs (s : State) (c : Nat) (k : Core) : (s.setCore c k).regs = s.regs := rfl
@[simp] theorem State.setCore_wrote (s : State) (c : Nat) (k : Core) : (s.setCore c k).wrote = s.wrote := rfl
@[simp] theorem State.setCore_threads (s : State) (c : Nat) (k : Core) : (s.setCore c k).threads = s.threads := rfl
@[simp] theorem State.setCore_mem (s : State) (c : Nat) (k : Core) : (s.setCore c k).mem = s.mem := rfl
@[simp] theorem State.setCore_scratch (s : State) (c : Nat) (k : Core) : (s.setCore c k).scratch = s.scratch := rfl
@[simp] theorem State.setCore_epochs (s : State) (c : Nat) (k : Core) : (s.setCore c k).epochs = s.epochs := rfl
@[simp] theorem State.setCore_badWords (s : State) (c : Nat) (k : Core) : (s.setCore c k).badWords = s.badWords := rfl
@[simp] theorem State.setCore_lost (s : State) (c : Nat) (k : Core) : (s.setCore c k).lost = s.lost := rfl
@[simp] theorem State.setCore_lines (s : State) (c : Nat) (k : Core) : (s.setCore c k).lines = s.lines := rfl
@[simp] theorem State.setCore_dirty (s : State) (c : Nat) (k : Core) : (s.setCore c k).dirty = s.dirty := rfl
@[simp] theorem State.setCore_l2 (s : State) (c : Nat) (k : Core) : (s.setCore c k).l2 = s.l2 := rfl
@[simp] theorem State.setCore_cleared (s : State) (c : Nat) (k : Core) : (s.setCore c k).cleared = s.cleared := rfl
@[simp] theorem State.setCore_ptes (s : State) (c : Nat) (k : Core) : (s.setCore c k).ptes = s.ptes := rfl
@[simp] theorem State.setCore_pages (s : State) (c : Nat) (k : Core) : (s.setCore c k).pages = s.pages := rfl
@[simp] theorem State.setCore_pend (s : State) (c : Nat) (k : Core) : (s.setCore c k).pend = s.pend := rfl
@[simp] theorem State.setCore_passed (s : State) (c : Nat) (k : Core) : (s.setCore c k).passed = s.passed := rfl
@[simp] theorem State.setCore_fences (s : State) (c : Nat) (k : Core) : (s.setCore c k).fences = s.fences := rfl
@[simp] theorem State.setCore_arrivals (s : State) (c : Nat) (k : Core) : (s.setCore c k).arrivals = s.arrivals := rfl
@[simp] theorem State.setCore_posts (s : State) (c : Nat) (k : Core) : (s.setCore c k).posts = s.posts := rfl
@[simp] theorem State.setCore_nwrites (s : State) (c : Nat) (k : Core) : (s.setCore c k).nwrites = s.nwrites := rfl
@[simp] theorem State.setCore_wakes (s : State) (c : Nat) (k : Core) : (s.setCore c k).wakes = s.wakes := rfl
@[simp] theorem State.setCore_traps (s : State) (c : Nat) (k : Core) : (s.setCore c k).traps = s.traps := rfl
@[simp] theorem State.setCore_active (s : State) (c : Nat) (k : Core) : (s.setCore c k).active = s.active := rfl
@[simp] theorem State.setCore_locks (s : State) (c : Nat) (k : Core) : (s.setCore c k).locks = s.locks := rfl
@[simp] theorem State.setCore_copyTurn (s : State) (c : Nat) (k : Core) : (s.setCore c k).copyTurn = s.copyTurn := rfl
@[simp] theorem State.setCore_routeTurn (s : State) (c : Nat) (k : Core) : (s.setCore c k).routeTurn = s.routeTurn := rfl
@[simp] theorem State.setCore_barriers (s : State) (c : Nat) (k : Core) : (s.setCore c k).barriers = s.barriers := rfl
@[simp] theorem State.setCore_ctxs (s : State) (c : Nat) (k : Core) : (s.setCore c k).ctxs = s.ctxs := rfl
@[simp] theorem State.setCore_nextAge (s : State) (c : Nat) (k : Core) : (s.setCore c k).nextAge = s.nextAge := rfl
@[simp] theorem State.setCore_keystone (s : State) (c : Nat) (k : Core) : (s.setCore c k).keystone = s.keystone := rfl
@[simp] theorem State.setCore_ports (s : State) (c : Nat) (k : Core) : (s.setCore c k).ports = s.ports := rfl
@[simp] theorem State.setCore_messages (s : State) (c : Nat) (k : Core) : (s.setCore c k).messages = s.messages := rfl
@[simp] theorem State.setCore_joins (s : State) (c : Nat) (k : Core) : (s.setCore c k).joins = s.joins := rfl
@[simp] theorem State.setCore_collEnded (s : State) (c : Nat) (k : Core) : (s.setCore c k).collEnded = s.collEnded := rfl
@[simp] theorem State.setCore_host (s : State) (c : Nat) (k : Core) : (s.setCore c k).host = s.host := rfl
@[simp] theorem State.setCore_samples (s : State) (c : Nat) (k : Core) : (s.setCore c k).samples = s.samples := rfl
@[simp] theorem State.setCore_outgoing (s : State) (c : Nat) (k : Core) : (s.setCore c k).outgoing = s.outgoing := rfl
@[simp] theorem State.setCore_log (s : State) (c : Nat) (k : Core) : (s.setCore c k).log = s.log := rfl
@[simp] theorem State.setCore_logSeq (s : State) (c : Nat) (k : Core) : (s.setCore c k).logSeq = s.logSeq := rfl
@[simp] theorem State.setCore_correctedNow (s : State) (c : Nat) (k : Core) : (s.setCore c k).correctedNow = s.correctedNow := rfl
@[simp] theorem State.setCore_correctedAt (s : State) (c : Nat) (k : Core) : (s.setCore c k).correctedAt = s.correctedAt := rfl
@[simp] theorem State.setCore_doomed (s : State) (c : Nat) (k : Core) : (s.setCore c k).doomed = s.doomed := rfl
@[simp] theorem State.setCore_dispatch (s : State) (c : Nat) (k : Core) : (s.setCore c k).dispatch = s.dispatch := rfl
@[simp] theorem State.setCore_fencedDecks (s : State) (c : Nat) (k : Core) : (s.setCore c k).fencedDecks = s.fencedDecks := rfl

/-! ### setCtx -/

@[simp] theorem State.setCtx_cycle (s : State) (p : Nat) (x : Ctx) : (s.setCtx p x).cycle = s.cycle := rfl
@[simp] theorem State.setCtx_timeQ (s : State) (p : Nat) (x : Ctx) : (s.setCtx p x).timeQ = s.timeQ := rfl
@[simp] theorem State.setCtx_sag (s : State) (p : Nat) (x : Ctx) : (s.setCtx p x).sag = s.sag := rfl
@[simp] theorem State.setCtx_locked (s : State) (p : Nat) (x : Ctx) : (s.setCtx p x).locked = s.locked := rfl
@[simp] theorem State.setCtx_slew (s : State) (p : Nat) (x : Ctx) : (s.setCtx p x).slew = s.slew := rfl
@[simp] theorem State.setCtx_stretched (s : State) (p : Nat) (x : Ctx) : (s.setCtx p x).stretched = s.stretched := rfl
@[simp] theorem State.setCtx_order (s : State) (p : Nat) (x : Ctx) : (s.setCtx p x).order = s.order := rfl
@[simp] theorem State.setCtx_uid (s : State) (p : Nat) (x : Ctx) : (s.setCtx p x).uid = s.uid := rfl
@[simp] theorem State.setCtx_cur (s : State) (p : Nat) (x : Ctx) : (s.setCtx p x).cur = s.cur := rfl
@[simp] theorem State.setCtx_arg (s : State) (p : Nat) (x : Ctx) : (s.setCtx p x).arg = s.arg := rfl
@[simp] theorem State.setCtx_inputs (s : State) (p : Nat) (x : Ctx) : (s.setCtx p x).inputs = s.inputs := rfl
@[simp] theorem State.setCtx_draws (s : State) (p : Nat) (x : Ctx) : (s.setCtx p x).draws = s.draws := rfl
@[simp] theorem State.setCtx_estimates (s : State) (p : Nat) (x : Ctx) : (s.setCtx p x).estimates = s.estimates := rfl
@[simp] theorem State.setCtx_regs (s : State) (p : Nat) (x : Ctx) : (s.setCtx p x).regs = s.regs := rfl
@[simp] theorem State.setCtx_wrote (s : State) (p : Nat) (x : Ctx) : (s.setCtx p x).wrote = s.wrote := rfl
@[simp] theorem State.setCtx_threads (s : State) (p : Nat) (x : Ctx) : (s.setCtx p x).threads = s.threads := rfl
@[simp] theorem State.setCtx_cores (s : State) (p : Nat) (x : Ctx) : (s.setCtx p x).cores = s.cores := rfl
@[simp] theorem State.setCtx_mem (s : State) (p : Nat) (x : Ctx) : (s.setCtx p x).mem = s.mem := rfl
@[simp] theorem State.setCtx_scratch (s : State) (p : Nat) (x : Ctx) : (s.setCtx p x).scratch = s.scratch := rfl
@[simp] theorem State.setCtx_epochs (s : State) (p : Nat) (x : Ctx) : (s.setCtx p x).epochs = s.epochs := rfl
@[simp] theorem State.setCtx_badWords (s : State) (p : Nat) (x : Ctx) : (s.setCtx p x).badWords = s.badWords := rfl
@[simp] theorem State.setCtx_lost (s : State) (p : Nat) (x : Ctx) : (s.setCtx p x).lost = s.lost := rfl
@[simp] theorem State.setCtx_lines (s : State) (p : Nat) (x : Ctx) : (s.setCtx p x).lines = s.lines := rfl
@[simp] theorem State.setCtx_dirty (s : State) (p : Nat) (x : Ctx) : (s.setCtx p x).dirty = s.dirty := rfl
@[simp] theorem State.setCtx_l2 (s : State) (p : Nat) (x : Ctx) : (s.setCtx p x).l2 = s.l2 := rfl
@[simp] theorem State.setCtx_cleared (s : State) (p : Nat) (x : Ctx) : (s.setCtx p x).cleared = s.cleared := rfl
@[simp] theorem State.setCtx_ptes (s : State) (p : Nat) (x : Ctx) : (s.setCtx p x).ptes = s.ptes := rfl
@[simp] theorem State.setCtx_pages (s : State) (p : Nat) (x : Ctx) : (s.setCtx p x).pages = s.pages := rfl
@[simp] theorem State.setCtx_pend (s : State) (p : Nat) (x : Ctx) : (s.setCtx p x).pend = s.pend := rfl
@[simp] theorem State.setCtx_passed (s : State) (p : Nat) (x : Ctx) : (s.setCtx p x).passed = s.passed := rfl
@[simp] theorem State.setCtx_fences (s : State) (p : Nat) (x : Ctx) : (s.setCtx p x).fences = s.fences := rfl
@[simp] theorem State.setCtx_arrivals (s : State) (p : Nat) (x : Ctx) : (s.setCtx p x).arrivals = s.arrivals := rfl
@[simp] theorem State.setCtx_posts (s : State) (p : Nat) (x : Ctx) : (s.setCtx p x).posts = s.posts := rfl
@[simp] theorem State.setCtx_nwrites (s : State) (p : Nat) (x : Ctx) : (s.setCtx p x).nwrites = s.nwrites := rfl
@[simp] theorem State.setCtx_wakes (s : State) (p : Nat) (x : Ctx) : (s.setCtx p x).wakes = s.wakes := rfl
@[simp] theorem State.setCtx_traps (s : State) (p : Nat) (x : Ctx) : (s.setCtx p x).traps = s.traps := rfl
@[simp] theorem State.setCtx_active (s : State) (p : Nat) (x : Ctx) : (s.setCtx p x).active = s.active := rfl
@[simp] theorem State.setCtx_locks (s : State) (p : Nat) (x : Ctx) : (s.setCtx p x).locks = s.locks := rfl
@[simp] theorem State.setCtx_copyTurn (s : State) (p : Nat) (x : Ctx) : (s.setCtx p x).copyTurn = s.copyTurn := rfl
@[simp] theorem State.setCtx_routeTurn (s : State) (p : Nat) (x : Ctx) : (s.setCtx p x).routeTurn = s.routeTurn := rfl
@[simp] theorem State.setCtx_barriers (s : State) (p : Nat) (x : Ctx) : (s.setCtx p x).barriers = s.barriers := rfl
@[simp] theorem State.setCtx_nextAge (s : State) (p : Nat) (x : Ctx) : (s.setCtx p x).nextAge = s.nextAge := rfl
@[simp] theorem State.setCtx_keystone (s : State) (p : Nat) (x : Ctx) : (s.setCtx p x).keystone = s.keystone := rfl
@[simp] theorem State.setCtx_ports (s : State) (p : Nat) (x : Ctx) : (s.setCtx p x).ports = s.ports := rfl
@[simp] theorem State.setCtx_messages (s : State) (p : Nat) (x : Ctx) : (s.setCtx p x).messages = s.messages := rfl
@[simp] theorem State.setCtx_joins (s : State) (p : Nat) (x : Ctx) : (s.setCtx p x).joins = s.joins := rfl
@[simp] theorem State.setCtx_collEnded (s : State) (p : Nat) (x : Ctx) : (s.setCtx p x).collEnded = s.collEnded := rfl
@[simp] theorem State.setCtx_host (s : State) (p : Nat) (x : Ctx) : (s.setCtx p x).host = s.host := rfl
@[simp] theorem State.setCtx_samples (s : State) (p : Nat) (x : Ctx) : (s.setCtx p x).samples = s.samples := rfl
@[simp] theorem State.setCtx_outgoing (s : State) (p : Nat) (x : Ctx) : (s.setCtx p x).outgoing = s.outgoing := rfl
@[simp] theorem State.setCtx_log (s : State) (p : Nat) (x : Ctx) : (s.setCtx p x).log = s.log := rfl
@[simp] theorem State.setCtx_logSeq (s : State) (p : Nat) (x : Ctx) : (s.setCtx p x).logSeq = s.logSeq := rfl
@[simp] theorem State.setCtx_correctedNow (s : State) (p : Nat) (x : Ctx) : (s.setCtx p x).correctedNow = s.correctedNow := rfl
@[simp] theorem State.setCtx_correctedAt (s : State) (p : Nat) (x : Ctx) : (s.setCtx p x).correctedAt = s.correctedAt := rfl
@[simp] theorem State.setCtx_doomed (s : State) (p : Nat) (x : Ctx) : (s.setCtx p x).doomed = s.doomed := rfl
@[simp] theorem State.setCtx_dispatch (s : State) (p : Nat) (x : Ctx) : (s.setCtx p x).dispatch = s.dispatch := rfl
@[simp] theorem State.setCtx_fencedDecks (s : State) (p : Nat) (x : Ctx) : (s.setCtx p x).fencedDecks = s.fencedDecks := rfl

/-! ### modThread -/

@[simp] theorem State.modThread_cycle (s : State) (c sl : Nat) (f : Thread → Thread) : (s.modThread c sl f).cycle = s.cycle := by
  unfold State.modThread; split <;> rfl
@[simp] theorem State.modThread_timeQ (s : State) (c sl : Nat) (f : Thread → Thread) : (s.modThread c sl f).timeQ = s.timeQ := by
  unfold State.modThread; split <;> rfl
@[simp] theorem State.modThread_sag (s : State) (c sl : Nat) (f : Thread → Thread) : (s.modThread c sl f).sag = s.sag := by
  unfold State.modThread; split <;> rfl
@[simp] theorem State.modThread_locked (s : State) (c sl : Nat) (f : Thread → Thread) : (s.modThread c sl f).locked = s.locked := by
  unfold State.modThread; split <;> rfl
@[simp] theorem State.modThread_slew (s : State) (c sl : Nat) (f : Thread → Thread) : (s.modThread c sl f).slew = s.slew := by
  unfold State.modThread; split <;> rfl
@[simp] theorem State.modThread_stretched (s : State) (c sl : Nat) (f : Thread → Thread) : (s.modThread c sl f).stretched = s.stretched := by
  unfold State.modThread; split <;> rfl
@[simp] theorem State.modThread_order (s : State) (c sl : Nat) (f : Thread → Thread) : (s.modThread c sl f).order = s.order := by
  unfold State.modThread; split <;> rfl
@[simp] theorem State.modThread_uid (s : State) (c sl : Nat) (f : Thread → Thread) : (s.modThread c sl f).uid = s.uid := by
  unfold State.modThread; split <;> rfl
@[simp] theorem State.modThread_cur (s : State) (c sl : Nat) (f : Thread → Thread) : (s.modThread c sl f).cur = s.cur := by
  unfold State.modThread; split <;> rfl
@[simp] theorem State.modThread_arg (s : State) (c sl : Nat) (f : Thread → Thread) : (s.modThread c sl f).arg = s.arg := by
  unfold State.modThread; split <;> rfl
@[simp] theorem State.modThread_inputs (s : State) (c sl : Nat) (f : Thread → Thread) : (s.modThread c sl f).inputs = s.inputs := by
  unfold State.modThread; split <;> rfl
@[simp] theorem State.modThread_draws (s : State) (c sl : Nat) (f : Thread → Thread) : (s.modThread c sl f).draws = s.draws := by
  unfold State.modThread; split <;> rfl
@[simp] theorem State.modThread_estimates (s : State) (c sl : Nat) (f : Thread → Thread) : (s.modThread c sl f).estimates = s.estimates := by
  unfold State.modThread; split <;> rfl
@[simp] theorem State.modThread_regs (s : State) (c sl : Nat) (f : Thread → Thread) : (s.modThread c sl f).regs = s.regs := by
  unfold State.modThread; split <;> rfl
@[simp] theorem State.modThread_wrote (s : State) (c sl : Nat) (f : Thread → Thread) : (s.modThread c sl f).wrote = s.wrote := by
  unfold State.modThread; split <;> rfl
@[simp] theorem State.modThread_cores (s : State) (c sl : Nat) (f : Thread → Thread) : (s.modThread c sl f).cores = s.cores := by
  unfold State.modThread; split <;> rfl
@[simp] theorem State.modThread_mem (s : State) (c sl : Nat) (f : Thread → Thread) : (s.modThread c sl f).mem = s.mem := by
  unfold State.modThread; split <;> rfl
@[simp] theorem State.modThread_scratch (s : State) (c sl : Nat) (f : Thread → Thread) : (s.modThread c sl f).scratch = s.scratch := by
  unfold State.modThread; split <;> rfl
@[simp] theorem State.modThread_epochs (s : State) (c sl : Nat) (f : Thread → Thread) : (s.modThread c sl f).epochs = s.epochs := by
  unfold State.modThread; split <;> rfl
@[simp] theorem State.modThread_badWords (s : State) (c sl : Nat) (f : Thread → Thread) : (s.modThread c sl f).badWords = s.badWords := by
  unfold State.modThread; split <;> rfl
@[simp] theorem State.modThread_lost (s : State) (c sl : Nat) (f : Thread → Thread) : (s.modThread c sl f).lost = s.lost := by
  unfold State.modThread; split <;> rfl
@[simp] theorem State.modThread_lines (s : State) (c sl : Nat) (f : Thread → Thread) : (s.modThread c sl f).lines = s.lines := by
  unfold State.modThread; split <;> rfl
@[simp] theorem State.modThread_dirty (s : State) (c sl : Nat) (f : Thread → Thread) : (s.modThread c sl f).dirty = s.dirty := by
  unfold State.modThread; split <;> rfl
@[simp] theorem State.modThread_l2 (s : State) (c sl : Nat) (f : Thread → Thread) : (s.modThread c sl f).l2 = s.l2 := by
  unfold State.modThread; split <;> rfl
@[simp] theorem State.modThread_cleared (s : State) (c sl : Nat) (f : Thread → Thread) : (s.modThread c sl f).cleared = s.cleared := by
  unfold State.modThread; split <;> rfl
@[simp] theorem State.modThread_ptes (s : State) (c sl : Nat) (f : Thread → Thread) : (s.modThread c sl f).ptes = s.ptes := by
  unfold State.modThread; split <;> rfl
@[simp] theorem State.modThread_pages (s : State) (c sl : Nat) (f : Thread → Thread) : (s.modThread c sl f).pages = s.pages := by
  unfold State.modThread; split <;> rfl
@[simp] theorem State.modThread_pend (s : State) (c sl : Nat) (f : Thread → Thread) : (s.modThread c sl f).pend = s.pend := by
  unfold State.modThread; split <;> rfl
@[simp] theorem State.modThread_passed (s : State) (c sl : Nat) (f : Thread → Thread) : (s.modThread c sl f).passed = s.passed := by
  unfold State.modThread; split <;> rfl
@[simp] theorem State.modThread_fences (s : State) (c sl : Nat) (f : Thread → Thread) : (s.modThread c sl f).fences = s.fences := by
  unfold State.modThread; split <;> rfl
@[simp] theorem State.modThread_arrivals (s : State) (c sl : Nat) (f : Thread → Thread) : (s.modThread c sl f).arrivals = s.arrivals := by
  unfold State.modThread; split <;> rfl
@[simp] theorem State.modThread_posts (s : State) (c sl : Nat) (f : Thread → Thread) : (s.modThread c sl f).posts = s.posts := by
  unfold State.modThread; split <;> rfl
@[simp] theorem State.modThread_nwrites (s : State) (c sl : Nat) (f : Thread → Thread) : (s.modThread c sl f).nwrites = s.nwrites := by
  unfold State.modThread; split <;> rfl
@[simp] theorem State.modThread_wakes (s : State) (c sl : Nat) (f : Thread → Thread) : (s.modThread c sl f).wakes = s.wakes := by
  unfold State.modThread; split <;> rfl
@[simp] theorem State.modThread_traps (s : State) (c sl : Nat) (f : Thread → Thread) : (s.modThread c sl f).traps = s.traps := by
  unfold State.modThread; split <;> rfl
@[simp] theorem State.modThread_active (s : State) (c sl : Nat) (f : Thread → Thread) : (s.modThread c sl f).active = s.active := by
  unfold State.modThread; split <;> rfl
@[simp] theorem State.modThread_locks (s : State) (c sl : Nat) (f : Thread → Thread) : (s.modThread c sl f).locks = s.locks := by
  unfold State.modThread; split <;> rfl
@[simp] theorem State.modThread_copyTurn (s : State) (c sl : Nat) (f : Thread → Thread) : (s.modThread c sl f).copyTurn = s.copyTurn := by
  unfold State.modThread; split <;> rfl
@[simp] theorem State.modThread_routeTurn (s : State) (c sl : Nat) (f : Thread → Thread) : (s.modThread c sl f).routeTurn = s.routeTurn := by
  unfold State.modThread; split <;> rfl
@[simp] theorem State.modThread_barriers (s : State) (c sl : Nat) (f : Thread → Thread) : (s.modThread c sl f).barriers = s.barriers := by
  unfold State.modThread; split <;> rfl
@[simp] theorem State.modThread_ctxs (s : State) (c sl : Nat) (f : Thread → Thread) : (s.modThread c sl f).ctxs = s.ctxs := by
  unfold State.modThread; split <;> rfl
@[simp] theorem State.modThread_nextAge (s : State) (c sl : Nat) (f : Thread → Thread) : (s.modThread c sl f).nextAge = s.nextAge := by
  unfold State.modThread; split <;> rfl
@[simp] theorem State.modThread_keystone (s : State) (c sl : Nat) (f : Thread → Thread) : (s.modThread c sl f).keystone = s.keystone := by
  unfold State.modThread; split <;> rfl
@[simp] theorem State.modThread_ports (s : State) (c sl : Nat) (f : Thread → Thread) : (s.modThread c sl f).ports = s.ports := by
  unfold State.modThread; split <;> rfl
@[simp] theorem State.modThread_messages (s : State) (c sl : Nat) (f : Thread → Thread) : (s.modThread c sl f).messages = s.messages := by
  unfold State.modThread; split <;> rfl
@[simp] theorem State.modThread_joins (s : State) (c sl : Nat) (f : Thread → Thread) : (s.modThread c sl f).joins = s.joins := by
  unfold State.modThread; split <;> rfl
@[simp] theorem State.modThread_collEnded (s : State) (c sl : Nat) (f : Thread → Thread) : (s.modThread c sl f).collEnded = s.collEnded := by
  unfold State.modThread; split <;> rfl
@[simp] theorem State.modThread_host (s : State) (c sl : Nat) (f : Thread → Thread) : (s.modThread c sl f).host = s.host := by
  unfold State.modThread; split <;> rfl
@[simp] theorem State.modThread_samples (s : State) (c sl : Nat) (f : Thread → Thread) : (s.modThread c sl f).samples = s.samples := by
  unfold State.modThread; split <;> rfl
@[simp] theorem State.modThread_outgoing (s : State) (c sl : Nat) (f : Thread → Thread) : (s.modThread c sl f).outgoing = s.outgoing := by
  unfold State.modThread; split <;> rfl
@[simp] theorem State.modThread_log (s : State) (c sl : Nat) (f : Thread → Thread) : (s.modThread c sl f).log = s.log := by
  unfold State.modThread; split <;> rfl
@[simp] theorem State.modThread_logSeq (s : State) (c sl : Nat) (f : Thread → Thread) : (s.modThread c sl f).logSeq = s.logSeq := by
  unfold State.modThread; split <;> rfl
@[simp] theorem State.modThread_correctedNow (s : State) (c sl : Nat) (f : Thread → Thread) : (s.modThread c sl f).correctedNow = s.correctedNow := by
  unfold State.modThread; split <;> rfl
@[simp] theorem State.modThread_correctedAt (s : State) (c sl : Nat) (f : Thread → Thread) : (s.modThread c sl f).correctedAt = s.correctedAt := by
  unfold State.modThread; split <;> rfl
@[simp] theorem State.modThread_doomed (s : State) (c sl : Nat) (f : Thread → Thread) : (s.modThread c sl f).doomed = s.doomed := by
  unfold State.modThread; split <;> rfl
@[simp] theorem State.modThread_dispatch (s : State) (c sl : Nat) (f : Thread → Thread) : (s.modThread c sl f).dispatch = s.dispatch := by
  unfold State.modThread; split <;> rfl
@[simp] theorem State.modThread_fencedDecks (s : State) (c sl : Nat) (f : Thread → Thread) : (s.modThread c sl f).fencedDecks = s.fencedDecks := by
  unfold State.modThread; split <;> rfl

/-! ### modCore -/

@[simp] theorem State.modCore_cycle (s : State) (c : Nat) (f : Core → Core) : (s.modCore c f).cycle = s.cycle := rfl
@[simp] theorem State.modCore_timeQ (s : State) (c : Nat) (f : Core → Core) : (s.modCore c f).timeQ = s.timeQ := rfl
@[simp] theorem State.modCore_sag (s : State) (c : Nat) (f : Core → Core) : (s.modCore c f).sag = s.sag := rfl
@[simp] theorem State.modCore_locked (s : State) (c : Nat) (f : Core → Core) : (s.modCore c f).locked = s.locked := rfl
@[simp] theorem State.modCore_slew (s : State) (c : Nat) (f : Core → Core) : (s.modCore c f).slew = s.slew := rfl
@[simp] theorem State.modCore_stretched (s : State) (c : Nat) (f : Core → Core) : (s.modCore c f).stretched = s.stretched := rfl
@[simp] theorem State.modCore_order (s : State) (c : Nat) (f : Core → Core) : (s.modCore c f).order = s.order := rfl
@[simp] theorem State.modCore_uid (s : State) (c : Nat) (f : Core → Core) : (s.modCore c f).uid = s.uid := rfl
@[simp] theorem State.modCore_cur (s : State) (c : Nat) (f : Core → Core) : (s.modCore c f).cur = s.cur := rfl
@[simp] theorem State.modCore_arg (s : State) (c : Nat) (f : Core → Core) : (s.modCore c f).arg = s.arg := rfl
@[simp] theorem State.modCore_inputs (s : State) (c : Nat) (f : Core → Core) : (s.modCore c f).inputs = s.inputs := rfl
@[simp] theorem State.modCore_draws (s : State) (c : Nat) (f : Core → Core) : (s.modCore c f).draws = s.draws := rfl
@[simp] theorem State.modCore_estimates (s : State) (c : Nat) (f : Core → Core) : (s.modCore c f).estimates = s.estimates := rfl
@[simp] theorem State.modCore_regs (s : State) (c : Nat) (f : Core → Core) : (s.modCore c f).regs = s.regs := rfl
@[simp] theorem State.modCore_wrote (s : State) (c : Nat) (f : Core → Core) : (s.modCore c f).wrote = s.wrote := rfl
@[simp] theorem State.modCore_threads (s : State) (c : Nat) (f : Core → Core) : (s.modCore c f).threads = s.threads := rfl
@[simp] theorem State.modCore_mem (s : State) (c : Nat) (f : Core → Core) : (s.modCore c f).mem = s.mem := rfl
@[simp] theorem State.modCore_scratch (s : State) (c : Nat) (f : Core → Core) : (s.modCore c f).scratch = s.scratch := rfl
@[simp] theorem State.modCore_epochs (s : State) (c : Nat) (f : Core → Core) : (s.modCore c f).epochs = s.epochs := rfl
@[simp] theorem State.modCore_badWords (s : State) (c : Nat) (f : Core → Core) : (s.modCore c f).badWords = s.badWords := rfl
@[simp] theorem State.modCore_lost (s : State) (c : Nat) (f : Core → Core) : (s.modCore c f).lost = s.lost := rfl
@[simp] theorem State.modCore_lines (s : State) (c : Nat) (f : Core → Core) : (s.modCore c f).lines = s.lines := rfl
@[simp] theorem State.modCore_dirty (s : State) (c : Nat) (f : Core → Core) : (s.modCore c f).dirty = s.dirty := rfl
@[simp] theorem State.modCore_l2 (s : State) (c : Nat) (f : Core → Core) : (s.modCore c f).l2 = s.l2 := rfl
@[simp] theorem State.modCore_cleared (s : State) (c : Nat) (f : Core → Core) : (s.modCore c f).cleared = s.cleared := rfl
@[simp] theorem State.modCore_ptes (s : State) (c : Nat) (f : Core → Core) : (s.modCore c f).ptes = s.ptes := rfl
@[simp] theorem State.modCore_pages (s : State) (c : Nat) (f : Core → Core) : (s.modCore c f).pages = s.pages := rfl
@[simp] theorem State.modCore_pend (s : State) (c : Nat) (f : Core → Core) : (s.modCore c f).pend = s.pend := rfl
@[simp] theorem State.modCore_passed (s : State) (c : Nat) (f : Core → Core) : (s.modCore c f).passed = s.passed := rfl
@[simp] theorem State.modCore_fences (s : State) (c : Nat) (f : Core → Core) : (s.modCore c f).fences = s.fences := rfl
@[simp] theorem State.modCore_arrivals (s : State) (c : Nat) (f : Core → Core) : (s.modCore c f).arrivals = s.arrivals := rfl
@[simp] theorem State.modCore_posts (s : State) (c : Nat) (f : Core → Core) : (s.modCore c f).posts = s.posts := rfl
@[simp] theorem State.modCore_nwrites (s : State) (c : Nat) (f : Core → Core) : (s.modCore c f).nwrites = s.nwrites := rfl
@[simp] theorem State.modCore_wakes (s : State) (c : Nat) (f : Core → Core) : (s.modCore c f).wakes = s.wakes := rfl
@[simp] theorem State.modCore_traps (s : State) (c : Nat) (f : Core → Core) : (s.modCore c f).traps = s.traps := rfl
@[simp] theorem State.modCore_active (s : State) (c : Nat) (f : Core → Core) : (s.modCore c f).active = s.active := rfl
@[simp] theorem State.modCore_locks (s : State) (c : Nat) (f : Core → Core) : (s.modCore c f).locks = s.locks := rfl
@[simp] theorem State.modCore_copyTurn (s : State) (c : Nat) (f : Core → Core) : (s.modCore c f).copyTurn = s.copyTurn := rfl
@[simp] theorem State.modCore_routeTurn (s : State) (c : Nat) (f : Core → Core) : (s.modCore c f).routeTurn = s.routeTurn := rfl
@[simp] theorem State.modCore_barriers (s : State) (c : Nat) (f : Core → Core) : (s.modCore c f).barriers = s.barriers := rfl
@[simp] theorem State.modCore_ctxs (s : State) (c : Nat) (f : Core → Core) : (s.modCore c f).ctxs = s.ctxs := rfl
@[simp] theorem State.modCore_nextAge (s : State) (c : Nat) (f : Core → Core) : (s.modCore c f).nextAge = s.nextAge := rfl
@[simp] theorem State.modCore_keystone (s : State) (c : Nat) (f : Core → Core) : (s.modCore c f).keystone = s.keystone := rfl
@[simp] theorem State.modCore_ports (s : State) (c : Nat) (f : Core → Core) : (s.modCore c f).ports = s.ports := rfl
@[simp] theorem State.modCore_messages (s : State) (c : Nat) (f : Core → Core) : (s.modCore c f).messages = s.messages := rfl
@[simp] theorem State.modCore_joins (s : State) (c : Nat) (f : Core → Core) : (s.modCore c f).joins = s.joins := rfl
@[simp] theorem State.modCore_collEnded (s : State) (c : Nat) (f : Core → Core) : (s.modCore c f).collEnded = s.collEnded := rfl
@[simp] theorem State.modCore_host (s : State) (c : Nat) (f : Core → Core) : (s.modCore c f).host = s.host := rfl
@[simp] theorem State.modCore_samples (s : State) (c : Nat) (f : Core → Core) : (s.modCore c f).samples = s.samples := rfl
@[simp] theorem State.modCore_outgoing (s : State) (c : Nat) (f : Core → Core) : (s.modCore c f).outgoing = s.outgoing := rfl
@[simp] theorem State.modCore_log (s : State) (c : Nat) (f : Core → Core) : (s.modCore c f).log = s.log := rfl
@[simp] theorem State.modCore_logSeq (s : State) (c : Nat) (f : Core → Core) : (s.modCore c f).logSeq = s.logSeq := rfl
@[simp] theorem State.modCore_correctedNow (s : State) (c : Nat) (f : Core → Core) : (s.modCore c f).correctedNow = s.correctedNow := rfl
@[simp] theorem State.modCore_correctedAt (s : State) (c : Nat) (f : Core → Core) : (s.modCore c f).correctedAt = s.correctedAt := rfl
@[simp] theorem State.modCore_doomed (s : State) (c : Nat) (f : Core → Core) : (s.modCore c f).doomed = s.doomed := rfl
@[simp] theorem State.modCore_dispatch (s : State) (c : Nat) (f : Core → Core) : (s.modCore c f).dispatch = s.dispatch := rfl
@[simp] theorem State.modCore_fencedDecks (s : State) (c : Nat) (f : Core → Core) : (s.modCore c f).fencedDecks = s.fencedDecks := rfl

/-! ### modCtx -/

@[simp] theorem State.modCtx_cycle (s : State) (p : Nat) (f : Ctx → Ctx) : (s.modCtx p f).cycle = s.cycle := by
  unfold State.modCtx; split <;> rfl
@[simp] theorem State.modCtx_timeQ (s : State) (p : Nat) (f : Ctx → Ctx) : (s.modCtx p f).timeQ = s.timeQ := by
  unfold State.modCtx; split <;> rfl
@[simp] theorem State.modCtx_sag (s : State) (p : Nat) (f : Ctx → Ctx) : (s.modCtx p f).sag = s.sag := by
  unfold State.modCtx; split <;> rfl
@[simp] theorem State.modCtx_locked (s : State) (p : Nat) (f : Ctx → Ctx) : (s.modCtx p f).locked = s.locked := by
  unfold State.modCtx; split <;> rfl
@[simp] theorem State.modCtx_slew (s : State) (p : Nat) (f : Ctx → Ctx) : (s.modCtx p f).slew = s.slew := by
  unfold State.modCtx; split <;> rfl
@[simp] theorem State.modCtx_stretched (s : State) (p : Nat) (f : Ctx → Ctx) : (s.modCtx p f).stretched = s.stretched := by
  unfold State.modCtx; split <;> rfl
@[simp] theorem State.modCtx_order (s : State) (p : Nat) (f : Ctx → Ctx) : (s.modCtx p f).order = s.order := by
  unfold State.modCtx; split <;> rfl
@[simp] theorem State.modCtx_uid (s : State) (p : Nat) (f : Ctx → Ctx) : (s.modCtx p f).uid = s.uid := by
  unfold State.modCtx; split <;> rfl
@[simp] theorem State.modCtx_cur (s : State) (p : Nat) (f : Ctx → Ctx) : (s.modCtx p f).cur = s.cur := by
  unfold State.modCtx; split <;> rfl
@[simp] theorem State.modCtx_arg (s : State) (p : Nat) (f : Ctx → Ctx) : (s.modCtx p f).arg = s.arg := by
  unfold State.modCtx; split <;> rfl
@[simp] theorem State.modCtx_inputs (s : State) (p : Nat) (f : Ctx → Ctx) : (s.modCtx p f).inputs = s.inputs := by
  unfold State.modCtx; split <;> rfl
@[simp] theorem State.modCtx_draws (s : State) (p : Nat) (f : Ctx → Ctx) : (s.modCtx p f).draws = s.draws := by
  unfold State.modCtx; split <;> rfl
@[simp] theorem State.modCtx_estimates (s : State) (p : Nat) (f : Ctx → Ctx) : (s.modCtx p f).estimates = s.estimates := by
  unfold State.modCtx; split <;> rfl
@[simp] theorem State.modCtx_regs (s : State) (p : Nat) (f : Ctx → Ctx) : (s.modCtx p f).regs = s.regs := by
  unfold State.modCtx; split <;> rfl
@[simp] theorem State.modCtx_wrote (s : State) (p : Nat) (f : Ctx → Ctx) : (s.modCtx p f).wrote = s.wrote := by
  unfold State.modCtx; split <;> rfl
@[simp] theorem State.modCtx_threads (s : State) (p : Nat) (f : Ctx → Ctx) : (s.modCtx p f).threads = s.threads := by
  unfold State.modCtx; split <;> rfl
@[simp] theorem State.modCtx_cores (s : State) (p : Nat) (f : Ctx → Ctx) : (s.modCtx p f).cores = s.cores := by
  unfold State.modCtx; split <;> rfl
@[simp] theorem State.modCtx_mem (s : State) (p : Nat) (f : Ctx → Ctx) : (s.modCtx p f).mem = s.mem := by
  unfold State.modCtx; split <;> rfl
@[simp] theorem State.modCtx_scratch (s : State) (p : Nat) (f : Ctx → Ctx) : (s.modCtx p f).scratch = s.scratch := by
  unfold State.modCtx; split <;> rfl
@[simp] theorem State.modCtx_epochs (s : State) (p : Nat) (f : Ctx → Ctx) : (s.modCtx p f).epochs = s.epochs := by
  unfold State.modCtx; split <;> rfl
@[simp] theorem State.modCtx_badWords (s : State) (p : Nat) (f : Ctx → Ctx) : (s.modCtx p f).badWords = s.badWords := by
  unfold State.modCtx; split <;> rfl
@[simp] theorem State.modCtx_lost (s : State) (p : Nat) (f : Ctx → Ctx) : (s.modCtx p f).lost = s.lost := by
  unfold State.modCtx; split <;> rfl
@[simp] theorem State.modCtx_lines (s : State) (p : Nat) (f : Ctx → Ctx) : (s.modCtx p f).lines = s.lines := by
  unfold State.modCtx; split <;> rfl
@[simp] theorem State.modCtx_dirty (s : State) (p : Nat) (f : Ctx → Ctx) : (s.modCtx p f).dirty = s.dirty := by
  unfold State.modCtx; split <;> rfl
@[simp] theorem State.modCtx_l2 (s : State) (p : Nat) (f : Ctx → Ctx) : (s.modCtx p f).l2 = s.l2 := by
  unfold State.modCtx; split <;> rfl
@[simp] theorem State.modCtx_cleared (s : State) (p : Nat) (f : Ctx → Ctx) : (s.modCtx p f).cleared = s.cleared := by
  unfold State.modCtx; split <;> rfl
@[simp] theorem State.modCtx_ptes (s : State) (p : Nat) (f : Ctx → Ctx) : (s.modCtx p f).ptes = s.ptes := by
  unfold State.modCtx; split <;> rfl
@[simp] theorem State.modCtx_pages (s : State) (p : Nat) (f : Ctx → Ctx) : (s.modCtx p f).pages = s.pages := by
  unfold State.modCtx; split <;> rfl
@[simp] theorem State.modCtx_pend (s : State) (p : Nat) (f : Ctx → Ctx) : (s.modCtx p f).pend = s.pend := by
  unfold State.modCtx; split <;> rfl
@[simp] theorem State.modCtx_passed (s : State) (p : Nat) (f : Ctx → Ctx) : (s.modCtx p f).passed = s.passed := by
  unfold State.modCtx; split <;> rfl
@[simp] theorem State.modCtx_fences (s : State) (p : Nat) (f : Ctx → Ctx) : (s.modCtx p f).fences = s.fences := by
  unfold State.modCtx; split <;> rfl
@[simp] theorem State.modCtx_arrivals (s : State) (p : Nat) (f : Ctx → Ctx) : (s.modCtx p f).arrivals = s.arrivals := by
  unfold State.modCtx; split <;> rfl
@[simp] theorem State.modCtx_posts (s : State) (p : Nat) (f : Ctx → Ctx) : (s.modCtx p f).posts = s.posts := by
  unfold State.modCtx; split <;> rfl
@[simp] theorem State.modCtx_nwrites (s : State) (p : Nat) (f : Ctx → Ctx) : (s.modCtx p f).nwrites = s.nwrites := by
  unfold State.modCtx; split <;> rfl
@[simp] theorem State.modCtx_wakes (s : State) (p : Nat) (f : Ctx → Ctx) : (s.modCtx p f).wakes = s.wakes := by
  unfold State.modCtx; split <;> rfl
@[simp] theorem State.modCtx_traps (s : State) (p : Nat) (f : Ctx → Ctx) : (s.modCtx p f).traps = s.traps := by
  unfold State.modCtx; split <;> rfl
@[simp] theorem State.modCtx_active (s : State) (p : Nat) (f : Ctx → Ctx) : (s.modCtx p f).active = s.active := by
  unfold State.modCtx; split <;> rfl
@[simp] theorem State.modCtx_locks (s : State) (p : Nat) (f : Ctx → Ctx) : (s.modCtx p f).locks = s.locks := by
  unfold State.modCtx; split <;> rfl
@[simp] theorem State.modCtx_copyTurn (s : State) (p : Nat) (f : Ctx → Ctx) : (s.modCtx p f).copyTurn = s.copyTurn := by
  unfold State.modCtx; split <;> rfl
@[simp] theorem State.modCtx_routeTurn (s : State) (p : Nat) (f : Ctx → Ctx) : (s.modCtx p f).routeTurn = s.routeTurn := by
  unfold State.modCtx; split <;> rfl
@[simp] theorem State.modCtx_barriers (s : State) (p : Nat) (f : Ctx → Ctx) : (s.modCtx p f).barriers = s.barriers := by
  unfold State.modCtx; split <;> rfl
@[simp] theorem State.modCtx_nextAge (s : State) (p : Nat) (f : Ctx → Ctx) : (s.modCtx p f).nextAge = s.nextAge := by
  unfold State.modCtx; split <;> rfl
@[simp] theorem State.modCtx_keystone (s : State) (p : Nat) (f : Ctx → Ctx) : (s.modCtx p f).keystone = s.keystone := by
  unfold State.modCtx; split <;> rfl
@[simp] theorem State.modCtx_ports (s : State) (p : Nat) (f : Ctx → Ctx) : (s.modCtx p f).ports = s.ports := by
  unfold State.modCtx; split <;> rfl
@[simp] theorem State.modCtx_messages (s : State) (p : Nat) (f : Ctx → Ctx) : (s.modCtx p f).messages = s.messages := by
  unfold State.modCtx; split <;> rfl
@[simp] theorem State.modCtx_joins (s : State) (p : Nat) (f : Ctx → Ctx) : (s.modCtx p f).joins = s.joins := by
  unfold State.modCtx; split <;> rfl
@[simp] theorem State.modCtx_collEnded (s : State) (p : Nat) (f : Ctx → Ctx) : (s.modCtx p f).collEnded = s.collEnded := by
  unfold State.modCtx; split <;> rfl
@[simp] theorem State.modCtx_host (s : State) (p : Nat) (f : Ctx → Ctx) : (s.modCtx p f).host = s.host := by
  unfold State.modCtx; split <;> rfl
@[simp] theorem State.modCtx_samples (s : State) (p : Nat) (f : Ctx → Ctx) : (s.modCtx p f).samples = s.samples := by
  unfold State.modCtx; split <;> rfl
@[simp] theorem State.modCtx_outgoing (s : State) (p : Nat) (f : Ctx → Ctx) : (s.modCtx p f).outgoing = s.outgoing := by
  unfold State.modCtx; split <;> rfl
@[simp] theorem State.modCtx_log (s : State) (p : Nat) (f : Ctx → Ctx) : (s.modCtx p f).log = s.log := by
  unfold State.modCtx; split <;> rfl
@[simp] theorem State.modCtx_logSeq (s : State) (p : Nat) (f : Ctx → Ctx) : (s.modCtx p f).logSeq = s.logSeq := by
  unfold State.modCtx; split <;> rfl
@[simp] theorem State.modCtx_correctedNow (s : State) (p : Nat) (f : Ctx → Ctx) : (s.modCtx p f).correctedNow = s.correctedNow := by
  unfold State.modCtx; split <;> rfl
@[simp] theorem State.modCtx_correctedAt (s : State) (p : Nat) (f : Ctx → Ctx) : (s.modCtx p f).correctedAt = s.correctedAt := by
  unfold State.modCtx; split <;> rfl
@[simp] theorem State.modCtx_doomed (s : State) (p : Nat) (f : Ctx → Ctx) : (s.modCtx p f).doomed = s.doomed := by
  unfold State.modCtx; split <;> rfl
@[simp] theorem State.modCtx_dispatch (s : State) (p : Nat) (f : Ctx → Ctx) : (s.modCtx p f).dispatch = s.dispatch := by
  unfold State.modCtx; split <;> rfl
@[simp] theorem State.modCtx_fencedDecks (s : State) (p : Nat) (f : Ctx → Ctx) : (s.modCtx p f).fencedDecks = s.fencedDecks := by
  unfold State.modCtx; split <;> rfl

/-! ### setFull -/

@[simp] theorem State.setFull_cycle (s : State) (c n : Nat) (b : Bool) : (s.setFull c n b).cycle = s.cycle := rfl
@[simp] theorem State.setFull_timeQ (s : State) (c n : Nat) (b : Bool) : (s.setFull c n b).timeQ = s.timeQ := rfl
@[simp] theorem State.setFull_sag (s : State) (c n : Nat) (b : Bool) : (s.setFull c n b).sag = s.sag := rfl
@[simp] theorem State.setFull_locked (s : State) (c n : Nat) (b : Bool) : (s.setFull c n b).locked = s.locked := rfl
@[simp] theorem State.setFull_slew (s : State) (c n : Nat) (b : Bool) : (s.setFull c n b).slew = s.slew := rfl
@[simp] theorem State.setFull_stretched (s : State) (c n : Nat) (b : Bool) : (s.setFull c n b).stretched = s.stretched := rfl
@[simp] theorem State.setFull_order (s : State) (c n : Nat) (b : Bool) : (s.setFull c n b).order = s.order := rfl
@[simp] theorem State.setFull_uid (s : State) (c n : Nat) (b : Bool) : (s.setFull c n b).uid = s.uid := rfl
@[simp] theorem State.setFull_cur (s : State) (c n : Nat) (b : Bool) : (s.setFull c n b).cur = s.cur := rfl
@[simp] theorem State.setFull_arg (s : State) (c n : Nat) (b : Bool) : (s.setFull c n b).arg = s.arg := rfl
@[simp] theorem State.setFull_inputs (s : State) (c n : Nat) (b : Bool) : (s.setFull c n b).inputs = s.inputs := rfl
@[simp] theorem State.setFull_draws (s : State) (c n : Nat) (b : Bool) : (s.setFull c n b).draws = s.draws := rfl
@[simp] theorem State.setFull_estimates (s : State) (c n : Nat) (b : Bool) : (s.setFull c n b).estimates = s.estimates := rfl
@[simp] theorem State.setFull_wrote (s : State) (c n : Nat) (b : Bool) : (s.setFull c n b).wrote = s.wrote := rfl
@[simp] theorem State.setFull_threads (s : State) (c n : Nat) (b : Bool) : (s.setFull c n b).threads = s.threads := rfl
@[simp] theorem State.setFull_cores (s : State) (c n : Nat) (b : Bool) : (s.setFull c n b).cores = s.cores := rfl
@[simp] theorem State.setFull_mem (s : State) (c n : Nat) (b : Bool) : (s.setFull c n b).mem = s.mem := rfl
@[simp] theorem State.setFull_scratch (s : State) (c n : Nat) (b : Bool) : (s.setFull c n b).scratch = s.scratch := rfl
@[simp] theorem State.setFull_epochs (s : State) (c n : Nat) (b : Bool) : (s.setFull c n b).epochs = s.epochs := rfl
@[simp] theorem State.setFull_badWords (s : State) (c n : Nat) (b : Bool) : (s.setFull c n b).badWords = s.badWords := rfl
@[simp] theorem State.setFull_lost (s : State) (c n : Nat) (b : Bool) : (s.setFull c n b).lost = s.lost := rfl
@[simp] theorem State.setFull_lines (s : State) (c n : Nat) (b : Bool) : (s.setFull c n b).lines = s.lines := rfl
@[simp] theorem State.setFull_dirty (s : State) (c n : Nat) (b : Bool) : (s.setFull c n b).dirty = s.dirty := rfl
@[simp] theorem State.setFull_l2 (s : State) (c n : Nat) (b : Bool) : (s.setFull c n b).l2 = s.l2 := rfl
@[simp] theorem State.setFull_cleared (s : State) (c n : Nat) (b : Bool) : (s.setFull c n b).cleared = s.cleared := rfl
@[simp] theorem State.setFull_ptes (s : State) (c n : Nat) (b : Bool) : (s.setFull c n b).ptes = s.ptes := rfl
@[simp] theorem State.setFull_pages (s : State) (c n : Nat) (b : Bool) : (s.setFull c n b).pages = s.pages := rfl
@[simp] theorem State.setFull_pend (s : State) (c n : Nat) (b : Bool) : (s.setFull c n b).pend = s.pend := rfl
@[simp] theorem State.setFull_passed (s : State) (c n : Nat) (b : Bool) : (s.setFull c n b).passed = s.passed := rfl
@[simp] theorem State.setFull_fences (s : State) (c n : Nat) (b : Bool) : (s.setFull c n b).fences = s.fences := rfl
@[simp] theorem State.setFull_arrivals (s : State) (c n : Nat) (b : Bool) : (s.setFull c n b).arrivals = s.arrivals := rfl
@[simp] theorem State.setFull_posts (s : State) (c n : Nat) (b : Bool) : (s.setFull c n b).posts = s.posts := rfl
@[simp] theorem State.setFull_nwrites (s : State) (c n : Nat) (b : Bool) : (s.setFull c n b).nwrites = s.nwrites := rfl
@[simp] theorem State.setFull_wakes (s : State) (c n : Nat) (b : Bool) : (s.setFull c n b).wakes = s.wakes := rfl
@[simp] theorem State.setFull_traps (s : State) (c n : Nat) (b : Bool) : (s.setFull c n b).traps = s.traps := rfl
@[simp] theorem State.setFull_active (s : State) (c n : Nat) (b : Bool) : (s.setFull c n b).active = s.active := rfl
@[simp] theorem State.setFull_locks (s : State) (c n : Nat) (b : Bool) : (s.setFull c n b).locks = s.locks := rfl
@[simp] theorem State.setFull_copyTurn (s : State) (c n : Nat) (b : Bool) : (s.setFull c n b).copyTurn = s.copyTurn := rfl
@[simp] theorem State.setFull_routeTurn (s : State) (c n : Nat) (b : Bool) : (s.setFull c n b).routeTurn = s.routeTurn := rfl
@[simp] theorem State.setFull_barriers (s : State) (c n : Nat) (b : Bool) : (s.setFull c n b).barriers = s.barriers := rfl
@[simp] theorem State.setFull_ctxs (s : State) (c n : Nat) (b : Bool) : (s.setFull c n b).ctxs = s.ctxs := rfl
@[simp] theorem State.setFull_nextAge (s : State) (c n : Nat) (b : Bool) : (s.setFull c n b).nextAge = s.nextAge := rfl
@[simp] theorem State.setFull_keystone (s : State) (c n : Nat) (b : Bool) : (s.setFull c n b).keystone = s.keystone := rfl
@[simp] theorem State.setFull_ports (s : State) (c n : Nat) (b : Bool) : (s.setFull c n b).ports = s.ports := rfl
@[simp] theorem State.setFull_messages (s : State) (c n : Nat) (b : Bool) : (s.setFull c n b).messages = s.messages := rfl
@[simp] theorem State.setFull_joins (s : State) (c n : Nat) (b : Bool) : (s.setFull c n b).joins = s.joins := rfl
@[simp] theorem State.setFull_collEnded (s : State) (c n : Nat) (b : Bool) : (s.setFull c n b).collEnded = s.collEnded := rfl
@[simp] theorem State.setFull_host (s : State) (c n : Nat) (b : Bool) : (s.setFull c n b).host = s.host := rfl
@[simp] theorem State.setFull_samples (s : State) (c n : Nat) (b : Bool) : (s.setFull c n b).samples = s.samples := rfl
@[simp] theorem State.setFull_outgoing (s : State) (c n : Nat) (b : Bool) : (s.setFull c n b).outgoing = s.outgoing := rfl
@[simp] theorem State.setFull_log (s : State) (c n : Nat) (b : Bool) : (s.setFull c n b).log = s.log := rfl
@[simp] theorem State.setFull_logSeq (s : State) (c n : Nat) (b : Bool) : (s.setFull c n b).logSeq = s.logSeq := rfl
@[simp] theorem State.setFull_correctedNow (s : State) (c n : Nat) (b : Bool) : (s.setFull c n b).correctedNow = s.correctedNow := rfl
@[simp] theorem State.setFull_correctedAt (s : State) (c n : Nat) (b : Bool) : (s.setFull c n b).correctedAt = s.correctedAt := rfl
@[simp] theorem State.setFull_doomed (s : State) (c n : Nat) (b : Bool) : (s.setFull c n b).doomed = s.doomed := rfl
@[simp] theorem State.setFull_dispatch (s : State) (c n : Nat) (b : Bool) : (s.setFull c n b).dispatch = s.dispatch := rfl
@[simp] theorem State.setFull_fencedDecks (s : State) (c n : Nat) (b : Bool) : (s.setFull c n b).fencedDecks = s.fencedDecks := rfl

/-! ### writeReg -/

@[simp] theorem State.writeReg_cycle (s : State) (c n : Nat) (v : Vec) : (s.writeReg c n v).cycle = s.cycle := rfl
@[simp] theorem State.writeReg_timeQ (s : State) (c n : Nat) (v : Vec) : (s.writeReg c n v).timeQ = s.timeQ := rfl
@[simp] theorem State.writeReg_sag (s : State) (c n : Nat) (v : Vec) : (s.writeReg c n v).sag = s.sag := rfl
@[simp] theorem State.writeReg_locked (s : State) (c n : Nat) (v : Vec) : (s.writeReg c n v).locked = s.locked := rfl
@[simp] theorem State.writeReg_slew (s : State) (c n : Nat) (v : Vec) : (s.writeReg c n v).slew = s.slew := rfl
@[simp] theorem State.writeReg_stretched (s : State) (c n : Nat) (v : Vec) : (s.writeReg c n v).stretched = s.stretched := rfl
@[simp] theorem State.writeReg_order (s : State) (c n : Nat) (v : Vec) : (s.writeReg c n v).order = s.order := rfl
@[simp] theorem State.writeReg_uid (s : State) (c n : Nat) (v : Vec) : (s.writeReg c n v).uid = s.uid := rfl
@[simp] theorem State.writeReg_cur (s : State) (c n : Nat) (v : Vec) : (s.writeReg c n v).cur = s.cur := rfl
@[simp] theorem State.writeReg_arg (s : State) (c n : Nat) (v : Vec) : (s.writeReg c n v).arg = s.arg := rfl
@[simp] theorem State.writeReg_inputs (s : State) (c n : Nat) (v : Vec) : (s.writeReg c n v).inputs = s.inputs := rfl
@[simp] theorem State.writeReg_draws (s : State) (c n : Nat) (v : Vec) : (s.writeReg c n v).draws = s.draws := rfl
@[simp] theorem State.writeReg_estimates (s : State) (c n : Nat) (v : Vec) : (s.writeReg c n v).estimates = s.estimates := rfl
@[simp] theorem State.writeReg_wrote (s : State) (c n : Nat) (v : Vec) : (s.writeReg c n v).wrote = s.wrote := rfl
@[simp] theorem State.writeReg_threads (s : State) (c n : Nat) (v : Vec) : (s.writeReg c n v).threads = s.threads := rfl
@[simp] theorem State.writeReg_cores (s : State) (c n : Nat) (v : Vec) : (s.writeReg c n v).cores = s.cores := rfl
@[simp] theorem State.writeReg_mem (s : State) (c n : Nat) (v : Vec) : (s.writeReg c n v).mem = s.mem := rfl
@[simp] theorem State.writeReg_scratch (s : State) (c n : Nat) (v : Vec) : (s.writeReg c n v).scratch = s.scratch := rfl
@[simp] theorem State.writeReg_epochs (s : State) (c n : Nat) (v : Vec) : (s.writeReg c n v).epochs = s.epochs := rfl
@[simp] theorem State.writeReg_badWords (s : State) (c n : Nat) (v : Vec) : (s.writeReg c n v).badWords = s.badWords := rfl
@[simp] theorem State.writeReg_lost (s : State) (c n : Nat) (v : Vec) : (s.writeReg c n v).lost = s.lost := rfl
@[simp] theorem State.writeReg_lines (s : State) (c n : Nat) (v : Vec) : (s.writeReg c n v).lines = s.lines := rfl
@[simp] theorem State.writeReg_dirty (s : State) (c n : Nat) (v : Vec) : (s.writeReg c n v).dirty = s.dirty := rfl
@[simp] theorem State.writeReg_l2 (s : State) (c n : Nat) (v : Vec) : (s.writeReg c n v).l2 = s.l2 := rfl
@[simp] theorem State.writeReg_cleared (s : State) (c n : Nat) (v : Vec) : (s.writeReg c n v).cleared = s.cleared := rfl
@[simp] theorem State.writeReg_ptes (s : State) (c n : Nat) (v : Vec) : (s.writeReg c n v).ptes = s.ptes := rfl
@[simp] theorem State.writeReg_pages (s : State) (c n : Nat) (v : Vec) : (s.writeReg c n v).pages = s.pages := rfl
@[simp] theorem State.writeReg_pend (s : State) (c n : Nat) (v : Vec) : (s.writeReg c n v).pend = s.pend := rfl
@[simp] theorem State.writeReg_passed (s : State) (c n : Nat) (v : Vec) : (s.writeReg c n v).passed = s.passed := rfl
@[simp] theorem State.writeReg_fences (s : State) (c n : Nat) (v : Vec) : (s.writeReg c n v).fences = s.fences := rfl
@[simp] theorem State.writeReg_arrivals (s : State) (c n : Nat) (v : Vec) : (s.writeReg c n v).arrivals = s.arrivals := rfl
@[simp] theorem State.writeReg_posts (s : State) (c n : Nat) (v : Vec) : (s.writeReg c n v).posts = s.posts := rfl
@[simp] theorem State.writeReg_nwrites (s : State) (c n : Nat) (v : Vec) : (s.writeReg c n v).nwrites = s.nwrites := rfl
@[simp] theorem State.writeReg_wakes (s : State) (c n : Nat) (v : Vec) : (s.writeReg c n v).wakes = s.wakes := rfl
@[simp] theorem State.writeReg_traps (s : State) (c n : Nat) (v : Vec) : (s.writeReg c n v).traps = s.traps := rfl
@[simp] theorem State.writeReg_active (s : State) (c n : Nat) (v : Vec) : (s.writeReg c n v).active = s.active := rfl
@[simp] theorem State.writeReg_locks (s : State) (c n : Nat) (v : Vec) : (s.writeReg c n v).locks = s.locks := rfl
@[simp] theorem State.writeReg_copyTurn (s : State) (c n : Nat) (v : Vec) : (s.writeReg c n v).copyTurn = s.copyTurn := rfl
@[simp] theorem State.writeReg_routeTurn (s : State) (c n : Nat) (v : Vec) : (s.writeReg c n v).routeTurn = s.routeTurn := rfl
@[simp] theorem State.writeReg_barriers (s : State) (c n : Nat) (v : Vec) : (s.writeReg c n v).barriers = s.barriers := rfl
@[simp] theorem State.writeReg_ctxs (s : State) (c n : Nat) (v : Vec) : (s.writeReg c n v).ctxs = s.ctxs := rfl
@[simp] theorem State.writeReg_nextAge (s : State) (c n : Nat) (v : Vec) : (s.writeReg c n v).nextAge = s.nextAge := rfl
@[simp] theorem State.writeReg_keystone (s : State) (c n : Nat) (v : Vec) : (s.writeReg c n v).keystone = s.keystone := rfl
@[simp] theorem State.writeReg_ports (s : State) (c n : Nat) (v : Vec) : (s.writeReg c n v).ports = s.ports := rfl
@[simp] theorem State.writeReg_messages (s : State) (c n : Nat) (v : Vec) : (s.writeReg c n v).messages = s.messages := rfl
@[simp] theorem State.writeReg_joins (s : State) (c n : Nat) (v : Vec) : (s.writeReg c n v).joins = s.joins := rfl
@[simp] theorem State.writeReg_collEnded (s : State) (c n : Nat) (v : Vec) : (s.writeReg c n v).collEnded = s.collEnded := rfl
@[simp] theorem State.writeReg_host (s : State) (c n : Nat) (v : Vec) : (s.writeReg c n v).host = s.host := rfl
@[simp] theorem State.writeReg_samples (s : State) (c n : Nat) (v : Vec) : (s.writeReg c n v).samples = s.samples := rfl
@[simp] theorem State.writeReg_outgoing (s : State) (c n : Nat) (v : Vec) : (s.writeReg c n v).outgoing = s.outgoing := rfl
@[simp] theorem State.writeReg_log (s : State) (c n : Nat) (v : Vec) : (s.writeReg c n v).log = s.log := rfl
@[simp] theorem State.writeReg_logSeq (s : State) (c n : Nat) (v : Vec) : (s.writeReg c n v).logSeq = s.logSeq := rfl
@[simp] theorem State.writeReg_correctedNow (s : State) (c n : Nat) (v : Vec) : (s.writeReg c n v).correctedNow = s.correctedNow := rfl
@[simp] theorem State.writeReg_correctedAt (s : State) (c n : Nat) (v : Vec) : (s.writeReg c n v).correctedAt = s.correctedAt := rfl
@[simp] theorem State.writeReg_doomed (s : State) (c n : Nat) (v : Vec) : (s.writeReg c n v).doomed = s.doomed := rfl
@[simp] theorem State.writeReg_dispatch (s : State) (c n : Nat) (v : Vec) : (s.writeReg c n v).dispatch = s.dispatch := rfl
@[simp] theorem State.writeReg_fencedDecks (s : State) (c n : Nat) (v : Vec) : (s.writeReg c n v).fencedDecks = s.fencedDecks := rfl

/-! ### countCore -/

@[simp] theorem State.countCore_cycle (s : State) (c i n : Nat) : (s.countCore c i n).cycle = s.cycle := by
  unfold State.countCore State.count; split <;> simp
@[simp] theorem State.countCore_timeQ (s : State) (c i n : Nat) : (s.countCore c i n).timeQ = s.timeQ := by
  unfold State.countCore State.count; split <;> simp
@[simp] theorem State.countCore_sag (s : State) (c i n : Nat) : (s.countCore c i n).sag = s.sag := by
  unfold State.countCore State.count; split <;> simp
@[simp] theorem State.countCore_locked (s : State) (c i n : Nat) : (s.countCore c i n).locked = s.locked := by
  unfold State.countCore State.count; split <;> simp
@[simp] theorem State.countCore_slew (s : State) (c i n : Nat) : (s.countCore c i n).slew = s.slew := by
  unfold State.countCore State.count; split <;> simp
@[simp] theorem State.countCore_stretched (s : State) (c i n : Nat) : (s.countCore c i n).stretched = s.stretched := by
  unfold State.countCore State.count; split <;> simp
@[simp] theorem State.countCore_order (s : State) (c i n : Nat) : (s.countCore c i n).order = s.order := by
  unfold State.countCore State.count; split <;> simp
@[simp] theorem State.countCore_uid (s : State) (c i n : Nat) : (s.countCore c i n).uid = s.uid := by
  unfold State.countCore State.count; split <;> simp
@[simp] theorem State.countCore_cur (s : State) (c i n : Nat) : (s.countCore c i n).cur = s.cur := by
  unfold State.countCore State.count; split <;> simp
@[simp] theorem State.countCore_arg (s : State) (c i n : Nat) : (s.countCore c i n).arg = s.arg := by
  unfold State.countCore State.count; split <;> simp
@[simp] theorem State.countCore_inputs (s : State) (c i n : Nat) : (s.countCore c i n).inputs = s.inputs := by
  unfold State.countCore State.count; split <;> simp
@[simp] theorem State.countCore_draws (s : State) (c i n : Nat) : (s.countCore c i n).draws = s.draws := by
  unfold State.countCore State.count; split <;> simp
@[simp] theorem State.countCore_estimates (s : State) (c i n : Nat) : (s.countCore c i n).estimates = s.estimates := by
  unfold State.countCore State.count; split <;> simp
@[simp] theorem State.countCore_regs (s : State) (c i n : Nat) : (s.countCore c i n).regs = s.regs := by
  unfold State.countCore State.count; split <;> simp
@[simp] theorem State.countCore_wrote (s : State) (c i n : Nat) : (s.countCore c i n).wrote = s.wrote := by
  unfold State.countCore State.count; split <;> simp
@[simp] theorem State.countCore_threads (s : State) (c i n : Nat) : (s.countCore c i n).threads = s.threads := by
  unfold State.countCore State.count; split <;> simp
@[simp] theorem State.countCore_cores (s : State) (c i n : Nat) : (s.countCore c i n).cores = s.cores := by
  unfold State.countCore State.count; split <;> simp
@[simp] theorem State.countCore_mem (s : State) (c i n : Nat) : (s.countCore c i n).mem = s.mem := by
  unfold State.countCore State.count; split <;> simp
@[simp] theorem State.countCore_scratch (s : State) (c i n : Nat) : (s.countCore c i n).scratch = s.scratch := by
  unfold State.countCore State.count; split <;> simp
@[simp] theorem State.countCore_epochs (s : State) (c i n : Nat) : (s.countCore c i n).epochs = s.epochs := by
  unfold State.countCore State.count; split <;> simp
@[simp] theorem State.countCore_badWords (s : State) (c i n : Nat) : (s.countCore c i n).badWords = s.badWords := by
  unfold State.countCore State.count; split <;> simp
@[simp] theorem State.countCore_lost (s : State) (c i n : Nat) : (s.countCore c i n).lost = s.lost := by
  unfold State.countCore State.count; split <;> simp
@[simp] theorem State.countCore_lines (s : State) (c i n : Nat) : (s.countCore c i n).lines = s.lines := by
  unfold State.countCore State.count; split <;> simp
@[simp] theorem State.countCore_dirty (s : State) (c i n : Nat) : (s.countCore c i n).dirty = s.dirty := by
  unfold State.countCore State.count; split <;> simp
@[simp] theorem State.countCore_l2 (s : State) (c i n : Nat) : (s.countCore c i n).l2 = s.l2 := by
  unfold State.countCore State.count; split <;> simp
@[simp] theorem State.countCore_cleared (s : State) (c i n : Nat) : (s.countCore c i n).cleared = s.cleared := by
  unfold State.countCore State.count; split <;> simp
@[simp] theorem State.countCore_ptes (s : State) (c i n : Nat) : (s.countCore c i n).ptes = s.ptes := by
  unfold State.countCore State.count; split <;> simp
@[simp] theorem State.countCore_pages (s : State) (c i n : Nat) : (s.countCore c i n).pages = s.pages := by
  unfold State.countCore State.count; split <;> simp
@[simp] theorem State.countCore_pend (s : State) (c i n : Nat) : (s.countCore c i n).pend = s.pend := by
  unfold State.countCore State.count; split <;> simp
@[simp] theorem State.countCore_passed (s : State) (c i n : Nat) : (s.countCore c i n).passed = s.passed := by
  unfold State.countCore State.count; split <;> simp
@[simp] theorem State.countCore_fences (s : State) (c i n : Nat) : (s.countCore c i n).fences = s.fences := by
  unfold State.countCore State.count; split <;> simp
@[simp] theorem State.countCore_arrivals (s : State) (c i n : Nat) : (s.countCore c i n).arrivals = s.arrivals := by
  unfold State.countCore State.count; split <;> simp
@[simp] theorem State.countCore_posts (s : State) (c i n : Nat) : (s.countCore c i n).posts = s.posts := by
  unfold State.countCore State.count; split <;> simp
@[simp] theorem State.countCore_nwrites (s : State) (c i n : Nat) : (s.countCore c i n).nwrites = s.nwrites := by
  unfold State.countCore State.count; split <;> simp
@[simp] theorem State.countCore_wakes (s : State) (c i n : Nat) : (s.countCore c i n).wakes = s.wakes := by
  unfold State.countCore State.count; split <;> simp
@[simp] theorem State.countCore_traps (s : State) (c i n : Nat) : (s.countCore c i n).traps = s.traps := by
  unfold State.countCore State.count; split <;> simp
@[simp] theorem State.countCore_active (s : State) (c i n : Nat) : (s.countCore c i n).active = s.active := by
  unfold State.countCore State.count; split <;> simp
@[simp] theorem State.countCore_locks (s : State) (c i n : Nat) : (s.countCore c i n).locks = s.locks := by
  unfold State.countCore State.count; split <;> simp
@[simp] theorem State.countCore_copyTurn (s : State) (c i n : Nat) : (s.countCore c i n).copyTurn = s.copyTurn := by
  unfold State.countCore State.count; split <;> simp
@[simp] theorem State.countCore_routeTurn (s : State) (c i n : Nat) : (s.countCore c i n).routeTurn = s.routeTurn := by
  unfold State.countCore State.count; split <;> simp
@[simp] theorem State.countCore_barriers (s : State) (c i n : Nat) : (s.countCore c i n).barriers = s.barriers := by
  unfold State.countCore State.count; split <;> simp
@[simp] theorem State.countCore_nextAge (s : State) (c i n : Nat) : (s.countCore c i n).nextAge = s.nextAge := by
  unfold State.countCore State.count; split <;> simp
@[simp] theorem State.countCore_keystone (s : State) (c i n : Nat) : (s.countCore c i n).keystone = s.keystone := by
  unfold State.countCore State.count; split <;> simp
@[simp] theorem State.countCore_ports (s : State) (c i n : Nat) : (s.countCore c i n).ports = s.ports := by
  unfold State.countCore State.count; split <;> simp
@[simp] theorem State.countCore_messages (s : State) (c i n : Nat) : (s.countCore c i n).messages = s.messages := by
  unfold State.countCore State.count; split <;> simp
@[simp] theorem State.countCore_joins (s : State) (c i n : Nat) : (s.countCore c i n).joins = s.joins := by
  unfold State.countCore State.count; split <;> simp
@[simp] theorem State.countCore_collEnded (s : State) (c i n : Nat) : (s.countCore c i n).collEnded = s.collEnded := by
  unfold State.countCore State.count; split <;> simp
@[simp] theorem State.countCore_host (s : State) (c i n : Nat) : (s.countCore c i n).host = s.host := by
  unfold State.countCore State.count; split <;> simp
@[simp] theorem State.countCore_samples (s : State) (c i n : Nat) : (s.countCore c i n).samples = s.samples := by
  unfold State.countCore State.count; split <;> simp
@[simp] theorem State.countCore_outgoing (s : State) (c i n : Nat) : (s.countCore c i n).outgoing = s.outgoing := by
  unfold State.countCore State.count; split <;> simp
@[simp] theorem State.countCore_log (s : State) (c i n : Nat) : (s.countCore c i n).log = s.log := by
  unfold State.countCore State.count; split <;> simp
@[simp] theorem State.countCore_logSeq (s : State) (c i n : Nat) : (s.countCore c i n).logSeq = s.logSeq := by
  unfold State.countCore State.count; split <;> simp
@[simp] theorem State.countCore_correctedNow (s : State) (c i n : Nat) : (s.countCore c i n).correctedNow = s.correctedNow := by
  unfold State.countCore State.count; split <;> simp
@[simp] theorem State.countCore_correctedAt (s : State) (c i n : Nat) : (s.countCore c i n).correctedAt = s.correctedAt := by
  unfold State.countCore State.count; split <;> simp
@[simp] theorem State.countCore_doomed (s : State) (c i n : Nat) : (s.countCore c i n).doomed = s.doomed := by
  unfold State.countCore State.count; split <;> simp
@[simp] theorem State.countCore_dispatch (s : State) (c i n : Nat) : (s.countCore c i n).dispatch = s.dispatch := by
  unfold State.countCore State.count; split <;> simp
@[simp] theorem State.countCore_fencedDecks (s : State) (c i n : Nat) : (s.countCore c i n).fencedDecks = s.fencedDecks := by
  unfold State.countCore State.count; split <;> simp

/-! ### tookTurn -/

@[simp] theorem State.tookTurn_cycle (s : State) (c sl : Nat) : (s.tookTurn c sl).cycle = s.cycle := rfl
@[simp] theorem State.tookTurn_timeQ (s : State) (c sl : Nat) : (s.tookTurn c sl).timeQ = s.timeQ := rfl
@[simp] theorem State.tookTurn_sag (s : State) (c sl : Nat) : (s.tookTurn c sl).sag = s.sag := rfl
@[simp] theorem State.tookTurn_locked (s : State) (c sl : Nat) : (s.tookTurn c sl).locked = s.locked := rfl
@[simp] theorem State.tookTurn_slew (s : State) (c sl : Nat) : (s.tookTurn c sl).slew = s.slew := rfl
@[simp] theorem State.tookTurn_stretched (s : State) (c sl : Nat) : (s.tookTurn c sl).stretched = s.stretched := rfl
@[simp] theorem State.tookTurn_order (s : State) (c sl : Nat) : (s.tookTurn c sl).order = s.order := rfl
@[simp] theorem State.tookTurn_uid (s : State) (c sl : Nat) : (s.tookTurn c sl).uid = s.uid := rfl
@[simp] theorem State.tookTurn_cur (s : State) (c sl : Nat) : (s.tookTurn c sl).cur = s.cur := rfl
@[simp] theorem State.tookTurn_arg (s : State) (c sl : Nat) : (s.tookTurn c sl).arg = s.arg := rfl
@[simp] theorem State.tookTurn_inputs (s : State) (c sl : Nat) : (s.tookTurn c sl).inputs = s.inputs := rfl
@[simp] theorem State.tookTurn_draws (s : State) (c sl : Nat) : (s.tookTurn c sl).draws = s.draws := rfl
@[simp] theorem State.tookTurn_estimates (s : State) (c sl : Nat) : (s.tookTurn c sl).estimates = s.estimates := rfl
@[simp] theorem State.tookTurn_regs (s : State) (c sl : Nat) : (s.tookTurn c sl).regs = s.regs := rfl
@[simp] theorem State.tookTurn_wrote (s : State) (c sl : Nat) : (s.tookTurn c sl).wrote = s.wrote := rfl
@[simp] theorem State.tookTurn_threads (s : State) (c sl : Nat) : (s.tookTurn c sl).threads = s.threads := rfl
@[simp] theorem State.tookTurn_mem (s : State) (c sl : Nat) : (s.tookTurn c sl).mem = s.mem := rfl
@[simp] theorem State.tookTurn_scratch (s : State) (c sl : Nat) : (s.tookTurn c sl).scratch = s.scratch := rfl
@[simp] theorem State.tookTurn_epochs (s : State) (c sl : Nat) : (s.tookTurn c sl).epochs = s.epochs := rfl
@[simp] theorem State.tookTurn_badWords (s : State) (c sl : Nat) : (s.tookTurn c sl).badWords = s.badWords := rfl
@[simp] theorem State.tookTurn_lost (s : State) (c sl : Nat) : (s.tookTurn c sl).lost = s.lost := rfl
@[simp] theorem State.tookTurn_lines (s : State) (c sl : Nat) : (s.tookTurn c sl).lines = s.lines := rfl
@[simp] theorem State.tookTurn_dirty (s : State) (c sl : Nat) : (s.tookTurn c sl).dirty = s.dirty := rfl
@[simp] theorem State.tookTurn_l2 (s : State) (c sl : Nat) : (s.tookTurn c sl).l2 = s.l2 := rfl
@[simp] theorem State.tookTurn_cleared (s : State) (c sl : Nat) : (s.tookTurn c sl).cleared = s.cleared := rfl
@[simp] theorem State.tookTurn_ptes (s : State) (c sl : Nat) : (s.tookTurn c sl).ptes = s.ptes := rfl
@[simp] theorem State.tookTurn_pages (s : State) (c sl : Nat) : (s.tookTurn c sl).pages = s.pages := rfl
@[simp] theorem State.tookTurn_pend (s : State) (c sl : Nat) : (s.tookTurn c sl).pend = s.pend := rfl
@[simp] theorem State.tookTurn_passed (s : State) (c sl : Nat) : (s.tookTurn c sl).passed = s.passed := rfl
@[simp] theorem State.tookTurn_fences (s : State) (c sl : Nat) : (s.tookTurn c sl).fences = s.fences := rfl
@[simp] theorem State.tookTurn_arrivals (s : State) (c sl : Nat) : (s.tookTurn c sl).arrivals = s.arrivals := rfl
@[simp] theorem State.tookTurn_posts (s : State) (c sl : Nat) : (s.tookTurn c sl).posts = s.posts := rfl
@[simp] theorem State.tookTurn_nwrites (s : State) (c sl : Nat) : (s.tookTurn c sl).nwrites = s.nwrites := rfl
@[simp] theorem State.tookTurn_wakes (s : State) (c sl : Nat) : (s.tookTurn c sl).wakes = s.wakes := rfl
@[simp] theorem State.tookTurn_traps (s : State) (c sl : Nat) : (s.tookTurn c sl).traps = s.traps := rfl
@[simp] theorem State.tookTurn_active (s : State) (c sl : Nat) : (s.tookTurn c sl).active = s.active := rfl
@[simp] theorem State.tookTurn_locks (s : State) (c sl : Nat) : (s.tookTurn c sl).locks = s.locks := rfl
@[simp] theorem State.tookTurn_copyTurn (s : State) (c sl : Nat) : (s.tookTurn c sl).copyTurn = s.copyTurn := rfl
@[simp] theorem State.tookTurn_routeTurn (s : State) (c sl : Nat) : (s.tookTurn c sl).routeTurn = s.routeTurn := rfl
@[simp] theorem State.tookTurn_barriers (s : State) (c sl : Nat) : (s.tookTurn c sl).barriers = s.barriers := rfl
@[simp] theorem State.tookTurn_ctxs (s : State) (c sl : Nat) : (s.tookTurn c sl).ctxs = s.ctxs := rfl
@[simp] theorem State.tookTurn_nextAge (s : State) (c sl : Nat) : (s.tookTurn c sl).nextAge = s.nextAge := rfl
@[simp] theorem State.tookTurn_keystone (s : State) (c sl : Nat) : (s.tookTurn c sl).keystone = s.keystone := rfl
@[simp] theorem State.tookTurn_ports (s : State) (c sl : Nat) : (s.tookTurn c sl).ports = s.ports := rfl
@[simp] theorem State.tookTurn_messages (s : State) (c sl : Nat) : (s.tookTurn c sl).messages = s.messages := rfl
@[simp] theorem State.tookTurn_joins (s : State) (c sl : Nat) : (s.tookTurn c sl).joins = s.joins := rfl
@[simp] theorem State.tookTurn_collEnded (s : State) (c sl : Nat) : (s.tookTurn c sl).collEnded = s.collEnded := rfl
@[simp] theorem State.tookTurn_host (s : State) (c sl : Nat) : (s.tookTurn c sl).host = s.host := rfl
@[simp] theorem State.tookTurn_samples (s : State) (c sl : Nat) : (s.tookTurn c sl).samples = s.samples := rfl
@[simp] theorem State.tookTurn_outgoing (s : State) (c sl : Nat) : (s.tookTurn c sl).outgoing = s.outgoing := rfl
@[simp] theorem State.tookTurn_log (s : State) (c sl : Nat) : (s.tookTurn c sl).log = s.log := rfl
@[simp] theorem State.tookTurn_logSeq (s : State) (c sl : Nat) : (s.tookTurn c sl).logSeq = s.logSeq := rfl
@[simp] theorem State.tookTurn_correctedNow (s : State) (c sl : Nat) : (s.tookTurn c sl).correctedNow = s.correctedNow := rfl
@[simp] theorem State.tookTurn_correctedAt (s : State) (c sl : Nat) : (s.tookTurn c sl).correctedAt = s.correctedAt := rfl
@[simp] theorem State.tookTurn_doomed (s : State) (c sl : Nat) : (s.tookTurn c sl).doomed = s.doomed := rfl
@[simp] theorem State.tookTurn_dispatch (s : State) (c sl : Nat) : (s.tookTurn c sl).dispatch = s.dispatch := rfl
@[simp] theorem State.tookTurn_fencedDecks (s : State) (c sl : Nat) : (s.tookTurn c sl).fencedDecks = s.fencedDecks := rfl

end Sys2Proof.Machine
end

