-- ==== Sys2Proof/Laws/Table.lean ====
section
/-! SUPPORT. Reading a finite table after writing it, and the canonical form that every write keeps. -/
namespace Sys2Proof.Machine
set_option Elab.async false
variable {α : Type}

/-! ### What is read after a write -/

@[simp] theorem tabGet?_set_self (t : Tab α) (k : Nat) (v : α) : tabGet? (tabSet t k v) k = some v := by
  induction t with
  | nil => simp [tabSet, tabGet?]
  | cons e t ih =>
    obtain ⟨k', v'⟩ := e
    simp only [tabSet]
    split
    · simp [tabGet?]
    · split
      · simp [tabGet?]
      · rename_i h; simp [tabGet?, Ne.symm h, ih]

theorem tabGet?_set_other (t : Tab α) {k j : Nat} (v : α) (h : j ≠ k) : tabGet? (tabSet t k v) j = tabGet? t j := by
  induction t with
  | nil => simp [tabSet, tabGet?, Ne.symm h]
  | cons e t ih =>
    obtain ⟨k', v'⟩ := e
    simp only [tabSet]
    split
    · simp [tabGet?, Ne.symm h]
    · split
      · rename_i hk; subst hk; simp [tabGet?, Ne.symm h]
      · simp [tabGet?, ih]

@[simp] theorem tabGet?_erase_self (t : Tab α) (k : Nat) : tabGet? (tabErase t k) k = none := by
  induction t with
  | nil => rfl
  | cons e t ih =>
    obtain ⟨k', v'⟩ := e
    simp only [tabErase]
    split
    · exact ih
    · rename_i h; simp [tabGet?, h, ih]

theorem tabGet?_erase_other (t : Tab α) {k j : Nat} (h : j ≠ k) : tabGet? (tabErase t k) j = tabGet? t j := by
  induction t with
  | nil => rfl
  | cons e t ih =>
    obtain ⟨k', v'⟩ := e
    simp only [tabErase]
    split
    · rename_i hk; subst hk; simp [tabGet?, Ne.symm h, ih]
    · simp [tabGet?, ih]

@[simp] theorem tabGet_put_self [DecidableEq α] (t : Tab α) (k : Nat) (v d : α) : tabGet (tabPut t k v d) k d = v := by
  unfold tabGet tabPut
  split <;> simp_all

theorem tabGet_put_other [DecidableEq α] (t : Tab α) {k j : Nat} (v d d' : α) (h : j ≠ k) :
    tabGet (tabPut t k v d) j d' = tabGet t j d' := by
  unfold tabGet tabPut
  split
  · rw [tabGet?_erase_other t h]
  · rw [tabGet?_set_other t v h]

/-! ### The canonical form -/

/-- Every key of a table is at least a bound. -/
def TabAbove (t : Tab α) (lo : Nat) : Prop := ∀ e ∈ t, lo < e.1

theorem tabSorted_cons {k : Nat} {v : α} {t : Tab α} :
    tabSorted ((k, v) :: t) = true ↔ tabSorted t = true ∧ TabAbove t k := by
  induction t generalizing k v with
  | nil => simp [tabSorted, TabAbove]
  | cons e t ih =>
    obtain ⟨k', v'⟩ := e
    simp only [tabSorted, Bool.and_eq_true, decide_eq_true_eq, TabAbove, List.mem_cons, forall_eq_or_imp]
    constructor
    · rintro ⟨h, hs⟩
      refine ⟨hs, h, fun e he => ?_⟩
      exact Nat.lt_trans h ((ih.mp hs).2 e he)
    · rintro ⟨hs, h, _⟩; exact ⟨h, hs⟩

theorem mem_tabSet {t : Tab α} {k : Nat} {v : α} {e : Nat × α} (h : e ∈ tabSet t k v) : e = (k, v) ∨ e ∈ t := by
  induction t with
  | nil => simpa [tabSet] using h
  | cons e' t ih =>
    obtain ⟨k', v'⟩ := e'
    simp only [tabSet] at h
    split at h
    · simpa using h
    · split at h
      · rcases List.mem_cons.mp h with h | h
        · exact .inl h
        · exact .inr (List.mem_cons_of_mem _ h)
      · rcases List.mem_cons.mp h with h | h
        · exact .inr (by simp [h])
        · rcases ih h with h | h
          · exact .inl h
          · exact .inr (List.mem_cons_of_mem _ h)

theorem mem_tabErase {t : Tab α} {k : Nat} {e : Nat × α} (h : e ∈ tabErase t k) : e ∈ t := by
  induction t with
  | nil => simp [tabErase] at h
  | cons e' t ih =>
    obtain ⟨k', v'⟩ := e'
    simp only [tabErase] at h
    split at h
    · exact List.mem_cons_of_mem _ (ih h)
    · rcases List.mem_cons.mp h with h | h
      · simp [h]
      · exact List.mem_cons_of_mem _ (ih h)

/-- Writing a table keeps its keys rising. -/
theorem tabSet_sorted {t : Tab α} (k : Nat) (v : α) (h : tabSorted t = true) : tabSorted (tabSet t k v) = true := by
  induction t with
  | nil => simp [tabSet, tabSorted]
  | cons e t ih =>
    obtain ⟨k', v'⟩ := e
    have hs := tabSorted_cons.mp h
    simp only [tabSet]
    split
    · rename_i hk
      refine tabSorted_cons.mpr ⟨h, fun e he => ?_⟩
      rcases List.mem_cons.mp he with rfl | he
      · exact hk
      · exact Nat.lt_trans hk (hs.2 e he)
    · split
      · rename_i hk; subst hk; exact tabSorted_cons.mpr hs
      · refine tabSorted_cons.mpr ⟨ih hs.1, fun e he => ?_⟩
        rcases mem_tabSet he with rfl | he
        · simp; omega
        · exact hs.2 e he

/-- Erasing a key keeps the keys rising. -/
theorem tabErase_sorted {t : Tab α} (k : Nat) (h : tabSorted t = true) : tabSorted (tabErase t k) = true := by
  induction t with
  | nil => rfl
  | cons e t ih =>
    obtain ⟨k', v'⟩ := e
    have hs := tabSorted_cons.mp h
    simp only [tabErase]
    split
    · exact ih hs.1
    · exact tabSorted_cons.mpr ⟨ih hs.1, fun e he => hs.2 e (mem_tabErase he)⟩

theorem tabFilter_sorted {t : Tab α} (p : Nat × α → Bool) (h : tabSorted t = true) : tabSorted (t.filter p) = true := by
  induction t with
  | nil => rfl
  | cons e t ih =>
    obtain ⟨k', v'⟩ := e
    have hs := tabSorted_cons.mp h
    simp only [List.filter_cons]
    split
    · exact tabSorted_cons.mpr ⟨ih hs.1, fun e he => hs.2 e (List.mem_of_mem_filter he)⟩
    · exact ih hs.1

theorem tabCanon_iff [DecidableEq α] {t : Tab α} {d : Nat → α} :
    tabCanon t d = true ↔ tabSorted t = true ∧ ∀ e ∈ t, e.2 ≠ d e.1 := by
  simp [tabCanon, List.all_eq_true]

/-- A write in a table with a default keeps the canonical form. -/
theorem tabPut_canon [DecidableEq α] {t : Tab α} {d : Nat → α} (k : Nat) (v : α) (h : tabCanon t d = true) :
    tabCanon (tabPut t k v (d k)) d = true := by
  obtain ⟨hs, hd⟩ := tabCanon_iff.mp h
  unfold tabPut
  split
  · exact tabCanon_iff.mpr ⟨tabErase_sorted k hs, fun e he => hd e (mem_tabErase he)⟩
  · rename_i hv
    refine tabCanon_iff.mpr ⟨tabSet_sorted k v hs, fun e he => ?_⟩
    rcases mem_tabSet he with rfl | he
    · exact hv
    · exact hd e he

/-- Keeping some entries keeps the canonical form. -/
theorem tabFilter_canon [DecidableEq α] {t : Tab α} {d : Nat → α} (p : Nat × α → Bool) (h : tabCanon t d = true) :
    tabCanon (t.filter p) d = true := by
  obtain ⟨hs, hd⟩ := tabCanon_iff.mp h
  exact tabCanon_iff.mpr ⟨tabFilter_sorted p hs, fun e he => hd e (List.mem_of_mem_filter he)⟩

/-- Two canonical tables that read alike are the same data. -/
theorem tabCanon_ext [DecidableEq α] {t u : Tab α} {d : Nat → α} (ht : tabCanon t d = true) (hu : tabCanon u d = true)
    (h : ∀ k, tabGet t k (d k) = tabGet u k (d k)) : t = u := by
  have key : ∀ {t : Tab α}, tabCanon t d = true → ∀ k, tabGet? t k = if tabGet t k (d k) = d k then none else some (tabGet t k (d k)) := by
    intro t ht k
    obtain ⟨_, hd⟩ := tabCanon_iff.mp ht
    have mem : ∀ {l : Tab α} {v : α}, tabGet? l k = some v → (k, v) ∈ l := by
      intro l v
      induction l with
      | nil => simp [tabGet?]
      | cons e l ih =>
        obtain ⟨k', v'⟩ := e
        simp only [tabGet?]
        split
        · rename_i hk; subst hk; rintro ⟨rfl⟩; simp
        · intro hv; exact List.mem_cons_of_mem _ (ih hv)
    unfold tabGet
    cases hg : tabGet? t k with
    | none => simp
    | some v =>
      have := hd _ (mem hg)
      simp_all
  have same : ∀ k, tabGet? t k = tabGet? u k := fun k => by rw [key ht, key hu, h]
  have st := (tabCanon_iff.mp ht).1
  have su := (tabCanon_iff.mp hu).1
  clear h ht hu key
  have above_none : ∀ {l : Tab α} {k : Nat}, TabAbove l k → tabGet? l k = none := by
    intro l k hl
    induction l with
    | nil => rfl
    | cons e l ih =>
      obtain ⟨k', v'⟩ := e
      have h1 := hl (k', v') (by simp)
      have : k' ≠ k := by simp at h1; omega
      simp only [tabGet?, this, if_false]
      exact ih fun e he => hl e (List.mem_cons_of_mem _ he)
  induction t generalizing u with
  | nil =>
    cases u with
    | nil => rfl
    | cons e u => have := same e.1; simp [tabGet?] at this
  | cons e t ih =>
    obtain ⟨k, v⟩ := e
    obtain ⟨st', at'⟩ := tabSorted_cons.mp st
    cases u with
    | nil => have := same k; simp [tabGet?] at this
    | cons e' u =>
      obtain ⟨k', v'⟩ := e'
      obtain ⟨su', au'⟩ := tabSorted_cons.mp su
      have hk : k = k' := by
        rcases Nat.lt_trichotomy k k' with hlt | heq | hgt
        · have := same k
          rw [above_none (l := (k', v') :: u)] at this
          · simp [tabGet?] at this
          · intro e he
            rcases List.mem_cons.mp he with rfl | he
            · exact hlt
            · exact Nat.lt_trans hlt (au' e he)
        · exact heq
        · have := (same k').symm
          rw [above_none (l := (k, v) :: t)] at this
          · simp [tabGet?] at this
          · intro e he
            rcases List.mem_cons.mp he with rfl | he
            · exact hgt
            · exact Nat.lt_trans hgt (at' e he)
      subst hk
      have hv : v = v' := by have := same k; simpa [tabGet?] using this
      subst hv
      congr 1
      refine ih (fun j => ?_) st' su'
      by_cases hj : j = k
      · subst hj; rw [above_none at', above_none au']
      · have := same j; simpa [tabGet?, Ne.symm hj] using this

end Sys2Proof.Machine
end

