-- ==== Sys2Proof/Laws/Memory.lean ====
section
/-! SUPPORT. Memory at its home: what is read after a write, what a write leaves alone, and the canonical form that
every write keeps (R2, R45, R150). -/
namespace Sys2Proof.Machine
set_option Elab.async false

/-! ### One byte -/

@[simp] theorem State.homeByte_setHomeByte_self (s : State) (a : Nat) (b : Byte)
    (h : a < scratchHome ∨ (s.core ((a - scratchHome) / 2 ^ 20)).fenced = false) : (s.setHomeByte a b).homeByte a = b := by
  unfold State.setHomeByte State.homeByte
  split
  · rcases h with h | h
    · omega
    · simp only [h, Bool.false_eq_true, if_false]
      exact tabGet_put_self _ _ _ _
  · simp

theorem State.homeByte_setHomeByte_other (s : State) {a a' : Nat} (b : Byte) (h : a' ≠ a) :
    (s.setHomeByte a b).homeByte a' = s.homeByte a' := by
  unfold State.setHomeByte
  split
  · dsimp only
    split
    · rfl
    · unfold State.homeByte
      split
      · exact tabGet_put_other _ _ _ _ (by omega)
      · rfl
  · unfold State.homeByte
    split
    · rfl
    · exact tabGet_put_other _ _ _ _ h

/-- Writing one byte keeps the canonical form of memory. -/
theorem State.setHomeByte_wf (s : State) (a : Nat) (b : Byte) (h : Memory.wf s.mem = true) :
    Memory.wf (s.setHomeByte a b).mem = true := by
  unfold State.setHomeByte
  split
  · dsimp only; split <;> exact h
  · exact tabPut_canon (d := fun _ => 0) a b h

/-- Writing one byte changes memory and the scratchpads alone. -/
theorem State.setHomeByte_eq (s : State) (a : Nat) (b : Byte) :
    s.setHomeByte a b = { s with mem := (s.setHomeByte a b).mem, scratch := (s.setHomeByte a b).scratch } := by
  unfold State.setHomeByte
  split
  · dsimp only; split <;> rfl
  · rfl

theorem State.scratchDefault_setHomeByte (s : State) (a : Nat) (b : Byte) :
    (s.setHomeByte a b).scratchDefault = s.scratchDefault := by
  rw [State.setHomeByte_eq]; rfl

theorem State.setHomeByte_scratchWf (s : State) (a : Nat) (b : Byte) (h : s.scratchWf = true) :
    (s.setHomeByte a b).scratchWf = true := by
  unfold State.scratchWf
  rw [State.scratchDefault_setHomeByte]
  unfold State.setHomeByte
  split
  · dsimp only
    split
    · exact h
    · exact tabPut_canon (d := s.scratchDefault) _ b h
  · exact h

/-! ### The bytes of one access -/

/-- The bytes of an access, written one by one. -/
def State.writeAll (s : State) (w : Tab Byte) : State := w.foldl (fun s e => s.setHomeByte e.1 e.2) s

theorem State.applyWrites_mem (s : State) (w : Tab Byte) : (s.applyWrites w).mem = (s.writeAll w).mem := rfl
theorem State.applyWrites_homeByte (s : State) (w : Tab Byte) (a : Nat) :
    (s.applyWrites w).homeByte a = (s.writeAll w).homeByte a := rfl

/-- An access changes memory, the scratchpads, the lines that are dirty or lost and the spoiled words alone. -/
theorem State.applyWrites_eq (s : State) (w : Tab Byte) :
    s.applyWrites w = { s with mem := (s.applyWrites w).mem, scratch := (s.applyWrites w).scratch,
                               dirty := (s.applyWrites w).dirty, lost := (s.applyWrites w).lost,
                               badWords := (s.applyWrites w).badWords } := by
  have key : s.writeAll w = { s with mem := (s.writeAll w).mem, scratch := (s.writeAll w).scratch } := by
    induction w generalizing s with
    | nil => rfl
    | cons e w ih =>
      change (s.setHomeByte e.1 e.2).writeAll w = { s with mem := ((s.setHomeByte e.1 e.2).writeAll w).mem, scratch := ((s.setHomeByte e.1 e.2).writeAll w).scratch }
      have h1 := ih (s.setHomeByte e.1 e.2)
      have h2 := State.setHomeByte_eq s e.1 e.2
      generalize s.setHomeByte e.1 e.2 = u at h1 h2 ⊢
      rw [h1, h2]
  change ({ s.writeAll w with dirty := _, lost := _, badWords := _ } : State) = _
  rw [key]
  rfl

/-- Every byte of an access keeps memory canonical. -/
theorem State.applyWrites_wf (s : State) (w : Tab Byte) (h : Memory.wf s.mem = true) : Memory.wf (s.applyWrites w).mem = true := by
  rw [State.applyWrites_mem]
  induction w generalizing s with
  | nil => exact h
  | cons e w ih => exact ih (s.setHomeByte e.1 e.2) (s.setHomeByte_wf e.1 e.2 h)

/-- An access leaves every address that it does not write as it was. -/
theorem State.applyWrites_frame (s : State) (w : Tab Byte) (a : Nat) (h : ∀ e ∈ w, e.1 ≠ a) :
    (s.applyWrites w).homeByte a = s.homeByte a := by
  rw [State.applyWrites_homeByte]
  induction w generalizing s with
  | nil => rfl
  | cons e w ih =>
    change ((s.setHomeByte e.1 e.2).writeAll w).homeByte a = s.homeByte a
    rw [ih (s.setHomeByte e.1 e.2) fun e' h' => h e' (List.mem_cons_of_mem _ h')]
    exact s.homeByte_setHomeByte_other e.2 (Ne.symm (h e (by simp)))

/-! ### Registers -/

@[simp] theorem State.regAt_setReg_self (s : State) (c n : Nat) (r : Reg) : (s.setReg c n r).regAt c n = r := by
  simp [State.regAt, State.setReg]

theorem State.regAt_setReg_other (s : State) {c n c' n' : Nat} (r : Reg) (h : c' * 2048 + n' ≠ c * 2048 + n) :
    (s.setReg c n r).regAt c' n' = s.regAt c' n' := tabGet_put_other _ _ _ _ h

@[simp] theorem State.thread?_setThread_self (s : State) (c sl : Nat) (t : Thread) : (s.setThread c sl t).thread? c sl = some t :=
  tabGet?_set_self _ _ _

theorem State.thread?_setThread_other (s : State) {c sl c' sl' : Nat} (t : Thread) (h : c' * 64 + sl' ≠ c * 64 + sl) :
    (s.setThread c sl t).thread? c' sl' = s.thread? c' sl' := tabGet?_set_other _ _ h

@[simp] theorem State.core_setCore_self (s : State) (c : Nat) (k : Core) : (s.setCore c k).core c = k := by
  simp [State.core, State.setCore]

theorem State.core_setCore_other (s : State) {c c' : Nat} (k : Core) (h : c' ≠ c) : (s.setCore c k).core c' = s.core c' :=
  tabGet_put_other _ _ _ _ h

@[simp] theorem State.ctx?_setCtx_self (s : State) (p : Nat) (x : Ctx) : (s.setCtx p x).ctx? p = some x :=
  tabGet?_set_self _ _ _

theorem State.ctx?_setCtx_other (s : State) {p p' : Nat} (x : Ctx) (h : p' ≠ p) : (s.setCtx p x).ctx? p' = s.ctx? p' :=
  tabGet?_set_other _ _ h

/-- Register and thread reads look at their own tables alone. -/
theorem State.regAt_congr {s u : State} (h : u.regs = s.regs) (c n : Nat) : u.regAt c n = s.regAt c n := by
  simp [State.regAt, h]
theorem State.thread?_congr {s u : State} (h : u.threads = s.threads) (c sl : Nat) : u.thread? c sl = s.thread? c sl := by
  simp [State.thread?, h]
theorem State.core_congr {s u : State} (h : u.cores = s.cores) (c : Nat) : u.core c = s.core c := by
  simp [State.core, h]

/-- The memory after reset is canonical. -/
theorem State.reset_wf : Memory.wf State.reset.mem = true := rfl
theorem State.reset_scratchWf : State.reset.scratchWf = true := rfl

end Sys2Proof.Machine
end

