-- ==== Sys2Proof/Laws/Issue.lean ====
section
/-! SUPPORT. What the shared operations of an issue do: who issues, the gate, the reads, and going in flight (R25, R26, R29, R33,
R34, R36, R312). -/
namespace Sys2Proof.Machine
set_option Elab.async false

/-- The thread that issues, as the issue's operations take it. -/
def opOf (s : State) (f : Form) (c sl : Nat) (t : Thread) : Op :=
  { c := c, sl := sl, p := ((s.core c).part).getD 0, t := t, pair := none, form := f }

theorem Issuing.issuer {s : State} {c sl : Nat} {t : Thread} (h : Issuing s c sl t) (f : Form) :
    s.issuer f = some (opOf s f c sl t) := by
  simp [State.issuer, h.cur, h.slot, h.ready, opOf]

/-- Every register that a form names lies in the window. -/
theorem Form.outOfRange_none {f : Form} {size : Nat} (hs : ∀ x ∈ f.srcs, x.reg < size) (hd : ∀ d ∈ f.dsts, d.2 < size) :
    f.outOfRange size = none := by
  have : ((f.srcs.map fun x => (x.field, x.reg)) ++ f.dsts).filter (fun e => decide (size ≤ e.2)) = [] := by
    rw [List.filter_eq_nil_iff]
    intro e he
    rcases List.mem_append.mp he with he | he
    · obtain ⟨x, hx, rfl⟩ := List.mem_map.mp he
      have := hs x hx
      simp; omega
    · have := hd e he
      simp; omega
  simp [Form.outOfRange, this]

/-- What a form reads and takes as destinations is ready (R29, R33, R34, R36, R87). -/
structure FormReady (s : State) (c : Nat) (t : Thread) (f : Form) : Prop where
  window : ∀ x ∈ f.srcs, x.reg < t.size
  reads : ∀ x ∈ f.srcs, x.flag = false → Readable s c t x.reg
  looks : ∀ x ∈ f.srcs, x.flag = true → (s.regAt c (t.base + x.reg)).lost = false
  writes : ∀ d ∈ f.dsts, Writable s c t d.2
  apart : f.clash = none

theorem FormReady.gate {s : State} {c sl : Nat} {t : Thread} {f : Form} (h : FormReady s c t f)
    (hl : (opOf s f c sl t).loopEnd = false) : s.gate (opOf s f c sl t) = .go := by
  have hr := Form.outOfRange_none h.window fun d hd => (h.writes d hd).inWindow
  have hb : f.dsts.filter (fun d => !(s.regAt c (t.base + d.2)).full && s.outstanding c (t.base + d.2)) = [] := by
    rw [List.filter_eq_nil_iff]
    intro d hd
    rcases (h.writes d hd).settled with e | e <;> simp [e]
  have he : f.srcs.filter (fun x => !x.flag && !(s.regAt c (t.base + x.reg)).full) = [] := by
    rw [List.filter_eq_nil_iff]
    intro x hx
    cases hf : x.flag with
    | true => simp
    | false => simp [(h.reads x hx hf).full]
  have hp : f.srcs.find? (fun x => (s.regAt c (t.base + x.reg)).lost && (x.trap || x.flag || !s.awaited c (t.base + x.reg))) = none := by
    rw [List.find?_eq_none]
    intro x hx
    cases hf : x.flag with
    | true => simp [h.looks x hx hf]
    | false => simp [Reg.lost, (h.reads x hx hf).sound]
  unfold State.gate
  have e1 : (opOf s f c sl t).form = f := rfl
  have e2 : (opOf s f c sl t).t = t := rfl
  have e3 : (opOf s f c sl t).c = c := rfl
  simp only [hl, e1, e2, e3, hr, h.apart, hb, he, hp]
  rfl

theorem FormReady.badRead {s : State} {c sl : Nat} {t : Thread} {f : Form} (h : FormReady s c t f) :
    s.badRead (opOf s f c sl t) = false := by
  unfold State.badRead
  rw [List.any_eq_false]
  intro x hx
  cases hf : x.flag with
  | true => simp
  | false =>
    have := (h.reads x hx hf).correctable
    have : ¬ 2 ≤ (s.regAt (opOf s f c sl t).c ((opOf s f c sl t).t.base + x.reg)).flips := Nat.not_le.mpr this
    rw [decide_eq_false this, Bool.and_false]
    decide

/-- An instruction whose operands are ready issues: the reads correct what they find, and its own part follows. -/
theorem Issuing.issue {s : State} {c sl : Nat} {t : Thread} (h : Issuing s c sl t) {f : Form} (hf : FormReady s c t f)
    (hl : (opOf s f c sl t).loopEnd = false) (body : Op → State → State) :
    s.issue f body = .next (body (opOf s f c sl t) (s.correctReads (opOf s f c sl t))) := by
  unfold State.issue
  rw [h.issuer f]
  have hm : (opOf s f c sl t).follows = false := by simp [opOf, Op.follows]
  simp only [hm]
  unfold State.issueOwn
  simp [hf.gate hl, hf.badRead]

/-- An instruction of a major outside the control transfers is not at odds with a loop's end (R92). -/
theorem loopEnd_of_major {s : State} {f : Form} {c sl : Nat} {t : Thread} (h : f.major < 0x17 ∨ 0x1D < f.major) :
    (opOf s f c sl t).loopEnd = false := by
  unfold Op.loopEnd opOf
  simp only [Option.isSome_none, Bool.false_or, Bool.and_eq_false_iff, decide_eq_false_iff_not]
  omega

/-! ### The reads -/

theorem SameReg.refl (r : Reg) : SameReg r r := ⟨rfl, rfl, rfl, rfl, rfl⟩
theorem SameReg.trans {r q p : Reg} (h : SameReg r q) (g : SameReg q p) : SameReg r p :=
  ⟨g.val.trans h.val, g.full.trans h.full, g.zf.trans h.zf, g.poison.trans h.poison, g.token.trans h.token⟩

theorem OnlyFlips.refl (s : State) : OnlyFlips s s := ⟨fun _ _ => .refl _, fun _ => rfl, fun _ => rfl, rfl⟩

theorem OnlyFlips.trans {s u v : State} (h : OnlyFlips s u) (g : OnlyFlips u v) : OnlyFlips s v where
  regs c n := (h.regs c n).trans (g.regs c n)
  cores c := (g.cores c).trans (h.cores c)
  ctxs p := (g.ctxs p).trans (h.ctxs p)
  rest := by rw [g.rest, h.rest]

theorem State.regAt_setReg (s : State) (c n c' n' : Nat) (r : Reg) :
    (s.setReg c n r).regAt c' n' = if c' * 2048 + n' = c * 2048 + n then r else s.regAt c' n' := by
  split
  · rename_i h
    unfold State.regAt State.setReg
    rw [h]
    exact tabGet_put_self _ _ _ _
  · rename_i h; exact s.regAt_setReg_other r h

theorem State.core_setCore (s : State) (c c' : Nat) (k : Core) : (s.setCore c k).core c' = if c' = c then k else s.core c' := by
  split
  · rename_i h; subst h; exact s.core_setCore_self _ k
  · rename_i h; exact s.core_setCore_other k h

theorem State.core_modCore (s : State) (c c' : Nat) (f : Core → Core) :
    (s.modCore c f).core c' = if c' = c then f (s.core c) else s.core c' := s.core_setCore c c' _

/-- A count changes the counts of contexts alone. -/
theorem State.ctx?_modCtx_still (s : State) (p : Nat) (g : Ctx → Tab Nat) (p' : Nat) :
    ((s.modCtx p fun x => { x with counts := g x }).ctx? p').map Ctx.still = (s.ctx? p').map Ctx.still := by
  unfold State.modCtx
  cases h : s.ctx? p with
  | none => rfl
  | some x =>
    by_cases hp : p' = p
    · subst hp; simp [h, Ctx.still]
    · simp only [s.ctx?_setCtx_other _ hp]

theorem State.ctx?_countCore_still (s : State) (c i n p : Nat) :
    ((s.countCore c i n).ctx? p).map Ctx.still = (s.ctx? p).map Ctx.still := by
  unfold State.countCore
  split
  · exact s.ctx?_modCtx_still _ _ _
  · rfl

theorem State.core_countCore (s : State) (c i n c' : Nat) : (s.countCore c i n).core c' = s.core c' :=
  State.core_congr (by simp) c'

theorem State.countCore_eq (s : State) (c i n : Nat) : s.countCore c i n = { s with ctxs := (s.countCore c i n).ctxs } := by
  unfold State.countCore State.count State.modCtx
  split
  · split <;> rfl
  · rfl

theorem OnlyFlips.note (s : State) (c source : Nat) (injected : Bool) : OnlyFlips s (s.noteCorrected c source injected) := by
  obtain ⟨m, hu⟩ : ∃ m, s.noteCorrected c source injected =
      { (s.modCore c fun k => { k with corrected := tabSet k.corrected source (tabGet k.corrected source 0 + 1) }).countCore c 11 1 with correctedNow := m } := by
    unfold State.noteCorrected
    dsimp only
    split
    · exact ⟨_, rfl⟩
    · exact ⟨_, rfl⟩
  rw [hu]
  refine ⟨fun c' n => ?_, fun c' => ?_, fun p => ?_, ?_⟩
  · have h : (State.countCore (s.modCore c fun k => { k with corrected := tabSet k.corrected source (tabGet k.corrected source 0 + 1) }) c 11 1).regs = s.regs := by simp
    have : ∀ u : State, u.regs = s.regs → SameReg (s.regAt c' n) (u.regAt c' n) := fun u hu => by
      rw [State.regAt_congr hu]; exact .refl _
    exact this _ h
  · change (((s.modCore c fun k => { k with corrected := tabSet k.corrected source (tabGet k.corrected source 0 + 1) }).countCore c 11 1).core c').still = _
    rw [State.core_countCore, State.core_modCore]
    split
    · rename_i h; subst h; rfl
    · rfl
  · exact State.ctx?_countCore_still _ c 11 1 p
  · rw [State.countCore_eq]
    rfl

theorem OnlyFlips.flip (s : State) (c n : Nat) (k : Nat) : OnlyFlips s (s.setReg c n { s.regAt c n with flips := k }) := by
  refine ⟨fun c' n' => ?_, fun _ => rfl, fun _ => rfl, rfl⟩
  rw [State.regAt_setReg]
  split
  · rename_i h
    have : s.regAt c' n' = s.regAt c n := by unfold State.regAt; rw [h]
    rw [this]; exact ⟨rfl, rfl, rfl, rfl, rfl⟩
  · exact .refl _

/-- Reads of register entries only correct. -/
theorem State.correctRegs_only (s : State) (c : Nat) (l : List Nat) : OnlyFlips s (s.correctRegs c l) := by
  unfold State.correctRegs
  induction l generalizing s with
  | nil => exact .refl s
  | cons x l ih =>
    rw [List.foldl_cons]
    refine OnlyFlips.trans ?_ (ih _)
    dsimp only
    split
    · exact (OnlyFlips.flip s _ _ _).trans (OnlyFlips.note _ _ _ _)
    · exact .refl s

/-- The reads of an issue only correct. -/
theorem State.correctReads_only (s : State) (o : Op) : OnlyFlips s (s.correctReads o) := s.correctRegs_only _ _

/-! ### Going in flight -/

theorem State.tookTurn_still (s : State) (c sl c' : Nat) : ((s.tookTurn c sl).core c').still = (s.core c').still := by
  unfold State.tookTurn
  rw [State.core_modCore]
  split
  · rename_i h; subst h; rfl
  · rfl

/-- Emptying entries changes their full/empty bits alone. -/
theorem State.emptyAll_regs (s : State) (c : Nat) (l : List Nat) (hl : ∀ e ∈ l, e < 2048) (u : State)
    (hu : u = l.foldl (fun s e => s.setFull c e false) s) :
    u = { s with regs := u.regs } ∧ (∀ c' n, n < 2048 → ¬(c' = c ∧ n ∈ l) → u.regAt c' n = s.regAt c' n) ∧
      ∀ n, n ∈ l → (u.regAt c n).full = false := by
  induction l generalizing s with
  | nil => subst hu; exact ⟨rfl, fun _ _ _ _ => rfl, by simp⟩
  | cons e l ih =>
    rw [List.foldl_cons] at hu
    have he : e < 2048 := hl e (by simp)
    obtain ⟨h1, h2, h3⟩ := ih (s.setFull c e false) (fun x hx => hl x (List.mem_cons_of_mem _ hx)) hu
    refine ⟨by rw [h1]; rfl, fun c' n hn hne => ?_, fun n hn => ?_⟩
    · have hne' : ¬(c' = c ∧ n ∈ l) := fun h => hne ⟨h.1, List.mem_cons_of_mem _ h.2⟩
      rw [h2 c' n hn hne']
      unfold State.setFull
      rw [State.regAt_setReg, if_neg]
      intro h
      exact hne ⟨by omega, by simp; left; omega⟩
    · by_cases hm : n ∈ l
      · exact h3 n hm
      · have hn' : n = e := by simpa [hm] using hn
        subst hn'
        rw [h2 c n he (by simp [hm])]
        unfold State.setFull
        rw [State.regAt_setReg, if_pos rfl]

theorem State.thread?_modThread (s : State) {c sl : Nat} {t : Thread} (h : s.thread? c sl = some t) (f : Thread → Thread) :
    (s.modThread c sl f).thread? c sl = some (f t) := by
  unfold State.modThread
  rw [h]
  exact s.thread?_setThread_self c sl _

theorem State.thread?_modThread_other (s : State) {c sl c' sl' : Nat} (f : Thread → Thread) (h : sl < 64) (h' : sl' < 64)
    (hne : ¬(c' = c ∧ sl' = sl)) : (s.modThread c sl f).thread? c' sl' = s.thread? c' sl' := by
  unfold State.modThread
  split
  · exact s.thread?_setThread_other _ (by omega)
  · rfl

theorem State.modThread_eq (s : State) (c sl : Nat) (f : Thread → Thread) :
    s.modThread c sl f = { s with threads := (s.modThread c sl f).threads } := by
  unfold State.modThread
  split <;> rfl

theorem IssueFrame.of_corrects {s u v : State} {c sl : Nat} {l : List Nat} (h : OnlyFlips s u) (g : IssueFrame u v c sl l) :
    IssueFrame s v c sl l where
  regs := ⟨fun c' n hn hne => (h.regs c' n).trans (g.regs.1 c' n hn hne), g.regs.2⟩
  threads c' sl' hne hs := by
    rw [g.threads c' sl' hne hs]
    exact State.thread?_congr (by rw [h.rest]) c' sl'
  cores c' := (g.cores c').trans (h.cores c')
  ctxs p := (g.ctxs p).trans (h.ctxs p)
  rest := by rw [g.rest, h.rest]

/-- Going in flight: what the thread then holds, and what stays as it was (R18, R26). -/
theorem State.flyTo_spec (s : State) (o : Op) {t : Thread} (ht : s.thread? o.c o.sl = some t) (hp : o.pair = none) (hs : o.sl < 64)
    (fx : List Effect) (next : Addr) (x : Transfer) (kind : Nat) (emptied : List Nat) (he : ∀ e ∈ emptied, e < 2048) :
    InFlightAtLeast s (s.flyTo o fx next x kind emptied) o.c o.sl t o.form.lat fx next ∧
    (kind = 0 → InFlight s (s.flyTo o fx next x kind emptied) o.c o.sl t o.form.lat fx next) ∧
    IssueFrame s (s.flyTo o fx next x kind emptied) o.c o.sl emptied := by
  -- the turn and the count
  obtain ⟨s1, h1⟩ : ∃ s1, s1 = (s.tookTurn o.c o.sl).countCore o.c 2 1 := ⟨_, rfl⟩
  have e1 : s1 = { s with cores := s1.cores, ctxs := s1.ctxs } := by
    rw [h1, State.countCore_eq]; rfl
  have c1 : ∀ c', (s1.core c').still = (s.core c').still := fun c' => by
    rw [h1, State.core_countCore]; exact s.tookTurn_still _ _ _
  have x1 : ∀ p, (s1.ctx? p).map Ctx.still = (s.ctx? p).map Ctx.still := fun p => by
    rw [h1]; exact State.ctx?_countCore_still _ _ _ _ p
  -- the delay
  obtain ⟨d, s2, h2, e2, hd⟩ : ∃ d s2, (if kind = 0 then (0, s1) else s1.takeDelay) = (d, s2) ∧
      s2 = { s1 with draws := s2.draws } ∧ (kind = 0 → d = 0) := by
    by_cases hk : kind = 0
    · exact ⟨0, s1, by simp [hk], rfl, fun _ => rfl⟩
    · refine ⟨s1.takeDelay.1, s1.takeDelay.2, by simp [hk], rfl, fun h => absurd h hk⟩
  -- the emptied entries
  obtain ⟨s3, h3⟩ : ∃ s3, s3 = emptied.foldl (fun s e => s.setFull o.c e false) s2 := ⟨_, rfl⟩
  obtain ⟨e3, r3, f3⟩ := s2.emptyAll_regs o.c emptied he s3 h3
  have t3 : s3.threads = s.threads := by rw [e3, e2, e1]
  have ht3 : s3.thread? o.c o.sl = some t := by rw [State.thread?_congr t3]; exact ht
  obtain ⟨fl, hfl, a1, a2, a3, a4, a6, a5⟩ : ∃ fl : Flight, (s.flyTo o fx next x kind emptied =
      { s3.modThread o.c o.sl (fun t => { t with state := .inflight fl }) with
        order := s3.order + 1, posts := s3.posts.map fun q => if o.pair.isSome ∧ o.ownPost q then { q with pair := s3.order } else q }) ∧
      fl.fx = fx ∧ fl.next = next ∧ fl.order = s.order ∧ s.cycle + o.form.lat ≤ fl.due ∧ (kind = 0 → fl.due = s.cycle + o.form.lat) ∧ fl.least = s.cycle + o.form.lat := by
    have o2 : s2.order = s.order := by rw [e2, e1]
    have y2 : s2.cycle = s.cycle := by rw [e2, e1]
    unfold State.flyTo
    simp only [← h1, h2, ← h3]
    exact ⟨_, rfl, rfl, rfl, o2, by simp only [y2]; omega, fun hk => by simp [y2, hk, hd hk], by simp only [y2]⟩
  have posts : (s3.posts.map fun q => if o.pair.isSome ∧ o.ownPost q then { q with pair := s3.order } else q) = s3.posts := by
    simp [hp]
  rw [posts] at hfl
  obtain ⟨u, hu⟩ : ∃ u, u = s3.modThread o.c o.sl (fun t => { t with state := .inflight fl }) := ⟨_, rfl⟩
  have eu : u = { s3 with threads := u.threads } := by rw [hu]; exact s3.modThread_eq _ _ _
  have th : u.thread? o.c o.sl = some { t with state := .inflight fl } := by rw [hu]; exact s3.thread?_modThread ht3 _
  rw [← hu] at hfl
  rw [hfl]
  refine ⟨⟨fl, th, a1, a2, a3, a5, by omega⟩, fun hk => ⟨fl, th, a1, a2, a3, a6 hk⟩, ?_⟩
  refine ⟨⟨fun c' n hn hne => ?_, fun n hn => ?_⟩, fun c' sl' hne hs' => ?_, fun c' => ?_, fun p => ?_, ?_⟩
  · have : (State.regAt { u with order := s3.order + 1, posts := s3.posts } c' n) = s3.regAt c' n :=
      State.regAt_congr (by show u.regs = _; rw [eu]) c' n
    rw [this, r3 c' n hn hne, State.regAt_congr (s := s) (u := s2) (by rw [e2, e1])]
    exact .refl _
  · have : (State.regAt { u with order := s3.order + 1, posts := s3.posts } o.c n) = s3.regAt o.c n :=
      State.regAt_congr (by show u.regs = _; rw [eu]) o.c n
    rw [this]; exact f3 n hn
  · have : (State.thread? { u with order := s3.order + 1, posts := s3.posts } c' sl') = u.thread? c' sl' := rfl
    rw [this, hu, State.thread?_modThread_other s3 _ hs hs' hne, State.thread?_congr t3]
  · have : (State.core { u with order := s3.order + 1, posts := s3.posts } c') = s1.core c' :=
      State.core_congr (by show u.cores = _; rw [eu, e3, e2]) c'
    rw [this]; exact c1 c'
  · have : (State.ctx? { u with order := s3.order + 1, posts := s3.posts } p) = s1.ctx? p := by
      show tabGet? u.ctxs p = tabGet? s1.ctxs p
      rw [eu, e3, e2]
    rw [this]; exact x1 p
  · rw [eu, e3, e2, e1]

/-! ### An issue that goes in flight -/

theorem InFlightAtLeast.of_corrects {s u v : State} {c sl : Nat} {t : Thread} {lat : Nat} {fx : List Effect} {next : Addr}
    (h : OnlyFlips s u) (g : InFlightAtLeast u v c sl t lat fx next) : InFlightAtLeast s v c sl t lat fx next := by
  obtain ⟨f, a, b, d, e, i, j⟩ := g
  refine ⟨f, a, b, d, ?_, ?_, j⟩
  · rw [e, h.rest]
  · rw [i, h.rest]

theorem InFlight.of_corrects {s u v : State} {c sl : Nat} {t : Thread} {lat : Nat} {fx : List Effect} {next : Addr}
    (h : OnlyFlips s u) (g : InFlight u v c sl t lat fx next) : InFlight s v c sl t lat fx next := by
  obtain ⟨f, a, b, d, e, i⟩ := g
  refine ⟨f, a, b, d, ?_, ?_⟩
  · rw [e, h.rest]
  · rw [i, h.rest]

/-- What the reads leave in the registers an instruction's own part looks at. -/
@[simp] theorem regVec_correctReads (s : State) (o : Op) (c : Nat) (t : Thread) (r : BitVec 7) :
    regVec (s.correctReads o) c t r = regVec s c t r := ((s.correctReads_only o).regs c (t.base + r.toNat)).val
@[simp] theorem regWord_correctReads (s : State) (o : Op) (c : Nat) (t : Thread) (r : BitVec 7) :
    regWord (s.correctReads o) c t r = regWord s c t r := by
  unfold regWord; rw [regVec_correctReads]
theorem State.correctReads_full (s : State) (o : Op) (c n : Nat) : ((s.correctReads o).regAt c n).full = (s.regAt c n).full :=
  ((s.correctReads_only o).regs c n).full
theorem State.correctReads_zf (s : State) (o : Op) (c n : Nat) : ((s.correctReads o).regAt c n).zf = (s.regAt c n).zf :=
  ((s.correctReads_only o).regs c n).zf

@[simp] theorem State.rv_opOf (s u : State) (f : Form) (c sl : Nat) (t : Thread) (r : BitVec 7) :
    s.rv (opOf u f c sl t) r = regVec s c t r := rfl
@[simp] theorem State.rx_opOf (s u : State) (f : Form) (c sl : Nat) (t : Thread) (r : BitVec 7) :
    s.rx (opOf u f c sl t) r = regWord s c t r := rfl

/-- A READY thread whose operands are ready goes in flight, whatever effects, next address and condition its instruction has; its
issue leaves all else alone (R26, R32, R65, R116). -/
theorem Issuing.flies {s : State} {c sl : Nat} {t : Thread} (h : Issuing s c sl t) {f : Form} (hf : FormReady s c t f)
    (hl : (opOf s f c sl t).loopEnd = false) (body : Op → State → State) (fx : List Effect) (next : Addr) (x : Transfer) (kind : Nat)
    (emptied : List Nat) (he : ∀ e ∈ emptied, e < 2048)
    (hb : body (opOf s f c sl t) (s.correctReads (opOf s f c sl t)) =
      (s.correctReads (opOf s f c sl t)).flyTo (opOf s f c sl t) fx next x kind emptied) :
    ∃ u, s.issue f body = .next u ∧ InFlightAtLeast s u c sl t f.lat fx next ∧ (kind = 0 → InFlight s u c sl t f.lat fx next) ∧
      IssueFrame s u c sl emptied := by
  rw [h.issue hf hl body, hb]
  refine ⟨_, rfl, ?_⟩
  have hc := s.correctReads_only (opOf s f c sl t)
  have ht : (s.correctReads (opOf s f c sl t)).thread? c sl = some t := by
    rw [State.thread?_congr (s := s) (by rw [hc.rest])]; exact h.slot
  obtain ⟨a, b, d⟩ := State.flyTo_spec (s.correctReads (opOf s f c sl t)) (opOf s f c sl t) ht rfl h.inCore fx next x kind emptied he
  exact ⟨a.of_corrects hc, fun hk => (b hk).of_corrects hc, d.of_corrects hc⟩

/-- The entry of a register in the window lies in the file. -/
theorem Issuing.entry_lt {s : State} {c sl : Nat} {t : Thread} (h : Issuing s c sl t) {r : Nat} (hr : r < t.size) : t.base + r < 2048 := by
  have := h.inFile
  omega

/-- An instruction whose whole effect is a value for rd (R65). -/
theorem Issuing.value {s : State} {c sl : Nat} {t : Thread} (h : Issuing s c sl t) {f : Form} {rd : BitVec 7}
    (hf : FormReady s c t { f with dsts := [(0, rd.toNat)] }) (hm : f.major < 0x17 ∨ 0x1D < f.major) (value : Op → State → Vec) :
    ∃ u, s.issueValue f rd value = .next u ∧
      InFlight s u c sl t f.lat [.reg (t.base + rd.toNat) (value (opOf s { f with dsts := [(0, rd.toNat)] } c sl t)
        (s.correctReads (opOf s { f with dsts := [(0, rd.toNat)] } c sl t)))] (t.pc + 4) ∧ IssueFrame s u c sl [] := by
  obtain ⟨u, a, _, b, d⟩ := h.flies hf (loopEnd_of_major hm) (fun o s => s.fly o [.reg (o.entry rd) (value o s)]) _ _ .none 0 []
    (by simp) rfl
  exact ⟨u, a, b rfl, d⟩

/-- The same with exception flags (R69). -/
theorem Issuing.flags {s : State} {c sl : Nat} {t : Thread} (h : Issuing s c sl t) {f : Form} {rd : BitVec 7}
    (hf : FormReady s c t { f with dsts := [(0, rd.toNat)] }) (hm : f.major < 0x17 ∨ 0x1D < f.major) (value : Op → State → Vec × BitVec 5) :
    let v := value (opOf s { f with dsts := [(0, rd.toNat)] } c sl t) (s.correctReads (opOf s { f with dsts := [(0, rd.toNat)] } c sl t))
    ∃ u, s.issueFlags f rd value = .next u ∧
      InFlight s u c sl t f.lat [.reg (t.base + rd.toNat) v.1, .flags v.2] (t.pc + 4) ∧ IssueFrame s u c sl [] := by
  obtain ⟨u, a, _, b, d⟩ := h.flies hf (loopEnd_of_major hm)
    (fun o s => s.fly o [.reg (o.entry rd) (value o s).1, .flags (value o s).2]) _ _ .none 0 [] (by simp) rfl
  exact ⟨u, a, b rfl, d⟩

/-! ### Forms whose operands are ready -/

theorem FormReady.rrr {s : State} {c : Nat} {t : Thread} {major fn lat : Nat} {rd ra rb : BitVec 7} {ta tb : BitVec 1}
    (a : Readable s c t ra.toNat) (b : Readable s c t rb.toNat) (d : Writable s c t rd.toNat) :
    FormReady s c t { formRRR major fn ra rb ta tb with lat := lat, dsts := [(0, rd.toNat)] } := by
  constructor <;> simp [formRRR, Form.plain, srcT, a, b, d, a.inWindow, b.inWindow]

theorem FormReady.rr {s : State} {c : Nat} {t : Thread} {major fn lat : Nat} {rd ra : BitVec 7} {ta : BitVec 1}
    (a : Readable s c t ra.toNat) (d : Writable s c t rd.toNat) :
    FormReady s c t { formRR major fn ra ta with lat := lat, dsts := [(0, rd.toNat)] } := by
  constructor <;> simp [formRR, Form.plain, srcT, a, d, a.inWindow]

theorem FormReady.rrrr {s : State} {c : Nat} {t : Thread} {major : Nat} {rd ra rb : BitVec 7} {rc : BitVec 5}
    (a : Readable s c t ra.toNat) (b : Readable s c t rb.toNat) (e : Readable s c t rc.toNat) (d : Writable s c t rd.toNat) :
    FormReady s c t { formRRRR major ra rb rc with dsts := [(0, rd.toNat)] } := by
  have hc : (BitVec.setWidth 7 rc).toNat = rc.toNat := by simp; omega
  constructor <;> simp [formRRRR, Form.plain, srcB, hc, a, b, d, e, a.inWindow, b.inWindow, e.inWindow]

end Sys2Proof.Machine
end

