-- ==== Sys2Proof/Laws/PerInstr.lean ====
section
/-! SUPPORT. Per instruction: the one word of a well-formed core instruction decodes to it (R48 to R56). -/
set_option linter.unusedSimpArgs false

namespace Sys2Proof.Laws.OneWord
set_option Elab.async false

/-- The word of a well-formed instruction of one word decodes to it, with every operand; ONCE has two words, an engine command or an
event none. -/
def Statement (i : Instr) : Prop := wellFormed i = true → ∀ w, encode i = [w] → decodeWord w = some i

theorem add (rd : BitVec 7) (ra : BitVec 7) (rb : BitVec 7) (ta : BitVec 1) (tb : BitVec 1) : Statement (.add rd ra rb ta tb) := oneWord rfl ((layout00 (by simp (disch := decide) only [bits_append_high, bits_append_low, bits_self, Nat.sub_self, Nat.reduceSub] <;> rfl)).trans
    (by simp (disch := decide) only [decode00, bits_append_low, bits_append_high, bits_self, Nat.sub_self, Nat.reduceSub, BitVec.toNat_ofNat, Nat.reducePow,
      Nat.reduceMod, and_self, if_true] <;> rfl))
theorem sub (rd : BitVec 7) (ra : BitVec 7) (rb : BitVec 7) (ta : BitVec 1) (tb : BitVec 1) : Statement (.sub rd ra rb ta tb) := oneWord rfl ((layout00 (by simp (disch := decide) only [bits_append_high, bits_append_low, bits_self, Nat.sub_self, Nat.reduceSub] <;> rfl)).trans
    (by simp (disch := decide) only [decode00, bits_append_low, bits_append_high, bits_self, Nat.sub_self, Nat.reduceSub, BitVec.toNat_ofNat, Nat.reducePow,
      Nat.reduceMod, and_self, if_true] <;> rfl))
theorem and (rd : BitVec 7) (ra : BitVec 7) (rb : BitVec 7) (ta : BitVec 1) (tb : BitVec 1) : Statement (.and rd ra rb ta tb) := oneWord rfl ((layout00 (by simp (disch := decide) only [bits_append_high, bits_append_low, bits_self, Nat.sub_self, Nat.reduceSub] <;> rfl)).trans
    (by simp (disch := decide) only [decode00, bits_append_low, bits_append_high, bits_self, Nat.sub_self, Nat.reduceSub, BitVec.toNat_ofNat, Nat.reducePow,
      Nat.reduceMod, and_self, if_true] <;> rfl))
theorem or (rd : BitVec 7) (ra : BitVec 7) (rb : BitVec 7) (ta : BitVec 1) (tb : BitVec 1) : Statement (.or rd ra rb ta tb) := oneWord rfl ((layout00 (by simp (disch := decide) only [bits_append_high, bits_append_low, bits_self, Nat.sub_self, Nat.reduceSub] <;> rfl)).trans
    (by simp (disch := decide) only [decode00, bits_append_low, bits_append_high, bits_self, Nat.sub_self, Nat.reduceSub, BitVec.toNat_ofNat, Nat.reducePow,
      Nat.reduceMod, and_self, if_true] <;> rfl))
theorem xor (rd : BitVec 7) (ra : BitVec 7) (rb : BitVec 7) (ta : BitVec 1) (tb : BitVec 1) : Statement (.xor rd ra rb ta tb) := oneWord rfl ((layout00 (by simp (disch := decide) only [bits_append_high, bits_append_low, bits_self, Nat.sub_self, Nat.reduceSub] <;> rfl)).trans
    (by simp (disch := decide) only [decode00, bits_append_low, bits_append_high, bits_self, Nat.sub_self, Nat.reduceSub, BitVec.toNat_ofNat, Nat.reducePow,
      Nat.reduceMod, and_self, if_true] <;> rfl))
theorem shl (rd : BitVec 7) (ra : BitVec 7) (rb : BitVec 7) (ta : BitVec 1) (tb : BitVec 1) : Statement (.shl rd ra rb ta tb) := oneWord rfl ((layout00 (by simp (disch := decide) only [bits_append_high, bits_append_low, bits_self, Nat.sub_self, Nat.reduceSub] <;> rfl)).trans
    (by simp (disch := decide) only [decode00, bits_append_low, bits_append_high, bits_self, Nat.sub_self, Nat.reduceSub, BitVec.toNat_ofNat, Nat.reducePow,
      Nat.reduceMod, and_self, if_true] <;> rfl))
theorem shr (rd : BitVec 7) (ra : BitVec 7) (rb : BitVec 7) (ta : BitVec 1) (tb : BitVec 1) : Statement (.shr rd ra rb ta tb) := oneWord rfl ((layout00 (by simp (disch := decide) only [bits_append_high, bits_append_low, bits_self, Nat.sub_self, Nat.reduceSub] <;> rfl)).trans
    (by simp (disch := decide) only [decode00, bits_append_low, bits_append_high, bits_self, Nat.sub_self, Nat.reduceSub, BitVec.toNat_ofNat, Nat.reducePow,
      Nat.reduceMod, and_self, if_true] <;> rfl))
theorem sra (rd : BitVec 7) (ra : BitVec 7) (rb : BitVec 7) (ta : BitVec 1) (tb : BitVec 1) : Statement (.sra rd ra rb ta tb) := oneWord rfl ((layout00 (by simp (disch := decide) only [bits_append_high, bits_append_low, bits_self, Nat.sub_self, Nat.reduceSub] <;> rfl)).trans
    (by simp (disch := decide) only [decode00, bits_append_low, bits_append_high, bits_self, Nat.sub_self, Nat.reduceSub, BitVec.toNat_ofNat, Nat.reducePow,
      Nat.reduceMod, and_self, if_true] <;> rfl))
theorem mul (rd : BitVec 7) (ra : BitVec 7) (rb : BitVec 7) (ta : BitVec 1) (tb : BitVec 1) : Statement (.mul rd ra rb ta tb) := oneWord rfl ((layout01 (by simp (disch := decide) only [bits_append_high, bits_append_low, bits_self, Nat.sub_self, Nat.reduceSub] <;> rfl)).trans
    (by simp (disch := decide) only [decode01, bits_append_low, bits_append_high, bits_self, Nat.sub_self, Nat.reduceSub, BitVec.toNat_ofNat, Nat.reducePow,
      Nat.reduceMod, and_self, if_true] <;> rfl))
theorem mulh (rd : BitVec 7) (ra : BitVec 7) (rb : BitVec 7) (ta : BitVec 1) (tb : BitVec 1) : Statement (.mulh rd ra rb ta tb) := oneWord rfl ((layout01 (by simp (disch := decide) only [bits_append_high, bits_append_low, bits_self, Nat.sub_self, Nat.reduceSub] <;> rfl)).trans
    (by simp (disch := decide) only [decode01, bits_append_low, bits_append_high, bits_self, Nat.sub_self, Nat.reduceSub, BitVec.toNat_ofNat, Nat.reducePow,
      Nat.reduceMod, and_self, if_true] <;> rfl))
theorem mulhu (rd : BitVec 7) (ra : BitVec 7) (rb : BitVec 7) (ta : BitVec 1) (tb : BitVec 1) : Statement (.mulhu rd ra rb ta tb) := oneWord rfl ((layout01 (by simp (disch := decide) only [bits_append_high, bits_append_low, bits_self, Nat.sub_self, Nat.reduceSub] <;> rfl)).trans
    (by simp (disch := decide) only [decode01, bits_append_low, bits_append_high, bits_self, Nat.sub_self, Nat.reduceSub, BitVec.toNat_ofNat, Nat.reducePow,
      Nat.reduceMod, and_self, if_true] <;> rfl))
theorem div (rd : BitVec 7) (ra : BitVec 7) (rb : BitVec 7) (ta : BitVec 1) (tb : BitVec 1) : Statement (.div rd ra rb ta tb) := oneWord rfl ((layout01 (by simp (disch := decide) only [bits_append_high, bits_append_low, bits_self, Nat.sub_self, Nat.reduceSub] <;> rfl)).trans
    (by simp (disch := decide) only [decode01, bits_append_low, bits_append_high, bits_self, Nat.sub_self, Nat.reduceSub, BitVec.toNat_ofNat, Nat.reducePow,
      Nat.reduceMod, and_self, if_true] <;> rfl))
theorem divu (rd : BitVec 7) (ra : BitVec 7) (rb : BitVec 7) (ta : BitVec 1) (tb : BitVec 1) : Statement (.divu rd ra rb ta tb) := oneWord rfl ((layout01 (by simp (disch := decide) only [bits_append_high, bits_append_low, bits_self, Nat.sub_self, Nat.reduceSub] <;> rfl)).trans
    (by simp (disch := decide) only [decode01, bits_append_low, bits_append_high, bits_self, Nat.sub_self, Nat.reduceSub, BitVec.toNat_ofNat, Nat.reducePow,
      Nat.reduceMod, and_self, if_true] <;> rfl))
theorem rem (rd : BitVec 7) (ra : BitVec 7) (rb : BitVec 7) (ta : BitVec 1) (tb : BitVec 1) : Statement (.rem rd ra rb ta tb) := oneWord rfl ((layout01 (by simp (disch := decide) only [bits_append_high, bits_append_low, bits_self, Nat.sub_self, Nat.reduceSub] <;> rfl)).trans
    (by simp (disch := decide) only [decode01, bits_append_low, bits_append_high, bits_self, Nat.sub_self, Nat.reduceSub, BitVec.toNat_ofNat, Nat.reducePow,
      Nat.reduceMod, and_self, if_true] <;> rfl))
theorem remu (rd : BitVec 7) (ra : BitVec 7) (rb : BitVec 7) (ta : BitVec 1) (tb : BitVec 1) : Statement (.remu rd ra rb ta tb) := oneWord rfl ((layout01 (by simp (disch := decide) only [bits_append_high, bits_append_low, bits_self, Nat.sub_self, Nat.reduceSub] <;> rfl)).trans
    (by simp (disch := decide) only [decode01, bits_append_low, bits_append_high, bits_self, Nat.sub_self, Nat.reduceSub, BitVec.toNat_ofNat, Nat.reducePow,
      Nat.reduceMod, and_self, if_true] <;> rfl))
theorem min (rd : BitVec 7) (ra : BitVec 7) (rb : BitVec 7) (ta : BitVec 1) (tb : BitVec 1) : Statement (.min rd ra rb ta tb) := oneWord rfl ((layout02 (by simp (disch := decide) only [bits_append_high, bits_append_low, bits_self, Nat.sub_self, Nat.reduceSub] <;> rfl)).trans
    (by simp (disch := decide) only [decode02, bits_append_low, bits_append_high, bits_self, Nat.sub_self, Nat.reduceSub, BitVec.toNat_ofNat, Nat.reducePow,
      Nat.reduceMod, and_self, if_true] <;> rfl))
theorem max (rd : BitVec 7) (ra : BitVec 7) (rb : BitVec 7) (ta : BitVec 1) (tb : BitVec 1) : Statement (.max rd ra rb ta tb) := oneWord rfl ((layout02 (by simp (disch := decide) only [bits_append_high, bits_append_low, bits_self, Nat.sub_self, Nat.reduceSub] <;> rfl)).trans
    (by simp (disch := decide) only [decode02, bits_append_low, bits_append_high, bits_self, Nat.sub_self, Nat.reduceSub, BitVec.toNat_ofNat, Nat.reducePow,
      Nat.reduceMod, and_self, if_true] <;> rfl))
theorem minu (rd : BitVec 7) (ra : BitVec 7) (rb : BitVec 7) (ta : BitVec 1) (tb : BitVec 1) : Statement (.minu rd ra rb ta tb) := oneWord rfl ((layout02 (by simp (disch := decide) only [bits_append_high, bits_append_low, bits_self, Nat.sub_self, Nat.reduceSub] <;> rfl)).trans
    (by simp (disch := decide) only [decode02, bits_append_low, bits_append_high, bits_self, Nat.sub_self, Nat.reduceSub, BitVec.toNat_ofNat, Nat.reducePow,
      Nat.reduceMod, and_self, if_true] <;> rfl))
theorem maxu (rd : BitVec 7) (ra : BitVec 7) (rb : BitVec 7) (ta : BitVec 1) (tb : BitVec 1) : Statement (.maxu rd ra rb ta tb) := oneWord rfl ((layout02 (by simp (disch := decide) only [bits_append_high, bits_append_low, bits_self, Nat.sub_self, Nat.reduceSub] <;> rfl)).trans
    (by simp (disch := decide) only [decode02, bits_append_low, bits_append_high, bits_self, Nat.sub_self, Nat.reduceSub, BitVec.toNat_ofNat, Nat.reducePow,
      Nat.reduceMod, and_self, if_true] <;> rfl))
theorem slt (rd : BitVec 7) (ra : BitVec 7) (rb : BitVec 7) (ta : BitVec 1) (tb : BitVec 1) : Statement (.slt rd ra rb ta tb) := oneWord rfl ((layout02 (by simp (disch := decide) only [bits_append_high, bits_append_low, bits_self, Nat.sub_self, Nat.reduceSub] <;> rfl)).trans
    (by simp (disch := decide) only [decode02, bits_append_low, bits_append_high, bits_self, Nat.sub_self, Nat.reduceSub, BitVec.toNat_ofNat, Nat.reducePow,
      Nat.reduceMod, and_self, if_true] <;> rfl))
theorem sltu (rd : BitVec 7) (ra : BitVec 7) (rb : BitVec 7) (ta : BitVec 1) (tb : BitVec 1) : Statement (.sltu rd ra rb ta tb) := oneWord rfl ((layout02 (by simp (disch := decide) only [bits_append_high, bits_append_low, bits_self, Nat.sub_self, Nat.reduceSub] <;> rfl)).trans
    (by simp (disch := decide) only [decode02, bits_append_low, bits_append_high, bits_self, Nat.sub_self, Nat.reduceSub, BitVec.toNat_ofNat, Nat.reducePow,
      Nat.reduceMod, and_self, if_true] <;> rfl))
theorem seq (rd : BitVec 7) (ra : BitVec 7) (rb : BitVec 7) (ta : BitVec 1) (tb : BitVec 1) : Statement (.seq rd ra rb ta tb) := oneWord rfl ((layout02 (by simp (disch := decide) only [bits_append_high, bits_append_low, bits_self, Nat.sub_self, Nat.reduceSub] <;> rfl)).trans
    (by simp (disch := decide) only [decode02, bits_append_low, bits_append_high, bits_self, Nat.sub_self, Nat.reduceSub, BitVec.toNat_ofNat, Nat.reducePow,
      Nat.reduceMod, and_self, if_true] <;> rfl))
theorem sne (rd : BitVec 7) (ra : BitVec 7) (rb : BitVec 7) (ta : BitVec 1) (tb : BitVec 1) : Statement (.sne rd ra rb ta tb) := oneWord rfl ((layout02 (by simp (disch := decide) only [bits_append_high, bits_append_low, bits_self, Nat.sub_self, Nat.reduceSub] <;> rfl)).trans
    (by simp (disch := decide) only [decode02, bits_append_low, bits_append_high, bits_self, Nat.sub_self, Nat.reduceSub, BitVec.toNat_ofNat, Nat.reducePow,
      Nat.reduceMod, and_self, if_true] <;> rfl))
theorem clz (rd : BitVec 7) (ra : BitVec 7) (ta : BitVec 1) : Statement (.clz rd ra ta) := oneWord rfl ((layout03 (by simp (disch := decide) only [bits_append_high, bits_append_low, bits_self, Nat.sub_self, Nat.reduceSub] <;> rfl)).trans
    (by simp (disch := decide) only [decode03, bits_append_low, bits_append_high, bits_self, Nat.sub_self, Nat.reduceSub, BitVec.toNat_ofNat, Nat.reducePow,
      Nat.reduceMod, and_self, if_true] <;> rfl))
theorem popc (rd : BitVec 7) (ra : BitVec 7) (ta : BitVec 1) : Statement (.popc rd ra ta) := oneWord rfl ((layout03 (by simp (disch := decide) only [bits_append_high, bits_append_low, bits_self, Nat.sub_self, Nat.reduceSub] <;> rfl)).trans
    (by simp (disch := decide) only [decode03, bits_append_low, bits_append_high, bits_self, Nat.sub_self, Nat.reduceSub, BitVec.toNat_ofNat, Nat.reducePow,
      Nat.reduceMod, and_self, if_true] <;> rfl))
theorem rev (rd : BitVec 7) (ra : BitVec 7) (ta : BitVec 1) : Statement (.rev rd ra ta) := oneWord rfl ((layout03 (by simp (disch := decide) only [bits_append_high, bits_append_low, bits_self, Nat.sub_self, Nat.reduceSub] <;> rfl)).trans
    (by simp (disch := decide) only [decode03, bits_append_low, bits_append_high, bits_self, Nat.sub_self, Nat.reduceSub, BitVec.toNat_ofNat, Nat.reducePow,
      Nat.reduceMod, and_self, if_true] <;> rfl))
theorem sextB (rd : BitVec 7) (ra : BitVec 7) (ta : BitVec 1) : Statement (.sextB rd ra ta) := oneWord rfl ((layout03 (by simp (disch := decide) only [bits_append_high, bits_append_low, bits_self, Nat.sub_self, Nat.reduceSub] <;> rfl)).trans
    (by simp (disch := decide) only [decode03, bits_append_low, bits_append_high, bits_self, Nat.sub_self, Nat.reduceSub, BitVec.toNat_ofNat, Nat.reducePow,
      Nat.reduceMod, and_self, if_true] <;> rfl))
theorem sextH (rd : BitVec 7) (ra : BitVec 7) (ta : BitVec 1) : Statement (.sextH rd ra ta) := oneWord rfl ((layout03 (by simp (disch := decide) only [bits_append_high, bits_append_low, bits_self, Nat.sub_self, Nat.reduceSub] <;> rfl)).trans
    (by simp (disch := decide) only [decode03, bits_append_low, bits_append_high, bits_self, Nat.sub_self, Nat.reduceSub, BitVec.toNat_ofNat, Nat.reducePow,
      Nat.reduceMod, and_self, if_true] <;> rfl))
theorem sextW (rd : BitVec 7) (ra : BitVec 7) (ta : BitVec 1) : Statement (.sextW rd ra ta) := oneWord rfl ((layout03 (by simp (disch := decide) only [bits_append_high, bits_append_low, bits_self, Nat.sub_self, Nat.reduceSub] <;> rfl)).trans
    (by simp (disch := decide) only [decode03, bits_append_low, bits_append_high, bits_self, Nat.sub_self, Nat.reduceSub, BitVec.toNat_ofNat, Nat.reducePow,
      Nat.reduceMod, and_self, if_true] <;> rfl))
theorem zextW (rd : BitVec 7) (ra : BitVec 7) (ta : BitVec 1) : Statement (.zextW rd ra ta) := oneWord rfl ((layout03 (by simp (disch := decide) only [bits_append_high, bits_append_low, bits_self, Nat.sub_self, Nat.reduceSub] <;> rfl)).trans
    (by simp (disch := decide) only [decode03, bits_append_low, bits_append_high, bits_self, Nat.sub_self, Nat.reduceSub, BitVec.toNat_ofNat, Nat.reducePow,
      Nat.reduceMod, and_self, if_true] <;> rfl))
theorem addi (rd : BitVec 7) (ra : BitVec 7) (ta : BitVec 1) (imm : BitVec 11) : Statement (.addi rd ra ta imm) := oneWord rfl ((layout04 (by simp (disch := decide) only [bits_append_high, bits_append_low, bits_self, Nat.sub_self, Nat.reduceSub] <;> rfl)).trans
    (by simp (disch := decide) only [decode04, bits_append_low, bits_append_high, bits_self, Nat.sub_self, Nat.reduceSub, BitVec.toNat_ofNat, Nat.reducePow,
      Nat.reduceMod, and_self, if_true] <;> rfl))
theorem andi (rd : BitVec 7) (ra : BitVec 7) (ta : BitVec 1) (imm : BitVec 11) : Statement (.andi rd ra ta imm) := oneWord rfl ((layout05 (by simp (disch := decide) only [bits_append_high, bits_append_low, bits_self, Nat.sub_self, Nat.reduceSub] <;> rfl)).trans
    (by simp (disch := decide) only [decode05, bits_append_low, bits_append_high, bits_self, Nat.sub_self, Nat.reduceSub, BitVec.toNat_ofNat, Nat.reducePow,
      Nat.reduceMod, and_self, if_true] <;> rfl))
theorem ori (rd : BitVec 7) (ra : BitVec 7) (ta : BitVec 1) (imm : BitVec 11) : Statement (.ori rd ra ta imm) := oneWord rfl ((layout06 (by simp (disch := decide) only [bits_append_high, bits_append_low, bits_self, Nat.sub_self, Nat.reduceSub] <;> rfl)).trans
    (by simp (disch := decide) only [decode06, bits_append_low, bits_append_high, bits_self, Nat.sub_self, Nat.reduceSub, BitVec.toNat_ofNat, Nat.reducePow,
      Nat.reduceMod, and_self, if_true] <;> rfl))
theorem xori (rd : BitVec 7) (ra : BitVec 7) (ta : BitVec 1) (imm : BitVec 11) : Statement (.xori rd ra ta imm) := oneWord rfl ((layout07 (by simp (disch := decide) only [bits_append_high, bits_append_low, bits_self, Nat.sub_self, Nat.reduceSub] <;> rfl)).trans
    (by simp (disch := decide) only [decode07, bits_append_low, bits_append_high, bits_self, Nat.sub_self, Nat.reduceSub, BitVec.toNat_ofNat, Nat.reducePow,
      Nat.reduceMod, and_self, if_true] <;> rfl))
theorem shli (rd : BitVec 7) (ra : BitVec 7) (ta : BitVec 1) (imm : BitVec 6) : Statement (.shli rd ra ta imm) := oneWord rfl ((layout08 (by simp (disch := decide) only [bits_append_high, bits_append_low, bits_self, Nat.sub_self, Nat.reduceSub] <;> rfl)).trans
    (by simp (disch := decide) only [decode08, bits_append_low, bits_append_high, bits_self, Nat.sub_self, Nat.reduceSub, BitVec.toNat_ofNat, Nat.reducePow,
      Nat.reduceMod, and_self, if_true] <;> rfl))
theorem shri (rd : BitVec 7) (ra : BitVec 7) (ta : BitVec 1) (imm : BitVec 6) : Statement (.shri rd ra ta imm) := oneWord rfl ((layout09 (by simp (disch := decide) only [bits_append_high, bits_append_low, bits_self, Nat.sub_self, Nat.reduceSub] <;> rfl)).trans
    (by simp (disch := decide) only [decode09, bits_append_low, bits_append_high, bits_self, Nat.sub_self, Nat.reduceSub, BitVec.toNat_ofNat, Nat.reducePow,
      Nat.reduceMod, and_self, if_true] <;> rfl))
theorem srai (rd : BitVec 7) (ra : BitVec 7) (ta : BitVec 1) (imm : BitVec 6) : Statement (.srai rd ra ta imm) := oneWord rfl ((layout0A (by simp (disch := decide) only [bits_append_high, bits_append_low, bits_self, Nat.sub_self, Nat.reduceSub] <;> rfl)).trans
    (by simp (disch := decide) only [decode0A, bits_append_low, bits_append_high, bits_self, Nat.sub_self, Nat.reduceSub, BitVec.toNat_ofNat, Nat.reducePow,
      Nat.reduceMod, and_self, if_true] <;> rfl))
theorem slti (rd : BitVec 7) (ra : BitVec 7) (ta : BitVec 1) (imm : BitVec 11) : Statement (.slti rd ra ta imm) := oneWord rfl ((layout0B (by simp (disch := decide) only [bits_append_high, bits_append_low, bits_self, Nat.sub_self, Nat.reduceSub] <;> rfl)).trans
    (by simp (disch := decide) only [decode0B, bits_append_low, bits_append_high, bits_self, Nat.sub_self, Nat.reduceSub, BitVec.toNat_ofNat, Nat.reducePow,
      Nat.reduceMod, and_self, if_true] <;> rfl))
theorem movi (rd : BitVec 7) (imm : BitVec 19) : Statement (.movi rd imm) := oneWord rfl ((layout0C (by simp (disch := decide) only [bits_append_high, bits_append_low, bits_self, Nat.sub_self, Nat.reduceSub] <;> rfl)).trans
    (by simp (disch := decide) only [decode0C, bits_append_low, bits_append_high, bits_self, Nat.sub_self, Nat.reduceSub, BitVec.toNat_ofNat, Nat.reducePow,
      Nat.reduceMod, and_self, if_true] <;> rfl))
theorem ldpc (rd : BitVec 7) (imm : BitVec 19) : Statement (.ldpc rd imm) := oneWord rfl ((layout0D (by simp (disch := decide) only [bits_append_high, bits_append_low, bits_self, Nat.sub_self, Nat.reduceSub] <;> rfl)).trans
    (by simp (disch := decide) only [decode0D, bits_append_low, bits_append_high, bits_self, Nat.sub_self, Nat.reduceSub, BitVec.toNat_ofNat, Nat.reducePow,
      Nat.reduceMod, and_self, if_true] <;> rfl))
theorem lea (rd : BitVec 7) (ra : BitVec 7) (rb : BitVec 7) (sh : BitVec 3) (ta : BitVec 1) (tb : BitVec 1) : Statement (.lea rd ra rb sh ta tb) := oneWord rfl ((layout0E (by simp (disch := decide) only [bits_append_high, bits_append_low, bits_self, Nat.sub_self, Nat.reduceSub] <;> rfl)).trans
    (by simp (disch := decide) only [decode0E, bits_append_low, bits_append_high, bits_self, Nat.sub_self, Nat.reduceSub, BitVec.toNat_ofNat, Nat.reducePow,
      Nat.reduceMod, and_self, if_true] <;> rfl))
theorem sel (rd : BitVec 7) (ra : BitVec 7) (rb : BitVec 7) (rc : BitVec 5) : Statement (.sel rd ra rb rc) := oneWord rfl ((layout0F (by simp (disch := decide) only [bits_append_high, bits_append_low, bits_self, Nat.sub_self, Nat.reduceSub] <;> rfl)).trans
    (by simp (disch := decide) only [decode0F, bits_append_low, bits_append_high, bits_self, Nat.sub_self, Nat.reduceSub, BitVec.toNat_ofNat, Nat.reducePow,
      Nat.reduceMod, and_self, if_true] <;> rfl))
theorem faddF32 (rd : BitVec 7) (ra : BitVec 7) (rb : BitVec 7) (ta : BitVec 1) (tb : BitVec 1) : Statement (.faddF32 rd ra rb ta tb) := oneWord rfl ((layout10 (by simp (disch := decide) only [bits_append_high, bits_append_low, bits_self, Nat.sub_self, Nat.reduceSub] <;> rfl)).trans
    (by simp (disch := decide) only [decode10, bits_append_low, bits_append_high, bits_self, Nat.sub_self, Nat.reduceSub, BitVec.toNat_ofNat, Nat.reducePow,
      Nat.reduceMod, and_self, if_true] <;> rfl))
theorem fsubF32 (rd : BitVec 7) (ra : BitVec 7) (rb : BitVec 7) (ta : BitVec 1) (tb : BitVec 1) : Statement (.fsubF32 rd ra rb ta tb) := oneWord rfl ((layout10 (by simp (disch := decide) only [bits_append_high, bits_append_low, bits_self, Nat.sub_self, Nat.reduceSub] <;> rfl)).trans
    (by simp (disch := decide) only [decode10, bits_append_low, bits_append_high, bits_self, Nat.sub_self, Nat.reduceSub, BitVec.toNat_ofNat, Nat.reducePow,
      Nat.reduceMod, and_self, if_true] <;> rfl))
theorem fmulF32 (rd : BitVec 7) (ra : BitVec 7) (rb : BitVec 7) (ta : BitVec 1) (tb : BitVec 1) : Statement (.fmulF32 rd ra rb ta tb) := oneWord rfl ((layout10 (by simp (disch := decide) only [bits_append_high, bits_append_low, bits_self, Nat.sub_self, Nat.reduceSub] <;> rfl)).trans
    (by simp (disch := decide) only [decode10, bits_append_low, bits_append_high, bits_self, Nat.sub_self, Nat.reduceSub, BitVec.toNat_ofNat, Nat.reducePow,
      Nat.reduceMod, and_self, if_true] <;> rfl))
theorem fdivF32 (rd : BitVec 7) (ra : BitVec 7) (rb : BitVec 7) (ta : BitVec 1) (tb : BitVec 1) : Statement (.fdivF32 rd ra rb ta tb) := oneWord rfl ((layout10 (by simp (disch := decide) only [bits_append_high, bits_append_low, bits_self, Nat.sub_self, Nat.reduceSub] <;> rfl)).trans
    (by simp (disch := decide) only [decode10, bits_append_low, bits_append_high, bits_self, Nat.sub_self, Nat.reduceSub, BitVec.toNat_ofNat, Nat.reducePow,
      Nat.reduceMod, and_self, if_true] <;> rfl))
theorem fminF32 (rd : BitVec 7) (ra : BitVec 7) (rb : BitVec 7) (ta : BitVec 1) (tb : BitVec 1) : Statement (.fminF32 rd ra rb ta tb) := oneWord rfl ((layout10 (by simp (disch := decide) only [bits_append_high, bits_append_low, bits_self, Nat.sub_self, Nat.reduceSub] <;> rfl)).trans
    (by simp (disch := decide) only [decode10, bits_append_low, bits_append_high, bits_self, Nat.sub_self, Nat.reduceSub, BitVec.toNat_ofNat, Nat.reducePow,
      Nat.reduceMod, and_self, if_true] <;> rfl))
theorem fmaxF32 (rd : BitVec 7) (ra : BitVec 7) (rb : BitVec 7) (ta : BitVec 1) (tb : BitVec 1) : Statement (.fmaxF32 rd ra rb ta tb) := oneWord rfl ((layout10 (by simp (disch := decide) only [bits_append_high, bits_append_low, bits_self, Nat.sub_self, Nat.reduceSub] <;> rfl)).trans
    (by simp (disch := decide) only [decode10, bits_append_low, bits_append_high, bits_self, Nat.sub_self, Nat.reduceSub, BitVec.toNat_ofNat, Nat.reducePow,
      Nat.reduceMod, and_self, if_true] <;> rfl))
theorem fsqrtF32 (rd : BitVec 7) (ra : BitVec 7) (ta : BitVec 1) : Statement (.fsqrtF32 rd ra ta) := oneWord rfl ((layout10 (by simp (disch := decide) only [bits_append_high, bits_append_low, bits_self, Nat.sub_self, Nat.reduceSub] <;> rfl)).trans
    (by simp (disch := decide) only [decode10, bits_append_low, bits_append_high, bits_self, Nat.sub_self, Nat.reduceSub, BitVec.toNat_ofNat, Nat.reducePow,
      Nat.reduceMod, and_self, if_true] <;> rfl))
theorem faddF64 (rd : BitVec 7) (ra : BitVec 7) (rb : BitVec 7) (ta : BitVec 1) (tb : BitVec 1) : Statement (.faddF64 rd ra rb ta tb) := oneWord rfl ((layout11 (by simp (disch := decide) only [bits_append_high, bits_append_low, bits_self, Nat.sub_self, Nat.reduceSub] <;> rfl)).trans
    (by simp (disch := decide) only [decode11, bits_append_low, bits_append_high, bits_self, Nat.sub_self, Nat.reduceSub, BitVec.toNat_ofNat, Nat.reducePow,
      Nat.reduceMod, and_self, if_true] <;> rfl))
theorem fsubF64 (rd : BitVec 7) (ra : BitVec 7) (rb : BitVec 7) (ta : BitVec 1) (tb : BitVec 1) : Statement (.fsubF64 rd ra rb ta tb) := oneWord rfl ((layout11 (by simp (disch := decide) only [bits_append_high, bits_append_low, bits_self, Nat.sub_self, Nat.reduceSub] <;> rfl)).trans
    (by simp (disch := decide) only [decode11, bits_append_low, bits_append_high, bits_self, Nat.sub_self, Nat.reduceSub, BitVec.toNat_ofNat, Nat.reducePow,
      Nat.reduceMod, and_self, if_true] <;> rfl))
theorem fmulF64 (rd : BitVec 7) (ra : BitVec 7) (rb : BitVec 7) (ta : BitVec 1) (tb : BitVec 1) : Statement (.fmulF64 rd ra rb ta tb) := oneWord rfl ((layout11 (by simp (disch := decide) only [bits_append_high, bits_append_low, bits_self, Nat.sub_self, Nat.reduceSub] <;> rfl)).trans
    (by simp (disch := decide) only [decode11, bits_append_low, bits_append_high, bits_self, Nat.sub_self, Nat.reduceSub, BitVec.toNat_ofNat, Nat.reducePow,
      Nat.reduceMod, and_self, if_true] <;> rfl))
theorem fdivF64 (rd : BitVec 7) (ra : BitVec 7) (rb : BitVec 7) (ta : BitVec 1) (tb : BitVec 1) : Statement (.fdivF64 rd ra rb ta tb) := oneWord rfl ((layout11 (by simp (disch := decide) only [bits_append_high, bits_append_low, bits_self, Nat.sub_self, Nat.reduceSub] <;> rfl)).trans
    (by simp (disch := decide) only [decode11, bits_append_low, bits_append_high, bits_self, Nat.sub_self, Nat.reduceSub, BitVec.toNat_ofNat, Nat.reducePow,
      Nat.reduceMod, and_self, if_true] <;> rfl))
theorem fminF64 (rd : BitVec 7) (ra : BitVec 7) (rb : BitVec 7) (ta : BitVec 1) (tb : BitVec 1) : Statement (.fminF64 rd ra rb ta tb) := oneWord rfl ((layout11 (by simp (disch := decide) only [bits_append_high, bits_append_low, bits_self, Nat.sub_self, Nat.reduceSub] <;> rfl)).trans
    (by simp (disch := decide) only [decode11, bits_append_low, bits_append_high, bits_self, Nat.sub_self, Nat.reduceSub, BitVec.toNat_ofNat, Nat.reducePow,
      Nat.reduceMod, and_self, if_true] <;> rfl))
theorem fmaxF64 (rd : BitVec 7) (ra : BitVec 7) (rb : BitVec 7) (ta : BitVec 1) (tb : BitVec 1) : Statement (.fmaxF64 rd ra rb ta tb) := oneWord rfl ((layout11 (by simp (disch := decide) only [bits_append_high, bits_append_low, bits_self, Nat.sub_self, Nat.reduceSub] <;> rfl)).trans
    (by simp (disch := decide) only [decode11, bits_append_low, bits_append_high, bits_self, Nat.sub_self, Nat.reduceSub, BitVec.toNat_ofNat, Nat.reducePow,
      Nat.reduceMod, and_self, if_true] <;> rfl))
theorem fsqrtF64 (rd : BitVec 7) (ra : BitVec 7) (ta : BitVec 1) : Statement (.fsqrtF64 rd ra ta) := oneWord rfl ((layout11 (by simp (disch := decide) only [bits_append_high, bits_append_low, bits_self, Nat.sub_self, Nat.reduceSub] <;> rfl)).trans
    (by simp (disch := decide) only [decode11, bits_append_low, bits_append_high, bits_self, Nat.sub_self, Nat.reduceSub, BitVec.toNat_ofNat, Nat.reducePow,
      Nat.reduceMod, and_self, if_true] <;> rfl))
theorem ffmaF32 (rd : BitVec 7) (ra : BitVec 7) (rb : BitVec 7) (rc : BitVec 5) : Statement (.ffmaF32 rd ra rb rc) := oneWord rfl ((layout12 (by simp (disch := decide) only [bits_append_high, bits_append_low, bits_self, Nat.sub_self, Nat.reduceSub] <;> rfl)).trans
    (by simp (disch := decide) only [decode12, bits_append_low, bits_append_high, bits_self, Nat.sub_self, Nat.reduceSub, BitVec.toNat_ofNat, Nat.reducePow,
      Nat.reduceMod, and_self, if_true] <;> rfl))
theorem ffmaF64 (rd : BitVec 7) (ra : BitVec 7) (rb : BitVec 7) (rc : BitVec 5) : Statement (.ffmaF64 rd ra rb rc) := oneWord rfl ((layout13 (by simp (disch := decide) only [bits_append_high, bits_append_low, bits_self, Nat.sub_self, Nat.reduceSub] <;> rfl)).trans
    (by simp (disch := decide) only [decode13, bits_append_low, bits_append_high, bits_self, Nat.sub_self, Nat.reduceSub, BitVec.toNat_ofNat, Nat.reducePow,
      Nat.reduceMod, and_self, if_true] <;> rfl))
theorem feqF32 (rd : BitVec 7) (ra : BitVec 7) (rb : BitVec 7) (ta : BitVec 1) (tb : BitVec 1) : Statement (.feqF32 rd ra rb ta tb) := oneWord rfl ((layout14 (by simp (disch := decide) only [bits_append_high, bits_append_low, bits_self, Nat.sub_self, Nat.reduceSub] <;> rfl)).trans
    (by simp (disch := decide) only [decode14, bits_append_low, bits_append_high, bits_self, Nat.sub_self, Nat.reduceSub, BitVec.toNat_ofNat, Nat.reducePow,
      Nat.reduceMod, and_self, if_true] <;> rfl))
theorem fltF32 (rd : BitVec 7) (ra : BitVec 7) (rb : BitVec 7) (ta : BitVec 1) (tb : BitVec 1) : Statement (.fltF32 rd ra rb ta tb) := oneWord rfl ((layout14 (by simp (disch := decide) only [bits_append_high, bits_append_low, bits_self, Nat.sub_self, Nat.reduceSub] <;> rfl)).trans
    (by simp (disch := decide) only [decode14, bits_append_low, bits_append_high, bits_self, Nat.sub_self, Nat.reduceSub, BitVec.toNat_ofNat, Nat.reducePow,
      Nat.reduceMod, and_self, if_true] <;> rfl))
theorem fleF32 (rd : BitVec 7) (ra : BitVec 7) (rb : BitVec 7) (ta : BitVec 1) (tb : BitVec 1) : Statement (.fleF32 rd ra rb ta tb) := oneWord rfl ((layout14 (by simp (disch := decide) only [bits_append_high, bits_append_low, bits_self, Nat.sub_self, Nat.reduceSub] <;> rfl)).trans
    (by simp (disch := decide) only [decode14, bits_append_low, bits_append_high, bits_self, Nat.sub_self, Nat.reduceSub, BitVec.toNat_ofNat, Nat.reducePow,
      Nat.reduceMod, and_self, if_true] <;> rfl))
theorem funF32 (rd : BitVec 7) (ra : BitVec 7) (rb : BitVec 7) (ta : BitVec 1) (tb : BitVec 1) : Statement (.funF32 rd ra rb ta tb) := oneWord rfl ((layout14 (by simp (disch := decide) only [bits_append_high, bits_append_low, bits_self, Nat.sub_self, Nat.reduceSub] <;> rfl)).trans
    (by simp (disch := decide) only [decode14, bits_append_low, bits_append_high, bits_self, Nat.sub_self, Nat.reduceSub, BitVec.toNat_ofNat, Nat.reducePow,
      Nat.reduceMod, and_self, if_true] <;> rfl))
theorem feqF64 (rd : BitVec 7) (ra : BitVec 7) (rb : BitVec 7) (ta : BitVec 1) (tb : BitVec 1) : Statement (.feqF64 rd ra rb ta tb) := oneWord rfl ((layout14 (by simp (disch := decide) only [bits_append_high, bits_append_low, bits_self, Nat.sub_self, Nat.reduceSub] <;> rfl)).trans
    (by simp (disch := decide) only [decode14, bits_append_low, bits_append_high, bits_self, Nat.sub_self, Nat.reduceSub, BitVec.toNat_ofNat, Nat.reducePow,
      Nat.reduceMod, and_self, if_true] <;> rfl))
theorem fltF64 (rd : BitVec 7) (ra : BitVec 7) (rb : BitVec 7) (ta : BitVec 1) (tb : BitVec 1) : Statement (.fltF64 rd ra rb ta tb) := oneWord rfl ((layout14 (by simp (disch := decide) only [bits_append_high, bits_append_low, bits_self, Nat.sub_self, Nat.reduceSub] <;> rfl)).trans
    (by simp (disch := decide) only [decode14, bits_append_low, bits_append_high, bits_self, Nat.sub_self, Nat.reduceSub, BitVec.toNat_ofNat, Nat.reducePow,
      Nat.reduceMod, and_self, if_true] <;> rfl))
theorem fleF64 (rd : BitVec 7) (ra : BitVec 7) (rb : BitVec 7) (ta : BitVec 1) (tb : BitVec 1) : Statement (.fleF64 rd ra rb ta tb) := oneWord rfl ((layout14 (by simp (disch := decide) only [bits_append_high, bits_append_low, bits_self, Nat.sub_self, Nat.reduceSub] <;> rfl)).trans
    (by simp (disch := decide) only [decode14, bits_append_low, bits_append_high, bits_self, Nat.sub_self, Nat.reduceSub, BitVec.toNat_ofNat, Nat.reducePow,
      Nat.reduceMod, and_self, if_true] <;> rfl))
theorem funF64 (rd : BitVec 7) (ra : BitVec 7) (rb : BitVec 7) (ta : BitVec 1) (tb : BitVec 1) : Statement (.funF64 rd ra rb ta tb) := oneWord rfl ((layout14 (by simp (disch := decide) only [bits_append_high, bits_append_low, bits_self, Nat.sub_self, Nat.reduceSub] <;> rfl)).trans
    (by simp (disch := decide) only [decode14, bits_append_low, bits_append_high, bits_self, Nat.sub_self, Nat.reduceSub, BitVec.toNat_ofNat, Nat.reducePow,
      Nat.reduceMod, and_self, if_true] <;> rfl))
theorem fcvtF64F32 (rd : BitVec 7) (ra : BitVec 7) (mode : BitVec 3) (ta : BitVec 1) : Statement (.fcvtF64F32 rd ra mode ta) := oneWord rfl ((layout15 (by simp (disch := decide) only [bits_append_high, bits_append_low, bits_self, Nat.sub_self, Nat.reduceSub] <;> rfl)).trans
    (by simp (disch := decide) only [decode15, bits_append_low, bits_append_high, bits_self, Nat.sub_self, Nat.reduceSub, BitVec.toNat_ofNat, Nat.reducePow,
      Nat.reduceMod, and_self, if_true] <;> rfl))
theorem fcvtF32F64 (rd : BitVec 7) (ra : BitVec 7) (mode : BitVec 3) (ta : BitVec 1) : Statement (.fcvtF32F64 rd ra mode ta) := oneWord rfl ((layout15 (by simp (disch := decide) only [bits_append_high, bits_append_low, bits_self, Nat.sub_self, Nat.reduceSub] <;> rfl)).trans
    (by simp (disch := decide) only [decode15, bits_append_low, bits_append_high, bits_self, Nat.sub_self, Nat.reduceSub, BitVec.toNat_ofNat, Nat.reducePow,
      Nat.reduceMod, and_self, if_true] <;> rfl))
theorem fcvtI64F32 (rd : BitVec 7) (ra : BitVec 7) (mode : BitVec 3) (ta : BitVec 1) : Statement (.fcvtI64F32 rd ra mode ta) := oneWord rfl ((layout15 (by simp (disch := decide) only [bits_append_high, bits_append_low, bits_self, Nat.sub_self, Nat.reduceSub] <;> rfl)).trans
    (by simp (disch := decide) only [decode15, bits_append_low, bits_append_high, bits_self, Nat.sub_self, Nat.reduceSub, BitVec.toNat_ofNat, Nat.reducePow,
      Nat.reduceMod, and_self, if_true] <;> rfl))
theorem fcvtU64F32 (rd : BitVec 7) (ra : BitVec 7) (mode : BitVec 3) (ta : BitVec 1) : Statement (.fcvtU64F32 rd ra mode ta) := oneWord rfl ((layout15 (by simp (disch := decide) only [bits_append_high, bits_append_low, bits_self, Nat.sub_self, Nat.reduceSub] <;> rfl)).trans
    (by simp (disch := decide) only [decode15, bits_append_low, bits_append_high, bits_self, Nat.sub_self, Nat.reduceSub, BitVec.toNat_ofNat, Nat.reducePow,
      Nat.reduceMod, and_self, if_true] <;> rfl))
theorem fcvtI64F64 (rd : BitVec 7) (ra : BitVec 7) (mode : BitVec 3) (ta : BitVec 1) : Statement (.fcvtI64F64 rd ra mode ta) := oneWord rfl ((layout15 (by simp (disch := decide) only [bits_append_high, bits_append_low, bits_self, Nat.sub_self, Nat.reduceSub] <;> rfl)).trans
    (by simp (disch := decide) only [decode15, bits_append_low, bits_append_high, bits_self, Nat.sub_self, Nat.reduceSub, BitVec.toNat_ofNat, Nat.reducePow,
      Nat.reduceMod, and_self, if_true] <;> rfl))
theorem fcvtU64F64 (rd : BitVec 7) (ra : BitVec 7) (mode : BitVec 3) (ta : BitVec 1) : Statement (.fcvtU64F64 rd ra mode ta) := oneWord rfl ((layout15 (by simp (disch := decide) only [bits_append_high, bits_append_low, bits_self, Nat.sub_self, Nat.reduceSub] <;> rfl)).trans
    (by simp (disch := decide) only [decode15, bits_append_low, bits_append_high, bits_self, Nat.sub_self, Nat.reduceSub, BitVec.toNat_ofNat, Nat.reducePow,
      Nat.reduceMod, and_self, if_true] <;> rfl))
theorem fcvtF32I64 (rd : BitVec 7) (ra : BitVec 7) (mode : BitVec 3) (ta : BitVec 1) : Statement (.fcvtF32I64 rd ra mode ta) := oneWord rfl ((layout15 (by simp (disch := decide) only [bits_append_high, bits_append_low, bits_self, Nat.sub_self, Nat.reduceSub] <;> rfl)).trans
    (by simp (disch := decide) only [decode15, bits_append_low, bits_append_high, bits_self, Nat.sub_self, Nat.reduceSub, BitVec.toNat_ofNat, Nat.reducePow,
      Nat.reduceMod, and_self, if_true] <;> rfl))
theorem fcvtF32U64 (rd : BitVec 7) (ra : BitVec 7) (mode : BitVec 3) (ta : BitVec 1) : Statement (.fcvtF32U64 rd ra mode ta) := oneWord rfl ((layout15 (by simp (disch := decide) only [bits_append_high, bits_append_low, bits_self, Nat.sub_self, Nat.reduceSub] <;> rfl)).trans
    (by simp (disch := decide) only [decode15, bits_append_low, bits_append_high, bits_self, Nat.sub_self, Nat.reduceSub, BitVec.toNat_ofNat, Nat.reducePow,
      Nat.reduceMod, and_self, if_true] <;> rfl))
theorem fcvtF64I64 (rd : BitVec 7) (ra : BitVec 7) (mode : BitVec 3) (ta : BitVec 1) : Statement (.fcvtF64I64 rd ra mode ta) := oneWord rfl ((layout15 (by simp (disch := decide) only [bits_append_high, bits_append_low, bits_self, Nat.sub_self, Nat.reduceSub] <;> rfl)).trans
    (by simp (disch := decide) only [decode15, bits_append_low, bits_append_high, bits_self, Nat.sub_self, Nat.reduceSub, BitVec.toNat_ofNat, Nat.reducePow,
      Nat.reduceMod, and_self, if_true] <;> rfl))
theorem fcvtF64U64 (rd : BitVec 7) (ra : BitVec 7) (mode : BitVec 3) (ta : BitVec 1) : Statement (.fcvtF64U64 rd ra mode ta) := oneWord rfl ((layout15 (by simp (disch := decide) only [bits_append_high, bits_append_low, bits_self, Nat.sub_self, Nat.reduceSub] <;> rfl)).trans
    (by simp (disch := decide) only [decode15, bits_append_low, bits_append_high, bits_self, Nat.sub_self, Nat.reduceSub, BitVec.toNat_ofNat, Nat.reducePow,
      Nat.reduceMod, and_self, if_true] <;> rfl))
theorem fcvtI32F32 (rd : BitVec 7) (ra : BitVec 7) (mode : BitVec 3) (ta : BitVec 1) : Statement (.fcvtI32F32 rd ra mode ta) := oneWord rfl ((layout15 (by simp (disch := decide) only [bits_append_high, bits_append_low, bits_self, Nat.sub_self, Nat.reduceSub] <;> rfl)).trans
    (by simp (disch := decide) only [decode15, bits_append_low, bits_append_high, bits_self, Nat.sub_self, Nat.reduceSub, BitVec.toNat_ofNat, Nat.reducePow,
      Nat.reduceMod, and_self, if_true] <;> rfl))
theorem fcvtI32F64 (rd : BitVec 7) (ra : BitVec 7) (mode : BitVec 3) (ta : BitVec 1) : Statement (.fcvtI32F64 rd ra mode ta) := oneWord rfl ((layout15 (by simp (disch := decide) only [bits_append_high, bits_append_low, bits_self, Nat.sub_self, Nat.reduceSub] <;> rfl)).trans
    (by simp (disch := decide) only [decode15, bits_append_low, bits_append_high, bits_self, Nat.sub_self, Nat.reduceSub, BitVec.toNat_ofNat, Nat.reducePow,
      Nat.reduceMod, and_self, if_true] <;> rfl))
theorem fcvtBf16F32 (rd : BitVec 7) (ra : BitVec 7) (mode : BitVec 3) (ta : BitVec 1) : Statement (.fcvtBf16F32 rd ra mode ta) := oneWord rfl ((layout15 (by simp (disch := decide) only [bits_append_high, bits_append_low, bits_self, Nat.sub_self, Nat.reduceSub] <;> rfl)).trans
    (by simp (disch := decide) only [decode15, bits_append_low, bits_append_high, bits_self, Nat.sub_self, Nat.reduceSub, BitVec.toNat_ofNat, Nat.reducePow,
      Nat.reduceMod, and_self, if_true] <;> rfl))
theorem fcvtF32Bf16 (rd : BitVec 7) (ra : BitVec 7) (mode : BitVec 3) (ta : BitVec 1) : Statement (.fcvtF32Bf16 rd ra mode ta) := oneWord rfl ((layout15 (by simp (disch := decide) only [bits_append_high, bits_append_low, bits_self, Nat.sub_self, Nat.reduceSub] <;> rfl)).trans
    (by simp (disch := decide) only [decode15, bits_append_low, bits_append_high, bits_self, Nat.sub_self, Nat.reduceSub, BitVec.toNat_ofNat, Nat.reducePow,
      Nat.reduceMod, and_self, if_true] <;> rfl))
theorem fclassF32 (rd : BitVec 7) (ra : BitVec 7) (ta : BitVec 1) : Statement (.fclassF32 rd ra ta) := oneWord rfl ((layout16 (by simp (disch := decide) only [bits_append_high, bits_append_low, bits_self, Nat.sub_self, Nat.reduceSub] <;> rfl)).trans
    (by simp (disch := decide) only [decode16, bits_append_low, bits_append_high, bits_self, Nat.sub_self, Nat.reduceSub, BitVec.toNat_ofNat, Nat.reducePow,
      Nat.reduceMod, and_self, if_true] <;> rfl))
theorem fclassF64 (rd : BitVec 7) (ra : BitVec 7) (ta : BitVec 1) : Statement (.fclassF64 rd ra ta) := oneWord rfl ((layout16 (by simp (disch := decide) only [bits_append_high, bits_append_low, bits_self, Nat.sub_self, Nat.reduceSub] <;> rfl)).trans
    (by simp (disch := decide) only [decode16, bits_append_low, bits_append_high, bits_self, Nat.sub_self, Nat.reduceSub, BitVec.toNat_ofNat, Nat.reducePow,
      Nat.reduceMod, and_self, if_true] <;> rfl))
theorem bcEqz (ra : BitVec 7) (ta : BitVec 1) (n : BitVec 15) : Statement (.bcEqz ra ta n) := oneWord rfl ((layout17 (by simp (disch := decide) only [bits_append_high, bits_append_low, bits_self, Nat.sub_self, Nat.reduceSub] <;> rfl)).trans
    (by simp (disch := decide) only [decode17, bits_append_low, bits_append_high, bits_self, Nat.sub_self, Nat.reduceSub, BitVec.toNat_ofNat, Nat.reducePow,
      Nat.reduceMod, and_self, if_true] <;> rfl))
theorem bcNez (ra : BitVec 7) (ta : BitVec 1) (n : BitVec 15) : Statement (.bcNez ra ta n) := oneWord rfl ((layout17 (by simp (disch := decide) only [bits_append_high, bits_append_low, bits_self, Nat.sub_self, Nat.reduceSub] <;> rfl)).trans
    (by simp (disch := decide) only [decode17, bits_append_low, bits_append_high, bits_self, Nat.sub_self, Nat.reduceSub, BitVec.toNat_ofNat, Nat.reducePow,
      Nat.reduceMod, and_self, if_true] <;> rfl))
theorem bcLtz (ra : BitVec 7) (ta : BitVec 1) (n : BitVec 15) : Statement (.bcLtz ra ta n) := oneWord rfl ((layout17 (by simp (disch := decide) only [bits_append_high, bits_append_low, bits_self, Nat.sub_self, Nat.reduceSub] <;> rfl)).trans
    (by simp (disch := decide) only [decode17, bits_append_low, bits_append_high, bits_self, Nat.sub_self, Nat.reduceSub, BitVec.toNat_ofNat, Nat.reducePow,
      Nat.reduceMod, and_self, if_true] <;> rfl))
theorem bcGez (ra : BitVec 7) (ta : BitVec 1) (n : BitVec 15) : Statement (.bcGez ra ta n) := oneWord rfl ((layout17 (by simp (disch := decide) only [bits_append_high, bits_append_low, bits_self, Nat.sub_self, Nat.reduceSub] <;> rfl)).trans
    (by simp (disch := decide) only [decode17, bits_append_low, bits_append_high, bits_self, Nat.sub_self, Nat.reduceSub, BitVec.toNat_ofNat, Nat.reducePow,
      Nat.reduceMod, and_self, if_true] <;> rfl))
theorem bcGtz (ra : BitVec 7) (ta : BitVec 1) (n : BitVec 15) : Statement (.bcGtz ra ta n) := oneWord rfl ((layout17 (by simp (disch := decide) only [bits_append_high, bits_append_low, bits_self, Nat.sub_self, Nat.reduceSub] <;> rfl)).trans
    (by simp (disch := decide) only [decode17, bits_append_low, bits_append_high, bits_self, Nat.sub_self, Nat.reduceSub, BitVec.toNat_ofNat, Nat.reducePow,
      Nat.reduceMod, and_self, if_true] <;> rfl))
theorem bcLez (ra : BitVec 7) (ta : BitVec 1) (n : BitVec 15) : Statement (.bcLez ra ta n) := oneWord rfl ((layout17 (by simp (disch := decide) only [bits_append_high, bits_append_low, bits_self, Nat.sub_self, Nat.reduceSub] <;> rfl)).trans
    (by simp (disch := decide) only [decode17, bits_append_low, bits_append_high, bits_self, Nat.sub_self, Nat.reduceSub, BitVec.toNat_ofNat, Nat.reducePow,
      Nat.reduceMod, and_self, if_true] <;> rfl))
theorem bcFull (ra : BitVec 7) (n : BitVec 15) : Statement (.bcFull ra n) := oneWord rfl ((layout17 (by simp (disch := decide) only [bits_append_high, bits_append_low, bits_self, Nat.sub_self, Nat.reduceSub] <;> rfl)).trans
    (by simp (disch := decide) only [decode17, bits_append_low, bits_append_high, bits_self, Nat.sub_self, Nat.reduceSub, BitVec.toNat_ofNat, Nat.reducePow,
      Nat.reduceMod, and_self, if_true] <;> rfl))
theorem bcEmpty (ra : BitVec 7) (n : BitVec 15) : Statement (.bcEmpty ra n) := oneWord rfl ((layout17 (by simp (disch := decide) only [bits_append_high, bits_append_low, bits_self, Nat.sub_self, Nat.reduceSub] <;> rfl)).trans
    (by simp (disch := decide) only [decode17, bits_append_low, bits_append_high, bits_self, Nat.sub_self, Nat.reduceSub, BitVec.toNat_ofNat, Nat.reducePow,
      Nat.reduceMod, and_self, if_true] <;> rfl))
theorem j (n : BitVec 26) : Statement (.j n) := oneWord rfl ((layout18 (by simp (disch := decide) only [bits_append_high, bits_append_low, bits_self, Nat.sub_self, Nat.reduceSub] <;> rfl)).trans
    (by simp (disch := decide) only [decode18, bits_append_low, bits_append_high, bits_self, Nat.sub_self, Nat.reduceSub, BitVec.toNat_ofNat, Nat.reducePow,
      Nat.reduceMod, and_self, if_true] <;> rfl))
theorem call (n : BitVec 26) : Statement (.call n) := oneWord rfl ((layout19 (by simp (disch := decide) only [bits_append_high, bits_append_low, bits_self, Nat.sub_self, Nat.reduceSub] <;> rfl)).trans
    (by simp (disch := decide) only [decode19, bits_append_low, bits_append_high, bits_self, Nat.sub_self, Nat.reduceSub, BitVec.toNat_ofNat, Nat.reducePow,
      Nat.reduceMod, and_self, if_true] <;> rfl))
theorem jr (ra : BitVec 7) (ta : BitVec 1) : Statement (.jr ra ta) := oneWord rfl ((layout1A (by simp (disch := decide) only [bits_append_high, bits_append_low, bits_self, Nat.sub_self, Nat.reduceSub] <;> rfl)).trans
    (by simp (disch := decide) only [decode1A, bits_append_low, bits_append_high, bits_self, Nat.sub_self, Nat.reduceSub, BitVec.toNat_ofNat, Nat.reducePow,
      Nat.reduceMod, and_self, if_true] <;> rfl))
theorem callr (ra : BitVec 7) (ta : BitVec 1) : Statement (.callr ra ta) := oneWord rfl ((layout1A (by simp (disch := decide) only [bits_append_high, bits_append_low, bits_self, Nat.sub_self, Nat.reduceSub] <;> rfl)).trans
    (by simp (disch := decide) only [decode1A, bits_append_low, bits_append_high, bits_self, Nat.sub_self, Nat.reduceSub, BitVec.toNat_ofNat, Nat.reducePow,
      Nat.reduceMod, and_self, if_true] <;> rfl))
theorem loop (ra : BitVec 7) (stop : BitVec 12) (level : BitVec 1) : Statement (.loop ra stop level) := oneWord rfl ((layout1B (by simp (disch := decide) only [bits_append_high, bits_append_low, bits_self, Nat.sub_self, Nat.reduceSub] <;> rfl)).trans
    (by simp (disch := decide) only [decode1B, bits_append_low, bits_append_high, bits_self, Nat.sub_self, Nat.reduceSub, BitVec.toNat_ofNat, Nat.reducePow,
      Nat.reduceMod, and_self, if_true] <;> rfl))
theorem fork (ra : BitVec 7) (ta : BitVec 1) (n : BitVec 15) : Statement (.fork ra ta n) := oneWord rfl ((layout1C (by simp (disch := decide) only [bits_append_high, bits_append_low, bits_self, Nat.sub_self, Nat.reduceSub] <;> rfl)).trans
    (by simp (disch := decide) only [decode1C, bits_append_low, bits_append_high, bits_self, Nat.sub_self, Nat.reduceSub, BitVec.toNat_ofNat, Nat.reducePow,
      Nat.reduceMod, and_self, if_true] <;> rfl))
theorem join (ra : BitVec 7) (ta : BitVec 1) : Statement (.join ra ta) := oneWord rfl ((layout1D (by simp (disch := decide) only [bits_append_high, bits_append_low, bits_self, Nat.sub_self, Nat.reduceSub] <;> rfl)).trans
    (by simp (disch := decide) only [decode1D, bits_append_low, bits_append_high, bits_self, Nat.sub_self, Nat.reduceSub, BitVec.toNat_ofNat, Nat.reducePow,
      Nat.reduceMod, and_self, if_true] <;> rfl))
theorem couple (rd : BitVec 7) (ra : BitVec 7) (ta : BitVec 1) : Statement (.couple rd ra ta) := oneWord rfl ((layout1E (by simp (disch := decide) only [bits_append_high, bits_append_low, bits_self, Nat.sub_self, Nat.reduceSub] <;> rfl)).trans
    (by simp (disch := decide) only [decode1E, bits_append_low, bits_append_high, bits_self, Nat.sub_self, Nat.reduceSub, BitVec.toNat_ofNat, Nat.reducePow,
      Nat.reduceMod, and_self, if_true] <;> rfl))
theorem gangid (rd : BitVec 7) : Statement (.gangid rd) := oneWord rfl ((layout1E (by simp (disch := decide) only [bits_append_high, bits_append_low, bits_self, Nat.sub_self, Nat.reduceSub] <;> rfl)).trans
    (by simp (disch := decide) only [decode1E, bits_append_low, bits_append_high, bits_self, Nat.sub_self, Nat.reduceSub, BitVec.toNat_ofNat, Nat.reducePow,
      Nat.reduceMod, and_self, if_true] <;> rfl))
theorem ld (rd : BitVec 7) (ra : BitVec 7) (sz : BitVec 2) (p : BitVec 3) (ta : BitVec 1) (off : BitVec 6) : Statement (.ld rd ra sz p ta off) := oneWord rfl ((layout20 (by simp (disch := decide) only [bits_append_high, bits_append_low, bits_self, Nat.sub_self, Nat.reduceSub] <;> rfl)).trans
    (by simp (disch := decide) only [decode20, bits_append_low, bits_append_high, bits_self, Nat.sub_self, Nat.reduceSub, BitVec.toNat_ofNat, Nat.reducePow,
      Nat.reduceMod, and_self, if_true] <;> rfl))
theorem ldx (rd : BitVec 7) (ra : BitVec 7) (sz : BitVec 2) (p : BitVec 3) (ta : BitVec 1) (off : BitVec 6) : Statement (.ldx rd ra sz p ta off) := oneWord rfl ((layout21 (by simp (disch := decide) only [bits_append_high, bits_append_low, bits_self, Nat.sub_self, Nat.reduceSub] <;> rfl)).trans
    (by simp (disch := decide) only [decode21, bits_append_low, bits_append_high, bits_self, Nat.sub_self, Nat.reduceSub, BitVec.toNat_ofNat, Nat.reducePow,
      Nat.reduceMod, and_self, if_true] <;> rfl))
theorem ldAcq (rd : BitVec 7) (ra : BitVec 7) (sz : BitVec 2) (p : BitVec 3) (ta : BitVec 1) (off : BitVec 6) : Statement (.ldAcq rd ra sz p ta off) := oneWord rfl ((layout22 (by simp (disch := decide) only [bits_append_high, bits_append_low, bits_self, Nat.sub_self, Nat.reduceSub] <;> rfl)).trans
    (by simp (disch := decide) only [decode22, bits_append_low, bits_append_high, bits_self, Nat.sub_self, Nat.reduceSub, BitVec.toNat_ofNat, Nat.reducePow,
      Nat.reduceMod, and_self, if_true] <;> rfl))
theorem st (rs : BitVec 7) (ra : BitVec 7) (sz : BitVec 2) (p : BitVec 3) (ta : BitVec 1) (off : BitVec 6) : Statement (.st rs ra sz p ta off) := oneWord rfl ((layout23 (by simp (disch := decide) only [bits_append_high, bits_append_low, bits_self, Nat.sub_self, Nat.reduceSub] <;> rfl)).trans
    (by simp (disch := decide) only [decode23, bits_append_low, bits_append_high, bits_self, Nat.sub_self, Nat.reduceSub, BitVec.toNat_ofNat, Nat.reducePow,
      Nat.reduceMod, and_self, if_true] <;> rfl))
theorem stRel (rs : BitVec 7) (ra : BitVec 7) (sz : BitVec 2) (p : BitVec 3) (ta : BitVec 1) (off : BitVec 6) : Statement (.stRel rs ra sz p ta off) := oneWord rfl ((layout24 (by simp (disch := decide) only [bits_append_high, bits_append_low, bits_self, Nat.sub_self, Nat.reduceSub] <;> rfl)).trans
    (by simp (disch := decide) only [decode24, bits_append_low, bits_append_high, bits_self, Nat.sub_self, Nat.reduceSub, BitVec.toNat_ofNat, Nat.reducePow,
      Nat.reduceMod, and_self, if_true] <;> rfl))
theorem vld (rd : BitVec 7) (ra : BitVec 7) (p : BitVec 3) (ta : BitVec 1) (off : BitVec 6) : Statement (.vld rd ra p ta off) := oneWord rfl ((layout25 (by simp (disch := decide) only [bits_append_high, bits_append_low, bits_self, Nat.sub_self, Nat.reduceSub] <;> rfl)).trans
    (by simp (disch := decide) only [decode25, bits_append_low, bits_append_high, bits_self, Nat.sub_self, Nat.reduceSub, BitVec.toNat_ofNat, Nat.reducePow,
      Nat.reduceMod, and_self, if_true] <;> rfl))
theorem vst (rs : BitVec 7) (ra : BitVec 7) (p : BitVec 3) (ta : BitVec 1) (off : BitVec 6) : Statement (.vst rs ra p ta off) := oneWord rfl ((layout26 (by simp (disch := decide) only [bits_append_high, bits_append_low, bits_self, Nat.sub_self, Nat.reduceSub] <;> rfl)).trans
    (by simp (disch := decide) only [decode26, bits_append_low, bits_append_high, bits_self, Nat.sub_self, Nat.reduceSub, BitVec.toNat_ofNat, Nat.reducePow,
      Nat.reduceMod, and_self, if_true] <;> rfl))
theorem vlds (rd : BitVec 7) (ra : BitVec 7) (rb : BitVec 7) (ta : BitVec 1) (tb : BitVec 1) : Statement (.vlds rd ra rb ta tb) := oneWord rfl ((layout27 (by simp (disch := decide) only [bits_append_high, bits_append_low, bits_self, Nat.sub_self, Nat.reduceSub] <;> rfl)).trans
    (by simp (disch := decide) only [decode27, bits_append_low, bits_append_high, bits_self, Nat.sub_self, Nat.reduceSub, BitVec.toNat_ofNat, Nat.reducePow,
      Nat.reduceMod, and_self, if_true] <;> rfl))
theorem vgath (rd : BitVec 7) (ra : BitVec 7) (rb : BitVec 7) (sh : BitVec 3) (ta : BitVec 1) (tb : BitVec 1) : Statement (.vgath rd ra rb sh ta tb) := oneWord rfl ((layout28 (by simp (disch := decide) only [bits_append_high, bits_append_low, bits_self, Nat.sub_self, Nat.reduceSub] <;> rfl)).trans
    (by simp (disch := decide) only [decode28, bits_append_low, bits_append_high, bits_self, Nat.sub_self, Nat.reduceSub, BitVec.toNat_ofNat, Nat.reducePow,
      Nat.reduceMod, and_self, if_true] <;> rfl))
theorem vscat (rs : BitVec 7) (ra : BitVec 7) (rb : BitVec 7) (sh : BitVec 3) (ta : BitVec 1) (tb : BitVec 1) : Statement (.vscat rs ra rb sh ta tb) := oneWord rfl ((layout29 (by simp (disch := decide) only [bits_append_high, bits_append_low, bits_self, Nat.sub_self, Nat.reduceSub] <;> rfl)).trans
    (by simp (disch := decide) only [decode29, bits_append_low, bits_append_high, bits_self, Nat.sub_self, Nat.reduceSub, BitVec.toNat_ofNat, Nat.reducePow,
      Nat.reduceMod, and_self, if_true] <;> rfl))
theorem pref (ra : BitVec 7) (p : BitVec 3) (ta : BitVec 1) (off : BitVec 6) : Statement (.pref ra p ta off) := oneWord rfl ((layout2A (by simp (disch := decide) only [bits_append_high, bits_append_low, bits_self, Nat.sub_self, Nat.reduceSub] <;> rfl)).trans
    (by simp (disch := decide) only [decode2A, bits_append_low, bits_append_high, bits_self, Nat.sub_self, Nat.reduceSub, BitVec.toNat_ofNat, Nat.reducePow,
      Nat.reduceMod, and_self, if_true] <;> rfl))
theorem fenceRw (p : BitVec 7) : Statement (.fenceRw p) := oneWord rfl ((layout2B (by simp (disch := decide) only [bits_append_high, bits_append_low, bits_self, Nat.sub_self, Nat.reduceSub] <;> rfl)).trans
    (by simp (disch := decide) only [decode2B, bits_append_low, bits_append_high, bits_self, Nat.sub_self, Nat.reduceSub, BitVec.toNat_ofNat, Nat.reducePow,
      Nat.reduceMod, and_self, if_true] <;> rfl))
theorem fenceAcq (p : BitVec 7) : Statement (.fenceAcq p) := oneWord rfl ((layout2B (by simp (disch := decide) only [bits_append_high, bits_append_low, bits_self, Nat.sub_self, Nat.reduceSub] <;> rfl)).trans
    (by simp (disch := decide) only [decode2B, bits_append_low, bits_append_high, bits_self, Nat.sub_self, Nat.reduceSub, BitVec.toNat_ofNat, Nat.reducePow,
      Nat.reduceMod, and_self, if_true] <;> rfl))
theorem fenceRel (p : BitVec 7) : Statement (.fenceRel p) := oneWord rfl ((layout2B (by simp (disch := decide) only [bits_append_high, bits_append_low, bits_self, Nat.sub_self, Nat.reduceSub] <;> rfl)).trans
    (by simp (disch := decide) only [decode2B, bits_append_low, bits_append_high, bits_self, Nat.sub_self, Nat.reduceSub, BitVec.toNat_ofNat, Nat.reducePow,
      Nat.reduceMod, and_self, if_true] <;> rfl))
theorem fenceSs (p : BitVec 7) : Statement (.fenceSs p) := oneWord rfl ((layout2B (by simp (disch := decide) only [bits_append_high, bits_append_low, bits_self, Nat.sub_self, Nat.reduceSub] <;> rfl)).trans
    (by simp (disch := decide) only [decode2B, bits_append_low, bits_append_high, bits_self, Nat.sub_self, Nat.reduceSub, BitVec.toNat_ofNat, Nat.reducePow,
      Nat.reduceMod, and_self, if_true] <;> rfl))
theorem amoAdd (rd : BitVec 7) (ra : BitVec 7) (rb : BitVec 7) (ta : BitVec 1) (tb : BitVec 1) : Statement (.amoAdd rd ra rb ta tb) := oneWord rfl ((layout2C (by simp (disch := decide) only [bits_append_high, bits_append_low, bits_self, Nat.sub_self, Nat.reduceSub] <;> rfl)).trans
    (by simp (disch := decide) only [decode2C, bits_append_low, bits_append_high, bits_self, Nat.sub_self, Nat.reduceSub, BitVec.toNat_ofNat, Nat.reducePow,
      Nat.reduceMod, and_self, if_true] <;> rfl))
theorem amoAnd (rd : BitVec 7) (ra : BitVec 7) (rb : BitVec 7) (ta : BitVec 1) (tb : BitVec 1) : Statement (.amoAnd rd ra rb ta tb) := oneWord rfl ((layout2C (by simp (disch := decide) only [bits_append_high, bits_append_low, bits_self, Nat.sub_self, Nat.reduceSub] <;> rfl)).trans
    (by simp (disch := decide) only [decode2C, bits_append_low, bits_append_high, bits_self, Nat.sub_self, Nat.reduceSub, BitVec.toNat_ofNat, Nat.reducePow,
      Nat.reduceMod, and_self, if_true] <;> rfl))
theorem amoOr (rd : BitVec 7) (ra : BitVec 7) (rb : BitVec 7) (ta : BitVec 1) (tb : BitVec 1) : Statement (.amoOr rd ra rb ta tb) := oneWord rfl ((layout2C (by simp (disch := decide) only [bits_append_high, bits_append_low, bits_self, Nat.sub_self, Nat.reduceSub] <;> rfl)).trans
    (by simp (disch := decide) only [decode2C, bits_append_low, bits_append_high, bits_self, Nat.sub_self, Nat.reduceSub, BitVec.toNat_ofNat, Nat.reducePow,
      Nat.reduceMod, and_self, if_true] <;> rfl))
theorem amoXor (rd : BitVec 7) (ra : BitVec 7) (rb : BitVec 7) (ta : BitVec 1) (tb : BitVec 1) : Statement (.amoXor rd ra rb ta tb) := oneWord rfl ((layout2C (by simp (disch := decide) only [bits_append_high, bits_append_low, bits_self, Nat.sub_self, Nat.reduceSub] <;> rfl)).trans
    (by simp (disch := decide) only [decode2C, bits_append_low, bits_append_high, bits_self, Nat.sub_self, Nat.reduceSub, BitVec.toNat_ofNat, Nat.reducePow,
      Nat.reduceMod, and_self, if_true] <;> rfl))
theorem amoMin (rd : BitVec 7) (ra : BitVec 7) (rb : BitVec 7) (ta : BitVec 1) (tb : BitVec 1) : Statement (.amoMin rd ra rb ta tb) := oneWord rfl ((layout2C (by simp (disch := decide) only [bits_append_high, bits_append_low, bits_self, Nat.sub_self, Nat.reduceSub] <;> rfl)).trans
    (by simp (disch := decide) only [decode2C, bits_append_low, bits_append_high, bits_self, Nat.sub_self, Nat.reduceSub, BitVec.toNat_ofNat, Nat.reducePow,
      Nat.reduceMod, and_self, if_true] <;> rfl))
theorem amoMax (rd : BitVec 7) (ra : BitVec 7) (rb : BitVec 7) (ta : BitVec 1) (tb : BitVec 1) : Statement (.amoMax rd ra rb ta tb) := oneWord rfl ((layout2C (by simp (disch := decide) only [bits_append_high, bits_append_low, bits_self, Nat.sub_self, Nat.reduceSub] <;> rfl)).trans
    (by simp (disch := decide) only [decode2C, bits_append_low, bits_append_high, bits_self, Nat.sub_self, Nat.reduceSub, BitVec.toNat_ofNat, Nat.reducePow,
      Nat.reduceMod, and_self, if_true] <;> rfl))
theorem amoSwp (rd : BitVec 7) (ra : BitVec 7) (rb : BitVec 7) (ta : BitVec 1) (tb : BitVec 1) : Statement (.amoSwp rd ra rb ta tb) := oneWord rfl ((layout2C (by simp (disch := decide) only [bits_append_high, bits_append_low, bits_self, Nat.sub_self, Nat.reduceSub] <;> rfl)).trans
    (by simp (disch := decide) only [decode2C, bits_append_low, bits_append_high, bits_self, Nat.sub_self, Nat.reduceSub, BitVec.toNat_ofNat, Nat.reducePow,
      Nat.reduceMod, and_self, if_true] <;> rfl))
theorem cas (rd : BitVec 7) (ra : BitVec 7) (rb : BitVec 7) (rc : BitVec 5) : Statement (.cas rd ra rb rc) := oneWord rfl ((layout2D (by simp (disch := decide) only [bits_append_high, bits_append_low, bits_self, Nat.sub_self, Nat.reduceSub] <;> rfl)).trans
    (by simp (disch := decide) only [decode2D, bits_append_low, bits_append_high, bits_self, Nat.sub_self, Nat.reduceSub, BitVec.toNat_ofNat, Nat.reducePow,
      Nat.reduceMod, and_self, if_true] <;> rfl))
theorem vaddI32 (rd : BitVec 7) (ra : BitVec 7) (rb : BitVec 7) (ta : BitVec 1) (tb : BitVec 1) : Statement (.vaddI32 rd ra rb ta tb) := oneWord rfl ((layout30 (by simp (disch := decide) only [bits_append_high, bits_append_low, bits_self, Nat.sub_self, Nat.reduceSub] <;> rfl)).trans
    (by simp (disch := decide) only [decode30, bits_append_low, bits_append_high, bits_self, Nat.sub_self, Nat.reduceSub, BitVec.toNat_ofNat, Nat.reducePow,
      Nat.reduceMod, and_self, if_true] <;> rfl))
theorem vsubI32 (rd : BitVec 7) (ra : BitVec 7) (rb : BitVec 7) (ta : BitVec 1) (tb : BitVec 1) : Statement (.vsubI32 rd ra rb ta tb) := oneWord rfl ((layout30 (by simp (disch := decide) only [bits_append_high, bits_append_low, bits_self, Nat.sub_self, Nat.reduceSub] <;> rfl)).trans
    (by simp (disch := decide) only [decode30, bits_append_low, bits_append_high, bits_self, Nat.sub_self, Nat.reduceSub, BitVec.toNat_ofNat, Nat.reducePow,
      Nat.reduceMod, and_self, if_true] <;> rfl))
theorem vand (rd : BitVec 7) (ra : BitVec 7) (rb : BitVec 7) (ta : BitVec 1) (tb : BitVec 1) : Statement (.vand rd ra rb ta tb) := oneWord rfl ((layout30 (by simp (disch := decide) only [bits_append_high, bits_append_low, bits_self, Nat.sub_self, Nat.reduceSub] <;> rfl)).trans
    (by simp (disch := decide) only [decode30, bits_append_low, bits_append_high, bits_self, Nat.sub_self, Nat.reduceSub, BitVec.toNat_ofNat, Nat.reducePow,
      Nat.reduceMod, and_self, if_true] <;> rfl))
theorem vor (rd : BitVec 7) (ra : BitVec 7) (rb : BitVec 7) (ta : BitVec 1) (tb : BitVec 1) : Statement (.vor rd ra rb ta tb) := oneWord rfl ((layout30 (by simp (disch := decide) only [bits_append_high, bits_append_low, bits_self, Nat.sub_self, Nat.reduceSub] <;> rfl)).trans
    (by simp (disch := decide) only [decode30, bits_append_low, bits_append_high, bits_self, Nat.sub_self, Nat.reduceSub, BitVec.toNat_ofNat, Nat.reducePow,
      Nat.reduceMod, and_self, if_true] <;> rfl))
theorem vxor (rd : BitVec 7) (ra : BitVec 7) (rb : BitVec 7) (ta : BitVec 1) (tb : BitVec 1) : Statement (.vxor rd ra rb ta tb) := oneWord rfl ((layout30 (by simp (disch := decide) only [bits_append_high, bits_append_low, bits_self, Nat.sub_self, Nat.reduceSub] <;> rfl)).trans
    (by simp (disch := decide) only [decode30, bits_append_low, bits_append_high, bits_self, Nat.sub_self, Nat.reduceSub, BitVec.toNat_ofNat, Nat.reducePow,
      Nat.reduceMod, and_self, if_true] <;> rfl))
theorem vshl (rd : BitVec 7) (ra : BitVec 7) (rb : BitVec 7) (ta : BitVec 1) (tb : BitVec 1) : Statement (.vshl rd ra rb ta tb) := oneWord rfl ((layout30 (by simp (disch := decide) only [bits_append_high, bits_append_low, bits_self, Nat.sub_self, Nat.reduceSub] <;> rfl)).trans
    (by simp (disch := decide) only [decode30, bits_append_low, bits_append_high, bits_self, Nat.sub_self, Nat.reduceSub, BitVec.toNat_ofNat, Nat.reducePow,
      Nat.reduceMod, and_self, if_true] <;> rfl))
theorem vshr (rd : BitVec 7) (ra : BitVec 7) (rb : BitVec 7) (ta : BitVec 1) (tb : BitVec 1) : Statement (.vshr rd ra rb ta tb) := oneWord rfl ((layout30 (by simp (disch := decide) only [bits_append_high, bits_append_low, bits_self, Nat.sub_self, Nat.reduceSub] <;> rfl)).trans
    (by simp (disch := decide) only [decode30, bits_append_low, bits_append_high, bits_self, Nat.sub_self, Nat.reduceSub, BitVec.toNat_ofNat, Nat.reducePow,
      Nat.reduceMod, and_self, if_true] <;> rfl))
theorem vsra (rd : BitVec 7) (ra : BitVec 7) (rb : BitVec 7) (ta : BitVec 1) (tb : BitVec 1) : Statement (.vsra rd ra rb ta tb) := oneWord rfl ((layout30 (by simp (disch := decide) only [bits_append_high, bits_append_low, bits_self, Nat.sub_self, Nat.reduceSub] <;> rfl)).trans
    (by simp (disch := decide) only [decode30, bits_append_low, bits_append_high, bits_self, Nat.sub_self, Nat.reduceSub, BitVec.toNat_ofNat, Nat.reducePow,
      Nat.reduceMod, and_self, if_true] <;> rfl))
theorem vaddF32 (rd : BitVec 7) (ra : BitVec 7) (rb : BitVec 7) (ta : BitVec 1) (tb : BitVec 1) : Statement (.vaddF32 rd ra rb ta tb) := oneWord rfl ((layout31 (by simp (disch := decide) only [bits_append_high, bits_append_low, bits_self, Nat.sub_self, Nat.reduceSub] <;> rfl)).trans
    (by simp (disch := decide) only [decode31, bits_append_low, bits_append_high, bits_self, Nat.sub_self, Nat.reduceSub, BitVec.toNat_ofNat, Nat.reducePow,
      Nat.reduceMod, and_self, if_true] <;> rfl))
theorem vsubF32 (rd : BitVec 7) (ra : BitVec 7) (rb : BitVec 7) (ta : BitVec 1) (tb : BitVec 1) : Statement (.vsubF32 rd ra rb ta tb) := oneWord rfl ((layout31 (by simp (disch := decide) only [bits_append_high, bits_append_low, bits_self, Nat.sub_self, Nat.reduceSub] <;> rfl)).trans
    (by simp (disch := decide) only [decode31, bits_append_low, bits_append_high, bits_self, Nat.sub_self, Nat.reduceSub, BitVec.toNat_ofNat, Nat.reducePow,
      Nat.reduceMod, and_self, if_true] <;> rfl))
theorem vmulF32 (rd : BitVec 7) (ra : BitVec 7) (rb : BitVec 7) (ta : BitVec 1) (tb : BitVec 1) : Statement (.vmulF32 rd ra rb ta tb) := oneWord rfl ((layout31 (by simp (disch := decide) only [bits_append_high, bits_append_low, bits_self, Nat.sub_self, Nat.reduceSub] <;> rfl)).trans
    (by simp (disch := decide) only [decode31, bits_append_low, bits_append_high, bits_self, Nat.sub_self, Nat.reduceSub, BitVec.toNat_ofNat, Nat.reducePow,
      Nat.reduceMod, and_self, if_true] <;> rfl))
theorem vminF32 (rd : BitVec 7) (ra : BitVec 7) (rb : BitVec 7) (ta : BitVec 1) (tb : BitVec 1) : Statement (.vminF32 rd ra rb ta tb) := oneWord rfl ((layout31 (by simp (disch := decide) only [bits_append_high, bits_append_low, bits_self, Nat.sub_self, Nat.reduceSub] <;> rfl)).trans
    (by simp (disch := decide) only [decode31, bits_append_low, bits_append_high, bits_self, Nat.sub_self, Nat.reduceSub, BitVec.toNat_ofNat, Nat.reducePow,
      Nat.reduceMod, and_self, if_true] <;> rfl))
theorem vmaxF32 (rd : BitVec 7) (ra : BitVec 7) (rb : BitVec 7) (ta : BitVec 1) (tb : BitVec 1) : Statement (.vmaxF32 rd ra rb ta tb) := oneWord rfl ((layout31 (by simp (disch := decide) only [bits_append_high, bits_append_low, bits_self, Nat.sub_self, Nat.reduceSub] <;> rfl)).trans
    (by simp (disch := decide) only [decode31, bits_append_low, bits_append_high, bits_self, Nat.sub_self, Nat.reduceSub, BitVec.toNat_ofNat, Nat.reducePow,
      Nat.reduceMod, and_self, if_true] <;> rfl))
theorem vmulI32 (rd : BitVec 7) (ra : BitVec 7) (rb : BitVec 7) (ta : BitVec 1) (tb : BitVec 1) : Statement (.vmulI32 rd ra rb ta tb) := oneWord rfl ((layout31 (by simp (disch := decide) only [bits_append_high, bits_append_low, bits_self, Nat.sub_self, Nat.reduceSub] <;> rfl)).trans
    (by simp (disch := decide) only [decode31, bits_append_low, bits_append_high, bits_self, Nat.sub_self, Nat.reduceSub, BitVec.toNat_ofNat, Nat.reducePow,
      Nat.reduceMod, and_self, if_true] <;> rfl))
theorem vminI32 (rd : BitVec 7) (ra : BitVec 7) (rb : BitVec 7) (ta : BitVec 1) (tb : BitVec 1) : Statement (.vminI32 rd ra rb ta tb) := oneWord rfl ((layout31 (by simp (disch := decide) only [bits_append_high, bits_append_low, bits_self, Nat.sub_self, Nat.reduceSub] <;> rfl)).trans
    (by simp (disch := decide) only [decode31, bits_append_low, bits_append_high, bits_self, Nat.sub_self, Nat.reduceSub, BitVec.toNat_ofNat, Nat.reducePow,
      Nat.reduceMod, and_self, if_true] <;> rfl))
theorem vmaxI32 (rd : BitVec 7) (ra : BitVec 7) (rb : BitVec 7) (ta : BitVec 1) (tb : BitVec 1) : Statement (.vmaxI32 rd ra rb ta tb) := oneWord rfl ((layout31 (by simp (disch := decide) only [bits_append_high, bits_append_low, bits_self, Nat.sub_self, Nat.reduceSub] <;> rfl)).trans
    (by simp (disch := decide) only [decode31, bits_append_low, bits_append_high, bits_self, Nat.sub_self, Nat.reduceSub, BitVec.toNat_ofNat, Nat.reducePow,
      Nat.reduceMod, and_self, if_true] <;> rfl))
theorem vfmaF32 (rd : BitVec 7) (ra : BitVec 7) (rb : BitVec 7) (rc : BitVec 5) : Statement (.vfmaF32 rd ra rb rc) := oneWord rfl ((layout32 (by simp (disch := decide) only [bits_append_high, bits_append_low, bits_self, Nat.sub_self, Nat.reduceSub] <;> rfl)).trans
    (by simp (disch := decide) only [decode32, bits_append_low, bits_append_high, bits_self, Nat.sub_self, Nat.reduceSub, BitVec.toNat_ofNat, Nat.reducePow,
      Nat.reduceMod, and_self, if_true] <;> rfl))
theorem vcmpEqI32 (rd : BitVec 7) (ra : BitVec 7) (rb : BitVec 7) (ta : BitVec 1) (tb : BitVec 1) : Statement (.vcmpEqI32 rd ra rb ta tb) := oneWord rfl ((layout33 (by simp (disch := decide) only [bits_append_high, bits_append_low, bits_self, Nat.sub_self, Nat.reduceSub] <;> rfl)).trans
    (by simp (disch := decide) only [decode33, bits_append_low, bits_append_high, bits_self, Nat.sub_self, Nat.reduceSub, BitVec.toNat_ofNat, Nat.reducePow,
      Nat.reduceMod, and_self, if_true] <;> rfl))
theorem vcmpLtI32 (rd : BitVec 7) (ra : BitVec 7) (rb : BitVec 7) (ta : BitVec 1) (tb : BitVec 1) : Statement (.vcmpLtI32 rd ra rb ta tb) := oneWord rfl ((layout33 (by simp (disch := decide) only [bits_append_high, bits_append_low, bits_self, Nat.sub_self, Nat.reduceSub] <;> rfl)).trans
    (by simp (disch := decide) only [decode33, bits_append_low, bits_append_high, bits_self, Nat.sub_self, Nat.reduceSub, BitVec.toNat_ofNat, Nat.reducePow,
      Nat.reduceMod, and_self, if_true] <;> rfl))
theorem vcmpLtuI32 (rd : BitVec 7) (ra : BitVec 7) (rb : BitVec 7) (ta : BitVec 1) (tb : BitVec 1) : Statement (.vcmpLtuI32 rd ra rb ta tb) := oneWord rfl ((layout33 (by simp (disch := decide) only [bits_append_high, bits_append_low, bits_self, Nat.sub_self, Nat.reduceSub] <;> rfl)).trans
    (by simp (disch := decide) only [decode33, bits_append_low, bits_append_high, bits_self, Nat.sub_self, Nat.reduceSub, BitVec.toNat_ofNat, Nat.reducePow,
      Nat.reduceMod, and_self, if_true] <;> rfl))
theorem vcmpEqF32 (rd : BitVec 7) (ra : BitVec 7) (rb : BitVec 7) (ta : BitVec 1) (tb : BitVec 1) : Statement (.vcmpEqF32 rd ra rb ta tb) := oneWord rfl ((layout33 (by simp (disch := decide) only [bits_append_high, bits_append_low, bits_self, Nat.sub_self, Nat.reduceSub] <;> rfl)).trans
    (by simp (disch := decide) only [decode33, bits_append_low, bits_append_high, bits_self, Nat.sub_self, Nat.reduceSub, BitVec.toNat_ofNat, Nat.reducePow,
      Nat.reduceMod, and_self, if_true] <;> rfl))
theorem vcmpLtF32 (rd : BitVec 7) (ra : BitVec 7) (rb : BitVec 7) (ta : BitVec 1) (tb : BitVec 1) : Statement (.vcmpLtF32 rd ra rb ta tb) := oneWord rfl ((layout33 (by simp (disch := decide) only [bits_append_high, bits_append_low, bits_self, Nat.sub_self, Nat.reduceSub] <;> rfl)).trans
    (by simp (disch := decide) only [decode33, bits_append_low, bits_append_high, bits_self, Nat.sub_self, Nat.reduceSub, BitVec.toNat_ofNat, Nat.reducePow,
      Nat.reduceMod, and_self, if_true] <;> rfl))
theorem vcmpLeF32 (rd : BitVec 7) (ra : BitVec 7) (rb : BitVec 7) (ta : BitVec 1) (tb : BitVec 1) : Statement (.vcmpLeF32 rd ra rb ta tb) := oneWord rfl ((layout33 (by simp (disch := decide) only [bits_append_high, bits_append_low, bits_self, Nat.sub_self, Nat.reduceSub] <;> rfl)).trans
    (by simp (disch := decide) only [decode33, bits_append_low, bits_append_high, bits_self, Nat.sub_self, Nat.reduceSub, BitVec.toNat_ofNat, Nat.reducePow,
      Nat.reduceMod, and_self, if_true] <;> rfl))
theorem vcmpUnF32 (rd : BitVec 7) (ra : BitVec 7) (rb : BitVec 7) (ta : BitVec 1) (tb : BitVec 1) : Statement (.vcmpUnF32 rd ra rb ta tb) := oneWord rfl ((layout33 (by simp (disch := decide) only [bits_append_high, bits_append_low, bits_self, Nat.sub_self, Nat.reduceSub] <;> rfl)).trans
    (by simp (disch := decide) only [decode33, bits_append_low, bits_append_high, bits_self, Nat.sub_self, Nat.reduceSub, BitVec.toNat_ofNat, Nat.reducePow,
      Nat.reduceMod, and_self, if_true] <;> rfl))
theorem vsel (rd : BitVec 7) (ra : BitVec 7) (rb : BitVec 7) (rc : BitVec 5) : Statement (.vsel rd ra rb rc) := oneWord rfl ((layout34 (by simp (disch := decide) only [bits_append_high, bits_append_low, bits_self, Nat.sub_self, Nat.reduceSub] <;> rfl)).trans
    (by simp (disch := decide) only [decode34, bits_append_low, bits_append_high, bits_self, Nat.sub_self, Nat.reduceSub, BitVec.toNat_ofNat, Nat.reducePow,
      Nat.reduceMod, and_self, if_true] <;> rfl))
theorem vredAddI32 (rd : BitVec 7) (ra : BitVec 7) (ta : BitVec 1) : Statement (.vredAddI32 rd ra ta) := oneWord rfl ((layout35 (by simp (disch := decide) only [bits_append_high, bits_append_low, bits_self, Nat.sub_self, Nat.reduceSub] <;> rfl)).trans
    (by simp (disch := decide) only [decode35, bits_append_low, bits_append_high, bits_self, Nat.sub_self, Nat.reduceSub, BitVec.toNat_ofNat, Nat.reducePow,
      Nat.reduceMod, and_self, if_true] <;> rfl))
theorem vredAddF32 (rd : BitVec 7) (ra : BitVec 7) (ta : BitVec 1) : Statement (.vredAddF32 rd ra ta) := oneWord rfl ((layout35 (by simp (disch := decide) only [bits_append_high, bits_append_low, bits_self, Nat.sub_self, Nat.reduceSub] <;> rfl)).trans
    (by simp (disch := decide) only [decode35, bits_append_low, bits_append_high, bits_self, Nat.sub_self, Nat.reduceSub, BitVec.toNat_ofNat, Nat.reducePow,
      Nat.reduceMod, and_self, if_true] <;> rfl))
theorem vredMaxF32 (rd : BitVec 7) (ra : BitVec 7) (ta : BitVec 1) : Statement (.vredMaxF32 rd ra ta) := oneWord rfl ((layout35 (by simp (disch := decide) only [bits_append_high, bits_append_low, bits_self, Nat.sub_self, Nat.reduceSub] <;> rfl)).trans
    (by simp (disch := decide) only [decode35, bits_append_low, bits_append_high, bits_self, Nat.sub_self, Nat.reduceSub, BitVec.toNat_ofNat, Nat.reducePow,
      Nat.reduceMod, and_self, if_true] <;> rfl))
theorem vredMinF32 (rd : BitVec 7) (ra : BitVec 7) (ta : BitVec 1) : Statement (.vredMinF32 rd ra ta) := oneWord rfl ((layout35 (by simp (disch := decide) only [bits_append_high, bits_append_low, bits_self, Nat.sub_self, Nat.reduceSub] <;> rfl)).trans
    (by simp (disch := decide) only [decode35, bits_append_low, bits_append_high, bits_self, Nat.sub_self, Nat.reduceSub, BitVec.toNat_ofNat, Nat.reducePow,
      Nat.reduceMod, and_self, if_true] <;> rfl))
theorem vredMaxI32 (rd : BitVec 7) (ra : BitVec 7) (ta : BitVec 1) : Statement (.vredMaxI32 rd ra ta) := oneWord rfl ((layout35 (by simp (disch := decide) only [bits_append_high, bits_append_low, bits_self, Nat.sub_self, Nat.reduceSub] <;> rfl)).trans
    (by simp (disch := decide) only [decode35, bits_append_low, bits_append_high, bits_self, Nat.sub_self, Nat.reduceSub, BitVec.toNat_ofNat, Nat.reducePow,
      Nat.reduceMod, and_self, if_true] <;> rfl))
theorem vredMinI32 (rd : BitVec 7) (ra : BitVec 7) (ta : BitVec 1) : Statement (.vredMinI32 rd ra ta) := oneWord rfl ((layout35 (by simp (disch := decide) only [bits_append_high, bits_append_low, bits_self, Nat.sub_self, Nat.reduceSub] <;> rfl)).trans
    (by simp (disch := decide) only [decode35, bits_append_low, bits_append_high, bits_self, Nat.sub_self, Nat.reduceSub, BitVec.toNat_ofNat, Nat.reducePow,
      Nat.reduceMod, and_self, if_true] <;> rfl))
theorem vredOr (rd : BitVec 7) (ra : BitVec 7) (ta : BitVec 1) : Statement (.vredOr rd ra ta) := oneWord rfl ((layout35 (by simp (disch := decide) only [bits_append_high, bits_append_low, bits_self, Nat.sub_self, Nat.reduceSub] <;> rfl)).trans
    (by simp (disch := decide) only [decode35, bits_append_low, bits_append_high, bits_self, Nat.sub_self, Nat.reduceSub, BitVec.toNat_ofNat, Nat.reducePow,
      Nat.reduceMod, and_self, if_true] <;> rfl))
theorem vredAnd (rd : BitVec 7) (ra : BitVec 7) (ta : BitVec 1) : Statement (.vredAnd rd ra ta) := oneWord rfl ((layout35 (by simp (disch := decide) only [bits_append_high, bits_append_low, bits_self, Nat.sub_self, Nat.reduceSub] <;> rfl)).trans
    (by simp (disch := decide) only [decode35, bits_append_low, bits_append_high, bits_self, Nat.sub_self, Nat.reduceSub, BitVec.toNat_ofNat, Nat.reducePow,
      Nat.reduceMod, and_self, if_true] <;> rfl))
theorem vperm (rd : BitVec 7) (ra : BitVec 7) (rb : BitVec 7) (ta : BitVec 1) (tb : BitVec 1) : Statement (.vperm rd ra rb ta tb) := oneWord rfl ((layout36 (by simp (disch := decide) only [bits_append_high, bits_append_low, bits_self, Nat.sub_self, Nat.reduceSub] <;> rfl)).trans
    (by simp (disch := decide) only [decode36, bits_append_low, bits_append_high, bits_self, Nat.sub_self, Nat.reduceSub, BitVec.toNat_ofNat, Nat.reducePow,
      Nat.reduceMod, and_self, if_true] <;> rfl))
theorem vbcast (rd : BitVec 7) (ra : BitVec 7) (ta : BitVec 1) : Statement (.vbcast rd ra ta) := oneWord rfl ((layout36 (by simp (disch := decide) only [bits_append_high, bits_append_low, bits_self, Nat.sub_self, Nat.reduceSub] <;> rfl)).trans
    (by simp (disch := decide) only [decode36, bits_append_low, bits_append_high, bits_self, Nat.sub_self, Nat.reduceSub, BitVec.toNat_ofNat, Nat.reducePow,
      Nat.reduceMod, and_self, if_true] <;> rfl))
theorem vins (rd : BitVec 7) (ra : BitVec 7) (rb : BitVec 7) (ta : BitVec 1) (tb : BitVec 1) : Statement (.vins rd ra rb ta tb) := oneWord rfl ((layout36 (by simp (disch := decide) only [bits_append_high, bits_append_low, bits_self, Nat.sub_self, Nat.reduceSub] <;> rfl)).trans
    (by simp (disch := decide) only [decode36, bits_append_low, bits_append_high, bits_self, Nat.sub_self, Nat.reduceSub, BitVec.toNat_ofNat, Nat.reducePow,
      Nat.reduceMod, and_self, if_true] <;> rfl))
theorem vext (rd : BitVec 7) (ra : BitVec 7) (rb : BitVec 7) (ta : BitVec 1) (tb : BitVec 1) : Statement (.vext rd ra rb ta tb) := oneWord rfl ((layout36 (by simp (disch := decide) only [bits_append_high, bits_append_low, bits_self, Nat.sub_self, Nat.reduceSub] <;> rfl)).trans
    (by simp (disch := decide) only [decode36, bits_append_low, bits_append_high, bits_self, Nat.sub_self, Nat.reduceSub, BitVec.toNat_ofNat, Nat.reducePow,
      Nat.reduceMod, and_self, if_true] <;> rfl))
theorem vrcpF32 (rd : BitVec 7) (ra : BitVec 7) (ta : BitVec 1) : Statement (.vrcpF32 rd ra ta) := oneWord rfl ((layout37 (by simp (disch := decide) only [bits_append_high, bits_append_low, bits_self, Nat.sub_self, Nat.reduceSub] <;> rfl)).trans
    (by simp (disch := decide) only [decode37, bits_append_low, bits_append_high, bits_self, Nat.sub_self, Nat.reduceSub, BitVec.toNat_ofNat, Nat.reducePow,
      Nat.reduceMod, and_self, if_true] <;> rfl))
theorem vrsqF32 (rd : BitVec 7) (ra : BitVec 7) (ta : BitVec 1) : Statement (.vrsqF32 rd ra ta) := oneWord rfl ((layout37 (by simp (disch := decide) only [bits_append_high, bits_append_low, bits_self, Nat.sub_self, Nat.reduceSub] <;> rfl)).trans
    (by simp (disch := decide) only [decode37, bits_append_low, bits_append_high, bits_self, Nat.sub_self, Nat.reduceSub, BitVec.toNat_ofNat, Nat.reducePow,
      Nat.reduceMod, and_self, if_true] <;> rfl))
theorem vexp2F32 (rd : BitVec 7) (ra : BitVec 7) (ta : BitVec 1) : Statement (.vexp2F32 rd ra ta) := oneWord rfl ((layout37 (by simp (disch := decide) only [bits_append_high, bits_append_low, bits_self, Nat.sub_self, Nat.reduceSub] <;> rfl)).trans
    (by simp (disch := decide) only [decode37, bits_append_low, bits_append_high, bits_self, Nat.sub_self, Nat.reduceSub, BitVec.toNat_ofNat, Nat.reducePow,
      Nat.reduceMod, and_self, if_true] <;> rfl))
theorem vlog2F32 (rd : BitVec 7) (ra : BitVec 7) (ta : BitVec 1) : Statement (.vlog2F32 rd ra ta) := oneWord rfl ((layout37 (by simp (disch := decide) only [bits_append_high, bits_append_low, bits_self, Nat.sub_self, Nat.reduceSub] <;> rfl)).trans
    (by simp (disch := decide) only [decode37, bits_append_low, bits_append_high, bits_self, Nat.sub_self, Nat.reduceSub, BitVec.toNat_ofNat, Nat.reducePow,
      Nat.reduceMod, and_self, if_true] <;> rfl))
theorem vpackBf16 (rd : BitVec 7) (ra : BitVec 7) (rb : BitVec 7) (ta : BitVec 1) (tb : BitVec 1) : Statement (.vpackBf16 rd ra rb ta tb) := oneWord rfl ((layout37 (by simp (disch := decide) only [bits_append_high, bits_append_low, bits_self, Nat.sub_self, Nat.reduceSub] <;> rfl)).trans
    (by simp (disch := decide) only [decode37, bits_append_low, bits_append_high, bits_self, Nat.sub_self, Nat.reduceSub, BitVec.toNat_ofNat, Nat.reducePow,
      Nat.reduceMod, and_self, if_true] <;> rfl))
theorem vunpackBf16 (rd : BitVec 7) (ra : BitVec 7) (rb : BitVec 7) (ta : BitVec 1) (tb : BitVec 1) : Statement (.vunpackBf16 rd ra rb ta tb) := oneWord rfl ((layout37 (by simp (disch := decide) only [bits_append_high, bits_append_low, bits_self, Nat.sub_self, Nat.reduceSub] <;> rfl)).trans
    (by simp (disch := decide) only [decode37, bits_append_low, bits_append_high, bits_self, Nat.sub_self, Nat.reduceSub, BitVec.toNat_ofNat, Nat.reducePow,
      Nat.reduceMod, and_self, if_true] <;> rfl))
theorem vzmask (rd : BitVec 7) (ra : BitVec 7) (ta : BitVec 1) : Statement (.vzmask rd ra ta) := oneWord rfl ((layout37 (by simp (disch := decide) only [bits_append_high, bits_append_low, bits_self, Nat.sub_self, Nat.reduceSub] <;> rfl)).trans
    (by simp (disch := decide) only [decode37, bits_append_low, bits_append_high, bits_self, Nat.sub_self, Nat.reduceSub, BitVec.toNat_ofNat, Nat.reducePow,
      Nat.reduceMod, and_self, if_true] <;> rfl))
theorem qpush (q : BitVec 5) (rd : BitVec 7) (wc : BitVec 7) (ws : BitVec 5) (tb : BitVec 1) : Statement (.qpush q rd wc ws tb) := oneWord rfl ((layout38 (by simp (disch := decide) only [bits_append_high, bits_append_low, bits_self, Nat.sub_self, Nat.reduceSub] <;> rfl)).trans
    (by simp (disch := decide) only [decode38, bits_append_low, bits_append_high, bits_self, Nat.sub_self, Nat.reduceSub, BitVec.toNat_ofNat, Nat.reducePow,
      Nat.reduceMod, and_self, if_true] <;> rfl))
theorem qpop (q : BitVec 5) (rd : BitVec 7) : Statement (.qpop q rd) := oneWord rfl ((layout39 (by simp (disch := decide) only [bits_append_high, bits_append_low, bits_self, Nat.sub_self, Nat.reduceSub] <;> rfl)).trans
    (by simp (disch := decide) only [decode39, bits_append_low, bits_append_high, bits_self, Nat.sub_self, Nat.reduceSub, BitVec.toNat_ofNat, Nat.reducePow,
      Nat.reduceMod, and_self, if_true] <;> rfl))
theorem qpopStatus (q : BitVec 5) (rd : BitVec 7) (ws : BitVec 7) : Statement (.qpopStatus q rd ws) := oneWord rfl ((layout39 (by simp (disch := decide) only [bits_append_high, bits_append_low, bits_self, Nat.sub_self, Nat.reduceSub] <;> rfl)).trans
    (by simp (disch := decide) only [decode39, bits_append_low, bits_append_high, bits_self, Nat.sub_self, Nat.reduceSub, BitVec.toNat_ofNat, Nat.reducePow,
      Nat.reduceMod, and_self, if_true] <;> rfl))
theorem qpopTrap (q : BitVec 5) (rd : BitVec 7) : Statement (.qpopTrap q rd) := oneWord rfl ((layout39 (by simp (disch := decide) only [bits_append_high, bits_append_low, bits_self, Nat.sub_self, Nat.reduceSub] <;> rfl)).trans
    (by simp (disch := decide) only [decode39, bits_append_low, bits_append_high, bits_self, Nat.sub_self, Nat.reduceSub, BitVec.toNat_ofNat, Nat.reducePow,
      Nat.reduceMod, and_self, if_true] <;> rfl))
theorem qpopTrapStatus (q : BitVec 5) (rd : BitVec 7) (ws : BitVec 7) : Statement (.qpopTrapStatus q rd ws) := oneWord rfl ((layout39 (by simp (disch := decide) only [bits_append_high, bits_append_low, bits_self, Nat.sub_self, Nat.reduceSub] <;> rfl)).trans
    (by simp (disch := decide) only [decode39, bits_append_low, bits_append_high, bits_self, Nat.sub_self, Nat.reduceSub, BitVec.toNat_ofNat, Nat.reducePow,
      Nat.reduceMod, and_self, if_true] <;> rfl))
theorem qtest (q : BitVec 5) (rd : BitVec 7) : Statement (.qtest q rd) := oneWord rfl ((layout3A (by simp (disch := decide) only [bits_append_high, bits_append_low, bits_self, Nat.sub_self, Nat.reduceSub] <;> rfl)).trans
    (by simp (disch := decide) only [decode3A, bits_append_low, bits_append_high, bits_self, Nat.sub_self, Nat.reduceSub, BitVec.toNat_ofNat, Nat.reducePow,
      Nat.reduceMod, and_self, if_true] <;> rfl))
theorem evtTerm (n : BitVec 5) (ra : BitVec 7) (ta : BitVec 1) : Statement (.evtTerm n ra ta) := oneWord rfl ((layout3C (by simp (disch := decide) only [bits_append_high, bits_append_low, bits_self, Nat.sub_self, Nat.reduceSub] <;> rfl)).trans
    (by simp (disch := decide) only [decode3C, bits_append_low, bits_append_high, bits_self, Nat.sub_self, Nat.reduceSub, BitVec.toNat_ofNat, Nat.reducePow,
      Nat.reduceMod, and_self, if_true] <;> rfl))
theorem evtCnt (n : BitVec 5) (ra : BitVec 7) (rb : BitVec 7) (ta : BitVec 1) (tb : BitVec 1) : Statement (.evtCnt n ra rb ta tb) := oneWord rfl ((layout3C (by simp (disch := decide) only [bits_append_high, bits_append_low, bits_self, Nat.sub_self, Nat.reduceSub] <;> rfl)).trans
    (by simp (disch := decide) only [decode3C, bits_append_low, bits_append_high, bits_self, Nat.sub_self, Nat.reduceSub, BitVec.toNat_ofNat, Nat.reducePow,
      Nat.reduceMod, and_self, if_true] <;> rfl))
theorem evtArm (n : BitVec 5) (ra : BitVec 7) (ta : BitVec 1) : Statement (.evtArm n ra ta) := oneWord rfl ((layout3C (by simp (disch := decide) only [bits_append_high, bits_append_low, bits_self, Nat.sub_self, Nat.reduceSub] <;> rfl)).trans
    (by simp (disch := decide) only [decode3C, bits_append_low, bits_append_high, bits_self, Nat.sub_self, Nat.reduceSub, BitVec.toNat_ofNat, Nat.reducePow,
      Nat.reduceMod, and_self, if_true] <;> rfl))
theorem evtRead (n : BitVec 5) (rd : BitVec 7) : Statement (.evtRead n rd) := oneWord rfl ((layout3C (by simp (disch := decide) only [bits_append_high, bits_append_low, bits_self, Nat.sub_self, Nat.reduceSub] <;> rfl)).trans
    (by simp (disch := decide) only [decode3C, bits_append_low, bits_append_high, bits_self, Nat.sub_self, Nat.reduceSub, BitVec.toNat_ofNat, Nat.reducePow,
      Nat.reduceMod, and_self, if_true] <;> rfl))
theorem evtWait (n : BitVec 5) : Statement (.evtWait n) := oneWord rfl ((layout3C (by simp (disch := decide) only [bits_append_high, bits_append_low, bits_self, Nat.sub_self, Nat.reduceSub] <;> rfl)).trans
    (by simp (disch := decide) only [decode3C, bits_append_low, bits_append_high, bits_self, Nat.sub_self, Nat.reduceSub, BitVec.toNat_ofNat, Nat.reducePow,
      Nat.reduceMod, and_self, if_true] <;> rfl))
theorem sysGet (rd : BitVec 7) (aux : BitVec 6) : Statement (.sysGet rd aux) := oneWord rfl ((layout3D (by simp (disch := decide) only [bits_append_high, bits_append_low, bits_self, Nat.sub_self, Nat.reduceSub] <;> rfl)).trans
    (by simp (disch := decide) only [decode3D, bits_append_low, bits_append_high, bits_self, Nat.sub_self, Nat.reduceSub, BitVec.toNat_ofNat, Nat.reducePow,
      Nat.reduceMod, and_self, if_true] <;> rfl))
theorem sysSet (ra : BitVec 7) (aux : BitVec 6) : Statement (.sysSet ra aux) := oneWord rfl ((layout3D (by simp (disch := decide) only [bits_append_high, bits_append_low, bits_self, Nat.sub_self, Nat.reduceSub] <;> rfl)).trans
    (by simp (disch := decide) only [decode3D, bits_append_low, bits_append_high, bits_self, Nat.sub_self, Nat.reduceSub, BitVec.toNat_ofNat, Nat.reducePow,
      Nat.reduceMod, and_self, if_true] <;> rfl))
theorem time (rd : BitVec 7) : Statement (.time rd) := oneWord rfl ((layout3D (by simp (disch := decide) only [bits_append_high, bits_append_low, bits_self, Nat.sub_self, Nat.reduceSub] <;> rfl)).trans
    (by simp (disch := decide) only [decode3D, bits_append_low, bits_append_high, bits_self, Nat.sub_self, Nat.reduceSub, BitVec.toNat_ofNat, Nat.reducePow,
      Nat.reduceMod, and_self, if_true] <;> rfl))
theorem trap (ra : BitVec 7) (aux : BitVec 6) : Statement (.trap ra aux) := oneWord rfl ((layout3D (by simp (disch := decide) only [bits_append_high, bits_append_low, bits_self, Nat.sub_self, Nat.reduceSub] <;> rfl)).trans
    (by simp (disch := decide) only [decode3D, bits_append_low, bits_append_high, bits_self, Nat.sub_self, Nat.reduceSub, BitVec.toNat_ofNat, Nat.reducePow,
      Nat.reduceMod, and_self, if_true] <;> rfl))
theorem thrStart (rd : BitVec 7) (ra : BitVec 7) : Statement (.thrStart rd ra) := oneWord rfl ((layout3D (by simp (disch := decide) only [bits_append_high, bits_append_low, bits_self, Nat.sub_self, Nat.reduceSub] <;> rfl)).trans
    (by simp (disch := decide) only [decode3D, bits_append_low, bits_append_high, bits_self, Nat.sub_self, Nat.reduceSub, BitVec.toNat_ofNat, Nat.reducePow,
      Nat.reduceMod, and_self, if_true] <;> rfl))
theorem thrStop (rd : BitVec 7) (ra : BitVec 7) : Statement (.thrStop rd ra) := oneWord rfl ((layout3D (by simp (disch := decide) only [bits_append_high, bits_append_low, bits_self, Nat.sub_self, Nat.reduceSub] <;> rfl)).trans
    (by simp (disch := decide) only [decode3D, bits_append_low, bits_append_high, bits_self, Nat.sub_self, Nat.reduceSub, BitVec.toNat_ofNat, Nat.reducePow,
      Nat.reduceMod, and_self, if_true] <;> rfl))
theorem thrResume (rd : BitVec 7) (ra : BitVec 7) : Statement (.thrResume rd ra) := oneWord rfl ((layout3D (by simp (disch := decide) only [bits_append_high, bits_append_low, bits_self, Nat.sub_self, Nat.reduceSub] <;> rfl)).trans
    (by simp (disch := decide) only [decode3D, bits_append_low, bits_append_high, bits_self, Nat.sub_self, Nat.reduceSub, BitVec.toNat_ofNat, Nat.reducePow,
      Nat.reduceMod, and_self, if_true] <;> rfl))
theorem thrResumeNext (rd : BitVec 7) (ra : BitVec 7) : Statement (.thrResumeNext rd ra) := oneWord rfl ((layout3D (by simp (disch := decide) only [bits_append_high, bits_append_low, bits_self, Nat.sub_self, Nat.reduceSub] <;> rfl)).trans
    (by simp (disch := decide) only [decode3D, bits_append_low, bits_append_high, bits_self, Nat.sub_self, Nat.reduceSub, BitVec.toNat_ofNat, Nat.reducePow,
      Nat.reduceMod, and_self, if_true] <;> rfl))
theorem thrSwap (rd : BitVec 7) (ra : BitVec 7) : Statement (.thrSwap rd ra) := oneWord rfl ((layout3D (by simp (disch := decide) only [bits_append_high, bits_append_low, bits_self, Nat.sub_self, Nat.reduceSub] <;> rfl)).trans
    (by simp (disch := decide) only [decode3D, bits_append_low, bits_append_high, bits_self, Nat.sub_self, Nat.reduceSub, BitVec.toNat_ofNat, Nat.reducePow,
      Nat.reduceMod, and_self, if_true] <;> rfl))
theorem thrSwapIn (rd : BitVec 7) (ra : BitVec 7) : Statement (.thrSwapIn rd ra) := oneWord rfl ((layout3D (by simp (disch := decide) only [bits_append_high, bits_append_low, bits_self, Nat.sub_self, Nat.reduceSub] <;> rfl)).trans
    (by simp (disch := decide) only [decode3D, bits_append_low, bits_append_high, bits_self, Nat.sub_self, Nat.reduceSub, BitVec.toNat_ofNat, Nat.reducePow,
      Nat.reduceMod, and_self, if_true] <;> rfl))
theorem nwrite (rd : BitVec 7) (ra : BitVec 7) : Statement (.nwrite rd ra) := oneWord rfl ((layout3D (by simp (disch := decide) only [bits_append_high, bits_append_low, bits_self, Nat.sub_self, Nat.reduceSub] <;> rfl)).trans
    (by simp (disch := decide) only [decode3D, bits_append_low, bits_append_high, bits_self, Nat.sub_self, Nat.reduceSub, BitVec.toNat_ofNat, Nat.reducePow,
      Nat.reduceMod, and_self, if_true] <;> rfl))
theorem arriveClu (rd : BitVec 7) (ra : BitVec 7) : Statement (.arriveClu rd ra) := oneWord rfl ((layout3D (by simp (disch := decide) only [bits_append_high, bits_append_low, bits_self, Nat.sub_self, Nat.reduceSub] <;> rfl)).trans
    (by simp (disch := decide) only [decode3D, bits_append_low, bits_append_high, bits_self, Nat.sub_self, Nat.reduceSub, BitVec.toNat_ofNat, Nat.reducePow,
      Nat.reduceMod, and_self, if_true] <;> rfl))
theorem arriveDeck (rd : BitVec 7) (ra : BitVec 7) : Statement (.arriveDeck rd ra) := oneWord rfl ((layout3D (by simp (disch := decide) only [bits_append_high, bits_append_low, bits_self, Nat.sub_self, Nat.reduceSub] <;> rfl)).trans
    (by simp (disch := decide) only [decode3D, bits_append_low, bits_append_high, bits_self, Nat.sub_self, Nat.reduceSub, BitVec.toNat_ofNat, Nat.reducePow,
      Nat.reduceMod, and_self, if_true] <;> rfl))
theorem arriveDev (rd : BitVec 7) (ra : BitVec 7) : Statement (.arriveDev rd ra) := oneWord rfl ((layout3D (by simp (disch := decide) only [bits_append_high, bits_append_low, bits_self, Nat.sub_self, Nat.reduceSub] <;> rfl)).trans
    (by simp (disch := decide) only [decode3D, bits_append_low, bits_append_high, bits_self, Nat.sub_self, Nat.reduceSub, BitVec.toNat_ofNat, Nat.reducePow,
      Nat.reduceMod, and_self, if_true] <;> rfl))
theorem wait (ra : BitVec 7) : Statement (.wait ra) := oneWord rfl ((layout3D (by simp (disch := decide) only [bits_append_high, bits_append_low, bits_self, Nat.sub_self, Nat.reduceSub] <;> rfl)).trans
    (by simp (disch := decide) only [decode3D, bits_append_low, bits_append_high, bits_self, Nat.sub_self, Nat.reduceSub, BitVec.toNat_ofNat, Nat.reducePow,
      Nat.reduceMod, and_self, if_true] <;> rfl))
theorem wake (rd : BitVec 7) (ra : BitVec 7) : Statement (.wake rd ra) := oneWord rfl ((layout3D (by simp (disch := decide) only [bits_append_high, bits_append_low, bits_self, Nat.sub_self, Nat.reduceSub] <;> rfl)).trans
    (by simp (disch := decide) only [decode3D, bits_append_low, bits_append_high, bits_self, Nat.sub_self, Nat.reduceSub, BitVec.toNat_ofNat, Nat.reducePow,
      Nat.reduceMod, and_self, if_true] <;> rfl))
theorem nwaitNbr (rd : BitVec 7) : Statement (.nwaitNbr rd) := oneWord rfl ((layout3D (by simp (disch := decide) only [bits_append_high, bits_append_low, bits_self, Nat.sub_self, Nat.reduceSub] <;> rfl)).trans
    (by simp (disch := decide) only [decode3D, bits_append_low, bits_append_high, bits_self, Nat.sub_self, Nat.reduceSub, BitVec.toNat_ofNat, Nat.reducePow,
      Nat.reduceMod, and_self, if_true] <;> rfl))
theorem nwaitNtf (rd : BitVec 7) : Statement (.nwaitNtf rd) := oneWord rfl ((layout3D (by simp (disch := decide) only [bits_append_high, bits_append_low, bits_self, Nat.sub_self, Nat.reduceSub] <;> rfl)).trans
    (by simp (disch := decide) only [decode3D, bits_append_low, bits_append_high, bits_self, Nat.sub_self, Nat.reduceSub, BitVec.toNat_ofNat, Nat.reducePow,
      Nat.reduceMod, and_self, if_true] <;> rfl))
theorem sample (ra : BitVec 7) : Statement (.sample ra) := oneWord rfl ((layout3D (by simp (disch := decide) only [bits_append_high, bits_append_low, bits_self, Nat.sub_self, Nat.reduceSub] <;> rfl)).trans
    (by simp (disch := decide) only [decode3D, bits_append_low, bits_append_high, bits_self, Nat.sub_self, Nat.reduceSub, BitVec.toNat_ofNat, Nat.reducePow,
      Nat.reduceMod, and_self, if_true] <;> rfl))
theorem launch (rd : BitVec 7) (ra : BitVec 7) : Statement (.launch rd ra) := oneWord rfl ((layout3D (by simp (disch := decide) only [bits_append_high, bits_append_low, bits_self, Nat.sub_self, Nat.reduceSub] <;> rfl)).trans
    (by simp (disch := decide) only [decode3D, bits_append_low, bits_append_high, bits_self, Nat.sub_self, Nat.reduceSub, BitVec.toNat_ofNat, Nat.reducePow,
      Nat.reduceMod, and_self, if_true] <;> rfl))
theorem launchWait (rd : BitVec 7) (ra : BitVec 7) : Statement (.launchWait rd ra) := oneWord rfl ((layout3D (by simp (disch := decide) only [bits_append_high, bits_append_low, bits_self, Nat.sub_self, Nat.reduceSub] <;> rfl)).trans
    (by simp (disch := decide) only [decode3D, bits_append_low, bits_append_high, bits_self, Nat.sub_self, Nat.reduceSub, BitVec.toNat_ofNat, Nat.reducePow,
      Nat.reduceMod, and_self, if_true] <;> rfl))
theorem launchQuery (rd : BitVec 7) (ra : BitVec 7) : Statement (.launchQuery rd ra) := oneWord rfl ((layout3D (by simp (disch := decide) only [bits_append_high, bits_append_low, bits_self, Nat.sub_self, Nat.reduceSub] <;> rfl)).trans
    (by simp (disch := decide) only [decode3D, bits_append_low, bits_append_high, bits_self, Nat.sub_self, Nat.reduceSub, BitVec.toNat_ofNat, Nat.reducePow,
      Nat.reduceMod, and_self, if_true] <;> rfl))
theorem launchAge (rd : BitVec 7) (ra : BitVec 7) : Statement (.launchAge rd ra) := oneWord rfl ((layout3D (by simp (disch := decide) only [bits_append_high, bits_append_low, bits_self, Nat.sub_self, Nat.reduceSub] <;> rfl)).trans
    (by simp (disch := decide) only [decode3D, bits_append_low, bits_append_high, bits_self, Nat.sub_self, Nat.reduceSub, BitVec.toNat_ofNat, Nat.reducePow,
      Nat.reduceMod, and_self, if_true] <;> rfl))
theorem cancelLaunch (rd : BitVec 7) (ra : BitVec 7) : Statement (.cancelLaunch rd ra) := oneWord rfl ((layout3D (by simp (disch := decide) only [bits_append_high, bits_append_low, bits_self, Nat.sub_self, Nat.reduceSub] <;> rfl)).trans
    (by simp (disch := decide) only [decode3D, bits_append_low, bits_append_high, bits_self, Nat.sub_self, Nat.reduceSub, BitVec.toNat_ofNat, Nat.reducePow,
      Nat.reduceMod, and_self, if_true] <;> rfl))
theorem cancelGraph (rd : BitVec 7) (ra : BitVec 7) : Statement (.cancelGraph rd ra) := oneWord rfl ((layout3D (by simp (disch := decide) only [bits_append_high, bits_append_low, bits_self, Nat.sub_self, Nat.reduceSub] <;> rfl)).trans
    (by simp (disch := decide) only [decode3D, bits_append_low, bits_append_high, bits_self, Nat.sub_self, Nat.reduceSub, BitVec.toNat_ofNat, Nat.reducePow,
      Nat.reduceMod, and_self, if_true] <;> rfl))
theorem cancelPhase (rd : BitVec 7) (ra : BitVec 7) : Statement (.cancelPhase rd ra) := oneWord rfl ((layout3D (by simp (disch := decide) only [bits_append_high, bits_append_low, bits_self, Nat.sub_self, Nat.reduceSub] <;> rfl)).trans
    (by simp (disch := decide) only [decode3D, bits_append_low, bits_append_high, bits_self, Nat.sub_self, Nat.reduceSub, BitVec.toNat_ofNat, Nat.reducePow,
      Nat.reduceMod, and_self, if_true] <;> rfl))
theorem cancelJob (rd : BitVec 7) (ra : BitVec 7) : Statement (.cancelJob rd ra) := oneWord rfl ((layout3D (by simp (disch := decide) only [bits_append_high, bits_append_low, bits_self, Nat.sub_self, Nat.reduceSub] <;> rfl)).trans
    (by simp (disch := decide) only [decode3D, bits_append_low, bits_append_high, bits_self, Nat.sub_self, Nat.reduceSub, BitVec.toNat_ofNat, Nat.reducePow,
      Nat.reduceMod, and_self, if_true] <;> rfl))
theorem cancelGraphRewind (rd : BitVec 7) (ra : BitVec 7) : Statement (.cancelGraphRewind rd ra) := oneWord rfl ((layout3D (by simp (disch := decide) only [bits_append_high, bits_append_low, bits_self, Nat.sub_self, Nat.reduceSub] <;> rfl)).trans
    (by simp (disch := decide) only [decode3D, bits_append_low, bits_append_high, bits_self, Nat.sub_self, Nat.reduceSub, BitVec.toNat_ofNat, Nat.reducePow,
      Nat.reduceMod, and_self, if_true] <;> rfl))
theorem round (rd : BitVec 7) (ra : BitVec 7) (n : BitVec 6) : Statement (.round rd ra n) := oneWord rfl ((layout3D (by simp (disch := decide) only [bits_append_high, bits_append_low, bits_self, Nat.sub_self, Nat.reduceSub] <;> rfl)).trans
    (by simp (disch := decide) only [decode3D, bits_append_low, bits_append_high, bits_self, Nat.sub_self, Nat.reduceSub, BitVec.toNat_ofNat, Nat.reducePow,
      Nat.reduceMod, and_self, if_true] <;> rfl))
theorem park (rd : BitVec 7) (ra : BitVec 7) : Statement (.park rd ra) := oneWord rfl ((layout3D (by simp (disch := decide) only [bits_append_high, bits_append_low, bits_self, Nat.sub_self, Nat.reduceSub] <;> rfl)).trans
    (by simp (disch := decide) only [decode3D, bits_append_low, bits_append_high, bits_self, Nat.sub_self, Nat.reduceSub, BitVec.toNat_ofNat, Nat.reducePow,
      Nat.reduceMod, and_self, if_true] <;> rfl))
theorem memMap (rd : BitVec 7) (ra : BitVec 7) (attr : BitVec 2) (p : BitVec 2) : Statement (.memMap rd ra attr p) := oneWord rfl ((layout3D (by simp (disch := decide) only [bits_append_high, bits_append_low, bits_self, Nat.sub_self, Nat.reduceSub] <;> rfl)).trans
    (by simp (disch := decide) only [decode3D, bits_append_low, bits_append_high, bits_self, Nat.sub_self, Nat.reduceSub, BitVec.toNat_ofNat, Nat.reducePow,
      Nat.reduceMod, and_self, if_true] <;> rfl))
theorem memMapAlias (rd : BitVec 7) (ra : BitVec 7) (attr : BitVec 2) (p : BitVec 2) : Statement (.memMapAlias rd ra attr p) := oneWord rfl ((layout3D (by simp (disch := decide) only [bits_append_high, bits_append_low, bits_self, Nat.sub_self, Nat.reduceSub] <;> rfl)).trans
    (by simp (disch := decide) only [decode3D, bits_append_low, bits_append_high, bits_self, Nat.sub_self, Nat.reduceSub, BitVec.toNat_ofNat, Nat.reducePow,
      Nat.reduceMod, and_self, if_true] <;> rfl))
theorem memMapRemote (rd : BitVec 7) (ra : BitVec 7) (attr : BitVec 2) (p : BitVec 2) : Statement (.memMapRemote rd ra attr p) := oneWord rfl ((layout3D (by simp (disch := decide) only [bits_append_high, bits_append_low, bits_self, Nat.sub_self, Nat.reduceSub] <;> rfl)).trans
    (by simp (disch := decide) only [decode3D, bits_append_low, bits_append_high, bits_self, Nat.sub_self, Nat.reduceSub, BitVec.toNat_ofNat, Nat.reducePow,
      Nat.reduceMod, and_self, if_true] <;> rfl))
theorem memUnmap (rd : BitVec 7) (ra : BitVec 7) : Statement (.memUnmap rd ra) := oneWord rfl ((layout3D (by simp (disch := decide) only [bits_append_high, bits_append_low, bits_self, Nat.sub_self, Nat.reduceSub] <;> rfl)).trans
    (by simp (disch := decide) only [decode3D, bits_append_low, bits_append_high, bits_self, Nat.sub_self, Nat.reduceSub, BitVec.toNat_ofNat, Nat.reducePow,
      Nat.reduceMod, and_self, if_true] <;> rfl))
theorem memAttr (rd : BitVec 7) (ra : BitVec 7) (attr : BitVec 2) (p : BitVec 2) : Statement (.memAttr rd ra attr p) := oneWord rfl ((layout3D (by simp (disch := decide) only [bits_append_high, bits_append_low, bits_self, Nat.sub_self, Nat.reduceSub] <;> rfl)).trans
    (by simp (disch := decide) only [decode3D, bits_append_low, bits_append_high, bits_self, Nat.sub_self, Nat.reduceSub, BitVec.toNat_ofNat, Nat.reducePow,
      Nat.reduceMod, and_self, if_true] <;> rfl))
theorem qfence (q : BitVec 3) : Statement (.qfence q) := oneWord rfl ((layout3D (by simp (disch := decide) only [bits_append_high, bits_append_low, bits_self, Nat.sub_self, Nat.reduceSub] <;> rfl)).trans
    (by simp (disch := decide) only [decode3D, bits_append_low, bits_append_high, bits_self, Nat.sub_self, Nat.reduceSub, BitVec.toNat_ofNat, Nat.reducePow,
      Nat.reduceMod, and_self, if_true] <;> rfl))
theorem rwtLoad (rd : BitVec 7) (ra : BitVec 7) : Statement (.rwtLoad rd ra) := oneWord rfl ((layout3D (by simp (disch := decide) only [bits_append_high, bits_append_low, bits_self, Nat.sub_self, Nat.reduceSub] <;> rfl)).trans
    (by simp (disch := decide) only [decode3D, bits_append_low, bits_append_high, bits_self, Nat.sub_self, Nat.reduceSub, BitVec.toNat_ofNat, Nat.reducePow,
      Nat.reduceMod, and_self, if_true] <;> rfl))
theorem rwtCtl (rd : BitVec 7) (ra : BitVec 7) : Statement (.rwtCtl rd ra) := oneWord rfl ((layout3D (by simp (disch := decide) only [bits_append_high, bits_append_low, bits_self, Nat.sub_self, Nat.reduceSub] <;> rfl)).trans
    (by simp (disch := decide) only [decode3D, bits_append_low, bits_append_high, bits_self, Nat.sub_self, Nat.reduceSub, BitVec.toNat_ofNat, Nat.reducePow,
      Nat.reduceMod, and_self, if_true] <;> rfl))
theorem rwtCtlGet (rd : BitVec 7) : Statement (.rwtCtlGet rd) := oneWord rfl ((layout3D (by simp (disch := decide) only [bits_append_high, bits_append_low, bits_self, Nat.sub_self, Nat.reduceSub] <;> rfl)).trans
    (by simp (disch := decide) only [decode3D, bits_append_low, bits_append_high, bits_self, Nat.sub_self, Nat.reduceSub, BitVec.toNat_ofNat, Nat.reducePow,
      Nat.reduceMod, and_self, if_true] <;> rfl))
theorem sbind (rd : BitVec 7) (ra : BitVec 7) (n : BitVec 3) : Statement (.sbind rd ra n) := oneWord rfl ((layout3D (by simp (disch := decide) only [bits_append_high, bits_append_low, bits_self, Nat.sub_self, Nat.reduceSub] <;> rfl)).trans
    (by simp (disch := decide) only [decode3D, bits_append_low, bits_append_high, bits_self, Nat.sub_self, Nat.reduceSub, BitVec.toNat_ofNat, Nat.reducePow,
      Nat.reduceMod, and_self, if_true] <;> rfl))
theorem snext (rd : BitVec 7) (n : BitVec 3) : Statement (.snext rd n) := oneWord rfl ((layout3D (by simp (disch := decide) only [bits_append_high, bits_append_low, bits_self, Nat.sub_self, Nat.reduceSub] <;> rfl)).trans
    (by simp (disch := decide) only [decode3D, bits_append_low, bits_append_high, bits_self, Nat.sub_self, Nat.reduceSub, BitVec.toNat_ofNat, Nat.reducePow,
      Nat.reduceMod, and_self, if_true] <;> rfl))
theorem snextStatus (rd : BitVec 7) (ws : BitVec 7) (n : BitVec 3) : Statement (.snextStatus rd ws n) := oneWord rfl ((layout3D (by simp (disch := decide) only [bits_append_high, bits_append_low, bits_self, Nat.sub_self, Nat.reduceSub] <;> rfl)).trans
    (by simp (disch := decide) only [decode3D, bits_append_low, bits_append_high, bits_self, Nat.sub_self, Nat.reduceSub, BitVec.toNat_ofNat, Nat.reducePow,
      Nat.reduceMod, and_self, if_true] <;> rfl))
theorem sdone (rd : BitVec 7) (n : BitVec 3) : Statement (.sdone rd n) := oneWord rfl ((layout3D (by simp (disch := decide) only [bits_append_high, bits_append_low, bits_self, Nat.sub_self, Nat.reduceSub] <;> rfl)).trans
    (by simp (disch := decide) only [decode3D, bits_append_low, bits_append_high, bits_self, Nat.sub_self, Nat.reduceSub, BitVec.toNat_ofNat, Nat.reducePow,
      Nat.reduceMod, and_self, if_true] <;> rfl))
theorem amSend (rd : BitVec 7) (ra : BitVec 7) : Statement (.amSend rd ra) := oneWord rfl ((layout3D (by simp (disch := decide) only [bits_append_high, bits_append_low, bits_self, Nat.sub_self, Nat.reduceSub] <;> rfl)).trans
    (by simp (disch := decide) only [decode3D, bits_append_low, bits_append_high, bits_self, Nat.sub_self, Nat.reduceSub, BitVec.toNat_ofNat, Nat.reducePow,
      Nat.reduceMod, and_self, if_true] <;> rfl))
theorem amHandler (rd : BitVec 7) (ra : BitVec 7) : Statement (.amHandler rd ra) := oneWord rfl ((layout3D (by simp (disch := decide) only [bits_append_high, bits_append_low, bits_self, Nat.sub_self, Nat.reduceSub] <;> rfl)).trans
    (by simp (disch := decide) only [decode3D, bits_append_low, bits_append_high, bits_self, Nat.sub_self, Nat.reduceSub, BitVec.toNat_ofNat, Nat.reducePow,
      Nat.reduceMod, and_self, if_true] <;> rfl))
theorem lnkStatus (rd : BitVec 7) (ra : BitVec 7) : Statement (.lnkStatus rd ra) := oneWord rfl ((layout3D (by simp (disch := decide) only [bits_append_high, bits_append_low, bits_self, Nat.sub_self, Nat.reduceSub] <;> rfl)).trans
    (by simp (disch := decide) only [decode3D, bits_append_low, bits_append_high, bits_self, Nat.sub_self, Nat.reduceSub, BitVec.toNat_ofNat, Nat.reducePow,
      Nat.reduceMod, and_self, if_true] <;> rfl))
theorem wrtPresent (rd : BitVec 7) (ra : BitVec 7) : Statement (.wrtPresent rd ra) := oneWord rfl ((layout3D (by simp (disch := decide) only [bits_append_high, bits_append_low, bits_self, Nat.sub_self, Nat.reduceSub] <;> rfl)).trans
    (by simp (disch := decide) only [decode3D, bits_append_low, bits_append_high, bits_self, Nat.sub_self, Nat.reduceSub, BitVec.toNat_ofNat, Nat.reducePow,
      Nat.reduceMod, and_self, if_true] <;> rfl))
theorem wrtPresentToken (rd : BitVec 7) (ra : BitVec 7) : Statement (.wrtPresentToken rd ra) := oneWord rfl ((layout3D (by simp (disch := decide) only [bits_append_high, bits_append_low, bits_self, Nat.sub_self, Nat.reduceSub] <;> rfl)).trans
    (by simp (disch := decide) only [decode3D, bits_append_low, bits_append_high, bits_self, Nat.sub_self, Nat.reduceSub, BitVec.toNat_ofNat, Nat.reducePow,
      Nat.reduceMod, and_self, if_true] <;> rfl))
theorem wrtPresentRevoke (rd : BitVec 7) (ra : BitVec 7) : Statement (.wrtPresentRevoke rd ra) := oneWord rfl ((layout3D (by simp (disch := decide) only [bits_append_high, bits_append_low, bits_self, Nat.sub_self, Nat.reduceSub] <;> rfl)).trans
    (by simp (disch := decide) only [decode3D, bits_append_low, bits_append_high, bits_self, Nat.sub_self, Nat.reduceSub, BitVec.toNat_ofNat, Nat.reducePow,
      Nat.reduceMod, and_self, if_true] <;> rfl))
theorem wrtSplit (rd : BitVec 7) (ra : BitVec 7) : Statement (.wrtSplit rd ra) := oneWord rfl ((layout3D (by simp (disch := decide) only [bits_append_high, bits_append_low, bits_self, Nat.sub_self, Nat.reduceSub] <;> rfl)).trans
    (by simp (disch := decide) only [decode3D, bits_append_low, bits_append_high, bits_self, Nat.sub_self, Nat.reduceSub, BitVec.toNat_ofNat, Nat.reducePow,
      Nat.reduceMod, and_self, if_true] <;> rfl))
theorem wrtDelegate (rd : BitVec 7) (ra : BitVec 7) : Statement (.wrtDelegate rd ra) := oneWord rfl ((layout3D (by simp (disch := decide) only [bits_append_high, bits_append_low, bits_self, Nat.sub_self, Nat.reduceSub] <;> rfl)).trans
    (by simp (disch := decide) only [decode3D, bits_append_low, bits_append_high, bits_self, Nat.sub_self, Nat.reduceSub, BitVec.toNat_ofNat, Nat.reducePow,
      Nat.reduceMod, and_self, if_true] <;> rfl))
theorem wrtSurrender (rd : BitVec 7) (ra : BitVec 7) : Statement (.wrtSurrender rd ra) := oneWord rfl ((layout3D (by simp (disch := decide) only [bits_append_high, bits_append_low, bits_self, Nat.sub_self, Nat.reduceSub] <;> rfl)).trans
    (by simp (disch := decide) only [decode3D, bits_append_low, bits_append_high, bits_self, Nat.sub_self, Nat.reduceSub, BitVec.toNat_ofNat, Nat.reducePow,
      Nat.reduceMod, and_self, if_true] <;> rfl))
theorem wrtQuery (rd : BitVec 7) (ra : BitVec 7) (n : BitVec 4) : Statement (.wrtQuery rd ra n) := oneWord rfl ((layout3D (by simp (disch := decide) only [bits_append_high, bits_append_low, bits_self, Nat.sub_self, Nat.reduceSub] <;> rfl)).trans
    (by simp (disch := decide) only [decode3D, bits_append_low, bits_append_high, bits_self, Nat.sub_self, Nat.reduceSub, BitVec.toNat_ofNat, Nat.reducePow,
      Nat.reduceMod, and_self, if_true] <;> rfl))
theorem codeAdmit (rd : BitVec 7) (ra : BitVec 7) : Statement (.codeAdmit rd ra) := oneWord rfl ((layout3D (by simp (disch := decide) only [bits_append_high, bits_append_low, bits_self, Nat.sub_self, Nat.reduceSub] <;> rfl)).trans
    (by simp (disch := decide) only [decode3D, bits_append_low, bits_append_high, bits_self, Nat.sub_self, Nat.reduceSub, BitVec.toNat_ofNat, Nat.reducePow,
      Nat.reduceMod, and_self, if_true] <;> rfl))
theorem attest (rd : BitVec 7) (ra : BitVec 7) : Statement (.attest rd ra) := oneWord rfl ((layout3D (by simp (disch := decide) only [bits_append_high, bits_append_low, bits_self, Nat.sub_self, Nat.reduceSub] <;> rfl)).trans
    (by simp (disch := decide) only [decode3D, bits_append_low, bits_append_high, bits_self, Nat.sub_self, Nat.reduceSub, BitVec.toNat_ofNat, Nat.reducePow,
      Nat.reduceMod, and_self, if_true] <;> rfl))
theorem once (w : BitVec 32) : Statement (.once w) := noWord2 rfl
theorem ret : Statement .ret := oneWord rfl (by decide)
theorem ends : Statement .ends := oneWord rfl (by decide)
theorem split : Statement .split := oneWord rfl (by decide)
theorem nop : Statement .nop := oneWord rfl (by decide)
theorem thrStopSelf : Statement .thrStopSelf := oneWord rfl (by decide)
theorem thrYield : Statement .thrYield := oneWord rfl (by decide)
theorem accZero : Statement .accZero := noWord rfl
theorem accLoad : Statement .accLoad := noWord rfl
theorem accStore : Statement .accStore := noWord rfl
theorem mmaE4m3E4m3 : Statement .mmaE4m3E4m3 := noWord rfl
theorem mmaE4m3E5m2 : Statement .mmaE4m3E5m2 := noWord rfl
theorem mmaE5m2E4m3 : Statement .mmaE5m2E4m3 := noWord rfl
theorem mmaEc8Ec8 : Statement .mmaEc8Ec8 := noWord rfl
theorem mmaEc8E4m3 : Statement .mmaEc8E4m3 := noWord rfl
theorem mmaBf16Bf16 : Statement .mmaBf16Bf16 := noWord rfl
theorem mmaF32F32 : Statement .mmaF32F32 := noWord rfl
theorem mmaI8I8 : Statement .mmaI8I8 := noWord rfl
theorem mmaSpE4m3E4m3 : Statement .mmaSpE4m3E4m3 := noWord rfl
theorem mmaSpBf16Bf16 : Statement .mmaSpBf16Bf16 := noWord rfl
theorem nestEw : Statement .nestEw := noWord rfl
theorem nestRed : Statement .nestRed := noWord rfl
theorem transpose : Statement .transpose := noWord rfl
theorem scale : Statement .scale := noWord rfl
theorem enc8 : Statement .enc8 := noWord rfl
theorem dec8 : Statement .dec8 := noWord rfl
theorem compress : Statement .compress := noWord rfl
theorem teMark : Statement .teMark := noWord rfl
theorem copy : Statement .copy := noWord rfl
theorem copy2d : Statement .copy2d := noWord rfl
theorem copy3d : Statement .copy3d := noWord rfl
theorem copyGather : Statement .copyGather := noWord rfl
theorem fill : Statement .fill := noWord rfl
theorem schedLoad : Statement .schedLoad := noWord rfl
theorem rteList : Statement .rteList := noWord rfl
theorem rteDispatch : Statement .rteDispatch := noWord rfl
theorem rteCombine : Statement .rteCombine := noWord rfl
theorem collAllred : Statement .collAllred := noWord rfl
theorem collAllgath : Statement .collAllgath := noWord rfl
theorem collRedscat : Statement .collRedscat := noWord rfl
theorem collBcast : Statement .collBcast := noWord rfl
theorem instructionCompletion : Statement .instructionCompletion := noWord rfl
theorem longLatencyArrival : Statement .longLatencyArrival := noWord rfl
theorem oncePostLanding : Statement .oncePostLanding := noWord rfl
theorem storeVisible : Statement .storeVisible := noWord rfl
theorem trapRecordEnqueue : Statement .trapRecordEnqueue := noWord rfl
theorem coupleTimeout : Statement .coupleTimeout := noWord rfl
theorem strandSteal : Statement .strandSteal := noWord rfl
theorem nwriteLanding : Statement .nwriteLanding := noWord rfl
theorem wakeDelivery : Statement .wakeDelivery := noWord rfl
theorem expiryNotice : Statement .expiryNotice := noWord rfl
theorem preemptSwapOut : Statement .preemptSwapOut := noWord rfl
theorem threadRestore : Statement .threadRestore := noWord rfl
theorem divertedMessageReplay : Statement .divertedMessageReplay := noWord rfl
theorem commandCompletionCopy : Statement .commandCompletionCopy := noWord rfl
theorem commandCompletionTile : Statement .commandCompletionTile := noWord rfl
theorem commandCompletionRoute : Statement .commandCompletionRoute := noWord rfl
theorem rewriteWindowEntry : Statement .rewriteWindowEntry := noWord rfl
theorem rewriteHeadRelease : Statement .rewriteHeadRelease := noWord rfl
theorem rewriteGroupCommit : Statement .rewriteGroupCommit := noWord rfl
theorem rewriteGroupReplay : Statement .rewriteGroupReplay := noWord rfl
theorem dispatcherDecision : Statement .dispatcherDecision := noWord rfl
theorem headAgeLimit : Statement .headAgeLimit := noWord rfl
theorem endOfStreamAppend : Statement .endOfStreamAppend := noWord rfl
theorem coreMove : Statement .coreMove := noWord rfl
theorem coreLend : Statement .coreLend := noWord rfl
theorem q7BacklogDelivery : Statement .q7BacklogDelivery := noWord rfl
theorem corrected : Statement .corrected := noWord rfl
theorem deckFence : Statement .deckFence := noWord rfl
theorem injectionFire : Statement .injectionFire := noWord rfl
theorem l2WriteBack : Statement .l2WriteBack := noWord rfl
theorem amArrival : Statement .amArrival := noWord rfl
theorem amHandlerStart : Statement .amHandlerStart := noWord rfl
theorem collectiveTimeout : Statement .collectiveTimeout := noWord rfl
theorem dataFlitReceive : Statement .dataFlitReceive := noWord rfl
theorem nakReceive : Statement .nakReceive := noWord rfl
theorem replayTimeout : Statement .replayTimeout := noWord rfl
theorem keySwitchStart : Statement .keySwitchStart := noWord rfl
theorem keySwitchMarkerReceive : Statement .keySwitchMarkerReceive := noWord rfl
theorem oldKeySlotClose : Statement .oldKeySlotClose := noWord rfl
theorem idleFlitReceive : Statement .idleFlitReceive := noWord rfl
theorem timeFlitSend : Statement .timeFlitSend := noWord rfl
theorem timeFlitReceive : Statement .timeFlitReceive := noWord rfl
theorem ptpMessageReceive : Statement .ptpMessageReceive := noWord rfl
theorem arbiterClaim : Statement .arbiterClaim := noWord rfl
theorem arbiterReplyTimeout : Statement .arbiterReplyTimeout := noWord rfl
theorem spentEntryExpiry : Statement .spentEntryExpiry := noWord rfl
theorem timeBeaconEthernet : Statement .timeBeaconEthernet := noWord rfl
theorem beaconTimeout : Statement .beaconTimeout := noWord rfl
theorem highWaterUpdate : Statement .highWaterUpdate := noWord rfl
theorem contextExpiry : Statement .contextExpiry := noWord rfl
theorem tokenLapsed : Statement .tokenLapsed := noWord rfl
theorem handoverHoldExpiry : Statement .handoverHoldExpiry := noWord rfl
theorem handoverRelease : Statement .handoverRelease := noWord rfl
theorem hotPatchDoorbell : Statement .hotPatchDoorbell := noWord rfl
theorem patchBusy : Statement .patchBusy := noWord rfl
theorem applyDoorbell : Statement .applyDoorbell := noWord rfl
theorem admissionDoorbellWarrant : Statement .admissionDoorbellWarrant := noWord rfl
theorem admissionDoorbellToken : Statement .admissionDoorbellToken := noWord rfl
theorem admissionDoorbellRevocation : Statement .admissionDoorbellRevocation := noWord rfl
theorem admissionDoorbellBeacon : Statement .admissionDoorbellBeacon := noWord rfl
theorem hostLaunchRecord : Statement .hostLaunchRecord := noWord rfl
theorem hostPartitionRead : Statement .hostPartitionRead := noWord rfl
theorem hostPartitionWrite : Statement .hostPartitionWrite := noWord rfl
theorem registerWrite : Statement .registerWrite := noWord rfl
theorem sagePeriodicSample : Statement .sagePeriodicSample := noWord rfl
theorem counterPageUpdate : Statement .counterPageUpdate := noWord rfl
theorem supplySagTrip : Statement .supplySagTrip := noWord rfl
theorem coldReset : Statement .coldReset := noWord rfl
theorem warmReset : Statement .warmReset := noWord rfl
theorem arbiterReply : Statement .arbiterReply := noWord rfl
theorem remoteMappingRequest : Statement .remoteMappingRequest := noWord rfl
theorem portTrainingEnd : Statement .portTrainingEnd := noWord rfl
theorem hostLaneFailure : Statement .hostLaneFailure := noWord rfl
theorem supplySagClear : Statement .supplySagClear := noWord rfl

end Sys2Proof.Laws.OneWord
end

