-- ==== Sys2Proof/Machine/Readback.lean ====
section
/-! DEFINITION. What the host reads in BAR0: the admission window, the MSI-X table, the state readback window and the management
window (R388, R389, R393, R400 to R402). A read has no effect, so it is a function of the state and no event; none is a
byte of which the spec says nothing. -/
namespace Sys2Proof.Machine

/-- The byte at an offset of a record, zero beyond it. -/
def nth (b : List Byte) (i : Nat) : Byte := b.getD i 0
/-- Doublewords as bytes. -/
def doublewords (l : List Nat) : List Byte := l.flatMap fun n => natBytes 8 n

/-! ### The regions of the readback window (R400; the order of their fields is assumption 95) -/

/-- Device: ID, pod, firmware table version, reset count, power limit, and the sample period in force (R402). -/
def State.deviceRegion (s : State) : List Byte :=
  doublewords [Config.deviceId.toNat, Config.podId.toNat, s.host.firmware, s.host.resets, s.host.power, s.host.period]
/-- Keystone: trust state, H, last beacon number, spent-store fill, admission count. -/
def State.keystoneRegion (s : State) : List Byte :=
  doublewords [if s.keystone.trusted then 1 else 0, s.keystone.high, s.keystone.beacon, s.keystone.spent.length, s.keystone.admissions]
/-- Bytes of a record with zeros after them, and its CRC-32C in its last four bytes (R400; assumption 95). -/
def sealBytes (n : Nat) (l : List Byte) : List Byte :=
  let head := l ++ List.replicate (n - 4 - l.length) 0
  head ++ natBytes 4 (crc32c head).toNat
/-- Writes dropped at the admission window, at a partition's page, and at its window (R389 to R391). -/
def State.droppedAt (s : State) (p : Nat) : List Nat := [s.host.drops, tabGet s.host.pageDrops p 0, tabGet s.host.windowDrops p 0]
/-- A partition: its root handle's state record and the counts of dropped writes. -/
def State.partRegion (s : State) (p : Nat) : List Byte :=
  match s.ctx? p with
  | none => sealBytes 128 (doublewords (List.replicate 8 0 ++ s.droppedAt p))
  | some x => sealBytes 128 (doublewords ((List.range 8).map (fun n => (s.wrtQuery n (BitVec.ofNat 64 x.handle)).toNat) ++ s.droppedAt p))
/-- A byte of a partition's counter page (R399). -/
def State.counterByte (s : State) (p i : Nat) : Byte :=
  match s.ctx? p with
  | some x => s.homeByte (x.counterPage + i)
  | none => 0
/-- A core: partition (0xFF for none) and fenced bit, sr.scratch, the corrected errors of each structure by its source, saturating, and
four bits for each slot's state code (R313, R322, R397). -/
def State.coreRegion (s : State) (c : Nat) : List Byte :=
  let k := s.core c
  sealBytes 64 (natBytes 4 (k.part.getD 0xFF + (if k.fenced then 2 ^ 8 else 0) + k.steps * 2 ^ 16) ++
    (List.range 12).flatMap (fun i => natBytes 2 (min (tabGet k.corrected i 0) 0xFFFF)) ++
    (List.range 32).map fun i => BitVec.ofNat 8 (s.slotCode c (2 * i) % 16 + s.slotCode c (2 * i + 1) % 16 * 16))
/-- A link: the doubleword of LNK.STATUS, its retrains, and its failed trainings in a row. -/
def State.portRegion (s : State) (i : Nat) : List Byte :=
  let q := tabGet s.ports i Port.reset
  sealBytes 64 (doublewords [(s.linkStatus (BitVec.ofNat 64 i)).toNat, q.retrains, q.badTrainings])
/-- A byte of the function table, 4 KiB for each entry, or of the mailboxes after it (R381, R400; assumption 95). -/
def State.firmwareByte (s : State) (off : Nat) : Byte :=
  match (if off < 0x1C0000 then tabGet? s.host.functions ((off - 0xC0000) / 4096) else none) with
  | some code => nth code (off % 4096)
  | none => Config.firmwareByte off
/-- A byte of the readback window. -/
def State.readback (s : State) (off : Nat) : Option Byte :=
  if 0x40 ≤ off ∧ off < 0x48 then some (nth (natBytes 8 (s.logSeq % 8192)) (off - 0x40))
  else if off < 0x1000 then some (nth s.deviceRegion off)
  else if off < 0x2000 then some (nth s.keystoneRegion (off - 0x1000))
  else if off < 0x3000 then some (nth (s.partRegion ((off - 0x2000) / 128)) (off % 128))
  else if 0x4000 ≤ off ∧ off < 0x24000 then some (s.counterByte ((off - 0x4000) / 4096) (off % 4096))
  else if 0x24000 ≤ off ∧ off < 0x34000 then some (nth (s.coreRegion ((off - 0x24000) / 64)) (off % 64))
  else if 0x34000 ≤ off ∧ off < 0x34400 then some (nth (s.portRegion ((off - 0x34000) / 64)) (off % 64))
  else if 0x40000 ≤ off ∧ off < 0xC0000 then
    some (nth (natBytes 64 (tabGet s.log ((off - 0x40000) / 64) 0).toNat) (off % 64))
  else if 0xC0000 ≤ off ∧ off < 0x800000 then some (s.firmwareByte off)
  else none

/-! ### BAR0 (R388) -/

/-- The status doubleword of the admission window (R389). -/
def HostPort.statusWord (h : HostPort) : Nat :=
  (if h.busy then 1 else 0) + h.tag.toNat * 2 ^ 16 + h.status.toNat * 2 ^ 32 + h.handle.toNat * 2 ^ 48
/-- A byte of the admission window (R389). -/
def HostPort.admissionByte (h : HostPort) (off : Nat) : Option Byte :=
  if off < 0x800 then some (tabGet h.window off 0)
  else if 0x808 ≤ off ∧ off < 0x810 then some (nth (natBytes 8 h.statusWord) (off - 0x808))
  else if 0x810 ≤ off ∧ off < 0x818 then some (nth (natBytes 8 h.drops) (off - 0x810))
  else none
/-- A byte of the MSI-X table, or of the pending bits that follow it (R388, R393). -/
def HostPort.vectorByte (h : HostPort) (off : Nat) : Option Byte :=
  if off < 258 * 16 then some (tabGet h.msix off 0)
  else if off < 258 * 16 + 40 then
    some (BitVec.ofNat 8 ((List.range 8).foldl (fun n b =>
      n + if h.pendingVectors.contains (8 * (off - 258 * 16) + b) then 2 ^ b else 0) 0))
  else none
/-- A byte of the management window: staged bytes as they were written, the apply status, the nonce, the hot-patch status (R381, R401,
R402). -/
def HostPort.managementByte (h : HostPort) (off : Nat) : Option Byte :=
  if isStaged off then some (tabGet h.staged off 0)
  else if 0xE0108 ≤ off ∧ off < 0xE0110 then some (nth (natBytes 8 h.applyStatus) (off - 0xE0108))
  else if 0xE1000 ≤ off ∧ off < 0xE1008 then some (nth (natBytes 8 h.nonce) (off - 0xE1000))
  else if 0xF0008 ≤ off ∧ off < 0xF0010 then some (nth (natBytes 8 h.patchStatus) (off - 0xF0008))
  else none
/-- A byte that the host reads in BAR0; outside every window all ones (R388). Queue pages are written only (R390). -/
def State.bar0Read (s : State) (off : Nat) : Option Byte :=
  if off < 0x1000 then s.host.admissionByte off
  else if 0x10000 ≤ off ∧ off < 0x30000 then none
  else if 0x40000 ≤ off ∧ off < 0x42000 then s.host.vectorByte (off - 0x40000)
  else if 0x80000 ≤ off ∧ off < 0x880000 then s.readback (off - 0x80000)
  else if 0x1000000 ≤ off ∧ off < 0x1100000 then s.host.managementByte (off - 0x1000000)
  else some 0xFF

end Sys2Proof.Machine
end

