-- ==== Sys2Proof/Tests/Slice0.lean ====
section
/-! SUPPORT. Tests: what WellFormed refuses; a word for every core instruction; and worked cases of the spec, or cases worked by
hand from its rules, each one step on a small state. -/
namespace Sys2Proof.Tests
open Sys2Proof Sys2Proof.Machine

section
set_option Elab.async false

/-! ### WellFormed refuses (R53 to R57, R87, R90, R100, R120, R123, R125, R131, R132, R137, R147, R256, R281) -/

/-- One ill-formed term for each check. -/
def illFormed1 : List Instr :=
  [.add 0 0 0 0 0, .fcvtF64F32 1 2 5 0, .fcvtF32F64 1 2 5 0, .fcvtI64F32 1 2 5 0, .fcvtU64F32 1 2 6 0, .fcvtI64F64 1 2 7 0,
   .fcvtU64F64 1 2 5 0, .fcvtF32I64 1 2 5 0, .fcvtF32U64 1 2 5 0, .fcvtF64I64 1 2 5 0, .fcvtF64U64 1 2 5 0, .fcvtI32F32 1 2 5 0,
   .fcvtI32F64 1 2 5 0, .fcvtBf16F32 1 2 5 0, .fcvtF32Bf16 1 2 5 0, .loop 1 0 0, .ld 1 2 3 7 0 0, .ldx 1 2 3 7 0 0, .ldAcq 1 2 3 7 0 0,
   .st 1 2 3 7 0 0, .stRel 1 2 3 7 0 0, .vld 1 2 7 0 0, .vst 1 2 7 0 0, .vgath 1 2 3 4 0 0, .vscat 1 2 3 4 0 0, .pref 1 7 0 0]
def illFormed2 : List Instr :=
  [.fenceRw 7, .fenceAcq 7, .fenceRel 7, .fenceSs 127, .qpush 8 1 2 3 0, .qpop 8 1, .qpop 15 1, .qpopTrap 8 1, .qpopTrap 6 1, .qpopTrap 7 1,
   .qpopTrapStatus 8 1 2, .qpopTrapStatus 6 1 2, .qpopTrapStatus 7 1 2, .evtTerm 16 1 0, .evtCnt 16 1 2 0 0, .evtArm 16 1 0, .evtWait 16,
   .sysGet 1 10, .sysSet 1 0, .sysSet 1 8, .memMap 1 2 3 0, .memMap 1 2 0 3, .memMapAlias 1 2 3 0, .memMapAlias 1 2 0 3, .memMapRemote 1 2 3 0,
   .memMapRemote 1 2 0 3, .memAttr 1 2 3 0, .memAttr 1 2 0 3, .qfence 0, .once 0xFC000000, .once 0x60000000, .once 0xF4000181]
theorem test_illFormed : (illFormed1 ++ illFormed2).all (fun i => !wellFormed i) = true := by decide

/-! ### Decoding (R48 to R57) -/

/-- Words written out bit by bit from the encodings: one of each format and family. -/
def bitWords1 : List (BitVec 32 × Instr) :=
  [(0b000000_0000001_0000010_0000011_001_0_0#32, .sub 1 2 3 0 0), (0b000001_0000101_0000110_0000111_011_0_0#32, .div 5 6 7 0 0),
   (0b001000_0000001_0000001_0_00000000011#32, .shli 1 1 0 3), (0b001100_0000010_1111111111111111111#32, .movi 2 0x7FFFF),
   (0b001111_0000001_0000010_0000011_00100#32, .sel 1 2 3 4), (0b010000_0000001_0000010_0000011_000_0_0#32, .faddF32 1 2 3 0 0),
   (0b010101_0000010_0000001_0000001_000_0_0#32, .fcvtF32F64 2 1 0 0), (0b010111_0000011_0_010_111111111111110#32, .bcLtz 3 0 0x7FFE),
   (0b011000_00000000000000000000000101#32, .j 5), (0b011011_0000011_000000000100_0_000000#32, .loop 3 4 0),
   (0b011100_0000101_0_000_000000000000110#32, .fork 5 0 6), (0b011110_0000011_0000000_0000000_010_0_0#32, .gangid 3)]
def bitWords2 : List (BitVec 32 × Instr) :=
  [(0b100000_0111000_0000101_10_000_0_000000#32, .ld 56 5 2 0 0 0), (0b100101_0000100_0000001_00_000_0_000001#32, .vld 4 1 0 0 1),
   (0b101011_0000000_0000000_0000101_000_0_0#32, .fenceRw 5), (0b101100_0000111_0000101_0000110_000_0_1#32, .amoAdd 7 5 6 0 1),
   (0b110000_0000001_0000010_0000011_000_0_0#32, .vaddI32 1 2 3 0 0), (0b110111_0000001_0000010_0000000_110_0_0#32, .vzmask 1 2 0),
   (0b111000_00000_0000001_0000100_00110_0_0#32, .qpush 0 1 4 6 0), (0b111010_00011_0000010_0000000000000_0#32, .qtest 3 2),
   (0b111101_0000010_0000011_000101_000000#32, .thrStart 2 3), (0b111101_0000010_0000011_010100_000101#32, .memMap 2 3 1 1)]
theorem test_bitWords : ((bitWords1 ++ bitWords2).all fun x => decodeWord x.1 == some x.2) = true := by decide

/-! For every core instruction a word made of the table's match bits and of a value in each of the table's fields. -/

def words1 : List (BitVec 32 × Instr) :=
  [(0x00082062, .add 1 2 3 1 0), (0x00082066, .sub 1 2 3 1 0), (0x0008206A, .and 1 2 3 1 0), (0x0008206E, .or 1 2 3 1 0),
   (0x00082072, .xor 1 2 3 1 0), (0x00082076, .shl 1 2 3 1 0), (0x0008207A, .shr 1 2 3 1 0), (0x0008207E, .sra 1 2 3 1 0),
   (0x04082062, .mul 1 2 3 1 0), (0x04082066, .mulh 1 2 3 1 0), (0x0408206A, .mulhu 1 2 3 1 0), (0x0408206E, .div 1 2 3 1 0),
   (0x04082072, .divu 1 2 3 1 0), (0x04082076, .rem 1 2 3 1 0), (0x0408207A, .remu 1 2 3 1 0), (0x08082062, .min 1 2 3 1 0),
   (0x08082066, .max 1 2 3 1 0), (0x0808206A, .minu 1 2 3 1 0), (0x0808206E, .maxu 1 2 3 1 0), (0x08082072, .slt 1 2 3 1 0),
   (0x08082076, .sltu 1 2 3 1 0), (0x0808207A, .seq 1 2 3 1 0), (0x0808207E, .sne 1 2 3 1 0), (0x0C082002, .clz 1 2 1),
   (0x0C082006, .popc 1 2 1), (0x0C08200A, .rev 1 2 1), (0x0C08200E, .sextB 1 2 1), (0x0C082012, .sextH 1 2 1),
   (0x0C082016, .sextW 1 2 1), (0x0C08201A, .zextW 1 2 1), (0x10082C55, .addi 1 2 1 0x455), (0x14082C55, .andi 1 2 1 0x455),
   (0x18082C55, .ori 1 2 1 0x455), (0x1C082C55, .xori 1 2 1 0x455), (0x2008282B, .shli 1 2 1 0x2b), (0x2408282B, .shri 1 2 1 0x2b),
   (0x2808282B, .srai 1 2 1 0x2b), (0x2C082C55, .slti 1 2 1 0x455), (0x300C0003, .movi 1 0x40003), (0x340C0003, .ldpc 1 0x40003)]
def words2 : List (BitVec 32 × Instr) :=
  [(0x3808206A, .lea 1 2 3 2 1 0), (0x3C082064, .sel 1 2 3 4), (0x40082062, .faddF32 1 2 3 1 0), (0x40082066, .fsubF32 1 2 3 1 0),
   (0x4008206A, .fmulF32 1 2 3 1 0), (0x4008206E, .fdivF32 1 2 3 1 0), (0x40082072, .fminF32 1 2 3 1 0), (0x40082076, .fmaxF32 1 2 3 1 0),
   (0x4008201A, .fsqrtF32 1 2 1), (0x44082062, .faddF64 1 2 3 1 0), (0x44082066, .fsubF64 1 2 3 1 0), (0x4408206A, .fmulF64 1 2 3 1 0),
   (0x4408206E, .fdivF64 1 2 3 1 0), (0x44082072, .fminF64 1 2 3 1 0), (0x44082076, .fmaxF64 1 2 3 1 0), (0x4408201A, .fsqrtF64 1 2 1),
   (0x48082064, .ffmaF32 1 2 3 4), (0x4C082064, .ffmaF64 1 2 3 4), (0x50082062, .feqF32 1 2 3 1 0), (0x50082066, .fltF32 1 2 3 1 0),
   (0x5008206A, .fleF32 1 2 3 1 0), (0x5008206E, .funF32 1 2 3 1 0), (0x50082072, .feqF64 1 2 3 1 0), (0x50082076, .fltF64 1 2 3 1 0),
   (0x5008207A, .fleF64 1 2 3 1 0), (0x5008207E, .funF64 1 2 3 1 0), (0x5408200E, .fcvtF64F32 1 2 3 1), (0x5408202E, .fcvtF32F64 1 2 3 1),
   (0x5408204E, .fcvtI64F32 1 2 3 1), (0x5408206E, .fcvtU64F32 1 2 3 1), (0x5408208E, .fcvtI64F64 1 2 3 1),
   (0x540820AE, .fcvtU64F64 1 2 3 1), (0x540820CE, .fcvtF32I64 1 2 3 1), (0x540820EE, .fcvtF32U64 1 2 3 1),
   (0x5408210E, .fcvtF64I64 1 2 3 1), (0x5408212E, .fcvtF64U64 1 2 3 1), (0x5408214E, .fcvtI32F32 1 2 3 1),
   (0x5408216E, .fcvtI32F64 1 2 3 1), (0x5408218E, .fcvtBf16F32 1 2 3 1), (0x540821AE, .fcvtF32Bf16 1 2 3 1)]
def words3 : List (BitVec 32 × Instr) :=
  [(0x58082002, .fclassF32 1 2 1), (0x58082006, .fclassF64 1 2 1), (0x5C144001, .bcEqz 2 1 0x4001), (0x5C14C001, .bcNez 2 1 0x4001),
   (0x5C154001, .bcLtz 2 1 0x4001), (0x5C15C001, .bcGez 2 1 0x4001), (0x5C164001, .bcGtz 2 1 0x4001), (0x5C16C001, .bcLez 2 1 0x4001),
   (0x5C134001, .bcFull 2 0x4001), (0x5C13C001, .bcEmpty 2 0x4001), (0x62000001, .j 0x2000001), (0x66000001, .call 0x2000001),
   (0x68002002, .jr 2 1), (0x68002006, .callr 2 1), (0x68000008, .ret), (0x6C1402C0, .loop 2 0x805 1), (0x70144001, .fork 2 1 0x4001),
   (0x74002002, .join 2 1), (0x74000004, .ends), (0x78082002, .couple 1 2 1), (0x78000004, .split), (0x78080008, .gangid 1),
   (0x80082969, .ld 1 2 2 2 1 0x29), (0x84082969, .ldx 1 2 2 2 1 0x29), (0x88082969, .ldAcq 1 2 2 2 1 0x29),
   (0x8C302969, .st 6 2 2 2 1 0x29), (0x90302969, .stRel 6 2 2 2 1 0x29), (0x94082169, .vld 1 2 2 1 0x29),
   (0x98302169, .vst 6 2 2 1 0x29), (0x9C082062, .vlds 1 2 3 1 0), (0xA008206A, .vgath 1 2 3 2 1 0), (0xA430206A, .vscat 6 2 3 2 1 0),
   (0xA8002169, .pref 2 2 1 0x29), (0xAC0000A0, .fenceRw 5), (0xAC0000A4, .fenceAcq 5), (0xAC0000A8, .fenceRel 5),
   (0xAC0000AC, .fenceSs 5), (0xB0082062, .amoAdd 1 2 3 1 0), (0xB0082066, .amoAnd 1 2 3 1 0), (0xB008206A, .amoOr 1 2 3 1 0)]
def words4 : List (BitVec 32 × Instr) :=
  [(0xB008206E, .amoXor 1 2 3 1 0), (0xB0082072, .amoMin 1 2 3 1 0), (0xB0082076, .amoMax 1 2 3 1 0), (0xB008207A, .amoSwp 1 2 3 1 0),
   (0xB4082064, .cas 1 2 3 4), (0xC0082062, .vaddI32 1 2 3 1 0), (0xC0082066, .vsubI32 1 2 3 1 0), (0xC008206A, .vand 1 2 3 1 0),
   (0xC008206E, .vor 1 2 3 1 0), (0xC0082072, .vxor 1 2 3 1 0), (0xC0082076, .vshl 1 2 3 1 0), (0xC008207A, .vshr 1 2 3 1 0),
   (0xC008207E, .vsra 1 2 3 1 0), (0xC4082062, .vaddF32 1 2 3 1 0), (0xC4082066, .vsubF32 1 2 3 1 0), (0xC408206A, .vmulF32 1 2 3 1 0),
   (0xC408206E, .vminF32 1 2 3 1 0), (0xC4082072, .vmaxF32 1 2 3 1 0), (0xC4082076, .vmulI32 1 2 3 1 0), (0xC408207A, .vminI32 1 2 3 1 0),
   (0xC408207E, .vmaxI32 1 2 3 1 0), (0xC8082064, .vfmaF32 1 2 3 4), (0xCC082062, .vcmpEqI32 1 2 3 1 0),
   (0xCC082066, .vcmpLtI32 1 2 3 1 0), (0xCC08206A, .vcmpLtuI32 1 2 3 1 0), (0xCC08206E, .vcmpEqF32 1 2 3 1 0),
   (0xCC082072, .vcmpLtF32 1 2 3 1 0), (0xCC082076, .vcmpLeF32 1 2 3 1 0), (0xCC08207A, .vcmpUnF32 1 2 3 1 0),
   (0xD0082064, .vsel 1 2 3 4), (0xD4082002, .vredAddI32 1 2 1), (0xD4082006, .vredAddF32 1 2 1), (0xD408200A, .vredMaxF32 1 2 1),
   (0xD408200E, .vredMinF32 1 2 1), (0xD4082012, .vredMaxI32 1 2 1), (0xD4082016, .vredMinI32 1 2 1), (0xD408201A, .vredOr 1 2 1),
   (0xD408201E, .vredAnd 1 2 1), (0xD8082062, .vperm 1 2 3 1 0), (0xD8082006, .vbcast 1 2 1)]
def words5 : List (BitVec 32 × Instr) :=
  [(0xD808206A, .vins 1 2 3 1 0), (0xD808206E, .vext 1 2 3 1 0), (0xDC082002, .vrcpF32 1 2 1), (0xDC082006, .vrsqF32 1 2 1),
   (0xDC08200A, .vexp2F32 1 2 1), (0xDC08200E, .vlog2F32 1 2 1), (0xDC082072, .vpackBf16 1 2 3 1 0), (0xDC082076, .vunpackBf16 1 2 3 1 0),
   (0xDC08201A, .vzmask 1 2 1), (0xE0404498, .qpush 2 1 9 6 0), (0xE4404000, .qpop 2 1), (0xE4404384, .qpopStatus 2 1 7),
   (0xE4404008, .qpopTrap 2 1), (0xE440438C, .qpopTrapStatus 2 1 7), (0xE8404000, .qtest 2 1), (0xF0A08002, .evtTerm 5 2 1),
   (0xF0A08186, .evtCnt 5 2 3 1 0), (0xF0A0800A, .evtArm 5 2 1), (0xF0A0400C, .evtRead 5 1), (0xF0A00010, .evtWait 5), (0xF4000000, .nop),
   (0xF4080046, .sysGet 1 6), (0xF4002086, .sysSet 2 6), (0xF40800C0, .time 1), (0xF4002106, .trap 2 6), (0xF4082140, .thrStart 1 2),
   (0xF4082180, .thrStop 1 2), (0xF4000181, .thrStopSelf), (0xF40001C0, .thrYield), (0xF4082200, .thrResume 1 2),
   (0xF4082201, .thrResumeNext 1 2), (0xF4082240, .thrSwap 1 2), (0xF4082241, .thrSwapIn 1 2), (0xF4082280, .nwrite 1 2),
   (0xF40822C3, .arriveClu 1 2), (0xF40822C4, .arriveDeck 1 2), (0xF40822C5, .arriveDev 1 2), (0xF4002300, .wait 2),
   (0xF4082340, .wake 1 2), (0xF4080380, .nwaitNbr 1)]
def words6 : List (BitVec 32 × Instr) :=
  [(0xF4080381, .nwaitNtf 1), (0xF40023C0, .sample 2), (0xF4082400, .launch 1 2), (0xF4082401, .launchWait 1 2),
   (0xF4082402, .launchQuery 1 2), (0xF4082403, .launchAge 1 2), (0xF4082440, .cancelLaunch 1 2), (0xF4082441, .cancelGraph 1 2),
   (0xF4082442, .cancelPhase 1 2), (0xF4082443, .cancelJob 1 2), (0xF4082445, .cancelGraphRewind 1 2), (0xF4082488, .round 1 2 8),
   (0xF40824C0, .park 1 2), (0xF4082509, .memMap 1 2 2 1), (0xF4082519, .memMapAlias 1 2 2 1), (0xF4082529, .memMapRemote 1 2 2 1),
   (0xF4082540, .memUnmap 1 2), (0xF4082589, .memAttr 1 2 2 1), (0xF40005C5, .qfence 5), (0xF4082600, .rwtLoad 1 2),
   (0xF4082640, .rwtCtl 1 2), (0xF4080641, .rwtCtlGet 1), (0xF4082685, .sbind 1 2 5), (0xF40806C5, .snext 1 5),
   (0xF40876CD, .snextStatus 1 7 5), (0xF4080705, .sdone 1 5), (0xF4082740, .amSend 1 2), (0xF4082780, .amHandler 1 2),
   (0xF40827C0, .lnkStatus 1 2), (0xF4082800, .wrtPresent 1 2), (0xF4082801, .wrtPresentToken 1 2), (0xF4082802, .wrtPresentRevoke 1 2),
   (0xF4082840, .wrtSplit 1 2), (0xF4082880, .wrtDelegate 1 2), (0xF40828C0, .wrtSurrender 1 2), (0xF4082909, .wrtQuery 1 2 9),
   (0xF4082940, .codeAdmit 1 2), (0xF4082980, .attest 1 2)]
theorem test_words1 : (words1.all fun x => decodeWord x.1 == some x.2 && encode x.2 == [x.1]) = true := by decide +kernel
theorem test_words2 : (words2.all fun x => decodeWord x.1 == some x.2 && encode x.2 == [x.1]) = true := by decide +kernel
theorem test_words3 : (words3.all fun x => decodeWord x.1 == some x.2 && encode x.2 == [x.1]) = true := by decide +kernel
theorem test_words4 : (words4.all fun x => decodeWord x.1 == some x.2 && encode x.2 == [x.1]) = true := by decide +kernel
theorem test_words5 : (words5.all fun x => decodeWord x.1 == some x.2 && encode x.2 == [x.1]) = true := by decide +kernel
theorem test_words6 : (words6.all fun x => decodeWord x.1 == some x.2 && encode x.2 == [x.1]) = true := by decide +kernel

/-- ONCE takes two words, and a word that may not follow it is refused (R57, R100). -/
theorem test_once_pair : decode (wordBytes 0xFC000000 ++ wordBytes 0x00082064) = some (.once 0x00082064, []) ∧
    decode (wordBytes 0xFC000000 ++ wordBytes 0x74000004) = none ∧ decode (wordBytes 0xFC000000) = none := by decide

/-- The manual's words of a program (24 and 16, "Encodings"), of several majors. -/
theorem test_program_words : ([0xF4180042, 0x14183003, 0x3020FFF8, 0x20204020, 0x6C080180, 0x80385800, 0x406030E0, 0x38408068, 0x8C308800,
    0xF458A2C3, 0xF400B300, 0x80684801, 0x5C188002, 0x74000004].map decodeWord) =
    ([.sysGet 3 2, .andi 3 3 0 3, .movi 4 0xFFF8, .shli 4 4 0 32, .loop 1 3 0, .ld 7 5 2 0 0 0, .faddF32 12 3 7 0 0, .lea 8 8 3 2 0 0,
      .st 6 8 2 0 0 0, .arriveClu 11 10, .wait 11, .ld 13 4 2 0 0 1, .bcNez 3 0 2, .ends] : List Instr).map some := by decide

/-! ### A small machine -/

/-- A thread in slot 0 with window base 0 and size 128, READY at 0x10000. -/
def thread0 : Thread := { Thread.start 0 0x10000#48 0 128 1 0 with uid := 1 }
/-- Core 0 of partition 0 with that thread issuing, and some registers of its file. -/
def stand (regs : List (Nat × Vec)) : State :=
  { State.reset with
    cur := .thread 0 0, threads := [(0, thread0)], cores := [(0, { Core.reset with part := some 0 })], uid := 2
    regs := regs.map fun e => (e.1, Reg.ofVec e.2) }
/-- What an instruction has in flight after its issue: its effects and where it goes on. -/
def issued (s : State) (i : Instr) : Option (List Effect × Addr) :=
  match exec i s with
  | .next u => match (u.thread? 0 0).map Thread.state with
    | some (.inflight f) => some (f.fx, f.next)
    | _ => none
  | _ => none
/-- Its effects alone. -/
def fxOf (s : State) (i : Instr) : Option (List Effect) := (issued s i).map Prod.fst
/-- The trap that an instruction takes at its issue. -/
def trapOf (s : State) (i : Instr) : Option (Nat × Nat × Nat) :=
  match exec i s with
  | .next u => match (u.thread? 0 0).map Thread.state with
    | some (.trapped x) => some (x.code, x.info.toNat, x.pc.toNat)
    | _ => none
  | _ => none
/-- The same machine with a thread in slot 1, which could handle a trap. -/
def standTwo (regs : List (Nat × Vec)) : State := { stand regs with threads := [(0, thread0), (1, { thread0 with uid := 2, base := 128 })] }
/-- Sixteen lanes of 32 bits. -/
def lanesVec (f : Nat → Nat) : Vec := (List.range 16).foldr (fun i v => v ||| BitVec.ofNat 512 (f i * 2 ^ (32 * i))) 0

/-! ### Integers (R70 to R79) -/

theorem test_sub : fxOf (stand [(2, 5), (3, 7)]) (.sub 1 2 3 0 0) = some [.reg 1 0xFFFFFFFFFFFFFFFE] := by decide +kernel
theorem test_mulhu : fxOf (stand [(2, 0xFFFFFFFFFFFFFFFF)]) (.mulhu 1 2 2 0 0) = some [.reg 1 0xFFFFFFFFFFFFFFFE] := by decide +kernel
theorem test_div : fxOf (stand [(6, 0xFFFFFFFFFFFFFFF9), (7, 2)]) (.div 5 6 7 0 0) = some [.reg 5 0xFFFFFFFFFFFFFFFD] := by decide +kernel
theorem test_rem : fxOf (stand [(6, 0xFFFFFFFFFFFFFFF9), (7, 2)]) (.rem 5 6 7 0 0) = some [.reg 5 0xFFFFFFFFFFFFFFFF] := by decide +kernel
theorem test_div_min : fxOf (stand [(6, 0x8000000000000000), (7, 0xFFFFFFFFFFFFFFFF)]) (.div 5 6 7 0 0) = some [.reg 5 0x8000000000000000] := by
  decide +kernel
theorem test_divu_zero : fxOf (stand [(6, 9)]) (.divu 5 6 7 0 0) = some [.reg 5 0xFFFFFFFFFFFFFFFF] := by decide +kernel
theorem test_sltu : fxOf (stand [(2, 0xFFFFFFFFFFFFFFFF), (3, 1)]) (.sltu 1 2 3 0 0) = some [.reg 1 0] := by decide +kernel
theorem test_sra : fxOf (stand [(2, 0x8000000000000000), (3, 127)]) (.sra 1 2 3 0 0) = some [.reg 1 0xFFFFFFFFFFFFFFFF] := by decide +kernel
theorem test_rev : fxOf (stand [(2, 0x0102030405060708)]) (.rev 1 2 0) = some [.reg 1 0x0807060504030201] := by decide +kernel
theorem test_clz : fxOf (stand [(2, 0x00FF)]) (.clz 1 2 0) = some [.reg 1 56] := by decide +kernel
theorem test_sextW : fxOf (stand [(2, 0xAAAA_0000_8000_0000)]) (.sextW 1 2 0) = some [.reg 1 0xFFFFFFFF80000000] := by decide +kernel
theorem test_movi : fxOf (stand []) (.movi 2 0x7FFFF) = some [.reg 2 0xFFFFFFFFFFFFFFFF] := by decide +kernel
theorem test_lea : fxOf (stand [(2, 100), (3, 5)]) (.lea 1 2 3 3 0 0) = some [.reg 1 140] := by decide +kernel
theorem test_sel : fxOf (stand [(2, 11), (3, 22)]) (.sel 1 2 3 4) = some [.reg 1 22] := by decide +kernel
/-- A scalar reads bits 63 to 0 of its source alone (R65). -/
theorem test_add_high : fxOf (stand [(2, 2 ^ 64 + 3), (3, 4)]) (.add 1 2 3 0 0) = some [.reg 1 7] := by decide +kernel

/-! ### Floating point (R67 to R85): flags NX 1, UF 2, OF 4, DZ 8, NV 16 -/

theorem test_faddF32 : fxOf (stand [(2, 0x3F800000), (3, 0x33800000)]) (.faddF32 1 2 3 0 0) = some [.reg 1 0x3F800000, .flags 1] := by decide +kernel
theorem test_fcvt_rne : fxOf (stand [(1, 0x3FF0000010000000)]) (.fcvtF32F64 2 1 0 0) = some [.reg 2 0x3F800000, .flags 1] := by decide +kernel
theorem test_fcvt_rup : fxOf (stand [(1, 0x3FF0000010000000)]) (.fcvtF32F64 2 1 3 0) = some [.reg 2 0x3F800001, .flags 1] := by decide +kernel
theorem test_fclass : fxOf (stand [(1, 0x80000001)]) (.fclassF32 2 1 0) = some [.reg 2 4] := by decide +kernel
theorem test_fdiv_zero : fxOf (stand [(2, 0x3F800000)]) (.fdivF32 1 2 3 0 0) = some [.reg 1 0x7F800000, .flags 8] := by decide +kernel
theorem test_fsqrt : fxOf (stand [(2, 0x4010000000000000)]) (.fsqrtF64 1 2 0) = some [.reg 1 0x4000000000000000, .flags 0] := by decide +kernel
theorem test_ffma_invalid : fxOf (stand [(3, 0x7F800000)]) (.ffmaF32 1 2 3 4) = some [.reg 1 0x7FC00000, .flags 16] := by decide +kernel
theorem test_fcvt_nan : fxOf (stand [(1, 0x7FF8000000000000)]) (.fcvtF32F64 2 1 0 0) = some [.reg 2 0x7FC00000, .flags 0] := by decide +kernel

/-! ### Control (R86 to R99) -/

theorem test_bc_taken : issued (stand [(3, 0xFFFFFFFFFFFFFFFF)]) (.bcLtz 3 0 0x7FFE) = some ([], 0xFFF8) := by decide +kernel
theorem test_bc_not_taken : issued (stand [(3, 1)]) (.bcLtz 3 0 0x7FFE) = some ([], 0x10004) := by decide +kernel
theorem test_call : issued (stand []) (.call 5) = some ([.lk 0x10004], 0x10014) := by decide +kernel
theorem test_jr_misaligned : trapOf (standTwo [(7, 0x20002)]) (.jr 7 0) = some (0x04, 0x20002, 0x10000) := by decide +kernel
theorem test_loop : issued (stand [(3, 8)]) (.loop 3 4 0) =
    some ([.loop 0 { start := 0x10004, stop := 0x10010, count := 8, active := true }], 0x10004) := by decide +kernel
theorem test_loop_skip : (issued (stand []) (.loop 3 4 0)).map Prod.snd = some 0x10014 := by decide +kernel
theorem test_gangid : fxOf { stand [] with threads := [(0, { thread0 with coupled := true, gangPos := 2, gangMask := 15 })] } (.gangid 3) =
    some [.reg 3 0x6F] := by decide +kernel
theorem test_couple_refused : fxOf (stand [(3, 1)]) (.couple 2 3 0) = some [.reg 2 1] := by decide +kernel

/-! ### Vectors (R101 to R112) -/

theorem test_vadd : fxOf (stand [(2, lanesVec fun i => 0xFFFFFFF8 + i % 8), (3, lanesVec fun _ => 9)]) (.vaddI32 1 2 3 0 0) =
    some [.reg 1 (lanesVec fun i => i % 8 + 1)] := by decide +kernel
theorem test_vcmp : fxOf (stand [(3, lanesVec fun _ => 0x3F800000)]) (.vcmpLtF32 1 2 3 0 0) = some [.reg 1 0xFFFF, .flags 0] := by decide +kernel
theorem test_vredAdd : fxOf (stand [(1, lanesVec fun i => i + 1)]) (.vredAddI32 2 1 0) = some [.reg 2 136] := by decide +kernel
theorem test_vperm : fxOf (stand [(4, lanesVec fun i => 100 + i), (5, lanesVec fun i => 15 - i)]) (.vperm 3 4 5 0 0) =
    some [.reg 3 (lanesVec fun i => 115 - i)] := by decide +kernel
theorem test_vrsq : fxOf (stand [(1, lanesVec fun _ => 0x40800000)]) (.vrsqF32 2 1 0) = some [.reg 2 (lanesVec fun _ => 0x3F000000), .flags 0] := by
  decide +kernel
theorem test_vzmask : fxOf (stand [(2, lanesVec fun i => if i % 4 = 0 then 0 else 0x80000000)]) (.vzmask 1 2 0) = some [.reg 1 0x1111] := by decide +kernel
theorem test_vext : fxOf (stand [(3, lanesVec fun i => 7 * i), (7, 0x12)]) (.vext 6 3 7 0 0) = some [.reg 6 14] := by decide +kernel
theorem test_vlog2_one : fxOf (stand [(1, lanesVec fun _ => 0x3F800000)]) (.vlog2F32 2 1 0) = some [.reg 2 0, .flags 0] := by decide +kernel

/-! ### Memory, queues and system (R113 to R148) -/

theorem test_ld_offset : fxOf (stand [(2, 0x1000)]) (.ld 1 2 2 0 0 0x3F) = some [.load 1 (.zero 4) [0xFFC] 4 none] := by decide +kernel
theorem test_st : fxOf (stand [(2, 0x1000), (4, 0x1122334455667788)]) (.st 4 2 1 0 0 1) = some [.store [(0x1002, [0x88, 0x77])] 2 none] := by decide +kernel
theorem test_vgath : (fxOf (stand [(1, 0x1000), (2, lanesVec fun i => i)]) (.vgath 4 1 2 2 0 0)).map (fun l => l.map fun e => match e with
    | .load _ _ a _ _ => a.getD 15 0 | _ => 0) = some [0x103C] := by decide +kernel
theorem test_amo : fxOf (stand [(5, 0x2000), (6, 0xFFFFFFFFFFFFFFFF)]) (.amoAdd 7 5 6 0 1) =
    some [.atomic 7 .add 0x2000 0xFFFFFFFFFFFFFFFF 0 false true] := by decide +kernel
theorem test_sys_window : fxOf (stand []) (.sysGet 2 3) = some [.reg 2 0x800000] := by decide +kernel
theorem test_trap : trapOf (standTwo [(3, 0xABCD)]) (.trap 3 7) = some (0x0D, 0xABCD, 0x10004) := by decide +kernel
theorem test_reg_range : trapOf { standTwo [] with threads := [(0, { thread0 with size := 8 }), (1, { thread0 with base := 128 })] } (.add 1 9 2 0 0) =
    some (0x02, 0x109, 0x10000) := by decide +kernel
theorem test_empty_read : trapOf { standTwo [] with regs := [(3, { Reg.reset with full := false })] } (.add 1 2 3 0 1) = some (0x03, 0x203, 0x10000) := by
  decide +kernel
theorem test_data_lost : trapOf { standTwo [] with regs := [(2, Reg.ofToken (some 5))] } (.movi 1 0) = none ∧
    trapOf { standTwo [] with regs := [(2, Reg.ofToken (some 5))] } (.add 1 2 3 0 0) = some (0x0E, 0x102, 0x10000) := by decide +kernel

/-! ### Completions and arrivals (R26, R32, R91, R128, R138) -/

/-- An instruction in flight that is due. -/
def flight (fx : List Effect) : Flight :=
  { due := 12, least := 12, order := 1, pair := none, sig := [], major := 0, store := false, ends := false, fx := fx, next := 0x10004,
    xfer := .none, kind := 0, posts := [], emptied := [], wasFull := [], checked := false }
/-- The machine 12 cycles on, with the thread of slot 0 in flight. -/
def flying (t : Thread) (fx : List Effect) : State :=
  { stand [] with cur := .none, cycle := 12, arg := { Arg.none with n := 0, m := 0 }, threads := [(0, { t with state := .inflight (flight fx) })] }
/-- A fact about the next state. -/
def after (o : Host.Outcome State Fault Refusal) (p : State → Bool) : Bool := match o with | .next u => p u | _ => false

theorem test_completion : after (exec .instructionCompletion (flying thread0 [.reg 1 7, .flags 17])) (fun u =>
    u.regAt 0 1 == Reg.ofVec 7 && (u.thread? 0 0).map (fun t => (t.state, t.pc, t.fflags)) == some (.ready, 0x10004, 17)) = true := by decide +kernel
theorem test_loop_back : after (exec .instructionCompletion (flying { thread0 with lp0 := { start := 0xFFF0, stop := 0x10000, count := 3, active := true } } []))
    (fun u => (u.thread? 0 0).map (fun t => (t.pc, t.lp0.count, t.lp0.active)) == some (0xFFF0, 2, true)) = true := by decide +kernel
theorem test_thrStart : after (exec .instructionCompletion (flying thread0 [.thrStart 2 64 (0x20000 + 16 * 2 ^ 48)])) (fun u =>
    (u.thread? 0 1).map (fun t => (t.state, t.pc, t.base, t.size)) == some (.ready, 0x20000, 128, 8) && (u.regAt 0 2).val == 0x10000) = true := by
  decide +kernel
theorem test_thrStart_misaligned : after (exec .instructionCompletion (flying thread0 [.thrStart 2 64 0x20002])) (fun u =>
    u.thread? 0 1 == none && (u.regAt 0 2).val == 3) = true := by decide +kernel

/-- CAS w3, [w1], w2, w4 with memory at w1 holding 7, w4 = 7 and w2 = 9: memory becomes 9 and w3 receives 7 (R128). -/
theorem test_cas : after (exec .longLatencyArrival { stand [] with
      cur := .none, cycle := 12, mem := [(0x5000, 7)]
      arrivals := [{ uid := 1, core := 0, slot := 0, part := 0, order := 1, due := 12, rd := 3, ws := none, prod := .atomic .cas 0x5000 9 7,
                     acq := none, rel := none, posts := [], vas := [], bytes := 0, takes := [] }] })
    (fun u => u.regAt 0 3 == Reg.ofVec 7 && u.mem == [(0x5000, 9)]) = true := by decide +kernel

/-! ### Memory, records and numbers -/

/-- Writing what an unlisted byte reads as removes the entry (log 3). -/
theorem test_memory_canonical : ((State.reset.setHomeByte 8 5).setHomeByte 4 1).mem = [(4, 1), (8, 5)] ∧
    (((State.reset.setHomeByte 8 5).setHomeByte 4 1).setHomeByte 8 0).mem = [(4, 1)] := by decide
/-- CRC-32C of the nine ASCII digits (the polynomial's published check value). -/
theorem test_crc : crc32c ((List.range 9).map fun i => BitVec.ofNat 8 (0x31 + i)) = 0xE3069283 := by decide +kernel
/-- The EC8 block decoded by hand under R206, as the encoder of R252 writes it. -/
theorem test_ec8 : encodeBlock 0 0 [0x40, 0xBC, 0x38, 0x00, 0x44, 0x3A, 0xC2, 0x30, 0x38, 0x38, 0x38, 0x38, 0x38, 0x38, 0x38, 0x38] =
    [0x7F058000, 0x40200042, 0x00000009, 0xAAAC9FEA, 0x0000000A] := by decide +kernel
/-- The row sums of R248's worked case: 1.0 to 8.0 gives 36.0, and 2^24 with seven of 1.0 stays 2^24. -/
theorem test_red_sum : ([0x40000000, 0x40400000, 0x40800000, 0x40A00000, 0x40C00000, 0x40E00000, 0x41000000].foldl (fun a x => redStep 0 a x 0) 0x3F800000) = 0x42100000 ∧
    ((List.replicate 7 0x3F800000).foldl (fun a x => redStep 0 a x 0) 0x4B800000) = 0x4B800000 := by decide +kernel

/-- Outside its windows BAR0 reads as all ones; the admission window shows its tag and status (R388, R389). -/
theorem test_bar0 : State.reset.bar0Read 0x2000 = some 0xFF ∧
    (State.bar0Read { State.reset with host := { State.reset.host with tag := 0x1234, status := 7, busy := true } }) 0x80A = some 0x34 ∧
    (State.bar0Read { State.reset with host := { State.reset.host with tag := 0x1234, status := 7, busy := true } }) 0x808 = some 1 := by decide +kernel
/-- A killed core's region of the readback window holds its fenced bit (R400). -/
theorem test_readback_core : (State.reset.setCore 3 { Core.reset with fenced := true }).bar0Read (0x80000 + 0x24000 + 64 * 3 + 1) = some 1 := by decide +kernel
/-- A delivery to a killed core is counted in its record of the device log, whose CRC holds (R141, R317, R322). -/
theorem test_sealed_count : (let u := (({ State.reset with log := [(0, sealVec (packBytes 512 [(0, 1, 0x20), (4, 2, 3)]))] }).setCore 3
      { Core.reset with fenced := true }).lostAt 3
    (u.log.map fun e => (fieldAt e.2 0x28 4, fieldAt e.2 4 2, sealed e.2)) == [(1, 3, true)]) = true := by decide +kernel

/-- SHA-512 of the three letters abc (FIPS 180-4's published example), and P-521's generator lies on its curve (R12). -/
theorem test_sha512 : (sha512 [0x61, 0x62, 0x63]).take 8 = [0xDD, 0xAF, 0x35, 0xA1, 0x93, 0x61, 0x7A, 0xBA] ∧
    (sha512 [0x61, 0x62, 0x63]).drop 60 = [0xA5, 0x4C, 0xA4, 0x9F] ∧ onCurve ecBase = true := by decide +kernel
/-- After a fetch fault at the target of a transfer THR.RESUME.NEXT goes to the word after it, also before what is a ONCE prefix now (R163). -/
theorem test_resume_kept :
    let x : TrapInfo := { code := 6, detail := 0, pc := 0x10000, info := 0x10000, second := 3, flags := 8 }
    (((stand []).setThread 0 1 { thread0 with uid := 2, state := .trapped x, kept := true }).resume 0 1 true).thread? 0 1 =
      some { thread0 with uid := 2, state := .ready, readyAt := 0, pc := 0x10004, kept := false } := by decide +kernel
/-- A poisoned entry that is empty, and that nobody owes a value, is lost all the same (R36). -/
theorem test_poisoned_empty : trapOf { standTwo [] with regs := [(2, { Reg.ofToken (some 5) with full := false })] } (.add 1 2 3 0 0) =
    some (0x0E, 0x102, 0x10000) := by decide +kernel
/-- A read of one that a producer has emptied waits for the new value: the consumer of R328 reads w8 so, and ends (R330). -/
theorem test_poisoned_awaited : ((let s : State := { standTwo [] with regs := [(2, { Reg.ofToken (some 5) with full := false })] }
    match exec (.add 1 2 3 0 0) { s with threads := s.threads ++ [(2, { thread0 with uid := 3, armNbr := some 2 })] } with
    | .next u => (u.thread? 0 0).map Thread.state
    | _ => none) == some (.blocked (.regs [2]))) = true := by decide +kernel
/-- The first bytes of HMAC-SHA-512 of RFC 4231's case 2, key Jefe (R370). -/
theorem test_hmac : (hmac512 [0x4A, 0x65, 0x66, 0x65] ([0x77, 0x68, 0x61, 0x74, 0x20, 0x64, 0x6F, 0x20, 0x79, 0x61, 0x20, 0x77, 0x61, 0x6E, 0x74, 0x20, 0x66, 0x6F, 0x72] ++
    [0x20, 0x6E, 0x6F, 0x74, 0x68, 0x69, 0x6E, 0x67, 0x3F])).take 4 = [0x16, 0x4B, 0x7A, 0x7B] := by decide +kernel

/-! ### From reset -/

/-- The first step after reset runs the word that is placed where it fetches (log 1). -/
theorem test_step_movi : after (step (State.reset.withFetchWord 32 0x3017FFFF)) (fun u => match (u.thread? 0 0).map Thread.state with
    | some (.inflight f) => f.fx == [.reg 2 0xFFFFFFFFFFFFFFFF] && f.due == 12 | _ => false) = true := by decide +kernel
theorem test_reset_word : decodeTableWord 32 0x3017FFFF = some (.movi 2 0x7FFFF) := by decide

end

end Sys2Proof.Tests
end

