-- ==== Sys2Proof/Tests/Witnesses.lean ====
section
/-! SUPPORT. For each obligation, states and operands that meet its hypotheses, clause by clause: none of them speaks of nothing. -/
namespace Sys2Proof.Tests
open Sys2Proof Sys2Proof.Machine Sys2Proof.Slice0

section
set_option Elab.async false

/-! ### Issuing -/

/-- The thread of slot 0 of core 0 issues, and the listed registers of its window may be read and written. -/
def Good (s : State) (t : Thread) (rs : List Nat) : Prop :=
  Issuing s 0 0 t ∧ ∀ r ∈ rs, Readable s 0 t r ∧ Writable s 0 t r

theorem good {s : State} {t : Thread} {rs : List Nat} (h1 : s.cur = .thread 0 0) (h2 : t.base + t.size ≤ 2048)
    (h3 : s.thread? 0 0 = some t) (h4 : t.state = .ready)
    (h5 : (rs.all fun r => decide (r < t.size) && (s.regAt 0 (t.base + r)).full && !(s.regAt 0 (t.base + r)).poison &&
      decide ((s.regAt 0 (t.base + r)).flips < 2)) = true) : Good s t rs := by
  refine ⟨⟨h1, by decide +kernel, h2, h3, h4⟩, fun r hr => ?_⟩
  have h := List.all_eq_true.mp h5 r hr
  simp only [Bool.and_eq_true, decide_eq_true_eq, Bool.not_eq_true'] at h
  obtain ⟨⟨⟨a, b⟩, c⟩, d⟩ := h
  exact ⟨⟨a, b, c, d⟩, ⟨a, .inl b⟩⟩

/-- Issuing, Readable and Writable hold together of registers 0 to 8 on the small machine: every statement of an issue whose
hypotheses are these. -/
theorem witness_issue : Good (stand []) thread0 [0, 1, 2, 3, 4, 5, 6, 7, 8] := good rfl (by decide +kernel) rfl rfl (by decide +kernel)

theorem witness_IntegerBinaryIssues : Good (stand [(2, 5), (3, 7)]) thread0 [1, 2, 3] ∧
    (0 : BitVec 6) ++ (1 : BitVec 7) ++ (2 : BitVec 7) ++ (3 : BitVec 7) ++ BitVec.ofNat 3 1 ++ (0 : BitVec 1) ++ (0 : BitVec 1) ≠ 0#32 :=
  ⟨good rfl (by decide +kernel) rfl rfl (by decide +kernel), by decide +kernel⟩
theorem witness_IntegerOtherIssues : Good (stand []) thread0 [0, 1, 2, 3, 4, 5, 6, 7, 8] := witness_issue
theorem witness_FloatIssues : Good (stand []) thread0 [0, 1, 2, 3, 4, 5, 6, 7, 8] := witness_issue
theorem witness_VectorLaneIssues : Good (stand []) thread0 [0, 1, 2, 3, 4, 5, 6, 7, 8] := witness_issue
theorem witness_VectorMoveIssues : Good (stand []) thread0 [0, 1, 2, 3, 4, 5, 6, 7, 8] := witness_issue
theorem witness_ScalarMemoryIssues : Good (stand []) thread0 [0, 1, 2, 3, 4, 5, 6, 7, 8] := witness_issue
theorem witness_VectorMemoryIssues : Good (stand []) thread0 [0, 1, 2, 3, 4, 5, 6, 7, 8] := witness_issue
theorem witness_OrderAndAtomicIssues : Good (stand []) thread0 [0, 1, 2, 3, 4, 5, 6, 7, 8] := witness_issue
theorem witness_SystemRegisterIssues : Good (stand []) thread0 [0, 1, 2, 3, 4, 5, 6, 7, 8] := witness_issue
theorem witness_SysIssues : Good (stand []) thread0 [0, 1, 2, 3, 4, 5, 6, 7, 8] := witness_issue
theorem witness_MappingIssues : Good (stand []) thread0 [0, 1, 2, 3, 4, 5, 6, 7, 8] := witness_issue

/-- The machine with the word 0x00082064 where it fetches, its thread issuing. -/
def placed : State := { State.reset.withFetchWord 32 0x00082064 with cur := .thread 0 0 }
theorem witness_placed : Good placed thread0 [0, 1, 2, 3, 4] := good rfl (by decide +kernel) (by decide +kernel) rfl (by decide +kernel)

/-- LDPC: a misaligned E, one that may be read, one on a lost line, and one that cannot be fetched. -/
theorem witness_LdpcIssues : Good placed thread0 [1] ∧ 0x10004 % 8 ≠ 0 ∧
    (match placed.fetchBytes 0 0x10000 8 with | .ok _ => true | _ => false) = true ∧
    (match State.fetchBytes { placed with lost := List.range 2 } 0 0x10000 8 with | .lost => true | _ => false) = true ∧
    (match (stand []).fetchBytes 0 0x10000 8 with | .fault => true | _ => false) = true :=
  ⟨good rfl (by decide +kernel) (by decide +kernel) rfl (by decide +kernel), by decide +kernel⟩

/-! ### Control transfer -/

/-- Registers 0 to 2 hold 0, 1 and −1; register 3 is empty; registers 4 and 5 are poisoned, full and empty. -/
def signs : State :=
  { stand [(1, 1), (2, 0xFFFFFFFFFFFFFFFF)] with
    regs := (stand [(1, 1), (2, 0xFFFFFFFFFFFFFFFF)]).regs ++ [(3, { Reg.reset with full := false }), (4, Reg.ofToken (some 9)), (5, { Reg.ofToken none with full := false })] }
theorem witness_BranchIssues : Good signs thread0 [0, 1, 2] ∧ thread0.loopEndsAt thread0.pc = false ∧ (regWord signs 0 thread0 0).toInt = 0 ∧
    (regWord signs 0 thread0 1).toInt = 1 ∧ (regWord signs 0 thread0 2).toInt = -1 ∧ (signs.regAt 0 1).poison = false ∧ (signs.regAt 0 1).full = true ∧
    (signs.regAt 0 3).poison = false ∧ (signs.regAt 0 3).full = false ∧ (signs.regAt 0 4).poison = true ∧ (signs.regAt 0 4).full = true ∧
    (signs.regAt 0 5).poison = true ∧ (signs.regAt 0 5).full = false :=
  ⟨good rfl (by decide +kernel) rfl rfl (by decide +kernel), by decide +kernel⟩
/-- An aligned target, a misaligned one, and an aligned link. -/
theorem witness_JumpIssues : Good (stand [(1, 0x20000), (2, 0x20002)]) thread0 [1, 2] ∧ thread0.loopEndsAt thread0.pc = false ∧
    ((regWord (stand [(1, 0x20000), (2, 0x20002)]) 0 thread0 1).setWidth 48 : Addr).toNat % 4 = 0 ∧
    ((regWord (stand [(1, 0x20000), (2, 0x20002)]) 0 thread0 2).setWidth 48 : Addr).toNat % 4 ≠ 0 ∧ thread0.lk.toNat % 4 = 0 :=
  ⟨good rfl (by decide +kernel) rfl rfl (by decide +kernel), by decide +kernel⟩
theorem witness_LoopIssues : Good signs thread0 [0, 1] ∧ thread0.loopEndsAt thread0.pc = false ∧ regWord signs 0 thread0 0 = 0 ∧ regWord signs 0 thread0 1 ≠ 0 :=
  ⟨good rfl (by decide +kernel) rfl rfl (by decide +kernel), by decide +kernel⟩
theorem witness_StrandAndGangIssues : Good (stand []) thread0 [1] ∧ thread0.loopEndsAt thread0.pc = false :=
  ⟨good rfl (by decide +kernel) rfl rfl (by decide +kernel), by decide +kernel⟩
/-- The member on core 2 of a gang, here placed on core 0. -/
def member : Thread := { thread0 with coupled := true, gangPos := 2, gangMask := 15 }
theorem witness_GangidGivesItsGang : Good { stand [] with threads := [(0, member)] } member [3] ∧ member.coupled = true ∧ member.gangMask = 15 ∧ member.gangPos = 2 :=
  ⟨good rfl (by decide +kernel) rfl rfl (by decide +kernel), rfl, rfl, rfl⟩

/-- A thread that waits in COUPLE with mask 3 in slot 0 of core 1. -/
def waiter : Thread := { thread0 with uid := 9, state := .blocked (.couple 2 3 0 []) }
/-- Cores 0 and 1 of a cluster, of one partition, with it. -/
def meeting (a : Vec) (t : Thread) : State :=
  { stand [(3, a)] with threads := [(0, t), (64, waiter)], cores := [(0, { Core.reset with part := some 0 }), (1, { Core.reset with part := some 0 })] }
/-- A refused mask, a thread already coupled, and a meeting. -/
theorem witness_CoupleMeets : Good (meeting 1 thread0) thread0 [2, 3] ∧ ((List.range 4).filter fun n => (1 : BitVec 4).getLsbD n).length < 2 ∧
    Good (meeting 3 member) member [2, 3] ∧ 2 ≤ ((List.range 4).filter fun n => (3 : BitVec 4).getLsbD n).length ∧ (3 : BitVec 4).getLsbD (0 % 4) = true ∧
    Good (meeting 3 thread0) thread0 [2, 3] ∧ regWord (meeting 3 thread0) 0 thread0 3 = 3 ∧
    (∀ n < 4, n ≠ 0 → (3 : BitVec 4).getLsbD n = true → ((meeting 3 thread0).core n).part = some 0 ∧
      ∃ v d since sig, (meeting 3 thread0).thread? n 0 = some v ∧ v.state = .blocked (.couple d 3 since sig)) ∧
    (∀ n < 4, n ≠ 0 → (3 : BitVec 4).getLsbD n = false → (meeting 3 thread0).thread? n 0 = none) := by
  refine ⟨good rfl (by decide +kernel) rfl rfl (by decide +kernel), by decide +kernel, good rfl (by decide +kernel) rfl rfl (by decide +kernel), by decide +kernel, by decide +kernel,
    good rfl (by decide +kernel) rfl rfl (by decide +kernel), by decide +kernel, ?_, by decide +kernel⟩
  intro n hn h0 hm
  have : n = 1 := by
    rcases n with _ | _ | _ | _ | n
    · exact absurd rfl h0
    · rfl
    · exact absurd hm (by decide +kernel)
    · exact absurd hm (by decide +kernel)
    · omega
  subst this
  exact ⟨by decide +kernel, waiter, 2, 0, [], by decide +kernel, rfl⟩

/-! ### Queues, events, system -/

/-- A command word for q0, and one thread with output channel q8 of a graph. -/
def pushing (q : Nat) : State := { stand [(4, BitVec.ofNat 512 ((q / 2 + 1) * 2 ^ 248))] with ctxs := [(0, { placedWarrant.context 1 0 0 none [0] 0 none with
  chans := [(5 * 256 + 7, { depth := 2, entries := [], input := none, output := some 1, killed := none, sealed_ := none, held := 0, diverted := 0 })] })] }
def producer : Thread := { thread0 with chans := [(0, { chan := 7, dir := 2, depth := 2, ended := false, graph := 5 })] }
theorem witness_QpushIssues : (∀ q ∈ [(0 : BitVec 5), 2, 4], Good (pushing q.toNat) thread0 [1, 4, 5, 6] ∧ (pushing q.toNat).cmdRoom 0 q.toNat ≠ 0 ∧
      ((regVec (pushing q.toNat) 0 thread0 4).setWidth 256 : BitVec 256).toNat / 2 ^ 248 = q.toNat / 2 + 1 ∧
      ((regVec (pushing q.toNat) 0 thread0 4).setWidth 256 : BitVec 256).toNat / 2 ^ 224 % 16 = 0) ∧
    Good { pushing 0 with threads := [(0, producer)] } producer [1, 4] ∧ producer.queueOf 8 = .output (5 * 256 + 7) ∧
    State.chanRoom { pushing 0 with threads := [(0, producer)] } 0 (5 * 256 + 7) ≠ 0 := by
  refine ⟨?_, good rfl (by decide +kernel) rfl rfl (by decide +kernel), rfl, by decide +kernel⟩
  intro q hq
  fin_cases hq <;> exact ⟨good rfl (by decide +kernel) rfl rfl (by decide +kernel), by decide +kernel⟩

/-- Queues q1, q6 and q7 with a record each. -/
def popping (v : Vec) : State := { stand [] with cores := [(0, { Core.reset with part := some 0, comps := [(1, [v])], q6 := [v], q7 := [v, 3] })] }
theorem witness_QpopIssues : Good (popping 0) thread0 [1, 2] ∧ HeadOf (popping 0) 0 1 0 [] ∧ HeadOf (popping 0) 0 6 0 [] ∧ HeadOf (popping 0) 0 7 0 [3] ∧
    fieldAt (0 : Vec) 4 1 = 0 :=
  ⟨good rfl (by decide +kernel) rfl rfl (by decide +kernel), .inl ⟨by decide +kernel, by decide +kernel⟩, .inr (.inl ⟨rfl, by decide +kernel⟩), .inr (.inr ⟨rfl, by decide +kernel⟩), by decide +kernel⟩
theorem witness_QpopTrapTakesTheFault : Good (popping (packBytes 512 [(4, 1, 5)])) thread0 [1, 2] ∧
    ((popping (packBytes 512 [(4, 1, 5)])).core 0).compsOf (1 : BitVec 5).toNat = [packBytes 512 [(4, 1, 5)]] ∧ fieldAt (packBytes 512 [(4, 1, 5)]) 4 1 ≠ 0 :=
  ⟨good rfl (by decide +kernel) rfl rfl (by decide +kernel), by decide +kernel, by decide +kernel⟩
theorem witness_QueueTestAndEventIssues : Good (stand []) thread0 [1, 2, 3] ∧ thread0.queueOf 0 ≠ .invalid ∧ thread0.queueOf 16 = .invalid :=
  ⟨good rfl (by decide +kernel) rfl rfl (by decide +kernel), by decide +kernel, by decide +kernel⟩
theorem witness_TrapTakesItsTrap : Good (standTwo []) thread0 [3] ∧ thread0.coupled = false ∧ (∀ q ∈ (standTwo []).posts, thread0.owes q = false) ∧
    (standTwo []).hasHandler 0 0 0 = true :=
  ⟨good rfl (by decide +kernel) rfl rfl (by decide +kernel), rfl, by decide +kernel, by decide +kernel⟩

/-- Core 1 is held by no partition, core 2 was killed; a value for w5 waits in the landing queue; the notify latch holds a value. -/
def neighbours : State :=
  { stand [(2, 1), (3, 2)] with
    cores := [(0, { Core.reset with part := some 0, landing := [{ slot := 0, reg := 5, from_ := 3, val := some 7 }] }), (2, { Core.reset with fenced := true })] }
theorem witness_NeighbourIssues : Good neighbours thread0 [1, 2, 3] ∧ (neighbours.core 0).part = some 0 ∧ (neighbours.core 1).part ≠ some 0 ∧
    (neighbours.core 1).fenced = false ∧ (neighbours.core 2).fenced = true ∧ (regWord neighbours 0 thread0 2).toNat = 1 ∧ thread0.armNbr = none ∧
    (neighbours.core 0).landing.find? (fun l => l.slot == 0 && l.reg == 4) = none ∧
    (neighbours.core 0).landing.find? (fun l => l.slot == 0 && l.reg == 5) = some { slot := 0, reg := 5, from_ := 3, val := some 7 } ∧
    thread0.armNtf = none ∧ thread0.notify = none ∧
    Good { stand [] with threads := [(0, { thread0 with notify := some 4 })] } { thread0 with notify := some 4 } [1] :=
  ⟨good rfl (by decide +kernel) rfl rfl (by decide +kernel), by decide +kernel, by decide +kernel, by decide +kernel, by decide +kernel, by decide +kernel, rfl, by decide +kernel, by decide +kernel, rfl, rfl,
    good rfl (by decide +kernel) rfl rfl (by decide +kernel)⟩
/-- The top bit set; a scope with no barrier; the generation passed; the present generation. -/
theorem witness_WaitIssues : Good (stand [(1, 2 ^ 63), (2, 0x10030), (3, 0x30)]) thread0 [0, 1, 2, 3] ∧ (2 ^ 63) / 2 ^ 63 = 1 ∧ 0 / 16 % 8 < 3 ∧
    0x10030 / 16 % 8 = 3 ∧ ((stand []).barrier (barrierKey 0 3 (barrierUnit 3 0) 0)).gen ≠ 0x10030 / 2 ^ 16 % 2 ^ 16 ∧
    ((stand []).barrier (barrierKey 0 3 (barrierUnit 3 0) 0)).gen = 0x30 / 2 ^ 16 % 2 ^ 16 :=
  ⟨good rfl (by decide +kernel) rfl rfl (by decide +kernel), by decide +kernel⟩

/-! ### Launches, streams, messages, the Keystone -/

/-- A context with an ended launch of ID 2 beside the running one. -/
def working : State := { placed with
  ctxs := placed.ctxs.map fun e => (e.1, { e.2 with launches := e.2.launches ++ [(2, { placedLaunch with state := 4 })], nextLaunch := 3 }), regs := [(4, Reg.ofVec 2)] }
def workCtx : Ctx := ((working.ctx? 0).getD (placedWarrant.context 0 0 0 none [] 0 none))
theorem witness_WorkIssues : Good working thread0 [1, 2, 4] ∧ working.ctx? 0 = some workCtx ∧ working.launchRoom 0 (recQueue (regVec working 0 thread0 2)) = true ∧
    working.workNamed 0 (regWord working 0 thread0 4) = some (0, 2) ∧ workCtx.levelCount 0 2 = 0 ∧ tabGet? workCtx.launches thread0.launch = some placedLaunch ∧
    recKind placedLaunch.record ≠ 2 ∧ (regWord working 0 thread0 2).toNat % 256 = 0 :=
  ⟨good rfl (by decide +kernel) (by decide +kernel) rfl (by decide +kernel), by decide +kernel⟩

/-- A record of a task with its checkpoint area at 0x40000000, where 2 MiB are mapped. -/
def taskLaunch : Launch := { placedLaunch with record := packBytes 512 [(0, 1, 1), (1, 1, 2), (0x30, 8, 0x40000000)], site := some (0, 0) }
def tasking : State :=
  let s : State := match placed.mapPage 0 0x40000000 5 0 1 false true with | some s => s | none => placed
  { s with ctxs := s.ctxs.map fun e => (e.1, { e.2 with launches := [(1, taskLaunch)] }) }
def taskCtx : Ctx := ((tasking.ctx? 0).getD (placedWarrant.context 0 0 0 none [] 0 none))
theorem witness_RoundBegins : Good tasking thread0 [0, 1, 2, 3, 4] ∧ tasking.ctx? 0 = some taskCtx ∧ tabGet? taskCtx.launches thread0.launch = some taskLaunch ∧
    recKind taskLaunch.record = 2 ∧ recSuper taskLaunch.record = false ∧ taskLaunch.site = some (0, 0) ∧ (regWord tasking 0 thread0 2).toNat = 0 ∧ (3 : BitVec 6).toNat ≤ thread0.size ∧
    tasking.checkRange 0 0 (checkpointSlot (recArg taskLaunch.record 2) (taskLaunch.rounds + 1)) 0x100000 1 = none :=
  ⟨good rfl (by decide +kernel) (by decide +kernel) rfl (by decide +kernel), by decide +kernel, by decide +kernel, by decide +kernel, by decide +kernel, rfl, by decide +kernel⟩

/-- A thread with stream s1 bound, two elements buffered. -/
def streaming : Thread := { thread0 with streams := [(1, { key := 4, seq := 0, ended := false, faulted := false, record := 0, fault := 0, esz := 3, k := 5, total := 9, buffer := [7, 8] })] }
/-- A stream with elements; no command of the thread on any queue; a peer context on the device itself. -/
theorem witness_StreamAndMessageIssues : Good { stand [] with threads := [(0, streaming)] } streaming [1, 2, 3] ∧
    (tabGet? streaming.streams 1).map Stream.buffer = some [7, 8] ∧ (∀ i < 3, (stand []).commandsOf thread0.uid (2 * i) = false) ∧
    Good { placed with regs := [(3, Reg.ofVec (BitVec.ofNat 512 Config.deviceId.toNat))] } thread0 [2, 3] ∧
    State.peerContext placed 0 ((BitVec.ofNat 64 Config.deviceId.toNat).toNat % 256) 0 = true := by
  refine ⟨good rfl (by decide +kernel) rfl rfl (by decide +kernel), rfl, by decide +kernel, good rfl (by decide +kernel) (by decide +kernel) rfl ?_, ?_⟩
  · decide +kernel
  · have h : Config.deviceId.toNat < 256 := Config.deviceId.isLt
    have e : (BitVec.ofNat 64 Config.deviceId.toNat).toNat % 256 = Config.deviceId.toNat := by
      rw [BitVec.toNat_ofNat]; omega
    have hc : ∃ x, placed.ctx? 0 = some x ∧ x.devices = BitVec.allOnes 256 := ⟨(placed.ctx? 0).getD (placedWarrant.context 0 0 0 none [] 0 none), by decide +kernel, by decide +kernel⟩
    obtain ⟨x, h1, h2⟩ := hc
    rw [e, State.peerContext, h1]
    simp only [h2, BitVec.getLsbD_allOnes]
    simp [h]

/-- A mapped buffer at 0x40000000, and an image header of zeros there. -/
def asking : State := { tasking with regs := [(2, Reg.ofVec 0x40000000)] }
theorem witness_KeystoneIssues : Good asking thread0 [1, 2, 3] ∧
    (∀ i < 10, ∀ k ∈ [(0 : Kind), 1], (match asking.check 0 0 ((regWord asking 0 thread0 2).toNat + 64 * i) 64 k true with | .ok _ => true | _ => false) = true) ∧
    (imageBytes (asking.virtBytes 0 0 (regWord asking 0 thread0 2).toNat 64) + 63) / 64 = 1 :=
  ⟨good rfl (by decide +kernel) (by decide +kernel) rfl (by decide +kernel), by decide +kernel, by decide +kernel⟩


/-! ### ONCE, completions, arrivals, landings, visibility -/

theorem witness_OnceIsThePrefixedInstruction : Good (stand [(2, 5), (3, 7)]) thread0 [1, 2, 3] ∧ thread0.coupled = false ∧
    thread0.lp0.active = false ∧ thread0.lp1.active = false ∧ decodeWord 0x00082064 = some (.sub 1 2 3 0 0) ∧ decodeWord 0x74000020 = none :=
  ⟨good rfl (by decide) rfl rfl (by decide +kernel), rfl, rfl, rfl, by decide, by decide⟩

/-- A thread in flight with some effects, one with loop level 1 at its last word, and one whose core has a scratchpad. -/
def flyer (t : Thread) (fx : List Effect) : Thread := { t with state := .inflight (flight fx) }
theorem witness_Completing (fx : List Effect) : Completing (flying thread0 fx) 0 0 (flyer thread0 fx) (flight fx) ∧ Straight (flyer thread0 fx) (flight fx) :=
  ⟨⟨⟨rfl, rfl⟩, by decide, rfl, rfl, Nat.le_refl _, rfl, rfl, rfl, rfl, show (0 : Nat) ≠ 13 by decide, rfl⟩, ⟨⟨rfl, rfl, rfl, rfl⟩, rfl, .inl (show 0 < 0x17 by decide), rfl⟩⟩
def looping (n : Word) : Thread := { thread0 with lp1 := { start := 0xFF00, stop := 0x10000, count := n, active := true } }
theorem witness_CompletionTakesEffect :
    (∀ fx, Completing (flying thread0 fx) 0 0 (flyer thread0 fx) (flight fx) ∧ Straight (flyer thread0 fx) (flight fx)) ∧
    (flight [.reg 2047 7, .flags 17]).fx = [.reg 2047 7, .flags 17] ∧ (flight [.reg 0 7]).fx = [.reg 0 7] ∧
    (∀ n, Completing (flying (looping n) []) 0 0 (flyer (looping n) []) (flight [])) ∧
    (looping 0).lp1.active = true ∧ (looping 0).lp1.stop = thread0.pc ∧ (looping 0).lp1.count ≠ 1 ∧ (looping 1).lp1.count = 1 ∧ (looping 1).lp0.active = false :=
  ⟨witness_Completing, rfl, rfl, fun _ => ⟨⟨rfl, rfl⟩, by decide, rfl, rfl, Nat.le_refl _, rfl, rfl, rfl, rfl, show (0 : Nat) ≠ 13 by decide, rfl⟩, rfl, rfl, by decide, rfl, rfl⟩

/-- The same with a scratchpad of 64 KiB and a thread that can handle a trap. -/
def accessing (fx : List Effect) : State :=
  { flying thread0 fx with cores := [(0, { Core.reset with part := some 0, steps := 1 })], threads := [(0, flyer thread0 fx), (1, { thread0 with uid := 2, base := 128 })] }
/-- The first byte of the core's own scratchpad, and an address that nothing maps. -/
def own : Word := 0xFFF800000000
theorem witness_MemoryAccessCompletes :
    (∀ fx, Completing (accessing fx) 0 0 (flyer thread0 fx) (flight fx) ∧ Straight (flyer thread0 fx) (flight fx)) ∧
    (accessing []).checkAll 0 0 [own.toNat] 8 0 true = .ok [scratchHome] ∧ (accessing []).checkAll 0 0 [own.toNat] 8 1 true = .ok [scratchHome] ∧
    ((accessing []).pend.all fun e => e.uid != 1) = true ∧ (flyer thread0 []).buffer.length < 7 ∧
    (accessing []).checkAll 0 0 [0x1000] 8 0 true = .error (5, 0, 0x1000) ∧ (accessing []).checkAll 0 0 [0x1000] 8 1 true = .error (5, 1, 0x1000) ∧
    (accessing []).hasHandler 0 0 0 = true :=
  ⟨fun _ => ⟨⟨⟨rfl, rfl⟩, by decide, rfl, rfl, Nat.le_refl _, rfl, rfl, rfl, rfl, show (0 : Nat) ≠ 13 by decide, rfl⟩, (witness_Completing _).2⟩, by rfl, by rfl, rfl, by decide, by rfl, by rfl, by decide⟩

/-- An outstanding arrival for entry 3 of core 0. -/
def owing (p : Producer) : State :=
  { stand [] with cycle := 12, arg := { Arg.none with n := 0 }, mem := [(0x5000, 7)]
                  arrivals := [{ uid := 1, core := 0, slot := 0, part := 0, order := 1, due := 12, rd := 3, ws := none, prod := p, acq := none, rel := none, posts := [], vas := [], bytes := 0, takes := [] }] }
theorem witness_ArrivalDelivers :
    (∀ p ∈ [Producer.value 5 none, .token (some 9) none, .load .line ((List.range 64).map fun i => 0x5000 + i) [(0x5001, 3)], .atomic .cas 0x5000 9 7],
      (owing p).mayArrive 0 = true ∧ (owing p).savedOf 0 1 = none) ∧
    (owing (.value 5 none)).homeLost (((List.range 64).map fun i => 0x5000 + i).filter fun x => (tabGet? [(0x5001, (3 : Byte))] x).isNone) = none ∧
    (owing (.value 5 none)).badScratch (((List.range 64).map fun i => 0x5000 + i).filter fun x => (tabGet? [(0x5001, (3 : Byte))] x).isNone) = none ∧
    (owing (.value 5 none)).homeLost (eight 0x5000) = none ∧ (owing (.value 5 none)).badScratch (eight 0x5000) = none := by decide +kernel

/-- A post, a value sent to a thread that has armed w5 or not, and one to a slot that is FREE; a wake. -/
def landing (arm : Option Nat) (slot : Nat) : State :=
  let d (reg : Nat) (v : Vec) : Delivery := { core := 0, slot := slot, reg := reg, from_ := 3, src := 9, part := 0, due := 12, order := 1, val := some v }
  { stand [] with
    cycle := 12, arg := { Arg.none with n := 0 }, threads := [(0, { thread0 with armNbr := arm, armNtf := arm })], nwrites := [d 5 7], wakes := [d 0 (widen 6)]
    posts := [{ dest := { from_ := 2, core := 0, slot := 0, entry := 2047, hop := 1 }, due := 12, leader := 1, val := some 4, ready := true, emptied := true,
                uid := 1, src := 9, pair := 1 }] }
theorem witness_PostsAndNotifiesLand :
    ((landing none 0).posts[0]?).map (fun q => (q.ready, q.emptied, q.due, q.val, q.dest.entry)) = some (true, true, 12, some 4, 2047) ∧ (landing none 0).savedOf 0 1 = none ∧
    (∀ x ∈ [(some 5, 0), (none, 0), (none, 1)], (landing x.1 x.2).mayLandNwrite 0 = true ∧ ((landing x.1 x.2).nwrites[0]?).map Delivery.val = some (some 7) ∧
      ((landing x.1 x.2).wakes[0]?).map Delivery.val = some (some (widen 6)) ∧ ((landing x.1 x.2).core 0).fenced = false ∧ (landing x.1 x.2).swappedAt 0 x.2 = none) ∧
    ((landing (some 5) 0).thread? 0 0).map (fun t => (t.armNbr, t.armNtf, t.base)) = some (some 5, some 5, 0) ∧
    ((landing none 0).thread? 0 0).map (fun t => (t.armNbr, t.armNtf)) = some (none, none) ∧ (landing none 1).thread? 0 1 = none := by decide +kernel

/-- A committed entry of two bytes; a started command with two element writes. -/
def showing : State :=
  { stand [] with
    cycle := 12, arg := { Arg.none with n := 0 }, pend := [{ writes := [(0x5000, 1), (0x5001, 2)], parts := [], order := 1, due := 12, rel := none, uid := 1, core := 0, part := 0 }] }
def command (queue : Nat) (cmd : BitVec 256) (opr : Vec) : CmdEntry :=
  { cmd := cmd, opr := opr, crc := crc32c (natBytes 32 cmd.toNat ++ natBytes 64 opr.toNat), seq := 0, core := 0, slot := 0, queue := queue, uid := 1, part := 0, launch := 1,
    base := 0, size := 128, order := 0, bound := false, fired := none, cancelled := false, literal := false, since := 0, cut := false }
def writing (e : CmdEntry) (l : List ElemWrite) : State :=
  { stand [] with cycle := 12, arg := { Arg.none with n := 0, flag := true }, active := [(0, Active.new e 12 12 l (Outcome.plain 0 0 0))] }
theorem witness_StoreBecomesVisible : showing.mayShow 0 = true ∧ tabSorted (showing.pend.flatMap Store.writes) = true ∧
    (∀ w ∈ showing.pend.flatMap Store.writes, homeDevice w.1 = none ∧ w.1 < scratchHome) ∧
    (writing (command 2 0 0) [{ addr := 0x5000, bytes := [1, 2] }, { addr := 0x5002, bytes := [3, 4] }]).mayShowElement 0 = true ∧
    (writing (command 2 0 0) [{ addr := 0x5000, bytes := [1, 2] }, { addr := 0x5002, bytes := [3, 4] }]).streamOf 0 = none := by decide +kernel

/-! ### Records, strands, queues and messages -/

/-- A record on its way to q6; a COUPLE that has waited 65,536 cycles. -/
def recording : State :=
  { stand [] with
    cycle := 65536, arg := { Arg.none with n := 0, m := 0 }, threads := [(0, { thread0 with state := .blocked (.couple 1 3 0 []) })]
    traps := [{ core := 0, slot := 0, uid := 1, part := 0, cycle := 12, body := packBytes 512 [(0, 1, 5)] }] }
/-- A strand of launch 1 in the deque of core 0, whose record lets its threads take strands. -/
def stealing : State :=
  { stand [] with
    arg := { Arg.none with n := 0, m := 1 }
    ctxs := [(0, { placedWarrant.context 1 0 0 none [0] 0 none with launches := [(1, { placedLaunch with record := packBytes 512 [(0, 1, 1), (1, 1, 4)] })] })]
    cores := [(0, { Core.reset with part := some 0, deque := [{ arm := 0x20000, counter := 0x5000, base := 0, size := 128, part := 0, launch := 1, core := 0 }] })] }
theorem witness_RecordsTimeoutsAndStrands : recording.mayEnqueue 0 = true ∧ (recording.thread? 0 0).map Thread.state = some (.blocked (.couple 1 3 0 [])) ∧
    0 + 65536 ≤ recording.cycle ∧
    (stealing.stealPick 0).map (fun x => (x.1, x.2.1.arm, x.2.2)) = some (0, 0x20000, 0) ∧ stealing.thread? 0 1 = none ∧ stealing.ending 0 = false := by decide +kernel

/-- A backlog behind q7, a held end-of-stream token, a message on its way, one in the arrival queue, one diverted. -/
def messaging (handlers : Option (List Word × Nat × Nat)) : State :=
  let m : Message := { dev := 1, core := 2, slot := 3, target := 0, handler := 0, payload := 7, part := 0, order := 1 }
  { stand [] with
    arg := { Arg.none with n := 0, m := 5 * 256 + 7 }, messages := [m]
    ctxs := [(0, { placedWarrant.context 1 0 0 none [0] 0 none with
      chans := [(5 * 256 + 7, { depth := 1, entries := [.data 1], input := none, output := none, killed := none, sealed_ := none, held := 1, diverted := 0 })] })]
    cores := [(0, { Core.reset with part := some 0, backlog := [5, 6], handlers := handlers, arrivals := [m] })] }
def replaying : State :=
  { messaging (some ([0x30000], 2040, 8)) with ctxs := [(0, { placedWarrant.context 1 0 0 none [0] 0 none with diverted := (messaging none).messages })] }
theorem witness_QueuesAndMessagesGoOn : ((messaging none).core 0).backlog = [5, 6] ∧ ((messaging none).core 0).q7.length < 16 ∧
    ((messaging none).chan? 0 (5 * 256 + 7)).map (fun h => (decide (0 < h.held), decide (h.entries.length < 2 ^ h.depth))) = some (true, true) ∧
    (messaging none).mayArriveMessage 0 = true ∧ ((messaging none).core 0).handlers = none ∧
    (messaging (some ([0x30000], 2040, 8))).mayArriveMessage 0 = true ∧ ((messaging none).core 0).fenced = false ∧ ((messaging none).core 0).part = some 0 ∧
    (messaging (some ([0x30000], 2040, 8))).thread? 0 63 = none ∧ ([0x30000] : List Word).getD 0 0 ≠ 0 ∧ 2040 + 8 ≤ 2048 ∧
    ((messaging none).core 0).moving = false ∧ (replaying.ctx? 0).map (fun x => x.diverted.length) = some 1 ∧ (replaying.core 0).arrivals.length < 64 := by
  decide +kernel


/-! ### Engine commands -/

/-- A core with its whole scratchpad, of a context, whose command starts from its queue. -/
def starting (e : CmdEntry) : State :=
  { stand [] with
    cur := .command e
    ctxs := [(0, placedWarrant.context 1 0 0 none [0] 0 none)]
    cores := [(0, { Core.reset with part := some 0, steps := 14, cmds := if e.queue = 0 then [] else [(e.queue, [e])], window := if e.queue = 0 then [e] else [] })] }
/-- A command's word from its opcode and body, and its operand words. -/
def word (opcode : Nat) (body : List (Nat × Nat)) : BitVec 256 := BitVec.ofNat 256 (opcode * 2 ^ 240 + (body.map fun b => b.2 * 2 ^ b.1).sum)
def operands (l : List Nat) : Vec := packBytes 512 (l.mapIdx fun i n => (8 * i, 8, n))
/-- Addresses in the core's own scratchpad. -/
def pad (n : Nat) : Nat := 0xFFF800000000 + n
theorem command_crc (q : Nat) (c : BitVec 256) (o : Vec) : (command q c o).crcOk = true := by simp [CmdEntry.crcOk, command]

/-- A copy command that passes its checks. -/
theorem copy_passes {s : State} {e : CmdEntry} (hc : e.crcOk = true)
    (h : (e.queue == 2 && !e.cancelled && decide (1 ≤ e.opcode) && decide (e.opcode ≤ 6) && !e.copyFieldBad && e.copyMisaligned.isNone) = true) :
    s.commandRefusal e = none := by
  simp only [Bool.and_eq_true, beq_iff_eq, Bool.not_eq_true', decide_eq_true_eq, Option.isNone_iff_eq_none] at h
  obtain ⟨⟨⟨⟨⟨hq, hn⟩, h1⟩, h6⟩, hf⟩, hm⟩ := h
  have : ¬(e.opcode = 0 ∨ 6 < e.opcode) := by omega
  simp [State.commandRefusal, hq, CmdEntry.copyRefusal, hn, hc, hf, hm, this]

/-- One command of each copy opcode: two elements of 8 bytes. -/
def copyCmd (op : Nat) (body : List (Nat × Nat)) (l : List Nat) : CmdEntry := command 2 (word op body) (operands l)
def gatherOne : CmdEntry := copyCmd 4 [(221, 3), (196, 2)] [pad 0, pad 0x1000, pad 0x2000, 64]
def fillOne : CmdEntry := copyCmd 5 [(221, 3), (196, 2), (184, 1), (172, 1)] [7, pad 0x1000]
def scheduleOne : CmdEntry := copyCmd 6 [] [pad 0, 64]
def copyOnes : List (Nat × CmdEntry) :=
  [(1, copyCmd 1 [(221, 3), (196, 2)] [pad 0, pad 0x1000]), (2, copyCmd 2 [(221, 3), (196, 2), (184, 1)] [pad 0, pad 0x1000]),
   (3, copyCmd 3 [(221, 3), (196, 2), (184, 1), (172, 1)] [pad 0, pad 0x1000]), (4, gatherOne), (5, fillOne), (6, scheduleOne)]
theorem copyOnes_start : ∀ x ∈ copyOnes, Starting (starting x.2) x.2 2 x.1 := by
  intro x hx
  simp only [copyOnes, List.mem_cons, List.not_mem_nil, or_false] at hx
  rcases hx with rfl | rfl | rfl | rfl | rfl | rfl <;>
    exact ⟨rfl, rfl, by decide +kernel, copy_passes (command_crc _ _ _) (by decide +kernel), by decide +kernel⟩
/-- A schedule of one round with no entry, in the scratchpad. -/
def scheduleBytes : List Byte :=
  let h := natBytes 4 0x53434845 ++ natBytes 2 1 ++ natBytes 2 1 ++ natBytes 52 0
  h ++ natBytes 4 (crc32c h).toNat
def scheduling : State := { starting scheduleOne with scratch := (scheduleBytes.mapIdx fun i b => (i, b)).filter fun x => x.2 != 0 }
/-- What an element's check answers. -/
def isHome (x : Except ElemFault Nat) (h : Nat) : Bool := match x with | .ok g => g == h | .error _ => false
theorem isHome_eq {x : Except ElemFault Nat} {h : Nat} (e : isHome x h = true) : x = .ok h := by
  cases x with
  | ok g => simp only [isHome, beq_iff_eq] at e; rw [e]
  | error _ => simp [isHome] at e
theorem copyOnes_homes : ((copyOnes.take 3).all fun x => x.2.copyCount == 2 && (List.range 2).all fun k =>
    isHome ((starting x.2).elemHome x.2 (x.2.srcAddr k) x.2.elemSize 0) (scratchHome + 8 * k) &&
    isHome ((starting x.2).elemHome x.2 (x.2.dstAddr k) x.2.elemSize 1) (scratchHome + 0x1000 + 8 * k) &&
    ((starting x.2).homeLost ((List.range x.2.elemSize).map fun i => scratchHome + 8 * k + i)).isNone &&
    ((starting x.2).badScratch ((List.range x.2.elemSize).map fun i => scratchHome + 8 * k + i)).isNone) = true := by decide +kernel
/-- COPY, COPY.2D and COPY.3D of two elements; a gather of two elements with the indices 0; a fill; and a schedule. -/
theorem witness_CopyCommandsStart : copyOnes.map Prod.fst = copyCommands.map Prod.fst ∧ (∀ x ∈ copyOnes, Starting (starting x.2) x.2 2 x.1) ∧
    (∀ x ∈ copyOnes.take 3, ElementsGood (starting x.2) x.2 (fun k => scratchHome + 8 * k) fun k => scratchHome + 0x1000 + 8 * k) ∧
    gatherOne.copyCount = 2 ∧ fillOne.copyCount = 2 ∧
    (∀ k < 2, isHome ((starting gatherOne).elemHome gatherOne (gatherOne.op 0) 8 0) scratchHome = true ∧
      (match (starting gatherOne).elemRead gatherOne (gatherOne.op 2 + 4 * k) 4 with | .ok b => b == natBytes 4 0 | _ => false) = true ∧
      isHome ((starting gatherOne).elemHome gatherOne (gatherOne.dstAddr k) 8 1) (scratchHome + 0x1000 + 8 * k) = true ∧
      isHome ((starting fillOne).elemHome fillOne (fillOne.dstAddr k) 8 1) (scratchHome + 0x1000 + 8 * k) = true) ∧
    (match scheduling.schedImage scheduleOne with | .ok r => r.2 == 1 | _ => false) = true := by
  refine ⟨by decide, copyOnes_start, ?_, by decide +kernel⟩
  intro x hx k hk
  have h := List.all_eq_true.mp copyOnes_homes x hx
  rw [Bool.and_eq_true, beq_iff_eq] at h
  have h := List.all_eq_true.mp h.2 k (List.mem_range.mpr (h.1 ▸ hk))
  simp only [Bool.and_eq_true, Option.isNone_iff_eq_none] at h
  exact ⟨isHome_eq h.1.1.1, isHome_eq h.1.1.2, h.1.2, h.2⟩

/-- A tile command that passes its checks. -/
theorem tile_passes {s : State} {e : CmdEntry} (hc : e.crcOk = true)
    (h : (e.queue == 0 && !e.cancelled && ([0x01, 0x02, 0x03, 0x20, 0x21, 0x3F].contains e.opcode || isMma e.opcode || isLayout e.opcode) &&
      !e.tileFieldBad (s.windowOf e).2 && (e.tileAligned.find? fun v => v % 4 != 0).isNone) = true) : s.commandRefusal e = none := by
  simp only [Bool.and_eq_true, beq_iff_eq, Bool.not_eq_true', Option.isNone_iff_eq_none] at h
  obtain ⟨⟨⟨⟨hq, hn⟩, ho⟩, hf⟩, hm⟩ := h
  simp only [State.commandRefusal, hq, State.tileRefusal, hn, hc, ho, hf, hm]
  rfl

/-- One command of each tile opcode: products of 32 x 32 x 32 from the scratchpad, the second of 32 x 32 x 64 with A in w32 to w63; nests of one
level; rows of 32. -/
def tileCmd (op : Nat) (body : List (Nat × Nat)) (l : List Nat) : CmdEntry := command 0 (word op body) (operands l)
def rows : Nat := 64 + 2048 * 2 ^ 24
def tileOnes : List (Nat × CmdEntry) :=
  [(0x01, tileCmd 0x01 [] []), (0x02, tileCmd 0x02 [] [pad 0, rows]), (0x03, tileCmd 0x03 [(199, 7)] [pad 0, rows])] ++
  ([0x10, 0x12, 0x13, 0x14, 0x15, 0x16, 0x17].map fun op => (op, tileCmd op [(208, 1)] [pad 0, rows, pad 0x4000, rows])) ++
  [(0x11, tileCmd 0x11 [(208, 2), (203, 1), (188, 32)] [0, 0, pad 0x4000, rows])] ++
  ([0x18, 0x19].map fun op => (op, tileCmd op [(208, 1)] [pad 0, rows, pad 0x4000, rows, pad 0x8000, 64])) ++
  ([0x20, 0x21].map fun op => (op, tileCmd op [(206, 1)] [pad 0, pad 0x1000, 0, 4])) ++
  ([0x30, 0x34].map fun op => (op, tileCmd op [(208, 1)] [pad 0, rows, pad 0x4000, rows])) ++
  [(0x31, tileCmd 0x31 [(208, 1), (205, 2)] [pad 0, rows, pad 0x4000, 256 + 8192 * 2 ^ 24]),
   (0x32, tileCmd 0x32 [(208, 1), (205, 2)] [pad 0, rows, pad 0x4000, rows]),
   (0x33, tileCmd 0x33 [(208, 1), (205, 1)] [pad 0, rows, pad 0x4000, rows, pad 0x8000, 64]), (0x3F, tileCmd 0x3F [] [])]
theorem tileOnes_start : ∀ x ∈ tileOnes, Starting (starting x.2) x.2 0 x.1 := by
  intro x hx
  simp only [tileOnes, List.map_cons, List.map_nil, List.cons_append, List.nil_append, List.mem_cons, List.not_mem_nil, or_false] at hx
  rcases hx with rfl | rfl | rfl | rfl | rfl | rfl | rfl | rfl | rfl | rfl | rfl | rfl | rfl | rfl | rfl | rfl | rfl | rfl | rfl | rfl | rfl <;>
    exact ⟨rfl, rfl, by decide +kernel, tile_passes (command_crc _ _ _) (by decide +kernel), by decide +kernel⟩
theorem witness_TileCommandsStart : (∀ x ∈ tileCommands, x.1 ∈ tileOnes.map Prod.fst) ∧
    (∀ x ∈ tileOnes, Starting (starting x.2) x.2 0 x.1 ∧ ((starting x.2).core 0).replay = []) ∧
    (∀ x ∈ tileOnes, (starting x.2).operandFull x.2 = true ∧ ∀ r ∈ (starting x.2).operandRegs x.2, ((starting x.2).regAt 0 r).flips < 2) :=
  ⟨by decide, fun x hx => ⟨tileOnes_start x hx, rfl⟩, by decide +kernel⟩

/-- A route command that passes its checks; a collective's map holds every device, so this one. -/
theorem route_passes {s : State} {e : CmdEntry} (hc : e.crcOk = true)
    (h : (e.queue == 4 && !e.cancelled && ([0x01, 0x02, 0x03].contains e.opcode || isColl e.opcode) &&
      (e.routeAligns.find? fun a => e.op a.1 % a.2 != 0).isNone) = true) (hf : e.routeFieldBad = false) : s.commandRefusal e = none := by
  simp only [Bool.and_eq_true, beq_iff_eq, Bool.not_eq_true', Option.isNone_iff_eq_none] at h
  obtain ⟨⟨⟨hq, hn⟩, ho⟩, hm⟩ := h
  simp only [State.commandRefusal, hq, CmdEntry.routeRefusal, hn, hc, ho, hf, hm]
  rfl
theorem allMembers (d : Nat) (h : d < 256) : (BitVec.allOnes 256).getLsbD d = true := by rw [BitVec.getLsbD_allOnes]; simp [h]
theorem coll_fields {e : CmdEntry} (hm : e.collMap = BitVec.allOnes 256) (hr : e.ranks.length = 256)
    (h : (isColl e.opcode && !decide (2 < e.collOp) && e.collOp == 0 && [0, 1, 5].contains e.collType && !(e.collCount == 0) && e.collRoot == 0 && e.bits 168 0 == 0 &&
      e.op 2 == 0 && e.op 3 == 0 && !decide (2 ^ 48 ≤ e.op 0) && !decide (2 ^ 48 ≤ e.op 1)) = true) : e.routeFieldBad = false := by
  simp only [Bool.and_eq_true, beq_iff_eq, Bool.not_eq_true', decide_eq_false_iff_not] at h
  obtain ⟨⟨⟨⟨⟨⟨⟨⟨⟨⟨h1, h2⟩, h3⟩, h4⟩, h5⟩, h6⟩, h7⟩, h8⟩, h9⟩, ha⟩, hb⟩ := h
  have own : (BitVec.allOnes 256).getLsbD ownDevice = true := allMembers _ Config.deviceId.isLt
  have zero : (BitVec.allOnes 256).getLsbD 0 = true := allMembers _ (by decide)
  have h5 : (e.collCount == 0) = false := h5
  simp only [CmdEntry.routeFieldBad, h1, if_true, h3, h4, h5, h6, h7, h8, h9, ha, hb, hm, hr, own, zero]
  simp
/-- One token, one expert and one token of the list; collectives of one 32-bit value over every device of the pod. -/
def tokenOnes : List (Nat × CmdEntry) :=
  [1, 2, 3].map fun op => (op, command 4 (word op [(208, 1), (200, 1)]) (operands [pad 0, pad 0x1000, pad 0x2000, pad 0x3000, if op = 1 then 16 else pad 0x4000]))
def collOne (op : Nat) : CmdEntry :=
  command 4 (word op [(193, 1), (177, 9)]) (operands [pad 0, pad 0x1000, 0, 0, 2 ^ 64 - 1, 2 ^ 64 - 1, 2 ^ 64 - 1, 2 ^ 64 - 1])
theorem tokenOnes_start : ∀ x ∈ tokenOnes, Starting (starting x.2) x.2 4 x.1 := by
  intro x hx
  simp only [tokenOnes, List.map_cons, List.map_nil, List.mem_cons, List.not_mem_nil, or_false] at hx
  rcases hx with rfl | rfl | rfl <;>
    exact ⟨rfl, rfl, by decide +kernel, route_passes (command_crc _ _ _) (by decide +kernel) (by decide +kernel), by decide +kernel⟩
theorem collOnes_start : ∀ op ∈ [0x10, 0x11, 0x12, 0x13], Starting (starting (collOne op)) (collOne op) 4 op := by
  intro x hx
  simp only [List.mem_cons, List.not_mem_nil, or_false] at hx
  rcases hx with rfl | rfl | rfl | rfl <;>
    exact ⟨rfl, rfl, by decide +kernel, route_passes (command_crc _ _ _) (by decide +kernel) (coll_fields (by decide +kernel) (by decide +kernel) (by decide +kernel)),
      by decide +kernel⟩
theorem witness_RouteCommandsStart : (∀ x ∈ tokenOnes, Starting (starting x.2) x.2 4 x.1) ∧
    (∀ op ∈ [0x10, 0x11, 0x12, 0x13], Starting (starting (collOne op)) (collOne op) 4 op ∧ (starting (collOne op)).joins = [] ∧
      (match (starting (collOne op)).routeRead (collOne op) ((collOne op).op 0) ((collOne op).collSize * (collOne op).collCount * if op = 0x12 then (collOne op).ranks.length else 1) with
        | .ok _ => true | _ => false) = true ∧ ∃ d, d ∈ (collOne op).ranks ∧ d ≠ ownDevice) ∧
    (∀ x ∈ tokenOnes, (match (starting x.2).indexList x.2 with | .ok l => l == [0] | _ => x.1 == 1) = true) := by
  refine ⟨tokenOnes_start, fun op h => ⟨collOnes_start op h, rfl, ?_, ?_⟩, by decide +kernel⟩
  · revert op; decide +kernel
  · have hr : 0 ∈ (collOne op).ranks ∧ 1 ∈ (collOne op).ranks := by revert op; decide +kernel
    rcases Nat.eq_zero_or_pos ownDevice with h0 | h0
    · exact ⟨1, hr.2, by omega⟩
    · exact ⟨0, hr.1, by omega⟩

/-- A cancelled command of each queue. -/
def cancelledOne (q : Nat) : CmdEntry := { command q (word 1 []) 0 with cancelled := true }
theorem witness_RefusedCommandCompletesAtOnce : ∀ q, q = 0 ∨ q = 2 ∨ q = 4 → (starting (cancelledOne q)).cur = .command (cancelledOne q) ∧
    (commandInstr q (cancelledOne q).opcode).isSome = true ∧ (starting (cancelledOne q)).commandRefusal (cancelledOne q) = some (.plain 0x0F 4 0) ∧
    (starting (cancelledOne q)).takesRecord (cancelledOne q) = true := by
  rintro q (rfl | rfl | rfl) <;> exact ⟨rfl, by decide +kernel, rfl, by decide +kernel⟩

/-- Commands of the three queues with nothing left to write, one with a tile word; a collective that began at time 0. -/
def ending (q : Nat) : State :=
  { starting (command q (word 1 []) 0) with
    cycle := 12, timeQ := 40000000, arg := { Arg.none with n := 0 }
    active := [(0, { Active.new (command q (word 1 []) 0) 0 12 [] (.plain 0 0 0) with tiles := [(8191, 5)] })] }
def waiting : State :=
  { ending 4 with active := [(0, { Active.new (command 4 (word 0x10 []) 0) 0 0 [] (.plain 0 0 0) with waiting := some (9, 1, [], 0) })] }
theorem witness_CommandsComplete : (∀ q, q = 0 ∨ q = 2 ∨ q = 4 → (ending q).mayComplete 0 = true ∧ (ending q).takesRecord (command q (word 1 []) 0) = true ∧
      (tabGet? (ending q).active 0).map (fun a => (a.entry.order, a.entry.queue, tabSorted a.tiles)) = some (0, q, true)) ∧
    (tabGet? waiting.active 0).bind Active.waiting = some (9, 1, [], 0) ∧ 0 + 40000000 ≤ waiting.timeQ := by
  refine ⟨?_, by decide +kernel, by decide +kernel⟩
  rintro q (rfl | rfl | rfl) <;> exact ⟨by decide +kernel, by decide +kernel, by decide +kernel⟩

/-- A command of q0, a head that has stood for 64 cycles, and a group whose work is done. -/
def rewriting (failed : Option Bool) : State :=
  let e := command 0 (word 1 []) 0
  { starting e with
    cycle := 64, arg := { Arg.none with n := 0 }
    active := [(0, { Active.new e 12 12 [] (.plain 0 0 0) with grouped := true })]
    cores := [(0, { Core.reset with part := some 0, cmds := [(0, [e])]
                                    running := some { rule := 0, members := [e], repl := [], failed := failed, sats := [], rows := [] } })] }
def standing : State := { starting (command 0 (word 1 []) 0) with cycle := 64, arg := { Arg.none with n := 0 } }
theorem witness_RewriteStageGoesOn : ((rewriting none).core 0).cmdsOf 0 ≠ [] ∧ ((rewriting none).core 0).mayEnter = true ∧
    standing.releases 0 = true ∧ (standing.core 0).window ≠ [] ∧
    (∀ f, f = none ∨ f = some true ∨ f = some false → ((rewriting f).groupDone 0).map (fun x => x.1.failed) = some f) ∧
    (rewriting none).takesRecord (command 0 (word 1 []) 0) = true := by
  refine ⟨by decide +kernel, by decide +kernel, by decide +kernel, by decide +kernel, ?_, by decide +kernel⟩
  rintro f (rfl | rfl | rfl) <;> rfl


/-! ### The dispatcher, core moves, observation -/

/-- A launch record: its kind and flags, priority, cores, threads, window code, entry and arguments. -/
def record (flags prio cores window : Nat) : Vec :=
  packBytes 512 [(0, 1, 1), (1, 1, flags), (2, 1, prio), (4, 2, cores), (6, 1, 1), (7, 1, window), (8, 6, 0x20000), (0x20, 8, 7), (0x28, 8, 8), (0x30, 8, 9)]
def oneLaunch (r : Vec) (state : Nat) : Launch := { placedLaunch with record := r, state := state }
def oneCtx : Ctx := placedWarrant.context 1 0 0 none [0] 0 none
/-- A head that fits in an empty core; and with a low-priority thread that fills the window space, in slot 5, one that does not. -/
def queued (t : Option Thread) (after : Nat) : State :=
  { State.reset with
    arg := { Arg.none with n := 0, m := after }, dispatch := true, timeQ := 64 * 4000, uid := 2
    threads := match t with | some t => [(5, t)] | none => []
    cores := [(0, { Core.reset with part := some 0 })]
    ctxs := [(0, { oneCtx with launches := [(1, oneLaunch (record 0x20 0 1 15) 3), (2, oneLaunch (record 0 5 1 15) 1)], queues := [(0, [2])], nextLaunch := 3 })] }
/-- A thread whose window is as large as the file: nothing else fits beside it. -/
def large : Thread := { thread0 with size := 2048 }
def savedOne : Saved := { record := 4, core := 0, slot := 63, thread := thread0, image := List.replicate 128 Reg.reset, trap := none, layout := 1, cached := true, bad := false, asked := false, origin := 0, place := none, moved := false }
def restoring : State :=
  { State.reset with
    arg := { Arg.none with n := 0, m := 4 }, cores := [(0, { Core.reset with part := some 0 })]
    ctxs := [(0, { oneCtx with launches := [(1, oneLaunch (record 0 0 1 15) 3)], saved := [savedOne], nextRecord := 5 })] }
theorem witness_DispatcherDecides :
    (queued none 0).dispatch = true ∧ (firstPlace (queued none 0)).map (fun h => (h.1, h.2.2.1, h.2.2.2.2)) = some (0, 2, [(0, [{ slot := 0, base := 0 }])]) ∧
    recKind (record 0 5 1 15) ≠ 1 ∧ recResume (record 0 5 1 15) = false ∧ oneCtx.chanConflict (record 0 5 1 15) = false ∧
    (queued (some large) 0).dispatch = true ∧ firstPlace (queued (some large) 0) = none ∧
    ((queued (some large) 0).agedHead 0 0).map (fun h => h.2.1) = some 2 ∧ ((queued (some large) 0).ctx? 0).bind (fun x => (queued (some large) 0).bestRegion 0 x 5) = some 0 ∧
    (queued (some large) 5).preemptNow 0 = some (0, 5) ∧ (queued (some { large with state := .inflight (flight []) }) 5).preemptNow 0 = some (0, 5) ∧
    (restoring.ctx? 0).map (fun x => (x.saved.find? (fun w => w.record == 4), restoring.mayRestore 0 x savedOne)) = some (some savedOne, true) := by decide +kernel

/-- Core 1 is lent while an admission wants more cores than are free; a moving core of which nothing is left; a core for a burstable
context; a notice that is due, with one thread beside the one that handles it. -/
def reclaiming (moving : Bool) : State :=
  { State.reset with
    arg := { Arg.none with n := 1 }
    keystone := { Keystone.reset 0 [] 0 with pending := some { kind := 1, bytes := List.replicate 0x3A 0 ++ natBytes 2 1024, thread := none, presenter := none, limit := 0, granted := true, image := [], prio := 0, flags := 0 } }
    cores := [(0, { Core.reset with part := some 0 }), (1, { Core.reset with part := some 0, moving := moving })], ctxs := [(0, { oneCtx with cls := 1, saved := [{ savedOne with core := 1 }] })] }
def lending : State :=
  { State.reset with arg := { Arg.none with n := 1, m := 0 }, cores := [(0, { Core.reset with part := some 0 })], ctxs := [(0, { oneCtx with cls := 1, cores := 2 })] }
def noticing (t : Thread) : State :=
  { standTwo [] with cur := .none, timeQ := 4000, arg := { Arg.none with n := 0 }, ctxs := [(0, { oneCtx with notAfter := 2000, notice := 1500 })],
                     threads := [(0, t), (1, { thread0 with uid := 2, base := 128 })] }
theorem witness_CoresMoveAndNoticesCome :
    ((reclaiming false).core 1).moving = false ∧ (reclaiming false).reclaimDue 1 = true ∧
    ((reclaiming true).core 1).moving = true ∧ (reclaiming true).coreActive 1 = false ∧ (reclaiming true).unsaved 1 = false ∧ (reclaiming true).coreQuiet 1 = true ∧
    lending.nextLoan = some (1, 0) ∧ (lending.ctx? 0).map Ctx.images = some [] ∧
    (∀ t ∈ [thread0, { thread0 with state := .inflight (flight []) }], ((noticing t).ctx? 0).map (noticing t).noticeDue = some true ∧ (noticing t).coresOf 0 = [0] ∧
      (noticing t).noticeSlot 0 = some 0 ∧ (noticing t).hasHandler 0 0 0 = true) := by decide +kernel

/-- A corrected error; armed injections of kinds 1, 2, 3, 5 and 6, whose trigger has come, for a partition whose warrant has these flags; a dirty line; a context of
key slot 0 with a saved record. -/
def observing (kind : Nat) (flags : BitVec 8) (input : Bool) : State :=
  { stand [] with
    cur := .none, cycle := 4096, timeQ := 4096, correctedNow := [(0, true)], dirty := [0], arg := { Arg.none with n := 0, k := kind, m := if kind = 3 then 4 else 0, flag := input }
    ctxs := [(0, { oneCtx with counterPage := 0x10000, ring := 0x20000, flags := flags, keySlot := some 0, saved := [savedOne] })]
    host := { HostPort.reset 0 with injections := [{ desc := BitVec.ofNat 256 (kind + 7 * 2 ^ 40), ready := false }] } }
theorem fires (k : Nat) (h : k ∈ [1, 2, 3, 5, 6]) : Fires (observing k 2 false) { desc := BitVec.ofNat 256 (k + 7 * 2 ^ 40), ready := false } := by
  simp only [List.mem_cons, List.not_mem_nil, or_false] at h
  rcases h with rfl | rfl | rfl | rfl | rfl <;> exact ⟨rfl, rfl, by decide +kernel, by decide +kernel, by decide +kernel⟩
theorem witness_ObservationEventsHappen : tabGet? (observing 1 2 false).correctedNow 0 = some true ∧ 0 ∉ (observing 1 2 false).fencedDecks ∧
    (∀ k ∈ [1, 2, 3, 5, 6], Fires (observing k 2 false) { desc := BitVec.ofNat 256 (k + 7 * 2 ^ 40), ready := false }) ∧
    (∀ k ∈ [1, 2, 3, 5, 6], ((observing k 2 false).host.injections.all fun i =>
      i.kind == k && i.core == 0 && i.slot == 0 && fieldAt i.desc 5 1 == 7 && fieldAt i.desc 0x10 8 == 0) = true) ∧
    (observing 1 2 false).thread? 0 0 = some thread0 ∧ 7 < thread0.size ∧ thread0.base + 7 < 2048 ∧ hasFrame 0 = true ∧
    ((observing 1 0 false).host.injections.all fun i => (observing 1 0 false).injectionDue i && (observing 1 0 false).struck i.desc == [0] && !(observing 1 0 false).injectable 0) = true ∧
    (∀ k ∈ [1, 3, 6, 10], (observing k 0 true).arg.flag = true ∧ (observing k 0 true).arg.k = k ∧ 0 ∈ (observing k 0 true).dirty ∧
      ((observing k 0 true).ctx? 0).map (fun x => (x.keySlot, x.ending)) = some (some 0, none) ∧ ((observing k 0 true).core 0).fenced = false ∧
      tabGet? (observing k 0 true).doomed 0 = none) ∧
    0 ∉ (observing 1 2 false).lost ∧ (observing 1 2 false).keptLine 0 = false ∧ (observing 1 2 false).sampleDue 0 = true ∧ ((observing 1 2 false).core 0).part = some 0 ∧
    ((observing 1 2 false).ctxs.all fun e => (observing 1 2 false).countersDue e.2 && decide (e.2.counterPage + 4096 < scratchHome)) = true :=
  ⟨by decide +kernel, by decide +kernel, fires, by decide +kernel⟩

/-! ### Rypel Link, the clock, the Keystone, the host -/

/-- Port 0 up with slot 0 open, and a data flit that it takes; then one that it does not. -/
def linked (f : Port → Port) (flit : Flit) : State :=
  { State.reset with
    timeQ := 8000, arg := { Arg.none with n := 0, m := 5, flit := flit }, ports := [(0, f { Port.reset with state := 2, peer := 1, rxOpen := (true, false) })] }
def goodFlit : Flit := { ks := false, ctr := 3, seq := 4095, ack := 4000, reserved := 0, kind := 2, good := true }
theorem witness_taken : FlitTaken (linked (fun q => { q with rxSeq := 4095 }) goodFlit) := ⟨rfl, rfl, rfl, by decide, rfl⟩
/-- A flit kept for replay, which failed so many times. -/
def sent (n : Nat) : Sent := { seq := 4095, message := .empty, fails := n }
theorem witness_LinkDeliversAndRetries :
    FlitTaken (linked (fun q => { q with rxSeq := 4095 }) goodFlit) ∧ (portOf (linked (fun q => { q with rxSeq := 4095 }) goodFlit)).ahead = [] ∧
    (portOf (linked (fun q => { q with rxSeq := 4095 }) goodFlit)).rxSeq = goodFlit.seq ∧
    FlitTaken (linked id goodFlit) ∧ (portOf (linked id goodFlit)).missing goodFlit.seq = false ∧
    (portOf (linked id { goodFlit with good := false })).state = 2 ∧ (portOf (linked id { goodFlit with good := false })).accepts { goodFlit with good := false } = false ∧
    (∀ n, FlitTaken (linked (fun q => { q with replay := [sent n] }) goodFlit) ∧
      (portOf (linked (fun q => { q with replay := [sent n] }) goodFlit)).replay.find? (fun g => g.seq == goodFlit.seq) = some (sent n)) ∧
    2 ≤ (sent 2).fails ∧ (sent 1).fails < 2 ∧ (portOf (linked id goodFlit)).switching = false ∧ (portOf (linked id goodFlit)).txCtr < ctrLast ∧
    (portOf (linked id goodFlit)).ackAt + 8000 ≤ (linked id goodFlit).timeQ :=
  ⟨witness_taken, rfl, rfl, ⟨rfl, rfl, rfl, by decide, rfl⟩, by decide +kernel, rfl, rfl, fun _ => ⟨⟨rfl, rfl, rfl, ⟨show 0 < 2 by decide, show 2 ≤ 5 by decide⟩, show (4095 != 4000 && true) = true by decide⟩, by rfl⟩, by decide, by decide,
    rfl, by decide, by decide⟩

/-- A port that is trained; a peer that asks for a page of a group's context. -/
def training (flag : Bool) (bad : Nat) : State :=
  { State.reset with arg := { Arg.none with n := 0, m := 9, flag := flag }, ports := [(0, { Port.reset with badTrainings := bad })] }
def granting : State :=
  { State.reset with arg := { Arg.none with msg := .map 9 1 0 1 0 }, cores := [(0, { Core.reset with part := some 0 })], ctxs := [(0, oneCtx)] }
/-- A page that the peer on device 9 was given, named by so many leaves of it. -/
def given (count : Nat) (m : LinkMessage) : State :=
  { granting with
    arg := { Arg.none with msg := m }
    pages := [(0x1000, { size := 4096, owner := 0, attr := 0, key := 0, code := false, count := count, charged := true, peer := some 9 })] }
theorem witness_KeysTrainingAndTime :
    (portOf (linked (fun q => { q with txCtr := switchAt }) goodFlit)).switchDue = true ∧ switchAt < ctrLast ∧
    FlitTaken (linked (fun q => { q with rxOpen := (true, true), rxNew := some (true, 5) }) goodFlit) ∧ goodFlit.ks ≠ true ∧
    (portOf (linked (fun q => { q with rxNew := some (true, 64) }) goodFlit)).rxNew = some (true, 64) ∧
    (∀ flag bad, (portOf (training flag bad)).state = 1 ∧ (portOf (training flag bad)).badTrainings = bad ∧ (portOf (training flag bad)).outbox = [] ∧
      (portOf (training flag bad)).replay = []) ∧
    (portOf { linked id goodFlit with timeQ := 4000000 }).timeDue 4000000 = true ∧ (linked id goodFlit).locked = false ∧
    (granting.peerCtx 1).map Prod.fst = some 0 ∧ oneCtx.modeRefused 0 = false ∧ oneCtx.used + charge 0 (pageBytes 0) ≤ oneCtx.memory ∧
    (granting.freeFrame (pageBytes 0)).isSome = true ∧
    (portOf (linked (fun q => { q with txCtr := switchAt }) goodFlit)).saltFree (BitVec.ofNat 32 5) = true ∧
    (portOf (linked id goodFlit)).state = 2 ∧ (portOf (linked id goodFlit)).rxNew = none ∧ (portOf (linked id goodFlit)).switching = false ∧
    BitVec.ofNat 32 5 ≠ (portOf (linked id goodFlit)).txSalt ∧ BitVec.ofNat 32 goodFlit.seq ≠ BitVec.ofNat 32 (byteNat ([] : List Byte) 4 4) ∧
    (∀ n ∈ [1, 2], ((given n (.invalidate 9 1 0x1000 4096 true)).peerCtx 1).map Prod.fst = some 0 ∧
      ((given n (.addLeaf 9 1 0x1000 4096)).givenTo 0 9 0x1000 4096).map (fun g => (g.1, g.2.count)) = [(0x1000, n)]) :=
  ⟨by decide +kernel, by decide, ⟨rfl, rfl, rfl, by decide, rfl⟩, by decide, rfl, fun _ _ => ⟨rfl, rfl, rfl, rfl⟩, by decide +kernel, rfl, by decide +kernel,
    by decide +kernel, by decide +kernel, by decide +kernel, by decide +kernel, rfl, rfl, rfl, by decide +kernel⟩

/-- The Keystone with trusted time or without, a serial spent or not, and a claim that the host waits for. -/
def keeping (trusted : Bool) (spent : List Spent) : State :=
  { State.reset with
    timeQ := 240000000000, arg := { Arg.none with n := 5 }, ctxs := [(5, { oneCtx with notAfter := 1000 })]
    keystone := { Keystone.reset 0 spent 0 with
      trusted := trusted, pending := some { kind := 0, bytes := [], thread := none, presenter := none, limit := 4000000, granted := false, image := [], prio := 0, flags := 0 },
      handles := [(7, placedWarrant.rootHandle 5 7 0 none)]
      tokens := List.replicate 6 { serial := 1, index := 0, handle := 7, notAfter := 1000, part := 5, core := 0, age := 0, prio := 0, flags := 0 }
      held := [(5, { base := 0, bytes := [], until_ := 60000000000 })] } }
def spentFive : Spent := { serial := 5, index := none, expiry := 0, devices := 1 }
/-- A claim that has passed its checks, with an image of a text alone; one core is held, and its warrant asks for all. -/
def claimImage : List Byte := natBytes 4 0x494D4147 ++ natBytes 2 1 ++ natBytes 2 0 ++ natBytes 4 4 ++ List.replicate 52 0 ++ natBytes 4 0
def claimWarrant : List Byte :=
  natBytes 4 0x57524E54 ++ natBytes 2 1 ++ natBytes 2 0x200 ++ List.replicate 80 0 ++ natBytes 2 1024 ++ natBytes 1 1 ++ natBytes 1 0 ++ natBytes 1 1 ++
    List.replicate 13 0 ++ natBytes 2 1024 ++ List.replicate (640 - 108) 0
def claiming : State :=
  { State.reset with
    keystone := { Keystone.reset 0 [] 0 with
      pending := some { kind := 0, bytes := claimWarrant, thread := none, presenter := none, limit := 4000000, granted := false, image := claimImage, prio := 0, flags := 0 } }
    cores := [(0, { Core.reset with part := some 0 })] }
/-- The clause of an accepted beacon is left aside: whether a signature verifies is opaque (log 12). -/
theorem witness_KeystoneTimeGoesOn : (keeping false []).keystone.trusted = false ∧ (keeping true []).keystone.trusted = true ∧
    (keeping true []).keystone.spent.length < 32704 ∧ (∃ e ∈ (keeping true [spentFive]).keystone.spent, e.serial = 5 ∧ e.index = none) ∧
    claiming.arg.n = 0 ∧ (claiming.keystone.pending.bind Pending.warrant).map Warrant.minCores = some 1024 ∧
    (claiming.keystone.pending.bind fun q => readImage q.image (byteNat q.bytes 528 8)).isSome = true ∧ claiming.freeCores.length < 1024 ∧
    ((keeping true []).keystone.pending).map (fun q => !q.granted && q.thread.isNone && decide (q.limit ≤ (keeping true []).timeQ)) = some true ∧
    (keeping true []).keystone.waiting = [] ∧ (keeping true []).arg.n ≠ 0 ∧ (keeping true []).arg.bytes.length < 256 ∧
    (keeping true []).keystone.beaconAt + 60000000000 ≤ (keeping true []).time ∧ (keeping true []).keystone.highAt + 4000000000 ≤ (keeping true []).timeQ ∧
    ((keeping true []).ctx? 5).map (fun x => (x.ending, (keeping true []).reached x.notAfter.toNat)) = some (none, true) ∧
    ((keeping true []).keystone.tokens[5]?).map (fun t => ((keeping true []).reached t.notAfter.toNat, (tabGet? (keeping true []).keystone.handles t.handle).isSome)) =
      some (true, true) ∧
    (tabGet? (keeping true []).keystone.held 5).map (fun h => decide (h.until_ ≤ max (keeping true []).time (keeping true []).keystone.high)) = some true := by
  refine ⟨rfl, rfl, by decide, ⟨spentFive, List.mem_singleton.mpr rfl, rfl, rfl⟩,
    rfl, by decide +kernel, by decide +kernel, by decide +kernel, by decide +kernel, rfl, by decide +kernel⟩

/-- A spent store that is full, of tokens' entries alone. -/
theorem keeping_spent (l : List Spent) : (keeping true l).keystone.spent = l := rfl
theorem witness_KeystoneTimeGoesOn_full : ∃ l, 32704 ≤ (keeping true l).keystone.spent.length ∧ ∀ e ∈ (keeping true l).keystone.spent, ¬(e.serial = 5 ∧ e.index = none) :=
  ⟨List.replicate 32704 { spentFive with index := some 0 }, by rw [keeping_spent, List.length_replicate],
    fun e h => by rw [keeping_spent] at h; rw [List.eq_of_mem_replicate h]; rintro ⟨-, h⟩; cases h⟩

/-- A free or a busy admission window of zeros; a context with the host window or without; a sealed launch record for queue 1. -/
def hosting (busy : Bool) (flags : BitVec 8) (bytes : List Byte) (m : Nat) : State :=
  { stand [] with
    cur := .none, arg := { Arg.none with n := 0, m := m, k := 64, bytes := bytes }, host := { HostPort.reset 0 with busy := busy }
    cores := [(0, { Core.reset with part := some 0, steps := 1 })], ctxs := [(0, { oneCtx with flags := flags })] }
def hostRecord : Vec := sealVec (packBytes 512 [(0, 1, 1), (3, 1, 1), (4, 2, 1), (6, 1, 1), (7, 1, 15), (8, 6, 0x20000)])
def hostBytes : List Byte := natBytes 64 hostRecord.toNat
theorem hostRecord_back : bytesVec hostBytes = hostRecord := by decide +kernel
theorem hostRecord_sealed : sealed hostRecord = true := by decide +kernel
/-- The clause of a verified revocation is left aside: whether a signature verifies is opaque (log 12). -/
theorem witness_HostPortActs : (hosting true 0 [] 0).host.busy = true ∧ (hosting false 0 [] 0).host.busy = false ∧
    (hosting false 0 [] 0).keystone.pending = none ∧ (hosting false 0 [] 0).keystone.waiting = [] ∧ readWarrant (windowOf (hosting false 0 [] 0) 640) = none ∧
    (∀ prio f, readToken prio f (windowOf (hosting false 0 [] 0) 640) = none) ∧ byteNat (windowOf (hosting false 0 [] 0) 256) 0 4 ≠ 0x52564B45 ∧
    ((hosting false 1 hostBytes 1).ctx? 0).map (fun x => (x.ending, x.flags.getLsbD 0)) = some (none, true) ∧ hostBytes.length = 64 ∧ sealed (bytesVec hostBytes) = true ∧
    fieldAt hostRecord 3 1 = 1 ∧ recQueue hostRecord = 1 ∧ (hosting false 1 [] 1).checkRecord 0 { oneCtx with flags := 1 } hostRecord = 0 ∧
    (hosting false 1 [] 1).launchRoom 0 1 = true ∧ sealed (bytesVec [1]) = false ∧
    (∀ f, f = 0 ∨ f = 1 → ((hosting false f [1] 0x10000).ctx? 0).map (fun x => (x.ending, x.flags.getLsbD 0)) = some (none, f == 1)) ∧
    (tabGet? (hosting false 1 [] 0).keystone.held 0).isNone = true ∧ State.reset.ctx? 0 = none ∧
    ((State.ctx? { hosting false 1 [] 0 with ctxs := [(0, { oneCtx with flags := 1, ending := some 0x0101 })] } 0).map fun x => (x.flags.getLsbD 0, x.ending.isSome)) = some (true, true) := by
  refine ⟨rfl, rfl, rfl, rfl, by decide +kernel, ?_, by decide +kernel, by decide +kernel, by decide +kernel, ?_, by decide +kernel, by decide +kernel, by decide +kernel,
    by decide +kernel, by decide +kernel, ?_, rfl, rfl, by decide +kernel⟩
  · intro prio f
    have h : byteNat (windowOf (hosting false 0 [] 0) 640) 0 4 = 0 := by decide +kernel
    unfold readToken
    rw [if_neg]
    rintro ⟨-, hm, -⟩
    rw [h] at hm
    exact absurd hm (by decide)
  · rw [hostRecord_back]; exact hostRecord_sealed
  · rintro f (rfl | rfl) <;> rfl
/-- Bytes of a host's read and write that pass their checks: a page that the context has mapped. -/
theorem witness_HostPortActs_mapped : asking.checkRange 0 0 0x40000000 64 0 = none ∧ asking.checkRange 0 0 0x40000000 64 1 = none ∧ 0x40000000 + 64 ≤ 2 ^ 40 ∧
    asking.homeLost (asking.virtHomes 0 0 0x40000000 64) = none := by decide +kernel

/-- What a hot patch is, whether it verifies, what version it is for and what it asks are opaque (log 12): each state meets one clause of its validity and one of the
others. -/
theorem witness_PatchApplyAndLanes (s : State) : (Config.patchValid s.host.patch = false ∨
      Config.patchValid s.host.patch = true ∧ (Config.patchBase s.host.patch ≠ s.host.firmware ∨ Config.patchBase s.host.patch = s.host.firmware)) ∧
    ((∃ n ∈ s.arg.bytes, (Config.patchMask s.host.patch).getLsbD n.toNat = true) ∨
      (∀ n ∈ s.arg.bytes, (Config.patchMask s.host.patch).getLsbD n.toNat = false) ∧ (Config.patchConverts s.host.patch = true ∨
        Config.patchConverts s.host.patch = false ∧ (s.layoutBlocked s.host.patch = true ∨ s.layoutBlocked s.host.patch = false))) ∧
    ({ HostPort.reset 0 with patchLimit := some 3 } : HostPort).patchLimit = some 3 ∧ State.reset.host.lanes ∈ [16, 8, 4] ∧ (0 < 8 ∧ 0 < 16) := by
  refine ⟨?_, ?_, rfl, by decide, by decide⟩
  · cases h : Config.patchValid s.host.patch
    · exact .inl rfl
    · exact .inr ⟨rfl, (Decidable.em _).symm⟩
  · by_cases h : ∃ n ∈ s.arg.bytes, (Config.patchMask s.host.patch).getLsbD n.toNat = true
    · exact .inl h
    · refine .inr ⟨fun n hn => by simpa using fun e => h ⟨n, hn, e⟩, ?_⟩
      cases Config.patchConverts s.host.patch
      · exact .inr ⟨rfl, (Bool.eq_false_or_eq_true _)⟩
      · exact .inl rfl

/-! ### Checks, traps, the step -/

/-- THR.START in flight, from the first slot. -/
theorem witness_RegistersAtReset : Completing (flying thread0 [.thrStart 2 0x40 0x20000]) 0 0 (flyer thread0 [.thrStart 2 0x40 0x20000]) (flight [.thrStart 2 0x40 0x20000]) ∧
    Straight (flyer thread0 [.thrStart 2 0x40 0x20000]) (flight [.thrStart 2 0x40 0x20000]) := witness_Completing _

/-- A window of 8 entries and a field outside it; an owed destination; a poisoned source; an empty one. -/
def checking (size : Nat) (r : Reg) (owed : Bool) : State :=
  { standTwo [] with
    threads := [(0, { thread0 with size := size }), (1, { thread0 with uid := 2, base := 128 })], regs := [(3, r)]
    arrivals := if owed then [{ uid := 1, core := 0, slot := 0, part := 0, order := 1, due := 90, rd := 3, ws := none, prod := .value 5 none, acq := none, rel := none,
                                posts := [], vas := [], bytes := 0, takes := [] }] else [] }
theorem witness_FieldChecks :
    (∀ size ∈ [3, 128], ∀ r ∈ [Reg.ofVec 0, Reg.ofToken (some 5), { Reg.reset with full := false }], ∀ owed ∈ [false, true],
      (checking size r owed).cur = .thread 0 0 ∧ ((checking size r owed).thread? 0 0).map Thread.size = some size ∧ (checking size r owed).hasHandler 0 0 0 = true) ∧
    firstOutside 3 [(0, 1), (1, 3), (2, 2)] = some 0x103 ∧
    (checking 128 { Reg.reset with full := false } true).outstanding 0 3 = true ∧ (checking 128 { Reg.reset with full := false } false).outstanding 0 3 = false ∧
    (checking 128 (Reg.ofVec 0) false).posts = [] ∧ (Reg.ofToken (some 5)).lost = true ∧ ({ Reg.reset with full := false } : Reg).lost = false ∧ ({ Reg.reset with full := false } : Reg).full = false := by decide +kernel

/-- THR.RESUME in flight, of slot 1 that has trapped, of slot 2 that is FREE, and of slot 63; slot 3 has trapped at a target. -/
def resuming (k : Nat) : State :=
  let t : TrapInfo := { code := 5, detail := 0, pc := 0x10000, info := 0, second := 0, flags := 0 }
  { flying thread0 [.thrResume 3 (BitVec.ofNat 64 k) false] with
    threads := [(0, flyer thread0 [.thrResume 3 (BitVec.ofNat 64 k) false]), (1, { thread0 with uid := 2, base := 128, state := .trapped t }), (3, { thread0 with uid := 3, base := 256, state := .trapped t, kept := true })] }
theorem witness_TrapSavesAndResumeReturns : (∀ k, Completing (resuming k) 0 0 (flyer thread0 [.thrResume 3 (BitVec.ofNat 64 k) false]) (flight [.thrResume 3 (BitVec.ofNat 64 k) false]) ∧
      Straight (flyer thread0 [.thrResume 3 (BitVec.ofNat 64 k) false]) (flight [.thrResume 3 (BitVec.ofNat 64 k) false])) ∧
    (∀ k, ((resuming k).thread? 0 1).map (fun v => v.state) = some (.trapped { code := 5, detail := 0, pc := 0x10000, info := 0, second := 0, flags := 0 }) ∧
      (resuming k).thread? 0 2 = none ∧ ((resuming k).thread? 0 1).map Thread.kept = some false ∧ ((resuming k).thread? 0 3).map Thread.kept = some true) ∧
    (BitVec.ofNat 64 63).toNat % 64 = 63 ∧ (∀ q ∈ (standTwo []).posts, thread0.owes q = false) ∧
    (standTwo []).thread? 0 0 = some thread0 ∧ thread0.coupled = false ∧ (standTwo []).hasHandler 0 0 0 = true :=
  ⟨fun _ => ⟨⟨⟨rfl, rfl⟩, by decide, rfl, rfl, Nat.le_refl _, rfl, rfl, rfl, rfl, show (0 : Nat) ≠ 13 by decide, rfl⟩, ⟨⟨rfl, rfl, rfl, rfl⟩, rfl, .inl (show 0 < 0x17 by decide), rfl⟩⟩,
    fun _ => ⟨rfl, rfl, rfl, rfl⟩, by decide, by decide +kernel, rfl, rfl, by decide +kernel⟩

/-- A well-formed instruction with its words, and a command with its own. -/
theorem witness_DecodeOfEncode : wellFormed (.sub 1 2 3 0 0) = true ∧ encode (.sub 1 2 3 0 0) ≠ [] ∧
    decode (wordBytes 0x00082064) = some (.sub 1 2 3 0 0, []) ∧ (decodeWord 0x00082064).isSome = true ∧ wellFormed (.once 0x00082064) = true ∧
    (encodeCommand .fill (readCmd (word 5 [(221, 3), (196, 2)]) 0)).isSome = true := by decide +kernel

/-- A thread on its turn, at a word that decodes, at a ONCE pair, at no instruction, at an address that is not mapped, and at a lost line. -/
def turning (nbits w : Nat) : State := State.reset.withFetchWord nbits w
theorem onTurn {s : State} {t : Thread} (h0 : s.earlyMove = none) (h1 : s.inputs = []) (h2 : s.completionMove = none) (h3 : ∃ k, s.cores = [(0, k)]) (h4 : s.coreIssues 0 (s.core 0) = true)
    (h5 : (s.core 0).last = 63) (h6 : s.thread? 0 0 = some t) (h7 : t.state = .ready ∧ t.readyAt ≤ s.cycle ∧ t.coupled = false ∧ t.forward = none)
    (h8 : (s.core 0).moving = false) : OnTurn s 0 0 t := by
  obtain ⟨k, hk⟩ := h3
  have : s.core 0 = k := by simp [State.core, hk, tabGet, tabGet?]
  exact ⟨h1, h0, h2, ⟨[], [], by rw [hk, this]; rfl, by simp⟩, h4, ⟨0, by decide, by rw [h5], fun _ h => absurd h (Nat.not_lt_zero _)⟩, h6, ⟨h7.1, h7.2.1⟩, h7.2.2, h8⟩
theorem turns (s : State) (h : (s.earlyMove.isNone && s.inputs.isEmpty && s.completionMove.isNone && s.coreIssues 0 (s.core 0) && decide ((s.core 0).last = 63) &&
    decide (s.thread? 0 0 = some thread0) && decide (s.cores.map Prod.fst = [0]) && !(s.core 0).moving) = true) : OnTurn s 0 0 thread0 := by
  simp only [Bool.and_eq_true, decide_eq_true_eq, Option.isNone_iff_eq_none, List.isEmpty_iff, Bool.not_eq_true'] at h
  obtain ⟨⟨⟨⟨⟨⟨⟨he, h0⟩, h1⟩, h2⟩, h3⟩, h4⟩, h5⟩, h6⟩ := h
  refine onTurn he h0 h1 ?_ h2 h3 h4 ⟨rfl, Nat.zero_le _, rfl, rfl⟩ h6
  cases hc : s.cores with
  | nil => rw [hc] at h5; simp at h5
  | cons e l =>
    rw [hc] at h5
    simp only [List.map_cons, List.cons.injEq, List.map_eq_nil_iff] at h5
    exact ⟨e.2, by rw [h5.2, ← h5.1]⟩
def bytesAt (s : State) (va : Nat) (b : List Byte) : Bool := match s.fetchBytes 0 va 4 with | .ok c => c == b | _ => false
theorem witness_StepRunsTheDecodedInstruction :
    OnTurn (turning 32 0x00082064) 0 0 thread0 ∧ bytesAt (turning 32 0x00082064) 0x10000 (wordBytes 0x00082064) = true ∧ decode (wordBytes 0x00082064) = some (.sub 1 2 3 0 0, []) ∧
    OnTurn (turning 64 0x00082064FC000000) 0 0 thread0 ∧ bytesAt (turning 64 0x00082064FC000000) 0x10000 (wordBytes 0xFC000000) = true ∧
    bytesAt (turning 64 0x00082064FC000000) 0x10004 (wordBytes 0x00082064) = true ∧ decode (wordBytes 0xFC000000 ++ wordBytes 0x00082064) = some (.once 0x00082064, []) ∧
    OnTurn (turning 32 0) 0 0 thread0 ∧ bytesAt (turning 32 0) 0x10000 (wordBytes 0) = true ∧ decode (wordBytes 0) = none :=
  ⟨turns _ (by decide +kernel), by decide +kernel, by decide, turns _ (by decide +kernel), by decide +kernel, by decide +kernel, by decide,
    turns _ (by decide +kernel), by decide +kernel, by decide⟩
/-- An address that is not mapped, and a lost line. -/
theorem witness_StepRunsTheDecodedInstruction_faults :
    OnTurn { stand [] with cur := .none, ctxs := [(0, oneCtx)] } 0 0 thread0 ∧ (match ({ stand [] with cur := .none, ctxs := [(0, oneCtx)] } : State).fetchBytes 0 0x10000 4 with | .fault => true | _ => false) = true ∧
    OnTurn { turning 32 0 with lost := List.range 2 } 0 0 thread0 ∧
    (match ({ turning 32 0 with lost := List.range 2 } : State).fetchBytes 0 0x10000 4 with | .lost => true | _ => false) = true := by
  exact ⟨turns _ (by decide +kernel), by decide +kernel, turns _ (by decide +kernel), by decide +kernel⟩
theorem witness_StepKeepsMemoryCanonical : (∃ u, step (turning 32 0x00082064) = .next u) ∧ Memory.wf (turning 32 0x00082064).mem = true ∧
    (turning 32 0x00082064).scratchWf = true := by
  refine ⟨?_, by decide +kernel, by decide +kernel⟩
  have h : (match step (turning 32 0x00082064) with | .next _ => true | _ => false) = true := by decide +kernel
  cases hs : step (turning 32 0x00082064) with
  | next u => exact ⟨u, rfl⟩
  | fault _ => rw [hs] at h; cases h
  | refused _ => rw [hs] at h; cases h


/-! ### Clause by clause: PARK, ONCE, landings -/

/-- A thread whose channel q8 is an input of graph 5, and one that has ended; its channel with these entries. -/
def reader (ended : Bool) : Thread := { thread0 with chans := [(0, { chan := 7, dir := 1, depth := 2, ended := ended, graph := 5 })] }
def parkBinding : Binding := { chan := 7, dir := 1, depth := 2, ended := false, graph := 5 }
def parkChan (l : List ChanEntry) (killed : Option Nat) : Chan := { depth := 2, entries := l, input := some 1, output := none, killed := killed, sealed_ := none, held := 0, diverted := 0 }
def parking (l : List ChanEntry) (killed : Option Nat) : State :=
  { stand [(2, 1)] with
    threads := [(0, reader false)], ctxs := [(0, { placedWarrant.context 1 0 0 none [0] 0 none with chans := [(5 * 256 + 7, parkChan l killed)] })] }
theorem parkPicks (l : List ChanEntry) (killed : Option Nat) (hc : (parking l killed).chan? (((parking l killed).core 0).part.getD 0) (5 * 256 + 7) = some (parkChan l killed))
    (hm : regWord (parking l killed) 0 (reader false) 2 = 1) :
    ParkPicks (parking l killed) 0 (reader false) (regWord (parking l killed) 0 (reader false) 2) 0 parkBinding (parkChan l killed) := by
  refine ⟨fun i hi h => ?_, ⟨by decide, by rw [hm]; decide⟩, rfl, rfl, hc, fun i h => absurd h (Nat.not_lt_zero _)⟩
  rw [hm] at h
  have : i = 0 := by
    rcases Nat.eq_zero_or_pos i with h0 | h0
    · exact h0
    · exact absurd h (by revert i; decide)
  subst this
  exact ⟨parkBinding, rfl, rfl⟩
/-- At the head of the channel: data, a lost entry, a marker, the end of stream; no entry and a killed feeder. -/
def parkStates : List (List ChanEntry × Option Nat) := [([ChanEntry.data 5], none), ([.token], none), ([.marker 3], none), ([.eos], none), ([], some 1)]
theorem parkStates_channel : (parkStates.all fun x => (parking x.1 x.2).chan? (((parking x.1 x.2).core 0).part.getD 0) (5 * 256 + 7) == some (parkChan x.1 x.2) &&
    regWord (parking x.1 x.2) 0 (reader false) 2 == 1) = true := by decide +kernel
theorem parkStates_good : ∀ x ∈ parkStates, Good (parking x.1 x.2) (reader false) [1, 2] := by
  intro x hx
  refine good rfl (by decide +kernel) rfl rfl ?_
  revert x
  decide +kernel
theorem witness_WorkIssues_park : ∀ x ∈ parkStates, Good (parking x.1 x.2) (reader false) [1, 2] ∧
    ParkPicks (parking x.1 x.2) 0 (reader false) (regWord (parking x.1 x.2) 0 (reader false) 2) 0 parkBinding (parkChan x.1 x.2) := by
  intro x hx
  have h := List.all_eq_true.mp parkStates_channel x hx
  simp only [Bool.and_eq_true, beq_iff_eq] at h
  exact ⟨parkStates_good x hx, parkPicks _ _ h.1 h.2⟩
/-- A mask of one channel, which has ended. -/
def parkEnded : State := { stand [(2, 1)] with threads := [(0, reader true)] }
theorem witness_WorkIssues_ended : Good parkEnded (reader true) [1, 2] ∧ regWord parkEnded 0 (reader true) 2 = 1 ∧
    (∀ i < 8, (1 : Word).getLsbD i = true → (tabGet? (reader true).chans i).map (fun b => (b.dir, b.ended)) = some (1, true)) :=
  ⟨good rfl (by decide +kernel) rfl rfl (by decide +kernel), by decide +kernel, by decide⟩

/-- A gang's member that does not lead it; words that ONCE may prefix, of each class of the statement, and words that it may not. -/
theorem witness_OnceIsThePrefixedInstruction_words :
    Good { stand [] with threads := [(0, member)] } member [] ∧ member.coupled = true ∧ member.gangPos ≠ 0 ∧ (3 : BitVec 7).toNat < member.size ∧
    decodeWord 0x0C082000 = some (.clz 1 2 0) ∧ decodeWord 0x40082060 = some (.faddF32 1 2 3 0 0) ∧ decodeWord 0x80082000 = some (.ld 1 2 0 0 0 0) ∧
    ([0x00082064#32, 0x0C082000#32, 0x40082060#32, 0x80082000#32, 0xF4082140#32].all fun w => (decodeWord w).isSome && mayFollowOnce w) = true ∧
    ([0x60000001#32, 0xFC000000#32, 0xF4002180#32].all fun w => !mayFollowOnce w) = true ∧ decodeWord 0x74000020 = none :=
  ⟨good rfl (by decide +kernel) rfl rfl rfl, rfl, by decide +kernel⟩

/-- An entry that an earlier-issued instruction has written in this cycle; a thread that owes nothing, no range held, a value to an entry outside the window. -/
theorem witness_CompletionTakesEffect_prevails : Prevails (flying thread0 [.reg 1 7]) 0 1 1 ∧ Prevails { flying thread0 [.reg 1 7] with wrote := [(1, 0)] } 0 1 1 ∧
    OwesNone (accessing []) (flyer thread0 []) ∧ (accessing []).rangeHeld 0 [own.toNat] 8 = false ∧ (owing (.value 5 none)).arg.flag = false ∧
    (owing (.value 5 none)).ownByte 1 0 0 1 0x5000 = none := by
  refine ⟨fun w h => absurd h (List.not_mem_nil), ?_, fun q h => absurd h (List.not_mem_nil), by decide +kernel, rfl, by decide +kernel⟩
  intro w h _
  rw [List.mem_singleton] at h
  subst h
  exact Nat.zero_le _
/-- A value on its way to an entry that the thread's window does not hold. -/
theorem witness_PostsAndNotifiesLand_outside :
    let s : State := { landing none 0 with nwrites := (landing none 0).nwrites.map fun d => { d with reg := 200 } }
    s.mayLandNwrite 0 = true ∧ (s.thread? 0 0).map (fun t => decide (t.size ≤ 200)) = some true ∧ (s.core 0).fenced = false ∧ s.swappedAt 0 0 = none := by decide +kernel
/-- A committed entry with a byte in a core's scratchpad, and one with a byte on a device that a port that is up reaches. -/
theorem witness_StoreBecomesVisible_homes :
    (({ showing with pend := [{ writes := [(scratchHome + 4, 1)], parts := [], order := 1, due := 12, rel := none, uid := 1, core := 0, part := 0 }] } : State).core 0).fenced = false ∧
    showing.arg.flag = false := by decide +kernel

/-! ### Engine commands that nothing holds back, and what they write -/

/-- What nothing holds back but the checks, as one test. -/
theorem unhindered {s : State} {e : CmdEntry} {q op : Nat} {l : List Span} (h : Starting s e q op) (hi : s.active = [] ∧ s.locks = [] ∧ s.arrivals = [] ∧ s.passed = [])
    (hk : (!(s.core e.core).moving && !(s.core e.core).fenced && !s.fencedDecks.contains (deckOf e.core) && decide (l.length ≤ 64) &&
      ((s.ctx? e.part).map fun x => x.ending == none) == some true) = true) : Unhindered s e q op l := by
  simp only [Bool.and_eq_true, Bool.not_eq_true', decide_eq_true_eq, beq_iff_eq, List.contains_eq_mem, decide_eq_false_iff_not] at hk
  obtain ⟨⟨⟨⟨h1, h2⟩, h3⟩, h4⟩, h5⟩ := hk
  refine ⟨h.cur, h.queue, h.opcode, h.passes, ⟨h1, h2, h3⟩, ?_, hi.1, ⟨hi.2.1, h4⟩, hi.2.2⟩
  cases hx : s.ctx? e.part with
  | none => rw [hx] at h5; simp at h5
  | some x => rw [hx] at h5; exact ⟨x, rfl, by simpa using h5⟩

theorem starting_idle (e : CmdEntry) : (starting e).active = [] ∧ (starting e).locks = [] ∧ (starting e).arrivals = [] ∧ (starting e).passed = [] := ⟨rfl, rfl, rfl, rfl⟩
theorem copyOnes_free : (copyOnes.all fun x => !((starting x.2).core x.2.core).moving && !((starting x.2).core x.2.core).fenced &&
    !(starting x.2).fencedDecks.contains (deckOf x.2.core) && decide (x.2.copySpans.length ≤ 64) &&
    (((starting x.2).ctx? x.2.part).map fun x => x.ending == none) == some true) = true := by decide +kernel
theorem witness_CopyCommandsStart_unhindered : ∀ x ∈ copyOnes, Unhindered (starting x.2) x.2 2 x.1 x.2.copySpans ∧ x.2.stream = false := by
  intro x hx
  refine ⟨unhindered (copyOnes_start x hx) (starting_idle _) (List.all_eq_true.mp copyOnes_free x hx), ?_⟩
  revert x
  decide +kernel
theorem tileOnes_free : (tileOnes.all fun x => !((starting x.2).core x.2.core).moving && !((starting x.2).core x.2.core).fenced &&
    !(starting x.2).fencedDecks.contains (deckOf x.2.core) && decide (x.2.tileSpans.length ≤ 64) &&
    (((starting x.2).ctx? x.2.part).map fun x => x.ending == none) == some true) = true := by decide +kernel
theorem tileOnes_full : (tileOnes.all fun x => ((starting x.2).operandRegs x.2).all fun r => ((starting x.2).regAt x.2.core r).full &&
    decide (((starting x.2).regAt x.2.core r).flips < 2)) = true := by decide +kernel
theorem witness_TileCommandsStart_unhindered : ∀ x ∈ tileOnes, Unhindered (starting x.2) x.2 0 x.1 x.2.tileSpans ∧
    (∀ r ∈ (starting x.2).operandRegs x.2, ((starting x.2).regAt x.2.core r).full = true ∧ ((starting x.2).regAt x.2.core r).flips < 2) := by
  intro x hx
  refine ⟨unhindered (tileOnes_start x hx) (starting_idle _) (List.all_eq_true.mp tileOnes_free x hx), fun r hr => ?_⟩
  simpa using List.all_eq_true.mp (List.all_eq_true.mp tileOnes_full x hx) r hr
theorem routeOnes_free : ((tokenOnes ++ [0x10, 0x11, 0x12, 0x13].map fun op => (op, collOne op)).all fun x =>
    !((starting x.2).core x.2.core).moving && !((starting x.2).core x.2.core).fenced &&
    !(starting x.2).fencedDecks.contains (deckOf x.2.core) && decide (((starting x.2).routeSpans x.2).length ≤ 64) &&
    (((starting x.2).ctx? x.2.part).map fun x => x.ending == none) == some true) = true := by decide +kernel
theorem witness_RouteCommandsStart_unhindered : ∀ x ∈ tokenOnes ++ [0x10, 0x11, 0x12, 0x13].map fun op => (op, collOne op),
    Unhindered (starting x.2) x.2 4 x.1 ((starting x.2).routeSpans x.2) := by
  intro x hx
  refine unhindered ?_ (starting_idle _) (List.all_eq_true.mp routeOnes_free x hx)
  rcases List.mem_append.mp hx with h | h
  · exact tokenOnes_start x h
  · obtain ⟨op, ho, rfl⟩ := List.mem_map.mp h
    exact collOnes_start op ho

/-- Every element of a block of 32 x 32 reads as zeros, or has its home, at the command's operand rows. -/
def readsZero (e : CmdEntry) (base geometry n : Nat) : Bool :=
  (List.range 32).all fun i => (List.range 32).all fun j => match (starting e).elemRead e (rowByte base geometry i (j * n)) n with | .ok b => b == List.replicate n 0 | _ => false
def hasHomes (e : CmdEntry) (base geometry n : Nat) : Bool :=
  (List.range 32).all fun i => (List.range 32).all fun j =>
    isHome ((starting e).elemHome e (rowByte base geometry i (j * n)) n 1) (scratchHome + (base % 2 ^ 20) + 64 * i + j * n)
theorem reads_zero {e : CmdEntry} {base geometry n : Nat} (h : readsZero e base geometry n = true) :
    ∀ i j, i < 32 → j < 32 → (starting e).elemRead e (rowByte base geometry i (j * n)) n = .ok (List.replicate n 0) := by
  intro i j hi hj
  have h := List.all_eq_true.mp (List.all_eq_true.mp h i (List.mem_range.mpr hi)) j (List.mem_range.mpr hj)
  split at h
  · next b hb => rw [hb, eq_of_beq h]
  · exact absurd h (by decide)
theorem has_homes {e : CmdEntry} {base geometry n : Nat} (h : hasHomes e base geometry n = true) :
    ∀ i j, i < 32 → j < 32 → (starting e).elemHome e (rowByte base geometry i (j * n)) n 1 = .ok (scratchHome + (base % 2 ^ 20) + 64 * i + j * n) :=
  fun i j hi hj => isHome_eq (List.all_eq_true.mp (List.all_eq_true.mp h i (List.mem_range.mpr hi)) j (List.mem_range.mpr hj))

/-- ACC.LOAD, ACC.STORE, the products of plain operands (the operands' reads of the first alone), TRANSPOSE and SCALE on 32 x 32 (x 32) elements of zeros. -/
def loadOne : CmdEntry := tileCmd 0x02 [] [pad 0, rows]
def storeOne : CmdEntry := tileCmd 0x03 [(199, 7)] [pad 0, rows]
def blockOne (op : Nat) : CmdEntry := tileCmd op [(208, 1)] [pad 0, rows, pad 0x4000, rows]
theorem blockOnes_start : ∀ op ∈ [0x10, 0x11, 0x12, 0x15, 0x16, 0x30, 0x34], Starting (starting (blockOne op)) (blockOne op) 0 op := by
  intro x hx
  simp only [List.mem_cons, List.not_mem_nil, or_false] at hx
  rcases hx with rfl | rfl | rfl | rfl | rfl | rfl | rfl <;>
    exact ⟨rfl, rfl, by decide +kernel, tile_passes (command_crc _ _ _) (by decide +kernel), by decide +kernel⟩
theorem witness_TileCommandsStart_words : Starting (starting loadOne) loadOne 0 0x02 ∧ Starting (starting storeOne) storeOne 0 0x03 ∧
    (∀ e, ((starting e).core 0).replay = []) ∧ (∀ e ∈ [loadOne, storeOne], bodyType e = 0 ∧ bodyM e = 32 ∧ bodyN e = 32 ∧ operand e 0 = pad 0 ∧ operand e 1 = rows) ∧
    (∀ i j, i < 32 → j < 32 → (starting loadOne).elemRead loadOne (rowByte (pad 0) rows i (j * 4)) 4 = .ok (List.replicate 4 0)) ∧
    (∀ i j, i < 32 → j < 32 → (starting storeOne).elemHome storeOne (rowByte (pad 0) rows i (j * 4)) 4 1 = .ok (scratchHome + pad 0 % 2 ^ 20 + 64 * i + j * 4)) :=
  ⟨tileOnes_start (0x02, loadOne) (.tail _ (.head _)), tileOnes_start (0x03, storeOne) (.tail _ (.tail _ (.head _))), fun _ => rfl, by decide +kernel,
    reads_zero (by decide +kernel), has_homes (by decide +kernel)⟩
theorem finite {x : Fp} (h : (match x with | .fin _ _ _ => true | _ => false) = true) : Finite x := by
  cases x with
  | fin n m e => exact ⟨n, m, e, rfl⟩
  | _ => cases h
theorem witness_TileCommandsStart_products : ((plainProducts.take 1).all fun x => let e := blockOne x.1
      body e 202 2 == 0 && body e 196 2 == 0 && bodyM e == 32 && bodyN e == 32 && bodyK e == 32 && operand e 0 == pad 0 && operand e 1 == rows && operand e 2 == pad 0x4000 &&
      operand e 3 == rows && readsZero e (pad 0) rows (typeBytes x.2.1) && readsZero e (pad 0x4000) rows (typeBytes x.2.2.1)) = true ∧
    (∀ x ∈ plainProducts, Starting (starting (blockOne x.1)) (blockOne x.1) 0 x.1) ∧
    (∀ x ∈ plainProducts, Finite (decodeType x.2.1 (bytesNat (List.replicate (typeBytes x.2.1) 0))) ∧ Finite (decodeType x.2.2.1 (bytesNat (List.replicate (typeBytes x.2.2.1) 0))) ∧
      Finite (unpack f32 (fpMul f32 (operand (blockOne x.1) 6) (operand (blockOne x.1) 7)).1)) := by
  refine ⟨by decide +kernel, fun x hx => blockOnes_start _ ?_, fun x hx => ?_⟩
  · revert x; decide
  · simp only [plainProducts, List.mem_cons, List.not_mem_nil, or_false] at hx
    rcases hx with rfl | rfl | rfl | rfl | rfl <;> exact ⟨finite (by decide +kernel), finite (by decide +kernel), finite (by decide +kernel)⟩
theorem blocks_move : ([0x30, 0x34].all fun op => bodyM (blockOne op) == 32 && bodyK (blockOne op) == 32 && bodyType (blockOne op) == 0 &&
    operand (blockOne op) 0 == pad 0 && operand (blockOne op) 1 == rows && operand (blockOne op) 2 == pad 0x4000 && operand (blockOne op) 3 == rows &&
    readsZero (blockOne op) (pad 0) rows 4 && hasHomes (blockOne op) (pad 0x4000) rows 4) = true := by decide +kernel
theorem witness_TileCommandsStart_blocks : ∀ op ∈ [0x30, 0x34], Starting (starting (blockOne op)) (blockOne op) 0 op ∧
    (∀ r c, r < 32 → c < 32 → (starting (blockOne op)).elemRead (blockOne op) (rowByte (pad 0) rows r (c * 4)) 4 = .ok (List.replicate 4 0)) ∧
    (∀ r c, r < 32 → c < 32 → (starting (blockOne op)).elemHome (blockOne op) (rowByte (pad 0x4000) rows r (c * 4)) 4 1 =
      .ok (scratchHome + pad 0x4000 % 2 ^ 20 + 64 * r + c * 4)) := by
  intro op hop
  have hm : op ∈ [0x10, 0x11, 0x12, 0x15, 0x16, 0x30, 0x34] := by revert op; decide
  have h := List.all_eq_true.mp blocks_move op hop
  simp only [Bool.and_eq_true] at h
  exact ⟨blockOnes_start op hm, reads_zero h.1.2, has_homes h.2⟩

/-- What a read of the route engine answers. -/
def isBytes (x : Except ElemFault (List Byte)) (b : List Byte) : Bool := match x with | .ok c => c == b | .error _ => false
theorem isBytes_eq {x : Except ElemFault (List Byte)} {b : List Byte} (e : isBytes x b = true) : x = .ok b := by
  cases x with
  | ok g => simp only [isBytes, beq_iff_eq] at e; rw [e]
  | error _ => simp [isBytes] at e
/-- RTE.LIST of one token, whose choice is expert 0 on device 0. -/
def listOne : CmdEntry := command 4 (word 1 [(208, 1), (200, 1)]) (operands [pad 0, pad 0x1000, pad 0x2000, pad 0x3000, 16])
theorem witness_RouteCommandsStart_list : Starting (starting listOne) listOne 4 1 ∧ body listOne 208 16 = 1 ∧ body listOne 184 8 = 0 ∧ operand listOne 4 = 16 ∧
    (starting listOne).routeRead listOne (operand listOne 0) 16 = .ok (List.replicate 16 0) ∧
    (starting listOne).routeRead listOne (operand listOne 1) 16 = .ok (List.replicate 16 0) ∧
    (starting listOne).elemHome listOne (operand listOne 3) 2 1 = .ok (scratchHome + 0x3000) ∧
    (starting listOne).elemHome listOne (operand listOne 2) 4 1 = .ok (scratchHome + 0x2000) :=
  ⟨tokenOnes_start (1, listOne) (.head _), by decide +kernel, by decide +kernel, by decide +kernel, isBytes_eq (by decide +kernel), isBytes_eq (by decide +kernel),
    isHome_eq (by decide +kernel), isHome_eq (by decide +kernel)⟩
/-- RTE.COMBINE of one token, which its placement says was dropped (2), or has come back from expert 0 of the device with this number: its line, with room for one token,
stands at 0x5000 of the scratchpad and its tokens at 0x6000. -/
def combineOne : CmdEntry := command 4 (word 3 [(208, 1), (200, 1)]) (operands [pad 0, pad 0x1000, pad 0x2000, pad 0x3000, pad 0x4000])
def combineBytes (outcome : Byte) (d : Nat) : Tab Byte :=
  [(0x2000, BitVec.ofNat 8 d), (0x2009, 0x50), (0x200C, 0xF8), (0x200D, 0xFF), (0x4004, outcome), (0x5000, 1), (0x5021, 0x60), (0x5024, 0xF8), (0x5025, 0xFF)]
def combining (outcome : Byte) (d : Nat) : State := { starting combineOne with scratch := combineBytes outcome d }
/-- Bytes that the machine can read for a command in the scratchpad of core 0, whatever stands there. -/
def reachable (e : CmdEntry) (off n : Nat) : Bool := (List.range n).all fun i =>
  isHome ((starting e).elemHome e (pad off + i) 1 0) (scratchHome + off + i) && ((starting e).homeLost [scratchHome + off + i]).isNone &&
    ((starting e).badScratch [scratchHome + off + i]).isNone
theorem engine_bytes {s : State} {e : CmdEntry} {va : Nat} {b : Nat → Byte} : ∀ n, (∀ i, i < n → s.elemRead e (va + i) 1 = .ok [b i]) →
    s.engineBytes e va n = .ok ((List.range n).map b)
  | 0, _ => rfl
  | n + 1, h => by
    have ih := engine_bytes n fun i hi => h i (Nat.lt_succ_of_lt hi)
    unfold State.engineBytes at ih ⊢
    rw [List.range_succ, List.foldl_append, ih]
    simp [h n (Nat.lt_succ_self n)]
theorem route_reads {e : CmdEntry} {sc : Tab Byte} {off n : Nat} (h : reachable e off n = true) :
    State.routeRead { starting e with scratch := sc } e (pad off) n = .ok ((List.range n).map fun i => tabGet sc (off + i) 0) := by
  have : State.engineBytes { starting e with scratch := sc } e (pad off) n = .ok ((List.range n).map fun i => tabGet sc (off + i) 0) := by
    refine engine_bytes n fun i hi => ?_
    have h := List.all_eq_true.mp h i (List.mem_range.mpr hi)
    simp only [Bool.and_eq_true, Option.isNone_iff_eq_none] at h
    have hh : State.elemHome { starting e with scratch := sc } e (pad off + i) 1 0 = .ok (scratchHome + off + i) := isHome_eq h.1.1
    have hl : State.homeLost { starting e with scratch := sc } [scratchHome + off + i] = none := h.1.2
    have hb : State.badScratch { starting e with scratch := sc } [scratchHome + off + i] = none := h.2
    have hv : State.homeByte { starting e with scratch := sc } (scratchHome + off + i) = tabGet sc (off + i) 0 := by
      have h1 : scratchHome + off + i ≥ scratchHome := by omega
      have h2 : scratchHome + off + i - scratchHome = off + i := by omega
      simp only [State.homeByte, h1, if_true, h2]
      rfl
    simp [State.elemRead, hh, hl, hb, hv, State.homeBytes, List.range_succ]
  simp only [State.routeRead, this]
def placedBytes (outcome : Byte) : List Byte := [0, 0, 0, 0, outcome, 0, 0, 0]
def expertBytes (d : Nat) : List Byte := [BitVec.ofNat 8 d, 0, 0, 0, 0, 0, 0, 0, 0, 0x50, 0, 0, 0xF8, 0xFF, 0, 0]
def lineBytes : List Byte := natBytes 32 1 ++ natBytes 32 (pad 0x6000)
theorem combine_reads : (reachable combineOne 0x1000 16 && reachable combineOne 0x2000 16 && reachable combineOne 0x3000 4 && reachable combineOne 0x4000 8 &&
    reachable combineOne 0x5000 64 && reachable combineOne 0x6000 64) = true := by decide +kernel
theorem combine_homes : ((List.range 64).all fun j => isHome ((starting combineOne).elemHome combineOne (pad 0 + j) 1 1) (scratchHome + j)) = true := by decide +kernel
theorem combine_words : operand combineOne 0 = pad 0 ∧ operand combineOne 1 = pad 0x1000 ∧ operand combineOne 2 = pad 0x2000 ∧ operand combineOne 4 = pad 0x4000 ∧
    64 * body combineOne 200 8 = 64 ∧ body combineOne 192 8 = 0 ∧ combineOne.op 3 = pad 0x3000 ∧ combineOne.nTok = 1 := by decide +kernel
theorem combine_bytes (o : Byte) (d : Nat) :
    ((List.range 8).map fun i => tabGet (combineBytes o d) (0x4000 + i) 0) = placedBytes o ∧
    ((List.range 16).map fun i => tabGet (combineBytes o d) (0x1000 + i) 0) = List.replicate 16 0 ∧
    ((List.range 16).map fun i => tabGet (combineBytes o d) (0x2000 + i) 0) = expertBytes d ∧
    ((List.range 64).map fun i => tabGet (combineBytes o d) (0x5000 + i) 0) = lineBytes ∧
    ((List.range 64).map fun i => tabGet (combineBytes o d) (0x6000 + i) 0) = List.replicate 64 0 ∧
    ((List.range 2).map fun i => tabGet (combineBytes o d) (0x3000 + i) 0) = [0, 0] :=
  ⟨rfl, rfl, rfl, rfl, rfl, rfl⟩
theorem placed_fields (o : Byte) : byteNat (placedBytes o) 4 1 = o.toNat ∧ byteNat (placedBytes o) 0 2 = 0 ∧ byteNat (placedBytes o) 2 2 = 0 := by
  simp [byteNat, placedBytes, bytesNat]
theorem expert_fields (d : Nat) : byteNat (expertBytes d) 0 1 = d % 256 ∧ byteNat (expertBytes d) 8 8 = pad 0x5000 := by
  simp [byteNat, expertBytes, bytesNat, pad]
theorem line_fields : byteNat lineBytes 0 4 = 1 ∧ bytesNat (lineBytes.drop 0x28) = 0 ∧ byteNat lineBytes 0x20 8 = pad 0x6000 := by decide +kernel
theorem combine_finds (o : Byte) (d : Nat) (ho : o.toNat ≤ 2) (hd : o.toNat < 2 → d % 256 = ownDevice) :
    CombineFinds (combining o d) combineOne 0 (placedBytes o) (List.replicate 16 0) (expertBytes d) lineBytes (List.replicate 64 0) fun j => scratchHome + j := by
  have r := combine_reads
  simp only [Bool.and_eq_true] at r
  obtain ⟨⟨⟨⟨⟨r1, r2⟩, r3⟩, r4⟩, r5⟩, r6⟩ := r
  obtain ⟨b4, b1, b2, b5, b6, -⟩ := combine_bytes o d
  obtain ⟨w0, w1, w2, w4, wv, wn, -, -⟩ := combine_words
  obtain ⟨f0, f1, f2⟩ := placed_fields o
  obtain ⟨g0, g1⟩ := expert_fields d
  obtain ⟨l0, l1, l2⟩ := line_fields
  unfold combining
  refine ⟨?_, by rw [f0]; exact ho, fun h => ⟨?_, by rw [f1]; exact Nat.zero_le _, ?_, ?_, by rw [g1]; decide, ?_, le_of_eq l0.symm, by rw [l0]; decide, l1, ?_⟩, fun j hj => ?_⟩
  · rw [w4, Nat.mul_zero, Nat.add_zero, route_reads r4, b4]
  · rw [w1, Nat.mul_zero, Nat.add_zero, route_reads r1, b1]
  · rw [w2, f1, Nat.mul_zero, Nat.add_zero, route_reads r2, b2]
  · rw [g0]; rw [f0] at h; exact hd h
  · rw [g1, route_reads r5, b5]
  · rw [l2, f2, wv, Nat.zero_mul, Nat.add_zero, route_reads r6, b6]
  · rw [wv] at hj
    rw [w0, Nat.zero_mul, Nat.add_zero]
    exact isHome_eq (List.all_eq_true.mp combine_homes j (List.mem_range.mpr hj))
theorem combine_list (o : Byte) (d : Nat) : (combining o d).indexList combineOne = .ok [0] := by
  have r := combine_reads
  simp only [Bool.and_eq_true] at r
  obtain ⟨-, -, -, -, -, -, w3, wt⟩ := combine_words
  have h : State.routeRead (combining o d) combineOne (pad 0x3000) 2 = .ok [0, 0] := by
    unfold combining
    rw [route_reads (by decide +kernel), (combine_bytes o d).2.2.2.2.2]
  unfold State.indexList
  rw [wt, w3]
  simp [List.range_succ, h, bytesNat]
theorem start_list : (starting combineOne).indexList combineOne = .ok [0] := by
  have h : (match (starting combineOne).indexList combineOne with | .ok l => l == [0] | .error _ => false) = true := by decide +kernel
  split at h
  · next l hl => rw [hl, eq_of_beq h]
  · exact absurd h (by decide)
theorem combine_spans (o : Byte) (d : Nat) : (combining o d).routeSpans combineOne = (starting combineOne).routeSpans combineOne := by
  unfold State.routeSpans State.routeRanges
  rw [combine_list, start_list]
  rfl
theorem combining_starts (o : Byte) (d : Nat) : Starting (combining o d) combineOne 4 3 := by
  have h : Starting (starting combineOne) combineOne 4 3 := tokenOnes_start (3, combineOne) (.tail _ (.tail _ (.head _)))
  refine ⟨rfl, h.queue, h.opcode, route_passes (command_crc _ _ _) (by decide +kernel) (by decide +kernel), ?_⟩
  have hc := h.conditions
  simp only [State.commandMayStart, h.queue] at hc ⊢
  unfold State.routeMayStart at hc ⊢
  rw [combine_spans]
  exact hc
theorem witness_RouteCommandsStart_combine : ∀ x ∈ [((2 : Byte), 0), (0, ownDevice)], Starting (combining x.1 x.2) combineOne 4 3 ∧ (combining x.1 x.2).indexList combineOne = .ok [0] ∧
    CombineFinds (combining x.1 x.2) combineOne 0 (placedBytes x.1) (List.replicate 16 0) (expertBytes x.2) lineBytes (List.replicate 64 0) fun j => scratchHome + j := by
  intro x hx
  refine ⟨combining_starts _ _, combine_list _ _, combine_finds _ _ ?_ ?_⟩
  · simp only [List.mem_cons, List.not_mem_nil, or_false] at hx
    rcases hx with rfl | rfl <;> decide
  · simp only [List.mem_cons, List.not_mem_nil, or_false] at hx
    rcases hx with rfl | rfl
    · exact fun h => absurd h (by decide)
    · exact fun _ => Nat.mod_eq_of_lt Config.deviceId.isLt

end

end Sys2Proof.Tests
end

