-- ==== Sys2Proof/Tests/Completions.lean ====
section
/-! SUPPORT. More states and operands that meet hypotheses of obligations: the roundings, the effects of completions, mapping requests, admissions, and the host's
windows. -/
namespace Sys2Proof.Tests
open Sys2Proof Sys2Proof.Machine Sys2Proof.Slice0

section
set_option Elab.async false

/-! ### Numbers, zeros, infinities and NaN of the formats -/

theorem pattern_numbers : numberOf f32 0x3F800000 = some 1 ∧ numberOf f32 0xC0000000 = some (-2) ∧ numberOf f32 0x00000001 = some (1 / 2 ^ 149) ∧
    numberOf f32 0 = some 0 ∧ numberOf f32 0x80000000 = some 0 ∧ numberOf f64 0x3FF0000000000000 = some 1 ∧ numberOf f64 0x7FF0000000000000 = none ∧
    numberOf bf16 0x3F80 = some 1 := by decide +kernel
theorem witness_FloatIssues_rounding :
    (∀ a ∈ [0x3F800000, 0xC0000000, 1, 0, 0x80000000, 0x7FC00000, 0x7F800001, infBits f32, signed f32 true (infBits f32)], Pattern f32 a) ∧
    (1 : Rat) + (-2) ≠ 0 ∧ (1 : Rat) + (-1) = 0 ∧ numberOf f32 0xBF800000 = some (-1) ∧
    nanBits f32 0x7FC00000 ∧ ¬ snanBits f32 0x7FC00000 ∧ snanBits f32 0x7F800001 ∧ ¬ nanBits f32 0x3F800000 ∧
    Pattern f64 0x3FF0000000000000 ∧ Pattern bf16 0x3F80 ∧ nanBits f64 0x7FF8000000000000 := by
  simp only [Pattern, snanBits, nanBits]
  decide +kernel

/-! ### SAMPLE, NWRITE to another partition, ONCE with nothing forwarded -/

/-- A core that accepted a software sample in this cycle, and one that never did; a context that counts what is dropped. -/
def sampling (last : Nat) : State :=
  { stand [(1, 7)] with
    cores := [(0, { Core.reset with part := some 0, softSample := last })], ctxs := [(0, placedWarrant.context 1 0 0 none [0] 0 none)] }
theorem witness_SysIssues_sample : Good (sampling 1) thread0 [1] ∧ Good (sampling 0) thread0 [1] ∧ ((sampling 1).core 0).softSample ≠ 0 ∧
    (sampling 1).cycle < ((sampling 1).core 0).softSample - 1 + 64 ∧ ((sampling 0).core 0).softSample = 0 ∧ ((sampling 1).core 0).part = some 0 ∧
    ((sampling 1).ctx? 0).isSome = true :=
  ⟨good rfl (by decide +kernel) rfl rfl (by decide +kernel), good rfl (by decide +kernel) rfl rfl (by decide +kernel), by decide +kernel⟩
theorem witness_NeighbourIssues_permission : let near := 0 / 4 * 4 + (regWord neighbours 0 thread0 2).toNat % 4
    Good neighbours thread0 [1, 2] ∧ (neighbours.core near).part ≠ some (((neighbours.core 0).part).getD 0) ∧ (neighbours.core near).fenced = false :=
  ⟨good rfl (by decide +kernel) rfl rfl (by decide +kernel), by decide +kernel, by decide +kernel⟩
theorem witness_OnceIsThePrefixedInstruction_forward : thread0.forward = none ∧ thread0.loopEndsAt thread0.pc = false := by decide
theorem witness_DecodingOfSpecWords : Good (stand []) thread0 [0, 1, 2, 3, 4, 5, 6, 7, 8] := witness_issue

/-! ### Mapping requests that are served -/

/-- An instruction of the thread t in flight in slot 0, and nothing else under way. -/
def flyIn (s : State) (t : Thread) (fx : List Effect) : State :=
  { s with cur := .none, cycle := 12, arg := { Arg.none with n := 0, m := 0 }, threads := [(0, flyer t fx)] }
/-- What a thread in flight must be for that, of thread and machine. -/
structure FliesIn (s : State) (t : Thread) : Prop where
  thread : t.coupled = false ∧ t.after = none ∧ t.lp0.active = false ∧ t.lp1.active = false ∧ t.buffer = []
  core : tabGet? s.doomed 0 = none ∧ (s.core 0).issued ≠ 13 ∧ s.sectionAt ((s.core 0).part.getD 0) t.pc.toNat = none
  quiet : (s.pend = [] ∧ s.arrivals = [] ∧ s.passed = []) ∧ (s.locks = [] ∧ s.active = [])
  wrote : s.wrote = []
theorem fliesIn {s : State} {t : Thread} (h : (!t.coupled && t.after.isNone && !t.lp0.active && !t.lp1.active && t.buffer.isEmpty && (tabGet? s.doomed 0).isNone &&
    (s.core 0).issued != 13 && (s.sectionAt ((s.core 0).part.getD 0) t.pc.toNat).isNone && s.pend.isEmpty && s.arrivals.isEmpty && s.passed.isEmpty && s.locks.isEmpty &&
    s.active.isEmpty && s.wrote.isEmpty) = true) : FliesIn s t := by
  simp only [Bool.and_eq_true, Bool.not_eq_true', Option.isNone_iff_eq_none, List.isEmpty_iff, bne_iff_ne, ne_eq] at h
  obtain ⟨⟨⟨⟨⟨⟨⟨⟨⟨⟨⟨⟨⟨a, b⟩, c⟩, d⟩, e⟩, f⟩, g⟩, i⟩, j⟩, k⟩, l⟩, m⟩, n⟩, o⟩ := h
  exact ⟨⟨a, b, c, d, e⟩, ⟨f, g, i⟩, ⟨⟨j, k, l⟩, m, n⟩, o⟩
theorem flyIn_first (s : State) (t : Thread) (fx : List Effect) (p : Nat) : (flyIn s t fx).mapsBefore p 1 = false := by
  simp [State.mapsBefore, State.pickThreads, flyIn, flyer, flight]
theorem flyIn_single {s : State} {t : Thread} (h : FliesIn s t) (fx : List Effect) : Single (flyer t fx) (flight fx) :=
  ⟨h.thread.2.2.1, h.thread.2.2.2.1, rfl, rfl⟩
/-- It completes, is no pair, no last word of a loop and no transfer, owes nothing, and nothing holds a request back. -/
theorem flyIn_goes {s : State} {t : Thread} (h : FliesIn s t) (fx : List Effect) : Completing (flyIn s t fx) 0 0 (flyer t fx) (flight fx) ∧
    Straight (flyer t fx) (flight fx) ∧ NothingOwed (flyIn s t fx) (flyer t fx) ∧ Unhampered (flyIn s t fx) 0 (flight fx) ∧
    (∀ e, Prevails (flyIn s t fx) 0 e 1) ∧ (flyIn s t fx).ctx? 0 = s.ctx? 0 := by
  refine ⟨⟨⟨rfl, rfl⟩, by decide, rfl, rfl, Nat.le_refl _, rfl, h.thread.1, h.thread.2.1, h.core.1, h.core.2.1, h.core.2.2⟩,
    ⟨flyIn_single h fx, rfl, .inl (show 0 < 0x17 by decide), rfl⟩, ⟨h.thread.2.2.2.2, ?_, ?_, h.quiet.1.2.2⟩,
    ⟨flyIn_first s t fx 0, fun e hm => ?_, h.quiet.1, h.quiet.2⟩, fun e w hw => ?_, rfl⟩
  · intro e he
    rw [show (flyIn s t fx).pend = s.pend from rfl, h.quiet.1.1] at he
    exact absurd he List.not_mem_nil
  · intro e he
    rw [show (flyIn s t fx).arrivals = s.arrivals from rfl, h.quiet.1.2.1] at he
    exact absurd he List.not_mem_nil
  · rw [List.mem_singleton.mp hm]; exact h.thread.2.2.2.2
  · rw [show (flyIn s t fx).wrote = s.wrote from rfl, h.wrote] at hw
    exact absurd hw List.not_mem_nil

/-- The context of `tasking` has a page of 2 MiB at 0x40000000 and its code at 0x10000. -/
theorem tasking_flies : FliesIn tasking thread0 := fliesIn (by decide +kernel)
theorem tasking_ctx : tasking.ctx? 0 = some taskCtx := by decide +kernel
/-- MEM.MAP of a page of 2 MiB (status 0), and of none (1); MEM.UNMAP and MEM.ATTR of the page that is mapped (0), and of where none is. -/
theorem witness_MappingIssues_served : FliesIn tasking thread0 ∧ tasking.ctx? 0 = some taskCtx ∧
    ((flyIn tasking thread0 [.memMap 1 0 0 0 (0x50000000 + 5 * 2 ^ 48) 1]).memMap 0 0 0 0 1 (0x50000000 + 5 * 2 ^ 48) 1).1 = 0 ∧
    ((flyIn tasking thread0 [.memMap 1 0 0 0 (0x50000000 + 5 * 2 ^ 48) 0]).memMap 0 0 0 0 1 (0x50000000 + 5 * 2 ^ 48) 0).1 = 1 ∧
    (flyIn tasking thread0 [.memUnmap 1 0x40000000 0x200000]).unmapStatus taskCtx 1 0x40000000 0x200000 = 0 ∧
    (flyIn tasking thread0 [.memUnmap 1 0x60000000 0x200000]).unmapStatus taskCtx 1 0x60000000 0x200000 ≠ 0 ∧
    (flyIn tasking thread0 [.memAttr 1 1 0 0x40000000 0x200000]).attrStatus taskCtx 1 0 1 0x40000000 0x200000 = 0 ∧
    (flyIn tasking thread0 [.memAttr 1 1 0 0x60000000 0x200000]).attrStatus taskCtx 1 0 1 0x60000000 0x200000 ≠ 0 :=
  ⟨tasking_flies, tasking_ctx, by decide +kernel⟩

/-- The machine whose code page begins with these bytes: a table of no rules, and what is no table. -/
def coding (b : List Byte) : State := State.reset.withWords b
def noRules : List Byte :=
  let h := natBytes 4 0x5257544C ++ natBytes 2 1 ++ natBytes 54 0
  h ++ natBytes 4 (crc32c h).toNat
def isFetched (x : Fetched) (b : List Byte) : Bool := match x with | .ok c => c == b | _ => false
theorem isFetched_eq {x : Fetched} {b : List Byte} (e : isFetched x b = true) : x = .ok b := by
  cases x with
  | ok g => simp only [isFetched, beq_iff_eq] at e; rw [e]
  | _ => simp [isFetched] at e
/-- The four outcomes of RWT.LOAD but for its status 3, the two of RWT.CTL, and RWT.CTL's reading. -/
theorem witness_MappingIssues_rules : FliesIn (coding noRules) thread0 ∧ FliesIn (coding (List.replicate 64 0)) thread0 ∧
    (coding noRules).rangeHeld 0 [0x10000] (64 * 193) = false ∧ (0x10000 % 64 = 0 ∧ 0x10000 < 2 ^ 48 ∧ 0x10004 % 64 ≠ 0) ∧
    (coding noRules).fetchLines 0 0x20000 1 = .fault ∧ State.fetchLines { coding noRules with lost := List.range 4 } 0 0x10000 1 = .lost ∧
    (coding noRules).fetchLines 0 0x10000 1 = .ok noRules ∧ (coding noRules).fetchLines 0 0x10000 (1 + 3 * min 64 (byteNat noRules 6 2)) = .ok noRules ∧
    readRules noRules = some [] ∧ readRules (List.replicate 64 0) = none ∧ (coding (List.replicate 64 0)).fetchLines 0 0x10000 1 = .ok (List.replicate 64 0) ∧
    ((coding noRules).ctx? 0).isSome = true := by
  refine ⟨fliesIn (by decide +kernel), fliesIn (by decide +kernel), by decide +kernel, by decide, ?_, ?_,
    isFetched_eq (by decide +kernel), isFetched_eq (by decide +kernel), by decide +kernel, by decide +kernel, isFetched_eq (by decide +kernel), by decide +kernel⟩
  · have e : (match (coding noRules).fetchLines 0 0x20000 1 with | .fault => true | _ => false) = true := by decide +kernel
    split at e
    · next h => exact h
    · exact absurd e (by decide)
  · have e : (match State.fetchLines { coding noRules with lost := List.range 4 } 0 0x10000 1 with | .lost => true | _ => false) = true := by decide +kernel
    split at e
    · next h => exact h
    · exact absurd e (by decide)

/-! ### What completions do -/

/-- A context with the running launch 1, whose record lets its threads give strands or not, of so many units; a deque of so many strands. -/
def running (flags counter strands : Nat) : State :=
  let d : Strand := { arm := 0x20000, counter := 0x5000, base := 0, size := 128, part := 0, launch := 1, core := 0 }
  { stand [] with
    cores := [(0, { Core.reset with part := some 0, steps := 1, deque := List.replicate strands d })]
    ctxs := [(0, { placedWarrant.context 1 0 0 none [0] 0 none with
      launches := [(1, { placedLaunch with record := packBytes 512 [(0, 1, 1), (1, 1, flags)], counter := counter })]
      chans := [(5 * 256 + 7, { depth := 2, entries := [], input := none, output := some 1, killed := none, sealed_ := none, held := 0, diverted := 0 })] })] }
def runCtx (flags counter : Nat) : Ctx := (((running flags counter 0).ctx? 0).getD (placedWarrant.context 1 0 0 none [0] 0 none))
/-- Loop levels that end at the thread's word, with so many passes to go, or at another. -/
def levels (n1 n0 : Option Nat) : Thread :=
  let l (n : Option Nat) : Loop := match n with
    | some k => { start := 0xFF00, stop := 0x10000, count := BitVec.ofNat 64 k, active := true }
    | none => { start := 0xFF00, stop := 0xFFF0, count := 3, active := true }
  { thread0 with lp1 := l n1, lp0 := l n0 }
/-- Both levels or one of them end, at the last pass or before it. -/
theorem witness_CompletionTakesEffect_loops :
    (∀ x ∈ [(some 0, none), (some 1, none), (some 1, some 0), (some 1, some 1), (none, some 0), (none, some 1)], (levels x.1 x.2).buffer = [] ∧
      ((levels x.1 x.2).lp1.stop = thread0.pc ↔ x.1.isSome = true) ∧ ((levels x.1 x.2).lp0.stop = thread0.pc ↔ x.2.isSome = true) ∧
      ((levels x.1 x.2).lp1.count = 1 ↔ x.1 = some 1) ∧ ((levels x.1 x.2).lp0.count = 1 ↔ x.2 = some 1)) ∧
    ∀ n1 n0, Completing (flying (levels n1 n0) []) 0 0 (flyer (levels n1 n0) []) (flight []) :=
  ⟨by decide, fun _ _ => ⟨⟨rfl, rfl⟩, by decide, rfl, rfl, Nat.le_refl _, rfl, rfl, rfl, rfl, show (0 : Nat) ≠ 13 by decide, rfl⟩⟩
/-- SYS.SET, the link register, LOOP and the event instructions: each effect of a thread that owes nothing. -/
theorem witness_CompletionTakesEffect_specials : FliesIn (running 4 2 0) thread0 ∧ ({ Loop.reset with stop := 0x10004, active := true } : Loop).stop ≠ thread0.pc ∧
    ((0 : Word).getLsbD 16 = false ∧ (0x10000 : Word).getLsbD 16 = true) ∧ ((((running 4 2 0).core 0).counter 3).count + 5 < 2 ^ 16) :=
  ⟨fliesIn (by decide +kernel), by decide +kernel⟩
/-- QPUSH to q0 and to an output channel; ARRIVE with no count, one that differs from the barrier's, the first of two and the last of one. -/
theorem witness_CompletionTakesEffect_queues : FliesIn (running 4 2 0) thread0 ∧ thread0.queueOf 0 = .command ∧ FliesIn (running 4 2 0) producer ∧
    producer.queueOf 8 = .output (5 * 256 + 7) ∧ ((running 4 2 0).chan? 0 (5 * 256 + 7)).map Chan.sealed_ = some none ∧
    ((running 4 2 0).chan? 0 (5 * 256 + 7)).map (runCtx 4 2).chanAway = some false ∧ (running 4 2 0).ctx? 0 = some (runCtx 4 2) ∧
    ((running 4 2 0).barrier (barrierKey 0 3 (barrierUnit 3 0) 0)).want = none ∧ ((running 4 2 0).barrier (barrierKey 0 3 (barrierUnit 3 0) 0)).arrived.length + 1 = 1 ∧
    (State.barrier { running 4 2 0 with barriers := [(barrierKey 0 3 (barrierUnit 3 0) 0, { Barrier.reset with want := some 3 })] } (barrierKey 0 3 (barrierUnit 3 0) 0)).want =
      some 3 :=
  ⟨fliesIn (by decide +kernel), by decide, fliesIn (by decide +kernel), by decide +kernel⟩
/-- A load that an ACQ fence waits for; FORK with room and without; JOIN's counter at 0 and at 1; ENDS of one of two units and of the last. -/
def counting (n : Nat) : State := { running 4 2 0 with scratch := if n = 0 then [] else [(0, BitVec.ofNat 8 n)] }
theorem witness_CompletionTakesEffect_units :
    (∃ a ∈ (State.arrivals { flyIn (running 4 2 0) thread0 [.fence 1 5] with arrivals := (owing (.value 5 none)).arrivals.map fun a => { a with order := 0 } }),
      a.uid = thread0.uid ∧ a.order < 1) ∧
    FliesIn (running 4 2 0) thread0 ∧ FliesIn (running 4 2 64) thread0 ∧ FliesIn (running 0 1 0) thread0 ∧
    ((tabGet? (runCtx 4 2).launches thread0.launch).map fun l => (recStrands l.record, l.counter)) = some (true, 2) ∧
    ((tabGet? (runCtx 0 1).launches thread0.launch).map fun l => (recStrands l.record, l.counter, l.state)) = some (false, 1, 3) ∧ thread0.handler = false ∧
    ((running 4 2 0).core 0).deque.length < 64 ∧ 64 ≤ ((running 4 2 64).core 0).deque.length ∧
    (∀ n ∈ [0, 1], FliesIn (counting n) thread0 ∧ (counting n).rangeHeld 0 [own.toNat] 8 = false ∧ (counting n).checkAll 0 0 [own.toNat] 8 2 true = .ok [scratchHome] ∧
      (counting n).homeLost (eight scratchHome) = none ∧ (counting n).badScratch (eight scratchHome) = none) ∧
    bytesNat ((counting 0).homeBytes scratchHome 8) ≠ 1 ∧ bytesNat ((counting 1).homeBytes scratchHome 8) = 1 := by
  refine ⟨⟨_, List.mem_singleton.mpr rfl, rfl, by decide⟩, fliesIn (by decide +kernel), fliesIn (by decide +kernel), fliesIn (by decide +kernel), by decide +kernel, by decide +kernel, rfl,
    by decide +kernel, by decide +kernel, fun n hn => ⟨?_, ?_, ?_, ?_, ?_⟩, by decide +kernel, by decide +kernel⟩
  all_goals simp only [List.mem_cons, List.not_mem_nil, or_false] at hn; rcases hn with rfl | rfl <;> first | exact fliesIn (by decide +kernel) | decide +kernel
/-- A record that LAUNCH refuses and one that it queues; CANCEL of a reserved word, of a launch that is not named, and of one that is queued. -/
def queuedWork : State :=
  { running 4 2 0 with ctxs := [(0, { runCtx 4 2 with launches := [(1, { placedLaunch with counter := 1 }), (2, { placedLaunch with state := 0 })], queues := [(0, [2])] })] }
def queuedCtx : Ctx := ((queuedWork.ctx? 0).getD (runCtx 4 2))
theorem witness_CompletionTakesEffect_work : FliesIn queuedWork thread0 ∧ queuedWork.ctx? 0 = some queuedCtx ∧ queuedWork.checkRecord 0 queuedCtx 0 ≠ 0 ∧
    queuedWork.checkRecord 0 queuedCtx hostRecord = 0 ∧ (tabGet queuedCtx.queues (recQueue hostRecord) []).length < 64 ∧
    (0x10002 : Word).toNat ≠ 2 ∧ queuedCtx.named 0 9 = false ∧ tabSorted queuedCtx.launches = true ∧
    (tabGet? queuedCtx.launches 2).map (fun l => (l.state, l.dying)) = some (0, none) ∧ (∀ e ∈ (flyIn queuedWork thread0 []).threads, e.2.launch ≠ 2) :=
  ⟨fliesIn (by decide +kernel), by decide +kernel, by decide +kernel, by decide +kernel, by decide +kernel, by decide, by decide +kernel, by decide +kernel, by decide +kernel,
    fun e h => by rw [List.mem_singleton.mp h]; decide⟩

/-! ### Stores, streams' ends, rewrites, the dispatcher, observation -/

/-- Elements with bytes, outside the message buffer's placeholders. -/
theorem witness_StoreBecomesVisible_elements : ∀ w ∈ ([{ addr := 0x5000, bytes := [1, 2] }, { addr := scratchHome + 0xFFFFE, bytes := [3, 4] }] : List ElemWrite),
    w.bytes ≠ [] ∧ ∀ i, i < w.bytes.length → w.addr + i < divertHome := by decide +kernel
/-- A channel whose reader stands, and one whose reader's core has moved away. -/
def endless (site : Nat × Nat) : Ctx :=
  { placedWarrant.context 1 0 0 none [0] 0 none with
    launches := [(1, { placedLaunch with site := some site })]
    chans := [(5 * 256 + 7, { depth := 1, entries := [.data 1], input := some 1, output := none, killed := none, sealed_ := none, held := 1, diverted := 0 })] }
theorem witness_QueuesAndMessagesGoOn_ends : ∀ x ∈ [((0, 0), false), ((awayCore, 0), true)],
    ((tabGet? (endless x.1).chans (5 * 256 + 7)).map fun h => ((endless x.1).chanAway h, decide (0 < h.held), decide (h.entries.length < 2 ^ h.depth))) = some (x.2, true, true) ∧
    (endless x.1).buffered < 512 := by decide +kernel

/-- A rule whose slots match an ACC.ZERO and form a group without replacements, one that matches nothing here, and a head that heads them. -/
def matching (rules : List Rule) : State :=
  let e := tileCmd 0x01 [] []
  { starting e with cycle := 64, arg := { Arg.none with n := 0 }, cores := [(0, { (starting e).core 0 with rules := rules })] }
def zeroRule (id opcode : Nat) : Rule := BitVec.ofNat 1536 (id + 1 * 2 ^ 16 + opcode * 2 ^ 64)
theorem tile_refusal (s : State) (e : CmdEntry) (h : e.queue = 0) : s.commandRefusal e = s.tileRefusal e := by simp [State.commandRefusal, h]
theorem zeroCmd_queue : (tileCmd 0x01 [] []).queue = 0 := rfl
theorem zeroCmd_crc : (tileCmd 0x01 [] []).crcOk = true := command_crc _ _ _
/-- What a rule of the table makes of the window's head. -/
theorem full_match (rules : List Rule) (r : Rule) (g : Group) (hp : ruleP r = 1) :
    FullMatch (matching rules) 0 (tileCmd 0x01 [] []) r g ↔
      ruleFits r 1 [tileCmd 0x01 [] []] = true ∧ (matching rules).formGroup 0 r [tileCmd 0x01 [] []] = some g := by
  have hw : (((matching rules).core 0).window.filter fun e => e.uid == (tileCmd 0x01 [] []).uid && decide (e.since ≤ (matching rules).cycle)) = [tileCmd 0x01 [] []] := rfl
  have hb : ((matching rules).core 0).part.bind (matching rules).ctx? = some (placedWarrant.context 1 0 0 none [0] 0 none) := by
    simp [State.core, tabGet, tabGet?, matching, State.ctx?, starting]
  have hc : (placedWarrant.context 1 0 0 none [0] 0 none).ceiling = 1 := rfl
  simp only [FullMatch, hw, hb, hc, hp, List.take_one, List.head?_cons, Option.toList_some, List.length_singleton, Nat.le_refl, true_and]
theorem zero_forms : ((matching [zeroRule 1 0x3F, zeroRule 0 0x01]).formGroup 0 (zeroRule 0 0x01) [tileCmd 0x01 [] []]).isSome = true := by
  have t : (matching [zeroRule 1 0x3F, zeroRule 0 0x01]).tileRefusal (tileCmd 0x01 [] []) = none := by
    rw [← tile_refusal _ _ zeroCmd_queue]; exact tile_passes zeroCmd_crc (by decide +kernel)
  have g : (matching [zeroRule 1 0x3F, zeroRule 0 0x01]).guardForms (zeroRule 0 0x01) [tileCmd 0x01 [] []] = true := by decide +kernel
  have i : ((matching [zeroRule 1 0x3F, zeroRule 0 0x01]).core 0).interferes [tileCmd 0x01 [] []] 0 = false := by decide +kernel
  have r : ruleReplacements (zeroRule 0 0x01) [tileCmd 0x01 [] []] = some [] := by decide +kernel
  simp [State.formGroup, t, g, i, r]
theorem witness_RewriteStageGoesOn_head : (∀ rules, (matching rules).releases 0 = true ∧ ((matching rules).core 0).window = [tileCmd 0x01 [] []]) ∧
    ruleValid (zeroRule 0 0x01) = true ∧ (∀ g, ¬ FullMatch (matching [zeroRule 1 0x3F]) 0 (tileCmd 0x01 [] []) (zeroRule 1 0x3F) g) ∧
    (∀ g, ¬ FullMatch (matching [zeroRule 1 0x3F, zeroRule 0 0x01]) 0 (tileCmd 0x01 [] []) (zeroRule 1 0x3F) g) ∧
    ∃ g, FullMatch (matching [zeroRule 1 0x3F, zeroRule 0 0x01]) 0 (tileCmd 0x01 [] []) (zeroRule 0 0x01) g := by
  have no : ruleFits (zeroRule 1 0x3F) 1 [tileCmd 0x01 [] []] = false := by decide +kernel
  have p1 : ruleP (zeroRule 1 0x3F) = 1 := by decide +kernel
  have p0 : ruleP (zeroRule 0 0x01) = 1 := by decide +kernel
  have fits : ruleFits (zeroRule 0 0x01) 1 [tileCmd 0x01 [] []] = true := by decide +kernel
  refine ⟨fun rules => ⟨rfl, rfl⟩, by decide +kernel, fun g h => ?_, fun g h => ?_, ?_⟩
  · rw [full_match _ _ _ p1, no] at h; exact absurd h.1 (by decide)
  · rw [full_match _ _ _ p1, no] at h; exact absurd h.1 (by decide)
  · obtain ⟨g, hg⟩ := Option.isSome_iff_exists.mp zero_forms
    exact ⟨g, (full_match _ _ _ p0).mpr ⟨fits, hg⟩⟩

theorem witness_DispatcherDecides_restore : restoring.savedGood 0 savedOne = true := by decide +kernel
theorem witness_CoresMoveAndNoticesCome_leaves : (reclaiming true).scratchBad 1 = false ∧ tabGet? (reclaiming true).doomed 1 = none := by decide +kernel
/-- A record that is logged stands alone among those of its nanosecond; no deck is doomed. -/
def entering : State := { stand [] with outgoing := [⟨0, packBytes 512 [(0, 1, 0x24)], true, .none⟩] }
theorem witness_ObservationEventsHappen_records : entering.outgoing.map Outgoing.logged = [true] ∧ (∀ e ∈ (stand []).doomed, e.1 < 1024) := by decide +kernel
/-- A group's claim on a serial that this device, or another, has been granted. -/
def grouping (devices : BitVec 256) : State := { keeping true [{ spentFive with devices := devices }] with arg := { Arg.none with n := 5, flag := true } }
theorem witness_KeystoneTimeGoesOn_group : (∀ d, (grouping d).keystone.trusted = true ∧ (grouping d).arg.flag = true ∧
      (grouping d).keystone.spent = [] ++ { spentFive with devices := d } :: []) ∧ spentFive.serial = 5 ∧ spentFive.index = none ∧
    (1 : BitVec 256).getLsbD 0 = true ∧ (2 : BitVec 256).getLsbD 0 = false :=
  ⟨fun _ => ⟨rfl, rfl, rfl⟩, rfl, rfl, by decide +kernel, by decide +kernel⟩

/-! ### Admissions -/

/-- A table of bytes from place k on. -/
def tabFrom : Nat → List Byte → Tab Byte
  | _, [] => []
  | k, b :: l => (k, b) :: tabFrom (k + 1) l
theorem tabFrom_get : ∀ (l : List Byte) (k i : Nat), i < l.length → tabGet (tabFrom k l) (k + i) 0 = l.getD i 0
  | [], _, _, h => absurd h (Nat.not_lt_zero _)
  | b :: l, k, 0, _ => by simp [tabFrom, tabGet, tabGet?]
  | b :: l, k, i + 1, h => by
    have ih := tabFrom_get l (k + 1) i (Nat.lt_of_succ_lt_succ h)
    rw [show k + (i + 1) = k + 1 + i by omega]
    simpa [tabGet, tabGet?, tabFrom, show k ≠ k + 1 + i by omega] using ih
/-- The admission block: the image in the host's memory, its base, and a launch record for queue 0. -/
def blockBytes : List Byte :=
  natBytes 8 (2 ^ 51) ++ natBytes 8 claimImage.length ++ natBytes 8 0x10000 ++ List.replicate 40 0 ++
    natBytes 64 (sealVec (packBytes 512 [(0, 1, 1), (4, 2, 1), (6, 1, 1), (7, 1, 15), (8, 6, 0x10000)])).toNat
/-- A warrant of operator key 0, of every device, and arbitrated by device 0; and a token of device 0. -/
def warrantBytes : List Byte :=
  natBytes 4 0x57524E54 ++ natBytes 2 1 ++ natBytes 2 0x200 ++ natBytes 16 7 ++ List.replicate 8 0 ++ List.replicate 32 0xFF ++
    natBytes 8 0 ++ natBytes 8 (2 ^ 63) ++ natBytes 8 0 ++ natBytes 2 1 ++ [1, 0, 1, 0] ++ natBytes 2 0 ++ natBytes 8 0x200000 ++ natBytes 2 0 ++ natBytes 2 1 ++ natBytes 4 0 ++
    sha512 claimImage ++ List.replicate (512 - 176) 0 ++ blockBytes
def tokenBytes : List Byte :=
  natBytes 4 0x544B4E44 ++ natBytes 2 1 ++ natBytes 2 0x200 ++ natBytes 16 7 ++ natBytes 2 3 ++ List.replicate 6 0 ++ natBytes 8 (2 ^ 63) ++ natBytes 2 1 ++ [1, 0, 1, 0] ++
    natBytes 2 0 ++ natBytes 8 0x200000 ++ natBytes 2 0 ++ natBytes 2 1 ++ natBytes 52 0 ++ sha512 claimImage ++ List.replicate (512 - 176) 0 ++ blockBytes
/-- The machine with these bytes in its admission window, the image in the host's memory, trusted time, and a token issued by this device. -/
def presenting (b : List Byte) : State :=
  { State.reset with
    mem := (tabFrom (2 ^ 51) claimImage).filter fun e => e.2 != 0, host := { HostPort.reset 0 with window := tabFrom 0 b }
    keystone := { Keystone.reset 0 [] 0 with
      trusted := true, tokens := [{ serial := 7, index := 3, handle := 7, notAfter := 2 ^ 63, part := 5, core := 0, age := 0, prio := 31, flags := 0 }] } }
def claimSections : List Section := (readImage claimImage 0x10000).getD []
def goodWarrant : Warrant := (readWarrant warrantBytes).getD placedWarrant
def goodTerms : Warrant := (readToken 31 0 tokenBytes).getD placedWarrant
def goodToken : Token := { serial := 7, index := 3, handle := 7, notAfter := 2 ^ 63, part := 5, core := 0, age := 0, prio := 31, flags := 0 }
theorem windowOf_presenting {b : List Byte} (h : b.length = 640) : windowOf (presenting b) 640 = b := by
  refine List.ext_getElem (by simp [windowOf, windowBytes, h]) fun i hi hj => ?_
  have e := tabFrom_get b 0 i hj
  rw [Nat.zero_add] at e
  simp only [windowOf, windowBytes, presenting, List.getElem_map, List.getElem_range, Nat.zero_add]
  rw [e]
  exact List.getD_eq_getElem _ _ hj
/-- What of R361 does not rest on what is opaque. -/
def admissible (w : Warrant) (b : List Byte) : Bool :=
  w.blockOk (b.drop 512) && (presenting b).freePart.isSome && w.keys == 0 && decide (2 ^ 51 ≤ byteNat b 512 8) && decide (byteNat b 512 8 + byteNat b 520 8 ≤ 2 ^ 52) &&
  !(presenting b).anyLost ((List.range (byteNat b 520 8)).map fun i => byteNat b 512 8 + i) &&
  (presenting b).homeBytes (byteNat b 512 8) (byteNat b 520 8) == claimImage && byteNat b 528 8 == 0x10000 && w.digest == sha512 claimImage &&
  recEntry (bytesVec (bytePart b 576 64)) == 0x10000 && w.minCores == 1 && b.length == 640
theorem claim_sections : readImage claimImage 0x10000 = some claimSections ∧ (codeOf claimSections).text = 4 ∧ claimSections.all (fun k => decide (k.va + k.bytes.length ≤ 0xFFEFFFF00000)) = true ∧
    1 ≤ (presenting []).freeCores.length := by decide +kernel
theorem admissible_spec {w : Warrant} {b : List Byte} (h : admissible w b = true) (hd : w.devices.getLsbD Config.deviceId.toNat = true) :
    windowOf (presenting b) 640 = b ∧ Admissible (presenting b) w b claimSections := by
  simp only [admissible, Bool.and_eq_true, Bool.not_eq_true', decide_eq_true_eq, beq_iff_eq] at h
  obtain ⟨⟨⟨⟨⟨⟨⟨⟨⟨⟨⟨h1, h2⟩, h3⟩, h4⟩, h5⟩, h6⟩, h7⟩, h8⟩, h9⟩, ha⟩, hb⟩, hc⟩ := h
  obtain ⟨i1, i2, i3, i4⟩ := claim_sections
  refine ⟨windowOf_presenting hc, h1, hd, h2, fun k => by omega, ⟨h4, h5⟩, h6, ?_, ?_, ?_, fun k hk => ?_, ?_⟩
  · rw [h7, h8]; exact i1
  · rw [h7, h9]
  · rw [ha, h8, i2]; exact ⟨Nat.le_refl _, by decide⟩
  · simpa using List.all_eq_true.mp i3 k hk
  · rw [hb]; exact i4
/-- Whether a signature verifies and which keys are provisioned is opaque, and the numbers of the device and of its pod are (log 12): the witnesses take
them as given, of device 0 and pod 0. -/
theorem witness_HostPortActs_warrant (d0 : Config.deviceId = 0) (p0 : Config.podId = 0) (op : Config.provisioned 0 = true)
    (sig : operatorVerifies 0 (warrantBytes.take 0x17C) (bytePart warrantBytes 0x17C 132) = true) :
    KeystoneFree (presenting warrantBytes) ∧ windowOf (presenting warrantBytes) 640 = warrantBytes ∧
      GoodWarrant (presenting warrantBytes) goodWarrant warrantBytes claimSections := by
  have h := admissible_spec (w := goodWarrant) (b := warrantBytes) (by decide +kernel) (by rw [d0]; decide +kernel)
  exact ⟨⟨rfl, rfl, rfl⟩, h.1, h.2, by decide +kernel, by rw [show byteNat warrantBytes 0x18 1 = 0 by decide +kernel]; exact op,
    by rw [show byteNat warrantBytes 0x18 1 = 0 by decide +kernel]; exact sig, rfl, by decide +kernel, by decide +kernel, by rw [p0]; decide +kernel, by decide +kernel,
    by rw [d0]; decide +kernel, fun e he => absurd he List.not_mem_nil, by decide⟩
theorem token_devices {prio : Nat} {f : BitVec 8} {b : List Byte} {w : Warrant} (h : readToken prio f b = some w) : w.devices = 1#256 <<< Config.deviceId.toNat := by
  simp only [readToken] at h
  split at h
  · rw [← Option.some.inj h]
  · cases h
theorem good_terms : readToken 31 0 tokenBytes = some goodTerms ∧ goodTerms.devices = 1#256 <<< Config.deviceId.toNat := by
  have h : (readToken 31 0 tokenBytes).isSome = true := by decide +kernel
  unfold goodTerms
  cases hr : readToken 31 0 tokenBytes with
  | none => rw [hr] at h; exact absurd h (by decide)
  | some w => exact ⟨rfl, token_devices hr⟩
theorem witness_HostPortActs_token (d0 : Config.deviceId = 0) (sig : deviceVerifies (tokenBytes.take 0x17C) (bytePart tokenBytes 0x17C 132) = true) :
    KeystoneFree (presenting tokenBytes) ∧ windowOf (presenting tokenBytes) 640 = tokenBytes ∧
      GoodToken (presenting tokenBytes) goodTerms goodToken tokenBytes claimSections := by
  have h := admissible_spec (w := goodTerms) (b := tokenBytes) (by decide +kernel) (by
    rw [good_terms.2, d0]; decide +kernel)
  exact ⟨⟨rfl, rfl, rfl⟩, h.1, h.2, by decide +kernel, good_terms.1, by rw [d0]; decide +kernel, sig, rfl, by decide +kernel, fun e he => absurd he List.not_mem_nil, by decide⟩

/-! ### The host's windows -/

/-- A write of two bytes to a page of the context: two different homes, on no core. -/
theorem witness_HostPortActs_write : (asking.virtHomes 0 0 0x40000000 2).Nodup ∧ (∀ a ∈ asking.virtHomes 0 0 0x40000000 2, ¬ scratchHome ≤ a) ∧
    asking.checkRange 0 0 0x40000000 2 1 = none := by decide +kernel
/-- A held region's page; MSI-X, management and other offsets of BAR0. -/
def holding : State :=
  { hosting false 1 [1] 0 with arg := { Arg.none with n := 0x10200, bytes := [1] }, keystone := { Keystone.reset 0 [] 0 with held := [(0, { base := 0, bytes := [], until_ := 1 })] } }
theorem witness_HostPortActs_registers : (tabGet? holding.keystone.held ((holding.arg.n - 0x10000) / 0x1000)).isSome = true ∧ holding.arg.n % 0x1000 = 0x200 ∧
    byteNat holding.arg.bytes 0 1 % 2 = 1 ∧ (∀ x, State.reset.ctx? 0 = some x → x.flags.getLsbD 0 = false) ∧ tabGet? State.reset.keystone.held 0 = none ∧
    (0x40000 ≤ 0x40010 ∧ 0x40010 + 4 ≤ 0x40000 + 258 * 16) ∧ (0x1000000 ≤ 0x10E0100 ∧ 0x10E0100 + 4 ≤ 0x1100000) ∧ (0x1000 ≤ 0x2000 ∧ 0x2000 < 0x10000) := by
  refine ⟨by decide +kernel, by decide, by decide, fun x h => ?_, rfl, by decide +kernel⟩
  exact absurd h (by rw [show State.reset.ctx? 0 = none from rfl]; exact fun e => by cases e)

end
end Sys2Proof.Tests
end

/-! PROOFS. O46: records and the device log, containment, errors and injections, write-backs, samples, the counter page (R3, R276, R277,
R312, R313, R317, R322 to R327, R378, R396, R399, R401). -/
section
namespace Sys2Proof.Machine

/-! ### Fields of records: what is read where a field was packed (R10, R14) -/

/-- Byte fields of a record, in rising order from an offset on, none of which meets another. -/
def Rising : Nat → List (Nat × Nat × Nat) → Prop
  | _, [] => True
  | lo, f :: l => lo ≤ f.1 ∧ Rising (f.1 + f.2.1) l

/-- The number that byte fields spell. -/
def fieldsNat (l : List (Nat × Nat × Nat)) : Nat := (l.map fun f => f.2.2 % 2 ^ (8 * f.2.1) * 2 ^ (8 * f.1)).sum

theorem packBytes_toNat (w : Nat) (l : List (Nat × Nat × Nat)) : (packBytes w l).toNat = fieldsNat l % 2 ^ w := by
  have sum (l : List (Nat × Nat × Nat)) : ∀ n, (l.map fun f => (8 * f.1, 8 * f.2.1, f.2.2)).foldl
      (fun acc f => acc + f.2.2 % 2 ^ f.2.1 * 2 ^ f.1) n = n + fieldsNat l := by
    induction l with
    | nil => simp [fieldsNat]
    | cons f l ih =>
      intro n
      rw [List.map_cons, List.foldl_cons, ih]
      simp [fieldsNat, Nat.add_assoc]
  simp [packBytes, packFields, sum]

/-- Rising fields from an offset on spell a multiple of its weight. -/
theorem Rising.dvd {l : List (Nat × Nat × Nat)} {lo : Nat} (h : Rising lo l) : 2 ^ (8 * lo) ∣ fieldsNat l := by
  induction l generalizing lo with
  | nil => simp [fieldsNat]
  | cons f l ih =>
    obtain ⟨hlo, hl⟩ := h
    have low : 2 ^ (8 * lo) ∣ 2 ^ (8 * f.1) := Nat.pow_dvd_pow 2 (by omega)
    have rest : 2 ^ (8 * lo) ∣ fieldsNat l := (Nat.pow_dvd_pow 2 (by omega)).trans (ih hl)
    exact Nat.dvd_add (low.mul_left _) rest

theorem Rising.mem_ge {l : List (Nat × Nat × Nat)} {lo : Nat} (h : Rising lo l) {f : Nat × Nat × Nat} (hf : f ∈ l) : lo ≤ f.1 := by
  induction l generalizing lo with
  | nil => cases hf
  | cons g l ih =>
    obtain ⟨hlo, hl⟩ := h
    rcases List.mem_cons.mp hf with rfl | hf
    · exact hlo
    · have := ih hl hf; omega

/-- Each of some rising fields is read back from the number that they spell. -/
theorem Rising.read {l : List (Nat × Nat × Nat)} {lo : Nat} (h : Rising lo l) {o n v : Nat} (hm : (o, n, v) ∈ l) :
    fieldsNat l / 2 ^ (8 * o) % 2 ^ (8 * n) = v % 2 ^ (8 * n) := by
  induction l generalizing lo with
  | nil => cases hm
  | cons f l ih =>
    obtain ⟨-, hl⟩ := h
    obtain ⟨q, hq⟩ := hl.dvd
    have cons : fieldsNat (f :: l) = f.2.2 % 2 ^ (8 * f.2.1) * 2 ^ (8 * f.1) + fieldsNat l := by simp [fieldsNat]
    rcases List.mem_cons.mp hm with rfl | hm
    · have : 2 ^ (8 * (o + n)) * q = 2 ^ (8 * n) * q * 2 ^ (8 * o) := by rw [Nat.mul_add, Nat.pow_add]; ring
      rw [cons, hq, this, ← Nat.add_mul, Nat.mul_div_cancel _ (Nat.two_pow_pos _), Nat.add_mul_mod_self_left, Nat.mod_mod]
    · have hle : f.1 + f.2.1 ≤ o := hl.mem_ge hm
      have low : f.2.2 % 2 ^ (8 * f.2.1) * 2 ^ (8 * f.1) < 2 ^ (8 * (f.1 + f.2.1)) := by
        rw [Nat.mul_add, Nat.pow_add, Nat.mul_comm]
        exact (Nat.mul_lt_mul_left (Nat.two_pow_pos _)).mpr (Nat.mod_lt _ (Nat.two_pow_pos _))
      have split : 2 ^ (8 * o) = 2 ^ (8 * (f.1 + f.2.1)) * 2 ^ (8 * (o - (f.1 + f.2.1))) := by
        rw [← Nat.pow_add]; congr 1; omega
      have skip : fieldsNat (f :: l) / 2 ^ (8 * o) = fieldsNat l / 2 ^ (8 * o) := by
        rw [cons, split, ← Nat.div_div_eq_div_mul, ← Nat.div_div_eq_div_mul, hq, Nat.add_mul_div_left _ _ (Nat.two_pow_pos _),
          Nat.div_eq_of_lt low, Nat.zero_add, Nat.mul_div_cancel_left _ (Nat.two_pow_pos _)]
      rw [skip, ih hl hm]

/-- A field of a number cut to a width that holds it. -/
theorem mod_div_mod_two_pow (x : Nat) {w o n : Nat} (h : o + n ≤ w) : x % 2 ^ w / 2 ^ o % 2 ^ n = x / 2 ^ o % 2 ^ n := by
  have : 2 ^ w = 2 ^ o * 2 ^ (w - o) := by rw [← Nat.pow_add]; congr 1; omega
  rw [this, Nat.mod_mul_right_div_self, Nat.mod_mod_of_dvd _ (Nat.pow_dvd_pow 2 (by omega))]

/-- A packed field reads as it was packed. -/
theorem fieldAt_packBytes {w o n v : Nat} {l : List (Nat × Nat × Nat)} (h : Rising 0 l) (hm : (o, n, v) ∈ l) (hw : 8 * (o + n) ≤ w) :
    fieldAt (packBytes w l) o n = v % 2 ^ (8 * n) := by
  rw [fieldAt, packBytes_toNat, mod_div_mod_two_pow _ (by omega), h.read hm]

/-- A field within a field. -/
theorem fieldAt_within {w : Nat} (v : BitVec w) {o m i n : Nat} (h : i + n ≤ m) :
    fieldAt v (o + i) n = fieldAt v o m / 2 ^ (8 * i) % 2 ^ (8 * n) := by
  rw [fieldAt, fieldAt, mod_div_mod_two_pow _ (by omega), Nat.div_div_eq_div_mul, ← Nat.pow_add, Nat.mul_add]

/-! #### Bytes and the seal -/

theorem natBytes_mod (n x m : Nat) (h : n ≤ m) : natBytes n (x % 2 ^ (8 * m)) = natBytes n x := by
  induction n generalizing x m with
  | zero => rfl
  | succ n ih =>
    obtain ⟨m, rfl⟩ : ∃ k, m = k + 1 := ⟨m - 1, by omega⟩
    have tail : x % 2 ^ (8 * (m + 1)) / 256 = x / 256 % 2 ^ (8 * m) := by
      rw [show 8 * (m + 1) = 8 + 8 * m by omega, Nat.pow_add, Nat.mod_mul_right_div_self]
    have head : BitVec.ofNat 8 (x % 2 ^ (8 * (m + 1))) = BitVec.ofNat 8 x := by
      apply BitVec.eq_of_toNat_eq
      rw [BitVec.toNat_ofNat, BitVec.toNat_ofNat, Nat.mod_mod_of_dvd _ (Nat.pow_dvd_pow 2 (by omega))]
    rw [natBytes, natBytes, head, tail, ih _ _ (by omega)]

@[simp] theorem natBytes_length (n x : Nat) : (natBytes n x).length = n := by
  induction n generalizing x with
  | zero => rfl
  | succ n ih => simp [natBytes, ih]

/-- What bytes spell, with others behind them (R10). -/
theorem bytesNat_natBytes_append (n x : Nat) (l : List Byte) :
    bytesNat (natBytes n x ++ l) = x % 2 ^ (8 * n) + 2 ^ (8 * n) * bytesNat l := by
  induction n generalizing x with
  | zero => simp [natBytes, Nat.mod_one]
  | succ n ih =>
    have step (b : Byte) (t : List Byte) : bytesNat (b :: t) = b.toNat + 256 * bytesNat t := rfl
    rw [natBytes, List.cons_append, step, ih, BitVec.toNat_ofNat, show 8 * (n + 1) = 8 + 8 * n by omega, Nat.pow_add, Nat.mod_mul]
    ring

/-- A sealed record: its first 60 bytes, and their CRC-32C above them (R322). -/
theorem sealVec_toNat (v : Vec) :
    (sealVec v).toNat = v.toNat % 2 ^ (8 * 60) + 2 ^ (8 * 60) * (crc32c (natBytes 60 v.toNat)).toNat := by
  have crc : bytesNat (natBytes 4 (crc32c (natBytes 60 v.toNat)).toNat) = (crc32c (natBytes 60 v.toNat)).toNat := by
    have := bytesNat_natBytes_append 4 (crc32c (natBytes 60 v.toNat)).toNat []
    rw [List.append_nil] at this
    rw [this, Nat.mod_eq_of_lt (crc32c (natBytes 60 v.toNat)).isLt]
    simp [bytesNat]
  have bound := (crc32c (natBytes 60 v.toNat)).isLt
  rw [sealVec, bytesVec, BitVec.toNat_ofNat, bytesNat_natBytes_append, crc]
  apply Nat.mod_eq_of_lt
  omega

theorem sealVec_low (v : Vec) : (sealVec v).toNat % 2 ^ (8 * 60) = v.toNat % 2 ^ (8 * 60) := by
  rw [sealVec_toNat, Nat.add_mul_mod_self_left, Nat.mod_mod]
/-- Below the CRC a seal changes no field. -/
theorem fieldAt_sealVec (v : Vec) {o n : Nat} (h : o + n ≤ 60) : fieldAt (sealVec v) o n = fieldAt v o n := by
  have low (x : Vec) : fieldAt x o n = x.toNat % 2 ^ (8 * 60) / 2 ^ (8 * o) % 2 ^ (8 * n) := (mod_div_mod_two_pow _ (by omega)).symm
  rw [low, low, sealVec_low]
/-- A sealed record holds the CRC-32C of its first 60 bytes. -/
theorem fieldAt_sealVec_crc (v : Vec) :
    fieldAt (sealVec v) 0x3C 4 = (crc32c (natBytes 60 ((sealVec v).toNat % 2 ^ (8 * 60)))).toNat := by
  rw [sealVec_low, natBytes_mod 60 v.toNat 60 (le_refl _), fieldAt, sealVec_toNat]
  rw [Nat.add_mul_div_left _ _ (Nat.two_pow_pos _), Nat.div_eq_of_lt (Nat.mod_lt v.toNat (Nat.two_pow_pos (8 * 60))), Nat.zero_add,
    Nat.mod_eq_of_lt (crc32c (natBytes 60 v.toNat)).isLt]

/-! ### Signals (R393): they change what stands at the host port alone -/

theorem State.signal_host (s : State) (v : Nat) : ∃ h, s.signal v = { s with host := h } := by
  unfold State.signal
  dsimp only
  split <;> exact ⟨_, rfl⟩
theorem State.signalAfter_host (s : State) (p v : Nat) : ∃ h, s.signalAfter p v = { s with host := h } := by
  unfold State.signalAfter
  split
  · exact s.signal_host v
  · exact ⟨_, rfl⟩

/-! ### Records and the device log (R322, R323) -/

/-- A record as it enters the device log: its bytes, the log's sequence number, and the CRC over them. -/
theorem State.numbered_spec (s : State) (v : Vec) :
    (∀ i, i < 0x1E → fieldAt (s.numbered v) i 1 = fieldAt v i 1) ∧ fieldAt (s.numbered v) 0x1E 2 = s.logSeq % 2 ^ 16 ∧
      fieldAt (s.numbered v) 0x3C 4 = (crc32c (natBytes 60 ((s.numbered v).toNat % 2 ^ (8 * 60)))).toNat := by
  have rising : Rising 0 [(0, 0x1E, fieldAt v 0 0x1E), (0x1E, 2, s.logSeq), (0x20, 0x1C, fieldAt v 0x20 0x1C)] := by simp [Rising]
  refine ⟨fun i hi => ?_, ?_, fieldAt_sealVec_crc _⟩
  · have part (x : Vec) := fieldAt_within x (o := 0) (i := i) (n := 1) (m := 0x1E) (by omega)
    rw [Nat.zero_add] at part
    rw [State.numbered, fieldAt_sealVec _ (by omega), part, part,
      fieldAt_packBytes (v := fieldAt v 0 0x1E) rising (by simp) (by decide), fieldAt, Nat.mod_mod]
  · rw [State.numbered, fieldAt_sealVec _ (by decide), fieldAt_packBytes (v := s.logSeq) rising (by simp) (by decide)]

/-- What a state's device log and the records that wait for it read as. -/
def State.logParts (s : State) : Tab Vec × Nat × List Outgoing := (s.log, s.logSeq, s.outgoing)

theorem State.signal_logParts (s : State) (v : Nat) : (s.signal v).logParts = s.logParts := by
  obtain ⟨h, eq⟩ := s.signal_host v
  rw [eq]
  rfl
theorem State.deliverRecord_logParts (s : State) (v : Vec) (o : Outlet) : (s.deliverRecord v o).logParts = s.logParts := by
  have q7 (c : Nat) : (s.toQ7 c v).logParts = s.logParts := rfl
  have ctx (p : Nat) (f : Ctx → Ctx) : (s.modCtx p f).logParts = s.logParts := by simp [State.logParts]
  have toCtx (p : Nat) : (s.toCtx p v).logParts = s.logParts := by
    unfold State.toCtx
    split
    · exact q7 _
    · exact ctx _ _
  unfold State.deliverRecord
  split
  · rfl
  · unfold State.toSite
    split
    · exact q7 _
    · exact ctx _ _
  · split
    · exact q7 _
    · exact toCtx _
  · exact toCtx _

/-- A logged record that enters takes the next place of the log, and its sequence number moves on (R322, R323). -/
theorem State.enterRecord_logged (s : State) (r : Outgoing) (h : r.logged = true) :
    (s.enterRecord r).logParts = (tabSet s.log (s.logSeq % 8192) (s.numbered r.body), (s.logSeq + 1) % 2 ^ 16, s.outgoing) := by
  have into (v : Vec) : (s.intoLog v).logParts = (tabSet s.log (s.logSeq % 8192) v, (s.logSeq + 1) % 2 ^ 16, s.outgoing) := by
    unfold State.intoLog
    dsimp only
    split
    · rw [State.signal_logParts, State.signal_logParts]; rfl
    · rw [State.signal_logParts]; rfl
  rw [State.enterRecord, if_pos h, State.deliverRecord_logParts, into]

/-! ### What containment never undoes: a fenced core stays fenced, and only `fenceDeck` fences a deck (R317, R325) -/

/-- No deck is fenced on the way, and no core that is fenced ceases to be. -/
structure FencesGrow (s u : State) : Prop where
  decks : u.fencedDecks = s.fencedDecks
  cores : ∀ c, (s.core c).fenced = true → (u.core c).fenced = true

namespace FencesGrow

theorem refl (s : State) : FencesGrow s s := ⟨rfl, fun _ h => h⟩
theorem trans {s u v : State} (h : FencesGrow s u) (g : FencesGrow u v) : FencesGrow s v :=
  ⟨g.decks.trans h.decks, fun c hc => g.cores c (h.cores c hc)⟩
theorem of_same {s u : State} (hd : u.fencedDecks = s.fencedDecks) (hc : u.cores = s.cores) : FencesGrow s u :=
  ⟨hd, fun c h => by rwa [State.core_congr hc c]⟩
/-- Both outcomes of a choice keep fences. -/
theorem ite {p : Prop} [Decidable p] {s u v : State} (h : FencesGrow s u) (g : FencesGrow s v) : FencesGrow s (if p then u else v) := by
  split
  · exact h
  · exact g
/-- A loop of steps that keep fences keeps them. -/
theorem foldl {α : Type} {f : State → α → State} (h : ∀ s a, FencesGrow s (f s a)) (l : List α) (s : State) :
    FencesGrow s (l.foldl f s) := by
  induction l generalizing s with
  | nil => exact refl s
  | cons a l ih => exact (h s a).trans (ih (f s a))

/-- The same for a loop that carries something beside the state. -/
theorem foldl_fst {α β : Type} {f : State × β → α → State × β} (h : ∀ r a, FencesGrow r.1 (f r a).1) (l : List α) (r : State × β) :
    FencesGrow r.1 (l.foldl f r).1 := by
  induction l generalizing r with
  | nil => exact refl r.1
  | cons a l ih => exact (h r a).trans (ih (f r a))

/-! #### Reads and writes of the state's units -/

theorem setCtx (s : State) (p : Nat) (x : Ctx) : FencesGrow s (s.setCtx p x) := of_same rfl rfl
theorem modCtx (s : State) (p : Nat) (f : Ctx → Ctx) : FencesGrow s (s.modCtx p f) := of_same (by simp) (by simp)
theorem modThread (s : State) (c sl : Nat) (f : Thread → Thread) : FencesGrow s (s.modThread c sl f) := of_same (by simp) (by simp)
theorem setFull (s : State) (c n : Nat) (b : Bool) : FencesGrow s (s.setFull c n b) := of_same rfl rfl
theorem freeSlot (s : State) (c sl : Nat) : FencesGrow s (s.freeSlot c sl) := of_same rfl rfl
theorem dispatch (s : State) (b : Bool) : FencesGrow s { s with dispatch := b } := of_same rfl rfl
theorem barriers (s : State) (b : Tab Barrier) : FencesGrow s { s with barriers := b } := of_same rfl rfl
theorem traps (s : State) (l : List TrapOut) : FencesGrow s { s with traps := l } := of_same rfl rfl
theorem setCore {s : State} {c : Nat} {k : Core} (h : (s.core c).fenced = true → k.fenced = true) : FencesGrow s (s.setCore c k) :=
  ⟨rfl, fun c' hc => by
    rw [State.core_setCore]
    split
    case isTrue e => subst e; exact h hc
    case isFalse => exact hc⟩
theorem modCore {s : State} {c : Nat} {f : Core → Core} (h : (f (s.core c)).fenced = (s.core c).fenced) : FencesGrow s (s.modCore c f) :=
  setCore fun hc => h.trans hc
/-- Every core is changed in its place, and none in its fence. -/
theorem mapCores {s u : State} {f : Nat × Core → Nat × Core} (hd : u.fencedDecks = s.fencedDecks) (hu : u.cores = s.cores.map f)
    (h : ∀ e, (f e).1 = e.1 ∧ (f e).2.fenced = e.2.fenced) : FencesGrow s u := by
  have get (t : Tab Core) (c : Nat) : (tabGet? (t.map f) c).map Core.fenced = (tabGet? t c).map Core.fenced := by
    induction t with
    | nil => rfl
    | cons e t ih =>
      simp only [List.map_cons, tabGet?, (h e).1]
      split
      · simp [(h e).2]
      · exact ih
  have fence (t : Tab Core) (c : Nat) : (tabGet t c Core.reset).fenced = ((tabGet? t c).map Core.fenced).getD false := by
    unfold tabGet
    cases tabGet? t c <;> rfl
  refine ⟨hd, fun c hc => ?_⟩
  rw [State.core, fence] at hc
  rw [State.core, fence, hu, get, hc]

/-! #### Stores, barriers, streams, gangs -/

theorem applyWrites (s : State) (w : Tab Byte) : FencesGrow s (s.applyWrites w) :=
  of_same (by rw [State.applyWrites_eq]) (by rw [State.applyWrites_eq])
theorem showStore (s : State) (n : Nat) : FencesGrow s (s.showStore n) := by
  unfold State.showStore
  split
  · exact refl s
  · have shown : FencesGrow s { s with pend := listDrop s.pend n } := of_same rfl rfl
    exact ite shown (shown.trans (applyWrites _ _))
theorem showCore (s : State) (c : Nat) : FencesGrow s (s.showCore c) :=
  foldl (fun s _ => by
    split
    · exact showStore s _
    · exact refl s) _ s
theorem takeDelay (s : State) : FencesGrow s s.takeDelay.2 := of_same rfl rfl
/-- A commit draws delays and empties the thread's buffer into the list of pending stores. -/
theorem commit (s : State) (c sl : Nat) : FencesGrow s (s.commit c sl) := by
  unfold State.commit State.commitAs
  split
  · exact refl s
  · split
    · exact refl s
    · have drawn (parts : Store → List (Tab Byte)) (g : Store → Nat → Tab Byte → Store) (l : List Store) :=
        foldl_fst (f := fun (r : State × List Store) e => (parts e).foldl (fun r w => (r.1.takeDelay.2, r.2 ++ [g e r.1.takeDelay.1 w])) r)
          (fun r e => foldl_fst (fun r _ => takeDelay r.1) (parts e) r) l (s, [])
      exact (drawn (fun e => if e.parts.isEmpty then [e.writes] else e.parts)
        (fun e d w => { e with writes := w, parts := [], due := s.cycle + d, rel := none }) _).trans (of_same rfl rfl)
theorem markGone (s : State) (uid : Nat) : FencesGrow s (s.markGone uid) := of_same rfl rfl
theorem dropActive (s : State) (key : Nat) : FencesGrow s (s.dropActive key) := of_same rfl rfl
theorem dropStream (s : State) (b : Stream) : FencesGrow s (s.dropStream b) := by
  unfold State.dropStream
  split
  · exact of_same rfl rfl
  · exact refl s
theorem releaseStreams (s : State) (c sl : Nat) : FencesGrow s (s.releaseStreams c sl) := by
  unfold State.releaseStreams
  split
  · exact refl s
  · exact (foldl (fun s (b : Nat × Stream) => dropStream s b.2) _ s).trans (modThread _ _ _ _)
theorem flushThread (s : State) (c uid : Nat) : FencesGrow s (s.flushThread c uid) := modCore rfl
theorem orphanPosts (s : State) (uid : Nat) : FencesGrow s (s.orphanPosts uid) := of_same rfl rfl
theorem dropPosts (s : State) (f : Post → Bool) : FencesGrow s (s.dropPosts f) :=
  (foldl (fun s (q : Post) => ite (setFull s q.dest.core q.dest.entry true) (refl s)) (s.posts.filter f) s).trans (of_same rfl rfl)
theorem uncouple (s : State) (c sl : Nat) (again : Bool) : FencesGrow s (s.uncouple c sl again) := by
  unfold State.uncouple
  split
  · exact refl s
  · split
    · exact refl s
    · exact (foldl (fun s m => modThread s m sl _) _ s).trans (dispatch _ _)
theorem stopInGang (s : State) (c sl : Nat) (pair : Bool) : FencesGrow s (s.stopInGang c sl pair) := by
  unfold State.stopInGang
  split
  · exact refl s
  · split
    · exact (uncouple s _ _ _).trans (dropPosts _ _)
    · split
      · exact refl s
      · exact of_same rfl rfl
theorem dropRecord (s : State) (c sl : Nat) : FencesGrow s (s.dropRecord c sl) :=
  (modCore rfl : FencesGrow s (s.modCore c fun k => { k with q6 := k.q6.filter fun r => fieldAt r 2 1 != sl })).trans (of_same rfl rfl)
theorem severCore (s : State) (c : Nat) : FencesGrow s (s.severCore c) := of_same rfl rfl
theorem logRecord (s : State) (source : Nat) (l : List (Nat × Nat × Nat)) (o : Outlet) : FencesGrow s (s.logRecord source l o) :=
  of_same rfl rfl

/-! #### Ends of launches and units -/

theorem signalAfter (s : State) (p v : Nat) : FencesGrow s (s.signalAfter p v) := by
  obtain ⟨h, eq⟩ := s.signalAfter_host p v
  rw [eq]
  exact of_same rfl rfl
theorem launchEnd (s : State) (p id : Nat) (killed : Option Nat) : FencesGrow s (s.launchEnd p id killed) := by
  unfold State.launchEnd
  split
  · exact refl s
  · split
    · exact refl s
    · split
      · exact refl s
      · have ended (x : Ctx) : FencesGrow s { s.setCtx p x with dispatch := true } := (setCtx s p x).trans (dispatch _ _)
        exact ite ((ended _).trans (signalAfter _ _ _)) (ended _)
theorem unitEnd (s : State) (p id code : Nat) (pc : Addr) (killed : Option Nat) : FencesGrow s (s.unitEnd p id code pc killed) := by
  unfold State.unitEnd
  split
  · exact refl s
  · split
    · exact refl s
    · exact ite ((setCtx s p _).trans (launchEnd _ _ _ _)) ((setCtx s p _).trans (dispatch _ _))
theorem endThread (s : State) (c sl code : Nat) (pc : Addr) : FencesGrow s (s.endThread c sl code pc) := by
  unfold State.endThread
  split
  · exact refl s
  · have gone (t : Thread) : FencesGrow s (((((s.commit c sl).releaseStreams c sl).flushThread c t.uid).orphanPosts t.uid).freeSlot c sl) :=
      ((((commit s c sl).trans (releaseStreams _ _ _)).trans (flushThread _ _ _)).trans (orphanPosts _ _)).trans (freeSlot _ _ _)
    dsimp only
    split
    · split
      · exact (gone _).trans (dispatch _ _)
      · exact (gone _).trans (unitEnd _ _ _ _ _ _)
    · exact gone _
theorem endUnhandled (s : State) (c sl : Nat) (x : TrapInfo) : FencesGrow s (s.endUnhandled c sl x) := by
  unfold State.endUnhandled
  split
  · exact (modCtx s _ _).trans (endThread _ _ _ _ _)
  · exact refl s
theorem trap (s : State) (c sl : Nat) (x : TrapInfo) (pair : Option (BitVec 32)) : FencesGrow s (s.trap c sl x pair) := by
  unfold State.trap
  split
  · exact refl s
  · have stopped (b : Bool) (uid : Nat) (f : Thread → Thread) :
        FencesGrow s ((((s.stopInGang c sl b).commit c sl).flushThread c uid).modThread c sl f) :=
      (((stopInGang s c sl b).trans (commit _ _ _)).trans (flushThread _ _ _)).trans (modThread _ _ _ _)
    exact ite ((stopped _ _ _).trans (traps _ _)) ((stopped _ _ _).trans (endUnhandled _ _ _ _))
theorem haltThread (s : State) (c sl code : Nat) (gone : Bool) : FencesGrow s (s.haltThread c sl code gone) := by
  unfold State.haltThread
  split
  · exact refl s
  · have marked (uid : Nat) : FencesGrow s (if gone then s.markGone uid else s) := ite (markGone s uid) (refl s)
    exact (((marked _).trans (dropRecord _ _ _)).trans (stopInGang _ _ _ _)).trans (endThread _ _ _ _ _)
theorem noticeCore (s : State) (p c : Nat) : FencesGrow s (s.noticeCore p c) := by
  unfold State.noticeCore
  split
  · split
    · exact refl s
    · split
      · exact modThread _ _ _ _
      · exact trap _ _ _ _ _
  · exact refl s
theorem stopThread (s : State) (c sl code : Nat) (gone : Bool) : FencesGrow s (s.stopThread c sl code gone) := by
  unfold State.stopThread
  split
  · exact refl s
  · split
    · exact ite ((modThread s c sl _).trans (noticeCore _ _ _)) (modThread s c sl _)
    · exact haltThread s c sl code gone
theorem discardSaved (s : State) (p record code : Nat) (gone : Bool) : FencesGrow s (s.discardSaved p record code gone) := by
  unfold State.discardSaved
  split
  · exact refl s
  · split
    · exact refl s
    · have marked (uid : Nat) : FencesGrow s (if gone then s.markGone uid else s) := ite (markGone s uid) (refl s)
      have dropped (v : Saved) := (marked v.thread.uid).trans (foldl (fun s (b : Nat × Stream) => dropStream s b.2) v.thread.streams _)
      have left (v : Saved) (x : Ctx) (l : List TrapOut) := ((dropped v).trans (setCtx _ p x)).trans (traps _ l)
      exact ite (left _ _ _) ((left _ _ _).trans (unitEnd _ _ _ _ _ _))
theorem dropStrands (s : State) (p : Nat) (ids : List Nat) (code : Nat) : FencesGrow s (s.dropStrands p ids code) :=
  foldl (fun _ _ => (modCore rfl).trans (foldl (fun t (d : Strand) => unitEnd t p d.launch code 0 none) _ _)) _ s
theorem cancelCommands (s : State) (p : Nat) (ids : List Nat) : FencesGrow s (s.cancelCommands p ids) :=
  mapCores rfl rfl fun e => ⟨rfl, by
    dsimp only
    split <;> rfl⟩
theorem stopUnits (s : State) (p : Nat) (ids : List Nat) (code : Nat) (gone : Bool) (self : Option Nat) :
    FencesGrow s (s.stopUnits p ids code gone self) :=
  (foldl (fun s (e : Nat × Nat) => stopThread s e.1 e.2 code gone) _ s).trans (foldl (fun s r => discardSaved s p r code gone) _ _)
theorem cancelLaunches (s : State) (p : Nat) (ids : List Nat) (code : Nat) (self : Option Nat) :
    FencesGrow s (s.cancelLaunches p ids code self) := by
  unfold State.cancelLaunches
  refine (((foldl (fun s id => ?_) ids s).trans (dropStrands _ _ _ _)).trans (cancelCommands _ _ _)).trans (stopUnits _ _ _ _ _ _)
  split
  · exact refl s
  · exact ite ((setCtx s p _).trans ((launchEnd _ _ _ _).trans (modCtx _ _ _))) (setCtx s p _)

/-! #### The kills -/

end FencesGrow

/-- A kill fences its core, and what follows in the kill keeps every fence (R317). -/
theorem State.fenceCore_fences (s : State) (c : Nat) :
    ∃ (m : State) (k : Core), FencesGrow s m ∧ k.fenced = true ∧ FencesGrow (m.setCore c k) (s.fenceCore c) := by
  obtain ⟨u, hu⟩ : ∃ u, s.fenceCore c = u := ⟨_, rfl⟩
  rw [hu]
  unfold State.fenceCore at hu
  extract_lets part mine s1 s2 tile s3 strands s4 blank s5 live at hu
  clear_value part
  have h1 : FencesGrow s s1 := .foldl (fun s (e : Nat × Thread) => (FencesGrow.uncouple s c e.1 false).trans (.markGone _ _)) mine s
  have h2 : FencesGrow s1 s2 := (FencesGrow.severCore s1 c).trans (.showCore _ c)
  have h3 : FencesGrow s2 s3 := .foldl (fun s (e : Nat × Active) => .dropActive s e.1) tile s2
  have h4 : FencesGrow s3 s4 := .of_same rfl rfl
  refine ⟨s4, _, ((h1.trans h2).trans h3).trans h4, rfl, (?_ : FencesGrow s5 u)⟩
  split at hu
  next => exact hu ▸ .refl s5
  next p =>
    extract_lets tasks saved s6 lose s7 s8 s9 at hu
    have lost (s : State) (uid id : Nat) (b : Bool) : FencesGrow s (lose s uid id b) :=
      .ite (.markGone s uid) ((FencesGrow.markGone s uid).trans (.unitEnd _ p id 0x0E 0 (some c)))
    have h6 : FencesGrow s5 s6 := .modCtx s5 p _
    have h7 : FencesGrow s6 s7 := .foldl (fun s (e : Nat × Thread) => lost s e.2.uid e.2.launch e.2.handler) live s6
    have h8 : FencesGrow s7 s8 := .foldl (fun s (v : Saved) => lost s v.thread.uid v.thread.launch v.thread.handler) saved s7
    have h9 : FencesGrow s8 s9 := .foldl (fun s (d : Strand) => .unitEnd s p d.launch 0x0E 0 (some c)) strands s8
    exact hu ▸ (((h6.trans h7).trans h8).trans h9).trans (.dispatch s9 true)
theorem FencesGrow.fenceCore (s : State) (c : Nat) : FencesGrow s (s.fenceCore c) := by
  obtain ⟨m, k, hm, hk, hr⟩ := s.fenceCore_fences c
  exact (hm.trans (.setCore fun _ => hk)).trans hr
theorem State.fenceCore_self (s : State) (c : Nat) : ((s.fenceCore c).core c).fenced = true := by
  obtain ⟨m, k, hm, hk, hr⟩ := s.fenceCore_fences c
  exact hr.cores c (by simpa using hk)


/-- Killing a core fences it, and keeps every fence. -/
theorem State.killOne_fences (s : State) (source c : Nat) (k : Kill) :
    FencesGrow s (s.killOne source c k) ∧ ((s.killOne source c k).core c).fenced = true := by
  unfold State.killOne
  split
  case isTrue h => exact ⟨.refl s, h⟩
  case isFalse =>
    have rest {u : State} (h : FencesGrow (s.fenceCore c) u) : FencesGrow s u ∧ (u.core c).fenced = true :=
      ⟨(FencesGrow.fenceCore s c).trans h, h.cores c (s.fenceCore_self c)⟩
    dsimp only
    split
    · refine rest ((FencesGrow.foldl (fun s _ => .logRecord s _ _ _) _ _).trans (.foldl (fun s g => ?_) _ _))
      split
      · exact .cancelLaunches _ _ _ _ _
      · exact .refl s
    · exact rest (.logRecord _ _ _ _)

/-! #### Decks -/

/-- One deck at most is fenced on the way, and no fence is lifted. -/
structure DeckMayFence (deck : Nat) (s u : State) : Prop where
  keeps : ∀ d ∈ s.fencedDecks, d ∈ u.fencedDecks
  only : ∀ d ∈ u.fencedDecks, d ∈ s.fencedDecks ∨ d = deck
  cores : ∀ c, (s.core c).fenced = true → (u.core c).fenced = true

theorem FencesGrow.deck {s u : State} (h : FencesGrow s u) (deck : Nat) : DeckMayFence deck s u :=
  ⟨fun _ hd => h.decks ▸ hd, fun _ hd => .inl (h.decks ▸ hd), h.cores⟩

namespace DeckMayFence

theorem refl (deck : Nat) (s : State) : DeckMayFence deck s s := (FencesGrow.refl s).deck deck
theorem trans {deck : Nat} {s u v : State} (h : DeckMayFence deck s u) (g : DeckMayFence deck u v) : DeckMayFence deck s v :=
  ⟨fun d hd => g.keeps d (h.keeps d hd), fun d hd => (g.only d hd).elim (h.only d) .inr, fun c hc => g.cores c (h.cores c hc)⟩
theorem foldl {α : Type} {deck : Nat} {f : State → α → State} (l : List α) (h : ∀ s, ∀ a ∈ l, DeckMayFence deck s (f s a)) (s : State) :
    DeckMayFence deck s (l.foldl f s) := by
  induction l generalizing s with
  | nil => exact refl deck s
  | cons a l ih => exact (h s a (by simp)).trans (ih (fun s b hb => h s b (by simp [hb])) (f s a))

end DeckMayFence

/-- A deck is down: it is fenced with its 128 cores (R325). -/
structure DeckDown (d : Nat) (s : State) : Prop where
  deck : d ∈ s.fencedDecks
  cores : ∀ i, i < 128 → (s.core (d * 128 + i)).fenced = true

theorem DeckDown.later {d deck : Nat} {s u : State} (h : DeckDown d s) (g : DeckMayFence deck s u) : DeckDown d u :=
  ⟨g.keeps d h.deck, fun i hi => g.cores _ (h.cores i hi)⟩

@[simp] theorem mem_setInsert (l : List Nat) (n m : Nat) : m ∈ setInsert l n ↔ m = n ∨ m ∈ l := by
  induction l with
  | nil => simp [setInsert]
  | cons k l ih =>
    simp only [setInsert]
    split
    · simp
    · split
      case isTrue h => subst h; simp
      case isFalse => simp only [List.mem_cons, ih]; tauto

/-- Killing the cores of a range fences each of them. -/
theorem State.killAll_fences (source : Nat) (f : Nat → Nat) (k : Nat → Kill) (l : List Nat) (s : State) :
    ∀ i ∈ l, ((l.foldl (fun s i => s.killOne source (f i) (k i)) s).core (f i)).fenced = true := by
  induction l generalizing s with
  | nil => simp
  | cons a l ih =>
    intro i hi
    rcases List.mem_cons.mp hi with rfl | hi
    · exact (FencesGrow.foldl (fun s i => (s.killOne_fences source (f i) (k i)).1) l _).cores _ (s.killOne_fences source _ _).2
    · exact ih _ i hi

/-- Fencing a deck that is not fenced yet brings it down with all its cores, and touches no other deck's fence (R325). -/
theorem State.fenceDeck_fences (s : State) (deck core : Nat) (k : Kill) (doomed : Tab Kill) :
    DeckMayFence deck s (s.fenceDeck deck core k doomed) ∧ (deck ∉ s.fencedDecks → DeckDown deck (s.fenceDeck deck core k doomed)) := by
  unfold State.fenceDeck
  split
  case isTrue h => exact ⟨.refl deck s, fun g => absurd (by simpa using h) g⟩
  case isFalse =>
    extract_lets s1 s2 plain s3 copies s4
    have h1 : DeckMayFence deck s s1 :=
      ⟨fun d hd => (mem_setInsert _ _ _).mpr (.inr hd), fun d hd => ((mem_setInsert _ _ _).mp hd).symm, fun _ h => h⟩
    have h2 : FencesGrow s1 s2 := .logRecord _ _ _ _
    have h3 : FencesGrow s2 s3 := .foldl (fun s i => (s.killOne_fences core (deck * 128 + i) _).1) _ _
    have down : DeckDown deck s3 := by
      constructor
      · rw [(h2.trans h3).decks]
        exact (mem_setInsert _ _ _).mpr (.inl rfl)
      · intro i hi
        exact s2.killAll_fences core (deck * 128 + ·) (fun i => tabGet doomed (deck * 128 + i) plain) _ i (List.mem_range.mpr hi)
    have h4 : FencesGrow s3 s4 := .foldl (fun s (e : Nat × Active) => .dropActive s e.1) copies s3
    have h5 := (h4.trans (.barriers s4 (s4.barriers.filter fun e => !(e.1 / 4096 % 3 == 1 && e.1 / 16 % 256 == deck)))).deck deck
    exact ⟨h1.trans (((h2.trans h3).deck deck).trans h5), fun _ => down.later h5⟩

theorem DeckMayFence.killCore (s : State) (c : Nat) (k : Kill) (doomed : Tab Kill) :
    DeckMayFence (deckOf c) s (s.killCore c k doomed) := by
  have one := (s.killOne_fences c c k).1.deck (deckOf c)
  unfold State.killCore
  split
  · exact .refl _ s
  · dsimp only
    split
    · exact one.trans (State.fenceDeck_fences _ _ _ _ _).1
    · exact one

/-- A pass over the decks that fences no other than the one it has come to brings down the one that it fences. -/
theorem DeckDown.of_pass {d : Nat} {f : State → Nat → State} (h : ∀ s a, DeckMayFence a s (f s a))
    (hd : ∀ s, d ∉ s.fencedDecks → DeckDown d (f s d)) (l : List Nat) (s : State) (hl : d ∈ l) (hs : d ∉ s.fencedDecks) :
    DeckDown d (l.foldl f s) := by
  have later (l : List Nat) : ∀ s, DeckDown d s → DeckDown d (l.foldl f s) := by
    induction l with
    | nil => exact fun _ g => g
    | cons a l ih => exact fun s g => ih _ (g.later (h s a))
  induction l generalizing s with
  | nil => cases hl
  | cons a l ih =>
    by_cases ha : d = a
    · exact ha ▸ later l _ (hd s hs)
    · exact ih _ ((List.mem_cons.mp hl).resolve_left ha) fun g => ((h s a).only d g).elim hs ha

/-- A deck that is doomed is down after the kills of the cycle (R320, R325). -/
theorem State.killDoomed_down (s : State) (d : Nat) (k : Kill) (hd : d < 8) (hs : d ∉ s.fencedDecks)
    (hk : tabGet? s.doomed (1024 + d) = some k) : DeckDown d s.killDoomed := by
  have kills (t : State) (a : Nat) : DeckMayFence a t
      ((s.doomed.filter fun e => decide (e.1 < 1024) && deckOf e.1 == a).foldl (fun s' e => s'.killCore e.1 e.2 s.doomed) t) :=
    .foldl _ (fun t e he => by
      obtain ⟨-, hin⟩ := List.mem_filter.mp he
      have ha : deckOf e.1 = a := by simp at hin; exact hin.2
      exact ha ▸ .killCore t e.1 e.2 s.doomed) t
  refine DeckDown.of_pass (fun t a => ?_) (fun t ht => ?_) _ _ (List.mem_range.mpr hd) hs
  · refine DeckMayFence.trans ?_ (kills _ a)
    split
    · exact (State.fenceDeck_fences _ _ _ _ _).1
    · exact .refl a t
  · simp only [hk]
    exact ((State.fenceDeck_fences _ _ _ _ _).2 ht).later (kills _ d)

/-! #### What is doomed -/

theorem tabGet?_eq_none {α : Type} {t : Tab α} {k : Nat} (h : ∀ e ∈ t, e.1 ≠ k) : tabGet? t k = none := by
  induction t with
  | nil => rfl
  | cons e t ih => simp only [tabGet?, if_neg (h e (by simp))]; exact ih fun e' he => h e' (by simp [he])

/-- A kill that is found is noted, and nothing else happens yet (R320). -/
theorem State.doomCore_eq (s : State) (c : Nat) (k : Kill) : s.doomCore c k = { s with doomed := (s.doomCore c k).doomed } := by
  unfold State.doomCore
  split <;> rfl
theorem State.doomCore_self (s : State) {c : Nat} (k : Kill) (h : (s.core c).fenced = false) :
    (tabGet? (s.doomCore c k).doomed c).isSome = true := by
  unfold State.doomCore
  split
  case isTrue g => simpa [h] using g
  case isFalse => simp
theorem State.doomCore_keeps (s : State) {c n : Nat} (k : Kill) (h : (tabGet? s.doomed n).isSome = true) :
    (tabGet? (s.doomCore c k).doomed n).isSome = true := by
  unfold State.doomCore
  split
  · exact h
  · by_cases hn : n = c
    · simp [hn]
    · simpa [tabGet?_set_other _ _ hn] using h

/-- The live cores of a range are doomed, each for itself. -/
theorem State.doomAll_spec (f : Nat → Nat) (k : Kill) (l : List Nat) (s : State) :
    ∃ d, l.foldl (fun s i => s.doomCore (f i) k) s = { s with doomed := d } ∧
      (∀ n, (tabGet? s.doomed n).isSome = true → (tabGet? d n).isSome = true) ∧
      ∀ i ∈ l, (s.core (f i)).fenced = false → (tabGet? d (f i)).isSome = true := by
  induction l generalizing s with
  | nil => exact ⟨s.doomed, rfl, fun _ h => h, by simp⟩
  | cons a l ih =>
    have one := s.doomCore_eq (f a) k
    obtain ⟨d, hd, keeps, all⟩ := ih (s.doomCore (f a) k)
    refine ⟨d, ?_, fun n hn => keeps n (s.doomCore_keeps k hn), fun i hi hf => ?_⟩
    · rw [List.foldl_cons, hd, one]
    · rcases List.mem_cons.mp hi with rfl | hi
      · exact keeps _ (s.doomCore_self k hf)
      · exact all i hi (by rw [one]; exact hf)

/-- A deck that is to be fenced: nothing changes but what is doomed, its live cores with it (R320, R325). -/
theorem State.doomDeck_spec (s : State) (deck : Nat) (injected : Bool) (h : deck ∉ s.fencedDecks) (hd : ∀ e ∈ s.doomed, e.1 < 1024) :
    ∃ d k, s.doomDeck deck injected = { s with doomed := d } ∧ tabGet? d (1024 + deck) = some k ∧ k.cause = 0 ∧
      ∀ i, i < 128 → deck < 8 → (s.core (deck * 128 + i)).fenced = false → (tabGet? d (deck * 128 + i)).isSome = true := by
  have none : tabGet? s.doomed (1024 + deck) = none := tabGet?_eq_none fun e he => by have := hd e he; omega
  obtain ⟨d, eq, -, all⟩ := State.doomAll_spec (deck * 128 + ·) { errorKill 9 injected with cause := 0 } (List.range 128) s
  have go : ¬ (s.fencedDecks.contains deck = true ∨ (tabGet? s.doomed (1024 + deck)).isSome = true) := by simp [h, none]
  refine ⟨_, { errorKill 9 injected with cause := 0 }, ?_, tabGet?_set_self d _ _, rfl, fun i hi h8 hf => ?_⟩
  · simp only [State.doomDeck, if_neg go, eq]
  · rw [tabGet?_set_other _ _ (by omega)]
    exact all i (List.mem_range.mpr hi) hf

/-! ### Bytes that the device's own units write (R2, R150) -/

theorem mem_of_tabGet? {α : Type} {t : Tab α} {k : Nat} {v : α} (h : tabGet? t k = some v) : (k, v) ∈ t := by
  induction t with
  | nil => cases h
  | cons e t ih =>
    simp only [tabGet?] at h
    split at h
    case isTrue hk => simp [← hk, ← Option.some.inj h]
    case isFalse => exact List.mem_cons_of_mem _ (ih h)

/-- Each byte of a write to different places of memory is there afterwards. -/
theorem State.applyWrites_read (s : State) (w : Tab Byte) (hm : ∀ e ∈ w, e.1 < scratchHome) (hn : (w.map Prod.fst).Nodup)
    {a : Nat} {b : Byte} (h : (a, b) ∈ w) : (s.applyWrites w).homeByte a = b := by
  rw [State.applyWrites_homeByte]
  induction w generalizing s with
  | nil => cases h
  | cons e w ih =>
    obtain ⟨hne, hn⟩ := List.nodup_cons.mp hn
    change ((s.setHomeByte e.1 e.2).writeAll w).homeByte a = b
    rcases List.mem_cons.mp h with rfl | h
    · have rest := (s.setHomeByte a b).applyWrites_frame w a fun e he ha => hne (List.mem_map.mpr ⟨e, he, ha⟩)
      rw [State.applyWrites_homeByte] at rest
      rw [rest, State.homeByte_setHomeByte_self s a b (.inl (hm (a, b) (by simp)))]
    · exact ih _ (fun e he => hm e (by simp [he])) hn h

/-- Bytes in a row are written at their homes alone: memory, the scratchpads, and what marks lines and words. -/
theorem State.pokeBytes_eq (s : State) (a : Nat) (bs : List Byte) :
    ∃ m sc di lo ba, s.pokeBytes a bs = { s with mem := m, scratch := sc, dirty := di, lost := lo, badWords := ba } :=
  ⟨_, _, _, _, _, State.applyWrites_eq _ _⟩

theorem State.pokeBytes_frame (s : State) {a b : Nat} {bs : List Byte} (h : b < a ∨ a + bs.length ≤ b) :
    (s.pokeBytes a bs).homeByte b = s.homeByte b := by
  refine State.applyWrites_frame _ _ _ fun e he => ?_
  have hin := (List.of_mem_zip he).1
  simp only [List.mem_map, List.mem_range] at hin
  omega

theorem State.pokeBytes_read (s : State) {a : Nat} {bs : List Byte} (h : a + bs.length ≤ scratchHome) :
    (s.pokeBytes a bs).homeBytes a bs.length = bs := by
  have fst : ((((List.range bs.length).map fun i => a + i).zip bs).map Prod.fst) = (List.range bs.length).map fun i => a + i :=
    List.map_fst_zip (by simp)
  refine List.ext_getElem (by simp [State.homeBytes]) fun i hi hi' => ?_
  simp only [State.homeBytes, List.getElem_map, List.getElem_range]
  refine State.applyWrites_read _ _ (fun e he => ?_) ?_ ?_
  · have hin := (List.of_mem_zip he).1
    simp only [List.mem_map, List.mem_range] at hin
    omega
  · rw [fst]
    exact List.nodup_range.map fun _ _ => Nat.add_left_cancel
  · rw [List.mem_iff_getElem]
    exact ⟨i, by simpa using hi', by simp⟩

/-- Doublewords written one after another from a page on, by their numbers. -/
def State.pokeWords (s : State) (page : Nat) (v : Nat → Nat) (l : List Nat) : State :=
  l.foldl (fun s i => s.pokeBytes (page + 8 * i) (natBytes 8 (v i))) s

theorem State.pokeWords_eq (s : State) (page : Nat) (v : Nat → Nat) (l : List Nat) :
    ∃ m sc di lo ba, s.pokeWords page v l = { s with mem := m, scratch := sc, dirty := di, lost := lo, badWords := ba } := by
  induction l generalizing s with
  | nil => exact ⟨_, _, _, _, _, rfl⟩
  | cons i l ih =>
    obtain ⟨m, sc, di, lo, ba, h⟩ := ih (s.pokeBytes (page + 8 * i) (natBytes 8 (v i)))
    obtain ⟨m', sc', di', lo', ba', g⟩ := s.pokeBytes_eq (page + 8 * i) (natBytes 8 (v i))
    refine ⟨m, sc, di, lo, ba, h.trans ?_⟩
    rw [g]

theorem State.pokeWords_kept (s : State) (page : Nat) (v : Nat → Nat) (l : List Nat) :
    (s.pokeWords page v l).ctxs = s.ctxs ∧ (s.pokeWords page v l).regs = s.regs ∧ (s.pokeWords page v l).threads = s.threads ∧
      (s.pokeWords page v l).cores = s.cores := by
  obtain ⟨_, _, _, _, _, h⟩ := s.pokeWords_eq page v l
  rw [h]
  exact ⟨rfl, rfl, rfl, rfl⟩

theorem State.pokeWords_read (s : State) {page : Nat} (v : Nat → Nat) {l : List Nat} (hl : l.Nodup)
    (hm : ∀ i ∈ l, page + 8 * i + 8 ≤ scratchHome) {i : Nat} (hi : i ∈ l) :
    (s.pokeWords page v l).homeBytes (page + 8 * i) 8 = natBytes 8 (v i) := by
  have frame (l : List Nat) : ∀ s : State, i ∉ l → (s.pokeWords page v l).homeBytes (page + 8 * i) 8 = s.homeBytes (page + 8 * i) 8 := by
    induction l with
    | nil => exact fun _ _ => rfl
    | cons j l ih =>
      intro s hj
      obtain ⟨hne, hj⟩ := List.ne_and_not_mem_of_not_mem_cons hj
      refine (ih _ hj).trans (List.map_congr_left fun k hk => State.pokeBytes_frame _ ?_)
      have := List.mem_range.mp hk
      rw [natBytes_length]
      omega
  induction l generalizing s with
  | nil => cases hi
  | cons j l ih =>
    obtain ⟨hne, hl⟩ := List.nodup_cons.mp hl
    rcases List.mem_cons.mp hi with rfl | hi
    · refine (frame l _ hne).trans ?_
      have := s.pokeBytes_read (a := page + 8 * i) (bs := natBytes 8 (v i)) (by rw [natBytes_length]; exact hm i (by simp))
      rwa [natBytes_length] at this
    · exact ih _ hl (fun k hk => hm k (by simp [hk])) hi

/-- A context's counts after an update: the energy and the time (R399). -/
def Ctx.counted (x : Ctx) (time energy : Nat) : Tab Nat := tabSet (tabSet x.counts 5 energy) 13 time
theorem Ctx.counted_time (x : Ctx) (time energy : Nat) : tabGet (x.counted time energy) 13 0 = time := by simp [Ctx.counted, tabGet]
theorem Ctx.counted_other (x : Ctx) (time energy : Nat) {i : Nat} (h : i ≠ 5) (h' : i ≠ 13) :
    tabGet (x.counted time energy) i 0 = tabGet x.counts i 0 := by
  simp [Ctx.counted, tabGet, tabGet?_set_other, h, h']

/-- A state in which a context's counts have been brought up to date, with what each of its cores has spent. -/
def State.countersSet (s : State) (p : Nat) (x : Ctx) (energy : Nat) (at_ : Tab Nat) : State :=
  { s.setCtx p { x with counts := x.counted s.time energy, energyAt := at_ } with estimates := s.estimates + 1 }

/-- An update of the counters then writes words 1 to 13 of the counter page (R399). -/
theorem State.updateCounters_eq (s : State) {p : Nat} {x : Ctx} (hx : s.ctx? p = some x) :
    ∃ energy at_, s.updateCounters p =
      (s.countersSet p x energy at_).pokeWords x.counterPage (fun i => tabGet (x.counted s.time energy) i 0) ((List.range 13).map (· + 1)) :=
  ⟨_, _, by simp only [State.updateCounters, hx]; rfl⟩

/-! ### The end of contexts (R378) -/

theorem Ctx.unbind_ending (x : Ctx) (id : Nat) (r : Vec) (killed : Option Nat) (rewound : Bool) : (x.unbind id r killed rewound).ending = x.ending := by
  unfold Ctx.unbind
  generalize List.range 8 = l
  induction l generalizing x with
  | nil => rfl
  | cons i l ih =>
    rw [List.foldl_cons, ih]
    dsimp only
    split
    · rfl
    · split
      · rfl
      · split <;> rfl
theorem Ctx.updateRound_ending (x : Ctx) (g : Nat) : (x.updateRound g).ending = x.ending := by
  unfold Ctx.updateRound
  dsimp only
  split
  · split <;> rfl
  · rfl
theorem Ctx.dropSchedGraph_ending (x : Ctx) (g : Nat) : (x.dropSchedGraph g).ending = x.ending := by
  unfold Ctx.dropSchedGraph
  split
  · split <;> rfl
  · rfl
theorem Ctx.closeLevels_ending (x : Ctx) (g ph : Nat) : (x.closeLevels g ph).ending = x.ending := by
  unfold Ctx.closeLevels
  extract_lets y
  have graphs : y.ending = x.ending := by
    unfold y
    split
    · exact Ctx.dropSchedGraph_ending _ _
    · rfl
  split <;> exact graphs

/-- Every byte is as before, and every context that stands ends, or goes on, as before. -/
structure EndingsKept (s u : State) : Prop where
  mem : MemKept s u
  ending : ∀ q, (u.ctx? q).map Ctx.ending = (s.ctx? q).map Ctx.ending

theorem EndingsKept.refl (s : State) : EndingsKept s s := ⟨fun _ => rfl, fun _ => rfl⟩
theorem EndingsKept.trans {s u v : State} (h : EndingsKept s u) (g : EndingsKept u v) : EndingsKept s v :=
  ⟨fun a => (g.mem a).trans (h.mem a), fun q => (g.ending q).trans (h.ending q)⟩
theorem EndingsKept.foldl {α : Type} {f : State → α → State} (h : ∀ s a, EndingsKept s (f s a)) (l : List α) (s : State) :
    EndingsKept s (l.foldl f s) := by
  induction l generalizing s with
  | nil => exact .refl s
  | cons a l ih => exact (h s a).trans (ih (f s a))
theorem EndingsKept.dispatch (s : State) (b : Bool) : EndingsKept s { s with dispatch := b } := ⟨fun _ => rfl, fun _ => rfl⟩
theorem EndingsKept.host (s : State) (h : HostPort) : EndingsKept s { s with host := h } := ⟨fun _ => rfl, fun _ => rfl⟩
theorem EndingsKept.setCtx {s : State} {p : Nat} {x y : Ctx} (hx : s.ctx? p = some x) (h : y.ending = x.ending) : EndingsKept s (s.setCtx p y) :=
  ⟨fun _ => rfl, fun q => by
    by_cases hq : q = p
    · simp [hq, hx, h]
    · rw [State.ctx?_setCtx_other _ _ hq]⟩
theorem EndingsKept.modCtx (s : State) (p : Nat) {f : Ctx → Ctx} (h : ∀ x, (f x).ending = x.ending) : EndingsKept s (s.modCtx p f) := by
  unfold State.modCtx
  split
  case h_1 hx => exact .setCtx hx (h _)
  case h_2 => exact .refl s
theorem EndingsKept.launchEnd (s : State) (p id : Nat) (killed : Option Nat) : EndingsKept s (s.launchEnd p id killed) := by
  unfold State.launchEnd
  split
  case h_1 => exact .refl s
  case h_2 x hx =>
    split
    case h_1 => exact .refl s
    case h_2 l hl =>
      split
      case isTrue => exact .refl s
      case isFalse =>
        extract_lets g ph x1 free x2 x3 x4 x5 x6 t u
        have e2 : x2.ending = x.ending := by unfold x2; split <;> rfl
        have e3 : x3.ending = x2.ending := by unfold x3; split <;> rfl
        have e5 : x5.ending = x3.ending := by
          unfold x5
          split
          · exact x3.unbind_ending _ _ _ _
          · exact (x4.updateRound_ending _).trans (x3.unbind_ending _ _ _ _)
        have e6 : x6.ending = x.ending := (x5.closeLevels_ending g ph).trans (e5.trans (e3.trans e2))
        have ended : EndingsKept s u := (EndingsKept.setCtx hx e6).trans (.dispatch t true)
        split
        · obtain ⟨h, hh⟩ := u.signalAfter_host p (8 * p + 1)
          exact hh ▸ ended.trans (.host u h)
        · exact ended

/-- A context that has not ended begins to end with a code; no byte changes, and no other context's ending (R378). -/
theorem State.endContext_spec (s : State) (p code : Nat) :
    MemKept s (s.endContext p code) ∧
      ∀ q, ((s.endContext p code).ctx? q).map Ctx.ending =
        if q = p then (s.ctx? p).map (fun x => some (x.ending.getD code)) else (s.ctx? q).map Ctx.ending := by
  unfold State.endContext
  split
  case h_1 hx => exact ⟨fun _ => rfl, fun q => by by_cases hq : q = p <;> simp [hq, hx]⟩
  case h_2 x hx =>
    split
    case isTrue he =>
      refine ⟨fun _ => rfl, fun q => ?_⟩
      by_cases hq : q = p
      · obtain ⟨c, hc⟩ := Option.isSome_iff_exists.mp he
        simp [hq, hx, hc]
      · simp [hq]
    case isFalse he =>
      have he : x.ending = none := by simpa using he
      have rest (ids : List Nat) (t : State) : EndingsKept t (ids.foldl (fun s id =>
          (s.modCtx p fun x => match tabGet? x.launches id with
            | some l => { x with launches := tabSet x.launches id { l with code := endCode code } }
            | none => x).launchEnd p id none) t) :=
        .foldl (fun s id => (EndingsKept.modCtx s p fun x => by split <;> rfl).trans (.launchEnd _ _ _ _)) ids t
      refine ⟨fun a => (rest _ _).mem a, fun q => ((rest _ _).ending q).trans ?_⟩
      by_cases hq : q = p
      · simp [hq, hx, he]
      · simp [hq, State.ctx?_setCtx_other]

/-- Every listed context that has not ended ends with the code. -/
theorem State.endContexts_spec (code p : Nat) (l : List (Nat × Ctx)) (s : State) :
    MemKept s (l.foldl (fun s e => s.endContext e.1 code) s) ∧
      ((s.ctx? p).map Ctx.ending = some (some code) ∨ ((s.ctx? p).map Ctx.ending = some none ∧ p ∈ l.map Prod.fst) →
        ((l.foldl (fun s e => s.endContext e.1 code) s).ctx? p).map Ctx.ending = some (some code)) := by
  induction l generalizing s with
  | nil => exact ⟨fun _ => rfl, fun h => by simpa using h⟩
  | cons e l ih =>
    obtain ⟨mem, ending⟩ := s.endContext_spec e.1 code
    obtain ⟨mem', later⟩ := ih (s.endContext e.1 code)
    refine ⟨fun a => (mem' a).trans (mem a), fun h => later ?_⟩
    by_cases hp : p = e.1
    · left
      rw [ending, if_pos hp, ← hp]
      cases hx : s.ctx? p with
      | none => simp [hx] at h
      | some x => rcases h with h | h <;> simp_all
    · rw [ending, if_neg hp]
      simpa [hp] using h

theorem State.modCtx_eq (s : State) (p : Nat) (f : Ctx → Ctx) : s.modCtx p f = { s with ctxs := (s.modCtx p f).ctxs } := by
  unfold State.modCtx
  split <;> rfl

/-- The state in which the injection that fires is disarmed already (R327). -/
def State.disarm (s : State) : State := { s with host := { s.host with injections := listDrop s.host.injections s.arg.n } }

/-! ### Records of the device log (R322) -/

/-- A field of a record that is written from rising fields. -/
theorem fieldAt_record {l : List (Nat × Nat × Nat)} {o n v x : Nat} (h : Rising 0 l) (hm : (o, n, v) ∈ l) (hw : o + n ≤ 64)
    (hv : v % 2 ^ (8 * n) = x) : fieldAt (packBytes 512 l) o n = x :=
  (fieldAt_packBytes h hm (by omega)).trans hv

/-! ### The clauses of the statement -/

/-- A line that is lost: it is marked, and its LINE_LOST record is written (R276, R322). -/
theorem State.loseLine_spec (s : State) (a source : Nat) (injected : Bool) :
    ∃ r, s.loseLine a source injected = { s with lost := setInsert s.lost (a / 64), outgoing := s.outgoing ++ [r] } ∧
      fieldAt r.body 0 1 = 0x22 ∧ fieldAt r.body 2 1 = injected.toNat ∧
      (a < 2 ^ 64 → fieldAt r.body 0x10 8 = a / 64 * 64) := by
  refine ⟨_, rfl, ?_, ?_, fun ha => ?_⟩
  · exact fieldAt_record (v := 0x22) (by simp [Rising]) (by simp) (by decide) rfl
  · exact fieldAt_record (v := if injected then 1 else 0) (by simp [Rising]) (by simp) (by decide) (by cases injected <;> rfl)
  · exact fieldAt_record (v := a / 64 * 64) (by simp [Rising]) (by simp) (by decide) (by omega)

end Sys2Proof.Machine

namespace Sys2Proof.Slice0
open Sys2Proof.Machine

/-! What the events are: each the one meaning that `exec` gives it. -/
theorem exec_corrected (s : State) : exec .corrected s = execCorrected s := rfl
theorem exec_deckFence (s : State) : exec .deckFence s = execDeckFence s := rfl
theorem exec_injectionFire (s : State) : exec .injectionFire s = execInjectionFire s := rfl
theorem exec_l2WriteBack (s : State) : exec .l2WriteBack s = execL2WriteBack s := rfl
theorem exec_sagePeriodicSample (s : State) : exec .sagePeriodicSample s = execSagePeriodicSample s := rfl
theorem exec_counterPageUpdate (s : State) : exec .counterPageUpdate s = execCounterPageUpdate s := rfl

/-- CORRECTED writes the structure's one record of the second (R313). -/
theorem corrected_writes (s : State) {k : Nat} {b : Bool} (hk : s.arg.n = k) (hb : tabGet? s.correctedNow k = some b) :
    ∃ u r, exec .corrected s = .next u ∧ Writes s u r ∧ r.logged = true ∧ r.outlet = .none ∧ fieldAt r.body 0 1 = 0x24 ∧ fieldAt r.body 2 1 = b.toNat ∧
      fieldAt r.body 4 2 = k % 1024 ∧ (k < 0x40000 → fieldAt r.body 3 1 = k / 1024) ∧
      u.correctedNow = tabErase s.correctedNow k ∧ tabGet? u.correctedAt k = some (s.time / 1000000000 + 1) ∧
      u = { s with correctedNow := u.correctedNow, correctedAt := u.correctedAt, outgoing := u.outgoing } := by
  rw [exec_corrected, execCorrected, hk, hb]
  refine ⟨_, _, rfl, rfl, rfl, rfl, ?_, ?_, ?_, fun h => ?_, rfl, tabGet?_set_self _ _ _, rfl⟩
  · exact fieldAt_record (v := 0x24) (by simp [Rising]) (by simp) (by decide) rfl
  · exact fieldAt_record (v := if b then 1 else 0) (by simp [Rising]) (by simp) (by decide) (by cases b <;> rfl)
  · exact fieldAt_record (v := k % 1024) (by simp [Rising]) (by simp) (by decide) (by omega)
  · exact fieldAt_record (v := k / 1024) (by simp [Rising]) (by simp [hk]) (by decide) (by omega)

/-- A logged record that alone is written enters the device log (R322, R323). -/
theorem enterRecords_logged (s : State) {r : Outgoing} (hr : r.logged = true) (hs : s.outgoing = [r]) :
    ∃ v, tabGet? s.enterRecords.log (s.logSeq % 8192) = some v ∧ s.enterRecords.logSeq = (s.logSeq + 1) % 2 ^ 16 ∧ s.enterRecords.outgoing = [] ∧
      (∀ i, i < 0x1E → fieldAt v i 1 = fieldAt r.body i 1) ∧ fieldAt v 0x1E 2 = s.logSeq % 2 ^ 16 ∧
      fieldAt v 0x3C 4 = (crc32c (natBytes 60 (v.toNat % 2 ^ 480))).toNat := by
  have enters : s.enterRecords = ({ s with outgoing := [] } : State).enterRecord r := by
    simp [State.enterRecords, hs]
  have parts := State.enterRecord_logged { s with outgoing := [] } r hr
  rw [← enters] at parts
  obtain ⟨log, rest⟩ := Prod.mk.inj parts
  obtain ⟨seq, out⟩ := Prod.mk.inj rest
  obtain ⟨bytes, number, crc⟩ := State.numbered_spec s r.body
  exact ⟨_, by rw [log]; exact tabGet?_set_self _ _ _, seq, out, bytes, number, by rw [show 480 = 8 * 60 from rfl]; exact crc⟩

/-- A deck that is fenced goes with its cores as the cycle ends (R325). -/
theorem deckFence_fences (s : State) {d : Nat} (ha : s.arg.n = d) (h8 : d < 8) (hd : d ∉ s.fencedDecks) (hk : ∀ e ∈ s.doomed, e.1 < 1024) :
    ∃ u k, exec .deckFence s = .next u ∧ u = { s with doomed := u.doomed } ∧ tabGet? u.doomed (1024 + d) = some k ∧ k.cause = 0 ∧
      (∀ i, i < 128 → (s.core (d * 128 + i)).fenced = false → (tabGet? u.doomed (d * 128 + i)).isSome = true) ∧
      d ∈ u.killDoomed.fencedDecks ∧ ∀ i, i < 128 → (u.killDoomed.core (d * 128 + i)).fenced = true := by
  obtain ⟨doomed, k, eq, deck, cause, cores⟩ := s.doomDeck_spec d false hd hk
  have down := State.killDoomed_down { s with doomed := doomed } d k h8 hd deck
  refine ⟨{ s with doomed := doomed }, k, ?_, rfl, deck, cause, fun i hi => cores i hi h8, down.deck, down.cores⟩
  rw [exec_deckFence, execDeckFence, ha, if_pos h8, eq]

theorem injectionFire_eq (s : State) {i : Injection} (own : s.arg.flag = false) (armed : s.host.injections[s.arg.n]? = some i)
    (due : s.injectionDue i = true) : exec .injectionFire s = .next (s.disarm.inject i) := by
  simp only [exec_injectionFire, execInjectionFire, own, armed, due, if_true, Bool.false_eq_true, if_false]
  rfl

/-- An injection that fires is one whose strike nothing forbids. -/
theorem Fires.free {s : State} {i : Injection} (h : Fires s i) :
    ((s.disarm.core i.core).fenced || !(s.disarm.struck i.desc).all s.disarm.injectable) = false := by
  have live : (s.disarm.core i.core).fenced = false := h.live
  have allowed : (s.disarm.struck i.desc).all s.disarm.injectable = true := List.all_eq_true.mpr h.allowed
  rw [live, allowed]
  rfl

theorem Fires.exec_eq {s : State} {i : Injection} (h : Fires s i) : exec .injectionFire s = .next (s.disarm.inject i) :=
  injectionFire_eq s h.own h.armed h.due

/-- Kinds 1 and 6 flip two bits, or one, of a register entry of a thread (R326). -/
theorem Fires.flips {s : State} {i : Injection} (h : Fires s i) {t : Thread} {reg : Nat} (ht : s.thread? i.core i.slot = some t)
    (hr : fieldAt i.desc 5 1 = reg) (hs : reg < t.size) (hk : i.kind = 1 ∨ i.kind = 6) :
    ∃ u, exec .injectionFire s = .next u ∧ u.host.injections = s.host.injections.eraseIdx s.arg.n ∧
      u.regAt i.core (t.base + reg) = { s.regAt i.core (t.base + reg) with
        flips := min 2 ((s.regAt i.core (t.base + reg)).flips + if i.kind = 1 then 2 else 1) } ∧
      u = { s with regs := u.regs, host := u.host } := by
  have inWindow : ¬ t.size ≤ reg := Nat.not_le.mpr hs
  have ht' : s.disarm.thread? i.core i.slot = some t := ht
  have eq : s.disarm.inject i = s.disarm.setReg i.core (t.base + reg) { s.regAt i.core (t.base + reg) with
      flips := min 2 ((s.regAt i.core (t.base + reg)).flips + if i.kind = 1 then 2 else 1) } := by
    rcases hk with hk | hk <;>
    · simp only [State.inject, h.free, hk, ht', hr, inWindow, Bool.false_eq_true, if_false]
      rfl
  refine ⟨s.disarm.inject i, h.exec_eq, ?_⟩
  rw [eq]
  exact ⟨rfl, State.regAt_setReg_self _ _ _ _, rfl⟩

/-- Kind 2 spoils a word of a scratchpad (R326). -/
theorem Fires.spoils {s : State} {i : Injection} (h : Fires s i) (hk : i.kind = 2) (ha : fieldAt i.desc 0x10 8 < 0xE0000) :
    ∃ u, exec .injectionFire s = .next u ∧ (i.core * 2 ^ 20 + fieldAt i.desc 0x10 8) / 8 ∈ u.badWords ∧
      u = { s with badWords := u.badWords, host := u.host } := by
  have eq : s.disarm.inject i = { s.disarm with
      badWords := setInsert s.badWords ((i.core * 2 ^ 20 + fieldAt i.desc 0x10 8) / 8) } := by
    simp only [State.inject, h.free, hk, ha, if_true, Bool.false_eq_true, if_false]
    rfl
  refine ⟨s.disarm.inject i, h.exec_eq, ?_⟩
  rw [eq]
  exact ⟨(mem_setInsert _ _ _).mpr (.inl rfl), rfl⟩

/-- Kind 3 makes a thread's next block fail its check (R326). -/
theorem Fires.mismatches {s : State} {i : Injection} (h : Fires s i) {t : Thread} (hk : i.kind = 3) (ht : s.thread? i.core i.slot = some t) :
    ∃ u, exec .injectionFire s = .next u ∧ u.thread? i.core i.slot = some { t with mismatch := true } ∧
      u = { s with threads := u.threads, ctxs := u.ctxs, host := u.host } := by
  have ht' : s.disarm.thread? i.core i.slot = some t := ht
  have eq : s.disarm.inject i = ((s.disarm.modThread i.core i.slot fun t => { t with mismatch := true }).modCtx ((s.core i.core).part.getD 0) fun x =>
      { x with saved := x.saved.map fun v => if v.thread.uid = t.uid then { v with thread := { v.thread with mismatch := true } } else v }) := by
    simp only [State.inject, h.free, hk, ht', Bool.false_eq_true, if_false]
    rfl
  refine ⟨s.disarm.inject i, h.exec_eq, ?_⟩
  rw [eq]
  constructor
  · rw [State.thread?_congr (State.modCtx_threads _ _ _)]
    exact State.thread?_modThread _ ht' _
  · rw [State.modCtx_eq, State.modThread_eq]
    rfl

/-- Kind 5 loses a line of memory, with its LINE_LOST record (R326, R327). -/
theorem Fires.loses {s : State} {i : Injection} (h : Fires s i) (hk : i.kind = 5) (hf : hasFrame (fieldAt i.desc 0x10 8) = true) :
    ∃ u r, exec .injectionFire s = .next u ∧ fieldAt i.desc 0x10 8 / 64 ∈ u.lost ∧ Writes s u r ∧ fieldAt r.body 0 1 = 0x22 ∧
      fieldAt r.body 2 1 = 1 ∧ fieldAt r.body 0x10 8 = fieldAt i.desc 0x10 8 / 64 * 64 ∧
      u = { s with lost := u.lost, outgoing := u.outgoing, host := u.host } := by
  obtain ⟨r, eq, kind, flag, addr⟩ := s.disarm.loseLine_spec (fieldAt i.desc 0x10 8) 7 true
  have lost : s.disarm.inject i = s.disarm.loseLine (fieldAt i.desc 0x10 8) 7 true := by
    simp only [State.inject, h.free, hk, hf, Bool.false_eq_true, if_false, if_true]
  refine ⟨s.disarm.inject i, r, h.exec_eq, ?_⟩
  rw [lost, eq]
  exact ⟨(mem_setInsert _ _ _).mpr (.inl rfl), rfl, kind, flag, addr (Nat.mod_lt _ (Nat.two_pow_pos _)), rfl⟩

/-- An injection that would strike a partition which does not permit it is discarded (R401). -/
theorem injection_forbidden (s : State) {i : Injection} {p : Nat} (own : s.arg.flag = false) (armed : s.host.injections[s.arg.n]? = some i)
    (due : s.injectionDue i = true) (hp : p ∈ s.struck i.desc) (hf : s.injectable p = false) :
    exec .injectionFire s = .next { s with host := { s.host with injections := s.host.injections.eraseIdx s.arg.n } } := by
  have forbidden : (s.disarm.struck i.desc).all s.disarm.injectable = false :=
    List.all_eq_false.mpr ⟨p, hp, fun g => absurd (hf.symm.trans g) (by decide)⟩
  rw [injectionFire_eq s own armed due, State.inject, forbidden, Bool.not_false, Bool.or_true, if_pos rfl]
  rfl

/-! #### Errors that arise by themselves (R276, R312, R313) -/

theorem softError_eq (s : State) (h : s.arg.flag = true) : exec .injectionFire s = .next (s.softError s.arg.k s.arg.n s.arg.m) := by
  rw [exec_injectionFire, execInjectionFire, if_pos h]

theorem softError_dirtyLine (s : State) {n : Nat} (h : s.arg.flag = true) (hn : s.arg.n = n) (hk : s.arg.k = 6) (hd : n ∈ s.dirty) :
    ∃ u r, exec .injectionFire s = .next u ∧ n ∈ u.lost ∧ Writes s u r ∧ fieldAt r.body 0 1 = 0x22 ∧
      fieldAt r.body 2 1 = 0 ∧ u = { s with lost := u.lost, outgoing := u.outgoing } := by
  obtain ⟨r, eq, kind, flag, -⟩ := s.loseLine_spec (n * 64) 7 false
  have lost : s.softError 6 n s.arg.m = s.loseLine (n * 64) 7 false := by simp [State.softError, hd]
  rw [Nat.mul_div_cancel _ (by decide)] at eq
  refine ⟨s.softError 6 n s.arg.m, r, by rw [softError_eq s h, hk, hn], ?_⟩
  rw [lost, eq]
  exact ⟨(mem_setInsert _ _ _).mpr (.inl rfl), rfl, kind, flag, rfl⟩
theorem softError_savedRecord (s : State) {n : Nat} (h : s.arg.flag = true) (hn : s.arg.n = n) {x : Ctx} (hk : s.arg.k = 3) (hx : s.ctx? n = some x) :
    ∃ u y, exec .injectionFire s = .next u ∧ u.ctx? n = some y ∧ u = { s with ctxs := u.ctxs } ∧
      y.saved = x.saved.map fun v => if v.record = s.arg.m then { v with bad := true } else v := by
  have eq : s.softError 3 n s.arg.m = s.setCtx n { x with saved := x.saved.map fun v => if v.record = s.arg.m then { v with bad := true } else v } := by
    simp only [State.softError, State.modCtx, hx]
  refine ⟨_, _, by rw [softError_eq s h, hk, hn, eq], State.ctx?_setCtx_self _ _ _, rfl, rfl⟩
theorem softError_core (s : State) {n : Nat} (h : s.arg.flag = true) (hn : s.arg.n = n) (hk : s.arg.k = 1) (hm : s.arg.m = 0 ∨ s.arg.m = 1 ∨ s.arg.m = 5)
    (hf : (s.core (n % 1024)).fenced = false) (hd : tabGet? s.doomed (n % 1024) = none) :
    ∃ u k, exec .injectionFire s = .next u ∧ tabGet? u.doomed (n % 1024) = some k ∧ k.cause = 0x0E ∧ k.source = s.arg.m ∧
        u = { s with doomed := u.doomed } := by
  have eq : s.softError 1 n s.arg.m = { s with doomed := tabSet s.doomed (n % 1024) (errorKill s.arg.m false) } := by
    simp [State.softError, hm, State.doomCore, hf, hd]
  exact ⟨_, _, by rw [softError_eq s h, hk, hn, eq], tabGet?_set_self _ _ _, rfl, rfl, rfl⟩
theorem softError_root (s : State) {n : Nat} (h : s.arg.flag = true) (hn : s.arg.n = n) {p : Nat} {x : Ctx} (hk : s.arg.k = 10)
    (hx : s.ctx? p = some x) (hs : x.keySlot = some n) (he : x.ending = none) :
    ∃ u, exec .injectionFire s = .next u ∧ (u.ctx? p).bind Ctx.ending = some 0x0103 ∧ MemKept s u := by
  obtain ⟨mem, ends⟩ := State.endContexts_spec 0x0103 p (s.ctxs.filter fun e => e.2.keySlot == some n && e.2.ending.isNone) s
  have listed : p ∈ (s.ctxs.filter fun e => e.2.keySlot == some n && e.2.ending.isNone).map Prod.fst :=
    List.mem_map.mpr ⟨(p, x), List.mem_filter.mpr ⟨mem_of_tabGet? hx, by simp [hs, he]⟩, rfl⟩
  have ended := ends (.inr ⟨by rw [hx, Option.map_some, he], listed⟩)
  refine ⟨_, by rw [softError_eq s h, hk, hn]; rfl, ?_, mem⟩
  obtain ⟨y, hy, hc⟩ := Option.map_eq_some_iff.mp ended
  exact (congrArg (·.bind Ctx.ending) hy).trans hc

/-! #### Write-backs, samples, the counter page -/

theorem homeBytes_all_zero (s : State) (a n : Nat) : (s.homeBytes a n).all (· == 0) = true ↔ ∀ i, i < n → s.homeByte (a + i) = 0 := by
  simp [State.homeBytes]

theorem elisionOf_eq_zero (bs : List Byte) : elisionOf bs = 0 ↔ bs.all (· == 0) = true := by
  unfold elisionOf
  split
  case isTrue h => exact ⟨fun _ => h, fun _ => rfl⟩
  case isFalse h => split <;> exact ⟨fun g => absurd g (by decide), fun g => absurd g h⟩
theorem elisionOf_le (bs : List Byte) : elisionOf bs ≤ 2 := by
  unfold elisionOf
  split
  · decide
  · split <;> decide

/-- A write-back recomputes a line's elision state, and changes no byte (R276, R277). -/
theorem l2WriteBack_elides (s : State) {k : Nat} (hn : s.arg.n = k) (hd : k ∈ s.dirty) (hl : k ∉ s.lost) (hs : s.keptLine k = false) :
    ∃ u g, exec .l2WriteBack s = .next u ∧ tabGet? u.lines k = some g ∧ k ∉ u.dirty ∧
      (g.elision = 0 ↔ ∀ i, i < 64 → s.homeByte (k * 64 + i) = 0) ∧ g.elision ≤ 2 ∧ u = { s with lines := u.lines, dirty := u.dirty } := by
  have go : s.dirty.contains k = true ∧ (!s.lost.contains k) = true ∧ (!s.keptLine k) = true := by simp [hd, hl, hs]
  refine ⟨s.writeBack k, _, by rw [exec_l2WriteBack, execL2WriteBack, hn, if_pos go], tabGet?_set_self _ _ _, ?_, ?_, ?_, rfl⟩
  · simp [State.writeBack]
  · exact (elisionOf_eq_zero _).trans (homeBytes_all_zero s _ _)
  · exact elisionOf_le _

/-- The Sage's sample of the next slot goes to the ring of the core's partition (R396, R397). -/
theorem sagePeriodicSample_takes (s : State) {c p : Nat} (hn : s.arg.n = c) (hd : s.sampleDue c = true) (hp : (s.core c).part = some p) :
    ∃ u r, exec .sagePeriodicSample s = .next u ∧ (u.core c).sageSlot = ((s.core c).sageSlot + 1) % 64 ∧ (u.core c).sageAt = s.cycle ∧
      u = { s with cores := u.cores, samples := s.samples ++ [(p, c, r)] } ∧ r.length = 32 := by
  have part (t : State) (g : (t.core c).part = some p) (sl kind code : Nat) (pc : Addr) (tag : Word) :
      ∃ r, t.placeSample c sl kind code pc tag = { t with samples := t.samples ++ [(p, c, r)] } ∧ r.length = 32 := by
    refine ⟨_, by simp only [State.placeSample, g]; rfl, by simp⟩
  obtain ⟨r, eq, len⟩ := part (s.modCore c fun k => { k with sageSlot := ((s.core c).sageSlot + 1) % 64, sageAt := s.cycle })
    (by simp [State.core_modCore, hp]) (s.core c).sageSlot 0 (s.slotCode c (s.core c).sageSlot)
    (match s.thread? c (s.core c).sageSlot with | some t => t.pc | none => 0) 0
  have taken : exec .sagePeriodicSample s = .next (s.takeSample c) := by rw [exec_sagePeriodicSample, execSagePeriodicSample, hn, if_pos hd]
  have eq : s.takeSample c = _ := eq
  rw [eq] at taken
  exact ⟨_, r, taken, congrArg Core.sageSlot (State.core_setCore_self _ _ _), congrArg Core.sageAt (State.core_setCore_self _ _ _), rfl, len⟩

/-- The counter page is brought up to date (R399). -/
theorem counterPageUpdate_writes (s : State) {p : Nat} {x : Ctx} (hs : s.ctxs = [(p, x)]) (hd : s.countersDue x = true) (hp : x.counterPage + 4096 < scratchHome) :
    ∃ u, exec .counterPageUpdate s = .next u ∧ (u.ctx? p).map (fun y => tabGet y.counts 13 0) = some s.time ∧
      u.homeBytes (x.counterPage + 8 * 13) 8 = natBytes 8 s.time ∧ u.homeBytes (x.counterPage + 8 * 2) 8 = natBytes 8 (tabGet x.counts 2 0) ∧
      u.regs = s.regs ∧ u.threads = s.threads ∧ u.cores = s.cores := by
  have hx : s.ctx? p = some x := by simp [State.ctx?, hs, tabGet?]
  have one : exec .counterPageUpdate s = .next (s.updateCounters p) := by simp [exec_counterPageUpdate, execCounterPageUpdate, hs, hd]
  obtain ⟨spent, at_, eq⟩ := s.updateCounters_eq hx
  obtain ⟨ctxs, regs, threads, cores⟩ := (s.countersSet p x spent at_).pokeWords_kept x.counterPage
    (fun i => tabGet (x.counted s.time spent) i 0) ((List.range 13).map (· + 1))
  have read {i : Nat} (hi : i ∈ (List.range 13).map (· + 1)) :=
    (s.countersSet p x spent at_).pokeWords_read (page := x.counterPage) (fun i => tabGet (x.counted s.time spent) i 0) (by decide)
      (fun k hk => by
        have : k ≤ 13 := by simp at hk; omega
        omega) hi
  refine ⟨_, one.trans (congrArg _ eq), ?_, ?_, ?_, regs, threads, cores⟩
  · have counted : (s.countersSet p x spent at_).ctx? p = some { x with counts := x.counted s.time spent, energyAt := at_ } :=
      State.ctx?_setCtx_self _ _ _
    rw [State.ctx?, ctxs, show tabGet? (s.countersSet p x spent at_).ctxs p = _ from counted, Option.map_some, x.counted_time]
  · exact (read (by decide)).trans (congrArg _ (x.counted_time _ _))
  · exact (read (by decide)).trans (congrArg _ (x.counted_other _ _ (by decide) (by decide)))

/-- Settles O46, clause by clause: each event's meaning, with what containment keeps for a deck that is fenced, the end of the context
whose counter tree is lost, and the bytes that the counter page takes. -/
theorem observationEventsHappen : Obligations.ObservationEventsHappen := by
  unfold Obligations.ObservationEventsHappen
  refine ⟨fun s k b hk hb => corrected_writes s hk hb, fun s r hr hs => enterRecords_logged s hr hs,
    fun s d ha h8 hd hk => deckFence_fences s ha h8 hd hk, fun s i h => ⟨?_, ?_, ?_, ?_⟩,
    fun s i p own armed due hp hf => injection_forbidden s own armed due hp hf, fun s n h hn => ⟨?_, ?_, ?_, ?_⟩,
    fun s k hn hd hl hs => l2WriteBack_elides s hn hd hl hs, fun s c p hn hd hp => sagePeriodicSample_takes s hn hd hp,
    fun s p x hs hd hp => counterPageUpdate_writes s hs hd hp, fun s => ⟨rfl, rfl⟩⟩
  · exact fun t reg ht hr hs _ hk => h.flips ht hr hs hk
  · exact fun hk ha => h.spoils hk ha
  · exact fun t hk ht => h.mismatches hk ht
  · exact fun hk hf => h.loses hk hf
  · exact fun hk hd => softError_dirtyLine s h hn hk hd
  · exact fun x hk hx => softError_savedRecord s h hn hk hx
  · exact fun hk hm hf hd => softError_core s h hn hk hm hf hd
  · exact fun p x hk hx hs he => softError_root s h hn hk hx hs he

end Sys2Proof.Slice0
end

/-! PROOFS. O59: every move of the machine has a next state. An event's meaning always answers one; an engine command's does where a
command starts; a core instruction's does where a READY thread issues. The machine makes no other moves (R25, R26, R174). -/
section
namespace Sys2Proof.Machine

/-- An outcome is a next state. -/
def Goes (r : Res) : Prop := ∃ u, r = .next u

/-! ### What is decoded is a core instruction: the model gives it words (R48 to R57) -/

/-- Only core instructions have a layout: the split is by major, then by the fields that tell a major's instructions apart (R50 to R55). -/
theorem decodeLayout_has_words (w : BitVec 32) : (decodeLayout w).all (fun i => !(encode i).isEmpty) = true := by
  unfold decodeLayout
  split
  case h_59 => rfl
  all_goals
    delta decode00 decode01 decode02 decode03 decode04 decode05 decode06 decode07 decode08 decode09 decode0A decode0B decode0C decode0D
      decode0E decode0F decode10 decode11 decode12 decode13 decode14 decode15 decode16 decode17 decode18 decode19 decode1A decode1B
      decode1C decode1D decode1E decode20 decode21 decode22 decode23 decode24 decode25 decode26 decode27 decode28 decode29 decode2A
      decode2B decode2C decode2D decode30 decode31 decode32 decode33 decode34 decode35 decode36 decode37 decode38 decode39 decode3A
      decode3C decode3D
    repeat' split
  all_goals rfl

theorem encode_nonempty_of_decodeWord {w : BitVec 32} {i : Instr} (h : decodeWord w = some i) : (encode i).isEmpty = false := by
  have words := decodeLayout_has_words w
  rw [(Option.filter_eq_some_iff.mp h).1] at words
  simpa using words

theorem encode_nonempty_of_decodePair {w : BitVec 32} {i : Instr} (h : decodePair w = some i) : (encode i).isEmpty = false := by
  unfold decodePair at h
  split at h <;> cases h
  rfl

/-- What bytes form is a core instruction (R48, R57). -/
theorem encode_nonempty_of_decode {bs : List Byte} {e : Instr × List Byte} (h : decode bs = some e) : (encode e.1).isEmpty = false := by
  unfold decode at h
  split at h
  case h_1 => cases h
  split at h
  · split at h
    case h_1 => cases h
    obtain ⟨i, hi, rfl⟩ := Option.map_eq_some_iff.mp h
    exact encode_nonempty_of_decodePair hi
  · obtain ⟨i, hi, rfl⟩ := Option.map_eq_some_iff.mp h
    exact encode_nonempty_of_decodeWord hi

theorem encode_nonempty_of_foundWords {w : BitVec 32} {w2 : Option (BitVec 32)} {i : Instr} (h : foundWords w w2 = .instr i) :
    (encode i).isEmpty = false := by
  unfold foundWords at h
  split at h <;> split at h <;> cases h
  all_goals exact encode_nonempty_of_decode ‹_›

theorem encode_nonempty_of_fetchAt {s : State} {p : Nat} {pc : Addr} {i : Instr} (h : s.fetchAt p pc = .instr i) : (encode i).isEmpty = false := by
  unfold State.fetchAt at h
  split at h
  · cases h
  · exact encode_nonempty_of_foundWords h

/-! ### What each kind of instruction needs to go on -/

/-- An event's meaning asks for no one who executes. -/
theorem exec_event_goes {i : Instr} (h : isEvent i = true) (s : State) : Goes (exec i s) := by
  cases i <;> cases h <;> exact ⟨_, rfl⟩

/-- An engine command's meaning asks for the command that starts. -/
theorem exec_command_goes {i : Instr} (h : (commandCode i).isSome = true) {s : State} {e : CmdEntry} (hs : s.cur = .command e) :
    Goes (exec i s) := by
  have start (f : CmdEntry → State) : Goes (s.startWith f) := ⟨f e, by rw [State.startWith, hs]⟩
  cases i <;> cases h <;> exact start _

/-- An issue asks for a thread. -/
theorem State.issue_goes {s : State} {f : Form} (h : (s.issuer f).isSome = true) (body : Op → State → State) : Goes (s.issue f body) := by
  obtain ⟨o, ho⟩ := Option.isSome_iff_exists.mp h
  exact ⟨_, by rw [State.issue, ho]⟩

/-- An instruction that may follow ONCE issues (R57, R100). -/
theorem issuePair_eq_issue {i : Instr} {s : State} {r : Res} (h : issuePair i s = some r) : ∃ f body, r = s.issue f body := by
  cases i <;> cases h <;> exact ⟨_, _, rfl⟩

/-- A core instruction issues, except that ONCE leaves it to the instruction that follows (R57). -/
theorem exec_core_eq_issue {i : Instr} (h : (encode i).isEmpty = false) (s : State) :
    (∃ f body, exec i s = s.issue f body) ∨ ∃ w, i = .once w := by
  cases i
  case once w => exact .inr ⟨w, rfl⟩
  all_goals cases h
  all_goals exact .inl ⟨_, _, rfl⟩

/-- Slot `sl` of core `c` holds a READY thread. -/
def State.Ready (s : State) (c sl : Nat) : Prop := ∃ t, s.thread? c sl = some t ∧ t.state = .ready

/-- A READY thread issues, alone or for a pair (R27, R100). -/
theorem State.Ready.issuer {s : State} {c sl : Nat} (h : s.Ready c sl) (hc : s.cur = .thread c sl ∨ ∃ w, s.cur = .pair c sl w) (f : Form) :
    (s.issuer f).isSome = true := by
  obtain ⟨t, ht, hr⟩ := h
  obtain hc | ⟨w, hc⟩ := hc <;> simp [State.issuer, hc, ht, hr]

theorem execOnce_goes {s : State} {c sl : Nat} (h : s.Ready c sl) (hc : s.cur = .thread c sl) (w : BitVec 32) : Goes (execOnce w s) := by
  unfold execOnce
  rw [hc]
  dsimp only
  split
  case h_1 r hr =>
    obtain ⟨i, _, hi⟩ := Option.bind_eq_some_iff.mp hr
    obtain ⟨f, body, rfl⟩ := issuePair_eq_issue hi
    have h : ({ s with cur := .pair c sl w } : State).Ready c sl := h
    exact State.issue_goes (h.issuer (.inr ⟨w, rfl⟩) f) body
  case h_2 => exact ⟨_, rfl⟩

/-- A core instruction's meaning asks for a READY thread that issues. -/
theorem exec_core_goes {i : Instr} (h : (encode i).isEmpty = false) {s : State} {c sl : Nat} (hr : s.Ready c sl) (hc : s.cur = .thread c sl) :
    Goes (exec i s) := by
  obtain ⟨f, body, e⟩ | ⟨w, rfl⟩ := exec_core_eq_issue h s
  · rw [e]
    exact State.issue_goes (hr.issuer (.inl hc) f) body
  · exact execOnce_goes hr hc w

/-! ### Every move that the machine makes fits its state -/

/-- What a move runs has what it needs: an event needs nothing, a core instruction a READY thread, an engine command its entry. -/
def Move.Fits (s : State) : Move → Prop
  | .event i _ => isEvent i = true
  | .issue c sl i => (encode i).isEmpty = false ∧ s.Ready c sl
  | .command _ i => (commandCode i).isSome = true
  | _ => True

/-- A move that fits goes on. -/
theorem Move.Fits.goes {s : State} {m : Move} (h : m.Fits s) : Goes (s.doMove m) := by
  cases m with
  | event i a => exact exec_event_goes h _
  | issue c sl i => exact exec_core_goes h.1 (s := { s with cur := .thread c sl, arg := Arg.none }) h.2 rfl
  | command e i => exact exec_command_goes h rfl
  | _ => exact ⟨_, rfl⟩

/-- A move that may be there fits where it is. -/
def Offers (s : State) (o : Option Move) : Prop := ∀ m, o = some m → m.Fits s

section
variable {s : State} {α : Type}

theorem Offers.none : Offers s none := fun _ e => absurd e.symm (Option.some_ne_none _)

theorem Offers.some {m : Move} (h : m.Fits s) : Offers s (some m) := fun _ e => Option.some.inj e ▸ h

theorem Offers.map {o : Option α} {f : α → Move} (h : ∀ a, (f a).Fits s) : Offers s (o.map f) := fun _ e => by
  obtain ⟨a, _, rfl⟩ := Option.map_eq_some_iff.mp e
  exact h a

theorem Offers.bind {o : Option α} {f : α → Option Move} (h : ∀ a, Offers s (f a)) : Offers s (o.bind f) := fun m e => by
  obtain ⟨a, _, ha⟩ := Option.bind_eq_some_iff.mp e
  exact h a m ha

theorem Offers.findSome {l : List α} {f : α → Option Move} (h : ∀ a ∈ l, Offers s (f a)) : Offers s (l.findSome? f) := fun m e => by
  obtain ⟨a, ha, hm⟩ := List.exists_of_findSome?_eq_some e
  exact h a ha m hm

theorem Offers.ite {p : Prop} [Decidable p] {a b : Option Move} (ha : Offers s a) (hb : Offers s b) : Offers s (if p then a else b) := by
  split
  · exact ha
  · exact hb

end

/-! #### Inputs, completions, issues -/

theorem inputMove_offers (s : State) : Offers s s.inputMove := by
  unfold State.inputMove
  split
  · exact .none
  · refine .some ?_
    split
    · assumption
    · trivial

theorem completionMove_offers (s : State) : Offers s s.completionMove := .map fun _ => rfl

/-- Only a READY thread issues (R27). -/
theorem State.offer_ready {s : State} {c sl : Nat} {t : Thread} {f : Found} (h : s.offer c sl t = some f) : t.state = .ready := by
  have now : s.readyNow t = true := by
    cases e : s.readyNow t with
    | true => rfl
    | false => simp [State.offer, e] at h
  simp only [State.readyNow, Bool.and_eq_true, beq_iff_eq] at now
  exact now.1

/-- An instruction that a thread would issue is a core instruction, fetched by the thread or forwarded to it (R42, R48). -/
theorem State.offer_core {s : State} {c sl : Nat} {t : Thread} {i : Instr} (h : s.offer c sl t = some (.instr i)) :
    (encode i).isEmpty = false := by
  have fetched {p : Nat} (e : s.fetchAt p t.pc = .instr i) := encode_nonempty_of_fetchAt e
  have forwarded {w : BitVec 32} {w2 : Option (BitVec 32)} (e : foundWords w w2 = .instr i) := encode_nonempty_of_foundWords e
  unfold State.offer at h
  split at h
  · cases h
  dsimp only at h
  split at h
  -- alone: words forwarded before it left its gang, or those at its program counter
  · split at h
    · split at h
      · exact forwarded (Option.some.inj h)
      · cases h
    · exact fetched (Option.some.inj h)
  -- in a gang: forwarded words, or the leader's fetch that faults
  · split at h
    · split at h
      · exact forwarded (Option.some.inj h)
      · cases h
    · split at h
      · split at h <;> cases h
      · cases h

/-- The slot that issues: a READY thread's, with what that thread would issue (R25). -/
theorem State.pickIssue_offer {s : State} {c sl : Nat} {f : Found} (h : s.pickIssue = some (c, sl, f)) :
    ∃ t, s.thread? c sl = some t ∧ s.offer c sl t = some f := by
  obtain ⟨⟨c', k⟩, _, hc⟩ := List.exists_of_findSome?_eq_some h
  split at hc
  case isFalse => cases hc
  obtain ⟨⟨sl', f'⟩, hs, e⟩ := Option.map_eq_some_iff.mp hc
  cases e
  obtain ⟨i, _, hi⟩ := List.exists_of_findSome?_eq_some hs
  dsimp only at hi
  split at hi
  · cases hi
  split at hi
  case h_2 => cases hi
  next t ht =>
    obtain ⟨f', hf, e⟩ := Option.map_eq_some_iff.mp hi
    cases e
    exact ⟨t, ht, hf⟩

theorem issueMove_offers (s : State) : Offers s s.issueMove := fun m h => by
  obtain ⟨⟨c, sl, f⟩, hp, rfl⟩ := Option.map_eq_some_iff.mp h
  obtain ⟨t, ht, ho⟩ := State.pickIssue_offer hp
  cases f with
  | instr i => exact ⟨State.offer_core ho, t, ht, State.offer_ready ho⟩
  | illegal w pair => trivial
  | fault a lost => trivial

/-! #### What arrives, what becomes visible, what ends -/

theorem takeMove_offers (s : State) : Offers s s.takeMove := .findSome fun n _ => by
  split
  · exact .map fun _ => rfl
  · exact .none

theorem arrivalMove_offers (s : State) : Offers s s.arrivalMove := .map fun _ => rfl

theorem landMove_offers (s : State) : Offers s s.landMove := by
  unfold State.landMove
  split
  · exact .some rfl
  split
  · exact .some rfl
  exact .map fun _ => rfl

theorem showMove_offers (s : State) : Offers s s.showMove := by
  unfold State.showMove
  split
  · exact .some rfl
  exact .map fun _ => rfl

theorem threadMove_offers (s : State) : Offers s s.threadMove := by
  unfold State.threadMove
  split
  · exact .some rfl
  exact .map fun _ => rfl

theorem commandEnds_offers (s : State) : Offers s s.commandEnds := .findSome fun e _ => by
  split
  · exact .ite (.some rfl) .none
  · exact .ite (.some rfl) .none
  · exact .ite (.some rfl) (.ite (.some rfl) .none)

theorem rewriteMove_offers (s : State) : Offers s s.rewriteMove := .findSome fun e _ => by
  refine .ite (.some rfl) (.ite (.some rfl) ?_)
  split
  next g _ _ =>
    refine .some ?_
    cases g.failed <;> rfl
  · exact .none

/-! #### Queues, messages, strands; the dispatcher and the Keystone -/

theorem queueMove_offers (s : State) : Offers s s.queueMove := by
  have eos : Offers s (s.ctxs.findSome? fun e => (e.2.chans.find? fun h => s.mayAppend e.1 h.2).map fun h => ev2 .endOfStreamAppend e.1 h.1) :=
    .findSome fun _ _ => .map fun _ => rfl
  unfold State.queueMove
  split
  · exact .some rfl
  dsimp only
  split
  next m hm => exact .some (eos m hm)
  split
  · exact .some rfl
  split
  · exact .some rfl
  exact .map fun _ => rfl

theorem stealMove_offers (s : State) : Offers s s.stealMove := by
  refine .ite .none (.findSome fun e _ => ?_)
  split
  · exact .ite .none (.some rfl)
  · exact .none

theorem dispatchMove_offers (s : State) : Offers s s.dispatchMove := by
  refine .ite (.some rfl) ?_
  dsimp only
  split
  next m hm =>
    refine .some (Offers.findSome (fun e _ => Offers.findSome fun q _ => ?_) m hm)
    split
    · exact .ite (.some rfl) .none
    · exact .none
  split
  · exact .some rfl
  exact .findSome fun _ _ => .map fun _ => rfl

theorem coreMove_offers (s : State) : Offers s s.coreMove := by
  unfold State.coreMove
  split
  · exact .some rfl
  exact .ite .none (.map fun _ => rfl)

theorem noticeMove_offers (s : State) : Offers s s.noticeMove := .map fun _ => rfl

theorem keystoneMove_offers (s : State) : Offers s s.keystoneMove := by
  unfold State.keystoneMove
  split
  · exact .some rfl
  split
  · exact .some rfl
  split
  · exact .some rfl
  refine .ite (.some rfl) ?_
  split
  · exact .some rfl
  exact .ite (.some rfl) (.ite (.some rfl) .none)

theorem linkMove_offers (s : State) : Offers s s.linkMove :=
  .findSome fun _ _ => .ite (.some rfl) (.ite (.some rfl) (.ite (.some rfl) (.ite (.some rfl) .none)))

theorem timerMove_offers (s : State) : Offers s s.timerMove := by
  unfold State.timerMove
  split
  · exact .some rfl
  split
  · exact .some rfl
  refine .ite (.some rfl) ?_
  split
  · exact .some rfl
  exact .ite (.some rfl) .none

/-! #### Starts of the engines -/

/-- What an opcode of a queue names is an engine command (R178, R221, R332). -/
theorem commandInstr_isCommand {q op : Nat} {i : Instr} (h : commandInstr q op = some i) : (commandCode i).isSome = true := by
  unfold commandInstr at h
  split at h <;> cases h <;> rfl

theorem takeUp_fits (s : State) (e : CmdEntry) : (s.takeUp e).Fits s := by
  unfold State.takeUp
  split
  next i hi => exact commandInstr_isCommand hi
  · trivial

theorem headMove_offers (s : State) (e : CmdEntry) : Offers s (s.headMove e) :=
  have up : Offers s (some (s.takeUp e)) := .some (takeUp_fits s e)
  .ite up (.ite .none (.ite up (.ite up .none)))

theorem cancelledMove_offers (s : State) : Offers s s.cancelledMove := .findSome fun _ _ => .map (takeUp_fits s)

theorem tileMove_offers (s : State) (c : Nat) : Offers s (s.tileMove c) := by
  unfold State.tileMove
  split
  · exact .none
  · exact headMove_offers s _
  · split
    · exact .ite (.some trivial) .none
    · exact .none

theorem startMove_offers (s : State) : Offers s s.startMove := by
  have heads (q : Nat) (l : List Nat) : Offers s (l.findSome? fun c => (s.queueHead c q).bind s.headMove) :=
    .findSome fun _ _ => .bind (headMove_offers s)
  unfold State.startMove
  split
  next m hm => exact .some (cancelledMove_offers s m hm)
  split
  next m hm => exact .some (Offers.findSome (fun e _ => tileMove_offers s e.1) m hm)
  dsimp only
  split
  next m hm => exact .some (Offers.findSome (fun k _ => heads 2 _) m hm)
  exact heads 4 _

/-! #### What the machine does next -/

theorem earlyMove_offers (s : State) : Offers s s.earlyMove := .findSome fun o ho => by
  simp only [List.mem_cons, List.not_mem_nil, or_false] at ho
  obtain rfl | rfl | rfl | rfl := ho
  · exact showMove_offers s
  · exact commandEnds_offers s
  · exact rewriteMove_offers s
  · exact keystoneMove_offers s

theorem dueMoves_offer (s : State) : ∀ o ∈ s.dueMoves, Offers s o := by
  intro o ho
  simp only [State.dueMoves, List.mem_cons, List.not_mem_nil, or_false] at ho
  obtain rfl | rfl | rfl | rfl | rfl | rfl | rfl | rfl | rfl | rfl | rfl | rfl := ho
  · exact takeMove_offers s
  · exact arrivalMove_offers s
  · exact landMove_offers s
  · exact noticeMove_offers s
  · exact threadMove_offers s
  · exact queueMove_offers s
  · exact dispatchMove_offers s
  · exact stealMove_offers s
  · exact coreMove_offers s
  · exact timerMove_offers s
  · exact startMove_offers s
  · exact linkMove_offers s

/-- The next move has what it needs (R25, R26). -/
theorem move_fits (s : State) : s.move.Fits s := by
  unfold State.move
  split
  next m hm => exact inputMove_offers s m hm
  split
  next m hm => exact earlyMove_offers s m hm
  split
  next m hm => exact completionMove_offers s m hm
  split
  next m hm => exact issueMove_offers s m hm
  cases e : s.dueMoves.findSome? id with
  | none => trivial
  | some m => exact Offers.findSome (dueMoves_offer s) m e

/-! ### One step -/

/-- Taking an input leaves the threads alone, so the move fits also where it is done. -/
theorem Move.Fits.taken {s : State} {m : Move} (h : m.Fits s) : m.Fits s.taken := by
  unfold State.taken
  split <;> exact h

/-- What follows a move is another state (R26). -/
theorem Goes.finishRes {r : Res} (h : Goes r) (read : List Nat) : Goes (finishRes read r) := by
  obtain ⟨u, rfl⟩ := h
  exact ⟨_, rfl⟩

theorem step_goes (s : State) : Goes (step s) := (move_fits s).taken.goes.finishRes _

end Sys2Proof.Machine

namespace Sys2Proof.Slice0
open Sys2Proof.Machine

/-- Settles O59: the next move has what it needs, so its meaning answers with a state, and what follows the move only changes that state. -/
theorem everyStepGoesOn : Obligations.EveryStepGoesOn := by
  unfold Obligations.EveryStepGoesOn
  exact step_goes

end Sys2Proof.Slice0
end

/-! PROOFS. O58: a step runs the instruction that the bytes at the program counter decode to (R25, R26, R48, R56, R57). -/
section
namespace Sys2Proof.Machine
set_option Elab.async false

/-! ### The words that fetched bytes form (R10, R48) -/

theorem State.fetchBytes_length {s : State} {p va n : Nat} {bs : List Byte} (h : s.fetchBytes p va n = .ok bs) : bs.length = n := by
  unfold State.fetchBytes at h
  split at h
  · cases h
  · split at h
    · cases h
    · cases h; simp [State.homeBytes]

/-- The word that four bytes spell has those bytes. -/
theorem wordBytes_bytesNat {bs : List Byte} (h : bs.length = 4) : wordBytes (BitVec.ofNat 32 (bytesNat bs)) = bs := by
  match bs, h with
  | [a, b, c, d], _ =>
    have e : bytesNat [a, b, c, d] = a.toNat + 256 * (b.toNat + 256 * (c.toNat + 256 * d.toNat)) := by simp [bytesNat]
    have ha := a.isLt; have hb := b.isLt; have hc := c.isLt; have hd := d.isLt
    simp only [wordBytes, bits, e, List.cons.injEq, and_true]
    refine ⟨?_, ?_, ?_, ?_⟩ <;> apply BitVec.eq_of_toNat_eq <;> simp [Nat.shiftRight_eq_div_pow] <;> omega

/-- Bytes above others weigh by the others' width. -/
theorem toNat_append_byte {n : Nat} (a : Byte) (v : BitVec n) : (a ++ v).toNat = a.toNat * 2 ^ n + v.toNat := by
  rw [BitVec.toNat_append, ← Nat.shiftLeft_add_eq_or_of_lt v.isLt, Nat.shiftLeft_eq]

/-- The first word of a byte list is the one that its first four bytes spell. -/
theorem takeWord_bytes {bs : List Byte} (h : bs.length = 4) (rest : List Byte) :
    takeWord (bs ++ rest) = some (BitVec.ofNat 32 (bytesNat bs), rest) := by
  match bs, h with
  | [a, b, c, d], _ =>
    have e : bytesNat [a, b, c, d] = a.toNat + 256 * (b.toNat + 256 * (c.toNat + 256 * d.toNat)) := by simp [bytesNat]
    have w : d ++ c ++ b ++ a = BitVec.ofNat 32 (bytesNat [a, b, c, d]) := by
      apply BitVec.eq_of_toNat_eq
      rw [BitVec.append_assoc, BitVec.append_assoc]
      simp only [BitVec.toNat_cast, toNat_append_byte, e, BitVec.toNat_ofNat]
      have ha := a.isLt; have hb := b.isLt; have hc := c.isLt; have hd := d.isLt
      omega
    simp only [List.cons_append, List.nil_append, takeWord, w]

theorem bytesNat_oncePrefix : BitVec.ofNat 32 (bytesNat (wordBytes 0xFC000000)) = oncePrefix := by decide

/-- One word alone is an instruction only where it is no ONCE word (R57). -/
theorem not_prefix_of_decode {bs : List Byte} (h : bs.length = 4) {i : Instr} (hd : decode bs = some (i, [])) :
    BitVec.ofNat 32 (bytesNat bs) ≠ oncePrefix := fun e => by
  have t := takeWord_bytes h []
  rw [List.append_nil] at t
  simp [decode, t, e, show takeWord [] = none from rfl] at hd

theorem State.fetchWords_single {s : State} {p : Nat} {pc : Addr} {bs : List Byte} (hb : s.fetchBytes p pc.toNat 4 = .ok bs)
    (hw : BitVec.ofNat 32 (bytesNat bs) ≠ oncePrefix) : s.fetchWords p pc = .ok (BitVec.ofNat 32 (bytesNat bs), none) := by
  simp [State.fetchWords, hb, hw]

theorem State.fetchWords_pair {s : State} {p : Nat} {pc : Addr} {bs bs' : List Byte} (hb : s.fetchBytes p pc.toNat 4 = .ok bs)
    (hb' : s.fetchBytes p (pc + 4).toNat 4 = .ok bs') (hw : BitVec.ofNat 32 (bytesNat bs) = oncePrefix) :
    s.fetchWords p pc = .ok (BitVec.ofNat 32 (bytesNat bs), some (BitVec.ofNat 32 (bytesNat bs'))) := by
  simp only [State.fetchWords, hb, hb', hw, if_true]

/-- What four fetched bytes decode to is the instruction that stands there (R48). -/
theorem State.fetchAt_single {s : State} {p : Nat} {pc : Addr} {bs : List Byte} {i : Instr} (hb : s.fetchBytes p pc.toNat 4 = .ok bs)
    (hd : decode bs = some (i, [])) : s.fetchAt p pc = .instr i := by
  have len := State.fetchBytes_length hb
  simp [State.fetchAt, State.fetchWords_single hb (not_prefix_of_decode len hd), foundWords, wordBytes_bytesNat len, hd]

/-- What a ONCE word and the four bytes after it decode to is the pair that stands there (R57). -/
theorem State.fetchAt_pair {s : State} {p : Nat} {pc : Addr} {bs bs' : List Byte} {i : Instr} (hb : s.fetchBytes p pc.toNat 4 = .ok bs)
    (hb' : s.fetchBytes p (pc + 4).toNat 4 = .ok bs') (hw : bs = wordBytes 0xFC000000) (hd : decode (bs ++ bs') = some (i, [])) :
    s.fetchAt p pc = .instr i := by
  have len := State.fetchBytes_length hb
  have len' := State.fetchBytes_length hb'
  simp [State.fetchAt, State.fetchWords_pair hb hb' (hw ▸ bytesNat_oncePrefix), foundWords, wordBytes_bytesNat len,
    wordBytes_bytesNat len', hd]

/-- Four fetched bytes that are no instruction and no ONCE word are the illegal word (R56). -/
theorem State.fetchAt_illegal {s : State} {p : Nat} {pc : Addr} {bs : List Byte} (hb : s.fetchBytes p pc.toNat 4 = .ok bs)
    (hw : bs ≠ wordBytes 0xFC000000) (hd : decode bs = none) : s.fetchAt p pc = .illegal (BitVec.ofNat 32 (bytesNat bs)) none := by
  have len := State.fetchBytes_length hb
  have one : BitVec.ofNat 32 (bytesNat bs) ≠ oncePrefix := fun e => hw (by rw [← wordBytes_bytesNat len, e]; rfl)
  simp [State.fetchAt, State.fetchWords_single hb one, foundWords, wordBytes_bytesNat len, hd]

theorem State.fetchAt_fault {s : State} {p : Nat} {pc : Addr} (h : s.fetchBytes p pc.toNat 4 = .fault) : s.fetchAt p pc = .fault pc false := by
  simp [State.fetchAt, State.fetchWords, h]
theorem State.fetchAt_lost {s : State} {p : Nat} {pc : Addr} (h : s.fetchBytes p pc.toNat 4 = .lost) : s.fetchAt p pc = .fault pc true := by
  simp [State.fetchAt, State.fetchWords, h]

/-! ### Whose turn it is (R25) -/

theorem findSome?_append_cons {α β : Type} {f : α → Option β} {pre post : List α} {a : α} {b : β} (hp : ∀ e ∈ pre, f e = none)
    (ha : f a = some b) : (pre ++ a :: post).findSome? f = some b := by
  rw [List.findSome?_append, List.findSome?_eq_none_iff.mpr hp]
  simp [ha]

/-- The first index that gives an answer gives the search's. -/
theorem findSome?_range {β : Type} {f : Nat → Option β} {n i : Nat} {b : β} (hi : i < n) (before : ∀ j < i, f j = none) (hb : f i = some b) :
    (List.range n).findSome? f = some b := by
  obtain ⟨k, rfl⟩ : ∃ k, n = i + (k + 1) := ⟨n - i - 1, by omega⟩
  rw [List.range_add, List.range_succ_eq_map, List.map_cons]
  exact findSome?_append_cons (fun j hj => before j (List.mem_range.mp hj)) hb

end Sys2Proof.Machine

namespace Sys2Proof.Slice0
open Sys2Proof.Machine

/-- The thread whose turn it is would issue what stands at its program counter. -/
theorem OnTurn.offers {s : State} {c sl : Nat} {t : Thread} (h : OnTurn s c sl t) :
    s.offer c sl t = some (s.fetchAt (((s.core c).part).getD 0) t.pc) := by
  have now : s.readyNow t = true := by simp [State.readyNow, h.ready.1, h.ready.2]
  simp [State.offer, now, h.alone.1, h.alone.2]

/-- Its slot is the first of its core that may issue. -/
theorem OnTurn.slots {s : State} {c sl : Nat} {t : Thread} (h : OnTurn s c sl t) :
    s.pickSlot c (s.core c) = some (sl, s.fetchAt (((s.core c).part).getD 0) t.pc) := by
  obtain ⟨i, hi, rfl, earlier⟩ := h.turn
  refine findSome?_range hi (fun j hj => ?_) ?_
  · simp only [h.stays, Bool.false_and, Bool.false_eq_true, if_false]
    split
    next v hv => simp [State.offer, earlier j hj v hv]
    next => rfl
  · simp [h.stays, h.slot, h.offers]

/-- The next move is its issue, or its trap where it cannot issue. -/
theorem OnTurn.moves {s : State} {c sl : Nat} {t : Thread} (h : OnTurn s c sl t) :
    s.move = match s.fetchAt (((s.core c).part).getD 0) t.pc with
      | .instr i => .issue c sl i
      | .illegal w pair => .illegal c sl w pair
      | .fault a lost => .badFetch c sl a lost := by
  have inp : s.inputMove = none := by simp [State.inputMove, h.quiet]
  obtain ⟨pre, post, cores, before⟩ := h.first
  have pick : s.pickIssue = some (c, sl, s.fetchAt (((s.core c).part).getD 0) t.pc) := by
    unfold State.pickIssue
    rw [cores]
    exact findSome?_append_cons (fun e he => by simp [before e he]) (by simp [h.issues, h.slots])
  have issue : s.issueMove = some (match s.fetchAt (((s.core c).part).getD 0) t.pc with
      | .instr i => .issue c sl i
      | .illegal w pair => .illegal c sl w pair
      | .fault a lost => .badFetch c sl a lost) := by
    rw [State.issueMove, pick]; rfl
  unfold State.move
  simp only [inp, h.nothingEarly, h.nothingCompletes, issue]

theorem OnTurn.taken {s : State} {c sl : Nat} {t : Thread} (h : OnTurn s c sl t) : s.taken = s := by simp [State.taken, h.quiet]

theorem OnTurn.steps_instr {s : State} {c sl : Nat} {t : Thread} (h : OnTurn s c sl t) {i : Instr}
    (hf : s.fetchAt (((s.core c).part).getD 0) t.pc = .instr i) :
    step s = finishRes (s.readLines (.issue c sl i)) (exec i { s with cur := .thread c sl, arg := Arg.none }) := by
  have m : s.move = .issue c sl i := by rw [h.moves, hf]
  rw [step, State.turn, m, h.taken]
  rfl

theorem OnTurn.steps_illegal {s : State} {c sl : Nat} {t : Thread} (h : OnTurn s c sl t) {w : BitVec 32} {pair : Option (BitVec 32)}
    (hf : s.fetchAt (((s.core c).part).getD 0) t.pc = .illegal w pair) : step s = .next ((s.illegal c sl w pair).fillLines []).finish := by
  have m : s.move = .illegal c sl w pair := by rw [h.moves, hf]
  rw [step, State.turn, m, h.taken]
  rfl

theorem OnTurn.steps_fault {s : State} {c sl : Nat} {t : Thread} (h : OnTurn s c sl t) {a : Addr} {lost : Bool}
    (hf : s.fetchAt (((s.core c).part).getD 0) t.pc = .fault a lost) : step s = .next ((s.fetchTrap c sl a lost).fillLines []).finish := by
  have m : s.move = .badFetch c sl a lost := by rw [h.moves, hf]
  rw [step, State.turn, m, h.taken]
  rfl

/-- Settles O58: nothing comes before the thread's turn, and what its bytes decode to decides which of the three moves it makes. -/
theorem stepRunsTheDecodedInstruction : Obligations.StepRunsTheDecodedInstruction := by
  unfold Obligations.StepRunsTheDecodedInstruction
  intro s c sl t h
  exact ⟨fun _ _ hb hd => h.steps_instr (State.fetchAt_single hb hd),
    fun _ _ _ hb hb' hw hd => h.steps_instr (State.fetchAt_pair hb hb' hw hd),
    fun _ hb hw hd => h.steps_illegal (State.fetchAt_illegal hb hw hd),
    fun hb => h.steps_fault (State.fetchAt_fault hb), fun hb => h.steps_fault (State.fetchAt_lost hb)⟩

end Sys2Proof.Slice0
end

/-! PROOFS. O33: what a long-latency producer delivers (R32, R36, R116, R126 to R128). -/
section
namespace Sys2Proof.Machine
set_option Elab.async false

/-! ### Words and their bytes (R10) -/

theorem natBytes_bytesNat (l : List Byte) : natBytes l.length (bytesNat l) = l := by
  induction l with
  | nil => rfl
  | cons b l ih =>
    have e : bytesNat (b :: l) = b.toNat + 256 * bytesNat l := rfl
    have head : BitVec.ofNat 8 (b.toNat + 256 * bytesNat l) = b := by
      apply BitVec.eq_of_toNat_eq
      have := b.isLt
      rw [BitVec.toNat_ofNat]
      omega
    have tail : (b.toNat + 256 * bytesNat l) / 256 = bytesNat l := by
      have := b.isLt
      omega
    rw [List.length_cons, e, natBytes, head, tail, ih]

/-- A word that eight bytes spell has those bytes. -/
theorem natBytes_ofNat_bytesNat {l : List Byte} (h : l.length = 8) : natBytes 8 (BitVec.ofNat 64 (bytesNat l)).toNat = l := by
  rw [BitVec.toNat_ofNat, show (2 : Nat) ^ 64 = 2 ^ (8 * 8) from rfl, natBytes_mod _ _ _ (by omega)]
  have := natBytes_bytesNat l
  rwa [h] at this

theorem MemKept.homeBytes {s u : State} (h : MemKept s u) (a n : Nat) : u.homeBytes a n = s.homeBytes a n := by
  simp [State.homeBytes, h _]

@[simp] theorem State.homeBytes_length (s : State) (a n : Nat) : (s.homeBytes a n).length = n := by simp [State.homeBytes]

/-! ### Bytes written where a home answers (R116, R150, R318) -/

/-- Homes that can answer lie in memory, or in the scratchpad of a core that was not killed (R116, R318). -/
theorem State.homeLost_none {s : State} {l : List Nat} (h : s.homeLost l = none) {a : Nat} (ha : a ∈ l) :
    a < scratchHome ∨ (s.core ((a - scratchHome) / 2 ^ 20)).fenced = false := by
  unfold State.homeLost at h
  split at h
  · cases h
  · have := List.findSome?_eq_none_iff.mp h a ha
    by_cases hs : a ≥ scratchHome
    · simp only [hs, if_true, ite_eq_right_iff, reduceCtorEq, imp_false, Bool.not_eq_true] at this
      exact .inr this
    · exact .inl (Nat.lt_of_not_le hs)

/-- Each byte of a write to different places whose homes take it is there afterwards. -/
theorem State.applyWrites_takes (s : State) (w : Tab Byte)
    (hm : ∀ e ∈ w, e.1 < scratchHome ∨ (s.core ((e.1 - scratchHome) / 2 ^ 20)).fenced = false) (hn : (w.map Prod.fst).Nodup)
    {a : Nat} {b : Byte} (h : (a, b) ∈ w) : (s.applyWrites w).homeByte a = b := by
  rw [State.applyWrites_homeByte]
  induction w generalizing s with
  | nil => cases h
  | cons e w ih =>
    obtain ⟨hne, hn⟩ := List.nodup_cons.mp hn
    change ((s.setHomeByte e.1 e.2).writeAll w).homeByte a = b
    rcases List.mem_cons.mp h with rfl | h
    · have rest := (s.setHomeByte a b).applyWrites_frame w a fun e he ha => hne (List.mem_map.mpr ⟨e, he, ha⟩)
      rw [State.applyWrites_homeByte] at rest
      rw [rest, State.homeByte_setHomeByte_self s a b (hm (a, b) (by simp))]
    · have cores : ∀ c, (s.setHomeByte e.1 e.2).core c = s.core c := fun c => by rw [State.setHomeByte_eq]; rfl
      exact ih _ (fun e he => by rw [cores]; exact hm e (by simp [he])) hn h

/-- Only the memory, the scratchpads and what marks lines and words have changed. -/
def HomesOnly (s u : State) : Prop :=
  u = { s with mem := u.mem, scratch := u.scratch, dirty := u.dirty, lost := u.lost, badWords := u.badWords }

theorem HomesOnly.refl (s : State) : HomesOnly s s := rfl

/-- A doubleword stands at its home, and nothing but that has changed. -/
structure Stored (s u : State) (h : Nat) (v : Word) : Prop where
  only : HomesOnly s u
  there : u.homeBytes h 8 = natBytes 8 v.toNat
  frame : ∀ y, (y < h ∨ h + 8 ≤ y) → u.homeByte y = s.homeByte y

theorem mem_eight {h y : Nat} : y ∈ eight h ↔ h ≤ y ∧ y < h + 8 := by
  simp only [eight, List.mem_map, List.mem_range]
  exact ⟨fun ⟨i, hi, e⟩ => by omega, fun hy => ⟨y - h, by omega, by omega⟩⟩

theorem State.applyWrites_stores {s : State} {h : Nat} (hl : s.homeLost (eight h) = none) (v : Word) :
    Stored s (s.applyWrites ((eight h).zip (natBytes 8 v.toNat))) h v where
  only := State.applyWrites_eq _ _
  there := by
    have len : (eight h).length = (natBytes 8 v.toNat).length := by simp [eight]
    have fst : ((eight h).zip (natBytes 8 v.toNat)).map Prod.fst = eight h := List.map_fst_zip (by simp [eight])
    refine List.ext_getElem (by simp) fun i hi hi' => ?_
    simp only [State.homeBytes, List.getElem_map, List.getElem_range]
    refine State.applyWrites_takes _ _ (fun e he => State.homeLost_none hl (List.of_mem_zip he).1) ?_ ?_
    · rw [fst]
      exact List.nodup_range.map fun _ _ => Nat.add_left_cancel
    · rw [List.mem_iff_getElem]
      exact ⟨i, by simpa [eight] using hi', by simp [eight]⟩
  frame y hy := by
    refine State.applyWrites_frame _ _ _ fun e he => ?_
    have := mem_eight.mp (List.of_mem_zip he).1
    omega

/-- A doubleword that is not written is there as it was. -/
theorem Stored.same (s : State) (h : Nat) : Stored s s h (BitVec.ofNat 64 (bytesNat (s.homeBytes h 8))) :=
  ⟨rfl, (natBytes_ofNat_bytesNat (by simp)).symm, fun _ _ => rfl⟩

/-- An atomic at a home that answers reads the doubleword and leaves there what its operation gives (R126 to R128). -/
theorem State.perform_atomic {s : State} (own : Nat → Option Byte) (op : AmoOp) {h : Nat} (b c : Word) (hl : s.homeLost (eight h) = none)
    (hb : s.badScratch (eight h) = none) :
    let old : Word := BitVec.ofNat 64 (bytesNat (s.homeBytes h 8))
    ∃ u, s.perform own (.atomic op h b c) = (u, .value (widen old) none) ∧ Stored s u h ((amoResult op old b c).getD old) := by
  intro old
  simp only [State.perform, hl, hb]
  cases hr : amoResult op old b c with
  | none => exact ⟨s, rfl, .same s h⟩
  | some v => exact ⟨_, rfl, State.applyWrites_stores hl v⟩

/-- A load whose homes answer takes each byte from what it has taken, else from the thread's own stores, else from its home (R116, R118). -/
theorem State.perform_load {s : State} {own : Nat → Option Byte} {kind : LoadKind} {addrs : List Nat} {got : Tab Byte}
    (hl : s.homeLost (addrs.filter fun x => (tabGet? got x).isNone && (own x).isNone) = none)
    (hb : s.badScratch (addrs.filter fun x => (tabGet? got x).isNone && (own x).isNone) = none) :
    s.perform own (.load kind addrs got) = (s, .value (widenLoad kind (s.loadBytes addrs got own)) none) := by
  simp only [State.perform, hl, hb]

/-! ### Delivery (R32, R36) -/

/-- An entry's new contents go into the file where the thread is not swapped (R32, R172). -/
theorem State.land_file {s : State} {p uid : Nat} (h : s.savedOf p uid = none) (c e : Nat) (r : Reg) : s.land p c uid e r = s.setReg c e r := by
  simp [State.land, h]

@[simp] theorem State.releasePosts_nil (s : State) (src e : Nat) (v : Option Vec) : s.releasePosts src [] e v = s := rfl

section
variable {s u : State} {n : Nat} {a : Arrival}

/-- A value for one entry that no member of a gang waits for arrives: the entry takes it (R32). -/
theorem State.arrive_value {v : Vec} (ha : s.arrivals[n]? = some a) (ws : a.ws = none) (posts : a.posts = [])
    (hp : s.performArrival a = (u, .value v none)) (saved : u.savedOf a.part a.uid = none) :
    s.arrive n = { u with arrivals := u.arrivals.eraseIdx n }.setReg a.core a.rd (Reg.ofVec v) := by
  have land : State.savedOf { u with arrivals := u.arrivals.eraseIdx n } a.part a.uid = none := saved
  simp only [State.arrive, ha, hp, ws, posts, listDrop, State.releasePosts_nil, State.land_file land]

/-- An error token arrives: it poisons the entry (R36). -/
theorem State.arrive_token {k : Option Nat} (ha : s.arrivals[n]? = some a) (ws : a.ws = none) (posts : a.posts = [])
    (hp : s.performArrival a = (u, .token k none)) (saved : u.savedOf a.part a.uid = none) :
    s.arrive n = { u with arrivals := u.arrivals.eraseIdx n }.setReg a.core a.rd (Reg.ofToken k) := by
  have land : State.savedOf { u with arrivals := u.arrivals.eraseIdx n } a.part a.uid = none := saved
  simp only [State.arrive, ha, hp, ws, posts, listDrop, State.releasePosts_nil, State.land_file land]

end

end Sys2Proof.Machine

namespace Sys2Proof.Slice0
open Sys2Proof.Machine

theorem exec_longLatencyArrival (s : State) : exec .longLatencyArrival s = execLongLatencyArrival s := rfl

/-- The event of an arrival that may come is its delivery. -/
theorem exec_arrival {s : State} {n : Nat} (hf : s.arg.flag = false) (hn : s.arg.n = n) (hm : s.mayArrive n = true) :
    exec .longLatencyArrival s = .next (s.arrive n) := by
  rw [exec_longLatencyArrival, execLongLatencyArrival, hf, hn, hm]
  rfl

/-- What AMO and CAS leave at their home (R127, R128). -/
theorem atomicNew_result : ∀ x ∈ atomicNew, ∀ old b c : Word, (amoResult x.1 old b c).getD old = x.2 old b c := by
  intro x hx old b c
  simp only [atomicNew, List.mem_cons, List.not_mem_nil, or_false] at hx
  rcases hx with rfl | rfl | rfl | rfl | rfl | rfl | rfl | rfl
  case inl => simp [amoResult, BitVec.ofNat_add]
  case inr.inl => rfl
  case inr.inr.inl => rfl
  case inr.inr.inr.inl => rfl
  case inr.inr.inr.inr.inl =>
    by_cases h : old.toInt ≤ b.toInt
    · simp [amoResult, h]
    · simp [amoResult, h, min_eq_right (le_of_not_ge h)]
  case inr.inr.inr.inr.inr.inl =>
    by_cases h : b.toInt ≤ old.toInt
    · simp [amoResult, h]
    · simp [amoResult, h, max_eq_right (le_of_not_ge h)]
  case inr.inr.inr.inr.inr.inr.inl => rfl
  case inr.inr.inr.inr.inr.inr.inr =>
    by_cases h : old = c <;> simp [amoResult, h]

/-- What a delivery into one entry of one core leaves as it was: the threads, the cores, the contexts, and every other entry. -/
theorem delivery_frame {s u : State} (h : HomesOnly s u) (n c e : Nat) (r : Reg) (he : e < 2048) :
    let v := { u with arrivals := u.arrivals.eraseIdx n }.setReg c e r
    v.arrivals = s.arrivals.eraseIdx n ∧ v.threads = s.threads ∧ v.cores = s.cores ∧ v.ctxs = s.ctxs ∧
      ∀ c' m, m < 2048 → ¬(c' = c ∧ m = e) → v.regAt c' m = s.regAt c' m := by
  rw [h]
  refine ⟨rfl, rfl, rfl, rfl, fun c' m hm hne => ?_⟩
  exact State.regAt_setReg_other _ r (by omega)

theorem delivery_memKept (s : State) (l : List Arrival) (c e : Nat) (r : Reg) : MemKept s ({ s with arrivals := l }.setReg c e r) := fun _ => rfl

/-- Settles O33: the value, the token, the load's bytes and the atomic's old doubleword are what the producer becomes when it performs,
and the delivery writes the entry and, for an atomic, its home. -/
theorem arrivalDelivers : Obligations.ArrivalDelivers := by
  unfold Obligations.ArrivalDelivers
  intro s n a hflag hn ha hmay hrd ws posts saved Others
  have others {u : State} (h : HomesOnly s u) (r : Reg) : Others ({ u with arrivals := u.arrivals.eraseIdx n }.setReg a.core a.rd r) :=
    delivery_frame h n a.core a.rd r hrd
  have arrives := exec_arrival hflag hn hmay
  have gives {u : State} {r : Reg} (h : s.arrive n = { u with arrivals := u.arrivals.eraseIdx n }.setReg a.core a.rd r) :
      exec .longLatencyArrival s = .next ({ u with arrivals := u.arrivals.eraseIdx n }.setReg a.core a.rd r) := by rw [arrives, h]
  refine ⟨?value, ?token, ?load, ?atomic⟩
  case value =>
    intro v hv
    have p : s.performArrival a = (s, .value v none) := by rw [State.performArrival, hv]; rfl
    exact ⟨_, gives (State.arrive_value ha ws posts p saved), State.regAt_setReg_self _ _ _ _, others (.refl s) _, delivery_memKept _ _ _ _ _⟩
  case token =>
    intro k hk
    have p : s.performArrival a = (s, .token k none) := by rw [State.performArrival, hk]; rfl
    refine ⟨_, gives (State.arrive_token ha ws posts p saved), ?_, ?_, ?_, ?_, others (.refl s) _, delivery_memKept _ _ _ _ _⟩ <;>
      rw [State.regAt_setReg_self] <;> rfl
  case load =>
    intro kind addrs got hl own asked hlost hbad
    have p : s.performArrival a = (s, .value (widenLoad kind (s.loadBytes addrs got own)) none) := by
      rw [State.performArrival, hl]
      exact State.perform_load hlost hbad
    exact ⟨_, gives (State.arrive_value ha ws posts p saved), State.regAt_setReg_self _ _ _ _, others (.refl s) _, delivery_memKept _ _ _ _ _⟩
  case atomic =>
    intro x hx h b c hp hlost hbad old
    obtain ⟨u, p, only, there, frame⟩ := State.perform_atomic (s.ownOf a) x.1 b c hlost hbad
    rw [← hp] at p
    rw [atomicNew_result x hx] at there
    have saved' : u.savedOf a.part a.uid = none := by rw [only]; exact saved
    have kept := delivery_memKept u (u.arrivals.eraseIdx n) a.core a.rd (Reg.ofVec (widen old))
    exact ⟨_, gives (State.arrive_value ha ws posts p saved'), State.regAt_setReg_self _ _ _ _, others only _,
      (kept.homeBytes h 8).trans there, fun y hy => (kept y).trans (frame y hy)⟩

end Sys2Proof.Slice0
end

/-! PROOFS. O54: the checks of register fields before an instruction of two sources runs (R29, R33, R34, R36, R162). -/
section
namespace Sys2Proof.Machine
open Sys2Proof.Slice0
set_option Elab.async false

/-! ### Taking a trap (R160) -/

/-- Two writes of one key leave the later one. -/
@[simp] theorem tabSet_tabSet {α : Type} (t : Tab α) (k : Nat) (v w : α) : tabSet (tabSet t k v) k w = tabSet t k w := by
  induction t with
  | nil => simp [tabSet]
  | cons e t ih =>
    simp only [tabSet]
    split
    · simp [tabSet]
    · split
      · simp [tabSet]
      · simp [tabSet, *]

@[simp] theorem State.setThread_setThread (s : State) (c sl : Nat) (v w : Thread) : (s.setThread c sl v).setThread c sl w = s.setThread c sl w := by
  simp [State.setThread]

/-- A change of a thread that stands in its slot. -/
theorem State.modThread_some {s : State} {c sl : Nat} {t : Thread} (h : s.thread? c sl = some t) (f : Thread → Thread) :
    s.modThread c sl f = s.setThread c sl (f t) := by simp [State.modThread, h]

/-- The threads of every slot but one are as before: read by slot, and as entries of the table. -/
structure OtherThreads (c sl : Nat) (s u : State) : Prop where
  reads : ∀ k, k ≠ c * 64 + sl → tabGet? u.threads k = tabGet? s.threads k
  entries : ∀ e : Nat × Thread, e.1 ≠ c * 64 + sl → (e ∈ u.threads ↔ e ∈ s.threads)

namespace OtherThreads
variable {c sl : Nat}

theorem of_same {s u : State} (h : u.threads = s.threads) : OtherThreads c sl s u := ⟨fun _ _ => by rw [h], fun _ _ => by rw [h]⟩
theorem trans {s u v : State} (h : OtherThreads c sl s u) (g : OtherThreads c sl u v) : OtherThreads c sl s v :=
  ⟨fun k hk => (g.reads k hk).trans (h.reads k hk), fun e he => (g.entries e he).trans (h.entries e he)⟩

theorem mem_tabSet_other {α : Type} {t : Tab α} {k : Nat} {v : α} {e : Nat × α} (h : e.1 ≠ k) : e ∈ tabSet t k v ↔ e ∈ t := by
  have ne : e ≠ (k, v) := by rintro rfl; exact h rfl
  induction t with
  | nil => simp [tabSet, ne]
  | cons d t ih =>
    simp only [tabSet]
    split
    · simp [ne]
    · split
      next hk =>
        have : e ≠ d := by rintro rfl; exact h hk.symm
        simp [ne, this]
      · simp [ih]

theorem setThread (s : State) (t : Thread) : OtherThreads c sl s (s.setThread c sl t) :=
  ⟨fun _ hk => tabGet?_set_other _ _ hk, fun _ he => mem_tabSet_other he⟩

theorem thread? {s u : State} (h : OtherThreads c sl s u) (hsl : sl < 64) {c' sl' : Nat} (hne : ¬(c' = c ∧ sl' = sl)) (h' : sl' < 64) :
    u.thread? c' sl' = s.thread? c' sl' := h.reads _ (by omega)

/-- A handler is another thread of the core, or a swapped one (R167). -/
theorem hasHandler {s u : State} (h : OtherThreads c sl s u) (hsl : sl < 64) (hx : u.ctxs = s.ctxs) {p : Nat} (hs : s.hasHandler c sl p = true) :
    u.hasHandler c sl p = true := by
  have ctx : u.ctx? p = s.ctx? p := by simp [State.ctx?, hx]
  simp only [State.hasHandler, State.threadsOf, Bool.or_eq_true, List.any_eq_true, List.mem_map, List.mem_filter, ctx] at hs ⊢
  refine hs.imp_left ?_
  rintro ⟨-, ⟨e, ⟨he, hc⟩, rfl⟩, ha⟩
  refine ⟨_, ⟨e, ⟨(h.entries e ?_).mpr he, hc⟩, rfl⟩, ha⟩
  simp only [Bool.and_eq_true, bne_iff_ne] at ha
  have := ha.1
  omega

end OtherThreads

/-- A commit takes the entries of one thread's buffer on their way, with delays drawn for them, and changes nothing else (R150). -/
structure Commits (s u : State) (c sl : Nat) (t : Thread) : Prop where
  only : u = { s with threads := u.threads, pend := u.pend, draws := u.draws }
  slot : u.thread? c sl = some { t with buffer := [] }
  others : OtherThreads c sl s u

/-- Only delays have been drawn. -/
def DrawsOnly (s u : State) : Prop := u = { s with draws := u.draws }

theorem DrawsOnly.foldl {α β : Type} {f : State × β → α → State × β} (hf : ∀ r a, DrawsOnly r.1 (f r a).1) (l : List α) (r : State × β) :
    DrawsOnly r.1 (l.foldl f r).1 := by
  induction l generalizing r with
  | nil => rfl
  | cons a l ih =>
    have first := hf r a
    have rest := ih (f r a)
    unfold DrawsOnly at first rest ⊢
    rw [List.foldl_cons, rest, first]

/-- One entry of a buffer goes among the committed ones, a VSCAT's elements each with a delay of its own (R149, R150). -/
def drawStore (now : Nat) (rel : Option (Nat × Nat)) (acc : State × List Store) (e : Store) : State × List Store :=
  (if e.parts.isEmpty then [e.writes] else e.parts).foldl (fun acc w =>
    (acc.1.takeDelay.2, acc.2 ++ [{ e with writes := w, parts := [], due := now + acc.1.takeDelay.1, rel := rel }])) acc

theorem drawStore_draws (now : Nat) (rel : Option (Nat × Nat)) (acc : State × List Store) (e : Store) :
    DrawsOnly acc.1 (drawStore now rel acc e).1 := by
  unfold drawStore
  refine DrawsOnly.foldl ?_ _ acc
  exact fun _ _ => rfl

theorem State.commitAs_eq {s : State} {c sl : Nat} {t : Thread} (h : s.thread? c sl = some t) (rel : Option (Nat × Nat)) :
    s.commitAs c sl rel = if t.buffer.isEmpty then s else
      { (t.buffer.foldl (drawStore s.cycle rel) (s, [])).1.setThread c sl { t with buffer := [] } with
        pend := (t.buffer.foldl (drawStore s.cycle rel) (s, [])).1.pend ++ (t.buffer.foldl (drawStore s.cycle rel) (s, [])).2 } := by
  simp only [State.commitAs, h]
  rfl

theorem State.commitAs_commits {s : State} {c sl : Nat} {t : Thread} (h : s.thread? c sl = some t) (rel : Option (Nat × Nat)) :
    Commits s (s.commitAs c sl rel) c sl t := by
  rw [State.commitAs_eq h]
  have drawn := DrawsOnly.foldl (drawStore_draws s.cycle rel) t.buffer (s, [])
  generalize t.buffer.foldl (drawStore s.cycle rel) (s, []) = r at drawn
  split
  next hb =>
    have : t = { t with buffer := [] } := by cases t; simp_all
    exact ⟨rfl, by rw [← this]; exact h, .of_same rfl⟩
  · have same : r.1.threads = s.threads := by rw [drawn]
    refine ⟨?_, State.thread?_setThread_self _ c sl _, ?_⟩
    · rw [drawn]
      rfl
    · have set : OtherThreads c sl r.1 (r.1.setThread c sl { t with buffer := [] }) := .setThread _ _
      exact (OtherThreads.of_same same).trans (set.trans (.of_same rfl))

/-- Stopping a thread in no gang changes at most the posts that it owes (R43). -/
theorem State.stopInGang_alone {s : State} {c sl : Nat} {t : Thread} (h : s.thread? c sl = some t) (alone : t.coupled = false) (pair : Bool) :
    s.stopInGang c sl pair = { s with posts := (s.stopInGang c sl pair).posts } := by
  simp only [State.stopInGang, h, alone, Bool.false_eq_true, if_false]
  split <;> rfl

/-- A trapped thread: its buffer is committed, and it stands at its saved PC (R160). -/
def Thread.trappedAs (t : Thread) (x : TrapInfo) : Thread :=
  { t with buffer := [], state := .trapped x, pc := x.pc, check := none, roundStep := none, kept := x.flags.getLsbD 3 }
/-- The record of a trap on its way to q6 (R161, R165). -/
def State.trapOut (s : State) (c sl : Nat) (t : Thread) (x : TrapInfo) : TrapOut :=
  { core := c, slot := sl, uid := t.uid, part := ((s.core c).part).getD 0, cycle := s.cycle
    body := trapRecord s c sl (((s.core c).part).getD 0) t x none }

/-- A thread in no gang, with a possible handler, traps: what else changes are the posts that it owes, its committed stores and its core's
window (R160, R165). -/
theorem State.trap_eq {s : State} {c sl : Nat} {t : Thread} (ht : s.thread? c sl = some t) (hsl : sl < 64) (alone : t.coupled = false)
    (handler : s.hasHandler c sl (((s.core c).part).getD 0) = true) {x : TrapInfo} (code : x.code ≠ 0x10) :
    ∃ u : State, u = { s with threads := u.threads, pend := u.pend, draws := u.draws, posts := u.posts, cores := u.cores } ∧
      OtherThreads c sl s u ∧
      s.trap c sl x none = { u.setThread c sl (t.trappedAs x) with traps := s.traps ++ [s.trapOut c sl t x] } := by
  obtain ⟨s1, hs1⟩ : ∃ s1 : State, s1 = s.stopInGang c sl false := ⟨_, rfl⟩
  have stops : s1 = { s with posts := s1.posts } := by rw [hs1]; exact State.stopInGang_alone ht alone false
  have ht1 : s1.thread? c sl = some t := by rw [stops]; exact ht
  obtain ⟨s2, hs2⟩ : ∃ s2, s2 = s1.commit c sl := ⟨_, rfl⟩
  have com : Commits s1 s2 c sl t := by rw [hs2]; exact State.commitAs_commits ht1 none
  obtain ⟨u, hu⟩ : ∃ u, u = s2.flushThread c t.uid := ⟨_, rfl⟩
  have only : u = { s with threads := u.threads, pend := u.pend, draws := u.draws, posts := u.posts, cores := u.cores } := by
    rw [hu, com.only, stops]; rfl
  have others : OtherThreads c sl s u := by
    have same : OtherThreads c sl s2 u := .of_same (by rw [hu]; rfl)
    have start : OtherThreads c sl s s1 := .of_same (by rw [stops])
    exact (start.trans com.others).trans same
  refine ⟨u, only, others, ?_⟩
  have slot : u.thread? c sl = some { t with buffer := [] } := by rw [hu]; exact com.slot
  have stands : (u.setThread c sl (t.trappedAs x)).hasHandler c sl (((s.core c).part).getD 0) = true :=
    (others.trans (.setThread u _)).hasHandler hsl (by rw [only]; rfl) handler
  have before : u.traps = s.traps ∧ u.cycle = s.cycle := by rw [only]; exact ⟨rfl, rfl⟩
  simp only [State.trap, ht, code, if_false, Option.isSome_none, ← hs1, ← hs2, ← hu, State.modThread_some slot]
  refine (if_pos (.inl stands)).trans ?_
  simp only [State.setThread_traps, State.setThread_cycle, before]
  rfl

/-- What a trap of such a thread leaves (R160, R161). -/
theorem State.trap_trapped {s : State} {c sl : Nat} {t : Thread} (ht : s.thread? c sl = some t) (hsl : sl < 64) (alone : t.coupled = false)
    (handler : s.hasHandler c sl (((s.core c).part).getD 0) = true) {x : TrapInfo} (code : x.code ≠ 0x10) :
    Trapped s (s.trap c sl x none) c sl t x := by
  obtain ⟨u, only, others, e⟩ := State.trap_eq ht hsl alone handler code
  rw [e]
  refine ⟨⟨_, State.thread?_setThread_self _ c sl _, rfl, rfl, rfl, rfl, rfl, rfl, rfl, rfl, rfl, rfl⟩,
    ⟨_, rfl, rfl, rfl, rfl, rfl, rfl⟩, fun c' n => ?_, fun a => ?_, fun c' sl' hne h' => ?_⟩
  · rw [only]; rfl
  · rw [only]; rfl
  · exact (others.trans (.setThread u _)).thread? hsl hne h'

/-- The turn that a core has taken does not bear on what a trap leaves. -/
theorem trapped_of_tookTurn {s u : State} {c sl : Nat} {t : Thread} {x : TrapInfo} (h : Trapped (s.tookTurn c sl) u c sl t x) : Trapped s u c sl t x := by
  have part : ((s.tookTurn c sl).core c).part = (s.core c).part := by simp [State.tookTurn, State.core_modCore]
  have record := h.record
  rw [part] at record
  exact ⟨h.thread, record, h.regs, h.mem, h.others⟩

/-- A thread that issues in no gang, with a possible handler, traps. -/
theorem Issuing.trapOp {s : State} {c sl : Nat} {t : Thread} (h : Issuing s c sl t) (alone : t.coupled = false)
    (handler : s.hasHandler c sl (((s.core c).part).getD 0) = true) (f : Form) {x : TrapInfo} (code : x.code ≠ 0x10) :
    Trapped s (s.trapOp (opOf s f c sl t) x) c sl t x := by
  refine trapped_of_tookTurn (State.trap_trapped (s := s.tookTurn c sl) h.slot h.inCore alone ?_ code)
  have part : ((s.tookTurn c sl).core c).part = (s.core c).part := by simp [State.tookTurn, State.core_modCore]
  rw [part]
  exact handler

/-! ### The gate of an instruction of two sources (R29, R33, R34, R36) -/

/-- The form of an integer instruction of two sources. -/
def formBinary (major fn lat : Nat) (rd ra rb : BitVec 7) (ta tb : BitVec 1) : Form :=
  { formRRR major fn ra rb ta tb with lat := lat, dsts := [(0, rd.toNat)] }

/-- An entry of the window is empty. -/
def State.emptyAt (s : State) (c : Nat) (t : Thread) (r : BitVec 7) : Bool := !(s.regAt c (t.base + r.toNat)).full
/-- A producer still owes an empty destination its value (R34). -/
def State.owedAt (s : State) (c : Nat) (t : Thread) (r : BitVec 7) : Bool := s.emptyAt c t r && s.outstanding c (t.base + r.toNat)
/-- A read of a source meets an error token: the entry is poisoned, and the read does not wait for a value still to come (R36; log 22). -/
def State.meetsToken (s : State) (c : Nat) (t : Thread) (r : BitVec 7) (b : BitVec 1) : Bool :=
  (s.regAt c (t.base + r.toNat)).poison && (b == 1#1 || !s.awaited c (t.base + r.toNat))

theorem State.emptyAt_eq (s : State) (c : Nat) (t : Thread) (r : BitVec 7) : (!(s.regAt c (t.base + r.toNat)).full) = s.emptyAt c t r := rfl
theorem State.owedAt_eq (s : State) (c : Nat) (t : Thread) (r : BitVec 7) :
    (s.emptyAt c t r && s.outstanding c (t.base + r.toNat)) = s.owedAt c t r := rfl
theorem State.meetsToken_eq (s : State) (c : Nat) (t : Thread) (r : BitVec 7) (b : BitVec 1) :
    ((s.regAt c (t.base + r.toNat)).poison && (b == 1#1 || !s.awaited c (t.base + r.toNat))) = s.meetsToken c t r b := rfl

section
variable {s : State} {c sl : Nat} {t : Thread} {major fn lat : Nat} {rd ra rb : BitVec 7} {ta tb : BitVec 1}

/-- The lowest field outside the window decides, since its code is the least (R162). -/
theorem formBinary_outOfRange (size : Nat) : (formBinary major fn lat rd ra rb ta tb).outOfRange size =
    if size ≤ rd.toNat then some rd.toNat else if size ≤ ra.toNat then some (ra.toNat + 256)
    else if size ≤ rb.toNat then some (rb.toNat + 512) else none := by
  have hd := rd.isLt; have ha := ra.isLt; have hb := rb.isLt
  simp only [Form.outOfRange, formBinary, formRRR, Form.plain, srcT, List.map_cons, List.map_nil, List.cons_append, List.nil_append]
  have ba : ¬rb.toNat + 512 < ra.toNat + 256 := by omega
  have da : rd.toNat < ra.toNat + 256 := by omega
  have db : rd.toNat < rb.toNat + 512 := by omega
  by_cases d : size ≤ rd.toNat <;> by_cases a : size ≤ ra.toNat <;> by_cases b : size ≤ rb.toNat <;>
    simp only [List.filter_cons, List.filter_nil, List.foldl_cons, List.foldl_nil, d, a, b, ba, da, db, decide_true, decide_false,
      Bool.false_eq_true, if_true, if_false, Nat.mul_zero, Nat.add_zero, Nat.mul_one, Nat.reduceMul]

theorem formBinary_loopEnd (hm : major ≤ 2) : (opOf s (formBinary major fn lat rd ra rb ta tb) c sl t).loopEnd = false :=
  loopEnd_of_major (.inl (by show major < 0x17; omega))

theorem State.gate_outside {code : Nat} (h : (formBinary major fn lat rd ra rb ta tb).outOfRange t.size = some code) :
    s.gate (opOf s (formBinary major fn lat rd ra rb ta tb) c sl t) = .trap (trapAt t.pc 0x02 (BitVec.ofNat 64 code) (BitVec.ofNat 64 t.size)) := by
  unfold State.gate
  simp only [opOf, h]
  rfl

/-- The gate of an integer instruction of two sources whose registers lie in the window, check after check (log 22). -/
theorem State.gate_inside (hm : major ≤ 2) (h : (formBinary major fn lat rd ra rb ta tb).outOfRange t.size = none) :
    s.gate (opOf s (formBinary major fn lat rd ra rb ta tb) c sl t) =
      if s.owedAt c t rd then .block [t.base + rd.toNat]
      else if s.meetsToken c t ra ta then
        .trap (trapAt t.pc 0x0E (BitVec.ofNat 64 (ra.toNat + 256 * 1)) (lostCore (s.regAt c (t.base + ra.toNat)).token))
      else if s.meetsToken c t rb tb then
        .trap (trapAt t.pc 0x0E (BitVec.ofNat 64 (rb.toNat + 256 * 2)) (lostCore (s.regAt c (t.base + rb.toNat)).token))
      else if s.emptyAt c t ra && ta == 1#1 then .trap (trapAt t.pc 0x03 (BitVec.ofNat 64 (ra.toNat + 256 * 1)) 0)
      else if s.emptyAt c t rb && tb == 1#1 then .trap (trapAt t.pc 0x03 (BitVec.ofNat 64 (rb.toNat + 256 * 2)) 0)
      else if s.emptyAt c t ra || s.emptyAt c t rb then
        .block (([ra, rb].filter fun r => s.emptyAt c t r).map fun r => t.base + r.toNat)
      else .go := by
  have inside : (opOf s (formBinary major fn lat rd ra rb ta tb) c sl t).form.outOfRange
      (opOf s (formBinary major fn lat rd ra rb ta tb) c sl t).t.size = none := h
  unfold State.gate
  simp only [formBinary_loopEnd hm, inside]
  simp only [opOf, formBinary, formRRR, Form.plain, srcT, Op.pc, List.filter_cons, List.filter_nil, List.find?_cons, List.find?_nil, Reg.lost,
    Bool.not_false, Bool.true_and, Bool.or_false, Bool.false_eq_true, if_false, State.emptyAt_eq, State.owedAt_eq, State.meetsToken_eq]
  by_cases owed : s.owedAt c t rd = true
  · simp [owed]
  by_cases lostA : s.meetsToken c t ra ta = true
  · simp [owed, lostA]
  by_cases lostB : s.meetsToken c t rb tb = true
  · simp [owed, lostA, lostB]
  by_cases emptyA : s.emptyAt c t ra = true <;> by_cases emptyB : s.emptyAt c t rb = true <;>
    cases trapA : ta == 1#1 <;> cases trapB : tb == 1#1 <;> simp [owed, lostA, lostB, emptyA, emptyB]

/-- An instruction whose fields make it trap. -/
theorem Issuing.issue_traps (h : Issuing s c sl t) (alone : t.coupled = false) (handler : s.hasHandler c sl (((s.core c).part).getD 0) = true)
    {f : Form} {x : TrapInfo} (gate : s.gate (opOf s f c sl t) = .trap x) (code : x.code ≠ 0x10) (body : Op → State → State) :
    ∃ u, s.issue f body = .next u ∧ Trapped s u c sl t x := by
  refine ⟨_, ?_, h.trapOp alone handler f code⟩
  simp [State.issue, h.issuer f, Op.follows, State.issueOwn, gate, show (opOf s f c sl t).pair = none from rfl]

/-- An instruction whose fields make it wait. -/
theorem Issuing.issue_blocks (h : Issuing s c sl t) {f : Form} {l : List Nat} (gate : s.gate (opOf s f c sl t) = .block l) (body : Op → State → State) :
    s.issue f body = .next (s.setThread c sl { t with state := .blocked (.regs l) }) := by
  have blocks : s.blockOn (opOf s f c sl t) (.regs l) = s.setThread c sl { t with state := .blocked (.regs l) } := State.modThread_some h.slot _
  simp [State.issue, h.issuer f, Op.follows, State.issueOwn, gate, show (opOf s f c sl t).pair = none from rfl, blocks]

/-- What the statement calls a poisoned source (R36), as the model tests it. -/
theorem State.meetsToken_iff (r : BitVec 7) (b : BitVec 1) : s.meetsToken c t r b = true ↔
    (s.regAt c (t.base + r.toNat)).poison = true ∧
      (b = 1 ∨ (s.regAt c (t.base + r.toNat)).full = true ∨ s.outstanding c (t.base + r.toNat) = false) := by
  simp [State.meetsToken, State.awaited, Bool.and_eq_true, or_iff_not_imp_left]

theorem State.owedAt_iff (r : BitVec 7) : s.owedAt c t r = true ↔
    (s.regAt c (t.base + r.toNat)).full = false ∧ s.outstanding c (t.base + r.toNat) = true := by simp [State.owedAt, State.emptyAt]

theorem State.emptyAt_iff (r : BitVec 7) : s.emptyAt c t r = true ↔ (s.regAt c (t.base + r.toNat)).full = false := by simp [State.emptyAt]

/-- A source is spared EMPTY_READ when it is full or its bit is clear (R33). -/
theorem State.spares_empty {r : BitVec 7} {b : BitVec 1} (plain : (s.regAt c (t.base + r.toNat)).full = false → b = 0) :
    (s.emptyAt c t r && b == 1#1) = false := by
  by_cases full : (s.regAt c (t.base + r.toNat)).full = true
  · simp [State.emptyAt, full]
  · simp [plain (by simpa using full)]

/-- The statement's first field outside the window is the one that the model's code names. -/
theorem formBinary_firstOutside (size : Nat) :
    (formBinary major fn lat rd ra rb ta tb).outOfRange size = firstOutside size [(0, rd), (1, ra), (2, rb)] := by
  rw [formBinary_outOfRange]
  unfold firstOutside
  by_cases d : size ≤ rd.toNat
  · simp [d]
  by_cases a : size ≤ ra.toNat
  · simp [d, a]
  by_cases b : size ≤ rb.toNat <;> simp [d, a, b]

end

end Sys2Proof.Machine

namespace Sys2Proof.Slice0
open Sys2Proof.Machine

/-- The integer instructions of two sources issue alike, each with a function and a value of its own (R70 to R73). -/
theorem integerBinary_exec : ∀ x ∈ integerBinary, ∃ major fn lat, ∃ body : BitVec 7 → BitVec 7 → BitVec 7 → Op → State → State, major ≤ 2 ∧
    ∀ (s : State) (rd ra rb : BitVec 7) (ta tb : BitVec 1),
      exec (x.1 rd ra rb ta tb) s = s.issue (formBinary major fn lat rd ra rb ta tb) (body rd ra rb) := by
  simp only [integerBinary, List.forall_mem_cons]
  refine ⟨?_, ?_, ?_, ?_, ?_, ?_, ?_, ?_, ?_, ?_, ?_, ?_, ?_, ?_, ?_, ?_, ?_, ?_, ?_, ?_, ?_, ?_, ?_, by simp⟩
  all_goals exact ⟨_, _, _, _, by decide, fun _ _ _ _ _ _ => rfl⟩

/-- Settles O54: the gate of an instruction of two sources, check after check. -/
theorem fieldChecks : Obligations.FieldChecks := by
  intro x hx s c sl t rd ra rb ta tb h alone _ handler
  obtain ⟨major, fn, lat, body, hm, runs⟩ := integerBinary_exec x hx
  have traps {y : TrapInfo} (gate : s.gate (opOf s (formBinary major fn lat rd ra rb ta tb) c sl t) = .trap y) (code : y.code ≠ 0x10) :
      ∃ u, exec (x.1 rd ra rb ta tb) s = .next u ∧ Trapped s u c sl t y := by
    rw [runs]
    exact h.issue_traps alone handler gate code _
  have blocks {l : List Nat} (gate : s.gate (opOf s (formBinary major fn lat rd ra rb ta tb) c sl t) = .block l) :
      exec (x.1 rd ra rb ta tb) s = .next (s.setThread c sl { t with state := .blocked (.regs l) }) := by
    rw [runs]
    exact h.issue_blocks gate _
  have inside (hw : rd.toNat < t.size ∧ ra.toNat < t.size ∧ rb.toNat < t.size) :=
    State.gate_inside (s := s) (c := c) (sl := sl) (t := t) (fn := fn) (lat := lat) (rd := rd) (ra := ra) (rb := rb) (ta := ta) (tb := tb) hm (by
      obtain ⟨hd, ha, hb⟩ := hw
      simp [formBinary_outOfRange, Nat.not_le.mpr hd, Nat.not_le.mpr ha, Nat.not_le.mpr hb])
  simp only [← State.owedAt_iff, ← State.meetsToken_iff]
  refine ⟨fun code outside => ?_, fun hw owed => ?_, fun hw owed k r b hk lost earlier => ?_, fun hw owed lostA lostB =>
    ⟨fun k r hk empty trapA trapB => ?_, fun empty trapA trapB => ?_⟩⟩
  · exact traps (State.gate_outside (by rw [formBinary_firstOutside]; exact outside)) (by simp [trapAt])
  · exact ⟨_, blocks (by rw [inside hw, if_pos owed]), by simp⟩
  · refine traps ?_ (by simp [trapAt])
    rw [inside hw, if_neg owed]
    simp only [List.mem_cons, List.not_mem_nil, or_false, Prod.mk.injEq] at hk
    obtain ⟨rfl, rfl, rfl⟩ | ⟨rfl, rfl, rfl⟩ := hk
    · rw [if_pos lost]
    · rw [if_neg (earlier rfl), if_pos lost]
  · refine traps ?_ (by simp [trapAt])
    rw [inside hw, if_neg owed, if_neg lostA, if_neg lostB]
    simp only [List.mem_cons, List.not_mem_nil, or_false, Prod.mk.injEq] at hk
    obtain ⟨rfl, rfl⟩ | ⟨rfl, rfl⟩ := hk
    · have emptyA : s.emptyAt c t r = true := (State.emptyAt_iff _).mpr empty
      simp [emptyA, trapA rfl]
    · have emptyB : s.emptyAt c t r = true := (State.emptyAt_iff _).mpr empty
      obtain ⟨trapB, sparesA⟩ := trapB rfl
      have sparesA : (s.emptyAt c t ra && ta == 1#1) = false := State.spares_empty fun empty => by simpa [empty] using sparesA
      simp [sparesA, emptyB, trapB]
  · refine blocks ?_
    have some_empty : (s.emptyAt c t ra || s.emptyAt c t rb) = true := by simpa [State.emptyAt] using empty
    rw [inside hw, if_neg owed, if_neg lostA, if_neg lostB, State.spares_empty trapA, State.spares_empty trapB, some_empty]
    rfl

end Sys2Proof.Slice0
end

/-! PROOFS. Completions: an instruction in flight runs its effects, and its thread goes on (R26, R91); what O31 and O52 rest on. -/
section
namespace Sys2Proof.Machine
open Sys2Proof.Slice0
set_option Elab.async false

/-! ### The thread that goes on after its effects (R26, R91, R92) -/

/-- The thread in flight, as the operations of a completion take it. -/
def doneOf (s : State) (c sl : Nat) (t : Thread) (f : Flight) : Done := { c := c, sl := sl, p := ((s.core c).part).getD 0, t := t, f := f }

/-- FORK (R93). -/
def Effect.isFork : Effect → Bool
  | .fork _ _ => true
  | _ => false

/-- The thread goes on after its effects: its levels act, it is READY, and its next PC is an effect's own, if there is one. -/
def Done.onward (d : Done) (now : Nat) (jump : Option Addr) (v : Thread) : Thread :=
  let act := v.levelsAct d.last d.f.next
  let w := if d.f.xfer = .jump then act.2.1.levelsJump d.f.next else act.2.1
  { w with state := .ready, readyAt := now, pc := jump.getD act.1, after := none, forward := none,
           kept := d.f.xfer != .none || (jump.isSome && d.f.fx.any Effect.isFork) }

/-- The thread of a completing instruction still stands in its slot, outside gangs, with nothing to happen once the instruction completed. -/
structure StillThere (u : State) (d : Done) (v : Thread) : Prop where
  slot : u.thread? d.c d.sl = some v
  flying : v.state = .inflight d.f
  same : v.uid = d.t.uid
  alone : v.coupled = false
  ordinary : v.after = none

theorem StillThere.stillFlying {u : State} {d : Done} {v : Thread} (h : StillThere u d v) : u.stillFlying d = true := by
  simp [State.stillFlying, State.doneAt, h.slot, h.flying, h.same]

theorem Thread.levelsAct_thread (t : Thread) (last next : Addr) :
    (t.levelsAct last next).2.1 = { t with lp0 := (t.levelsAct last next).2.1.lp0, lp1 := (t.levelsAct last next).2.1.lp1 } := by
  unfold Thread.levelsAct
  dsimp only
  split_ifs <;> rfl

/-- A commit of an empty buffer does nothing. -/
theorem State.commitAs_empty {s : State} {c sl : Nat} {t : Thread} (h : s.thread? c sl = some t) (hb : t.buffer = []) (rel : Option (Nat × Nat)) :
    s.commitAs c sl rel = s := by rw [State.commitAs_eq h]; simp [hb]

theorem State.goOn_eq {u : State} {d : Done} {v : Thread} (h : StillThere u d v) (alone : d.t.coupled = false)
    (ends : v.buffer = [] ∨ u.blockEnds d = false) (jump : Option Addr) :
    u.goOn d jump = u.setThread d.c d.sl (d.onward u.cycle jump v) := by
  have levels := v.levelsAct_thread d.last d.f.next
  obtain ⟨w, hw⟩ : ∃ w, w = (if d.f.xfer = .jump then (v.levelsAct d.last d.f.next).2.1.levelsJump d.f.next else (v.levelsAct d.last d.f.next).2.1) := ⟨_, rfl⟩
  have kept : w.buffer = v.buffer ∧ w.after = v.after := by
    rw [hw, levels]
    split <;> exact ⟨rfl, rfl⟩
  have commits : (if u.blockEnds d = true then (u.setThread d.c d.sl w).commit d.c d.sl else u.setThread d.c d.sl w) = u.setThread d.c d.sl w := by
    rcases ends with empty | stays
    · rw [State.commit, State.commitAs_empty (State.thread?_setThread_self u d.c d.sl w) (kept.1.trans empty), ite_self]
    · simp [stays]
  simp only [State.goOn, h.slot, ← hw, alone, Bool.false_and, Bool.false_eq_true, if_false, commits,
    State.modThread_some (State.thread?_setThread_self u d.c d.sl w), kept.2, h.ordinary, State.runAfter, State.setThread_setThread]
  simp only [State.modThread, State.thread?_setThread_self, State.setThread_setThread, Done.onward, ← hw, State.setThread_cycle] <;> rfl

/-! ### The effects, one after another -/

@[simp] theorem runEffects_nil (d : Done) (n : Nat) (s : State) (j : Option Addr) :
    runEffects d n [] s j = { s := s, jump := j, goes := s.stillFlying d } := by cases n <;> rfl

/-- An effect that nothing holds, and that leaves the thread in flight, is followed by what takes its place and then by the others. -/
theorem runEffects_cons {d : Done} {e : Effect} {s : State} {o : Out} (free : s.holds d e = false) (does : s.effect d e = o)
    (stays : o.stays = false) (flies : o.s.stillFlying d = true) (n : Nat) (rest : List Effect) (j : Option Addr) :
    runEffects d (n + 1) (e :: rest) s j = runEffects d n (o.more ++ rest) o.s (o.jump.or j) := by
  subst does
  simp only [runEffects, free, stays, flies, Bool.not_true, Bool.false_eq_true, if_false]
  cases (s.effect d e).jump <;> rfl

/-- The same for an effect that is done at once. -/
theorem runEffects_done {d : Done} {e : Effect} {s u : State} (free : s.holds d e = false) (does : s.effect d e = .done u)
    (flies : u.stillFlying d = true) (n : Nat) (rest : List Effect) (j : Option Addr) :
    runEffects d (n + 1) (e :: rest) s j = runEffects d n rest u j := runEffects_cons free does rfl flies n rest j

/-- The thread is gone after the effect. -/
theorem runEffects_gone {d : Done} {e : Effect} {s : State} {o : Out} (free : s.holds d e = false) (does : s.effect d e = o)
    (gone : o.s.stillFlying d = false) (n : Nat) (rest : List Effect) (j : Option Addr) :
    runEffects d (n + 1) (e :: rest) s j = { s := o.s, jump := none, goes := false } := by
  subst does
  simp [runEffects, free, gone]

/-- What holds an effect leaves the instruction in flight. -/
theorem runEffects_held {d : Done} {e : Effect} {s : State} (held : s.holds d e = true) (n : Nat) (rest : List Effect) (j : Option Addr) :
    runEffects d (n + 1) (e :: rest) s j = { s := s.keepFlying d (e :: rest), jump := j, goes := false } := by
  simp [runEffects, held]

/-! ### Releases: what a thread has outstanding performs at once (R151; log 7) -/

/-- Accesses have performed: bytes and their marks, the accesses on their way, and cores found faulty by the way may have changed. -/
def Settles (s u : State) : Prop :=
  u = { s with mem := u.mem, scratch := u.scratch, dirty := u.dirty, lost := u.lost, badWords := u.badWords, pend := u.pend,
               arrivals := u.arrivals, passed := u.passed, doomed := u.doomed }

namespace Settles

theorem refl (s : State) : Settles s s := rfl
theorem trans {s u v : State} (h : Settles s u) (g : Settles u v) : Settles s v := by
  unfold Settles at h g ⊢
  rw [g, h]
theorem ite {s u v : State} {p : Prop} [Decidable p] (h : Settles s u) (g : Settles s v) : Settles s (if p then u else v) := by
  split <;> assumption
theorem foldl {α : Type} {f : State → α → State} (hf : ∀ s a, Settles s (f s a)) (l : List α) (s : State) : Settles s (l.foldl f s) := by
  induction l generalizing s with
  | nil => exact refl s
  | cons a l ih => exact (hf s a).trans (ih _)

theorem applyWrites (s : State) (w : Tab Byte) : Settles s (s.applyWrites w) := by
  unfold Settles
  rw [State.applyWrites_eq]
theorem doomCore (s : State) (c : Nat) (k : Kill) : Settles s (s.doomCore c k) := by
  unfold Settles
  rw [State.doomCore_eq]

theorem perform (s : State) (own : Nat → Option Byte) (p : Producer) : Settles s (s.perform own p).1 := by
  cases p with
  | load k addrs got =>
    simp only [State.perform]
    split
    · exact refl s
    · split
      · exact doomCore _ _ _
      · exact refl s
  | atomic op a b c =>
    simp only [State.perform]
    split
    · exact refl s
    · split
      · exact doomCore _ _ _
      · split
        · exact applyWrites _ _
        · exact refl s
  | _ => exact refl s

theorem performWhere (s : State) (f : Arrival → Bool) : Settles s (s.performWhere f) := by
  refine foldl (fun s i => ?_) _ s
  split
  · split
    next a _ _ => exact (perform s (s.ownOf a) a.prod).trans rfl
    · exact refl s
  · exact refl s

theorem showStore (s : State) (n : Nat) : Settles s (s.showStore n) := by
  unfold State.showStore
  split
  · exact refl s
  · have shown : Settles s { s with pend := listDrop s.pend n } := rfl
    exact ite shown (shown.trans (applyWrites _ _))

theorem drainGo (uid upto : Nat) (f : List Nat → Bool) (n : Nat) (s : State) : Settles s (State.drainGo uid upto f n s) := by
  induction n generalizing s with
  | zero => exact refl s
  | succ n ih =>
    simp only [State.drainGo]
    split
    · exact refl s
    · exact ((performWhere s _).trans (showStore _ _)).trans (ih _)

theorem drainTo (s : State) (uid upto : Nat) (f : List Nat → Bool) : Settles s (s.drainTo uid upto f) :=
  (drainGo uid upto f _ s).trans (performWhere _ _)

theorem settlePassed (s : State) : Settles s s.settlePassed :=
  ite (refl s) ((foldl (fun s _ => drainTo s _ _ _) _ s).trans rfl)

theorem drain (s : State) (uid scope : Nat) : Settles s (s.drain uid scope) := (settlePassed s).trans (drainTo _ _ _ _)

theorem drainPart (s : State) (p : Nat) : Settles s (s.drainPart p) := foldl (fun s _ => drain s _ _) _ s

end Settles

/-- A release of a thread: its buffer is committed, and accesses have performed (R131, R151). -/
structure Releases (s u : State) (c sl : Nat) (t : Thread) : Prop where
  only : u = { s with threads := u.threads, draws := u.draws, mem := u.mem, scratch := u.scratch, dirty := u.dirty, lost := u.lost,
                      badWords := u.badWords, pend := u.pend, arrivals := u.arrivals, passed := u.passed, doomed := u.doomed }
  slot : u.thread? c sl = some { t with buffer := [] }
  others : OtherThreads c sl s u

theorem State.releaseAt_releases {s : State} {c sl : Nat} {t : Thread} (h : s.thread? c sl = some t) (scope : Nat) :
    Releases s (s.releaseAt c sl scope) c sl t := by
  have com := State.commitAs_commits h none
  have settles := Settles.drain (s.commit c sl) t.uid scope
  simp only [State.releaseAt, h]
  change Commits s (s.commit c sl) c sl t at com
  generalize s.commit c sl = s1 at com settles
  generalize s1.drain t.uid scope = u at settles
  have threads : u.threads = s1.threads := by rw [settles]
  refine ⟨?_, ?_, com.others.trans (.of_same threads)⟩
  · rw [settles, com.only]
  · have slot := com.slot
    unfold State.thread? at slot ⊢
    rw [threads]
    exact slot

/-! ### Results (R31, R65) -/

section
variable {s : State} {d : Done} {e : Nat}

/-- A result goes to its entry alone where no post is owed. -/
theorem State.put_eq (posts : d.f.posts = []) (v : Vec) : s.put d e v = s.putReg d e (Reg.ofVec v) := by simp [State.put, posts]

theorem State.putReg_only (s : State) (d : Done) (e : Nat) (r : Reg) :
    s.putReg d e r = { s with regs := (s.putReg d e r).regs, wrote := (s.putReg d e r).wrote } := by
  unfold State.putReg
  split <;> rfl

theorem State.regAt_putReg_other (r : Reg) (he : e < 2048) {c' n : Nat} (hn : n < 2048) (hne : ¬(c' = d.c ∧ n = e)) :
    (s.putReg d e r).regAt c' n = s.regAt c' n := by
  unfold State.putReg
  split
  · rfl
  · exact State.regAt_setReg_other s r (by omega)

/-- Where no later-issued instruction has written the entry in this cycle, the result stands there (R31). -/
theorem State.regAt_putReg_self (r : Reg) (prevails : Prevails s d.c e d.f.order) : (s.putReg d e r).regAt d.c e = r := by
  have overtaken : s.overtaken d e = false := by
    rw [State.overtaken, List.any_eq_false]
    intro w hw
    simp only [Bool.and_eq_true, beq_iff_eq, decide_eq_true_eq, not_and, Nat.not_lt]
    exact prevails w hw
  rw [State.putReg, overtaken]
  exact State.regAt_setReg_self s _ _ _

end

end Sys2Proof.Machine

namespace Sys2Proof.Slice0
open Sys2Proof.Machine
set_option Elab.async false

/-- The completing thread without its checker's track: no section of checked code holds it (R314). -/
def untracked (s : State) (c sl : Nat) (t : Thread) : State := s.setThread c sl { t with check := none }

theorem exec_instructionCompletion (s : State) : exec .instructionCompletion s = execInstructionCompletion s := rfl

section
variable {s : State} {c sl : Nat} {t : Thread} {f : Flight}

theorem Completing.doneAt (h : Completing s c sl t f) : s.doneAt c sl = some (doneOf s c sl t f) := by
  simp [State.doneAt, h.slot, h.flying, doneOf]

theorem Completing.stillThere (h : Completing s c sl t f) : StillThere (untracked s c sl t) (doneOf s c sl t f) { t with check := none } :=
  ⟨State.thread?_setThread_self _ _ _ _, h.flying, rfl, h.alone, h.ordinary⟩

/-- The completion of an instruction that nothing holds and whose accesses pass their checks: its effects run, and the thread goes on
unless they say otherwise. -/
theorem Completing.runs (h : Completing s c sl t f) (free : ∀ e ∈ f.fx, s.holds (doneOf s c sl t f) e = false)
    (untrapped : ∀ e ∈ f.fx, s.fxTrap (doneOf s c sl t f) e = none) {r : Ran}
    (run : runEffects (doneOf s c sl t f) 8 f.fx (untracked s c sl t) none = r) :
    exec .instructionCompletion s = .next (if r.goes then r.s.goOn (doneOf s c sl t f) r.jump else r.s) := by
  have turn : ((s.core c).issued != s.cycle + 1) = true := by simpa using h.turn
  have may : s.mayFinish c sl = true := by
    have head : (match (doneOf s c sl t f).f.fx with | e :: _ => !s.holds (doneOf s c sl t f) e | [] => true) = true := by
      rw [show (doneOf s c sl t f).f.fx = f.fx from rfl]
      cases hfx : f.fx with
      | nil => rfl
      | cons e l => simp [free e (by simp [hfx])]
    simp only [State.mayFinish, h.doneAt]
    rw [Bool.and_eq_true]
    exact ⟨by simp [doneOf, h.due, h.standing, turn], head⟩
  have traps : f.fx.findSome? (fun e => s.fxTrap (doneOf s c sl t f) e) = none := List.findSome?_eq_none_iff.mpr untrapped
  have checks : s.checkStep (doneOf s c sl t f) (s.exitTaken (doneOf s c sl t f)) = .goes none := by
    simp only [State.checkStep, doneOf, h.plain]
  have tracked : (s.modThread c sl fun t => { t with check := none }) = untracked s c sl t := State.modThread_some h.slot _
  have completes : s.complete (doneOf s c sl t f) = if r.goes then r.s.goOn (doneOf s c sl t f) r.jump else r.s := by
    unfold State.complete
    simp only [show (doneOf s c sl t f).f = f from rfl, show (doneOf s c sl t f).t = t from rfl, show (doneOf s c sl t f).c = c from rfl,
      show (doneOf s c sl t f).sl = sl from rfl, traps, h.unchecked, checks, h.ordinary, Bool.false_eq_true, if_false]
    rw [tracked, run]
    simp
  rw [exec_instructionCompletion, execInstructionCompletion, h.subject.1, h.subject.2, may, h.doneAt]
  simp [completes]

/-- The completion of an instruction with one effect, which leaves the thread in its slot. -/
theorem Completing.single (h : Completing s c sl t f) {e : Effect} (fx : f.fx = [e]) (free : s.holds (doneOf s c sl t f) e = false)
    (untrapped : s.fxTrap (doneOf s c sl t f) e = none) (free' : (untracked s c sl t).holds (doneOf s c sl t f) e = false)
    {u : State} {jump : Option Addr} (does : (untracked s c sl t).effect (doneOf s c sl t f) e = { s := u, jump := jump, more := [], stays := false })
    {v : Thread} (still : StillThere u (doneOf s c sl t f) v) (ends : v.buffer = [] ∨ u.blockEnds (doneOf s c sl t f) = false) :
    exec .instructionCompletion s = .next (u.setThread c sl ((doneOf s c sl t f).onward u.cycle jump v)) := by
  rw [h.runs (by simpa [fx] using free) (by simpa [fx] using untrapped) (by rw [fx, runEffects_cons free' does rfl still.stillFlying])]
  simp only [List.append_nil, runEffects_nil, still.stillFlying, if_true, Option.or_none]
  rw [State.goOn_eq still h.alone ends]
  rfl

/-- The instruction ends its thread. -/
theorem Completing.gone (h : Completing s c sl t f) {e : Effect} (fx : f.fx = [e]) (free : s.holds (doneOf s c sl t f) e = false)
    (untrapped : s.fxTrap (doneOf s c sl t f) e = none) (free' : (untracked s c sl t).holds (doneOf s c sl t f) e = false)
    {o : Out} (does : (untracked s c sl t).effect (doneOf s c sl t f) e = o)
    (gone : o.s.thread? c sl = none) : exec .instructionCompletion s = .next o.s := by
  have ended : o.s.stillFlying (doneOf s c sl t f) = false := by simp [State.stillFlying, State.doneAt, doneOf, gone]
  rw [h.runs (by simpa [fx] using free) (by simpa [fx] using untrapped) (by rw [fx, runEffects_gone free' does ended])]
  rfl

/-- No level acts at the word (R91). -/
theorem onward_plain (h : Single t f) {v : Thread} (now : Nat) (jump : Option Addr)
    (l1 : v.lp1.active = false ∨ v.lp1.stop ≠ t.pc) (l0 : v.lp0.active = false ∨ v.lp0.stop ≠ t.pc)
    (straight : f.xfer = .jump → v.lp0.active = false ∧ v.lp1.active = false) :
    (doneOf s c sl t f).onward now jump v =
      { v with state := .ready, readyAt := now, pc := jump.getD f.next, after := none, forward := none,
               kept := f.xfer != .none || (jump.isSome && f.fx.any Effect.isFork) } := by
  have last : (doneOf s c sl t f).last = t.pc := by simp [Done.last, doneOf, h.single]
  have not1 : ¬(v.lp1.active = true ∧ v.lp1.stop = t.pc) := by rcases l1 with e | e <;> simp [e]
  have not0 : ¬(v.lp0.active = true ∧ v.lp0.stop = t.pc) := by rcases l0 with e | e <;> simp [e]
  have act : v.levelsAct t.pc f.next = (f.next, v, false) := by simp [Thread.levelsAct, not1, not0]
  have jumps : (if f.xfer = .jump then v.levelsJump f.next else v) = v := by
    split
    next hx =>
      obtain ⟨e0, e1⟩ := straight hx
      simp [Thread.levelsJump, e0, e1]
    · rfl
  simp only [Done.onward, last]
  simp only [doneOf, act, jumps]

end

end Sys2Proof.Slice0
end

/-! PROOFS. O52: the register files at reset, and THR.START (R37, R138). -/
section
namespace Sys2Proof.Machine
open Sys2Proof.Slice0
set_option Elab.async false

/-- Status 0 of THR.START names a FREE slot (R138). -/
theorem State.startStatus_free {s : State} {c req a : Nat} (h : (s.startStatus c req a).1 = 0) :
    (s.startStatus c req a).2 < 64 ∧ s.thread? c (s.startStatus c req a).2 = none := by
  unfold State.startStatus at h ⊢
  dsimp only at h ⊢
  split at h
  · cases h
  next inRange =>
    split at h
    · cases h
    next unused =>
      split at h
      · cases h
      · split at h
        · cases h
        · split at h
          next any =>
            rw [if_neg inRange, if_neg unused, if_neg ‹_›, if_neg ‹_›, if_pos any]
            split
            next sl hsl =>
              have := List.find?_some hsl
              have mem := List.mem_range.mp (List.mem_of_find?_eq_some hsl)
              exact ⟨by omega, by simpa using this⟩
            next hsl => simp [hsl] at h
          next one =>
            rw [if_neg inRange, if_neg unused, if_neg ‹_›, if_neg ‹_›, if_neg one]
            have below : natBits req 0 7 < 63 := by omega
            exact ⟨by omega, by simpa [below] using unused⟩

/-- The registers and one thread are as before. -/
structure SlotKept (s u : State) (c sl : Nat) : Prop where
  regs : u.regs = s.regs
  thread : u.thread? c sl = s.thread? c sl

theorem State.addUnit_slotKept (s : State) (p id c sl : Nat) : SlotKept s (s.addUnit p id) c sl := by
  unfold State.addUnit State.modCtx
  split <;> exact ⟨rfl, rfl⟩

/-- THR.START writes no register of its own but the status, and leaves its thread in its slot with an empty buffer (R37, R138). -/
theorem State.fxStart_keeps {s : State} {d : Done} {t : Thread} (h : s.thread? d.c d.sl = some t) (rd : Nat) (req a : Word) :
    ∃ (u : State) (n : Nat), s.fxStart d rd req a = u.putNat d rd n ∧ u.regs = s.regs ∧ u.thread? d.c d.sl = some { t with buffer := [] } := by
  have rel := State.releaseAt_releases h 5
  simp only [State.fxStart]
  change Releases s (s.release d.c d.sl) d.c d.sl t at rel
  generalize s.release d.c d.sl = s1 at rel
  have regs : s1.regs = s.regs := by rw [rel.only]
  refine ⟨_, _, rfl, ?_⟩
  split
  · exact ⟨regs, rel.slot⟩
  next ok =>
    obtain ⟨inCore, free⟩ := State.startStatus_free (not_not.mp ok)
    generalize s1.startStatus d.c req.toNat a.toNat = r at inCore free
    have other : r.2 ≠ d.sl := fun e => by rw [e, rel.slot] at free; cases free
    have placed (v : Thread) : SlotKept s1 (s1.placeThread d.c r.2 v) d.c d.sl :=
      ⟨rfl, State.thread?_setThread_other s1 _ (by omega)⟩
    split
    · exact ⟨(placed _).regs.trans regs, (placed _).thread.trans rel.slot⟩
    · have unit := State.addUnit_slotKept (s1.placeThread d.c r.2
        { Thread.start 0 (a.setWidth 48) (natBits a.toNat 48 8 * 8) ((natBits a.toNat 56 4 + 1) * 8) d.t.launch (s1.cycle + 1) with handler := d.t.handler })
        d.p d.t.launch d.c d.sl
      exact ⟨unit.regs.trans ((placed _).regs.trans regs), unit.thread.trans ((placed _).thread.trans rel.slot)⟩

end Sys2Proof.Machine

namespace Sys2Proof.Slice0
open Sys2Proof.Machine

/-- A machine whose register table is empty has every entry at its reset value. -/
theorem regAtReset_of_noRegs {u : State} (h : u.regs = []) (c n : Nat) : RegAtReset (u.regAt c n) := by
  rw [State.regAt, h]
  exact ⟨rfl, rfl, rfl, rfl⟩

/-- Settles O52: a reset leaves the register table empty, and THR.START writes its status alone. -/
theorem registersAtReset : Obligations.RegistersAtReset := by
  unfold Obligations.RegistersAtReset
  refine ⟨fun c n _ => regAtReset_of_noRegs rfl c n, fun s => ⟨_, rfl, fun c n _ => regAtReset_of_noRegs rfl c n⟩,
    fun s => ⟨_, rfl, fun c n _ => regAtReset_of_noRegs rfl c n⟩, ?_⟩
  intro s c sl t f rd req a h straight fx hrd
  obtain ⟨u, n, does, regs, slot⟩ := State.fxStart_keeps (d := doneOf s c sl t f) h.stillThere.slot rd req a
  have put : u.putNat (doneOf s c sl t f) rd n = u.putReg (doneOf s c sl t f) rd (Reg.ofVec (BitVec.ofNat 512 n)) :=
    State.put_eq straight.owes _
  have there : StillThere (u.putNat (doneOf s c sl t f) rd n) (doneOf s c sl t f) { t with check := none, buffer := [] } := by
    refine ⟨?_, h.flying, rfl, h.alone, h.ordinary⟩
    rw [put, State.putReg_only]
    exact slot
  refine ⟨_, h.single fx rfl rfl rfl (congrArg Out.done does) there (.inl rfl), fun c' m hm hne => ?_⟩
  have same : (u.putNat (doneOf s c sl t f) rd n).regAt c' m = u.regAt c' m := by
    rw [put]
    exact State.regAt_putReg_other _ hrd hm hne
  have before : u.regAt c' m = s.regAt c' m := by
    rw [State.regAt, regs]
    rfl
  exact same.trans before

end Sys2Proof.Slice0
end

/-! PROOFS. O31, first part: results, flags, hardware loops, special registers and the crossbar's counters and terms
(R26, R31, R65, R69, R91, R137, R147). -/
section
namespace Sys2Proof.Machine
open Sys2Proof.Slice0
set_option Elab.async false

/-! ### Hardware loops at their last word (R91) -/

/-- A level with a pass left, and one with none. -/
def Loop.less (l : Loop) : Loop := { l with count := l.count - 1 }
def Loop.ended (l : Loop) : Loop := { l with count := 0, active := false }
/-- A level's last word stands at an address. -/
abbrev Loop.endsAt (l : Loop) (a : Addr) : Prop := l.active = true ∧ l.stop = a

/-- One level at a completing word: what it becomes, and whether it goes back to its start. -/
def Loop.act (l : Loop) (last : Addr) : Loop × Bool :=
  if l.active ∧ l.stop = last then if l.count - 1 ≠ 0 then (l.less, true) else (l.ended, false) else (l, false)

theorem Loop.act_again {l : Loop} {last : Addr} (h : l.endsAt last) (n : l.count ≠ 1) : l.act last = (l.less, true) := by
  have left : l.count - 1 ≠ 0 := fun e => n (by bv_omega)
  exact (if_pos h).trans (if_pos left)
theorem Loop.act_ended {l : Loop} {last : Addr} (h : l.endsAt last) (n : l.count = 1) : l.act last = (l.ended, false) := by
  have left : ¬l.count - 1 ≠ 0 := by simp [n]
  exact (if_pos h).trans (if_neg left)
theorem Loop.act_other {l : Loop} {last : Addr} (h : ¬l.endsAt last) : l.act last = (l, false) := if_neg h

/-- The inner level decides first, then the outer one (R91). -/
theorem Thread.levelsAct_eq (t : Thread) (last next : Addr) :
    t.levelsAct last next =
      if (t.lp1.act last).2 then ((t.lp1.act last).1.start, { t with lp1 := (t.lp1.act last).1 }, true)
      else if (t.lp0.act last).2 then
        ((t.lp0.act last).1.start, { t with lp1 := (t.lp1.act last).1, lp0 := (t.lp0.act last).1 }, true)
      else (next, { t with lp1 := (t.lp1.act last).1, lp0 := (t.lp0.act last).1 }, false) := rfl

section
variable {t : Thread} {last next : Addr} {l0 l1 : Loop}

theorem Thread.levelsAct_inner (h : t.lp1.act last = (l1, true)) :
    t.levelsAct last next = (l1.start, { t with lp0 := t.lp0, lp1 := l1 }, true) := by simp [Thread.levelsAct_eq, h]
theorem Thread.levelsAct_outer (h : t.lp1.act last = (l1, false)) (g : t.lp0.act last = (l0, true)) :
    t.levelsAct last next = (l0.start, { t with lp0 := l0, lp1 := l1 }, true) := by simp [Thread.levelsAct_eq, h, g]
theorem Thread.levelsAct_none (h : t.lp1.act last = (l1, false)) (g : t.lp0.act last = (l0, false)) :
    t.levelsAct last next = (next, { t with lp0 := l0, lp1 := l1 }, false) := by simp [Thread.levelsAct_eq, h, g]

end

/-! ### Terms and counters of the crossbar (R137) -/

@[simp] theorem Core.term_setTerm_self (k : Core) (n : Nat) (x : Term) : (k.setTerm n x).term n = x := by simp [Core.term, Core.setTerm]
theorem Core.term_setTerm_other (k : Core) {n m : Nat} (x : Term) (h : m ≠ n) : (k.setTerm n x).term m = k.term m := tabGet_put_other _ _ _ _ h
@[simp] theorem Core.counter_setCounter_self (k : Core) (n : Nat) (x : Counter) : (k.setCounter n x).counter n = x := by
  simp [Core.counter, Core.setCounter]
theorem Core.counter_setCounter_other (k : Core) {n m : Nat} (x : Counter) (h : m ≠ n) : (k.setCounter n x).counter m = k.counter m :=
  tabGet_put_other _ _ _ _ h

theorem extract_second_half (a : Word) : a.extractLsb' 16 16 = (a >>> 16).setWidth 16 := by
  apply BitVec.eq_of_toNat_eq
  simp [BitVec.extractLsb'_toNat]

/-- Bit 16 as a number. -/
theorem natBits_bit16 (b : Word) : natBits b.toNat 16 1 = (b.getLsbD 16).toNat := by
  rw [natBits, BitVec.getLsbD, Nat.toNat_testBit, Nat.pow_one]

theorem natBits_low (x n : Nat) : natBits x 0 n = x % 2 ^ n := by simp [natBits]

/-- EVT.CNT sets the counter (R137). -/
theorem evtCount_sets (x : Counter) {a b : Word} (hb : b.getLsbD 16 = false) :
    evtCount x a b = { count := a.toNat % 2 ^ 16, threshold := b.toNat % 2 ^ 16, overflow := false } := by
  rw [evtCount, natBits_bit16, hb, natBits_low, natBits_low]
  rfl
/-- Or it adds to it, up to its limit (R137). -/
theorem evtCount_adds (x : Counter) {a b : Word} (hb : b.getLsbD 16 = true) :
    evtCount x a b = { x with count := min (x.count + a.toNat % 2 ^ 16) 0xFFFF, overflow := x.overflow || decide (0xFFFF < x.count + a.toNat % 2 ^ 16) } := by
  rw [evtCount, natBits_bit16, hb, natBits_low]
  rfl

end Sys2Proof.Machine

namespace Sys2Proof.Slice0
open Sys2Proof.Machine
set_option Elab.async false

section
variable {s : State} {c sl : Nat} {t : Thread} {f : Flight}

/-- A straight instruction ends no block (R151). -/
theorem Straight.blockEnds (h : Straight t f) {u : State} (plain : u.sectionAt (((s.core c).part).getD 0) t.pc.toNat = none) :
    u.blockEnds (doneOf s c sl t f) = false := by
  have last : (doneOf s c sl t f).last = t.pc := by simp [Done.last, doneOf, h.single]
  have major : decide (0x17 ≤ f.major) = true → decide (f.major ≤ 0x1D) = false := by
    have := h.inBlock
    simp only [decide_eq_true_eq, decide_eq_false_iff_not]
    omega
  simp only [State.blockEnds, State.blockEnds.plainEnd, last]
  simp [doneOf, plain, h.goes, Thread.loopEndsAt, h.level0, h.level1]
  exact major

/-- What a change of one thread, and of no byte, leaves. -/
theorem onlyThread_of {u : State} (h : Completing s c sl t f) (others : OtherThreads c sl s u) (mem : MemKept s u) : OnlyThread s u c sl :=
  ⟨fun _ _ hne h' => others.thread? h.inCore hne h', mem⟩

theorem onlyThread_setThread (h : Completing s c sl t f) (v : Thread) : OnlyThread s (s.setThread c sl v) c sl :=
  onlyThread_of h (.setThread s v) fun _ => rfl

/-- The levels stand as they are where neither is active. -/
theorem onward_single (h : Single t f) {v : Thread} (l0 : v.lp0 = t.lp0) (l1 : v.lp1 = t.lp1) (now : Nat) (jump : Option Addr) :
    (doneOf s c sl t f).onward now jump v =
      { v with state := .ready, readyAt := now, pc := jump.getD f.next, after := none, forward := none,
               kept := f.xfer != .none || (jump.isSome && f.fx.any Effect.isFork) } :=
  onward_plain h now jump (.inl (by rw [l1, h.level1])) (.inl (by rw [l0, h.level0])) fun _ => ⟨by rw [l0, h.level0], by rw [l1, h.level1]⟩

/-- The thread of an ordinary instruction goes on at the next one. -/
theorem onward_goneOn (h : Completing s c sl t f) (one : Single t f) (now : Nat) (e : now = s.cycle) :
    (doneOf s c sl t f).onward now none { t with check := none } = goneOn s t f := by
  rw [onward_single one (v := { t with check := none }) rfl rfl]
  simp [goneOn, e, h.ordinary]

/-! ### An instruction without effects: the loop levels (R91) -/

theorem Completing.levels (h : Completing s c sl t f) (buffer : t.buffer = []) (fx : f.fx = []) (xfer : f.xfer = .none) (pair : f.pair = none)
    {pc : Addr} {a b : Loop} {back : Bool}
    (act : Thread.levelsAct { t with check := none } t.pc f.next = (pc, { t with check := none, lp0 := a, lp1 := b }, back)) :
    ∃ u, exec .instructionCompletion s = .next u ∧ NoReg s u ∧ u.thread? c sl = some { goneOn s t f with pc := pc, lp0 := a, lp1 := b } ∧
      OnlyThread s u c sl := by
  have run : exec .instructionCompletion s = .next ((untracked s c sl t).goOn (doneOf s c sl t f) none) := by
    rw [h.runs (by simp [fx]) (by simp [fx]) (by rw [fx, runEffects_nil]), h.stillThere.stillFlying]
    rfl
  have last : (doneOf s c sl t f).last = t.pc := by simp [Done.last, doneOf, pair]
  have onward : (doneOf s c sl t f).onward s.cycle none { t with check := none } = { goneOn s t f with pc := pc, lp0 := a, lp1 := b } := by
    simp only [Done.onward, last]
    simp only [doneOf, act, xfer]
    simp [goneOn, h.ordinary, xfer]
  rw [State.goOn_eq h.stillThere h.alone (.inl buffer)] at run
  refine ⟨_, run, fun _ _ => rfl, ?_, ?_⟩
  · refine (State.thread?_setThread_self _ c sl _).trans (congrArg some onward)
  · exact onlyThread_of h ((OtherThreads.setThread s _).trans (.setThread _ _)) fun _ => rfl

/-! ### Results and exception flags (R65, R69) -/

/-- The state after a result and another table of threads. -/
theorem onlyReg_put {e : Nat} {v : Vec} (he : e < 2048) (prevails : Prevails s c e f.order) {u : State}
    (wrote : u.wrote = s.wrote) (regs : u.regs = s.regs) {w : State} (same : w.regs = (u.putReg (doneOf s c sl t f) e (Reg.ofVec v)).regs) :
    OnlyReg s w c e v := by
  have at_ (c' n : Nat) : w.regAt c' n = (u.putReg (doneOf s c sl t f) e (Reg.ofVec v)).regAt c' n := by rw [State.regAt, same]; rfl
  have before (c' n : Nat) : u.regAt c' n = s.regAt c' n := by rw [State.regAt, regs]; rfl
  refine ⟨(at_ c e).trans (State.regAt_putReg_self (d := doneOf s c sl t f) _ ?_), fun c' n hn hne => ?_⟩
  · unfold Prevails
    rw [wrote]
    exact prevails
  · exact ((at_ c' n).trans (State.regAt_putReg_other (d := doneOf s c sl t f) _ he hn hne)).trans (before c' n)

/-- The effect `.reg` writes its entry; the completing thread stands as before. -/
structure ResultWritten (s u : State) (c sl : Nat) (t : Thread) (f : Flight) (e : Nat) (v : Vec) : Prop where
  does : (untracked s c sl t).effect (doneOf s c sl t f) (.reg e v) = .done u
  only : u = { untracked s c sl t with regs := u.regs, wrote := u.wrote }
  regs : u.regs = ((untracked s c sl t).putReg (doneOf s c sl t f) e (Reg.ofVec v)).regs

theorem resultWritten_reg (posts : f.posts = []) (e : Nat) (v : Vec) :
    ResultWritten s ((untracked s c sl t).putReg (doneOf s c sl t f) e (Reg.ofVec v)) c sl t f e v where
  does := congrArg Out.done (State.put_eq posts v)
  only := State.putReg_only _ _ _ _
  regs := rfl

theorem ResultWritten.stillThere {u : State} {e : Nat} {v : Vec} (w : ResultWritten s u c sl t f e v) (h : Completing s c sl t f) :
    StillThere u (doneOf s c sl t f) { t with check := none } := by
  refine ⟨?_, h.flying, rfl, h.alone, h.ordinary⟩
  rw [w.only]
  exact h.stillThere.slot

/-- Whatever the thread is then, one entry has been written and no other thread has changed. -/
theorem ResultWritten.finish {u : State} {e : Nat} {v : Vec} (w : ResultWritten s u c sl t f e v) (h : Completing s c sl t f) (he : e < 2048)
    (prevails : Prevails s c e f.order) (x : Thread) :
    OnlyReg s (u.setThread c sl x) c e v ∧ OnlyThread s (u.setThread c sl x) c sl := by
  refine ⟨onlyReg_put he prevails (u := untracked s c sl t) rfl rfl w.regs, onlyThread_of h ?_ fun _ => by rw [w.only]; rfl⟩
  have first : OtherThreads c sl s u := (OtherThreads.setThread s _).trans (.of_same (by rw [w.only]; rfl))
  exact first.trans (.setThread _ _)

theorem ResultWritten.blockEnds {u : State} {e : Nat} {v : Vec} (w : ResultWritten s u c sl t f e v) (h : Completing s c sl t f) (straight : Straight t f) :
    u.blockEnds (doneOf s c sl t f) = false := straight.blockEnds (by rw [w.only]; exact h.plain)

/-- A result alone (R65). -/
theorem Completing.result (h : Completing s c sl t f) (straight : Straight t f) {e : Nat} {v : Vec} (fx : f.fx = [.reg e v]) (he : e < 2048)
    (prevails : Prevails s c e f.order) :
    ∃ u, exec .instructionCompletion s = .next u ∧ OnlyReg s u c e v ∧ u.thread? c sl = some (goneOn s t f) ∧ OnlyThread s u c sl := by
  have w := resultWritten_reg (s := s) (c := c) (sl := sl) (t := t) straight.owes e v
  generalize (untracked s c sl t).putReg (doneOf s c sl t f) e (Reg.ofVec v) = u at w
  obtain ⟨reg, others⟩ := w.finish h he prevails ((doneOf s c sl t f).onward u.cycle none { t with check := none })
  refine ⟨_, h.single fx rfl rfl rfl w.does (w.stillThere h) (.inr (w.blockEnds h straight)), reg, ?_, others⟩
  rw [State.thread?_setThread_self, onward_goneOn h straight.toSingle _ (by rw [w.only]; rfl)]

/-- A result with exception flags (R69). -/
theorem Completing.resultFlags (h : Completing s c sl t f) (straight : Straight t f) {e : Nat} {v : Vec} {fl : BitVec 5}
    (fx : f.fx = [.reg e v, .flags fl]) (he : e < 2048) (prevails : Prevails s c e f.order) :
    ∃ u, exec .instructionCompletion s = .next u ∧ OnlyReg s u c e v ∧ u.thread? c sl = some { goneOn s t f with fflags := t.fflags ||| fl } ∧
      OnlyThread s u c sl := by
  have w := resultWritten_reg (s := s) (c := c) (sl := sl) (t := t) straight.owes e v
  generalize (untracked s c sl t).putReg (doneOf s c sl t f) e (Reg.ofVec v) = u at w
  have flags : u.effect (doneOf s c sl t f) (.flags fl) = .done (u.setThread c sl { t with check := none, fflags := t.fflags ||| fl }) :=
    congrArg Out.done (State.modThread_some (w.stillThere h).slot _)
  have there : StillThere (u.setThread c sl { t with check := none, fflags := t.fflags ||| fl }) (doneOf s c sl t f)
      { t with check := none, fflags := t.fflags ||| fl } := ⟨State.thread?_setThread_self _ _ _ _, h.flying, rfl, h.alone, h.ordinary⟩
  have ran : runEffects (doneOf s c sl t f) 8 f.fx (untracked s c sl t) none =
      { s := u.setThread c sl { t with check := none, fflags := t.fflags ||| fl }, jump := none, goes := true } := by
    rw [fx, runEffects_done rfl w.does (w.stillThere h).stillFlying, runEffects_done rfl flags there.stillFlying, runEffects_nil, there.stillFlying]
  have run := h.runs (by rw [fx, List.forall_mem_cons, List.forall_mem_singleton]; exact ⟨rfl, rfl⟩)
    (by rw [fx, List.forall_mem_cons, List.forall_mem_singleton]; exact ⟨rfl, rfl⟩) ran
  have plain : (u.setThread c sl { t with check := none, fflags := t.fflags ||| fl }).sectionAt (((s.core c).part).getD 0) t.pc.toNat = none := by
    rw [w.only]; exact h.plain
  rw [if_pos rfl, State.goOn_eq there h.alone (.inr (straight.blockEnds plain))] at run
  obtain ⟨reg, others⟩ := w.finish h he prevails ((doneOf s c sl t f).onward u.cycle none { t with check := none, fflags := t.fflags ||| fl })
  have value : (doneOf s c sl t f).onward u.cycle none { t with check := none, fflags := t.fflags ||| fl } =
      { goneOn s t f with fflags := t.fflags ||| fl } := by
    rw [onward_single straight.toSingle (v := { t with check := none, fflags := t.fflags ||| fl }) rfl rfl]
    simp [goneOn, h.ordinary, show u.cycle = s.cycle by rw [w.only]; rfl]
  refine ⟨_, run.trans (congrArg _ (State.setThread_setThread _ _ _ _ _)), reg, ?_, others⟩
  exact (State.thread?_setThread_self _ _ _ _).trans (congrArg some value)

/-- The loop levels at an instruction without effects (R91). -/
theorem Completing.loops (h : Completing s c sl t f) (buffer : t.buffer = []) (fx : f.fx = []) (xfer : f.xfer = .none) (pair : f.pair = none) :
    let goesOn (pc : Addr) (a b : Loop) : Prop := ∃ u, exec .instructionCompletion s = .next u ∧ NoReg s u ∧
      u.thread? c sl = some { goneOn s t f with pc := pc, lp0 := a, lp1 := b } ∧ OnlyThread s u c sl
    let ends (l : Loop) : Prop := l.endsAt t.pc
    (ends t.lp1 → t.lp1.count ≠ 1 → goesOn t.lp1.start t.lp0 t.lp1.less) ∧
    (ends t.lp1 → t.lp1.count = 1 → ¬ ends t.lp0 → goesOn f.next t.lp0 t.lp1.ended) ∧
    (ends t.lp1 → t.lp1.count = 1 → ends t.lp0 → t.lp0.count ≠ 1 → goesOn t.lp0.start t.lp0.less t.lp1.ended) ∧
    (ends t.lp1 → t.lp1.count = 1 → ends t.lp0 → t.lp0.count = 1 → goesOn f.next t.lp0.ended t.lp1.ended) ∧
    (¬ ends t.lp1 → ends t.lp0 → t.lp0.count ≠ 1 → goesOn t.lp0.start t.lp0.less t.lp1) ∧
    (¬ ends t.lp1 → ends t.lp0 → t.lp0.count = 1 → goesOn f.next t.lp0.ended t.lp1) := by
  refine ⟨fun e1 n1 => ?_, fun e1 n1 e0 => ?_, fun e1 n1 e0 n0 => ?_, fun e1 n1 e0 n0 => ?_, fun e1 e0 n0 => ?_, fun e1 e0 n0 => ?_⟩
  · exact h.levels buffer fx xfer pair (Thread.levelsAct_inner (t := { t with check := none }) (Loop.act_again e1 n1))
  · exact h.levels buffer fx xfer pair (Thread.levelsAct_none (t := { t with check := none }) (Loop.act_ended e1 n1) (Loop.act_other e0))
  · exact h.levels buffer fx xfer pair (Thread.levelsAct_outer (t := { t with check := none }) (Loop.act_ended e1 n1) (Loop.act_again e0 n0))
  · exact h.levels buffer fx xfer pair (Thread.levelsAct_none (t := { t with check := none }) (Loop.act_ended e1 n1) (Loop.act_ended e0 n0))
  · exact h.levels buffer fx xfer pair (Thread.levelsAct_outer (t := { t with check := none }) (Loop.act_other e1) (Loop.act_again e0 n0))
  · exact h.levels buffer fx xfer pair (Thread.levelsAct_none (t := { t with check := none }) (Loop.act_other e1) (Loop.act_ended e0 n0))

end

end Sys2Proof.Slice0
end

/-! PROOFS. O31, second part: effects on the thread alone and on its core's counters and terms (R88, R90, R125, R137, R147). -/
section
namespace Sys2Proof.Slice0
open Sys2Proof.Machine
set_option Elab.async false

section
variable {s : State} {c sl : Nat} {t : Thread} {f : Flight}

/-- An effect that changes its own thread alone. -/
theorem Completing.threadOnly (h : Completing s c sl t f) {e : Effect} (fx : f.fx = [e]) (free : s.holds (doneOf s c sl t f) e = false)
    (untrapped : s.fxTrap (doneOf s c sl t f) e = none) (free' : (untracked s c sl t).holds (doneOf s c sl t f) e = false)
    {v w : Thread} {jump : Option Addr}
    (does : (untracked s c sl t).effect (doneOf s c sl t f) e =
      { s := (untracked s c sl t).setThread c sl v, jump := jump, more := [], stays := false })
    (flying : v.state = .inflight f) (same : v.uid = t.uid) (alone : v.coupled = false) (ordinary : v.after = none) (buffer : v.buffer = [])
    (value : (doneOf s c sl t f).onward s.cycle jump v = w) :
    ∃ u, exec .instructionCompletion s = .next u ∧ u.thread? c sl = some w ∧ u = { s with threads := u.threads } ∧ OnlyThread s u c sl := by
  have there : StillThere ((untracked s c sl t).setThread c sl v) (doneOf s c sl t f) v :=
    ⟨State.thread?_setThread_self _ _ _ _, flying, same, alone, ordinary⟩
  have run := h.single fx free untrapped free' does there (.inl buffer)
  rw [untracked, State.setThread_setThread, State.setThread_setThread] at run
  exact ⟨_, run, (State.thread?_setThread_self _ _ _ _).trans (congrArg some value), rfl, onlyThread_setThread h _⟩

/-- An effect that changes its own core alone. -/
theorem Completing.coreOnly (h : Completing s c sl t f) (buffer : t.buffer = []) (one : Single t f) {e : Effect} (fx : f.fx = [e])
    (free : s.holds (doneOf s c sl t f) e = false) (untrapped : s.fxTrap (doneOf s c sl t f) e = none)
    (free' : (untracked s c sl t).holds (doneOf s c sl t f) e = false) {g : Core → Core}
    (does : (untracked s c sl t).effect (doneOf s c sl t f) e = .done ((untracked s c sl t).modCore c g)) :
    ∃ u, exec .instructionCompletion s = .next u ∧ u.thread? c sl = some (goneOn s t f) ∧ u = { s with threads := u.threads, cores := u.cores } ∧
      u.core c = g (s.core c) ∧ OnlyThread s u c sl ∧ NoReg s u := by
  have there : StillThere ((untracked s c sl t).modCore c g) (doneOf s c sl t f) { t with check := none } :=
    ⟨h.stillThere.slot, h.flying, rfl, h.alone, h.ordinary⟩
  refine ⟨_, h.single fx free untrapped free' does there (.inl buffer), ?_, rfl, ?_, ?_, fun _ _ => rfl⟩
  · exact (State.thread?_setThread_self _ _ _ _).trans (congrArg some (onward_goneOn h one _ rfl))
  · exact State.core_setCore_self _ _ _
  · refine onlyThread_of h ?_ fun _ => rfl
    have first : OtherThreads c sl s ((untracked s c sl t).modCore c g) := (OtherThreads.setThread s _).trans (.of_same rfl)
    exact first.trans (.setThread _ _)

/-- SYS.SET of a register other than the core's (R147). -/
theorem effect_sysSet (h : Completing s c sl t f) {n : Nat} {a : Word} (hn : n ≠ 9) :
    (untracked s c sl t).effect (doneOf s c sl t f) (.sysSet n a) = .done ((untracked s c sl t).setThread c sl
      { t with check := none
               forkInline := if n = 1 then t.forkInline && !a.getLsbD 39 else t.forkInline
               fflags := if n = 5 then a.setWidth 5 else t.fflags
               lk := if n = 6 then a.setWidth 48 else t.lk }) := by
  have slot := h.stillThere.slot
  refine congrArg Out.done ?_
  match n, hn with
  | 1, _ => exact State.modThread_some slot _
  | 5, _ => exact State.modThread_some slot _
  | 6, _ => exact State.modThread_some slot _
  | 0, _ | 2, _ | 3, _ | 4, _ | 7, _ | 8, _ | _ + 10, _ => exact (State.setThread_setThread s c sl _ _).symm

theorem specialsWritten (h : Completing s c sl t f) : SpecialsWritten s c sl t f := by
  intro buffer one
  refine ⟨fun n a fx => ?_, fun a fx => ?_, fun n l fx other straight => ?_, fun n a fx => ?_, fun n a fx => ?_, fun n a b fx => ?_⟩
  · by_cases hn : n = 9
    · subst hn
      obtain ⟨u, run, thread, only, core, others, regs⟩ := h.coreOnly buffer one fx rfl rfl rfl (g := fun k => { k with nlost := a.setWidth 32 }) rfl
      exact ⟨u, run, regs, others, thread, core, only⟩
    · have value : (doneOf s c sl t f).onward s.cycle none
          { t with check := none
                   forkInline := if n = 1 then t.forkInline && !a.getLsbD 39 else t.forkInline
                   fflags := if n = 5 then a.setWidth 5 else t.fflags
                   lk := if n = 6 then a.setWidth 48 else t.lk } =
          { goneOn s t f with
            forkInline := if n = 1 then t.forkInline && !a.getLsbD 39 else t.forkInline
            fflags := if n = 5 then a.setWidth 5 else t.fflags
            lk := if n = 6 then a.setWidth 48 else t.lk } := by
        rw [onward_single one (by rfl) (by rfl)]
        simp [goneOn, h.ordinary]
      obtain ⟨u, run, thread, only, others⟩ :=
        h.threadOnly fx rfl rfl rfl (effect_sysSet h hn) h.flying rfl h.alone h.ordinary buffer value
      have regs : NoReg s u := fun _ _ => by rw [only]; rfl
      have core : u.core c = { s.core c with nlost := if n = 9 then a.setWidth 32 else (s.core c).nlost } := by rw [only, if_neg hn]; rfl
      exact ⟨u, run, regs, others, thread, core, by rw [only]⟩
  · have value : (doneOf s c sl t f).onward s.cycle none { t with check := none, lk := a } = { goneOn s t f with lk := a } := by
      rw [onward_single one (by rfl) (by rfl)]
      simp [goneOn, h.ordinary]
    exact h.threadOnly fx rfl rfl rfl (congrArg Out.done (State.modThread_some h.stillThere.slot _)) h.flying rfl h.alone h.ordinary buffer value
  · have value : (doneOf s c sl t f).onward s.cycle none
        { t with check := none, lp0 := if n = 0 then l else t.lp0, lp1 := if n = 0 then t.lp1 else l } =
        { goneOn s t f with lp0 := if n = 0 then l else t.lp0, lp1 := if n = 0 then t.lp1 else l } := by
      rw [onward_plain one _ _ ?_ ?_ fun e => absurd e straight]
      · simp [goneOn, h.ordinary]
      · by_cases hn : n = 0
        · exact .inl (by simp [hn, one.level1])
        · simpa [hn] using other
      · by_cases hn : n = 0
        · simpa [hn] using other
        · exact .inl (by simp [hn, one.level0])
    have does : (untracked s c sl t).effect (doneOf s c sl t f) (.loop n l) = .done ((untracked s c sl t).setThread c sl
        { t with check := none, lp0 := if n = 0 then l else t.lp0, lp1 := if n = 0 then t.lp1 else l }) := by
      refine congrArg Out.done ((State.modThread_some h.stillThere.slot _).trans ?_)
      by_cases hn : n = 0 <;> simp [hn] <;> rfl
    obtain ⟨u, run, thread, only, others⟩ := h.threadOnly fx rfl rfl rfl does h.flying rfl h.alone h.ordinary buffer value
    exact ⟨u, run, only, others, thread⟩
  · obtain ⟨u, run, thread, only, core, -⟩ := h.coreOnly buffer one fx rfl rfl rfl rfl
    exact ⟨u, run, thread, only, by rw [core, Core.term_setTerm_self, extract_second_half],
      fun m hm => by rw [core, Core.term_setTerm_other _ _ hm]⟩
  · obtain ⟨u, run, thread, only, core, -⟩ := h.coreOnly buffer one fx rfl rfl rfl rfl
    exact ⟨u, run, thread, only, by rw [core, Core.term_setTerm_self], fun m hm => by rw [core, Core.term_setTerm_other _ _ hm]⟩
  · intro old sum
    obtain ⟨u, run, thread, only, core, -⟩ := h.coreOnly buffer one fx rfl rfl rfl rfl
    have counter : (u.core c).counter n = evtCount old a b := by rw [core, Core.counter_setCounter_self]
    refine ⟨u, run, thread, only, fun hb => ?_, fun hb low => ?_, fun hb high => ?_, fun m hm => by rw [core, Core.counter_setCounter_other _ _ hm]⟩
    · rw [counter, evtCount_sets _ hb]
    · have fits : ¬0xFFFF < sum := by omega
      rw [counter, evtCount_adds _ hb, min_eq_left (by omega), decide_eq_false fits, Bool.or_false]
    · have above : 0xFFFF < sum := by omega
      rw [counter, evtCount_adds _ hb, min_eq_right (by omega), decide_eq_true above, Bool.or_true]

end

end Sys2Proof.Slice0
end

/-! PROOFS. O31, third part: QPUSH, ARRIVE and the fences (R125, R131, R144). -/
section
namespace Sys2Proof.Machine
open Sys2Proof.Slice0
set_option Elab.async false

/-! ### A release of a thread that has nothing outstanding (R151) -/

theorem foldl_id {α β : Type} {f : β → α → β} {b : β} {l : List α} (h : ∀ a ∈ l, f b a = b) : l.foldl f b = b := by
  induction l with
  | nil => rfl
  | cons a l ih =>
    rw [List.foldl_cons, h a (by simp)]
    exact ih fun x hx => h x (by simp [hx])

theorem State.performWhere_none {s : State} {f : Arrival → Bool} (h : ∀ a ∈ s.arrivals, f a = false) : s.performWhere f = s := by
  refine foldl_id fun i _ => ?_
  cases ha : s.arrivals[i]? with
  | none => rfl
  | some a => simp [h a (List.mem_of_getElem? ha)]

theorem State.drainGo_none {s : State} {uid : Nat} (h : ∀ e ∈ s.pend, e.uid ≠ uid) (upto : Nat) (f : List Nat → Bool) (n : Nat) :
    State.drainGo uid upto f n s = s := by
  cases n with
  | zero => rfl
  | succ n =>
    have none_next : s.pend.find? (fun e => e.uid == uid && decide (e.order ≤ upto) && f (e.writes.map Prod.fst)) = none := by
      rw [List.find?_eq_none]
      intro e he
      simp [h e he]
    simp only [State.drainGo, none_next]

theorem State.drain_nothing {s : State} {t : Thread} (h : NothingOwed s t) (scope : Nat) : s.drain t.uid scope = s := by
  have settled : s.settlePassed = s := by simp [State.settlePassed, h.passed]
  simp only [State.drain, settled, State.drainTo, State.drainGo_none h.stores]
  exact State.performWhere_none fun a ha => by simp [h.loads a ha]

theorem State.releaseAt_nothing {s : State} {c sl : Nat} {t : Thread} (slot : s.thread? c sl = some t) (h : NothingOwed s t) (scope : Nat) :
    s.releaseAt c sl scope = s := by
  simp only [State.releaseAt, slot, State.commit, State.commitAs_empty slot h.buffer, State.drain_nothing h]

/-! ### Channels, barriers and command queues (R131, R144, R297) -/

theorem State.barrier_put (s : State) (key k : Nat) (b : Barrier) :
    State.barrier { s with barriers := tabPut s.barriers key b Barrier.reset } k = if k = key then b else s.barrier k := by
  split
  next e => subst e; exact tabGet_put_self _ _ _ _
  next e => exact tabGet_put_other _ _ _ _ e

@[simp] theorem Core.cmdsOf_setCmds (k : Core) (q : Nat) (l : List CmdEntry) : (k.setCmds q l).cmdsOf q = l := tabGet_put_self _ _ _ _

theorem State.modCtx_some {s : State} {p : Nat} {x : Ctx} (h : s.ctx? p = some x) (f : Ctx → Ctx) : s.modCtx p f = s.setCtx p (f x) := by
  simp [State.modCtx, h]

/-- The entry that QPUSH appends to a command queue (R131). -/
def State.pushed (s : State) (d : Done) (q : Nat) (cmd : BitVec 256) (opr : Vec) : CmdEntry :=
  { cmd := cmd, opr := opr, crc := crc32c (natBytes 32 cmd.toNat ++ natBytes 64 opr.toNat), seq := tabGet (s.core d.c).seqs q 0, core := d.c,
    slot := d.sl, queue := q, uid := d.t.uid, part := d.p, launch := d.t.launch, base := d.t.base, size := d.t.size,
    order := d.f.order, bound := false, fired := none, cancelled := s.cancelled d.p d.t.launch, literal := false, since := s.cycle, cut := false }
/-- A queue's next sequence number (R131). -/
def Core.numbered (k : Core) (q : Nat) : Core := { k with seqs := tabPut k.seqs q ((tabGet k.seqs q 0 + 1) % 2 ^ 16) 0 }

theorem State.fxPush_command {s : State} {d : Done} {q : Nat} (released : s.release d.c d.sl = s) (queue : d.t.queueOf q = .command) (rd : Nat)
    (cmd : BitVec 256) (opr : Vec) :
    s.fxPush d rd q cmd opr =
      ((s.modCore d.c fun k => k.numbered q).modCore d.c fun k => k.setCmds q (k.cmdsOf q ++ [s.pushed d q cmd opr])).putNat d rd
        (tabGet (s.core d.c).seqs q 0) := by
  simp only [State.fxPush, released, queue]
  rfl

theorem State.holds_push_command {s : State} {d : Done} {q : Nat} (queue : d.t.queueOf q = .command) (rd : Nat) (cmd : BitVec 256) (opr : Vec) :
    s.holds d (.qpush rd q cmd opr) = false := by
  change (match d.t.queueOf q with | .output key => _ | _ => false) = false
  rw [queue]

theorem State.holds_push_entry {s : State} {d : Done} {q key : Nat} {x : Ctx} {h : Chan} (queue : d.t.queueOf q = .output key)
    (chan : s.chan? d.p key = some h) (ctx : s.ctx? d.p = some x) (here : x.chanAway h = false) (rd : Nat) (cmd : BitVec 256) (opr : Vec) :
    s.holds d (.qpush rd q cmd opr) = false := by
  have isOpen : s.chanOpen d.p h = true := by simp [State.chanOpen, ctx, Ctx.takesEntry, here]
  change (match d.t.queueOf q with | .output key => (match s.chan? d.p key with | some h => h.sealed_.isNone && !s.chanOpen d.p h && !s.ending d.p | none => false) | _ => false) = false
  simp only [queue, chan, isOpen, Bool.not_true, Bool.and_false, Bool.false_and]

/-- A channel with one more entry (R131, R297). -/
def Ctx.entered (x : Ctx) (key : Nat) (h : Chan) (e : ChanEntry) : Ctx :=
  { x with chans := tabSet x.chans key { h with entries := h.entries ++ [e] } }

/-- An entry is sent to a channel whose consumer is not away: it stands at its end (R131). -/
theorem State.sendEntry_eq {s : State} {p key : Nat} {x : Ctx} {h : Chan} (ctx : s.ctx? p = some x) (here : x.chanAway h = false) (e : ChanEntry) :
    s.sendEntry p key h e = s.setCtx p (x.entered key h e) := by
  simp [State.sendEntry, ctx, State.setChan, State.modCtx_some ctx, Ctx.append, here, Ctx.entered]

theorem State.fxPush_entry {s : State} {d : Done} {q key : Nat} {x : Ctx} {h : Chan} (released : s.release d.c d.sl = s)
    (queue : d.t.queueOf q = .output key) (chan : s.chan? d.p key = some h) (unsealed : h.sealed_ = none) (ctx : s.ctx? d.p = some x)
    (here : x.chanAway h = false) (rd : Nat) (cmd : BitVec 256) (opr : Vec) :
    s.fxPush d rd q cmd opr =
      ((s.modCore d.c fun k => k.numbered q).setCtx d.p (x.entered key h (.data opr))).putNat d rd (tabGet (s.core d.c).seqs q 0) := by
  have chan' : (s.modCore d.c fun k => k.numbered q).chan? d.p key = some h := chan
  have ctx' : (s.modCore d.c fun k => k.numbered q).ctx? d.p = some x := ctx
  have sent := State.sendEntry_eq (key := key) ctx' here (.data opr)
  simp only [State.fxPush, released, queue]
  change State.putNat (match (s.modCore d.c fun k => k.numbered q).chan? d.p key with | some h => _ | none => _) d rd _ = _
  rw [chan']
  simp only [unsealed]
  exact congrArg (fun u : State => u.putNat d rd _) sent

/-- An arrival that does not count, one that the barrier still waits after, and the last one (R144). -/
theorem Barrier.join_refused {b : Barrier} {uid n : Nat} (h : n = 0 ∨ ∃ w, b.want = some w ∧ w ≠ n) : b.join uid n = (b, false) := by
  rcases h with rfl | ⟨w, hw, hne⟩
  · simp [Barrier.join]
  · simp [Barrier.join, hw, hne]
theorem Barrier.join_waits {b : Barrier} {uid n : Nat} (h0 : n ≠ 0) (h : ∀ w, b.want = some w → w = n) (few : b.arrived.length + 1 < n) :
    b.join uid n = ({ b with want := some n, arrived := b.arrived ++ [(uid, false)] }, true) := by
  have counts : ¬(n = 0 ∨ (b.want.isSome ∧ b.want ≠ some n)) := by
    cases hw : b.want with
    | none => simp [h0]
    | some w => simp [h0, h w hw]
  rw [Barrier.join, if_neg counts, if_neg (by omega)]
theorem Barrier.join_last {b : Barrier} {uid n : Nat} (h0 : n ≠ 0) (h : ∀ w, b.want = some w → w = n) (enough : n ≤ b.arrived.length + 1) :
    b.join uid n = ({ gen := (b.gen + 1) % 2 ^ 16, want := none, arrived := [] }, true) := by
  have counts : ¬(n = 0 ∨ (b.want.isSome ∧ b.want ≠ some n)) := by
    cases hw : b.want with
    | none => simp [h0]
    | some w => simp [h0, h w hw]
  rw [Barrier.join, if_neg counts, if_pos (by omega)]

/-- A barrier after an arrival: one that does not count leaves it (R144). -/
def State.arrived (s : State) (key : Nat) (r : Barrier × Bool) : State :=
  if r.2 then { s with barriers := tabPut s.barriers key r.1 Barrier.reset } else s

theorem State.arrived_only (s : State) (key : Nat) (r : Barrier × Bool) : s.arrived key r = { s with barriers := (s.arrived key r).barriers } := by
  unfold State.arrived
  split <;> rfl

theorem State.arrived_barrier {s : State} {key : Nat} {r : Barrier × Bool} (same : r.2 = false → r.1 = s.barrier key) (k : Nat) :
    (s.arrived key r).barrier k = if k = key then r.1 else s.barrier k := by
  cases counts : r.2 with
  | true => rw [State.arrived, if_pos counts, State.barrier_put]
  | false =>
    rw [State.arrived, if_neg (by simp [counts]), same counts]
    by_cases e : k = key <;> simp [e]

theorem State.fxArrive_eq {s : State} {d : Done} (released : s.release d.c d.sl = s) (rd scope : Nat) (a : Word) :
    let key := barrierKey d.p scope (barrierUnit scope d.c) (a.toNat % 16)
    let r := (s.barrier key).join d.t.uid (a.toNat / 2 ^ 16 % 2 ^ 16)
    s.fxArrive d rd scope a =
      (s.arrived key r).putNat d rd (a.toNat % 16 + scope * 2 ^ 4 + (s.barrier key).gen * 2 ^ 16 + if r.2 then 0 else topBit) := by
  have low : natBits a.toNat 0 4 = a.toNat % 16 := natBits_low _ _
  simp only [State.fxArrive, released, low]
  rfl

/-! ### Fences (R125) -/

theorem State.beforeOf_nothing {s : State} {t : Thread} (h : NothingOwed s t) : s.beforeOf t.uid = [] := by
  have loads : s.arrivals.filter (fun a => a.uid == t.uid) = [] := List.filter_eq_nil_iff.mpr fun a ha => by simp [h.loads a ha]
  have stores : s.pend.filter (fun e => e.uid == t.uid) = [] := List.filter_eq_nil_iff.mpr fun e he => by simp [h.stores e he]
  simp [State.beforeOf, loads, stores, State.live, h.passed]

end Sys2Proof.Machine

namespace Sys2Proof.Slice0
open Sys2Proof.Machine
set_option Elab.async false

section
variable {s : State} {c sl : Nat} {t : Thread} {f : Flight}

/-- What an effect has done before its result is written: the completing thread, every register and every byte are as before. -/
structure Prepared (s w : State) (c sl : Nat) (t : Thread) : Prop where
  slot : w.thread? c sl = some { t with check := none }
  others : OtherThreads c sl s w
  mem : MemKept s w
  regs : w.regs = s.regs
  wrote : w.wrote = s.wrote
  cycle : w.cycle = s.cycle

theorem Completing.prepared (h : Completing s c sl t f) : Prepared s (untracked s c sl t) c sl t :=
  ⟨h.stillThere.slot, .setThread s _, fun _ => rfl, rfl, rfl, rfl⟩

/-- A completion whose effect ends with a number for its destination. -/
theorem Completing.numbers (h : Completing s c sl t f) (one : Single t f) (buffer : t.buffer = []) {e : Effect} (fx : f.fx = [e])
    (free : s.holds (doneOf s c sl t f) e = false) (untrapped : s.fxTrap (doneOf s c sl t f) e = none)
    (free' : (untracked s c sl t).holds (doneOf s c sl t f) e = false) {w : State} (prep : Prepared s w c sl t) {rd n : Nat}
    (does : (untracked s c sl t).effect (doneOf s c sl t f) e = .done (w.putNat (doneOf s c sl t f) rd n)) (hrd : rd < 2048)
    (prevails : Prevails s c rd f.order) :
    ∃ u, exec .instructionCompletion s = .next u ∧ u.thread? c sl = some (goneOn s t f) ∧ OnlyReg s u c rd (BitVec.ofNat 512 n) ∧
      OnlyThread s u c sl ∧ u = { w with threads := u.threads, regs := u.regs, wrote := u.wrote } := by
  have put : w.putNat (doneOf s c sl t f) rd n = w.putReg (doneOf s c sl t f) rd (Reg.ofVec (BitVec.ofNat 512 n)) := State.put_eq one.owes _
  have only := State.putReg_only w (doneOf s c sl t f) rd (Reg.ofVec (BitVec.ofNat 512 n))
  rw [put] at does
  obtain ⟨x, hx⟩ : ∃ x, x = w.putReg (doneOf s c sl t f) rd (Reg.ofVec (BitVec.ofNat 512 n)) := ⟨_, rfl⟩
  rw [← hx] at does only
  have there : StillThere x (doneOf s c sl t f) { t with check := none } := by
    refine ⟨?_, h.flying, rfl, h.alone, h.ordinary⟩
    rw [only]
    exact prep.slot
  refine ⟨_, h.single fx free untrapped free' does there (.inl buffer), ?_, ?_, ?_, ?_⟩
  · exact (State.thread?_setThread_self _ _ _ _).trans (congrArg some (onward_goneOn h one _ (by rw [only]; exact prep.cycle)))
  · exact onlyReg_put hrd prevails prep.wrote prep.regs (by rw [← hx]; rfl)
  · refine onlyThread_of h ?_ fun a => by rw [only]; exact prep.mem a
    have first : OtherThreads c sl s x := prep.others.trans (.of_same (by rw [only]))
    exact first.trans (.setThread _ _)
  · rw [only]
    rfl

/-- The thread whose instruction runs its effects has nothing outstanding either. -/
theorem Completing.owesNothing (h : NothingOwed s t) : NothingOwed (untracked s c sl t) { t with check := none } :=
  ⟨h.buffer, h.stores, h.loads, h.passed⟩

theorem Completing.release_nothing (h : Completing s c sl t f) (owed : NothingOwed s t) (scope : Nat) :
    (untracked s c sl t).releaseAt c sl scope = untracked s c sl t :=
  State.releaseAt_nothing h.stillThere.slot (Completing.owesNothing owed) scope

/-- QPUSH of a command (R131). -/
theorem Completing.pushCommand (h : Completing s c sl t f) (one : Single t f) (owed : NothingOwed s t) {rd q : Nat} {cmd : BitVec 256} {opr : Vec}
    (fx : f.fx = [.qpush rd q cmd opr]) (hrd : rd < 2048) (prevails : Prevails s c rd f.order) (queue : t.queueOf q = .command) :
    ∃ u, exec .instructionCompletion s = .next u ∧ u.thread? c sl = some (goneOn s t f) ∧
      OnlyReg s u c rd (BitVec.ofNat 512 (tabGet (s.core c).seqs q 0)) ∧ OnlyThread s u c sl ∧
      u.core c = ((s.core c).numbered q).setCmds q ((s.core c).cmdsOf q ++ [s.pushed (doneOf s c sl t f) q cmd opr]) := by
  have does := congrArg Out.done (State.fxPush_command (d := doneOf s c sl t f) (h.release_nothing owed 5) queue rd cmd opr)
  have prep (g1 g2 : Core → Core) : Prepared s (((untracked s c sl t).modCore c g1).modCore c g2) c sl t :=
    ⟨h.stillThere.slot, (OtherThreads.setThread s _).trans (.of_same rfl), fun _ => rfl, rfl, rfl, rfl⟩
  obtain ⟨u, run, thread, reg, others, only⟩ := h.numbers one owed.buffer fx (State.holds_push_command queue _ _ _) rfl
    (State.holds_push_command queue _ _ _) (prep _ _) does hrd prevails
  refine ⟨u, run, thread, reg, others, ?_⟩
  rw [only]
  exact (State.core_setCore_self _ _ _).trans (congrArg (fun k : Core => k.setCmds q (k.cmdsOf q ++ [_])) (State.core_setCore_self _ _ _))

/-- QPUSH of an entry for a channel (R131). -/
theorem Completing.pushEntry (h : Completing s c sl t f) (one : Single t f) (owed : NothingOwed s t) {rd q : Nat} {cmd : BitVec 256} {opr : Vec}
    (fx : f.fx = [.qpush rd q cmd opr]) (hrd : rd < 2048) (prevails : Prevails s c rd f.order) {key : Nat} {n : Chan} {x : Ctx}
    (queue : t.queueOf q = .output key) (chan : s.chan? (((s.core c).part).getD 0) key = some n) (unsealed : n.sealed_ = none)
    (ctx : s.ctx? (((s.core c).part).getD 0) = some x) (here : x.chanAway n = false) :
    ∃ u, exec .instructionCompletion s = .next u ∧ u.thread? c sl = some (goneOn s t f) ∧
      OnlyReg s u c rd (BitVec.ofNat 512 (tabGet (s.core c).seqs q 0)) ∧
      u.chan? (((s.core c).part).getD 0) key = some { n with entries := n.entries ++ [.data opr] } ∧ OnlyThread s u c sl := by
  have does := congrArg Out.done
    (State.fxPush_entry (d := doneOf s c sl t f) (h.release_nothing owed 5) queue chan unsealed ctx here rd cmd opr)
  have prep (y : Ctx) : Prepared s (((untracked s c sl t).modCore c fun k => k.numbered q).setCtx (((s.core c).part).getD 0) y) c sl t :=
    ⟨h.stillThere.slot, (OtherThreads.setThread s _).trans (.of_same rfl), fun _ => rfl, rfl, rfl, rfl⟩
  obtain ⟨u, run, thread, reg, others, only⟩ := h.numbers one owed.buffer fx (State.holds_push_entry queue chan ctx here _ _ _) rfl
    (State.holds_push_entry queue chan ctx here _ _ _) (prep _) does hrd prevails
  have ctx_u : u.ctx? (((s.core c).part).getD 0) = some (x.entered key n (.data opr)) := by
    rw [only]
    exact State.ctx?_setCtx_self _ _ _
  exact ⟨u, run, thread, reg, by simp [State.chan?, ctx_u, Ctx.entered], others⟩

/-- ARRIVE, by what its barrier makes of it (R144). -/
theorem Completing.arrives (h : Completing s c sl t f) (one : Single t f) (owed : NothingOwed s t) {rd scope : Nat} {a : Word}
    (fx : f.fx = [.arrive rd scope a]) (hrd : rd < 2048) (prevails : Prevails s c rd f.order) {key : Nat}
    (hkey : key = barrierKey (((s.core c).part).getD 0) scope (barrierUnit scope c) (a.toNat % 16))
    {r : Barrier × Bool} (joins : (s.barrier key).join t.uid (a.toNat / 2 ^ 16 % 2 ^ 16) = r) (same : r.2 = false → r.1 = s.barrier key)
    {top : Nat} (htop : (if r.2 then 0 else topBit) = top) :
    ∃ u, exec .instructionCompletion s = .next u ∧ u.thread? c sl = some (goneOn s t f) ∧
      OnlyReg s u c rd (BitVec.ofNat 512 (a.toNat % 16 + scope * 2 ^ 4 + (s.barrier key).gen * 2 ^ 16 + top)) ∧
      u.barrier key = r.1 ∧ (∀ k, k ≠ key → u.barrier k = s.barrier k) ∧ OnlyThread s u c sl := by
  have does : (untracked s c sl t).effect (doneOf s c sl t f) (.arrive rd scope a) =
      .done (((untracked s c sl t).arrived key r).putNat (doneOf s c sl t f) rd
        (a.toNat % 16 + scope * 2 ^ 4 + (s.barrier key).gen * 2 ^ 16 + top)) := by
    subst hkey joins htop
    exact congrArg Out.done (State.fxArrive_eq (d := doneOf s c sl t f) (h.release_nothing owed 5) rd scope a)
  have prep : Prepared s ((untracked s c sl t).arrived key r) c sl t := by
    rw [State.arrived_only]
    exact ⟨h.stillThere.slot, (OtherThreads.setThread s _).trans (.of_same rfl), fun _ => rfl, rfl, rfl, rfl⟩
  obtain ⟨u, run, thread, reg, others, only⟩ := h.numbers one owed.buffer fx rfl rfl rfl prep does hrd prevails
  have barriers (k : Nat) : u.barrier k = if k = key then r.1 else s.barrier k := by
    rw [only]
    exact State.arrived_barrier (s := untracked s c sl t) same k
  exact ⟨u, run, thread, reg, by rw [barriers, if_pos rfl], fun k hk => by rw [barriers, if_neg hk], others⟩

/-- A fence commits an empty buffer first, and then waits (R125). -/
theorem Completing.fence_commits (h : Completing s c sl t f) (buffer : t.buffer = []) (k sc : Nat) :
    (untracked s c sl t).effect (doneOf s c sl t f) (.fence k sc) =
      { s := untracked s c sl t, jump := none, more := [.fenceWait k sc], stays := false } :=
  congrArg (fun u : State => ({ s := u, jump := none, more := [.fenceWait k sc], stays := false } : Out))
    (State.commitAs_empty h.stillThere.slot buffer none)

/-- A fence of a thread that has nothing outstanding (R125). -/
theorem Completing.fences (h : Completing s c sl t f) (one : Single t f) (owed : NothingOwed s t) {k sc : Nat} (fx : f.fx = [.fence k sc]) :
    ∃ u, exec .instructionCompletion s = .next u ∧ u.thread? c sl = some (goneOn s t f) ∧ u = { s with threads := u.threads } ∧
      OnlyThread s u c sl := by
  have none_before := State.beforeOf_nothing (Completing.owesNothing (c := c) (sl := sl) owed)
  have noLoad : (s.arrivals.any fun a => a.uid == t.uid && decide (a.order < f.order)) = false := by
    rw [List.any_eq_false]
    intro a ha
    simp [owed.loads a ha]
  have free : (untracked s c sl t).holds (doneOf s c sl t f) (.fenceWait k sc) = false := by
    change ((decide (k ≤ 1) && s.arrivals.any fun a => a.uid == t.uid && decide (a.order < f.order)) ||
      (!narrow sc && ((untracked s c sl t).beforeOf t.uid).any _)) = false
    rw [noLoad, none_before]
    simp
  have waits : (untracked s c sl t).effect (doneOf s c sl t f) (.fenceWait k sc) = .done (untracked s c sl t) := by
    refine congrArg Out.done (if_neg ?_)
    change ¬(_ ∧ _ ∧ ((untracked s c sl t).beforeOf t.uid).any _ = true)
    rw [none_before]
    simp
  have ran : runEffects (doneOf s c sl t f) 8 f.fx (untracked s c sl t) none = { s := untracked s c sl t, jump := none, goes := true } := by
    rw [fx, runEffects_cons rfl (h.fence_commits owed.buffer k sc) rfl h.stillThere.stillFlying]
    simp only [List.cons_append, List.nil_append, Option.or_none]
    rw [runEffects_done free waits h.stillThere.stillFlying, runEffects_nil, h.stillThere.stillFlying]
  have run := h.runs (by rw [fx, List.forall_mem_singleton]; rfl) (by rw [fx, List.forall_mem_singleton]; rfl) ran
  rw [if_pos rfl, State.goOn_eq h.stillThere h.alone (.inl owed.buffer)] at run
  refine ⟨_, run, (State.thread?_setThread_self _ _ _ _).trans (congrArg some (onward_goneOn h one _ rfl)), ?_, ?_⟩
  · rfl
  · exact onlyThread_of h ((OtherThreads.setThread s _).trans (.setThread _ _)) fun _ => rfl

theorem queuesAndBarriers (h : Completing s c sl t f) : QueuesAndBarriers s c sl t f := by
  intro one owed
  refine ⟨fun rd q cmd opr fx hrd prevails => ?_, fun rd scope a fx hrd prevails => ?_, fun k sc fx => h.fences one owed fx⟩
  · refine ⟨fun queue => ?_, fun key n x queue chan unsealed ctx here => h.pushEntry one owed fx hrd prevails queue chan unsealed ctx here⟩
    obtain ⟨u, run, thread, reg, others, core⟩ := h.pushCommand one owed fx hrd prevails queue
    refine ⟨u, _, run, thread, reg, by rw [core]; exact Core.cmdsOf_setCmds _ _ _, rfl, rfl, rfl, rfl, rfl, rfl, rfl, rfl, rfl, rfl, ?_, others⟩
    rw [core]
    exact tabGet_put_self _ _ _ _
  · refine ⟨fun refused => ?_, fun h0 hw => ⟨fun few => ?_, fun enough => ?_⟩⟩
    · exact h.arrives one owed fx hrd prevails rfl (Barrier.join_refused refused) (fun _ => rfl) rfl
    · exact h.arrives one owed fx hrd prevails rfl (Barrier.join_waits h0 hw few) (fun e => nomatch e) rfl
    · exact h.arrives one owed fx hrd prevails rfl (Barrier.join_last h0 hw enough) (fun e => nomatch e) rfl

end

end Sys2Proof.Slice0
end

/-! PROOFS. O31, fourth part: what the ends of units and launches do (R96, R292, R293). -/
section
namespace Sys2Proof.Machine
open Sys2Proof.Slice0
set_option Elab.async false

/-! ### Tables under a change of every value -/

theorem tabGet?_map {α : Type} {f : Nat × α → Nat × α} (hf : ∀ e, (f e).1 = e.1) (t : Tab α) (k : Nat) :
    tabGet? (t.map f) k = (tabGet? t k).map fun v => (f (k, v)).2 := by
  induction t with
  | nil => rfl
  | cons e t ih =>
    obtain ⟨k', v⟩ := e
    have key : (f (k', v)).1 = k' := hf (k', v)
    simp only [List.map_cons, tabGet?, key]
    split
    next e => subst e; rfl
    · exact ih

/-! ### Launches of a context (R292, R293) -/

/-- The launch of a partition's context with an ID. -/
def State.launchOf (s : State) (p id : Nat) : Option Launch := (s.ctx? p).bind fun y => tabGet? y.launches id

/-- Work goes on or ends beside the threads: contexts, cores, the host's signals, commands, trap records, barriers and posts. -/
def WorkOnly (s u : State) : Prop :=
  u = { s with ctxs := u.ctxs, cores := u.cores, host := u.host, dispatch := u.dispatch, active := u.active, traps := u.traps,
               barriers := u.barriers, posts := u.posts }

namespace WorkOnly
theorem refl (s : State) : WorkOnly s s := rfl
theorem trans {s u v : State} (h : WorkOnly s u) (g : WorkOnly u v) : WorkOnly s v := by
  unfold WorkOnly at h g ⊢
  rw [g, h]
theorem setCtx (s : State) (p : Nat) (x : Ctx) : WorkOnly s (s.setCtx p x) := rfl
theorem modCore (s : State) (c : Nat) (f : Core → Core) : WorkOnly s (s.modCore c f) := rfl
theorem modCtx (s : State) (p : Nat) (f : Ctx → Ctx) : WorkOnly s (s.modCtx p f) := by
  unfold State.modCtx
  split
  · exact setCtx _ _ _
  · exact refl s
theorem foldl {α : Type} {f : State → α → State} (hf : ∀ s a, WorkOnly s (f s a)) (l : List α) (s : State) : WorkOnly s (l.foldl f s) := by
  induction l generalizing s with
  | nil => exact refl s
  | cons a l ih => exact (hf s a).trans (ih _)
theorem thread? {s u : State} (h : WorkOnly s u) (c sl : Nat) : u.thread? c sl = s.thread? c sl := by
  unfold WorkOnly at h
  rw [h]
  rfl
theorem threads {s u : State} (h : WorkOnly s u) : u.threads = s.threads := by
  unfold WorkOnly at h
  rw [h]
theorem memKept {s u : State} (h : WorkOnly s u) : MemKept s u := fun a => by
  unfold WorkOnly at h
  rw [h]
  rfl
theorem regs {s u : State} (h : WorkOnly s u) : u.regs = s.regs := by
  unfold WorkOnly at h
  rw [h]
theorem wrote {s u : State} (h : WorkOnly s u) : u.wrote = s.wrote := by
  unfold WorkOnly at h
  rw [h]
theorem cycle {s u : State} (h : WorkOnly s u) : u.cycle = s.cycle := by
  unfold WorkOnly at h
  rw [h]
end WorkOnly

/-- Launches are as before. -/
def LaunchesKept (x y : Ctx) : Prop := y.launches = x.launches

namespace LaunchesKept
theorem foldl {α : Type} {f : Ctx → α → Ctx} (hf : ∀ x a, LaunchesKept x (f x a)) (l : List α) (x : Ctx) : LaunchesKept x (l.foldl f x) := by
  induction l generalizing x with
  | nil => rfl
  | cons a l ih => exact (ih (f x a)).trans (hf x a)

theorem unbind (x : Ctx) (id : Nat) (r : Vec) (killed : Option Nat) (rewound : Bool) : LaunchesKept x (x.unbind id r killed rewound) := by
  refine foldl (fun x i => ?_) _ x
  dsimp only
  split
  · rfl
  · split
    · rfl
    · split <;> rfl

theorem updateRound (x : Ctx) (g : Nat) : LaunchesKept x (x.updateRound g) := by
  unfold Ctx.updateRound
  dsimp only
  split
  · split <;> rfl
  · rfl

theorem dropSchedGraph (x : Ctx) (g : Nat) : LaunchesKept x (x.dropSchedGraph g) := by
  unfold Ctx.dropSchedGraph
  split
  · split <;> rfl
  · rfl

theorem closeLevels (x : Ctx) (g ph : Nat) : LaunchesKept x (x.closeLevels g ph) := by
  unfold Ctx.closeLevels
  dsimp only
  split_ifs
  · exact dropSchedGraph _ _
  · exact dropSchedGraph _ _
  · rfl
  · rfl

end LaunchesKept

/-- The table of launches once one has ended: a launch that stood for a lost task and was never placed leaves it to another (R293, R305). -/
def endedLaunches (t : Tab Launch) (id : Nat) (l : Launch) : Tab Launch :=
  let t := tabSet t id { l with state := 4, counter := 0, site := none }
  if l.state = 3 then t else t.map fun e => if e.2.replacedBy = some id then (e.1, { e.2 with replacedBy := none }) else e

theorem endedLaunches_self (t : Tab Launch) (id : Nat) (l : Launch) :
    ∃ m, tabGet? (endedLaunches t id l) id = some m ∧ m.state = 4 ∧ m.code = l.code := by
  unfold endedLaunches
  dsimp only
  split
  · exact ⟨_, tabGet?_set_self _ _ _, rfl, rfl⟩
  · rw [tabGet?_map (fun e => by split <;> rfl), tabGet?_set_self]
    refine ⟨_, rfl, ?_⟩
    dsimp only
    split <;> exact ⟨rfl, rfl⟩

theorem endedLaunches_other {t : Tab Launch} {id n : Nat} (l : Launch) {m : Launch} (hn : n ≠ id) (h : tabGet? t n = some m) :
    ∃ k, tabGet? (endedLaunches t id l) n = some k ∧ k.state = m.state ∧ k.code = m.code := by
  unfold endedLaunches
  dsimp only
  split
  · exact ⟨m, (tabGet?_set_other _ _ hn).trans h, rfl, rfl⟩
  · rw [tabGet?_map (fun e => by split <;> rfl), tabGet?_set_other _ _ hn, h]
    refine ⟨_, rfl, ?_⟩
    dsimp only
    split <;> exact ⟨rfl, rfl⟩

theorem LaunchesKept.ite {x y : Ctx} (h : LaunchesKept x y) (q : Prop) [Decidable q] : LaunchesKept x (if q then x else y) := by
  split
  · rfl
  · exact h

/-- A launch that had not ended ends (R293). -/
theorem State.launchEnd_live {s : State} {p id : Nat} {x : Ctx} {l : Launch} (ctx : s.ctx? p = some x) (hl : tabGet? x.launches id = some l)
    (live : l.state ≠ 4) (killed : Option Nat) :
    ∃ (y : Ctx) (h : HostPort), s.launchEnd p id killed = { s.setCtx p y with host := h, dispatch := true } ∧
      y.launches = endedLaunches x.launches id l := by
  have ends : ∃ y : Ctx, s.launchEnd p id killed =
      (if l.host then State.signalAfter { s.setCtx p y with dispatch := true } p (8 * p + 1) else { s.setCtx p y with dispatch := true }) ∧
      y.launches = endedLaunches x.launches id l := by
    simp only [State.launchEnd, ctx, hl, live, if_false]
    refine ⟨_, rfl, ?_⟩
    refine (LaunchesKept.closeLevels _ _ _).trans ?_
    refine ((LaunchesKept.updateRound _ _).ite _).trans ?_
    refine (LaunchesKept.unbind _ _ _ _ _).trans ?_
    have counted (z : Ctx) (graphs phases : Tab WorkLevel) (n : Nat) :
        LaunchesKept z (if l.code = 0 then z else { z with graphs := graphs, phases := phases, failures := n }) := by
      unfold LaunchesKept
      split <;> rfl
    refine (counted _ _ _ _).trans ?_
    unfold endedLaunches
    dsimp only
    split <;> rfl
  obtain ⟨y, e, launches⟩ := ends
  rw [e]
  split
  · obtain ⟨h, signalled⟩ := State.signalAfter_host { s.setCtx p y with dispatch := true } p (8 * p + 1)
    exact ⟨y, h, signalled, launches⟩
  · exact ⟨y, _, rfl, launches⟩

theorem State.launchEnd_over {s : State} {p id : Nat} {l : Launch} (h : s.launchOf p id = some l) (over_ : l.state = 4) (killed : Option Nat) :
    s.launchEnd p id killed = s := by
  obtain ⟨x, ctx, hl⟩ := Option.bind_eq_some_iff.mp h
  simp [State.launchEnd, ctx, hl, over_]

theorem State.launchEnd_workOnly (s : State) (p id : Nat) (killed : Option Nat) : WorkOnly s (s.launchEnd p id killed) := by
  cases h : s.launchOf p id with
  | none =>
    have same : s.launchEnd p id killed = s := by
      unfold State.launchEnd
      cases ctx : s.ctx? p with
      | none => rfl
      | some x =>
        have gone : tabGet? x.launches id = none := by simpa [State.launchOf, ctx] using h
        simp only [gone]
    rw [same]
    exact .refl s
  | some l =>
    by_cases over_ : l.state = 4
    · rw [State.launchEnd_over h over_]
      exact .refl s
    · obtain ⟨x, ctx, hl⟩ := Option.bind_eq_some_iff.mp h
      obtain ⟨y, hp, e, -⟩ := State.launchEnd_live ctx hl over_ killed
      rw [e]
      rfl

/-! ### A launch that has ended stays so (R293) -/

/-- A launch has ended with a code. -/
def State.Over (s : State) (p id code : Nat) : Prop := ∃ m, s.launchOf p id = some m ∧ m.state = 4 ∧ m.code = code

theorem State.launchOf_setCtx (s : State) (p id : Nat) (x : Ctx) : (s.setCtx p x).launchOf p id = tabGet? x.launches id := by
  simp [State.launchOf]

theorem State.Over.launchEnd {s : State} {p id code : Nat} (h : s.Over p id code) (n : Nat) (killed : Option Nat) :
    (s.launchEnd p n killed).Over p id code := by
  obtain ⟨m, hm, state, code'⟩ := h
  obtain ⟨x, ctx, hl⟩ := Option.bind_eq_some_iff.mp hm
  cases hn : tabGet? x.launches n with
  | none =>
    have same : s.launchEnd p n killed = s := by simp [State.launchEnd, ctx, hn]
    rw [same]
    exact ⟨m, hm, state, code'⟩
  | some l =>
    by_cases over_ : l.state = 4
    · rw [State.launchEnd_over (by simpa [State.launchOf, ctx] using hn) over_]
      exact ⟨m, hm, state, code'⟩
    · obtain ⟨y, hp, e, launches⟩ := State.launchEnd_live ctx hn over_ killed
      have other : id ≠ n := by
        rintro rfl
        rw [hl] at hn
        cases hn
        exact over_ state
      obtain ⟨k, hk, state_k, code_k⟩ := endedLaunches_other l other hl
      refine ⟨k, ?_, state_k.trans state, code_k.trans code'⟩
      rw [e]
      exact (State.launchOf_setCtx s p id y).trans (launches ▸ hk)

/-- A launch that has lost a unit: it keeps the first code that is not zero (R292, R293). -/
def Launch.lessUnit (l : Launch) (code : Nat) (pc : Addr) : Launch :=
  let m := if l.code = 0 ∧ code ≠ 0 then { l with code := code, pc := pc } else l
  { m with counter := m.counter - 1 }

theorem State.unitEnd_none {s : State} {p id : Nat} (h : s.launchOf p id = none) (code : Nat) (pc : Addr) (killed : Option Nat) :
    s.unitEnd p id code pc killed = s := by
  unfold State.unitEnd
  cases ctx : s.ctx? p with
  | none => rfl
  | some x =>
    have gone : tabGet? x.launches id = none := by simpa [State.launchOf, ctx] using h
    simp only [gone]

theorem State.unitEnd_eq {s : State} {p id : Nat} {x : Ctx} {l : Launch} (ctx : s.ctx? p = some x) (hl : tabGet? x.launches id = some l) (code : Nat)
    (pc : Addr) (killed : Option Nat) :
    s.unitEnd p id code pc killed =
      if (l.lessUnit code pc).counter = 0 then (s.setCtx p { x with launches := tabSet x.launches id (l.lessUnit code pc) }).launchEnd p id killed
      else { s.setCtx p { x with launches := tabSet x.launches id (l.lessUnit code pc) } with dispatch := true } := by
  simp only [State.unitEnd, ctx, hl]
  rfl

theorem State.unitEnd_workOnly (s : State) (p id code : Nat) (pc : Addr) (killed : Option Nat) : WorkOnly s (s.unitEnd p id code pc killed) := by
  cases h : s.launchOf p id with
  | none => rw [State.unitEnd_none h]; exact .refl s
  | some l =>
    obtain ⟨x, ctx, hl⟩ := Option.bind_eq_some_iff.mp h
    rw [State.unitEnd_eq ctx hl]
    split
    · exact (WorkOnly.setCtx s p _).trans (State.launchEnd_workOnly _ _ _ _)
    · rfl

/-- A unit of another launch may end, or of this one (R292). -/
theorem State.Over.unitEnd {s : State} {p id code : Nat} (h : s.Over p id code) (nonzero : code ≠ 0) (n : Nat) (k : Nat) (pc : Addr) (killed : Option Nat) :
    (s.unitEnd p n k pc killed).Over p id code := by
  cases hn : s.launchOf p n with
  | none => rw [State.unitEnd_none hn]; exact h
  | some l =>
    obtain ⟨m, hm, state, code'⟩ := h
    obtain ⟨x, ctx, hl⟩ := Option.bind_eq_some_iff.mp hn
    have hm : tabGet? x.launches id = some m := by simpa [State.launchOf, ctx] using hm
    have set : (s.setCtx p { x with launches := tabSet x.launches n (l.lessUnit k pc) }).Over p id code := by
      by_cases e : id = n
      · subst e
        rw [hl] at hm
        cases hm
        have kept : ¬(l.code = 0 ∧ k ≠ 0) := fun ⟨zero, _⟩ => nonzero (code'.symm.trans zero)
        refine ⟨l.lessUnit k pc, by rw [State.launchOf_setCtx]; exact tabGet?_set_self _ _ _, ?_, ?_⟩ <;>
          simp only [Launch.lessUnit, if_neg kept]
        · exact state
        · exact code'
      · refine ⟨m, ?_, state, code'⟩
        rw [State.launchOf_setCtx]
        exact (tabGet?_set_other _ _ e).trans hm
    rw [State.unitEnd_eq ctx hl]
    split
    · exact set.launchEnd n killed
    · exact set

/-- A launch counts one more unit (R138, R292). -/
theorem State.addUnit_some {s : State} {p id : Nat} {x : Ctx} {l : Launch} (ctx : s.ctx? p = some x) (hl : tabGet? x.launches id = some l) :
    s.addUnit p id = s.setCtx p { x with launches := tabSet x.launches id { l with counter := l.counter + 1 } } := by
  simp [State.addUnit, State.modCtx_some ctx, hl]

/-! ### Queues of launches (R292, R298) -/

/-- The head of a queue becomes HEAD; launches keep their units, states other than QUEUED and codes (R298). -/
theorem Ctx.promote_launch {x : Ctx} {id : Nat} {l : Launch} (q now : Nat) (hl : tabGet? x.launches id = some l) :
    ∃ m, tabGet? (x.promote q now).launches id = some m ∧ m.host = l.host ∧ m.counter = l.counter ∧ m.code = l.code ∧
      (l.state ≠ 0 → m.state = l.state) := by
  unfold Ctx.promote
  split
  · exact ⟨l, hl, rfl, rfl, rfl, fun _ => rfl⟩
  next k _ =>
    split
    next n hn =>
      split
      next queued =>
        by_cases e : id = k
        · subst e
          rw [hl] at hn
          cases hn
          exact ⟨_, tabGet?_set_self _ _ _, rfl, rfl, rfl, fun ne => absurd queued ne⟩
        · exact ⟨l, (tabGet?_set_other _ _ e).trans hl, rfl, rfl, rfl, fun _ => rfl⟩
      · exact ⟨l, hl, rfl, rfl, rfl, fun _ => rfl⟩
    · exact ⟨l, hl, rfl, rfl, rfl, fun _ => rfl⟩

theorem Ctx.promote_queues (x : Ctx) (q now : Nat) : (x.promote q now).queues = x.queues := by
  unfold Ctx.promote
  split
  · rfl
  · split
    · split <;> rfl
    · rfl

theorem Ctx.updateRound_queues (x : Ctx) (g : Nat) : (x.updateRound g).queues = x.queues := by
  unfold Ctx.updateRound
  dsimp only
  split
  · split <;> rfl
  · rfl

/-- A checked record is queued: its launch stands last in its queue, with its units to come (R292, R307). -/
theorem State.queueRecord_spec (s : State) (p : Nat) (x : Ctx) (r : Vec) (host : Bool) :
    ∃ (y : Ctx) (l : Launch), s.queueRecord p x r host = (x.freeId 65536 x.nextLaunch, { s.setCtx p y with dispatch := true }) ∧
      tabGet y.queues (recQueue r) [] = tabGet x.queues (recQueue r) [] ++ [x.freeId 65536 x.nextLaunch] ∧
      tabGet? y.launches (x.freeId 65536 x.nextLaunch) = some l ∧ l.host = host ∧ l.counter = recCores r * recThreads r := by
  obtain ⟨id, hid⟩ : ∃ id, id = x.freeId 65536 x.nextLaunch := ⟨_, rfl⟩
  obtain ⟨z, l, e, queues, launches, hostEq, counter⟩ : ∃ (z : Ctx) (l : Launch),
      s.queueRecord p x r host = (id, { s.setCtx p ((if recGraph r = 0 then z else z.updateRound (recGraph r)).promote (recQueue r) s.timeQ) with dispatch := true }) ∧
      z.queues = tabSet x.queues (recQueue r) (tabGet x.queues (recQueue r) [] ++ [id]) ∧ tabGet? z.launches id = some l ∧
      l.host = host ∧ l.counter = recCores r * recThreads r := by
    rw [hid]
    exact ⟨_, _, rfl, rfl, tabGet?_set_self _ _ _, rfl, rfl⟩
  obtain ⟨y, hy⟩ : ∃ y, y = (if recGraph r = 0 then z else z.updateRound (recGraph r)) := ⟨_, rfl⟩
  have launches_y : tabGet? y.launches id = some l := by
    rw [hy, LaunchesKept.ite (LaunchesKept.updateRound z (recGraph r)) _]
    exact launches
  have queues_y : y.queues = z.queues := by
    rw [hy]
    split
    · rfl
    · exact Ctx.updateRound_queues _ _
  obtain ⟨m, hm, host_m, counter_m, -⟩ := Ctx.promote_launch (recQueue r) s.timeQ launches_y
  refine ⟨y.promote (recQueue r) s.timeQ, m, ?_, ?_, ?_, host_m.trans hostEq, counter_m.trans counter⟩
  · rw [e, ← hy, ← hid]
  · rw [Ctx.promote_queues, queues_y, queues, ← hid]
    simp [tabGet]
  · rw [← hid]
    exact hm

/-! ### The end of a thread (R96, R193, R232) -/

/-- Streams that a thread held stop (R193). -/
theorem State.dropStreams_only (l : Tab Stream) (s : State) :
    l.foldl (fun s b => s.dropStream b.2) s = { s with active := (l.foldl (fun s b => s.dropStream b.2) s).active } := by
  induction l generalizing s with
  | nil => rfl
  | cons b l ih =>
    have one : s.dropStream b.2 = { s with active := (s.dropStream b.2).active } := by
      unfold State.dropStream
      split <;> rfl
    rw [List.foldl_cons, ih, one]

/-- What a thread's end leaves: its slot is FREE, and beside the threads only work has gone on. -/
structure ThreadEnds (s u : State) (c sl : Nat) : Prop where
  only : u = { s with threads := u.threads, ctxs := u.ctxs, cores := u.cores, host := u.host, dispatch := u.dispatch, active := u.active,
                      traps := u.traps, barriers := u.barriers, posts := u.posts }
  free : u.thread? c sl = none
  others : OtherThreads c sl s u

theorem mem_tabErase_other {α : Type} {t : Tab α} {k : Nat} {e : Nat × α} (h : e.1 ≠ k) : e ∈ tabErase t k ↔ e ∈ t := by
  induction t with
  | nil => rfl
  | cons d t ih =>
    simp only [tabErase]
    split
    next hk =>
      have ne : e ≠ d := by rintro rfl; exact h hk
      simp [ih, ne]
    · simp [ih]

theorem OtherThreads.freeSlot (s : State) (c sl : Nat) : OtherThreads c sl s (s.freeSlot c sl) :=
  ⟨fun _ hk => tabGet?_erase_other _ hk, fun _ he => mem_tabErase_other he⟩

theorem ThreadEnds.then_ {s u v : State} {c sl : Nat} (h : ThreadEnds s u c sl) (g : WorkOnly u v) : ThreadEnds s v c sl where
  only := by
    have first := h.only
    unfold WorkOnly at g
    rw [g, first]
  free := (g.thread? c sl).trans h.free
  others := h.others.trans (.of_same g.threads)

theorem ThreadEnds.regs {s u : State} {c sl : Nat} (h : ThreadEnds s u c sl) : NoReg s u := fun _ _ => by rw [h.only]; rfl
theorem ThreadEnds.memKept {s u : State} {c sl : Nat} (h : ThreadEnds s u c sl) : MemKept s u := fun _ => by rw [h.only]; rfl

/-- A thread in no gang with an empty buffer ends: its slot is freed before its unit ends, if it is one (R96). -/
theorem State.fxEnds_eq {s : State} {d : Done} {t : Thread} (h : s.thread? d.c d.sl = some t) (alone : t.coupled = false) (buffer : t.buffer = []) :
    ∃ u, ThreadEnds s u d.c d.sl ∧ u.ctxs = s.ctxs ∧
      s.fxEnds d = match (s.core d.c).part with
        | some p => if t.handler then { u with dispatch := true } else u.unitEnd p t.launch 0 0 none
        | none => u := by
  obtain ⟨s1, hs1⟩ : ∃ s1, s1 = s.stopInGang d.c d.sl false := ⟨_, rfl⟩
  have posts : s1 = { s with posts := s1.posts } := by rw [hs1]; exact State.stopInGang_alone h alone false
  have h1 : s1.thread? d.c d.sl = some t := by rw [posts]; exact h
  obtain ⟨s2, hs2⟩ : ∃ s2, s2 = t.streams.foldl (fun s b => s.dropStream b.2) s1 := ⟨_, rfl⟩
  have streams : s2 = { s1 with active := s2.active } := by rw [hs2]; exact State.dropStreams_only _ _
  have h2 : s2.thread? d.c d.sl = some t := by rw [streams]; exact h1
  obtain ⟨u, hu⟩ : ∃ u, u = (((s2.setThread d.c d.sl { t with streams := [] }).flushThread d.c t.uid).orphanPosts t.uid).freeSlot d.c d.sl := ⟨_, rfl⟩
  refine ⟨u, ⟨?_, ?_, ?_⟩, ?_, ?_⟩
  · rw [hu, streams, posts]
    rfl
  · rw [hu]
    exact tabGet?_erase_self _ _
  · have first : OtherThreads d.c d.sl s s2 := .of_same (by rw [streams, posts])
    have second : OtherThreads d.c d.sl s (((s2.setThread d.c d.sl { t with streams := [] }).flushThread d.c t.uid).orphanPosts t.uid) :=
      (first.trans (.setThread _ _)).trans (.of_same rfl)
    rw [hu]
    exact second.trans (.freeSlot _ _ _)
  · rw [hu, streams, posts]
    rfl
  · have part : (u.core d.c).part = (s.core d.c).part := by
      have flushed : u.core d.c = ((s2.setThread d.c d.sl { t with streams := [] }).flushThread d.c t.uid).core d.c := by rw [hu]; rfl
      rw [flushed, State.flushThread, State.core_modCore, if_pos rfl]
      rw [streams, posts]
      rfl
    have ended : ((((s1.commit d.c d.sl).releaseStreams d.c d.sl).flushThread d.c t.uid).orphanPosts t.uid).freeSlot d.c d.sl = u := by
      rw [State.commit, State.commitAs_empty h1 buffer, hu]
      simp only [State.releaseStreams, h1]
      rw [← hs2, State.modThread_some h2]
    rw [State.fxEnds, ← hs1]
    simp only [State.endThread, h1, ended, part] <;> rfl

/-- The same, when all that follows it is counted (R96, R292). -/
theorem State.fxEnds_threadEnds {s : State} {d : Done} {t : Thread} (h : s.thread? d.c d.sl = some t) (alone : t.coupled = false)
    (buffer : t.buffer = []) : ThreadEnds s (s.fxEnds d) d.c d.sl := by
  obtain ⟨u, ends, -, e⟩ := State.fxEnds_eq h alone buffer
  rw [e]
  split
  · split
    · exact ends.then_ rfl
    · exact ends.then_ (State.unitEnd_workOnly _ _ _ _ _ _)
  · exact ends

/-- A unit of a launch with others ends, and the last one (R292, R293). -/
theorem State.unitEnd_counts {s : State} {p id : Nat} {l : Launch} (h : s.launchOf p id = some l) (killed : Option Nat) :
    (2 ≤ l.counter → (s.unitEnd p id 0 0 killed).launchOf p id = some { l with counter := l.counter - 1 }) ∧
    (l.counter = 1 → l.state ≠ 4 → ∃ m, (s.unitEnd p id 0 0 killed).launchOf p id = some m ∧ m.state = 4 ∧ m.code = l.code) := by
  obtain ⟨x, ctx, hl⟩ := Option.bind_eq_some_iff.mp h
  have less : l.lessUnit 0 0 = { l with counter := l.counter - 1 } := by simp [Launch.lessUnit]
  rw [State.unitEnd_eq ctx hl, less]
  refine ⟨fun many => ?_, fun one live => ?_⟩
  · rw [if_neg (by show ¬l.counter - 1 = 0; omega)]
    exact (State.launchOf_setCtx s p id _).trans (tabGet?_set_self _ _ _)
  · rw [if_pos (by show l.counter - 1 = 0; omega)]
    obtain ⟨y, hp, e, launches⟩ := State.launchEnd_live (s := s.setCtx p { x with launches := tabSet x.launches id { l with counter := l.counter - 1 } })
      (State.ctx?_setCtx_self _ _ _) (tabGet?_set_self _ _ _) live killed
    rw [e]
    obtain ⟨m, hm, state, code⟩ := endedLaunches_self (tabSet x.launches id { l with counter := l.counter - 1 }) id { l with counter := l.counter - 1 }
    exact ⟨m, (State.launchOf_setCtx _ p id y).trans (launches ▸ hm), state, code⟩

end Sys2Proof.Machine
end

/-! PROOFS. O31, fifth part: fences that wait, FORK, JOIN, ENDS and LAUNCH (R93 to R96, R125, R292, R307). -/
section
namespace Sys2Proof.Slice0
open Sys2Proof.Machine
set_option Elab.async false

section
variable {s : State} {c sl : Nat} {t : Thread} {f : Flight}

/-- A fence that waits for loads stays in flight (R125). -/
theorem Completing.fenceStays (h : Completing s c sl t f) {k sc : Nat} (fx : f.fx = [.fence k sc]) (buffer : t.buffer = []) (hk : k ≤ 1)
    (load : ∃ a ∈ s.arrivals, a.uid = t.uid ∧ a.order < f.order) :
    ∃ u g, exec .instructionCompletion s = .next u ∧ u.thread? c sl = some { t with state := .inflight g, check := none } ∧
      g.fx = [.fenceWait k sc] ∧ u = { s with threads := u.threads } := by
  have held : (untracked s c sl t).holds (doneOf s c sl t f) (.fenceWait k sc) = true := by
    obtain ⟨a, ha, uid, order⟩ := load
    have waits : (s.arrivals.any fun a => a.uid == t.uid && decide (a.order < f.order)) = true := List.any_eq_true.mpr ⟨a, ha, by simp [uid, order]⟩
    change ((decide (k ≤ 1) && s.arrivals.any fun a => a.uid == t.uid && decide (a.order < f.order)) || _) = true
    rw [waits, decide_eq_true hk]
    rfl
  have keeps : (untracked s c sl t).keepFlying (doneOf s c sl t f) [.fenceWait k sc] =
      (untracked s c sl t).setThread c sl { t with check := none, state := .inflight { f with fx := [.fenceWait k sc], checked := true } } := by
    refine (State.modThread_some h.stillThere.slot _).trans ?_
    simp only [h.flying]
    rfl
  have ran : runEffects (doneOf s c sl t f) 8 f.fx (untracked s c sl t) none =
      { s := (untracked s c sl t).setThread c sl { t with check := none, state := .inflight { f with fx := [.fenceWait k sc], checked := true } }
        jump := none, goes := false } := by
    rw [fx, runEffects_cons rfl (h.fence_commits buffer k sc) rfl h.stillThere.stillFlying]
    simp only [List.cons_append, List.nil_append, Option.or_none]
    rw [runEffects_held held, keeps]
  have run := h.runs (by rw [fx, List.forall_mem_singleton]; rfl) (by rw [fx, List.forall_mem_singleton]; rfl) ran
  rw [untracked, State.setThread_setThread] at run
  exact ⟨_, _, run, State.thread?_setThread_self _ _ _ _, rfl, rfl⟩

/-! ### FORK (R93, R292) -/

/-- FORK pushes a unit, which its launch counts. -/
theorem Completing.forks (h : Completing s c sl t f) (one : Single t f) {arm : Addr} {a : Word} {l : Launch} (fx : f.fx = [.fork arm a])
    (buffer : t.buffer = []) (launch : s.launchOf (((s.core c).part).getD 0) t.launch = some l) (strands : recStrands l.record = true)
    (worker : t.handler = false) (room : (s.core c).deque.length < 64) :
    ∃ u, exec .instructionCompletion s = .next u ∧ u.thread? c sl = some (goneOn s t f) ∧
      (u.core c).deque = { arm := arm, counter := a.setWidth 48, base := t.base, size := t.size, part := ((s.core c).part).getD 0, launch := t.launch, core := c } ::
        (s.core c).deque ∧
      u.launchOf (((s.core c).part).getD 0) t.launch = some { l with counter := l.counter + 1 } ∧ NoReg s u ∧ OnlyThread s u c sl := by
  obtain ⟨x, ctx, hl⟩ := Option.bind_eq_some_iff.mp launch
  have pushes : (untracked s c sl t).forkPushes (doneOf s c sl t f) = true := by
    change ((match s.launchOf (((s.core c).part).getD 0) t.launch with | some l => recStrands l.record | none => false) && !t.handler &&
      decide ((s.core c).deque.length < 64)) = true
    simp [launch, strands, worker, room]
  obtain ⟨e, he⟩ : ∃ e : Strand, e = { arm := arm, counter := a.setWidth 48, base := t.base, size := t.size, part := ((s.core c).part).getD 0, launch := t.launch, core := c } := ⟨_, rfl⟩
  obtain ⟨w, hw⟩ : ∃ w, w = ((untracked s c sl t).modCore c fun k => { k with deque := e :: k.deque }).setCtx (((s.core c).part).getD 0)
    { x with launches := tabSet x.launches t.launch { l with counter := l.counter + 1 } } := ⟨_, rfl⟩
  have does : (untracked s c sl t).effect (doneOf s c sl t f) (.fork arm a) = .done w := by
    change (untracked s c sl t).fxFork (doneOf s c sl t f) arm a = _
    rw [State.fxFork, if_pos pushes, hw, he]
    exact congrArg Out.done (State.addUnit_some (s := (untracked s c sl t).modCore c fun k => { k with deque := _ :: k.deque }) ctx hl)
  have there : StillThere w (doneOf s c sl t f) { t with check := none } := ⟨by rw [hw]; exact h.stillThere.slot, h.flying, rfl, h.alone, h.ordinary⟩
  refine ⟨_, h.single fx rfl rfl rfl does there (.inl buffer), ?_, ?_, ?_, ?_, ?_⟩
  · exact (State.thread?_setThread_self _ _ _ _).trans (congrArg some (onward_goneOn h one _ (by rw [hw]; rfl)))
  · rw [← he, hw]
    exact congrArg Core.deque (State.core_setCore_self _ _ _)
  · rw [hw]
    exact (State.launchOf_setCtx _ _ _ _).trans (tabGet?_set_self _ _ _)
  · intro _ _
    rw [hw]
    rfl
  · refine onlyThread_of h ?_ fun _ => by rw [hw]; rfl
    have first : OtherThreads c sl s w := (OtherThreads.setThread s _).trans (.of_same (by rw [hw]; rfl))
    exact first.trans (.setThread _ _)

/-- Or it takes the arm as a call (R93). -/
theorem Completing.forksInline (h : Completing s c sl t f) (one : Single t f) {arm : Addr} {a : Word} {l : Launch} (fx : f.fx = [.fork arm a])
    (buffer : t.buffer = []) (launch : s.launchOf (((s.core c).part).getD 0) t.launch = some l)
    (full : recStrands l.record = false ∨ t.handler = true ∨ 64 ≤ (s.core c).deque.length) :
    ∃ u, exec .instructionCompletion s = .next u ∧
      u.thread? c sl = some { goneOn s t f with pc := arm, lk := f.next, forkInline := true, kept := true } ∧
      u = { s with threads := u.threads } ∧ OnlyThread s u c sl := by
  have pushes : (untracked s c sl t).forkPushes (doneOf s c sl t f) = false := by
    change ((match s.launchOf (((s.core c).part).getD 0) t.launch with | some l => recStrands l.record | none => false) && !t.handler &&
      decide ((s.core c).deque.length < 64)) = false
    rcases full with e | e | e <;> simp [launch, e]
  have does : (untracked s c sl t).effect (doneOf s c sl t f) (.fork arm a) =
      { s := (untracked s c sl t).setThread c sl { t with check := none, lk := f.next, forkInline := true }, jump := some arm, more := [], stays := false } := by
    change (untracked s c sl t).fxFork (doneOf s c sl t f) arm a = _
    rw [State.fxFork, if_neg (by simp [pushes])]
    have call := State.modThread_some h.stillThere.slot fun t => { t with lk := f.next, forkInline := true }
    exact congrArg (fun u : State => ({ s := u, jump := some arm, more := [], stays := false } : Out)) call
  have value : (doneOf s c sl t f).onward s.cycle (some arm) { t with check := none, lk := f.next, forkInline := true } =
      { goneOn s t f with pc := arm, lk := f.next, forkInline := true, kept := true } := by
    rw [onward_single one (by rfl) (by rfl)]
    simp [goneOn, h.ordinary, fx, Effect.isFork]
  exact h.threadOnly fx rfl rfl rfl does h.flying rfl h.alone h.ordinary buffer value

/-! ### ENDS (R96) -/

theorem Completing.ends (h : Completing s c sl t f) (fx : f.fx = [.ends]) (buffer : t.buffer = []) :
    ∃ u, exec .instructionCompletion s = .next u ∧ u.thread? c sl = none ∧ NoReg s u ∧ OnlyThread s u c sl ∧
      ∀ l, (s.core c).part = some (((s.core c).part).getD 0) → t.handler = false → s.launchOf (((s.core c).part).getD 0) t.launch = some l →
        (2 ≤ l.counter → u.launchOf (((s.core c).part).getD 0) t.launch = some { l with counter := l.counter - 1 }) ∧
        (l.counter = 1 → l.state ≠ 4 → (u.launchOf (((s.core c).part).getD 0) t.launch).map (fun m => (m.state, m.code)) = some (4, l.code)) := by
  have ended := State.fxEnds_threadEnds (d := doneOf s c sl t f) h.stillThere.slot h.alone buffer
  refine ⟨_, h.gone fx rfl rfl rfl rfl ended.free, ended.free, ended.regs, ?_, fun l held worker launch => ?_⟩
  · exact onlyThread_of h ((OtherThreads.setThread s _).trans ended.others) ended.memKept
  · obtain ⟨u, -, ctxs, e⟩ := State.fxEnds_eq (d := doneOf s c sl t f) h.stillThere.slot h.alone buffer
    have unit : (untracked s c sl t).fxEnds (doneOf s c sl t f) = u.unitEnd (((s.core c).part).getD 0) t.launch 0 0 none := by
      rw [e]
      change (match (s.core c).part with | some p => if t.handler = true then _ else u.unitEnd p t.launch 0 0 none | none => u) = _
      rw [held]
      simp [worker]
    have before : u.launchOf (((s.core c).part).getD 0) t.launch = some l := by
      rw [← launch, State.launchOf, State.ctx?, ctxs]
      rfl
    obtain ⟨many, last⟩ := State.unitEnd_counts before none
    change (2 ≤ l.counter → State.launchOf ((untracked s c sl t).fxEnds (doneOf s c sl t f)) _ _ = _) ∧
      (_ → _ → Option.map _ (State.launchOf ((untracked s c sl t).fxEnds (doneOf s c sl t f)) _ _) = _)
    rw [unit]
    refine ⟨many, fun one live => ?_⟩
    obtain ⟨m, hm, state, code⟩ := last one live
    rw [hm, Option.map_some, state, code]

/-! ### JOIN (R95) -/

/-- Tests of the threads that do not look at the checker's track find none of it. -/
theorem untracked_pickThreads (h : Completing s c sl t f) {g : Thread → Bool} (same : g { t with check := none } = g t) {p : Nat}
    (none_ : s.pickThreads p g = []) : (untracked s c sl t).pickThreads p g = [] := by
  simp only [State.pickThreads, List.map_eq_nil_iff, List.filter_eq_nil_iff] at none_ ⊢
  intro e he
  rcases mem_tabSet he with rfl | he
  · have old := none_ _ (mem_of_tabGet? h.slot)
    rw [same]
    exact old
  · exact none_ e he

theorem untracked_rangeHeld (h : Completing s c sl t f) {p : Nat} {vas : List Nat} {n : Nat} (free : s.rangeHeld p vas n = false) :
    (untracked s c sl t).rangeHeld p vas n = false := by
  simp only [State.rangeHeld, Bool.not_eq_false', List.isEmpty_iff] at free ⊢
  exact untracked_pickThreads h rfl free

theorem fxChecks_ok {u : State} {d : Done} {vas homes : List Nat} {n : Nat} {k : Kind} (ok : u.checkAll d.c d.p vas n k true = .ok homes) :
    u.fxChecks d vas n k = .ok homes := by simp [State.fxChecks, ok]

/-- A JOIN whose counter answers decrements it, and ends its thread unless it reached zero (R95). -/
theorem fxJoin_eq {u : State} {d : Done} {a : Word} {home : Nat} (checks : u.fxChecks d [a.toNat] 8 2 = .ok [home])
    (released : u.releaseAt d.c d.sl (atomicScope [home]) = u) (lost : u.homeLost (eight home) = none) (bad : u.badScratch (eight home) = none) :
    ∃ w, Stored u w home (BitVec.ofNat 64 (bytesNat (u.homeBytes home 8)) + -1) ∧
      u.fxJoin d a = if widen (BitVec.ofNat 64 (bytesNat (u.homeBytes home 8))) = 1 then w else w.fxEnds d := by
  obtain ⟨w, performs, stored⟩ := State.perform_atomic (fun _ => none) .add (-1) 0 lost bad
  refine ⟨w, stored, ?_⟩
  simp only [State.fxJoin, checks, released, List.headD_cons, performs]

theorem bytesNat_lt (l : List Byte) : bytesNat l < 2 ^ (8 * l.length) := by
  induction l with
  | nil => decide
  | cons b l ih =>
    have e : bytesNat (b :: l) = b.toNat + 256 * bytesNat l := rfl
    have byte := b.isLt
    rw [e, List.length_cons, show 8 * (l.length + 1) = 8 * l.length + 8 by omega, Nat.pow_add]
    omega

/-- The counter read one exactly where its value is one. -/
theorem widen_eq_one {n : Nat} (h : n < 2 ^ 64) : widen (BitVec.ofNat 64 n) = 1 ↔ n = 1 := by
  have value : (widen (BitVec.ofNat 64 n)).toNat = n := by
    rw [widen, BitVec.toNat_setWidth, BitVec.toNat_ofNat]
    omega
  have one : (1 : Vec).toNat = 1 := BitVec.toNat_one (by decide)
  rw [← BitVec.toNat_inj, value, one]

theorem ofNat_pred (n : Nat) : BitVec.ofNat 64 n + -1 = BitVec.ofInt 64 ((n : Int) - 1) := by
  rw [Int.sub_eq_add_neg, BitVec.ofInt_add, BitVec.ofInt_natCast]
  rfl

theorem Completing.joins (h : Completing s c sl t f) (one : Single t f) (owed : NothingOwed s t) {a : Word} {home : Nat} (fx : f.fx = [.join a])
    (free : s.rangeHeld (((s.core c).part).getD 0) [a.toNat] 8 = false)
    (checks : s.checkAll c (((s.core c).part).getD 0) [a.toNat] 8 2 true = .ok [home]) (lost : s.homeLost (eight home) = none)
    (bad : s.badScratch (eight home) = none) :
    ∃ u, exec .instructionCompletion s = .next u ∧ NoReg s u ∧
      u.homeBytes home 8 = natBytes 8 (BitVec.ofInt 64 ((bytesNat (s.homeBytes home 8) : Int) - 1)).toNat ∧
      (∀ y, (y < home ∨ home + 8 ≤ y) → u.homeByte y = s.homeByte y) ∧
      (bytesNat (s.homeBytes home 8) = 1 → u.thread? c sl = some (goneOn s t f)) ∧ (bytesNat (s.homeBytes home 8) ≠ 1 → u.thread? c sl = none) := by
  have ok : s.fxChecks (doneOf s c sl t f) [a.toNat] 8 2 = .ok [home] := fxChecks_ok checks
  have untrapped : s.fxTrap (doneOf s c sl t f) (.join a) = none := by
    have released : s.releaseAt c sl (atomicScope [home]) = s := State.releaseAt_nothing h.slot owed _
    simp only [State.fxTrap, ok]
    change (if ((s.releaseAt c sl (atomicScope [home])).homeLost (eight home)).isSome = true then _ else _) = _
    rw [released, lost]
    rfl
  have ok' : (untracked s c sl t).fxChecks (doneOf s c sl t f) [a.toNat] 8 2 = .ok [home] := fxChecks_ok checks
  obtain ⟨w, stored, does⟩ := fxJoin_eq ok' (h.release_nothing owed _) lost bad
  have small : bytesNat (s.homeBytes home 8) < 2 ^ 64 := by
    have := bytesNat_lt (s.homeBytes home 8)
    rwa [State.homeBytes_length] at this
  have slot : w.thread? c sl = some { t with check := none } := by rw [stored.only]; exact h.stillThere.slot
  have there_w : w.homeBytes home 8 = natBytes 8 (BitVec.ofInt 64 ((bytesNat (s.homeBytes home 8) : Int) - 1)).toNat := by
    rw [← ofNat_pred]
    exact stored.there
  have regs_w : NoReg s w := fun _ _ => by rw [stored.only]; rfl
  have free' : (untracked s c sl t).holds (doneOf s c sl t f) (.join a) = false := untracked_rangeHeld h free
  change State.fxJoin _ _ _ = if widen (BitVec.ofNat 64 (bytesNat (s.homeBytes home 8))) = 1 then w else _ at does
  by_cases last : bytesNat (s.homeBytes home 8) = 1
  · rw [if_pos ((widen_eq_one small).mpr last)] at does
    have there : StillThere w (doneOf s c sl t f) { t with check := none } := ⟨slot, h.flying, rfl, h.alone, h.ordinary⟩
    refine ⟨_, h.single fx free untrapped free' (congrArg Out.done does) there (.inl owed.buffer), fun c' n => regs_w c' n, there_w, stored.frame,
      fun _ => ?_, fun ne => absurd last ne⟩
    exact (State.thread?_setThread_self _ _ _ _).trans (congrArg some (onward_goneOn h one _ (by rw [stored.only]; rfl)))
  · rw [if_neg fun e => last ((widen_eq_one small).mp e)] at does
    have ended := State.fxEnds_threadEnds (s := w) (d := doneOf s c sl t f) slot h.alone owed.buffer
    refine ⟨_, h.gone fx free untrapped free' (congrArg Out.done does) ended.free, fun c' n => (ended.regs c' n).trans (regs_w c' n),
      (ended.memKept.homeBytes home 8).trans there_w, fun y hy => (ended.memKept y).trans (stored.frame y hy), fun e => absurd e last, fun _ => ended.free⟩

/-! ### LAUNCH (R292, R295, R307) -/

/-- A record that its checks refuse gives the status that they find (R307). -/
theorem fxLaunch_refused {u : State} {d : Done} {x : Ctx} {rd : Nat} {record : Vec} (ctx : u.ctx? d.p = some x) (bad : u.checkRecord d.p x record ≠ 0) :
    u.fxLaunch d rd record = u.putNat d rd (u.checkRecord d.p x record) := by simp [State.fxLaunch, ctx, bad]

/-- A record that passes them is queued (R307). -/
theorem fxLaunch_queued {u w : State} {d : Done} {x : Ctx} {rd id : Nat} {record : Vec} (ctx : u.ctx? d.p = some x)
    (good : u.checkRecord d.p x record = 0) (released : u.release d.c d.sl = u) (queued : u.queueRecord d.p x record false = (id, w)) :
    u.fxLaunch d rd record = w.putNat d rd (id * 2 ^ 16) := by simp only [State.fxLaunch, ctx, good, ne_eq, not_true, if_false, released, queued]

theorem Completing.launchRefused (h : Completing s c sl t f) (one : Single t f) (buffer : t.buffer = []) {rd : Nat} {record : Vec} {x : Ctx}
    (fx : f.fx = [.launch rd record]) (hrd : rd < 2048) (prevails : Prevails s c rd f.order) (ctx : s.ctx? (((s.core c).part).getD 0) = some x)
    (bad : s.checkRecord (((s.core c).part).getD 0) x record ≠ 0) :
    ∃ u, exec .instructionCompletion s = .next u ∧ u.thread? c sl = some (goneOn s t f) ∧
      OnlyReg s u c rd (BitVec.ofNat 512 (s.checkRecord (((s.core c).part).getD 0) x record)) ∧
      u = { s with threads := u.threads, regs := u.regs, wrote := u.wrote } := by
  have free (u : State) (ctx_u : u.ctx? (((s.core c).part).getD 0) = some x)
      (same : u.checkRecord (((s.core c).part).getD 0) x record = s.checkRecord (((s.core c).part).getD 0) x record) :
      u.holds (doneOf s c sl t f) (.launch rd record) = false := by
    change (match u.ctx? (((s.core c).part).getD 0) with
      | some x => u.checkRecord (((s.core c).part).getD 0) x record == 0 && _ && _
      | none => false) = false
    rw [ctx_u]
    simp [same, bad]
  have does : (untracked s c sl t).effect (doneOf s c sl t f) (.launch rd record) =
      .done ((untracked s c sl t).putNat (doneOf s c sl t f) rd (s.checkRecord (((s.core c).part).getD 0) x record)) := by
    exact congrArg Out.done (fxLaunch_refused (u := untracked s c sl t) (d := doneOf s c sl t f) ctx bad)
  obtain ⟨u, run, thread, reg, -, only⟩ := h.numbers one buffer fx (free s ctx rfl) rfl (free _ ctx rfl) h.prepared does hrd prevails
  exact ⟨u, run, thread, reg, only⟩

theorem Completing.launches (h : Completing s c sl t f) (one : Single t f) (owed : NothingOwed s t) {rd : Nat} {record : Vec} {x : Ctx}
    (fx : f.fx = [.launch rd record]) (hrd : rd < 2048) (prevails : Prevails s c rd f.order) (ctx : s.ctx? (((s.core c).part).getD 0) = some x)
    (good : s.checkRecord (((s.core c).part).getD 0) x record = 0) (room : (tabGet x.queues (recQueue record) []).length < 64) :
    ∃ u y id l, exec .instructionCompletion s = .next u ∧ u.thread? c sl = some (goneOn s t f) ∧ OnlyReg s u c rd (BitVec.ofNat 512 (id * 2 ^ 16)) ∧
      u.ctx? (((s.core c).part).getD 0) = some y ∧ tabGet y.queues (recQueue record) [] = tabGet x.queues (recQueue record) [] ++ [id] ∧
      tabGet? y.launches id = some l ∧ l.host = false ∧ l.counter = recCores record * recThreads record ∧ u.dispatch = true := by
  have free (u : State) (ctx_u : u.ctx? (((s.core c).part).getD 0) = some x) : u.holds (doneOf s c sl t f) (.launch rd record) = false := by
    change (match u.ctx? (((s.core c).part).getD 0) with
      | some x => _ && decide (64 ≤ (tabGet x.queues (recQueue record) []).length) && _
      | none => false) = false
    rw [ctx_u]
    simp [Nat.not_le.mpr room]
  obtain ⟨y, l, queued, queue, launch, host, counter⟩ := (untracked s c sl t).queueRecord_spec (((s.core c).part).getD 0) x record false
  have does : (untracked s c sl t).effect (doneOf s c sl t f) (.launch rd record) =
      .done (State.putNat { (untracked s c sl t).setCtx (((s.core c).part).getD 0) y with dispatch := true } (doneOf s c sl t f) rd
        (x.freeId 65536 x.nextLaunch * 2 ^ 16)) := by
    exact congrArg Out.done (fxLaunch_queued (u := untracked s c sl t) (d := doneOf s c sl t f) ctx good (h.release_nothing owed 5) queued)
  have prep : Prepared s { (untracked s c sl t).setCtx (((s.core c).part).getD 0) y with dispatch := true } c sl t :=
    ⟨h.stillThere.slot, (OtherThreads.setThread s _).trans (.of_same rfl), fun _ => rfl, rfl, rfl, rfl⟩
  obtain ⟨u, run, thread, reg, -, only⟩ := h.numbers one owed.buffer fx (free s ctx) rfl (free _ ctx) prep does hrd prevails
  refine ⟨u, y, _, l, run, thread, reg, ?_, queue, launch, host, counter, by rw [only]⟩
  rw [only]
  exact State.ctx?_setCtx_self _ _ _

end

end Sys2Proof.Slice0
end

/-! PROOFS. O31, last part: CANCEL (R308), and the obligation. -/
section
namespace Sys2Proof.Machine
open Sys2Proof.Slice0
set_option Elab.async false

/-! ### Steps that keep a launch ended (R293) -/

/-- Work alone goes on, and a launch that had ended with a code has still ended with it. -/
structure EndKept (p id code : Nat) (s u : State) : Prop where
  work : WorkOnly s u
  over_ : s.Over p id code → u.Over p id code

namespace EndKept
variable {p id code : Nat}

theorem refl (s : State) : EndKept p id code s s := ⟨.refl s, fun h => h⟩
theorem trans {s u v : State} (h : EndKept p id code s u) (g : EndKept p id code u v) : EndKept p id code s v :=
  ⟨h.work.trans g.work, fun o => g.over_ (h.over_ o)⟩
theorem foldl {α : Type} {f : State → α → State} (hf : ∀ s a, EndKept p id code s (f s a)) (l : List α) (s : State) :
    EndKept p id code s (l.foldl f s) := by
  induction l generalizing s with
  | nil => exact refl s
  | cons a l ih => exact (hf s a).trans (ih _)
theorem of_launchOf {s u : State} (work : WorkOnly s u) (same : u.launchOf p id = s.launchOf p id) : EndKept p id code s u :=
  ⟨work, fun h => by rwa [State.Over, same]⟩
theorem of_ctxs {s u : State} (work : WorkOnly s u) (same : u.ctxs = s.ctxs) : EndKept p id code s u :=
  of_launchOf work (by rw [State.launchOf, State.ctx?, same]; rfl)

theorem setCtx {s : State} {x y : Ctx} (ctx : s.ctx? p = some x) (launches : LaunchesKept x y) : EndKept p id code s (s.setCtx p y) :=
  of_launchOf (.setCtx s p y) (by rw [State.launchOf_setCtx, launches]; simp [State.launchOf, ctx])

theorem unitEnd (nonzero : code ≠ 0) (s : State) (n k : Nat) (pc : Addr) (killed : Option Nat) : EndKept p id code s (s.unitEnd p n k pc killed) :=
  ⟨State.unitEnd_workOnly _ _ _ _ _ _, fun h => h.unitEnd nonzero n k pc killed⟩

/-- Strands of cancelled launches leave the deques; each was a unit (R292, R308). -/
theorem dropStrands (nonzero : code ≠ 0) (s : State) (ids : List Nat) (k : Nat) : EndKept p id code s (s.dropStrands p ids k) := by
  refine foldl (fun s c => ?_) _ s
  exact (of_ctxs (.modCore s c _) rfl).trans (foldl (fun s d => unitEnd nonzero s _ _ _ _) _ _)

/-- Their commands are marked (R308). -/
theorem cancelCommands (s : State) (ids : List Nat) : EndKept p id code s (s.cancelCommands p ids) := by
  refine of_launchOf rfl ?_
  simp only [State.launchOf, State.ctx?, State.cancelCommands]
  rw [tabGet?_map (fun e => by split <;> rfl)]
  cases tabGet? s.ctxs p with
  | none => rfl
  | some x => simp

/-- A saved unit of theirs is discarded (R308). -/
theorem discardSaved (nonzero : code ≠ 0) (s : State) (record k : Nat) (gone : Bool) : EndKept p id code s (s.discardSaved p record k gone) := by
  unfold State.discardSaved
  split
  · exact refl s
  next x ctx =>
    split
    · exact refl s
    next v _ =>
      obtain ⟨s1, hs1⟩ : ∃ s1, s1 = if gone = true then s.markGone v.thread.uid else s := ⟨_, rfl⟩
      obtain ⟨s2, hs2⟩ : ∃ s2, s2 = v.thread.streams.foldl (fun s b => s.dropStream b.2) s1 := ⟨_, rfl⟩
      have marked : s1 = { s with barriers := s1.barriers } := by
        rw [hs1]
        split <;> rfl
      have dropped : s2 = { s1 with active := s2.active } := by rw [hs2]; exact State.dropStreams_only _ _
      have quiet : EndKept p id code s s2 := by
        refine of_ctxs ?_ ?_ <;> rw [dropped, marked]
        rfl
      have ctx2 : s2.ctx? p = some x := by
        rw [dropped, marked]
        exact ctx
      simp only [← hs1, ← hs2]
      have out : EndKept p id code s2 { s2.setCtx p { x with saved := x.saved.filter fun w => w.record != record } with
          traps := s2.traps.filter fun r => r.uid != v.thread.uid } := (setCtx ctx2 (by rfl)).trans (of_ctxs rfl rfl)
      split
      · exact quiet.trans out
      · exact (quiet.trans out).trans (unitEnd nonzero _ _ _ _ _)

end EndKept

/-! ### The live launches of a level (R292) -/

/-- A table's entries with a key, where its keys rise, are the one that it holds for it. -/
theorem tabSorted_filter_key {α : Type} {t : Tab α} {k : Nat} {v : α} (sorted : tabSorted t = true) (h : tabGet? t k = some v) {q : Nat × α → Bool}
    (hq : q (k, v) = true) : (t.filter fun e => q e && e.1 == k) = [(k, v)] := by
  induction t with
  | nil => cases h
  | cons e t ih =>
    obtain ⟨k', w⟩ := e
    obtain ⟨sorted', above⟩ := tabSorted_cons.mp sorted
    by_cases e : k' = k
    · subst e
      obtain rfl : w = v := by simpa [tabGet?] using h
      have rest : (t.filter fun e => q e && e.1 == k') = [] := by
        rw [List.filter_eq_nil_iff]
        intro e he
        have := above e he
        simp [Nat.ne_of_gt this]
      rw [List.filter_cons_of_pos (by simp [hq]), rest]
    · rw [List.filter_cons_of_neg (by simp [e])]
      exact ih sorted' (by simpa [tabGet?, e] using h)

theorem Ctx.liveOf_launch {x : Ctx} {id : Nat} {l : Launch} (sorted : tabSorted x.launches = true) (hl : tabGet? x.launches id = some l)
    (live : l.state ≠ 4) : x.liveOf 0 id = [id] := by
  have one := tabSorted_filter_key sorted hl (q := fun e => e.2.state != 4) (by simp [live])
  simp only [Ctx.liveOf]
  rw [one]
  rfl

theorem State.pickThreads_none {s : State} {p : Nat} {g : Thread → Bool} (h : ∀ e ∈ s.threads, g e.2 = false) : s.pickThreads p g = [] := by
  rw [State.pickThreads, List.map_eq_nil_iff, List.filter_eq_nil_iff]
  intro e he
  simp [h e he]

/-! ### CANCEL of a launch that has not started (R308) -/

/-- Where no thread is a unit of the launches, those swapped out alone are stopped (R308). -/
theorem EndKept.stopUnits {p id code : Nat} (nonzero : code ≠ 0) {s : State} {ids : List Nat} (none_ : ∀ e ∈ s.threads, e.2.launch ∉ ids) (k : Nat)
    (gone : Bool) (self : Option Nat) : EndKept p id code s (s.stopUnits p ids k gone self) := by
  have idle : (s.pickThreads p fun t => ids.contains t.launch && !t.handler && some t.uid != self && !t.state.isLeaving && !t.willStop) = [] :=
    State.pickThreads_none fun e he => by simp [none_ e he]
  rw [State.stopUnits]
  simp only [idle, List.foldl_nil]
  exact foldl (fun s r => discardSaved nonzero s r k gone) _ s

/-- The first of what CANCEL does to a launch that has not started: it leaves its queue and ends with the code (R293, R308). -/
def State.endQueued (s : State) (p id : Nat) (x : Ctx) (q now : Nat) : State := ((s.setCtx p x).launchEnd p id none).modCtx p fun x => x.promote q now

theorem State.endQueued_workOnly (s : State) (p id : Nat) (x : Ctx) (q now : Nat) : WorkOnly s (s.endQueued p id x q now) :=
  ((WorkOnly.setCtx s p x).trans (State.launchEnd_workOnly _ _ _ _)).trans (.modCtx _ _ _)

theorem State.endQueued_over {s : State} {p id : Nat} {x : Ctx} {l : Launch} (hl : tabGet? x.launches id = some l) (live : l.state ≠ 4) (q now : Nat) :
    (s.endQueued p id x q now).Over p id l.code := by
  obtain ⟨y, hp, ended, launches⟩ := State.launchEnd_live (State.ctx?_setCtx_self s p x) hl live none
  obtain ⟨m, hm, state, code_m⟩ := endedLaunches_self x.launches id l
  obtain ⟨k, hk, -, -, code_k, state_k⟩ := Ctx.promote_launch q now (launches ▸ hm)
  have ctx : ((s.setCtx p x).launchEnd p id none).ctx? p = some y := by
    rw [ended]
    exact State.ctx?_setCtx_self _ _ _
  refine ⟨k, ?_, (state_k (by rw [state]; decide)).trans state, code_k.trans code_m⟩
  rw [State.endQueued, State.modCtx_some ctx, State.launchOf_setCtx]
  exact hk

theorem State.cancelLaunches_queued {s : State} {p id : Nat} {x : Ctx} {l : Launch} (ctx : s.ctx? p = some x) (hl : tabGet? x.launches id = some l)
    (waits : l.state < 3) (code : Nat) (self : Option Nat) :
    ∃ (y : Ctx) (now : Nat), tabGet? y.launches id = some { l with code := code, dying := some (code, true) } ∧
      s.cancelLaunches p [id] code self =
        (((s.endQueued p id y (recQueue l.record) now).dropStrands p [id] code).cancelCommands p [id]).stopUnits p [id] code true self := by
  have found : ((s.ctx? p).bind fun x => (tabGet? x.launches id).map fun l => (x, l)) = some (x, l) := by simp [ctx, hl]
  simp only [State.cancelLaunches, List.foldl_cons, List.foldl_nil, found, decide_eq_true waits, if_true]
  exact ⟨_, _, tabGet?_set_self _ _ _, rfl⟩

/-- A launch that has not started ends at once with its code (R293, R308). -/
theorem State.cancelLaunches_over {s : State} {p id code : Nat} (nonzero : code ≠ 0) {x : Ctx} {l : Launch} (ctx : s.ctx? p = some x)
    (hl : tabGet? x.launches id = some l) (waits : l.state < 3) (none_ : ∀ e ∈ s.threads, e.2.launch ≠ id) (self : Option Nat) :
    WorkOnly s (s.cancelLaunches p [id] code self) ∧ (s.cancelLaunches p [id] code self).Over p id code := by
  obtain ⟨y, now, launch, e⟩ := State.cancelLaunches_queued ctx hl waits code self
  have work := s.endQueued_workOnly p id y (recQueue l.record) now
  have over_ := State.endQueued_over (s := s) (p := p) launch (show l.state ≠ 4 by omega) (recQueue l.record) now
  rw [e]
  generalize s.endQueued p id y (recQueue l.record) now = u at work over_
  have dropped := (EndKept.dropStrands (p := p) (id := id) nonzero u [id] code).trans (.cancelCommands _ [id])
  have rest := dropped.trans (EndKept.stopUnits nonzero (ids := [id]) (by
    rw [dropped.work.threads, work.threads]
    exact fun e he => by simpa using none_ e he) code true self)
  exact ⟨work.trans rest.work, rest.over_ over_⟩

/-- Outside a graph's cancel the launches are marked alone (R311). -/
theorem EndKept.detachGraphs {p id code : Nat} (s : State) (ids : List Nat) : EndKept p id code s (s.modCtx p fun x => x.detachGraphs ids []) := by
  refine ⟨.modCtx _ _ _, fun ⟨m, hm, state, code_m⟩ => ?_⟩
  obtain ⟨x, ctx, hl⟩ := Option.bind_eq_some_iff.mp hm
  rw [State.modCtx_some ctx]
  have marked : ∃ k, tabGet? (x.detachGraphs ids []).launches id = some k ∧ k.state = m.state ∧ k.code = m.code := by
    simp only [Ctx.detachGraphs, List.foldl_nil]
    rw [tabGet?_map (fun e => by split <;> rfl), hl]
    refine ⟨_, rfl, ?_⟩
    dsimp only
    split <;> exact ⟨rfl, rfl⟩
  obtain ⟨k, hk, state_k, code_k⟩ := marked
  exact ⟨k, (State.launchOf_setCtx _ _ _ _).trans hk, state_k.trans state, code_k.trans code_m⟩

/-! ### What CANCEL does, by its checks (R308; log 26) -/

/-- The ID that CANCEL names at a level (log 26). -/
def cancelId (level a : Nat) : Nat := if level = 3 then 0 else if level = 0 then a % 2 ^ 16 else a % 2 ^ 8

theorem cancelId_eq (level a : Nat) : (if level = 3 then 0 else levelId level a) = cancelId level a := by
  simp only [cancelId, levelId, natBits_low]

section
variable {s : State} {d : Done} {x : Ctx} {rd level : Nat} {a : Word}

theorem cancel_extra : (if level = 3 then a != 0 else decide (a.toNat ≠ cancelId level a.toNat)) = decide (a.toNat ≠ cancelId level a.toNat) := by
  split
  next three =>
    have zero : a = 0 ↔ a.toNat = 0 := by rw [← BitVec.toNat_inj]; rfl
    rw [three, show cancelId 3 a.toNat = 0 from rfl, Bool.eq_iff_iff, bne_iff_ne, decide_eq_true_iff, Ne, zero]
  · rfl

/-- Bits beyond the ID (log 26). -/
theorem fxCancel_extra (ctx : s.ctx? d.p = some x) (extra : a.toNat ≠ cancelId level a.toNat) :
    s.fxCancel d rd level false a = .done (s.putNat d rd 2) := by
  simp only [State.fxCancel, cancelId_eq, cancel_extra, ctx]
  rw [if_pos (decide_eq_true extra)]

/-- Work that does not stand (R308). -/
theorem fxCancel_unnamed (ctx : s.ctx? d.p = some x) (exact_ : a.toNat = cancelId level a.toNat)
    (unnamed : x.named level (cancelId level a.toNat) = false) : s.fxCancel d rd level false a = .done (s.putNat d rd 1) := by
  simp only [State.fxCancel, cancelId_eq, cancel_extra, ctx]
  rw [if_neg (by simpa using exact_), if_pos (by simpa using unnamed)]

/-- A launch that has not started and is not its issuer's (R308). -/
theorem fxCancel_queued {l : Launch} (ctx : s.ctx? d.p = some x) (exact_ : a.toNat = cancelId 0 a.toNat) (sorted : tabSorted x.launches = true)
    (hl : tabGet? x.launches (cancelId 0 a.toNat) = some l) (waits : l.state < 3) (alive : l.dying = none) (other : d.t.launch ≠ cancelId 0 a.toNat) :
    s.fxCancel d rd 0 false a =
      { s := (s.cancelLaunches d.p [cancelId 0 a.toNat] 0x80 none).modCtx d.p fun x => x.detachGraphs [cancelId 0 a.toNat] []
        jump := none, more := [.cancelEnd rd (BitVec.ofNat 64 (1 * 2 ^ 16)) [cancelId 0 a.toNat] false (cancelId 0 a.toNat) false], stays := false } := by
  have live := Ctx.liveOf_launch sorted hl (Nat.ne_of_lt (Nat.lt_succ_of_lt waits))
  have named : x.named 0 (cancelId 0 a.toNat) = true := by simp [Ctx.named, hl]
  have extra : (if (0 : Nat) = 3 then a != 0 else decide (a.toNat ≠ cancelId 0 a.toNat)) = false := by
    rw [cancel_extra, ← exact_]
    simp
  simp only [State.fxCancel, cancelId_eq, ctx, extra, named, live]
  simp [hl, alive, other]

end

end Sys2Proof.Machine

namespace Sys2Proof.Slice0
open Sys2Proof.Machine
set_option Elab.async false

section
variable {s : State} {c sl : Nat} {t : Thread} {f : Flight}

theorem Completing.cancelExtra (h : Completing s c sl t f) (one : Single t f) (buffer : t.buffer = []) {rd level : Nat} {a : Word} {x : Ctx}
    (fx : f.fx = [.cancel rd level false a]) (hrd : rd < 2048) (prevails : Prevails s c rd f.order) (ctx : s.ctx? (((s.core c).part).getD 0) = some x)
    (extra : a.toNat ≠ cancelId level a.toNat) :
    ∃ u, exec .instructionCompletion s = .next u ∧ u.thread? c sl = some (goneOn s t f) ∧ OnlyReg s u c rd (BitVec.ofNat 512 2) ∧
      u = { s with threads := u.threads, regs := u.regs, wrote := u.wrote } := by
  have does : (untracked s c sl t).effect (doneOf s c sl t f) (.cancel rd level false a) =
      .done ((untracked s c sl t).putNat (doneOf s c sl t f) rd 2) :=
    fxCancel_extra (s := untracked s c sl t) (d := doneOf s c sl t f) ctx extra
  obtain ⟨u, run, thread, reg, -, only⟩ := h.numbers one buffer fx rfl rfl rfl h.prepared does hrd prevails
  exact ⟨u, run, thread, reg, only⟩

theorem Completing.cancelUnnamed (h : Completing s c sl t f) (one : Single t f) (buffer : t.buffer = []) {rd level : Nat} {a : Word} {x : Ctx}
    (fx : f.fx = [.cancel rd level false a]) (hrd : rd < 2048) (prevails : Prevails s c rd f.order) (ctx : s.ctx? (((s.core c).part).getD 0) = some x)
    (exact_ : a.toNat = cancelId level a.toNat) (unnamed : x.named level (cancelId level a.toNat) = false) :
    ∃ u, exec .instructionCompletion s = .next u ∧ u.thread? c sl = some (goneOn s t f) ∧ OnlyReg s u c rd (BitVec.ofNat 512 1) ∧
      u = { s with threads := u.threads, regs := u.regs, wrote := u.wrote } := by
  have does : (untracked s c sl t).effect (doneOf s c sl t f) (.cancel rd level false a) =
      .done ((untracked s c sl t).putNat (doneOf s c sl t f) rd 1) :=
    fxCancel_unnamed (s := untracked s c sl t) (d := doneOf s c sl t f) ctx exact_ unnamed
  obtain ⟨u, run, thread, reg, -, only⟩ := h.numbers one buffer fx rfl rfl rfl h.prepared does hrd prevails
  exact ⟨u, run, thread, reg, only⟩

/-- CANCEL does not wait where no thread is a unit of the launches (R308). -/
theorem unitsBusy_none {u : State} {d : Done} {ids : List Nat} (none_ : ∀ e ∈ u.threads, e.2.launch ∉ ids) : u.unitsBusy d ids false false = false := by
  rw [State.unitsBusy, State.pickThreads_none fun e he => by simp [none_ e he]]
  rfl

/-- The result of CANCEL: the launches cancelled, in bits 31:16 (R308). -/
theorem widen_one_cancelled : widen (BitVec.ofNat 64 (1 * 2 ^ 16)) = BitVec.ofNat 512 (2 ^ 16) :=
  BitVec.setWidth_ofNat_of_le_of_lt (by decide) (by decide)

/-- The completion of a CANCEL that does its work and need not wait: what is outstanding performs, and its result is written (R308). -/
theorem Completing.cancelDone (h : Completing s c sl t f) (one : Single t f) (buffer : t.buffer = []) {e : Effect} {rd graph : Nat} {result : Word}
    {ids : List Nat} (fx : f.fx = [e]) (free : ∀ u : State, u.holds (doneOf s c sl t f) e = false) (untrapped : s.fxTrap (doneOf s c sl t f) e = none)
    (prevails : Prevails s c rd f.order) {w : State} (work : WorkOnly (untracked s c sl t) w)
    (does : (untracked s c sl t).effect (doneOf s c sl t f) e =
      { s := w, jump := none, more := [.cancelEnd rd result ids false graph false], stays := false })
    (none_ : ∀ e ∈ (untracked s c sl t).threads, e.2.launch ∉ ids) :
    ∃ u, exec .instructionCompletion s = .next u ∧ u.thread? c sl = some (goneOn s t f) ∧ u.regAt c rd = Reg.ofVec (widen result) ∧
      u.ctxs = w.ctxs := by
  obtain ⟨v, hv⟩ : ∃ v, v = w.drainPart (doneOf s c sl t f).p := ⟨_, rfl⟩
  have settles : Settles w v := hv ▸ Settles.drainPart w _
  obtain ⟨y, hy⟩ : ∃ y, y = v.putReg (doneOf s c sl t f) rd (Reg.ofVec (widen result)) := ⟨_, rfl⟩
  have written : y = { v with regs := y.regs, wrote := y.wrote } := by rw [hy]; exact State.putReg_only _ _ _ _
  have slot : w.thread? c sl = some { t with check := none } := (work.thread? c sl).trans h.stillThere.slot
  have there_w : StillThere w (doneOf s c sl t f) { t with check := none } := ⟨slot, h.flying, rfl, h.alone, h.ordinary⟩
  have there_y : StillThere y (doneOf s c sl t f) { t with check := none } := by
    refine ⟨?_, h.flying, rfl, h.alone, h.ordinary⟩
    rw [written, settles]
    exact slot
  have ends : w.effect (doneOf s c sl t f) (.cancelEnd rd result ids false graph false) = .done y := by
    rw [hy, ← State.put_eq one.owes, hv]
    rfl
  have idle : w.holds (doneOf s c sl t f) (.cancelEnd rd result ids false graph false) = false := unitsBusy_none (by rwa [work.threads])
  have ran : runEffects (doneOf s c sl t f) 8 f.fx (untracked s c sl t) none = { s := y, jump := none, goes := true } := by
    rw [fx, runEffects_cons (free _) does rfl there_w.stillFlying, List.append_nil, runEffects_done idle ends there_y.stillFlying, runEffects_nil,
      there_y.stillFlying]
    rfl
  have run := h.runs (by rw [fx, List.forall_mem_singleton]; exact free s) (by rw [fx, List.forall_mem_singleton]; exact untrapped) ran
  rw [if_pos rfl, State.goOn_eq there_y h.alone (.inl buffer)] at run
  refine ⟨_, run, ?_, ?_, ?_⟩
  · refine (State.thread?_setThread_self _ _ _ _).trans (congrArg some (onward_goneOn h one _ ?_))
    rw [written, settles]
    exact work.cycle
  · have prevails_v : Prevails v c rd f.order := by
      unfold Prevails
      rw [settles, work.wrote]
      exact prevails
    refine Eq.trans ?_ (State.regAt_putReg_self (s := v) (d := doneOf s c sl t f) (Reg.ofVec (widen result)) prevails_v)
    rw [← hy]
    rfl
  · refine Eq.trans (b := y.ctxs) rfl ?_
    rw [written, settles]

theorem Completing.cancels (h : Completing s c sl t f) (one : Single t f) (buffer : t.buffer = []) {rd : Nat} {a : Word} {x : Ctx} {l : Launch}
    (fx : f.fx = [.cancel rd 0 false a]) (prevails : Prevails s c rd f.order) (ctx : s.ctx? (((s.core c).part).getD 0) = some x)
    (exact_ : a.toNat = cancelId 0 a.toNat) (sorted : tabSorted x.launches = true) (hl : tabGet? x.launches (cancelId 0 a.toNat) = some l)
    (waits : l.state < 3) (alive : l.dying = none) (none_ : ∀ e ∈ s.threads, e.2.launch ≠ cancelId 0 a.toNat) :
    ∃ u, exec .instructionCompletion s = .next u ∧ u.thread? c sl = some (goneOn s t f) ∧ u.regAt c rd = Reg.ofVec (BitVec.ofNat 512 (2 ^ 16)) ∧
      (u.launchOf (((s.core c).part).getD 0) (cancelId 0 a.toNat)).map (fun m => (m.state, m.code)) = some (4, 0x80) := by
  have issuer : t.launch ≠ cancelId 0 a.toNat := none_ _ (mem_of_tabGet? h.slot)
  have none' : ∀ e ∈ (untracked s c sl t).threads, e.2.launch ≠ cancelId 0 a.toNat := by
    intro e he
    rcases mem_tabSet he with rfl | he
    · exact issuer
    · exact none_ e he
  have does := fxCancel_queued (s := untracked s c sl t) (d := doneOf s c sl t f) (rd := rd) ctx exact_ sorted hl waits alive issuer
  obtain ⟨work, over_⟩ := State.cancelLaunches_over (s := untracked s c sl t) (code := 0x80) (by decide) ctx hl waits none' none
  have marked := EndKept.detachGraphs (p := ((s.core c).part).getD 0) (id := cancelId 0 a.toNat) (code := 0x80)
    ((untracked s c sl t).cancelLaunches (((s.core c).part).getD 0) [cancelId 0 a.toNat] 0x80 none) [cancelId 0 a.toNat]
  obtain ⟨u, run, thread, reg, ctxs⟩ := h.cancelDone one buffer fx (fun _ => rfl) rfl prevails (work.trans marked.work) does
    (fun e he => by simpa using none' e he)
  obtain ⟨m, hm, state, code⟩ := marked.over_ over_
  refine ⟨u, run, thread, reg.trans (congrArg Reg.ofVec widen_one_cancelled), ?_⟩
  rw [State.launchOf, State.ctx?, ctxs]
  change Option.map _ (State.launchOf _ _ _) = _
  rw [hm, Option.map_some, state, code]

/-! ### The obligation -/

theorem unitsAndWork (h : Completing s c sl t f) : UnitsAndWork s c sl t f := by
  unfold UnitsAndWork
  intro p launchOf one
  refine ⟨?_, ?_, ?_, ?_, ?_, ?_⟩
  · intro k sc fx buffer hk load
    exact h.fenceStays fx buffer hk load
  · intro arm a l fx buffer _ launch
    exact ⟨fun strands worker room => h.forks one fx buffer launch strands worker room, fun full => h.forksInline one fx buffer launch full⟩
  · intro a home fx owed _ free checks lost bad old
    exact h.joins one owed fx free checks lost bad
  · intro fx buffer
    exact h.ends fx buffer
  · intro rd record x fx owed hrd prevails ctx status
    exact ⟨fun bad => h.launchRefused one owed.buffer fx hrd prevails ctx bad, fun good room => h.launches one owed fx hrd prevails ctx good room⟩
  · intro rd level a x fx hrd prevails ctx id plain
    refine ⟨fun buffer extra => h.cancelExtra one buffer fx hrd prevails ctx extra,
      fun buffer exact_ unnamed => h.cancelUnnamed one buffer fx hrd prevails ctx exact_ unnamed, ?_⟩
    intro l launch exact_ sorted hl waits alive none_ buffer
    subst launch
    exact h.cancels one buffer fx prevails ctx exact_ sorted hl waits alive none_

end

/-- Settles O31: by the effects of the instruction, each with the equation of what it does; the state after a completion is the state after its
effects with the completing thread set onward (`Completing.single`). -/
theorem completionTakesEffect : Obligations.CompletionTakesEffect := by
  unfold Obligations.CompletionTakesEffect
  intro s c sl t f h
  refine ⟨?_, ?_, ?_, specialsWritten h, queuesAndBarriers h, unitsAndWork h⟩
  · intro e v fl straight fx he prevails
    exact h.resultFlags straight fx he prevails
  · intro e v straight fx he prevails
    exact h.result straight fx he prevails
  · intro buffer fx xfer pair
    exact h.loops buffer fx xfer pair

end Sys2Proof.Slice0
end

/-! PROOFS. O56: decoding and encoding agree (R48 to R57). The word of an instruction decodes to it, operand by operand (Laws/PerInstr); a word
that a layout accepts is joined again from the fields that the layout reads and the constants that it tests. -/
section
namespace Sys2Proof.Laws.OneWord
set_option Elab.async false

/-- Every instruction of one word is what its word decodes to. -/
theorem every (i : Instr) : Statement i :=
  i.casesOn
    add sub and or xor shl shr sra mul mulh mulhu div divu rem remu min max minu maxu slt sltu seq sne clz popc rev sextB sextH sextW zextW addi
    andi ori xori shli shri srai slti movi ldpc lea sel faddF32 fsubF32 fmulF32 fdivF32 fminF32 fmaxF32 fsqrtF32 faddF64 fsubF64 fmulF64 fdivF64
    fminF64 fmaxF64 fsqrtF64 ffmaF32 ffmaF64 feqF32 fltF32 fleF32 funF32 feqF64 fltF64 fleF64 funF64 fcvtF64F32 fcvtF32F64 fcvtI64F32 fcvtU64F32
    fcvtI64F64 fcvtU64F64 fcvtF32I64 fcvtF32U64 fcvtF64I64 fcvtF64U64 fcvtI32F32 fcvtI32F64 fcvtBf16F32 fcvtF32Bf16 fclassF32 fclassF64 bcEqz bcNez
    bcLtz bcGez bcGtz bcLez bcFull bcEmpty j call jr callr loop fork join couple gangid ld ldx ldAcq st stRel vld vst vlds vgath vscat pref fenceRw
    fenceAcq fenceRel fenceSs amoAdd amoAnd amoOr amoXor amoMin amoMax amoSwp cas vaddI32 vsubI32 vand vor vxor vshl vshr vsra vaddF32 vsubF32
    vmulF32 vminF32 vmaxF32 vmulI32 vminI32 vmaxI32 vfmaF32 vcmpEqI32 vcmpLtI32 vcmpLtuI32 vcmpEqF32 vcmpLtF32 vcmpLeF32 vcmpUnF32 vsel vredAddI32
    vredAddF32 vredMaxF32 vredMinF32 vredMaxI32 vredMinI32 vredOr vredAnd vperm vbcast vins vext vrcpF32 vrsqF32 vexp2F32 vlog2F32 vpackBf16
    vunpackBf16 vzmask qpush qpop qpopStatus qpopTrap qpopTrapStatus qtest evtTerm evtCnt evtArm evtRead evtWait sysGet sysSet time trap thrStart
    thrStop thrResume thrResumeNext thrSwap thrSwapIn nwrite arriveClu arriveDeck arriveDev wait wake nwaitNbr nwaitNtf sample launch launchWait
    launchQuery launchAge cancelLaunch cancelGraph cancelPhase cancelJob cancelGraphRewind round park memMap memMapAlias memMapRemote memUnmap
    memAttr qfence rwtLoad rwtCtl rwtCtlGet sbind snext snextStatus sdone amSend amHandler lnkStatus wrtPresent wrtPresentToken wrtPresentRevoke
    wrtSplit wrtDelegate wrtSurrender wrtQuery codeAdmit attest once ret ends split nop thrStopSelf thrYield accZero accLoad accStore mmaE4m3E4m3
    mmaE4m3E5m2 mmaE5m2E4m3 mmaEc8Ec8 mmaEc8E4m3 mmaBf16Bf16 mmaF32F32 mmaI8I8 mmaSpE4m3E4m3 mmaSpBf16Bf16 nestEw nestRed transpose scale enc8 dec8
    compress teMark copy copy2d copy3d copyGather fill schedLoad rteList rteDispatch rteCombine collAllred collAllgath collRedscat collBcast
    instructionCompletion longLatencyArrival oncePostLanding storeVisible trapRecordEnqueue coupleTimeout strandSteal nwriteLanding wakeDelivery
    expiryNotice preemptSwapOut threadRestore divertedMessageReplay commandCompletionCopy commandCompletionTile commandCompletionRoute
    rewriteWindowEntry rewriteHeadRelease rewriteGroupCommit rewriteGroupReplay dispatcherDecision headAgeLimit endOfStreamAppend coreMove coreLend
    q7BacklogDelivery corrected deckFence injectionFire l2WriteBack amArrival amHandlerStart collectiveTimeout dataFlitReceive nakReceive
    replayTimeout keySwitchStart keySwitchMarkerReceive oldKeySlotClose idleFlitReceive timeFlitSend timeFlitReceive ptpMessageReceive arbiterClaim
    arbiterReplyTimeout spentEntryExpiry timeBeaconEthernet beaconTimeout highWaterUpdate contextExpiry tokenLapsed handoverHoldExpiry
    handoverRelease hotPatchDoorbell patchBusy applyDoorbell admissionDoorbellWarrant admissionDoorbellToken admissionDoorbellRevocation
    admissionDoorbellBeacon hostLaunchRecord hostPartitionRead hostPartitionWrite registerWrite sagePeriodicSample counterPageUpdate supplySagTrip
    coldReset warmReset arbiterReply remoteMappingRequest portTrainingEnd hostLaneFailure supplySagClear

end Sys2Proof.Laws.OneWord

namespace Sys2Proof
set_option Elab.async false

/-! ### A word is joined from its fields (R50) -/

theorem bits_toNat {n : Nat} (w : BitVec n) (lo len : Nat) : (bits w lo len).toNat = w.toNat / 2 ^ lo % 2 ^ len := by
  simp [bits, Nat.shiftRight_eq_div_pow]

theorem bits_eq_ofNat {n k lo len : Nat} {w : BitVec n} : bits w lo len = BitVec.ofNat len k ↔ w.toNat / 2 ^ lo % 2 ^ len = k % 2 ^ len := by
  rw [← BitVec.toNat_inj, bits_toNat, BitVec.toNat_ofNat]

/-- A constant is a field where the word has its value. -/
theorem ofNat_eq_bits {n k lo len : Nat} {w : BitVec n} (h : k % 2 ^ len = w.toNat / 2 ^ lo % 2 ^ len) : BitVec.ofNat len k = bits w lo len :=
  (bits_eq_ofNat.mpr h.symm).symm

/-- Two parts that are fields next to each other are one field. -/
theorem append_eq_bits {n k len lo : Nat} {w : BitVec n} {a : BitVec k} {b : BitVec len} (ha : a = bits w (lo + len) k) (hb : b = bits w lo len) :
    a ++ b = bits w lo (k + len) := by
  subst ha hb
  apply BitVec.eq_of_getLsbD_eq
  intro i hi
  simp only [bits, BitVec.getLsbD_append, BitVec.getLsbD_extractLsb', hi, decide_true, Bool.true_and]
  by_cases low : i < len
  · simp [low]
  · have place : lo + len + (i - len) = lo + i := by omega
    have high : i - len < k := by omega
    simp [low, high, place]

/-- Parts that fill all bits of a word are the word. -/
theorem singleton_of_bits {v w : BitVec 32} (h : v = bits w 0 32) : [v] = [w] := by rw [h, bits_self]

/-! ### What a layout accepts is the word of what it gives (R50 to R56) -/

/-- Every word of a major that its layout accepts is the word of the instruction that the layout gives. -/
def Inverts (x : Nat × (BitVec 32 → Option Instr)) : Prop :=
  ∀ {w : BitVec 32} {i : Instr}, (bits w 26 6).toNat = x.1 → x.2 w = some i → encode i = [w]

/-- The layouts of the majors other than SYS (R54). -/
def majorLayouts : List (Nat × (BitVec 32 → Option Instr)) :=
  [(0x00, decode00), (0x01, decode01), (0x02, decode02), (0x03, decode03), (0x04, decode04), (0x05, decode05), (0x06, decode06), (0x07, decode07),
  (0x08, decode08), (0x09, decode09), (0x0A, decode0A), (0x0B, decode0B), (0x0C, decode0C), (0x0D, decode0D), (0x0E, decode0E), (0x0F, decode0F),
  (0x10, decode10), (0x11, decode11), (0x12, decode12), (0x13, decode13), (0x14, decode14), (0x15, decode15), (0x16, decode16), (0x17, decode17),
  (0x18, decode18), (0x19, decode19), (0x1A, decode1A), (0x1B, decode1B), (0x1C, decode1C), (0x1D, decode1D), (0x1E, decode1E), (0x20, decode20),
  (0x21, decode21), (0x22, decode22), (0x23, decode23), (0x24, decode24), (0x25, decode25), (0x26, decode26), (0x27, decode27), (0x28, decode28),
  (0x29, decode29), (0x2A, decode2A), (0x2B, decode2B), (0x2C, decode2C), (0x2D, decode2D), (0x30, decode30), (0x31, decode31), (0x32, decode32),
  (0x33, decode33), (0x34, decode34), (0x35, decode35), (0x36, decode36), (0x37, decode37), (0x38, decode38), (0x39, decode39), (0x3A, decode3A),
  (0x3C, decode3C)]

/-- The split is by the function codes and the fields that must be zero; what is left to join are operand fields, the major, and the constants
that the layout has tested. -/
theorem majorLayouts_invert : ∀ x ∈ majorLayouts, Inverts x := by
  simp only [majorLayouts, List.forall_mem_cons, List.not_mem_nil, false_implies, implies_true, and_true]
  and_intros
  all_goals
    intro w i major d
    simp only [decode00, decode01, decode02, decode03, decode04, decode05, decode06, decode07, decode08, decode09, decode0A, decode0B, decode0C,
      decode0D, decode0E, decode0F, decode10, decode11, decode12, decode13, decode14, decode15, decode16, decode17, decode18, decode19, decode1A,
      decode1B, decode1C, decode1D, decode1E, decode20, decode21, decode22, decode23, decode24, decode25, decode26, decode27, decode28, decode29,
      decode2A, decode2B, decode2C, decode2D, decode30, decode31, decode32, decode33, decode34, decode35, decode36, decode37, decode38, decode39,
      decode3A, decode3C, bits_toNat, bits_eq_ofNat] at major d
    repeat' split at d
  all_goals cases d
  all_goals
    refine singleton_of_bits ?_
    repeat' refine append_eq_bits ?_ ?_
  any_goals rfl
  all_goals refine ofNat_eq_bits ?_
  any_goals exact major.symm
  all_goals omega

/-- The same for SYS, by sub and aux (R55). -/
theorem sysLayout_inverts : Inverts (0x3D, decode3D) := by
  intro w i major d
  simp only [decode3D, bits_toNat, bits_eq_ofNat] at major d
  repeat' split at d
  all_goals cases d
  all_goals
    refine singleton_of_bits ?_
    repeat' refine append_eq_bits ?_ ?_
  any_goals rfl
  all_goals refine ofNat_eq_bits ?_
  any_goals exact major.symm
  all_goals omega

/-- A word decodes by the layout of its major. -/
theorem decodeLayout_cases {w : BitVec 32} {i : Instr} (h : decodeLayout w = some i) :
    ∃ major layout, (major, layout) ∈ (0x3D, decode3D) :: majorLayouts ∧ (bits w 26 6).toNat = major ∧ layout w = some i := by
  unfold decodeLayout at h
  split at h
  case h_59 => cases h
  all_goals
    refine ⟨_, _, ?_, ‹_›, h⟩
    simp [majorLayouts]

theorem encode_of_decodeLayout {w : BitVec 32} {i : Instr} (h : decodeLayout w = some i) : encode i = [w] := by
  obtain ⟨_, _, mem, major, given⟩ := decodeLayout_cases h
  obtain e | mem := List.mem_cons.mp mem
  · cases e
    exact sysLayout_inverts major given
  · exact majorLayouts_invert _ mem major given

/-- What a word decodes to has that word (R48). -/
theorem encode_of_decodeWord {w : BitVec 32} {i : Instr} (h : decodeWord w = some i) : encode i = [w] :=
  encode_of_decodeLayout (Option.filter_eq_some_iff.mp h).1

/-! ### Words as bytes (R10, R48) -/

theorem takeWord_wordBytes (w : BitVec 32) (rest : List Byte) : takeWord (wordBytes w ++ rest) = some (w, rest) := by
  have joined : bits w 24 8 ++ bits w 16 8 ++ bits w 8 8 ++ bits w 0 8 = bits w 0 32 :=
    append_eq_bits (append_eq_bits (append_eq_bits rfl rfl) rfl) rfl
  rw [bits_self] at joined
  simp [takeWord, wordBytes, joined]

theorem takeWord_eq_some {bs rest : List Byte} {w : BitVec 32} (h : takeWord bs = some (w, rest)) : bs = wordBytes w ++ rest := by
  unfold takeWord at h
  split at h <;> cases h
  next b0 b1 b2 b3 =>
    simp (disch := decide) only [wordBytes, bits_append_low, bits_append_high, bits_self, Nat.reduceSub, Nat.sub_self, List.cons_append, List.nil_append]

/-! ### Decoding of words and pairs (R56, R57) -/

theorem decodeWord_oncePrefix : decodeWord oncePrefix = none := by decide

theorem decode_wordBytes {w : BitVec 32} {i : Instr} (h : decodeWord w = some i) (rest : List Byte) :
    decode (wordBytes w ++ rest) = some (i, rest) := by
  have single : w ≠ oncePrefix := by
    rintro rfl
    rw [decodeWord_oncePrefix] at h
    cases h
  simp [decode, takeWord_wordBytes, single, h]

theorem decode_pairBytes {w : BitVec 32} (allowed : onceAllowed w = true) (word : (decodeWord w).isSome = true) (rest : List Byte) :
    decode (wordBytes oncePrefix ++ (wordBytes w ++ rest)) = some (.once w, rest) := by
  simp [decode, takeWord_wordBytes, decodePair, allowed, word]

/-- A core instruction has one word, or is a ONCE pair. -/
theorem encode_cases {i : Instr} (h : encode i ≠ []) : (∃ w, encode i = [w]) ∨ ∃ w, i = .once w := by
  have words : (encode i).isEmpty = false := by simpa using h
  clear h
  cases i
  case once w => exact .inr ⟨w, rfl⟩
  all_goals cases words
  all_goals exact .inl ⟨_, rfl⟩

/-- A well-formed core instruction is what its own bytes decode to. -/
theorem decode_encode {i : Instr} (wf : wellFormed i = true) (core : encode i ≠ []) (pair : ∀ w, i = .once w → (decodeWord w).isSome = true)
    (rest : List Byte) : decode ((encode i).flatMap wordBytes ++ rest) = some (i, rest) := by
  obtain ⟨w, hw⟩ | ⟨w, rfl⟩ := encode_cases core
  · rw [hw, List.flatMap_singleton]
    exact decode_wordBytes (Laws.OneWord.every i wf w hw) rest
  · have bytes : (encode (.once w)).flatMap wordBytes ++ rest = wordBytes oncePrefix ++ (wordBytes w ++ rest) := by simp [encode]
    rw [bytes]
    exact decode_pairBytes wf (pair w rfl) rest

/-- Bytes that decode are the bytes of a well-formed instruction. -/
theorem encode_of_decode {bs rest : List Byte} {i : Instr} (h : decode bs = some (i, rest)) :
    wellFormed i = true ∧ bs = (encode i).flatMap wordBytes ++ rest := by
  unfold decode at h
  split at h
  case h_1 => cases h
  case h_2 w after first =>
    obtain rfl := takeWord_eq_some first
    split at h
    case isTrue prefixed =>
      subst prefixed
      split at h
      case h_1 => cases h
      case h_2 v tail second =>
        obtain rfl := takeWord_eq_some second
        obtain ⟨j, pair, e⟩ := Option.map_eq_some_iff.mp h
        cases e
        unfold decodePair at pair
        split at pair <;> cases pair
        next ok =>
          obtain ⟨allowed, _⟩ := Bool.and_eq_true_iff.mp ok
          exact ⟨allowed, by simp [encode]⟩
    case isFalse =>
      obtain ⟨j, word, e⟩ := Option.map_eq_some_iff.mp h
      cases e
      exact ⟨decodeWord_wellFormed word, by rw [encode_of_decodeWord word, List.flatMap_singleton]⟩

/-! ### Command words (R6, R131, R180, R213, R214, R333) -/

theorem decodeCommand_writeCmd {i : Instr} {engine op : BitVec 8} (h : commandCode i = some (engine, op)) (c : Cmd) :
    decodeCommand (writeCmd engine op c) = some i := by
  have codes : bits (writeCmd engine op c) 248 8 = engine ∧ bits (writeCmd engine op c) 240 8 = op := by
    simp (disch := decide) only [writeCmd, bits_append_low, bits_append_high, bits_self, Nat.reduceSub, Nat.sub_self, and_self]
  rw [decodeCommand, codes.1, codes.2]
  cases i <;> cases h <;> rfl

theorem readCmd_writeCmd (engine op : BitVec 8) (c : Cmd) : readCmd (writeCmd engine op c) c.opr = c := by
  cases c
  simp (disch := decide) only [readCmd, writeCmd, bits_append_low, bits_append_high, bits_self, Nat.reduceSub, Nat.sub_self]

end Sys2Proof

namespace Sys2Proof.Slice0

/-- Settles O56: an instruction's words decode to it by the law of its word; bytes that decode are its bytes, because every layout's word is
joined from its fields; a command word is read field by field. -/
theorem decodeOfEncode : Obligations.DecodeOfEncode := by
  unfold Obligations.DecodeOfEncode
  refine ⟨fun i rest wf core pair => decode_encode wf core pair rest, fun i bs rest h => encode_of_decode h, fun i c w h => ?_⟩
  obtain ⟨⟨engine, op⟩, code, rfl⟩ := Option.map_eq_some_iff.mp h
  exact ⟨decodeCommand_writeCmd code c, readCmd_writeCmd engine op c⟩

end Sys2Proof.Slice0
end

/-! PROOFS. O57: words of the spec, and the fields that R53 fixes: the count of an immediate shift, sz of VLD, VST and PREF, and their scale. -/
section
namespace Sys2Proof
set_option Elab.async false

/-! ### Words of a layout that tests a field (R53, R56) -/

/-- A word whose layout has one instruction behind a test decodes where the test passes and the instruction is well-formed. -/
theorem decodeWord_of_tested {w : BitVec 32} {i : Instr} {p : Prop} [Decidable p] (h : decodeLayout w = if p then some i else none) :
    decodeWord w = if p ∧ wellFormed i = true then some i else none := by
  unfold decodeWord
  rw [h]
  by_cases passes : p <;> by_cases wf : wellFormed i = true <;> simp [passes, wf]

/-- The fields of an RRI word with a shift count (R50, R53). -/
theorem fields_of_shift (m : BitVec 6) (rd ra : BitVec 7) (ta : BitVec 1) (high : BitVec 5) (count : BitVec 6) :
    let w := m ++ rd ++ ra ++ ta ++ high ++ count
    bits w 26 6 = m ∧ bits w 19 7 = rd ∧ bits w 12 7 = ra ∧ bits w 11 1 = ta ∧ bits w 6 5 = high ∧ bits w 0 6 = count := by
  simp (disch := decide) only [bits_append_low, bits_append_high, bits_self, Nat.reduceSub, Nat.sub_self, and_self]

/-- The fields of a MEM word (R50, R53). -/
theorem fields_of_mem (m : BitVec 6) (rd ra : BitVec 7) (sz : BitVec 2) (p : BitVec 3) (ta : BitVec 1) (off : BitVec 6) :
    let w := m ++ rd ++ ra ++ sz ++ p ++ ta ++ off
    bits w 26 6 = m ∧ bits w 19 7 = rd ∧ bits w 12 7 = ra ∧ bits w 10 2 = sz ∧ bits w 7 3 = p ∧ bits w 6 1 = ta ∧ bits w 0 6 = off := by
  simp (disch := decide) only [bits_append_low, bits_append_high, bits_self, Nat.reduceSub, Nat.sub_self, and_self]

/-- An immediate shift decodes where the five bits above its count are zero (R53). -/
theorem decodeWord_shift {m : BitVec 6} {op : BitVec 7 → BitVec 7 → BitVec 1 → BitVec 6 → Instr}
    (layout : ∀ {w : BitVec 32}, bits w 26 6 = m →
      decodeLayout w = if bits w 6 5 = 0#5 then some (op (bits w 19 7) (bits w 12 7) (bits w 11 1) (bits w 0 6)) else none)
    (wf : ∀ rd ra ta count, wellFormed (op rd ra ta count) = true) (rd ra : BitVec 7) (ta : BitVec 1) (high : BitVec 5) (count : BitVec 6) :
    decodeWord (m ++ rd ++ ra ++ ta ++ high ++ count) = if high = 0 then some (op rd ra ta count) else none := by
  obtain ⟨major, hrd, hra, hta, hhigh, hcount⟩ := fields_of_shift m rd ra ta high count
  have tested := layout major
  rw [hrd, hra, hta, hhigh, hcount] at tested
  simpa [wf] using decodeWord_of_tested tested

/-- An access of a 64-byte line decodes where sz is zero and its scope code is one of those that R120 gives (R53). -/
theorem decodeWord_line {m : BitVec 6} {op : BitVec 7 → BitVec 7 → BitVec 3 → BitVec 1 → BitVec 6 → Instr}
    (layout : ∀ {w : BitVec 32}, bits w 26 6 = m →
      decodeLayout w = if bits w 10 2 = 0#2 then some (op (bits w 19 7) (bits w 12 7) (bits w 7 3) (bits w 6 1) (bits w 0 6)) else none)
    (wf : ∀ rd ra p ta off, wellFormed (op rd ra p ta off) = (p != 7#3))
    (rd ra : BitVec 7) (sz : BitVec 2) (p : BitVec 3) (ta : BitVec 1) (off : BitVec 6) :
    decodeWord (m ++ rd ++ ra ++ sz ++ p ++ ta ++ off) = if sz = 0 ∧ p ≠ 7 then some (op rd ra p ta off) else none := by
  obtain ⟨major, hrd, hra, hsz, hp, hta, hoff⟩ := fields_of_mem m rd ra sz p ta off
  have tested := layout major
  rw [hrd, hra, hsz, hp, hta, hoff] at tested
  simpa [wf] using decodeWord_of_tested tested

/-- PREF has no destination: its rd is zero too. -/
theorem decodeWord_pref (rd ra : BitVec 7) (sz : BitVec 2) (p : BitVec 3) (ta : BitVec 1) (off : BitVec 6) :
    decodeWord (0x2A#6 ++ rd ++ ra ++ sz ++ p ++ ta ++ off) = if sz = 0 ∧ rd = 0 ∧ p ≠ 7 then some (.pref ra p ta off) else none := by
  obtain ⟨major, hrd, hra, hsz, hp, hta, hoff⟩ := fields_of_mem 0x2A rd ra sz p ta off
  have tested := (layout2A major).trans (decode2A.eq_1 _)
  rw [hrd, hra, hsz, hp, hta, hoff] at tested
  simpa [wellFormed, and_assoc] using decodeWord_of_tested tested

end Sys2Proof

namespace Sys2Proof.Machine
open Sys2Proof.Slice0
set_option Elab.async false

/-! ### Addresses of MEM words, and loads in flight (R113, R116) -/

/-- E of a MEM word, as the statements give it in integers (R113). -/
theorem memAddr_eq_effective (a : Word) (off : BitVec 6) (n : Nat) : memAddr a off n = effective a off n := by
  rw [memAddr, effective, BitVec.ofInt_add, BitVec.ofInt_mul, BitVec.ofInt_toInt, BitVec.ofInt_natCast]
  rfl

theorem FormReady.load {s : State} {c : Nat} {t : Thread} {major fn : Nat} {rd ra : BitVec 7} {ta : BitVec 1}
    (a : Readable s c t ra.toNat) (d : Writable s c t rd.toNat) : FormReady s c t (formLoad major fn rd ra ta) := FormReady.rr (lat := lat12) a d

theorem FormReady.source {s : State} {c : Nat} {t : Thread} {major fn : Nat} {ra : BitVec 7} {ta : BitVec 1} (a : Readable s c t ra.toNat) :
    FormReady s c t (formRR major fn ra ta) := by
  constructor <;> simp [formRR, Form.plain, srcT, a, a.inWindow]

section
variable {s : State} {c sl : Nat} {t : Thread} (h : Issuing s c sl t)
include h

/-- PREF issues with its line's address (R124). -/
theorem Issuing.pref {ra : BitVec 7} {p : BitVec 3} {ta : BitVec 1} {off : BitVec 6} (a : Readable s c t ra.toNat) :
    ∃ u, exec (.pref ra p ta off) s = .next u ∧ InFlight s u c sl t 12 [.pref (effective (regWord s c t ra) off 64) p.toNat] (t.pc + 4) := by
  rw [← memAddr_eq_effective]
  obtain ⟨u, run, -, flight, -⟩ := h.flies (FormReady.source (major := 0x2A) (fn := p.toNat) (ta := ta) a) (loopEnd_of_major (.inr (show 0x1D < 0x2A by decide)))
    (fun o s => s.fly o [.pref (memAddr (s.rx o ra) off 64) p.toNat]) _ _ .none 0 [] (by simp) rfl
  rw [State.rx_opOf, regWord_correctReads] at flight
  exact ⟨u, run, flight rfl⟩

/-- VLD issues with its line's address, which is scaled like PREF's (R53, R122). -/
theorem Issuing.vld {rd ra : BitVec 7} {p : BitVec 3} {ta : BitVec 1} {off : BitVec 6} (a : Readable s c t ra.toNat) (d : Writable s c t rd.toNat) :
    ∃ u, exec (.vld rd ra p ta off) s = .next u ∧
      InFlightAtLeast s u c sl t 12 [.load (t.base + rd.toNat) .line [effective (regWord s c t ra) off 64] 64 none] (t.pc + 4) := by
  rw [← memAddr_eq_effective]
  obtain ⟨u, run, flight, -⟩ := h.flies (FormReady.load (major := 0x25) (fn := p.toNat) (ta := ta) a d) (loopEnd_of_major (.inr (show 0x1D < 0x25 by decide)))
    (fun o s => s.flyLoad o rd .line [memAddr (s.rx o ra) off 64] 64 none) _ _ .none 1 [t.base + rd.toNat]
    (by simpa using h.entry_lt d.inWindow) rfl
  rw [State.rx_opOf, regWord_correctReads] at flight
  exact ⟨u, run, flight⟩
end

end Sys2Proof.Machine

namespace Sys2Proof.Slice0
open Sys2Proof.Machine

/-- The shifts by an immediate take their count from the low six bits, and the five above are zero (R53). -/
theorem immediateShifts_decode : ∀ x ∈ immediateShifts, ∀ (rd ra : BitVec 7) (ta : BitVec 1) (high : BitVec 5) (count : BitVec 6),
    decodeWord (x.1 ++ rd ++ ra ++ ta ++ high ++ count) = if high = 0 then some (x.2 rd ra ta count) else none := by
  simp only [immediateShifts, List.forall_mem_cons]
  exact ⟨decodeWord_shift layout08 fun _ _ _ _ => rfl, decodeWord_shift layout09 fun _ _ _ _ => rfl,
    decodeWord_shift layout0A fun _ _ _ _ => rfl, by simp⟩

/-- The words of the spec's examples (R50 to R57), and those that R56 refuses, each by evaluation. -/
theorem specWords_decode : ∀ x ∈ specWords, decodeWord x.1 = some x.2 := by
  simp only [specWords, specWords1, specWords2, List.cons_append, List.nil_append, List.forall_mem_cons, List.not_mem_nil, false_implies,
    implies_true, and_true]
  and_intros <;> rfl
theorem refusedWords_decode : ∀ w ∈ refusedWords, decodeWord w = none := by
  simp only [refusedWords, List.forall_mem_cons, List.not_mem_nil, false_implies, implies_true, and_true]
  and_intros <;> rfl

/-- Settles O57: the named words by evaluation, the open ones from their fields, and the scale from the addresses in flight. -/
theorem decodingOfSpecWords : Obligations.DecodingOfSpecWords := by
  unfold Obligations.DecodingOfSpecWords
  refine ⟨specWords_decode, refusedWords_decode, rfl, rfl, immediateShifts_decode, fun rd ra sz p ta off =>
    ⟨decodeWord_line layout25 (fun _ _ _ _ _ => rfl) rd ra sz p ta off,
      decodeWord_line layout26 (fun _ _ _ _ _ => rfl) rd ra sz p ta off, decodeWord_pref rd ra sz p ta off⟩, ?_⟩
  intro s c sl t rd ra p ta off h a scaled
  refine ⟨?_, fun d => ?_⟩
  · obtain ⟨u, run, f, slot, fx, -⟩ := h.pref (p := p) (ta := ta) (off := off) a
    exact ⟨u, _, f, run, slot, rfl, fx⟩
  · obtain ⟨u, run, f, slot, fx, -⟩ := h.vld (p := p) (ta := ta) (off := off) a d
    exact ⟨u, _, f, _, run, slot, rfl, fx⟩

end Sys2Proof.Slice0
end

/-! PROOFS. Values of the integer instructions of one and two sources, as the statements give them in integers (R70 to R74); O30 rests on them. -/
section
namespace Sys2Proof.Machine
set_option Elab.async false

/-! ### Two sources (R70 to R73) -/

theorem valAdd_eq (a b : Word) : valAdd a b = BitVec.ofNat 64 (a.toNat + b.toNat) :=
  BitVec.eq_of_toNat_eq (by simp [valAdd])
theorem valSub_eq (a b : Word) : valSub a b = BitVec.ofInt 64 (a.toInt - b.toInt) :=
  BitVec.eq_of_toInt_eq (by simp [valSub, BitVec.toInt_sub])
theorem valShl_eq (a b : Word) : valShl a b = BitVec.ofNat 64 (a.toNat * 2 ^ (b.toNat % 64)) :=
  BitVec.eq_of_toNat_eq (by simp [valShl, shiftCount, Nat.shiftLeft_eq])
theorem valShr_eq (a b : Word) : valShr a b = BitVec.ofNat 64 (a.toNat / 2 ^ (b.toNat % 64)) :=
  BitVec.eq_of_toNat_eq (by
    rw [BitVec.toNat_ofNat, Nat.mod_eq_of_lt (Nat.lt_of_le_of_lt (Nat.div_le_self _ _) a.isLt)]
    simp [valShr, shiftCount, Nat.shiftRight_eq_div_pow])
theorem valSra_eq (a b : Word) : valSra a b = BitVec.ofInt 64 (a.toInt / 2 ^ (b.toNat % 64)) := by
  simp [valSra, shiftCount, BitVec.sshiftRight, Int.shiftRight_eq_div_pow]
theorem valMul_eq (a b : Word) : valMul a b = BitVec.ofNat 64 (a.toNat * b.toNat) :=
  BitVec.eq_of_toNat_eq (by simp [valMul])
theorem valDiv_eq (a b : Word) : valDiv a b = if b = 0 then BitVec.allOnes 64 else BitVec.ofInt 64 (a.toInt.tdiv b.toInt) := rfl
theorem valDivu_eq (a b : Word) : valDivu a b = if b = 0 then BitVec.allOnes 64 else BitVec.ofNat 64 (a.toNat / b.toNat) := rfl
theorem valRem_eq (a b : Word) : valRem a b = if b = 0 then a else BitVec.ofInt 64 (a.toInt - b.toInt * a.toInt.tdiv b.toInt) := by
  rw [valRem, remS, Int.tmod_def]
theorem valMin_eq (a b : Word) : valMin a b = BitVec.ofInt 64 (min a.toInt b.toInt) := by
  rw [valMin, min_def, apply_ite (BitVec.ofInt 64), BitVec.ofInt_toInt, BitVec.ofInt_toInt]
theorem valMax_eq (a b : Word) : valMax a b = BitVec.ofInt 64 (max a.toInt b.toInt) := by
  rw [valMax, max_def, apply_ite (BitVec.ofInt 64), BitVec.ofInt_toInt, BitVec.ofInt_toInt]
theorem valMinu_eq (a b : Word) : valMinu a b = BitVec.ofNat 64 (min a.toNat b.toNat) := by
  rw [valMinu, min_def, apply_ite (BitVec.ofNat 64), BitVec.ofNat_toNat, BitVec.ofNat_toNat, BitVec.setWidth_eq, BitVec.setWidth_eq]
theorem valMaxu_eq (a b : Word) : valMaxu a b = BitVec.ofNat 64 (max a.toNat b.toNat) := by
  rw [valMaxu, max_def, apply_ite (BitVec.ofNat 64), BitVec.ofNat_toNat, BitVec.ofNat_toNat, BitVec.setWidth_eq, BitVec.setWidth_eq]
/-- A relation's word is its truth value. -/
theorem boolWord_decide (p : Prop) [Decidable p] : boolWord (decide p) = if p then 1 else 0 := by by_cases h : p <;> simp [boolWord, h]
theorem valSne_eq (a b : Word) : valSne a b = if a = b then 0 else 1 := by rw [valSne, boolWord_decide, ite_not]

/-! ### One source (R74) -/

/-- Above the highest one bit there are zeros alone. -/
theorem leadingZeros_eq (a : Word) (n : Nat) (small : a.toNat < 2 ^ n) : leadingZeros a n = if a = 0 then n else n - 1 - Nat.log2 a.toNat := by
  induction n with
  | zero =>
    have none_ : a = 0 := BitVec.eq_of_toNat_eq (by simpa using small)
    simp [leadingZeros, none_]
  | succ n ih =>
    by_cases top : 2 ^ n ≤ a.toNat
    · have one : a.getLsbD n = true := Nat.testBit_of_two_pow_le_and_two_pow_add_one_gt top small
      have some_ : a.toNat ≠ 0 := Nat.pos_iff_ne_zero.mp (Nat.lt_of_lt_of_le (Nat.two_pow_pos n) top)
      have place : Nat.log2 a.toNat = n := (Nat.log2_eq_iff some_).mpr ⟨top, small⟩
      rw [leadingZeros, one, if_pos rfl, if_neg (by rintro rfl; exact some_ rfl), place]
      omega
    · have below : a.toNat < 2 ^ n := by omega
      have zero_ : a.getLsbD n = false := Nat.testBit_lt_two_pow below
      rw [leadingZeros, zero_, if_neg Bool.false_ne_true, ih below]
      split
      · omega
      next some_ =>
        have place : Nat.log2 a.toNat < n := (Nat.log2_lt fun e => some_ (BitVec.eq_of_toNat_eq e)).mpr below
        omega

theorem valClz_eq (a : Word) : valClz a = if a = 0 then 64 else BitVec.ofNat 64 (63 - Nat.log2 a.toNat) := by
  rw [valClz, leadingZeros_eq a 64 a.isLt]
  split <;> rfl

/-- One bits are counted bit by bit. -/
theorem oneBits_eq (a : Word) (n : Nat) : oneBits a n = (List.range n).countP fun i => a.getLsbD i := by
  induction n with
  | zero => rfl
  | succ n ih => rw [oneBits, ih, List.range_succ, List.countP_append, List.countP_singleton, Nat.add_comm]

theorem valPopc_eq (a : Word) : valPopc a = BitVec.ofNat 64 ((List.range 64).countP fun i => a.getLsbD i) := by rw [valPopc, oneBits_eq]

/-- The number of two words one above the other. -/
theorem toNat_append_eq_add {n m : Nat} (a : BitVec n) (b : BitVec m) : (a ++ b).toNat = a.toNat * 2 ^ m + b.toNat := by
  rw [BitVec.toNat_append, ← Nat.shiftLeft_add_eq_or_of_lt b.isLt, Nat.shiftLeft_eq]

theorem valRev_eq (a : Word) : valRev a = BitVec.ofNat 64 (bytesNat (natBytes 8 a.toNat).reverse) := by
  apply BitVec.eq_of_toNat_eq
  simp only [valRev, reverseBytes, toNat_append_eq_add, BitVec.extractLsb'_toNat, Nat.shiftRight_eq_div_pow, natBytes, List.reverse_cons,
    List.reverse_nil, List.nil_append, List.cons_append, bytesNat, List.foldr_cons, List.foldr_nil, BitVec.toNat_ofNat, Nat.div_div_eq_div_mul,
    Nat.reduceMul, Nat.reducePow]
  omega

/-- The low n bits of a word as a signed number (R74). -/
theorem signExtend_setWidth (a : Word) (n : Nat) : (a.setWidth n).signExtend 64 = BitVec.ofInt 64 (Int.bmod a.toNat (2 ^ n)) := by
  rw [BitVec.signExtend, BitVec.toInt_setWidth]

theorem valZextW_eq (a : Word) : valZextW a = BitVec.ofNat 64 (a.toNat % 2 ^ 32) :=
  BitVec.eq_of_toNat_eq (by simp [valZextW])

end Sys2Proof.Machine
end

/-! PROOFS. O30: ONCE (R57, R100). A pair issues as its second word would alone: the same gate, the same reads and the same flight, but for what
the flight remembers of the pair and for the next instruction. -/
section
namespace Sys2Proof.Machine
open Sys2Proof.Slice0
set_option Elab.async false

/-! ### Who issues, and the gate (R25, R26, R92) -/

/-- The machine while a thread issues a pair. -/
def State.pairing (s : State) (c sl : Nat) (w : BitVec 32) : State := { s with cur := .pair c sl w }
/-- The thread that issues a pair, as the issue's operations take it. -/
def pairOf (s : State) (f : Form) (c sl : Nat) (t : Thread) (w : BitVec 32) : Op := { opOf s f c sl t with pair := some w }

section
variable {s : State} {c sl : Nat} {t : Thread} {f : Form} {w : BitVec 32}

theorem Issuing.pairIssuer (h : Issuing s c sl t) (f : Form) (w : BitVec 32) :
    (s.pairing c sl w).issuer f = some (pairOf s f c sl t w) := by
  have slot : (s.pairing c sl w).thread? c sl = some t := h.slot
  have part : ((s.pairing c sl w).core c).part = (s.core c).part := rfl
  simp only [State.issuer, State.pairing] at *
  simp [slot, h.ready, pairOf, opOf, part]

/-- Only a loop's end tells a pair from its second word alone (R92). -/
theorem State.gate_pair (s : State) (o : Op) (w : Option (BitVec 32)) (loop : o.t.loopEndsAt o.t.pc = false) :
    s.gate { o with pair := w } = s.gate o := by
  simp only [State.gate, Op.loopEnd, loop, Bool.and_false, Op.pc]

/-- A pair whose second word's operands are ready issues it: the reads correct what they find, and its own part follows. -/
theorem Issuing.issuePaired (h : Issuing s c sl t) (leads : (pairOf s f c sl t w).follows = false) (loop : t.loopEndsAt t.pc = false)
    (hf : FormReady s c t f) (body : Op → State → State) :
    (s.pairing c sl w).issue f body =
      .next (body (pairOf s f c sl t w) ((s.pairing c sl w).correctReads (pairOf s f c sl t w))) := by
  have gate : (s.pairing c sl w).gate (pairOf s f c sl t w) = .go :=
    (State.gate_pair s (opOf s f c sl t) (some w) loop).trans (hf.gate (by simp [Op.loopEnd, opOf, loop]))
  have sound : (s.pairing c sl w).badRead (pairOf s f c sl t w) = false := hf.badRead (sl := sl)
  simp [State.issue, h.pairIssuer f w, leads, State.issueOwn, gate, sound]

end

/-! ### Going in flight as a pair (R26, R100) -/

/-- What an issue does to the machine before its flight starts: the turn, its count, the delay it draws, and the entries it empties. -/
def State.beforeFlight (s : State) (c sl kind : Nat) (emptied : List Nat) : State :=
  let s := (s.tookTurn c sl).countCore c 2 1
  emptied.foldl (fun s e => s.setFull c e false) (if kind = 0 then s else s.takeDelay.2)

theorem State.beforeFlight_threads (s : State) (c sl kind : Nat) (emptied : List Nat) : (s.beforeFlight c sl kind emptied).threads = s.threads := by
  have empties (u : State) : (emptied.foldl (fun s e => s.setFull c e false) u).threads = u.threads := by
    induction emptied generalizing u with
    | nil => rfl
    | cons e l ih => exact ih _
  rw [State.beforeFlight, empties, State.countCore_eq]
  split <;> rfl

/-- What goes in flight, alone or as a pair: the flight's effects, its next instruction and its latency; the rest of the machine is as before
the flight, but for the posts of a pair. -/
theorem State.flyTo_eq (s : State) (o : Op) (fx : List Effect) (next : Addr) (x : Transfer) (kind : Nat) (emptied : List Nat) :
    ∃ (f : Flight) (posts : List Post), s.flyTo o fx next x kind emptied =
        { (s.beforeFlight o.c o.sl kind emptied).modThread o.c o.sl fun t => { t with state := .inflight f } with
          order := (s.beforeFlight o.c o.sl kind emptied).order + 1, posts := posts } ∧
      f.fx = fx ∧ f.next = next ∧ f.order = s.order ∧ f.least = s.cycle + o.form.lat ∧ f.least ≤ f.due ∧
      (kind = 0 → f.due = s.cycle + o.form.lat) := by
  have turn : ((s.tookTurn o.c o.sl).countCore o.c 2 1).order = s.order ∧ ((s.tookTurn o.c o.sl).countCore o.c 2 1).cycle = s.cycle := by
    rw [State.countCore_eq]
    exact ⟨rfl, rfl⟩
  unfold State.flyTo State.beforeFlight
  generalize (s.tookTurn o.c o.sl).countCore o.c 2 1 = v at turn
  by_cases plain : kind = 0
  · simp only [plain, if_true]
    exact ⟨_, _, rfl, rfl, rfl, turn.1, by rw [turn.2], by simp, fun _ => by simp [turn.2]⟩
  · simp only [plain, if_false, State.takeDelay]
    exact ⟨_, _, rfl, rfl, rfl, turn.1, by rw [turn.2], by simp, False.elim⟩

theorem MemKept.of_issueFrame {s u : State} {c sl : Nat} {l : List Nat} (h : IssueFrame s u c sl l) : MemKept s u := fun a => by
  rw [h.rest]; rfl

/-- Going in flight as a pair: what the thread then holds, and what stays as it was (R18, R26, R57). -/
theorem State.flyTo_pair (s : State) (o : Op) {t : Thread} (ht : s.thread? o.c o.sl = some t) (hs : o.sl < 64)
    (fx : List Effect) (next : Addr) (x : Transfer) (kind : Nat) (emptied : List Nat) (he : ∀ e ∈ emptied, e < 2048) :
    InFlightAtLeast s (s.flyTo o fx next x kind emptied) o.c o.sl t o.form.lat fx next ∧
    (kind = 0 → InFlight s (s.flyTo o fx next x kind emptied) o.c o.sl t o.form.lat fx next) ∧
    PairFrame s (s.flyTo o fx next x kind emptied) o.c o.sl emptied := by
  have slot : (s.beforeFlight o.c o.sl kind emptied).thread? o.c o.sl = some t :=
    (State.thread?_congr (s.beforeFlight_threads o.c o.sl kind emptied) _ _).trans ht
  -- the second word alone leaves the same registers and memory
  obtain ⟨-, -, alone⟩ := State.flyTo_spec s { o with pair := none } ht rfl hs fx next x kind emptied he
  obtain ⟨_, _, single, -⟩ := s.flyTo_eq { o with pair := none } fx next x kind emptied
  simp only [single, State.modThread_some slot] at alone
  obtain ⟨f, posts, paired, hfx, hnext, horder, hleast, hdue, hplain⟩ := s.flyTo_eq o fx next x kind emptied
  simp only [paired, State.modThread_some slot]
  have flown : ((s.beforeFlight o.c o.sl kind emptied).setThread o.c o.sl { t with state := .inflight f }).thread? o.c o.sl =
      some { t with state := .inflight f } := State.thread?_setThread_self _ _ _ _
  exact ⟨⟨f, flown, hfx, hnext, horder, hleast, hdue⟩, fun hk => ⟨f, flown, hfx, hnext, horder, hplain hk⟩,
    ⟨alone.regs, fun a => MemKept.of_issueFrame alone a, fun c' sl' hne hs' =>
      (State.thread?_setThread_other _ _ (by omega)).trans (State.thread?_congr (s.beforeFlight_threads o.c o.sl kind emptied) _ _)⟩⟩

end Sys2Proof.Machine
end

section
namespace Sys2Proof
set_option Elab.async false

/-! ### Which words may follow ONCE (R57, R100) -/

/-- The statement's test of a word is the model's. -/
theorem mayFollowOnce_eq (w : BitVec 32) : Slice0.mayFollowOnce w = onceAllowed w := by
  have field (lo : Nat) : (w.extractLsb' lo 6).toNat = w.toNat / 2 ^ lo % 2 ^ 6 := bits_toNat w lo 6
  have major : w.toNat / 2 ^ 26 % 2 ^ 6 = w.toNat / 2 ^ 26 := Nat.mod_eq_of_lt (by have := w.isLt; omega)
  simp only [Slice0.mayFollowOnce, onceAllowed, field, major, List.contains_cons, List.contains_nil, Bool.or_false, Bool.or_assoc]

/-- No major below the branches, and none of the memory and vector instructions, is refused. -/
theorem onceAllowed_of_major {w : BitVec 32} (h : (bits w 26 6).toNat < 0x17 ∨ 0x1E < (bits w 26 6).toNat ∧ (bits w 26 6).toNat < 0x3D) :
    onceAllowed w = true := by
  have major : (w.extractLsb' 26 6).toNat = (bits w 26 6).toNat := rfl
  generalize (bits w 26 6).toNat = m at h major
  simp [onceAllowed, major]
  omega

end Sys2Proof

namespace Sys2Proof.Machine
open Sys2Proof.Slice0
set_option Elab.async false

section
variable {s : State} {c sl : Nat} {t : Thread} {w : BitVec 32}

/-! ### The two outcomes of a pair (R57) -/

/-- A pair of an instruction that may follow ONCE issues it. -/
theorem Issuing.once_issues (h : Issuing s c sl t) {i : Instr} (word : decodeWord w = some i) (allowed : onceAllowed w = true) {r : Res}
    (pair : issuePair i (s.pairing c sl w) = some r) : exec (.once w) s = r := by
  change execOnce w s = r
  have issued : issuePair i { s with cur := .pair c sl w } = some r := pair
  simp [execOnce, h.cur, allowed, word, issued]

/-- Any other word traps with it. -/
theorem Issuing.once_illegal (h : Issuing s c sl t) (bad : decodeWord w = none ∨ onceAllowed w = false) :
    exec (.once w) s = .next (s.illegal c sl w (some w)) := by
  change execOnce w s = _
  obtain bad | bad := bad <;> simp [execOnce, h.cur, bad]

/-! ### A thread in no gang (R57) -/

/-- A pair of a thread in no gang goes in flight as its second word would, and goes on 8 bytes later. -/
theorem Issuing.fliesPaired (h : Issuing s c sl t) (alone : t.coupled = false) (own : t.forward = none) (loop : t.loopEndsAt t.pc = false)
    {f : Form} (hf : FormReady s c t f) (body : Op → State → State) (fx : List Effect) (kind : Nat) (emptied : List Nat)
    (he : ∀ e ∈ emptied, e < 2048)
    (hb : ∀ u, OnlyFlips (s.pairing c sl w) u → body (pairOf s f c sl t w) u = u.flyTo (pairOf s f c sl t w) fx (t.pc + 8) .none kind emptied) :
    ∃ u, (s.pairing c sl w).issue f body = .next u ∧ InFlightAtLeast s u c sl t f.lat fx (t.pc + 8) ∧
      (kind = 0 → InFlight s u c sl t f.lat fx (t.pc + 8)) ∧ PairFrame s u c sl emptied := by
  have leads : (pairOf s f c sl t w).follows = false := by simp [Op.follows, pairOf, opOf, alone, own]
  have read := (s.pairing c sl w).correctReads_only (pairOf s f c sl t w)
  rw [h.issuePaired leads loop hf, hb _ read]
  generalize (s.pairing c sl w).correctReads (pairOf s f c sl t w) = u at read
  have slot : u.thread? c sl = some t := (State.thread?_congr (s := s) (by rw [read.rest]; rfl) c sl).trans h.slot
  obtain ⟨least, exact_, frame⟩ := State.flyTo_pair u (pairOf s f c sl t w) slot h.inCore fx (t.pc + 8) .none kind emptied he
  have mem : MemKept s u := fun a => by rw [read.rest]; rfl
  refine ⟨_, rfl, InFlightAtLeast.of_corrects (s := s.pairing c sl w) read least,
    fun hk => InFlight.of_corrects (s := s.pairing c sl w) read (exact_ hk), ?_, fun a => (frame.mem a).trans (mem a), fun c' sl' hne hs => ?_⟩
  · exact ⟨fun c' n hn hne => (read.regs c' n).trans (frame.regs.1 c' n hn hne), frame.regs.2⟩
  · exact (frame.threads c' sl' hne hs).trans (State.thread?_congr (by rw [read.rest]; rfl) c' sl')

/-! ### A member of a gang that does not lead it (R100) -/

/-- It executes nothing, and goes on 8 bytes later. -/
theorem Issuing.memberSkips (h : Issuing s c sl t) (coupled : t.coupled = true) (member : t.gangPos ≠ 0) {f : Form}
    (window : ∀ d ∈ f.dsts, d.2 < t.size) (body : Op → State → State) :
    ∃ u, (s.pairing c sl w).issue f body = .next u ∧ PairFrame s u c sl [] ∧ InFlight s u c sl t 12 [] (t.pc + 8) := by
  have follows : (pairOf s f c sl t w).follows = true := by simpa [Op.follows, pairOf, opOf, coupled] using member
  have inside : ({ f with srcs := [] } : Form).outOfRange t.size = none := Form.outOfRange_none (by simp) window
  have slot : (s.pairing c sl w).thread? c sl = some t := h.slot
  obtain ⟨-, flight, frame⟩ := State.flyTo_pair (s.pairing c sl w) (pairOf s { f with lat := lat12 } c sl t w) slot h.inCore [] (t.pc + 8) .none 0 []
    (by simp)
  have runs : (s.pairing c sl w).issue f body = .next ((s.pairing c sl w).flyTo (pairOf s { f with lat := lat12 } c sl t w) [] (t.pc + 8) .none 0 []) := by
    simp only [State.issue, h.pairIssuer f w, follows, if_true, State.memberPair]
    simp only [pairOf, opOf, inside]
    rfl
  exact ⟨_, runs, ⟨frame.regs, frame.mem, frame.threads⟩, flight rfl⟩

end

end Sys2Proof.Machine
end

section
namespace Sys2Proof.Machine
open Sys2Proof.Slice0
set_option Elab.async false

/-! ### Values of pairs (R57, R65, R69, R116) -/

section
variable {s : State} {c sl : Nat} {t : Thread} {w : BitVec 32}

/-- What a pair reads in a register is what stood there before its issue. -/
theorem OnlyFlips.rx_pair {u : State} (read : OnlyFlips (s.pairing c sl w) u) (f : Form) (r : BitVec 7) :
    u.rx (pairOf s f c sl t w) r = regWord s c t r := congrArg scalarOf (read.regs c (t.base + r.toNat)).val

variable (h : Issuing s c sl t) (alone : t.coupled = false) (own : t.forward = none) (loop : t.loopEndsAt t.pc = false)
include h alone own loop

/-- A pair whose whole effect is a value for rd (R65). -/
theorem Issuing.valuePaired {f : Form} {rd : BitVec 7} (hf : FormReady s c t { f with dsts := [(0, rd.toNat)] }) (value : Op → State → Vec)
    {v : Vec} (hv : ∀ u f, OnlyFlips (s.pairing c sl w) u → value (pairOf s f c sl t w) u = v) :
    ∃ u, (s.pairing c sl w).issueValue f rd value = .next u ∧ PairFrame s u c sl [] ∧
      InFlight s u c sl t f.lat [.reg (t.base + rd.toNat) v] (t.pc + 8) := by
  obtain ⟨u, run, -, flight, frame⟩ := h.fliesPaired alone own loop hf (fun o s => s.fly o [.reg (o.entry rd) (value o s)])
    [.reg (t.base + rd.toNat) v] 0 [] (by simp) fun u read => by
      rw [hv u _ read]
      rfl
  exact ⟨u, run, frame, flight rfl⟩

/-- The same with exception flags (R69). -/
theorem Issuing.flagsPaired {f : Form} {rd : BitVec 7} (hf : FormReady s c t { f with dsts := [(0, rd.toNat)] }) (value : Op → State → Vec × BitVec 5)
    {v : Vec × BitVec 5} (hv : ∀ u f, OnlyFlips (s.pairing c sl w) u → value (pairOf s f c sl t w) u = v) :
    ∃ u, (s.pairing c sl w).issueFlags f rd value = .next u ∧ PairFrame s u c sl [] ∧
      InFlight s u c sl t f.lat [.reg (t.base + rd.toNat) v.1, .flags v.2] (t.pc + 8) := by
  obtain ⟨u, run, -, flight, frame⟩ := h.fliesPaired alone own loop hf
    (fun o s => s.fly o [.reg (o.entry rd) (value o s).1, .flags (value o s).2]) [.reg (t.base + rd.toNat) v.1, .flags v.2] 0 [] (by simp)
    fun u read => by
      rw [hv u _ read]
      rfl
  exact ⟨u, run, frame, flight rfl⟩

/-- A load as the second word of a pair (R116). -/
theorem Issuing.loadPaired {major fn size : Nat} {rd ra : BitVec 7} {ta : BitVec 1} {off : BitVec 6} (a : Readable s c t ra.toNat)
    (d : Writable s c t rd.toNat) (kind : LoadKind) (acq : Option Nat) :
    ∃ u, (s.pairing c sl w).issue (formLoad major fn rd ra ta) (fun o s => s.flyLoad o rd kind [memAddr (s.rx o ra) off size] size acq) = .next u ∧
      PairFrame s u c sl [t.base + rd.toNat] ∧
      InFlightAtLeast s u c sl t 12 [.load (t.base + rd.toNat) kind [effective (regWord s c t ra) off size] size acq] (t.pc + 8) := by
  obtain ⟨u, run, flight, -, frame⟩ := h.fliesPaired (w := w) alone own loop (FormReady.load (major := major) (fn := fn) (ta := ta) a d)
    (fun o s => s.flyLoad o rd kind [memAddr (s.rx o ra) off size] size acq)
    [.load (t.base + rd.toNat) kind [effective (regWord s c t ra) off size] size acq] 1 [t.base + rd.toNat] (by simpa using h.entry_lt d.inWindow)
    fun u read => by
      rw [read.rx_pair, memAddr_eq_effective]
      rfl
  exact ⟨u, run, frame, flight⟩

end

end Sys2Proof.Machine

namespace Sys2Proof.Slice0
open Sys2Proof.Machine
set_option Elab.async false

/-! ### The families of the statement: their words, and what a pair of them issues (R54, R57) -/

/-- A word that decodes to an instruction whose own word has such a major may follow ONCE. -/
theorem onceAllowed_of_encode {w v : BitVec 32} {i : Instr} (word : decodeWord w = some i) (code : encode i = [v])
    (major : (bits v 26 6).toNat < 0x17 ∨ 0x1E < (bits v 26 6).toNat ∧ (bits v 26 6).toNat < 0x3D) : onceAllowed w = true := by
  obtain rfl : w = v := by simpa [encode_of_decodeWord word] using code
  exact onceAllowed_of_major major

section
variable {w : BitVec 32} {i : Instr} {major : BitVec 6} {rd ra rb : BitVec 7} {ta tb : BitVec 1} {p : BitVec 3}

/-- The formats RRR, RR and MEM, whose words begin with the major (R50, R53). -/
theorem onceAllowed_of_rrr (word : decodeWord w = some i) (code : encode i = [major ++ rd ++ ra ++ rb ++ p ++ ta ++ tb])
    (low : major.toNat < 0x17) : onceAllowed w = true :=
  onceAllowed_of_encode word code (by
    simp (disch := decide) only [bits_append_high, bits_self, Nat.reduceSub]
    exact .inl low)

theorem onceAllowed_of_rr {fn : BitVec 10} (word : decodeWord w = some i) (code : encode i = [major ++ rd ++ ra ++ fn ++ ta ++ tb])
    (low : major.toNat < 0x17) : onceAllowed w = true :=
  onceAllowed_of_encode word code (by
    simp (disch := decide) only [bits_append_high, bits_self, Nat.reduceSub]
    exact .inl low)

theorem onceAllowed_of_mem {sz : BitVec 2} {off : BitVec 6} (word : decodeWord w = some i)
    (code : encode i = [major ++ rd ++ ra ++ sz ++ p ++ ta ++ off]) (memory : 0x1E < major.toNat ∧ major.toNat < 0x3D) : onceAllowed w = true :=
  onceAllowed_of_encode word code (by
    simp (disch := decide) only [bits_append_high, bits_self, Nat.reduceSub]
    exact .inr memory)

end

theorem integerBinary_pairs : ∀ x ∈ integerBinary, ∃ (major fn : Nat) (val : Word → Word → Word),
    (∀ (rd ra rb : BitVec 7) (ta tb : BitVec 1), (∀ w, decodeWord w = some (x.1 rd ra rb ta tb) → onceAllowed w = true) ∧
      ∀ s : State, issuePair (x.1 rd ra rb ta tb) s = some (s.issueValue { formRRR major fn ra rb ta tb with lat := x.2.1 } rd
        fun o s => widen (val (s.rx o ra) (s.rx o rb)))) ∧
    ∀ a b, val a b = x.2.2 a b := by
  simp only [integerBinary, List.forall_mem_cons, List.not_mem_nil, false_implies, implies_true, and_true]
  and_intros
  all_goals refine ⟨_, _, _, fun _ _ _ _ _ => ⟨fun _ word => onceAllowed_of_rrr word rfl (by decide), fun _ => rfl⟩, ?_⟩
  exacts [valAdd_eq, valSub_eq, fun _ _ => rfl, fun _ _ => rfl, fun _ _ => rfl, valShl_eq, valShr_eq, valSra_eq, valMul_eq, fun _ _ => rfl,
    fun _ _ => rfl, valDiv_eq, valDivu_eq, valRem_eq, fun _ _ => rfl, valMin_eq, valMax_eq, valMinu_eq, valMaxu_eq,
    fun _ _ => boolWord_decide _, fun _ _ => boolWord_decide _, fun _ _ => boolWord_decide _, valSne_eq]

theorem integerUnary_pairs : ∀ x ∈ integerUnary, ∃ (fn : Nat) (val : Word → Word),
    (∀ (rd ra : BitVec 7) (ta : BitVec 1), (∀ w, decodeWord w = some (x.1 rd ra ta) → onceAllowed w = true) ∧
      ∀ s : State, issuePair (x.1 rd ra ta) s = some (s.issueValue (formRR 0x03 fn ra ta) rd fun o s => widen (val (s.rx o ra)))) ∧
    ∀ a, val a = x.2 a := by
  simp only [integerUnary, List.forall_mem_cons, List.not_mem_nil, false_implies, implies_true, and_true]
  and_intros
  all_goals refine ⟨_, _, fun _ _ _ => ⟨fun _ word => onceAllowed_of_rr word rfl (by decide), fun _ => rfl⟩, ?_⟩
  exacts [valClz_eq, valPopc_eq, valRev_eq, fun a => signExtend_setWidth a 8, fun a => signExtend_setWidth a 16,
    fun a => signExtend_setWidth a 32, valZextW_eq]

theorem floatBinary_pairs : ∀ x ∈ floatBinary, ∃ major fn : Nat, ∀ (rd ra rb : BitVec 7) (ta tb : BitVec 1),
    (∀ w, decodeWord w = some (x.1 rd ra rb ta tb) → onceAllowed w = true) ∧
    ∀ s : State, issuePair (x.1 rd ra rb ta tb) s = some (s.issueFlags { formRRR major fn ra rb ta tb with lat := x.2.1 } rd
      fun o s => x.2.2 (s.rx o ra) (s.rx o rb)) := by
  simp only [floatBinary, List.forall_mem_cons, List.not_mem_nil, false_implies, implies_true, and_true]
  and_intros
  all_goals exact ⟨_, _, fun _ _ _ _ _ => ⟨fun _ word => onceAllowed_of_rrr word rfl (by decide), fun _ => rfl⟩⟩

/-- The scope of an acquire word (R120). -/
theorem scopeOf_eq_orderScope (p : BitVec 3) : scopeOf p.toNat = orderScope p := by
  have zero_ : p.toNat = 0 ↔ p = 0 := by rw [← BitVec.toNat_inj]; rfl
  simp only [scopeOf, orderScope, zero_]

theorem scalarLoads_pairs : ∀ x ∈ scalarLoads, ∃ major : Nat, ∀ (rd ra : BitVec 7) (sz : BitVec 2) (p : BitVec 3) (ta : BitVec 1) (off : BitVec 6),
    (∀ w, decodeWord w = some (x.1 rd ra sz p ta off) → onceAllowed w = true) ∧
    ∀ s : State, issuePair (x.1 rd ra sz p ta off) s = some (s.issue (formLoad major (memFn sz p) rd ra ta)
      fun o s => s.flyLoad o rd (x.2.1 (2 ^ sz.toNat)) [memAddr (s.rx o ra) off (2 ^ sz.toNat)] (2 ^ sz.toNat) (x.2.2 p)) := by
  simp only [scalarLoads, List.forall_mem_cons, List.not_mem_nil, false_implies, implies_true, and_true]
  refine ⟨⟨0x20, ?_⟩, ⟨0x21, ?_⟩, ⟨0x22, ?_⟩⟩
  all_goals refine fun _ _ _ p _ _ => ⟨fun _ word => onceAllowed_of_mem word rfl (by decide), fun _ => ?_⟩
  · rfl
  · rfl
  · rw [← scopeOf_eq_orderScope]
    rfl

end Sys2Proof.Slice0
end

section
namespace Sys2Proof.Slice0
open Sys2Proof.Machine
set_option Elab.async false

section
variable {s : State} {c sl : Nat} {t : Thread} {w : BitVec 32}

/-! ### A pair outside a gang, family by family (R57) -/

section
variable (h : Issuing s c sl t) (alone : t.coupled = false) (own : t.forward = none) (loop : t.loopEndsAt t.pc = false)
include h alone own loop

theorem once_integerBinary : ∀ x ∈ integerBinary, ∀ (rd ra rb : BitVec 7) (ta tb : BitVec 1), decodeWord w = some (x.1 rd ra rb ta tb) →
    Readable s c t ra.toNat → Readable s c t rb.toNat → Writable s c t rd.toNat →
    ∃ u, exec (.once w) s = .next u ∧ PairFrame s u c sl [] ∧
      InFlight s u c sl t x.2.1 [.reg (t.base + rd.toNat) (widen (x.2.2 (regWord s c t ra) (regWord s c t rb)))] (t.pc + 8) := by
  intro x hx rd ra rb ta tb word a b d
  obtain ⟨major, fn, val, pairs, eq⟩ := integerBinary_pairs x hx
  obtain ⟨follows, issues⟩ := pairs rd ra rb ta tb
  obtain ⟨u, run, frame, flight⟩ := h.valuePaired (w := w) alone own loop
    (f := { formRRR major fn ra rb ta tb with lat := x.2.1 }) (FormReady.rrr a b d)
    (fun o s => widen (val (s.rx o ra) (s.rx o rb))) (v := widen (x.2.2 (regWord s c t ra) (regWord s c t rb)))
    fun u f read => by simp only [read.rx_pair, eq]
  exact ⟨u, h.once_issues word (follows w word) ((issues _).trans (congrArg some run)), frame, flight⟩

theorem once_integerUnary : ∀ x ∈ integerUnary, ∀ (rd ra : BitVec 7) (ta : BitVec 1), decodeWord w = some (x.1 rd ra ta) →
    Readable s c t ra.toNat → Writable s c t rd.toNat →
    ∃ u, exec (.once w) s = .next u ∧ PairFrame s u c sl [] ∧
      InFlight s u c sl t 12 [.reg (t.base + rd.toNat) (widen (x.2 (regWord s c t ra)))] (t.pc + 8) := by
  intro x hx rd ra ta word a d
  obtain ⟨fn, val, pairs, eq⟩ := integerUnary_pairs x hx
  obtain ⟨follows, issues⟩ := pairs rd ra ta
  obtain ⟨u, run, frame, flight⟩ := h.valuePaired (w := w) alone own loop (f := formRR 0x03 fn ra ta) (FormReady.rr (lat := 12) a d)
    (fun o s => widen (val (s.rx o ra))) (v := widen (x.2 (regWord s c t ra))) fun u f read => by simp only [read.rx_pair, eq]
  exact ⟨u, h.once_issues word (follows w word) ((issues _).trans (congrArg some run)), frame, flight⟩

theorem once_floatBinary : ∀ x ∈ floatBinary, ∀ (rd ra rb : BitVec 7) (ta tb : BitVec 1), decodeWord w = some (x.1 rd ra rb ta tb) →
    Readable s c t ra.toNat → Readable s c t rb.toNat → Writable s c t rd.toNat →
    ∃ u, exec (.once w) s = .next u ∧ PairFrame s u c sl [] ∧
      InFlight s u c sl t x.2.1 [.reg (t.base + rd.toNat) (x.2.2 (regWord s c t ra) (regWord s c t rb)).1,
        .flags (x.2.2 (regWord s c t ra) (regWord s c t rb)).2] (t.pc + 8) := by
  intro x hx rd ra rb ta tb word a b d
  obtain ⟨major, fn, pairs⟩ := floatBinary_pairs x hx
  obtain ⟨follows, issues⟩ := pairs rd ra rb ta tb
  obtain ⟨u, run, frame, flight⟩ := h.flagsPaired (w := w) alone own loop
    (f := { formRRR major fn ra rb ta tb with lat := x.2.1 }) (FormReady.rrr a b d)
    (fun o s => x.2.2 (s.rx o ra) (s.rx o rb)) (v := x.2.2 (regWord s c t ra) (regWord s c t rb))
    fun u f read => by simp only [read.rx_pair]
  exact ⟨u, h.once_issues word (follows w word) ((issues _).trans (congrArg some run)), frame, flight⟩

theorem once_scalarLoads : ∀ x ∈ scalarLoads, ∀ (rd ra : BitVec 7) (sz : BitVec 2) (p : BitVec 3) (ta : BitVec 1) (off : BitVec 6),
    decodeWord w = some (x.1 rd ra sz p ta off) → Readable s c t ra.toNat → Writable s c t rd.toNat →
    let n := 2 ^ sz.toNat
    ∃ u, exec (.once w) s = .next u ∧ PairFrame s u c sl [t.base + rd.toNat] ∧
      InFlightAtLeast s u c sl t 12 [.load (t.base + rd.toNat) (x.2.1 n) [effective (regWord s c t ra) off n] n (x.2.2 p)] (t.pc + 8) := by
  intro x hx rd ra sz p ta off word a d
  obtain ⟨major, pairs⟩ := scalarLoads_pairs x hx
  obtain ⟨follows, issues⟩ := pairs rd ra sz p ta off
  obtain ⟨u, run, frame, flight⟩ := h.loadPaired (w := w) alone own loop (major := major) (fn := memFn sz p) (size := 2 ^ sz.toNat) (ta := ta) (off := off) a d
    (x.2.1 (2 ^ sz.toNat)) (x.2.2 p)
  exact ⟨u, h.once_issues word (follows w word) ((issues _).trans (congrArg some run)), frame, flight⟩

end

/-! ### A pair of a gang's member (R100) -/

section
variable (h : Issuing s c sl t) (coupled : t.coupled = true) (member : t.gangPos ≠ 0)
include h coupled member

theorem member_integerBinary : ∀ x ∈ integerBinary, ∀ (rd ra rb : BitVec 7) (ta tb : BitVec 1), decodeWord w = some (x.1 rd ra rb ta tb) →
    rd.toNat < t.size → ∃ u, exec (.once w) s = .next u ∧ PairFrame s u c sl [] ∧ InFlight s u c sl t 12 [] (t.pc + 8) := by
  intro x hx rd ra rb ta tb word window
  obtain ⟨major, fn, val, pairs, -⟩ := integerBinary_pairs x hx
  obtain ⟨follows, issues⟩ := pairs rd ra rb ta tb
  obtain ⟨u, run, frame, flight⟩ := h.memberSkips (w := w) coupled member
    (f := { formRRR major fn ra rb ta tb with lat := x.2.1, dsts := [(0, rd.toNat)] }) (by simpa using window) _
  exact ⟨u, h.once_issues word (follows w word) ((issues _).trans (congrArg some run)), frame, flight⟩

theorem member_scalarLoads : ∀ x ∈ scalarLoads, ∀ (rd ra : BitVec 7) (sz : BitVec 2) (p : BitVec 3) (ta : BitVec 1) (off : BitVec 6),
    decodeWord w = some (x.1 rd ra sz p ta off) → rd.toNat < t.size →
    ∃ u, exec (.once w) s = .next u ∧ PairFrame s u c sl [] ∧ InFlight s u c sl t 12 [] (t.pc + 8) := by
  intro x hx rd ra sz p ta off word window
  obtain ⟨major, pairs⟩ := scalarLoads_pairs x hx
  obtain ⟨follows, issues⟩ := pairs rd ra sz p ta off
  obtain ⟨u, run, frame, flight⟩ := h.memberSkips (w := w) coupled member (f := formLoad major (memFn sz p) rd ra ta)
    (by simpa [formLoad] using window) _
  exact ⟨u, h.once_issues word (follows w word) ((issues _).trans (congrArg some run)), frame, flight⟩

end

end

/-- Settles O30: outside a gang a pair issues by the rules of one instruction, and goes on 8 bytes later; a member of a gang skips it. -/
theorem onceIsThePrefixedInstruction : Obligations.OnceIsThePrefixedInstruction := by
  refine ⟨fun s c sl t w h alone own loop => ?_, fun s c sl t w h coupled member => ?_, fun s c sl t w h => ⟨fun _ _ => ?_, fun bad => ?_⟩⟩
  · exact ⟨once_integerBinary h alone own loop, once_integerUnary h alone own loop, once_floatBinary h alone own loop,
      once_scalarLoads h alone own loop⟩
  · exact ⟨member_integerBinary h coupled member, member_scalarLoads h coupled member⟩
  · exact execOnce_goes ⟨t, h.slot, h.ready⟩ h.cur w
  · exact h.once_illegal (mayFollowOnce_eq w ▸ bad)

end Sys2Proof.Slice0
end

/-! PROOFS. O1, O2 and O4: issues whose effect is a value of the operands (R26, R50, R65, R69). -/
section
namespace Sys2Proof.Machine
open Sys2Proof.Slice0
set_option Elab.async false

/-! ### Issues whose effect is a value of the operands, format by format (R26, R50, R65, R69) -/

section
variable {s : State} {c sl : Nat} {t : Thread} (h : Issuing s c sl t) {major : Nat} (low : major < 0x17)
include h low

section
variable {fn lat : Nat} {rd ra rb : BitVec 7} {ta tb : BitVec 1} (a : Readable s c t ra.toNat) (b : Readable s c t rb.toNat)
  (d : Writable s c t rd.toNat)
include a b d

theorem Issuing.value_rrr (val : Word → Word → Vec) :
    ∃ u, s.issueValue { formRRR major fn ra rb ta tb with lat := lat } rd (fun o s => val (s.rx o ra) (s.rx o rb)) = .next u ∧
      InFlight s u c sl t lat [.reg (t.base + rd.toNat) (val (regWord s c t ra) (regWord s c t rb))] (t.pc + 4) ∧ IssueFrame s u c sl [] := by
  simpa only [State.rx_opOf, regWord_correctReads] using
    h.value (f := { formRRR major fn ra rb ta tb with lat := lat }) (FormReady.rrr a b d) (.inl low) fun o s => val (s.rx o ra) (s.rx o rb)

theorem Issuing.flags_rrr (val : Word → Word → Vec × BitVec 5) :
    ∃ u, s.issueFlags { formRRR major fn ra rb ta tb with lat := lat } rd (fun o s => val (s.rx o ra) (s.rx o rb)) = .next u ∧
      InFlight s u c sl t lat [.reg (t.base + rd.toNat) (val (regWord s c t ra) (regWord s c t rb)).1,
        .flags (val (regWord s c t ra) (regWord s c t rb)).2] (t.pc + 4) ∧ IssueFrame s u c sl [] := by
  simpa only [State.rx_opOf, regWord_correctReads] using
    h.flags (f := { formRRR major fn ra rb ta tb with lat := lat }) (FormReady.rrr a b d) (.inl low) fun o s => val (s.rx o ra) (s.rx o rb)
end

section
variable {fn lat : Nat} {rd ra : BitVec 7} {ta : BitVec 1} (a : Readable s c t ra.toNat) (d : Writable s c t rd.toNat)
include a d

theorem Issuing.value_rr (val : Word → Vec) :
    ∃ u, s.issueValue { formRR major fn ra ta with lat := lat } rd (fun o s => val (s.rx o ra)) = .next u ∧
      InFlight s u c sl t lat [.reg (t.base + rd.toNat) (val (regWord s c t ra))] (t.pc + 4) ∧ IssueFrame s u c sl [] := by
  simpa only [State.rx_opOf, regWord_correctReads] using
    h.value (f := { formRR major fn ra ta with lat := lat }) (FormReady.rr a d) (.inl low) fun o s => val (s.rx o ra)

theorem Issuing.flags_rr (val : Word → Vec × BitVec 5) :
    ∃ u, s.issueFlags { formRR major fn ra ta with lat := lat } rd (fun o s => val (s.rx o ra)) = .next u ∧
      InFlight s u c sl t lat [.reg (t.base + rd.toNat) (val (regWord s c t ra)).1, .flags (val (regWord s c t ra)).2] (t.pc + 4) ∧
      IssueFrame s u c sl [] := by
  simpa only [State.rx_opOf, regWord_correctReads] using
    h.flags (f := { formRR major fn ra ta with lat := lat }) (FormReady.rr a d) (.inl low) fun o s => val (s.rx o ra)
end

section
omit h low in
theorem formRRRR_lat (major : Nat) (ra rb : BitVec 7) (rc : BitVec 5) : (formRRRR major ra rb rc).lat = 12 := rfl

variable {rd ra rb : BitVec 7} {rc : BitVec 5} (a : Readable s c t ra.toNat) (b : Readable s c t rb.toNat) (e : Readable s c t rc.toNat)
  (d : Writable s c t rd.toNat)
include a b e d

theorem Issuing.value_rrrr (val : Word → Word → Word → Vec) :
    ∃ u, s.issueValue (formRRRR major ra rb rc) rd (fun o s => val (s.rx o ra) (s.rx o rb) (s.rx o (rc.setWidth 7))) = .next u ∧
      InFlight s u c sl t 12 [.reg (t.base + rd.toNat) (val (regWord s c t ra) (regWord s c t rb) (regWord s c t (rc.setWidth 7)))] (t.pc + 4) ∧
      IssueFrame s u c sl [] := by
  simpa only [State.rx_opOf, regWord_correctReads, formRRRR_lat] using
    h.value (f := formRRRR major ra rb rc) (FormReady.rrrr a b e d) (.inl low) fun o s => val (s.rx o ra) (s.rx o rb) (s.rx o (rc.setWidth 7))

theorem Issuing.flags_rrrr (val : Word → Word → Word → Vec × BitVec 5) :
    let v := val (regWord s c t ra) (regWord s c t rb) (regWord s c t (rc.setWidth 7))
    ∃ u, s.issueFlags (formRRRR major ra rb rc) rd (fun o s => val (s.rx o ra) (s.rx o rb) (s.rx o (rc.setWidth 7))) = .next u ∧
      InFlight s u c sl t 12 [.reg (t.base + rd.toNat) v.1, .flags v.2] (t.pc + 4) ∧ IssueFrame s u c sl [] := by
  simpa only [State.rx_opOf, regWord_correctReads, formRRRR_lat] using
    h.flags (f := formRRRR major ra rb rc) (FormReady.rrrr a b e d) (.inl low) fun o s => val (s.rx o ra) (s.rx o rb) (s.rx o (rc.setWidth 7))
end
end
end Sys2Proof.Machine

namespace Sys2Proof.Slice0
open Sys2Proof.Machine
set_option Elab.async false

/-! ### The families of scalar instructions, by what they issue -/

theorem integerBinary_issues : ∀ x ∈ integerBinary, ∃ (major fn : Nat) (val : Word → Word → Word), major < 0x17 ∧ (∀ a b, val a b = x.2.2 a b) ∧
    ∀ (s : State) (rd ra rb : BitVec 7) (ta tb : BitVec 1), exec (x.1 rd ra rb ta tb) s =
      s.issueValue { formRRR major fn ra rb ta tb with lat := x.2.1 } rd fun o s => widen (val (s.rx o ra) (s.rx o rb)) := by
  simp only [integerBinary, List.forall_mem_cons, List.not_mem_nil, false_implies, implies_true, and_true]
  and_intros
  all_goals refine ⟨_, _, _, by decide, ?_, fun _ _ _ _ _ _ => rfl⟩
  exacts [valAdd_eq, valSub_eq, fun _ _ => rfl, fun _ _ => rfl, fun _ _ => rfl, valShl_eq, valShr_eq, valSra_eq, valMul_eq, fun _ _ => rfl,
    fun _ _ => rfl, valDiv_eq, valDivu_eq, valRem_eq, fun _ _ => rfl, valMin_eq, valMax_eq, valMinu_eq, valMaxu_eq,
    fun _ _ => boolWord_decide _, fun _ _ => boolWord_decide _, fun _ _ => boolWord_decide _, valSne_eq]

theorem integerUnary_issues : ∀ x ∈ integerUnary, ∃ (fn : Nat) (val : Word → Word), (∀ a, val a = x.2 a) ∧
    ∀ (s : State) (rd ra : BitVec 7) (ta : BitVec 1), exec (x.1 rd ra ta) s =
      s.issueValue (formRR 0x03 fn ra ta) rd fun o s => widen (val (s.rx o ra)) := by
  simp only [integerUnary, List.forall_mem_cons, List.not_mem_nil, false_implies, implies_true, and_true]
  and_intros
  all_goals refine ⟨_, _, ?_, fun _ _ _ _ => rfl⟩
  exacts [valClz_eq, valPopc_eq, valRev_eq, fun a => signExtend_setWidth a 8, fun a => signExtend_setWidth a 16,
    fun a => signExtend_setWidth a 32, valZextW_eq]

theorem floatBinary_issues : ∀ x ∈ floatBinary, ∃ major fn : Nat, major < 0x17 ∧
    ∀ (s : State) (rd ra rb : BitVec 7) (ta tb : BitVec 1), exec (x.1 rd ra rb ta tb) s =
      s.issueFlags { formRRR major fn ra rb ta tb with lat := x.2.1 } rd fun o s => x.2.2 (s.rx o ra) (s.rx o rb) := by
  simp only [floatBinary, List.forall_mem_cons, List.not_mem_nil, false_implies, implies_true, and_true]
  and_intros
  all_goals exact ⟨_, _, by decide, fun _ _ _ _ _ _ => rfl⟩

theorem floatTernary_issues : ∀ x ∈ floatTernary, ∃ major : Nat, major < 0x17 ∧
    ∀ (s : State) (rd ra rb : BitVec 7) (rc : BitVec 5), exec (x.1 rd ra rb rc) s =
      s.issueFlags (formRRRR major ra rb rc) rd fun o s => x.2 (s.rx o ra) (s.rx o rb) (s.rx o (rc.setWidth 7)) := by
  simp only [floatTernary, List.forall_mem_cons, List.not_mem_nil, false_implies, implies_true, and_true]
  and_intros
  all_goals exact ⟨_, by decide, fun _ _ _ _ _ => rfl⟩

theorem floatUnary_issues : ∀ x ∈ floatUnary, ∃ major fn : Nat, major < 0x17 ∧
    ∀ (s : State) (rd ra : BitVec 7) (ta : BitVec 1), exec (x.1 rd ra ta) s =
      s.issueFlags { formRR major fn ra ta with lat := x.2.1 } rd fun o s => x.2.2 (s.rx o ra) := by
  simp only [floatUnary, List.forall_mem_cons, List.not_mem_nil, false_implies, implies_true, and_true]
  and_intros
  all_goals exact ⟨_, _, by decide, fun _ _ _ _ => rfl⟩

theorem floatClass_issues : ∀ x ∈ floatClass, ∃ fn : Nat,
    ∀ (s : State) (rd ra : BitVec 7) (ta : BitVec 1), exec (x.1 rd ra ta) s =
      s.issueValue (formRR 0x16 fn ra ta) rd fun o s => BitVec.ofNat 512 (x.2 (s.rx o ra)) := by
  simp only [floatClass, List.forall_mem_cons, List.not_mem_nil, false_implies, implies_true, and_true]
  and_intros
  all_goals exact ⟨_, fun _ _ _ _ => rfl⟩

theorem conversions_issues : ∀ x ∈ conversions,
    ∀ (s : State) (rd ra : BitVec 7) (mode : BitVec 3) (ta : BitVec 1), exec (x.1 rd ra mode ta) s =
      s.issueFlags (formRR 0x15 mode.toNat ra ta) rd fun o s => x.2 mode.toNat (s.rx o ra) := by
  simp only [conversions, List.forall_mem_cons, List.not_mem_nil, false_implies, implies_true, and_true]
  and_intros
  all_goals exact fun _ _ _ _ _ => rfl

end Sys2Proof.Slice0
end

/-! PROOFS. O1 and O2: words and values of the integer instructions (R70 to R76). -/
section
namespace Sys2Proof
set_option Elab.async false

/-! ### Words of the integer instructions (R50, R53, R70 to R79) -/

/-- The fields of an RRR word (R50). -/
theorem fields_of_rrr (m : BitVec 6) (rd ra rb : BitVec 7) (fn : BitVec 3) (ta tb : BitVec 1) :
    let w := m ++ rd ++ ra ++ rb ++ fn ++ ta ++ tb
    bits w 26 6 = m ∧ bits w 19 7 = rd ∧ bits w 12 7 = ra ∧ bits w 5 7 = rb ∧ bits w 2 3 = fn ∧ bits w 1 1 = ta ∧ bits w 0 1 = tb := by
  simp (disch := decide) only [bits_append_low, bits_append_high, bits_self, Nat.reduceSub, Nat.sub_self, and_self]

/-- The word that encodes a well-formed instruction decodes to it. -/
theorem decodeWord_of_encode {i : Instr} {w : BitVec 32} (code : encode i = [w]) (wf : wellFormed i = true) : decodeWord w = some i :=
  Laws.OneWord.every i wf w code

theorem wellFormed_add {rd ra rb : BitVec 7} {ta tb : BitVec 1} (nonzero : 0#6 ++ rd ++ ra ++ rb ++ 0#3 ++ ta ++ tb ≠ 0#32) :
    wellFormed (.add rd ra rb ta tb) = true := by
  unfold wellFormed
  by_contra zeros
  simp only [Bool.not_eq_true', Bool.not_eq_false, Bool.and_eq_true, beq_iff_eq] at zeros
  obtain ⟨⟨⟨⟨rfl, rfl⟩, rfl⟩, rfl⟩, rfl⟩ := zeros
  exact nonzero (by decide)

/-- An instruction of one source decodes where the fields of its second source are zero (R74). -/
theorem decodeWord_unary {n : BitVec 3} {op : BitVec 7 → BitVec 7 → BitVec 1 → Instr}
    (layout : ∀ w : BitVec 32, bits w 2 3 = n →
      decode03 w = if bits w 0 1 = 0#1 ∧ bits w 5 7 = 0#7 then some (op (bits w 19 7) (bits w 12 7) (bits w 1 1)) else none)
    (wf : ∀ rd ra ta, wellFormed (op rd ra ta) = true) (rd ra rb : BitVec 7) (ta tb : BitVec 1) :
    decodeWord (3#6 ++ rd ++ ra ++ rb ++ n ++ ta ++ tb) = if rb = 0 ∧ tb = 0 then some (op rd ra ta) else none := by
  obtain ⟨major, hrd, hra, hrb, hfn, hta, htb⟩ := fields_of_rrr 3#6 rd ra rb n ta tb
  have tested := (layout03 major).trans (layout _ hfn)
  rw [hrd, hra, hrb, hta, htb] at tested
  simpa [wf, and_comm] using decodeWord_of_tested tested

end Sys2Proof

namespace Sys2Proof.Machine
set_option Elab.async false

/-! ### Immediate operands (R75, R76) -/

theorem valAddi_eq (a : Word) (i : BitVec 11) : valAddi a (i.signExtend 64) = BitVec.ofInt 64 (a.toInt + i.toInt) := by
  rw [BitVec.ofInt_add, BitVec.ofInt_toInt]
  rfl
theorem valSlti_eq (a : Word) (i : BitVec 11) : valSlti a (i.signExtend 64) = if a.toInt < i.toInt then 1 else 0 := by
  rw [valSlti, BitVec.toInt_signExtend_of_le (by decide), boolWord_decide]
theorem valShli_eq (a : Word) (n : BitVec 6) : valShli a n = BitVec.ofNat 64 (a.toNat * 2 ^ n.toNat) :=
  BitVec.eq_of_toNat_eq (by simp [valShli, Nat.shiftLeft_eq])
theorem valShri_eq (a : Word) (n : BitVec 6) : valShri a n = BitVec.ofNat 64 (a.toNat / 2 ^ n.toNat) :=
  BitVec.eq_of_toNat_eq (by
    rw [BitVec.toNat_ofNat, Nat.mod_eq_of_lt (Nat.lt_of_le_of_lt (Nat.div_le_self _ _) a.isLt)]
    simp [valShri, Nat.shiftRight_eq_div_pow])
theorem valSrai_eq (a : Word) (n : BitVec 6) : valSrai a n = BitVec.ofInt 64 (a.toInt / 2 ^ n.toNat) := by
  simp [valSrai, BitVec.sshiftRight, Int.shiftRight_eq_div_pow]
theorem scaledSum_eq (a b : Word) (k : BitVec 3) : a + b <<< k.toNat = BitVec.ofNat 64 (a.toNat + b.toNat * 2 ^ k.toNat) :=
  BitVec.eq_of_toNat_eq (by simp [Nat.shiftLeft_eq])

end Sys2Proof.Machine

namespace Sys2Proof.Slice0
open Sys2Proof.Machine
set_option Elab.async false

theorem integerMajors_words : ∀ m ∈ integerMajors, ∀ p ∈ m.2.zipIdx, ∀ (rd ra rb : BitVec 7) (ta tb : BitVec 1),
    let w := m.1 ++ rd ++ ra ++ rb ++ BitVec.ofNat 3 p.2 ++ ta ++ tb
    encode (p.1 rd ra rb ta tb) = [w] ∧ (w ≠ 0 → wellFormed (p.1 rd ra rb ta tb) = true) := by
  simp only [integerMajors, List.zipIdx_cons, List.zipIdx_nil, List.forall_mem_cons, List.not_mem_nil, false_implies, implies_true, and_true]
  refine ⟨⟨fun rd ra rb ta tb => ⟨rfl, wellFormed_add⟩, ?_⟩, ?_⟩
  · and_intros <;> exact fun _ _ _ _ _ => ⟨rfl, fun _ => rfl⟩
  · and_intros <;> exact fun _ _ _ _ _ => ⟨rfl, fun _ => rfl⟩

/-- fn 7 of major 1 is undefined (R56). -/
theorem decodeWord_major1_fn7 (rd ra rb : BitVec 7) (ta tb : BitVec 1) : decodeWord (1#6 ++ rd ++ ra ++ rb ++ 7#3 ++ ta ++ tb) = none := by
  obtain ⟨major, -, -, -, fn, -⟩ := fields_of_rrr 1#6 rd ra rb 7#3 ta tb
  rw [decodeWord, layout01 major, decode01, fn]
  rfl

/-- Settles O1: the words by the law of each instruction's word, and D by the value that each instruction gives. -/
theorem integerBinaryIssues : Obligations.IntegerBinaryIssues := by
  refine ⟨fun m hm n op rd ra rb ta tb hop nonzero => ?_, decodeWord_major1_fn7, fun x hx s c sl t rd ra rb ta tb h a b d => ?_⟩
  · obtain ⟨code, wf⟩ := integerMajors_words m hm (op, n) (List.mk_mem_zipIdx_iff_getElem?.mpr hop) rd ra rb ta tb
    exact decodeWord_of_encode code (wf nonzero)
  · obtain ⟨major, fn, val, low, eq, runs⟩ := integerBinary_issues x hx
    rw [runs, ← eq]
    exact h.value_rrr low a b d fun x y => widen (val x y)

/-! ### Words and issues of the unary and immediate instructions (R74 to R76) -/

theorem integerUnary_decode : ∀ p ∈ (integerUnary.map Prod.fst).zipIdx, ∀ (rd ra rb : BitVec 7) (ta tb : BitVec 1),
    decodeWord (3#6 ++ rd ++ ra ++ rb ++ BitVec.ofNat 3 p.2 ++ ta ++ tb) = if rb = 0 ∧ tb = 0 then some (p.1 rd ra ta) else none := by
  simp only [integerUnary, List.map_cons, List.map_nil, List.zipIdx_cons, List.zipIdx_nil, List.forall_mem_cons, List.not_mem_nil, false_implies,
    implies_true, and_true]
  and_intros
  all_goals
    refine decodeWord_unary (fun w fn => ?_) fun _ _ _ => rfl
    rw [decode03, fn]
    rfl

theorem integerImmediate_words : ∀ p ∈ ([4, 5, 6, 7, 11] : List (BitVec 6)).zip (integerImmediate.map Prod.fst),
    ∀ (rd ra : BitVec 7) (ta : BitVec 1) (imm : BitVec 11),
      encode (p.2 rd ra ta imm) = [p.1 ++ rd ++ ra ++ ta ++ imm] ∧ wellFormed (p.2 rd ra ta imm) = true := by
  simp only [integerImmediate, List.map_cons, List.map_nil, List.zip_cons_cons, List.zip_nil_left, List.forall_mem_cons, List.not_mem_nil,
    false_implies, implies_true, and_true]
  and_intros <;> exact fun _ _ _ _ => ⟨rfl, rfl⟩

theorem integerImmediate_issues : ∀ x ∈ integerImmediate, ∃ (major : Nat) (val : Word → Word → Word), major < 0x17 ∧
    (∀ (a : Word) (i : BitVec 11), val a (i.signExtend 64) = x.2 a i.toInt) ∧
    ∀ (s : State) (rd ra : BitVec 7) (ta : BitVec 1) (imm : BitVec 11), exec (x.1 rd ra ta imm) s =
      s.issueValue (formRR major 0 ra ta) rd fun o s => widen (val (s.rx o ra) (imm.signExtend 64)) := by
  simp only [integerImmediate, List.forall_mem_cons, List.not_mem_nil, false_implies, implies_true, and_true]
  and_intros
  all_goals refine ⟨_, _, by decide, ?_, fun _ _ _ _ _ => rfl⟩
  exacts [valAddi_eq, fun _ _ => rfl, fun _ _ => rfl, fun _ _ => rfl, valSlti_eq]

theorem shiftImmediate_issues : ∀ x ∈ shiftImmediate, ∃ (major : Nat) (val : Word → BitVec 6 → Word), major < 0x17 ∧
    (∀ (a : Word) (n : BitVec 6), val a n = x.2 a n.toNat) ∧
    ∀ (s : State) (rd ra : BitVec 7) (ta : BitVec 1) (n : BitVec 6), exec (x.1 rd ra ta n) s =
      s.issueValue (formRR major 0 ra ta) rd fun o s => widen (val (s.rx o ra) n) := by
  simp only [shiftImmediate, List.forall_mem_cons, List.not_mem_nil, false_implies, implies_true, and_true]
  and_intros
  all_goals refine ⟨_, _, by decide, ?_, fun _ _ _ _ _ => rfl⟩
  exacts [valShli_eq, valShri_eq, valSrai_eq]

/-- MOVI has no source (R76). -/
theorem movi_issues {s : State} {c sl : Nat} {t : Thread} (h : Issuing s c sl t) {rd : BitVec 7} (imm : BitVec 19) (d : Writable s c t rd.toNat) :
    ∃ u, exec (.movi rd imm) s = .next u ∧
      InFlight s u c sl t 12 [.reg (t.base + rd.toNat) (widen (BitVec.ofInt 64 imm.toInt))] (t.pc + 4) ∧ IssueFrame s u c sl [] := by
  have ready : FormReady s c t { Form.plain 0x0C 0 with dsts := [(0, rd.toNat)] } := by
    constructor <;> simp [Form.plain, d]
  exact h.value ready (.inl (by decide : 0x0C < 0x17)) fun _ _ => widen (imm.signExtend 64)

/-- Settles O2: the words by the laws of the words and by their zero fields, and D by the value that each instruction gives. -/
theorem integerOtherIssues : Obligations.IntegerOtherIssues := by
  refine ⟨fun n op hop => integerUnary_decode (op, n) (List.mk_mem_zipIdx_iff_getElem?.mpr hop), fun n m op hm hop rd ra ta imm => ?_,
    fun n m op hm hop => ?_, fun rd imm => decodeWord_of_encode rfl rfl, fun rd ra rb sh ta tb => decodeWord_of_encode rfl rfl,
    fun x hx s c sl t rd ra ta h a d => ?_, fun x hx s c sl t rd ra ta imm h a d => ?_, fun x hx s c sl t rd ra ta n h a d => ?_,
    fun s c sl t rd imm h d => movi_issues h imm d, fun s c sl t rd ra rb sh ta tb h a b d => ?_, fun s c sl t rd ra rb rc h a b e d => ?_⟩
  · have both := (List.getElem?_zip_eq_some (z := (m, op))).mpr ⟨hm, hop⟩
    obtain ⟨code, wf⟩ := integerImmediate_words (m, op) (List.mem_of_getElem? both) rd ra ta imm
    exact decodeWord_of_encode code wf
  · have both := (List.getElem?_zip_eq_some (z := (m, op))).mpr ⟨hm, hop⟩
    exact immediateShifts_decode (m, op) (List.mem_of_getElem? both)
  · obtain ⟨fn, val, eq, runs⟩ := integerUnary_issues x hx
    rw [runs, ← eq]
    exact h.value_rr (by decide : 0x03 < 0x17) (lat := 12) a d fun x => widen (val x)
  · obtain ⟨major, val, low, eq, runs⟩ := integerImmediate_issues x hx
    rw [runs, ← eq]
    exact h.value_rr low (lat := 12) a d fun x => widen (val x (imm.signExtend 64))
  · obtain ⟨major, val, low, eq, runs⟩ := shiftImmediate_issues x hx
    rw [runs, ← eq]
    exact h.value_rr low (lat := 12) a d fun x => widen (val x n)
  · rw [← scaledSum_eq]
    exact h.value_rrr (by decide : 0x0E < 0x17) (lat := 12) a b d fun x y => widen (x + y <<< sh.toNat)
  · rw [← ite_not]
    exact h.value_rrrr (by decide : 0x0F < 0x17) a b e d fun x y z => widen (if z ≠ 0 then x else y)

end Sys2Proof.Slice0
end

/-! PROOFS. O4: one rounding of an exact value, and the operations that round (R68, R69, R80 to R84). -/
section
namespace Sys2Proof.Machine
open Sys2Proof.Slice0
set_option Elab.async false

/-! ### Rounding a magnitude with its sign (R68, R83) -/

/-- A number with a sign. -/
def signedBy {α : Type} [Neg α] (neg : Bool) (y : α) : α := if neg then -y else y

@[simp] theorem signedBy_false {α : Type} [Neg α] (y : α) : signedBy false y = y := rfl
@[simp] theorem signedBy_true {α : Type} [Neg α] (y : α) : signedBy true y = -y := rfl

theorem signedBy_mul (neg : Bool) (y z : Rat) : signedBy neg (y * z) = signedBy neg y * z := by cases neg <;> simp
theorem signedBy_div (neg : Bool) (y z : Rat) : signedBy neg (y / z) = signedBy neg y / z := by cases neg <;> simp [neg_div]
theorem signedBy_cast (neg : Bool) (n : Int) : ((signedBy neg n : Int) : Rat) = signedBy neg (n : Rat) := by cases neg <;> simp
theorem signedBy_inj {neg : Bool} {y z : Rat} : signedBy neg y = signedBy neg z ↔ y = z := by cases neg <;> simp
theorem abs_signedBy (neg : Bool) {y : Rat} (h : 0 ≤ y) : |signedBy neg y| = y := by cases neg <;> simp [abs_of_nonneg h]
theorem signedBy_lt_zero (neg : Bool) {y : Rat} (h : 0 < y) : signedBy neg y < 0 ↔ neg = true := by cases neg <;> simp [h, h.le]
theorem zero_lt_signedBy (neg : Bool) {y : Rat} (h : 0 < y) : 0 < signedBy neg y ↔ neg = false := by cases neg <;> simp [h, h.le]

theorem ratAbs_eq (x : Rat) : x.abs = |x| := by
  unfold Rat.abs
  split
  case isTrue h => exact (abs_of_nonneg h).symm
  case isFalse h => exact (abs_of_neg (not_le.mp h)).symm

/-- The remainder against half a unit: below, equal, above. -/
def Compared (cmp : Nat) (φ : Rat) : Prop := cmp = 0 ∧ φ < 1 / 2 ∨ cmp = 1 ∧ φ = 1 / 2 ∨ cmp = 2 ∧ 1 / 2 < φ

/-- To the nearest, with ties to even, below zero as above (R68). -/
theorem roundedTo_nearest {mode : Mode} (hm : mode = 0 ∨ ∃ k, mode = k + 4) (neg : Bool) {y : Rat} {n : Int} (low : 2 * (n : Rat) - 1 ≤ 2 * y)
    (high : 2 * y ≤ 2 * n + 1) (tie : 2 * y = 2 * n - 1 ∨ 2 * y = 2 * n + 1 → n % 2 = 0) : RoundedTo mode (signedBy neg y) (signedBy neg n) := by
  have nearest : 2 * ((signedBy neg n : Int) : Rat) - 1 ≤ 2 * signedBy neg y ∧ 2 * signedBy neg y ≤ 2 * ((signedBy neg n : Int) : Rat) + 1 ∧
      (2 * signedBy neg y = 2 * ((signedBy neg n : Int) : Rat) - 1 ∨ 2 * signedBy neg y = 2 * ((signedBy neg n : Int) : Rat) + 1 →
        signedBy neg n % 2 = 0) := by
    cases neg
    · exact ⟨low, high, tie⟩
    · simp only [signedBy_true, Int.cast_neg]
      refine ⟨by linarith, by linarith, fun h => ?_⟩
      have := tie (h.symm.imp (fun e => by linarith) fun e => by linarith)
      omega
  obtain rfl | ⟨k, rfl⟩ := hm <;> exact nearest

/-- The choice between the two integers around a magnitude is the mode's (R83). -/
theorem roundsUp_rounds (mode : Mode) (neg : Bool) (q cmp : Nat) (exact : Bool) {φ : Rat} (low : 0 ≤ φ) (high : φ < 1)
    (he : exact = true ↔ φ = 0) (hc : Compared cmp φ) :
    RoundedTo mode (signedBy neg (q + φ)) (signedBy neg ((if roundsUp mode neg (q % 2 == 1) cmp exact then q + 1 else q : Nat) : Int)) := by
  have q0 : (0 : Rat) ≤ q := Nat.cast_nonneg q
  have part : exact = true ∧ φ = 0 ∨ exact = false ∧ 0 < φ := by
    cases exact
    · exact .inr ⟨rfl, low.lt_of_ne' fun e => Bool.false_ne_true (he.mpr e)⟩
    · exact .inl ⟨rfl, he.mp rfl⟩
  have nearest (hm : mode = 0 ∨ ∃ k, mode = k + 4) (up : roundsUp mode neg (q % 2 == 1) cmp exact = (cmp == 2 || (cmp == 1 && q % 2 == 1))) :
      RoundedTo mode (signedBy neg (q + φ)) (signedBy neg ((if roundsUp mode neg (q % 2 == 1) cmp exact then q + 1 else q : Nat) : Int)) := by
    rw [up]
    obtain ⟨rfl, h⟩ | ⟨rfl, h⟩ | ⟨rfl, h⟩ := hc
    · refine roundedTo_nearest hm neg ?_ ?_ fun tie => ?_
      · simp; linarith
      · simp; linarith
      · simp at tie; rcases tie with e | e <;> linarith
    · rcases Nat.mod_two_eq_zero_or_one q with even | odd
      · refine roundedTo_nearest hm neg ?_ ?_ fun _ => ?_
        · simp [even, h]; linarith
        · simp [even, h]; linarith
        · simp [even]; omega
      · refine roundedTo_nearest hm neg ?_ ?_ fun _ => ?_
        · simp [odd, h]; linarith
        · simp [odd, h]; linarith
        · simp [odd]; omega
    · refine roundedTo_nearest hm neg ?_ ?_ fun tie => ?_
      · simp; linarith
      · simp; linarith
      · simp at tie; rcases tie with e | e <;> linarith
  match mode with
  | 0 => exact nearest (.inl rfl) rfl
  | 1 =>
    change RoundedTo 1 (signedBy neg (q + φ)) (signedBy neg (q : Int))
    cases neg
    · exact ⟨fun _ => ⟨by simpa using low, by simpa using high⟩, fun below => by simp at below; linarith⟩
    · exact ⟨fun above => by simp at above ⊢; constructor <;> linarith, fun _ => by simp; constructor <;> linarith⟩
  | 2 =>
    cases neg
    · exact ⟨by simpa [roundsUp] using low, by simpa [roundsUp] using high⟩
    · obtain ⟨rfl, rfl⟩ | ⟨rfl, pos⟩ := part
      · exact ⟨by simp [roundsUp], by simp [roundsUp]⟩
      · exact ⟨by simp [roundsUp]; linarith, by simp [roundsUp]; linarith⟩
  | 3 =>
    cases neg
    · obtain ⟨rfl, rfl⟩ | ⟨rfl, pos⟩ := part
      · exact ⟨by simp [roundsUp], by simp [roundsUp]⟩
      · exact ⟨by simp [roundsUp]; linarith, by simp [roundsUp]; linarith⟩
    · exact ⟨by simp [roundsUp]; linarith, by simpa [roundsUp] using low⟩
  | k + 4 => exact nearest (.inr ⟨k, rfl⟩) rfl

/-- y is the magnitude that m units stand for: m of them, or more than m and less than m + 1 where a fraction was cut off (R68). -/
def Stands (m : Nat) (sticky : Bool) (y : Rat) : Prop := if sticky then (m : Rat) < y ∧ y < m + 1 else y = m

theorem Stands.le {m : Nat} {sticky : Bool} {y : Rat} (h : Stands m sticky y) : (m : Rat) ≤ y := by
  cases sticky
  · exact (show y = m from h).ge
  · exact (show _ ∧ _ from h).1.le
theorem Stands.lt {m : Nat} {sticky : Bool} {y : Rat} (h : Stands m sticky y) : y < m + 1 := by
  cases sticky
  · exact (show y = m from h).trans_lt (lt_add_one _)
  · exact (show _ ∧ _ from h).2

/-- An exact magnitude is never rounded away from zero. -/
theorem roundsUp_exact (mode : Mode) (neg odd : Bool) : roundsUp mode neg odd 0 true = false := by
  match mode with
  | 0 | 1 => rfl
  | 2 | 3 => simp [roundsUp]
  | k + 4 => rfl

/-- What a magnitude has above the quotient of its units, in the quotient's unit. -/
def fraction (m sh : Nat) (y : Rat) : Rat := y / 2 ^ sh - (m / 2 ^ sh : Nat)
/-- How the dropped bits compare with half a unit, as `roundShift` finds it. -/
def comparison (m sh : Nat) (sticky : Bool) : Nat :=
  if sh = 0 then 0 else if m % 2 ^ sh < 2 ^ sh / 2 then 0 else if m % 2 ^ sh = 2 ^ sh / 2 && !sticky then 1 else 2

theorem roundShift_eq (mode : Mode) (neg : Bool) (m sh : Nat) (sticky : Bool) : roundShift mode neg m sh sticky =
    (if roundsUp mode neg (m / 2 ^ sh % 2 == 1) (comparison m sh sticky) (m % 2 ^ sh == 0 && !sticky) then m / 2 ^ sh + 1 else m / 2 ^ sh,
      m % 2 ^ sh == 0 && !sticky) := rfl

section
variable {m sh : Nat} {sticky : Bool} {y : Rat}

theorem fraction_mul (m sh : Nat) (y : Rat) : fraction m sh y * 2 ^ sh = (m % 2 ^ sh : Nat) + (y - m) := by
  have whole : ((m / 2 ^ sh : Nat) : Rat) * 2 ^ sh + ((m % 2 ^ sh : Nat) : Rat) = m := by exact_mod_cast Nat.div_add_mod' m (2 ^ sh)
  rw [fraction, sub_mul, div_mul_cancel₀ _ (by positivity)]
  linarith

variable (h : Stands m sticky y)
include h

theorem Stands.fraction_nonneg : 0 ≤ fraction m sh y := by
  have r0 : (0 : Rat) ≤ (m % 2 ^ sh : Nat) := Nat.cast_nonneg _
  exact nonneg_of_mul_nonneg_left (b := 2 ^ sh) (by linarith [fraction_mul m sh y, h.le]) (by positivity)

theorem Stands.fraction_lt_one : fraction m sh y < 1 := by
  have rest : ((m % 2 ^ sh : Nat) : Rat) + 1 ≤ 2 ^ sh := by exact_mod_cast Nat.mod_lt m (Nat.two_pow_pos sh)
  exact lt_of_mul_lt_mul_right (a := 2 ^ sh) (by linarith [fraction_mul m sh y, h.lt]) (by positivity)

/-- Nothing is lost where the dropped bits are zero and no fraction was cut off. -/
theorem Stands.exact_iff : (m % 2 ^ sh == 0 && !sticky) = true ↔ fraction m sh y = 0 := by
  have scaled : fraction m sh y = 0 ↔ fraction m sh y * 2 ^ sh = 0 := by simp
  rw [Bool.and_eq_true, beq_iff_eq, scaled, fraction_mul]
  cases sticky
  · have : y = m := h
    simp [this]
  · have cut : (m : Rat) < y := (show _ ∧ _ from h).1
    have r0 : (0 : Rat) ≤ (m % 2 ^ sh : Nat) := Nat.cast_nonneg _
    constructor
    · simp
    · intro e
      linarith

theorem Stands.compared (hs : sticky = true → 0 < sh) : Compared (comparison m sh sticky) (fraction m sh y) := by
  have part := fraction_mul m sh y
  obtain rfl | pos := Nat.eq_zero_or_pos sh
  · obtain rfl : sticky = false := by simpa using hs
    have all : y = m := h
    simp only [all, pow_zero, Nat.mod_one, Nat.cast_zero, mul_one, sub_self, add_zero] at part
    exact .inl ⟨rfl, by rw [all, part]; norm_num⟩
  · obtain ⟨half, e⟩ : ∃ half, 2 ^ sh = 2 * half := ⟨2 ^ (sh - 1), by rw [← Nat.pow_succ']; congr; omega⟩
    have half_pos : (0 : Rat) < 2 * (half : Rat) := by
      have := e ▸ Nat.two_pow_pos sh
      exact_mod_cast this
    have below := h.le
    have above := h.lt
    rw [show (2 : Rat) ^ sh = 2 * half by exact_mod_cast e] at part
    rw [comparison, if_neg pos.ne', e, Nat.mul_div_cancel_left _ (by decide : 0 < 2)]
    rw [e] at part
    generalize m % (2 * half) = r at part
    split
    case isTrue less =>
      have : (r : Rat) + 1 ≤ half := by exact_mod_cast less
      exact .inl ⟨rfl, lt_of_mul_lt_mul_right (by linarith) half_pos.le⟩
    case isFalse notLess =>
      have : (half : Rat) ≤ r := by exact_mod_cast not_lt.mp notLess
      split
      case isTrue equal =>
        obtain ⟨rfl, rfl⟩ : r = half ∧ sticky = false := by simpa using equal
        have : y = m := h
        exact .inr (.inl ⟨rfl, mul_right_cancel₀ half_pos.ne' (by linarith)⟩)
      case isFalse more =>
        refine .inr (.inr ⟨rfl, lt_of_mul_lt_mul_right ?_ half_pos.le⟩)
        cases sticky
        · have : half + 1 ≤ r := by
            simp only [Bool.not_false, Bool.and_true, decide_eq_true_eq] at more
            omega
          have : (half : Rat) + 1 ≤ r := by exact_mod_cast this
          linarith
        · have : (m : Rat) < y := (show _ ∧ _ from h).1
          linarith

/-- Dropping low bits rounds the magnitude they stand for, and says whether nothing was lost. -/
theorem Stands.roundShift (mode : Mode) (neg : Bool) (hs : sticky = true → 0 < sh) :
    RoundedTo mode (signedBy neg (y / 2 ^ sh)) (signedBy neg ((Machine.roundShift mode neg m sh sticky).1 : Int)) ∧
    ((Machine.roundShift mode neg m sh sticky).2 = true ↔ ((Machine.roundShift mode neg m sh sticky).1 : Rat) = y / 2 ^ sh) := by
  have hφ : y / 2 ^ sh = (m / 2 ^ sh : Nat) + fraction m sh y := by rw [fraction]; ring
  rw [roundShift_eq, hφ]
  refine ⟨roundsUp_rounds mode neg (m / 2 ^ sh) _ _ h.fraction_nonneg h.fraction_lt_one h.exact_iff (h.compared hs), h.exact_iff.trans ?_⟩
  constructor
  · intro zero
    have cmp : comparison m sh sticky = 0 := by
      obtain ⟨e, -⟩ | ⟨-, e⟩ | ⟨-, e⟩ := h.compared hs
      · exact e
      · norm_num [zero] at e
      · norm_num [zero] at e
    simp only [cmp, h.exact_iff.mpr zero, roundsUp_exact, zero, Bool.false_eq_true, if_false, add_zero]
  · intro e
    have high := h.fraction_lt_one (sh := sh)
    split at e
    · push_cast at e
      linarith
    · linarith

end
end Sys2Proof.Machine

namespace Sys2Proof.Machine
open Sys2Proof.Slice0
set_option Elab.async false

/-! ### Patterns without their sign (R68, R201) -/

/-- A format of binary floating point: at least two exponent bits and one mantissa bit. -/
structure Fmt.Sane (f : Fmt) : Prop where
  expBits : 2 ≤ f.e
  mantBits : 1 ≤ f.m

/-- Significand, exponent and value of the finite number that a pattern without its sign stands for. -/
def Fmt.mant (f : Fmt) (p : Nat) : Nat := p - (p / 2 ^ f.m - 1) * 2 ^ f.m
def Fmt.expo (f : Fmt) (p : Nat) : Int := f.low + (p / 2 ^ f.m - 1 : Nat)
def magnitude (f : Fmt) (p : Nat) : Rat := f.mant p * (2 : Rat) ^ f.expo p

section
variable {f : Fmt}

/-- The significand has its leading bit, but for a subnormal. -/
theorem Fmt.mant_eq (f : Fmt) (p : Nat) : f.mant p = if p / 2 ^ f.m = 0 then p % 2 ^ f.m else p % 2 ^ f.m + 2 ^ f.m := by
  have whole := Nat.div_add_mod' p (2 ^ f.m)
  unfold Fmt.mant
  generalize p / 2 ^ f.m = e at *
  generalize p % 2 ^ f.m = r at *
  generalize 2 ^ f.m = P at *
  cases e with
  | zero => simp at whole ⊢; exact whole.symm
  | succ n => simp [← whole, Nat.succ_mul]; omega

theorem Fmt.mant_lt (f : Fmt) (p : Nat) : f.mant p < 2 ^ (f.m + 1) := by
  have := Nat.mod_lt p (Nat.two_pow_pos f.m)
  rw [Fmt.mant_eq, pow_succ]
  split <;> omega

/-- Any significand and exponent that a pattern may be joined from, also one that carries into the next binade. -/
theorem magnitude_join (f : Fmt) {g r : Nat} (normal : g = 0 ∨ 2 ^ f.m ≤ r) (top : r ≤ 2 ^ (f.m + 1)) :
    magnitude f (g * 2 ^ f.m + r) = r * (2 : Rat) ^ (f.low + g) := by
  have P0 := Nat.two_pow_pos f.m
  have quotient : (g * 2 ^ f.m + r) / 2 ^ f.m = g + r / 2 ^ f.m := by rw [Nat.add_comm, Nat.add_mul_div_right _ _ P0, Nat.add_comm]
  rw [pow_succ] at top
  obtain lt | ge := Nat.lt_or_ge r (2 ^ f.m)
  · obtain rfl : g = 0 := normal.resolve_right (by omega)
    simp [magnitude, Fmt.mant, Fmt.expo, Nat.div_eq_of_lt lt]
  obtain lt2 | ge2 := Nat.lt_or_ge r (2 ^ f.m * 2)
  · have one : r / 2 ^ f.m = 1 := Nat.div_eq_of_lt_le (by omega) (by omega)
    simp [magnitude, Fmt.mant, Fmt.expo, quotient, one]
  · obtain rfl : r = 2 ^ f.m * 2 := by omega
    have two : 2 ^ f.m * 2 / 2 ^ f.m = 2 := Nat.mul_div_cancel_left _ P0
    have rest : g * 2 ^ f.m + 2 ^ f.m * 2 - (g + 1) * 2 ^ f.m = 2 ^ f.m := by rw [Nat.add_mul]; omega
    simp only [magnitude, Fmt.mant, Fmt.expo, quotient, two, rest, show g + 2 - 1 = g + 1 from rfl]
    push_cast
    rw [← add_assoc, zpow_add_one₀ (by norm_num)]
    ring

theorem magnitude_strictMono (f : Fmt) : StrictMono (magnitude f) := by
  refine strictMono_nat_of_lt_succ fun p => ?_
  have whole : p = (p / 2 ^ f.m - 1) * 2 ^ f.m + f.mant p := by
    have := Nat.div_mul_le_self p (2 ^ f.m)
    have := Nat.mul_le_mul_right (2 ^ f.m) (Nat.sub_le (p / 2 ^ f.m) 1)
    unfold Fmt.mant
    omega
  have normal : p / 2 ^ f.m - 1 = 0 ∨ 2 ^ f.m ≤ f.mant p + 1 := by
    rw [Fmt.mant_eq]
    split <;> omega
  have next : magnitude f (p + 1) = ((f.mant p + 1 : Nat) : Rat) * 2 ^ f.expo p := by
    conv_lhs => rw [whole, Nat.add_assoc]
    exact magnitude_join f normal (f.mant_lt p)
  rw [next, magnitude]
  have : (0 : Rat) < 2 ^ f.expo p := by positivity
  push_cast
  nlinarith

theorem magnitude_zero (f : Fmt) : magnitude f 0 = 0 := by simp [magnitude, Fmt.mant]
theorem magnitude_nonneg (f : Fmt) (p : Nat) : 0 ≤ magnitude f p := by unfold magnitude; positivity
theorem magnitude_eq_zero {p : Nat} : magnitude f p = 0 ↔ p = 0 := by
  rw [← magnitude_zero f, (magnitude_strictMono f).injective.eq_iff]

theorem Fmt.Sane.bias (h : f.Sane) : 2 ^ f.e = 2 * f.bias + 2 := by
  have := Nat.two_pow_pos (f.e - 1)
  have two : 2 ^ f.e = 2 * 2 ^ (f.e - 1) := by
    rw [← Nat.pow_succ']
    congr
    have := h.expBits
    omega
  unfold Fmt.bias
  omega

theorem Fmt.Sane.bias_pos (h : f.Sane) : 1 ≤ f.bias := by
  have : 2 ^ 1 ≤ 2 ^ (f.e - 1) := Nat.pow_le_pow_right (by decide) (by have := h.expBits; omega)
  unfold Fmt.bias
  omega

/-- Beyond the largest finite number lies 2^(bias + 1). -/
theorem Fmt.Sane.magnitude_inf (h : f.Sane) : magnitude f f.inf = (2 : Rat) ^ ((f.bias : Int) + 1) := by
  have bias := h.bias
  have pos := h.bias_pos
  have ones : f.inf = (2 * f.bias) * 2 ^ f.m + 2 ^ f.m := by
    rw [Fmt.inf, Fmt.ones, bias, ← Nat.succ_mul]
    congr 1
  rw [ones, magnitude_join f (.inr le_rfl) (Nat.pow_le_pow_right (by decide) (by omega))]
  push_cast
  rw [← zpow_natCast, ← zpow_add₀ (by norm_num), Fmt.low]
  congr 1
  ring

theorem Fmt.Sane.lt_inf (h : f.Sane) {p : Nat} : p < f.inf ↔ magnitude f p < (2 : Rat) ^ ((f.bias : Int) + 1) := by
  rw [← h.magnitude_inf, (magnitude_strictMono f).lt_iff_lt]

theorem Fmt.inf_add (f : Fmt) : f.inf + 2 ^ f.m = f.sign := by
  have := Nat.two_pow_pos f.e
  rw [Fmt.inf, Fmt.ones, Fmt.sign, ← Nat.succ_mul, pow_add]
  congr
  omega
theorem Fmt.inf_lt (f : Fmt) : f.inf < f.sign := by
  have := f.inf_add
  have := Nat.two_pow_pos f.m
  omega

/-! ### Patterns with their sign -/

theorem signed_eq_withSign (f : Fmt) (neg : Bool) (p : Nat) : signed f neg p = withSign f neg p := rfl
theorem infBits_eq (f : Fmt) : infBits f = f.inf := rfl

/-- A pattern is its sign and the rest. -/
theorem pattern_split {a : Nat} (h : Pattern f a) : a % f.sign < f.sign ∧ a = withSign f (negBit f a) (a % f.sign) := by
  have P0 : 0 < f.sign := Nat.two_pow_pos _
  refine ⟨Nat.mod_lt _ P0, ?_⟩
  have whole := Nat.div_add_mod' a f.sign
  have lt : a / f.sign < 2 := Nat.div_lt_of_lt_mul (by rw [mul_comm]; exact Nat.lt_of_lt_of_eq h (by rw [Fmt.sign, pow_succ]; ring))
  unfold withSign negBit
  rw [show 2 ^ (f.e + f.m) = f.sign from rfl]
  obtain e | e := Nat.le_one_iff_eq_zero_or_eq_one.mp (Nat.le_of_lt_succ lt)
  · simp [e] at whole ⊢; exact whole.symm
  · simp [e] at whole ⊢; omega

section
variable {p : Nat} (hp : p < f.sign) (neg : Bool)
include hp

theorem withSign_div : withSign f neg p / f.sign = neg.toNat := by
  have P0 : 0 < f.sign := Nat.two_pow_pos _
  cases neg
  · exact Nat.div_eq_of_lt hp
  · simp [withSign, Nat.add_div_right _ P0, Nat.div_eq_of_lt hp]
theorem negBit_withSign : negBit f (withSign f neg p) = neg := by
  unfold negBit
  rw [show 2 ^ (f.e + f.m) = f.sign from rfl, withSign_div hp]
  cases neg <;> rfl
theorem natBits_sign : natBits (withSign f neg p) (f.e + f.m) 1 = neg.toNat := by
  rw [natBits, show 2 ^ (f.e + f.m) = f.sign from rfl, withSign_div hp]
  cases neg <;> rfl
theorem pattern_withSign : Pattern f (withSign f neg p) := by
  unfold Pattern withSign
  rw [pow_succ, show 2 ^ (f.e + f.m) = f.sign from rfl]
  split <;> omega

omit hp in
/-- The exponent and mantissa fields do not see the sign. -/
theorem withSign_mantissa : withSign f neg p % 2 ^ f.m = p % 2 ^ f.m := by
  cases neg
  · rfl
  · rw [withSign, if_pos rfl, Fmt.sign, pow_add, Nat.add_mul_mod_self_right]
theorem withSign_exponent : withSign f neg p / 2 ^ f.m % 2 ^ f.e = p / 2 ^ f.m := by
  have lt : p / 2 ^ f.m < 2 ^ f.e := Nat.div_lt_of_lt_mul (by rw [← pow_add, Nat.add_comm]; exact hp)
  cases neg
  · exact Nat.mod_eq_of_lt lt
  · rw [withSign, if_pos rfl, Fmt.sign, pow_add, Nat.add_mul_div_right _ _ (Nat.two_pow_pos _), Nat.add_mod_right, Nat.mod_eq_of_lt lt]

end

theorem lt_inf_iff {p : Nat} : p < f.inf ↔ p / 2 ^ f.m < f.ones := by
  rw [Fmt.inf, Nat.div_lt_iff_lt_mul (Nat.two_pow_pos _)]
theorem exponent_le {p : Nat} (hp : p < f.sign) : p / 2 ^ f.m ≤ f.ones :=
  Nat.le_sub_one_of_lt (Nat.div_lt_of_lt_mul (by rw [← pow_add, Nat.add_comm]; exact hp))

theorem numberOf_withSign {p : Nat} (hp : p < f.sign) (neg : Bool) :
    numberOf f (withSign f neg p) = if p < f.inf then some (signedBy neg (magnitude f p)) else none := by
  have le := exponent_le hp
  unfold numberOf
  rw [withSign_exponent hp, withSign_mantissa, show 2 ^ (f.e + f.m) = f.sign from rfl, withSign_div hp, show 2 ^ f.e - 1 = f.ones from rfl]
  by_cases top : p / 2 ^ f.m = f.ones
  · simp [lt_inf_iff, top]
  · have lt : p < f.inf := lt_inf_iff.mpr (by omega)
    have exponent : ((max (p / 2 ^ f.m) 1 : Nat) : Int) - f.bias - f.m = f.expo p := by
      unfold Fmt.expo Fmt.low
      omega
    simp only [top, lt, if_true, if_false, exponent, Nat.add_comm (2 ^ f.m), ← Fmt.mant_eq, magnitude]
    cases neg <;> simp

theorem unpack_withSign {p : Nat} (hp : p < f.inf) (neg : Bool) : unpack f (withSign f neg p) = .fin neg (f.mant p) (f.expo p) := by
  have lt := hp.trans f.inf_lt
  have exponent : p / 2 ^ f.m ≠ f.ones := (lt_inf_iff.mp hp).ne
  have sign : (neg.toNat % 2 ^ 1 == 1) = neg := by cases neg <;> rfl
  unfold unpack natBits
  rw [withSign_exponent lt, withSign_mantissa, show 2 ^ (f.e + f.m) = f.sign from rfl, withSign_div lt, sign]
  simp only [exponent, if_false, Fmt.mant_eq, Fmt.expo]
  split
  case isTrue zero => simp [zero]
  case isFalse pos =>
    have := Nat.pos_of_ne_zero pos
    congr 1
    omega

theorem unpack_inf (f : Fmt) (neg : Bool) : unpack f (withSign f neg f.inf) = .inf neg := by
  have sign : (neg.toNat % 2 ^ 1 == 1) = neg := by cases neg <;> rfl
  have exponent : f.inf / 2 ^ f.m = f.ones := Nat.mul_div_cancel _ (Nat.two_pow_pos _)
  have mantissa : f.inf % 2 ^ f.m = 0 := Nat.mul_mod_left _ _
  unfold unpack natBits
  rw [withSign_exponent f.inf_lt, withSign_mantissa, show 2 ^ (f.e + f.m) = f.sign from rfl, withSign_div f.inf_lt, sign]
  simp only [exponent, mantissa, if_true]
end
end Sys2Proof.Machine

namespace Sys2Proof.Machine
open Sys2Proof.Slice0
set_option Elab.async false

/-! ### Rounding to an integer, in every mode (R83) -/

theorem roundedTo_self (mode : Mode) (n : Int) : RoundedTo mode (n : Rat) n := by
  have nearest : 2 * (n : Rat) - 1 ≤ 2 * n ∧ 2 * (n : Rat) ≤ 2 * n + 1 ∧ (2 * (n : Rat) = 2 * n - 1 ∨ 2 * (n : Rat) = 2 * n + 1 → n % 2 = 0) :=
    ⟨by linarith, by linarith, fun e => by rcases e with e | e <;> linarith⟩
  match mode with
  | 0 | k + 4 => exact nearest
  | 1 => exact ⟨fun _ => ⟨le_rfl, by linarith⟩, fun _ => ⟨by linarith, le_rfl⟩⟩
  | 2 => exact ⟨le_rfl, by linarith⟩
  | 3 => exact ⟨by linarith, le_rfl⟩

/-- No mode goes as far as the next integer but one. -/
theorem roundedTo_near {mode : Mode} {y : Rat} {n : Int} (h : RoundedTo mode y n) : (n : Rat) - 1 < y ∧ y < n + 1 := by
  match mode, h with
  | 0, h | k + 4, h =>
    obtain ⟨low, high, -⟩ := (show _ ∧ _ ∧ _ from h)
    constructor <;> linarith
  | 1, h =>
    obtain ⟨pos, neg⟩ := (show _ ∧ _ from h)
    rcases le_or_gt 0 y with y0 | y0
    · obtain ⟨low, high⟩ := pos y0
      constructor <;> linarith
    · obtain ⟨low, high⟩ := neg y0
      constructor <;> linarith
  | 2, h =>
    obtain ⟨low, high⟩ := (show _ ∧ _ from h)
    constructor <;> linarith
  | 3, h =>
    obtain ⟨low, high⟩ := (show _ ∧ _ from h)
    constructor <;> linarith

/-- A rounded magnitude keeps the integers that bound it. -/
theorem rounded_le {mode : Mode} {neg : Bool} {y : Rat} {n b : Nat} (h : RoundedTo mode (signedBy neg y) (signedBy neg (n : Int))) (le : y ≤ b) :
    n ≤ b := by
  obtain ⟨low, high⟩ := roundedTo_near h
  rw [signedBy_cast] at low high
  have : (n : Rat) < b + 1 := by cases neg <;> simp at low high <;> linarith
  exact Nat.lt_succ_iff.mp (by exact_mod_cast this)
theorem le_rounded {mode : Mode} {neg : Bool} {y : Rat} {n b : Nat} (h : RoundedTo mode (signedBy neg y) (signedBy neg (n : Int))) (le : b ≤ y) :
    b ≤ n := by
  obtain ⟨low, high⟩ := roundedTo_near h
  rw [signedBy_cast] at low high
  have : (b : Rat) < n + 1 := by cases neg <;> simp at low high <;> linarith
  exact Nat.lt_succ_iff.mp (by exact_mod_cast this)

/-! ### One rounding into a format (R68, R69, R84) -/

/-- A magnitude of m units of 2^e, rounded to units of 2^q: the count of units, and whether it is exact. -/
def roundAt (mode : Mode) (neg : Bool) (m : Nat) (e : Int) (sticky : Bool) (q : Int) : Nat × Bool :=
  if q - e ≤ 0 then (m * 2 ^ (-(q - e)).toNat, !sticky) else roundShift mode neg m (q - e).toNat sticky

section
variable {mode : Mode} {neg : Bool} {m : Nat} {e : Int} {sticky : Bool} {y : Rat}

theorem roundAt_rounds {q : Int} (h : Stands m sticky (y / 2 ^ e)) (hs : sticky = true → e < q) :
    RoundedTo mode (signedBy neg (y / 2 ^ q)) (signedBy neg ((roundAt mode neg m e sticky q).1 : Int)) ∧
    ((roundAt mode neg m e sticky q).2 = true ↔ ((roundAt mode neg m e sticky q).1 : Rat) * 2 ^ q = y) := by
  have q0 : (2 : Rat) ^ q ≠ 0 := by positivity
  have e0 : (2 : Rat) ^ e ≠ 0 := by positivity
  unfold roundAt
  rw [← eq_div_iff q0]
  split
  case isTrue le =>
    obtain rfl : sticky = false := by
      cases sticky
      · rfl
      · have := hs rfl
        omega
    have all : y = m * 2 ^ e := (div_eq_iff e0).mp h
    have units : y / 2 ^ q = ((m * 2 ^ (-(q - e)).toNat : Nat) : Rat) := by
      rw [all, div_eq_iff q0]
      push_cast
      rw [mul_assoc, ← zpow_natCast, ← zpow_add₀ (by norm_num)]
      congr 2
      omega
    refine ⟨?_, by simp [units]⟩
    rw [units, ← Int.cast_natCast, ← signedBy_cast]
    exact roundedTo_self mode _
  case isFalse gt =>
    have units : y / 2 ^ q = y / 2 ^ e / 2 ^ (q - e).toNat := by
      rw [div_div, ← zpow_natCast, ← zpow_add₀ (by norm_num)]
      congr 2
      omega
    rw [units]
    exact h.roundShift mode neg fun _ => by omega

/-! ### Significant bits, and binades -/

theorem bitLen_pos (hm : m ≠ 0) : 1 ≤ bitLen m := by simp [bitLen, hm]
theorem bitLen_le (hm : m ≠ 0) : 2 ^ (bitLen m - 1) ≤ m := by
  simpa [bitLen, hm] using Nat.log2_self_le hm
theorem lt_bitLen (m : Nat) : m < 2 ^ bitLen m := by
  unfold bitLen
  split
  case isTrue h => simp [h]
  case isFalse h => exact Nat.lt_log2_self
theorem lt_bitLen_iff {n : Nat} : n < bitLen m ↔ 2 ^ n ≤ m := by
  constructor
  · intro h
    have hm : m ≠ 0 := by rintro rfl; simp [bitLen] at h
    exact (Nat.pow_le_pow_right (by decide) (by omega)).trans (bitLen_le hm)
  · intro h
    exact (Nat.pow_lt_pow_iff_right (by decide : 1 < 2)).mp (h.trans_lt (lt_bitLen m))

theorem two_pow_mul_zpow (b : Nat) (q : Int) : ((2 ^ b : Nat) : Rat) * 2 ^ q = 2 ^ (q + b) := by
  rw [Nat.cast_pow, Nat.cast_ofNat, ← zpow_natCast, ← zpow_add₀ (by norm_num), Int.add_comm]

/-- The binade of a magnitude. -/
def binade (m : Nat) (e : Int) : Int := e + bitLen m - 1

theorem binade_le_units (hm : m ≠ 0) : (2 : Rat) ^ binade m e ≤ m * 2 ^ e := by
  have : (2 : Rat) ^ (bitLen m - 1) ≤ m := by exact_mod_cast bitLen_le hm
  calc (2 : Rat) ^ binade m e = 2 ^ (bitLen m - 1) * 2 ^ e := by
        rw [← zpow_natCast, ← zpow_add₀ (by norm_num), binade]
        congr 1
        have := bitLen_pos hm
        omega
    _ ≤ m * 2 ^ e := by gcongr

theorem units_le_binade (m : Nat) (e : Int) : ((m : Rat) + 1) * 2 ^ e ≤ 2 ^ (binade m e + 1) := by
  have : (m : Rat) + 1 ≤ 2 ^ bitLen m := by exact_mod_cast lt_bitLen m
  calc ((m : Rat) + 1) * 2 ^ e ≤ 2 ^ bitLen m * 2 ^ e := by gcongr
    _ = (2 : Rat) ^ (binade m e + 1) := by
        rw [← zpow_natCast, ← zpow_add₀ (by norm_num), binade]
        congr 1
        omega

theorem binade_le (hm : m ≠ 0) (h : Stands m sticky (y / 2 ^ e)) : (2 : Rat) ^ binade m e ≤ y :=
  (binade_le_units hm).trans ((le_div_iff₀ (by positivity)).mp h.le)
theorem lt_binade (h : Stands m sticky (y / 2 ^ e)) : y < (2 : Rat) ^ (binade m e + 1) :=
  ((div_lt_iff₀ (by positivity)).mp h.lt).trans_le (units_le_binade m e)
end

end Sys2Proof.Machine

namespace Sys2Proof.Machine
open Sys2Proof.Slice0
set_option Elab.async false

/-- The magnitude is tiny after rounding, as `roundPack` finds it (R69). -/
def tinyRounded (f : Fmt) (mode : Mode) (neg : Bool) (m : Nat) (e : Int) (sticky : Bool) : Bool :=
  let up := binade m e - f.m - e
  let grown := if up ≤ 0 then m else (roundShift mode neg m up.toNat sticky).1
  decide (binade m e < 1 - (f.bias : Int)) && !(decide (binade m e + 1 = 1 - (f.bias : Int)) && decide (bitLen grown > f.m + 1))

/-- The place of the result's lowest bit: the binade's, and no finer than the subnormals' (R68). -/
def quantum (f : Fmt) (k : Int) : Int := max (k - f.m) f.low

/-- The modes that saturate at the largest finite number (R83). -/
def saturates (mode : Mode) (neg : Bool) : Bool := mode == 4 || mode == 1 || (mode == 2 && !neg) || (mode == 3 && neg)

theorem saturates_iff (mode : Mode) (neg : Bool) {y : Rat} (y0 : 0 < y) :
    (mode = 1 ∨ mode = 4 ∨ mode = 2 ∧ 0 < signedBy neg y ∨ mode = 3 ∧ signedBy neg y < 0) ↔ saturates mode neg = true := by
  rw [signedBy_lt_zero neg y0, zero_lt_signedBy neg y0]
  simp only [saturates, Bool.or_eq_true, Bool.and_eq_true, beq_iff_eq, Bool.not_eq_true']
  tauto

theorem roundPack_eq (f : Fmt) (mode : Mode) (neg : Bool) {m : Nat} (hm : m ≠ 0) (e : Int) (sticky : Bool) :
    roundPack f mode neg m e sticky =
      let q := quantum f (binade m e)
      let r := roundAt mode neg m e sticky q
      let x := (q - f.low).toNat * 2 ^ f.m + r.1
      if f.inf ≤ x then (withSign f neg (if saturates mode neg then f.inf - 1 else f.inf), flagOF ||| flagNX)
      else (withSign f neg x,
        (if r.2 then 0 else flagNX) ||| (if tinyRounded f mode neg m e sticky && !r.2 then flagUF else 0)) := by
  have top : e + (bitLen m : Int) - ((f.m : Int) + 1) = binade m e - f.m := by unfold binade; ring
  have next : e + (bitLen m : Int) = binade m e + 1 := by unfold binade; ring
  simp only [roundPack, hm, top]
  simp only [next, add_sub_cancel_right]
  rfl

section
variable {f : Fmt} {mode : Mode} {neg : Bool} {m : Nat} {e : Int} {sticky : Bool} {y : Rat}

/-- How many units of 2^q a magnitude of a binade rounds to. -/
theorem units_le {q : Int} (h : Stands m sticky (y / 2 ^ e)) (hs : sticky = true → e < q) {b : Nat} (hb : binade m e < q + b) :
    (roundAt mode neg m e sticky q).1 ≤ 2 ^ b := by
  refine rounded_le (roundAt_rounds (neg := neg) (mode := mode) h hs).1 ?_
  rw [div_le_iff₀ (by positivity)]
  push_cast
  rw [← zpow_natCast, ← zpow_add₀ (by norm_num)]
  exact (lt_binade h).le.trans (zpow_le_zpow_right₀ (by norm_num) (by omega))

theorem le_units {q : Int} (hm : m ≠ 0) (h : Stands m sticky (y / 2 ^ e)) (hs : sticky = true → e < q) {b : Nat} (hb : q + b ≤ binade m e) :
    2 ^ b ≤ (roundAt mode neg m e sticky q).1 := by
  refine le_rounded (roundAt_rounds (neg := neg) (mode := mode) h hs).1 ?_
  rw [le_div_iff₀ (by positivity)]
  push_cast
  rw [← zpow_natCast, ← zpow_add₀ (by norm_num)]
  exact (zpow_le_zpow_right₀ (by norm_num) (by omega)).trans (binade_le hm h)

theorem le_quantum (f : Fmt) (k : Int) : k - f.m ≤ quantum f k := le_max_left _ _
theorem low_le_quantum (f : Fmt) (k : Int) : f.low ≤ quantum f k := le_max_right _ _
/-- A truncated value has bits below the result's lowest one. -/
theorem lt_binade_sub (hs : sticky = true → f.m + 3 ≤ bitLen m) (cut : sticky = true) : e < binade m e - f.m := by
  have := hs cut
  unfold binade
  omega

/-- The grown significand of `tinyRounded` carries into the next binade where the rounded magnitude does. -/
theorem grown_carries (f : Fmt) (mode : Mode) (neg : Bool) (m : Nat) (e : Int) (sticky : Bool) :
    let up := binade m e - f.m - e
    bitLen (if up ≤ 0 then m else (roundShift mode neg m up.toNat sticky).1) > f.m + 1 ↔
      2 ^ (f.m + 1) ≤ (roundAt mode neg m e sticky (binade m e - f.m)).1 := by
  intro up
  unfold roundAt
  rw [gt_iff_lt, lt_bitLen_iff]
  split
  case isTrue le =>
    have few : bitLen m ≤ f.m + 1 := by
      simp only [up, binade] at le
      omega
    have below : m < 2 ^ (f.m + 1) := (lt_bitLen m).trans_le (Nat.pow_le_pow_right (by decide) few)
    have scaled : m * 2 ^ (-up).toNat < 2 ^ (f.m + 1) :=
      calc m * 2 ^ (-up).toNat < 2 ^ bitLen m * 2 ^ (-up).toNat := Nat.mul_lt_mul_of_pos_right (lt_bitLen m) (Nat.two_pow_pos _)
        _ = 2 ^ (f.m + 1) := by
          rw [← pow_add]
          congr 1
          simp only [up, binade] at le ⊢
          omega
    exact iff_of_false below.not_ge scaled.not_ge
  case isFalse => rfl

/-- Below the normal numbers, what rounds up to the least of them is not tiny (R69). -/
theorem tinyRounded_iff (hm : m ≠ 0) (h : Stands m sticky (y / 2 ^ e)) (hs : sticky = true → f.m + 3 ≤ bitLen m) :
    tinyRounded f mode neg m e sticky = true ↔
      ((roundAt mode neg m e sticky (binade m e - f.m)).1 : Rat) * 2 ^ (binade m e - f.m) < 2 ^ (1 - (f.bias : Int)) := by
  have most := units_le (neg := neg) (mode := mode) h (lt_binade_sub hs) (b := f.m + 1) (by push_cast; omega)
  have least := le_units (neg := neg) (mode := mode) hm h (lt_binade_sub hs) (b := f.m) (by omega)
  simp only [tinyRounded, Bool.and_eq_true, Bool.not_eq_true', Bool.and_eq_false_iff, decide_eq_true_eq, decide_eq_false_iff_not,
    grown_carries f mode neg m e sticky]
  generalize (roundAt mode neg m e sticky (binade m e - f.m)).1 = u at *
  generalize binade m e = k
  have unit : (0 : Rat) < 2 ^ (k - f.m) := by positivity
  rcases lt_trichotomy (k + 1) (1 - (f.bias : Int)) with below | at1 | above
  · refine iff_of_true ⟨by omega, .inl (by omega)⟩ ?_
    calc (u : Rat) * 2 ^ (k - f.m) ≤ ((2 ^ (f.m + 1) : Nat) : Rat) * 2 ^ (k - f.m) := by gcongr
      _ = 2 ^ (k + 1) := by rw [two_pow_mul_zpow]; congr 1; push_cast; ring
      _ < 2 ^ (1 - (f.bias : Int)) := zpow_lt_zpow_right₀ (by norm_num) below
  · have carried : (2 : Rat) ^ (1 - (f.bias : Int)) = ((2 ^ (f.m + 1) : Nat) : Rat) * 2 ^ (k - f.m) := by
      rw [two_pow_mul_zpow, ← at1]
      congr 1
      push_cast
      ring
    rw [carried, mul_lt_mul_iff_of_pos_right unit, Nat.cast_lt]
    omega
  · refine iff_of_false (by omega) (not_lt.mpr ?_)
    calc (2 : Rat) ^ (1 - (f.bias : Int)) ≤ 2 ^ k := zpow_le_zpow_right₀ (by norm_num) (by omega)
      _ = ((2 ^ f.m : Nat) : Rat) * 2 ^ (k - f.m) := by rw [two_pow_mul_zpow]; congr 1; ring
      _ ≤ u * 2 ^ (k - f.m) := by gcongr

/-! ### Pattern and flags of a rounded magnitude -/

/-- Pattern and flags of a value x rounded once, with its binade and the counts of units that `RoundsTo` asks for. -/
def RoundsAt (f : Fmt) (mode : Nat) (x : Rat) (r : Nat × BitVec 5) (k n u : Int) : Prop :=
  (2 : Rat) ^ k ≤ x.abs ∧ x.abs < (2 : Rat) ^ (k + 1) ∧
    let q := max (k - f.m) (1 - (f.bias : Int) - f.m)
    let v : Rat := n * (2 : Rat) ^ q
    let least : Rat := (2 : Rat) ^ (1 - (f.bias : Int))
    RoundedTo mode (x / (2 : Rat) ^ q) n ∧ RoundedTo mode (x / (2 : Rat) ^ (k - f.m)) u ∧ Pattern f r.1 ∧ negBit f r.1 = decide (x < 0) ∧
    (v.abs < (2 : Rat) ^ ((f.bias : Int) + 1) → numberOf f r.1 = some v ∧
      r.2 = (if v = x then 0 else if (u * (2 : Rat) ^ (k - f.m)).abs < least then flagUF ||| flagNX else flagNX)) ∧
    (¬ v.abs < (2 : Rat) ^ ((f.bias : Int) + 1) → r.2 = flagOF ||| flagNX ∧
      r.1 = signed f (decide (x < 0)) (if mode = 1 ∨ mode = 4 ∨ mode = 2 ∧ 0 < x ∨ mode = 3 ∧ x < 0 then infBits f - 1 else infBits f))

theorem RoundsAt.roundsTo {x : Rat} {r : Nat × BitVec 5} {k n u : Int} (h : RoundsAt f mode x r k n u) : RoundsTo f mode x r := ⟨k, n, u, h⟩

/-- The rounded magnitude is that of the pattern that `roundPack` joins. -/
theorem rounded_magnitude (f : Fmt) (hm : m ≠ 0) (h : Stands m sticky (y / 2 ^ e)) (hs : sticky = true → f.m + 3 ≤ bitLen m) :
    magnitude f ((quantum f (binade m e) - f.low).toNat * 2 ^ f.m + (roundAt mode neg m e sticky (quantum f (binade m e))).1) =
      (roundAt mode neg m e sticky (quantum f (binade m e))).1 * (2 : Rat) ^ quantum f (binade m e) := by
  set q := quantum f (binade m e)
  set n := (roundAt mode neg m e sticky q).1
  have coarse (cut : sticky = true) : e < q := (lt_binade_sub hs cut).trans_le (le_quantum f _)
  have fine : f.low ≤ q := low_le_quantum f _
  have most : n ≤ 2 ^ (f.m + 1) := units_le h coarse (by
    have := le_quantum f (binade m e)
    push_cast
    omega)
  have normal : (q - f.low).toNat = 0 ∨ 2 ^ f.m ≤ n := by
    obtain low | high := le_or_gt (binade m e - f.m) f.low
    · left
      have : q = f.low := max_eq_right low
      omega
    · right
      have : q = binade m e - f.m := max_eq_left high.le
      exact le_units hm h coarse (by omega)
  rw [magnitude_join f normal most]
  congr 2
  omega

/-- One rounding: whatever magnitude the units stand for, `roundPack` gives its pattern and flags (R68, R69, R84). -/
theorem roundPack_rounds (hf : f.Sane) (mode : Mode) (neg : Bool) (hm : m ≠ 0) (h : Stands m sticky (y / 2 ^ e))
    (hs : sticky = true → f.m + 3 ≤ bitLen m) :
    RoundsAt f mode (signedBy neg y) (roundPack f mode neg m e sticky) (binade m e)
      (signedBy neg ((roundAt mode neg m e sticky (quantum f (binade m e))).1 : Int))
      (signedBy neg ((roundAt mode neg m e sticky (binade m e - f.m)).1 : Int)) := by
  have coarse (cut : sticky = true) : e < quantum f (binade m e) := (lt_binade_sub hs cut).trans_le (le_quantum f _)
  have y0 : 0 < y := lt_of_lt_of_le (by positivity) (binade_le hm h)
  have size : (signedBy neg y).abs = y := by rw [ratAbs_eq, abs_signedBy neg y0.le]
  have joined := rounded_magnitude (mode := mode) (neg := neg) f hm h hs
  obtain ⟨rounds, exact_⟩ := roundAt_rounds (neg := neg) (mode := mode) h coarse
  rw [← joined] at exact_
  have tiny := tinyRounded_iff (mode := mode) (neg := neg) hm h hs
  have atBinade := (roundAt_rounds (neg := neg) (mode := mode) h (lt_binade_sub hs)).1
  have nabs (n : Nat) (q : Int) : (((signedBy neg (n : Int) : Int) : Rat) * 2 ^ q).abs = n * 2 ^ q := by
    rw [ratAbs_eq, signedBy_cast, ← signedBy_mul, abs_signedBy neg (by positivity), Int.cast_natCast]
  simp only [signedBy_div] at rounds atBinade
  simp only [RoundsAt, size, show 1 - (f.bias : Int) - f.m = f.low from rfl]
  refine ⟨binade_le hm h, lt_binade h, rounds, atBinade, ?_⟩
  have whole (n : Nat) (q : Int) : (((signedBy neg (n : Int) : Int) : Rat) * 2 ^ q = signedBy neg y) ↔ (n : Rat) * 2 ^ q = y := by
    rw [signedBy_cast, ← signedBy_mul, signedBy_inj, Int.cast_natCast]
  have sign : decide (signedBy neg y < 0) = neg := by simp [signedBy_lt_zero neg y0]
  simp only [show max (binade m e - f.m) f.low = quantum f (binade m e) from rfl, nabs, whole, sign, saturates_iff mode neg y0, infBits_eq, signed_eq_withSign,
    ← tiny, ← joined, ← exact_, ← hf.lt_inf, roundPack_eq f mode neg hm]
  have inf1 : f.inf - 1 < f.sign := (Nat.sub_le _ _).trans_lt f.inf_lt
  split
  case isTrue beyond =>
    have lt : (if saturates mode neg then f.inf - 1 else f.inf) < f.sign := by
      split
      · exact inf1
      · exact f.inf_lt
    exact ⟨pattern_withSign lt neg, negBit_withSign lt neg, fun fits => absurd fits (not_lt.mpr beyond), fun _ => ⟨rfl, rfl⟩⟩
  case isFalse fits =>
    have inside := not_le.mp fits
    have lt := inside.trans f.inf_lt
    refine ⟨pattern_withSign lt neg, negBit_withSign lt neg, fun _ => ⟨?_, ?_⟩, fun beyond => absurd inside beyond⟩
    · rw [numberOf_withSign lt, if_pos inside, joined, signedBy_cast, ← signedBy_mul, Int.cast_natCast]
    · generalize tinyRounded f mode neg m e sticky = t
      generalize (roundAt mode neg m e sticky (quantum f (binade m e))).2 = x
      cases t <;> cases x <;> rfl
end
end Sys2Proof.Machine

namespace Sys2Proof.Machine
open Sys2Proof.Slice0
set_option Elab.async false

/-! ### Operands (R68) -/

/-- A pattern is the finite number x, and decodes to m units of 2^e. -/
structure Finite (f : Fmt) (a : Nat) (x : Rat) (m : Nat) (e : Int) : Prop where
  unpacks : unpack f a = .fin (negBit f a) m e
  value : x = signedBy (negBit f a) ((m : Rat) * 2 ^ e)
  bounded : m < 2 ^ (f.m + 1)
  aboveLow : f.low ≤ e
  belowInf : f.Sane → (m : Rat) * 2 ^ e < 2 ^ ((f.bias : Int) + 1)

section
variable {f : Fmt} {a b c : Nat} {x y z : Rat} {m n k : Nat} {e g h : Int}

/-- A finite number's sign and the rest of its pattern. -/
theorem number_split (pa : Pattern f a) (ha : numberOf f a = some x) :
    ∃ p, p < f.inf ∧ a = withSign f (negBit f a) p ∧ x = signedBy (negBit f a) (magnitude f p) := by
  obtain ⟨lt, split⟩ := pattern_split pa
  refine ⟨a % f.sign, ?_⟩
  rw [split, numberOf_withSign lt] at ha
  split at ha
  case isTrue inside => exact ⟨inside, split, (Option.some.inj ha).symm⟩
  case isFalse => cases ha

theorem finite_of_number (pa : Pattern f a) (ha : numberOf f a = some x) : ∃ m e, Finite f a x m e := by
  obtain ⟨p, inside, split, value⟩ := number_split pa ha
  refine ⟨f.mant p, f.expo p, ?_, value, f.mant_lt p, Int.le_add_of_nonneg_right (Int.natCast_nonneg _), fun hf => hf.lt_inf.mp inside⟩
  have := unpack_withSign inside (negBit f a)
  rwa [← split] at this

theorem Finite.zero_iff (ha : Finite f a x m e) : m = 0 ↔ x = 0 := by
  rw [ha.value]
  cases negBit f a <;> simp [zpow_ne_zero]

theorem Finite.isNan (ha : Finite f a x m e) : isNan f a = false := by simp [Machine.isNan, ha.unpacks]
theorem Finite.isZero (ha : Finite f a x m e) : (unpack f a).isZero = decide (x = 0) := by
  rw [ha.unpacks]
  cases m with
  | zero => simp [Fp.isZero, ← ha.zero_iff]
  | succ m => simp [Fp.isZero, ← ha.zero_iff]

theorem firstNan_none {l : List Nat} (h : ∀ a ∈ l, Machine.isNan f a = false) : firstNan f l = none := by
  have none_ : l.find? (Machine.isNan f) = none := by
    rw [List.find?_eq_none]
    intro a mem
    simp [h a mem]
  simp [firstNan, none_]

/-! ### Exact values (R80, R81) -/

/-- The number that a dyadic stands for. -/
def Dyadic.value (d : Dyadic) : Rat := d.val * 2 ^ d.exp

theorem Dyadic.value_eq_zero {d : Dyadic} : d.value = 0 ↔ d.val = 0 := by simp [Dyadic.value, zpow_ne_zero]
theorem Dyadic.value_mul (a b : Dyadic) : (a.mul b).value = a.value * b.value := by
  simp only [Dyadic.value, Dyadic.mul, Int.cast_mul, zpow_add₀ (two_ne_zero : (2 : Rat) ≠ 0)]
  ring
theorem Dyadic.value_add (a b : Dyadic) : (a.add b).value = a.value + b.value := by
  unfold Dyadic.add
  split
  case isTrue zero => simp [Dyadic.value_eq_zero.mpr zero]
  case isFalse =>
    split
    case isTrue zero => simp [Dyadic.value_eq_zero.mpr zero]
    case isFalse =>
      have scaled (v e g : Int) (h : g ≤ e) : ((v * 2 ^ (e - g).toNat : Int) : Rat) * 2 ^ g = v * 2 ^ e := by
        push_cast
        rw [mul_assoc, ← zpow_natCast, ← zpow_add₀ two_ne_zero]
        congr 2
        omega
      simp only [Dyadic.value, Int.cast_add, add_mul, scaled _ _ _ (min_le_left _ _), scaled _ _ _ (min_le_right _ _)]

theorem Finite.dyadic (ha : Finite f a x m e) : (unpack f a).dyadic.value = x := by
  rw [ha.unpacks, ha.value]
  cases negBit f a <;> simp [Fp.dyadic, Dyadic.value]

/-- An exact non-zero value is rounded once. -/
theorem roundDyadic_rounds (hf : f.Sane) (mode : Mode) (d : Dyadic) (zeroNeg : Bool) (hd : d.value ≠ 0) :
    RoundsTo f mode d.value (roundDyadic f mode d zeroNeg) := by
  have nonzero : d.val ≠ 0 := fun h => hd (Dyadic.value_eq_zero.mpr h)
  have value : d.value = signedBy (decide (d.val < 0)) ((d.val.natAbs : Rat) * 2 ^ d.exp) := by
    rw [signedBy_mul, Dyadic.value]
    congr 1
    by_cases neg : d.val < 0
    · rw [decide_eq_true neg, signedBy_true, ← Int.cast_natCast, ← Int.cast_neg]
      congr 1
      omega
    · rw [decide_eq_false neg, signedBy_false, ← Int.cast_natCast]
      congr 1
      omega
  rw [roundDyadic, if_neg nonzero, value]
  exact (roundPack_rounds hf mode _ (sticky := false) (by omega) (mul_div_cancel_right₀ _ (by positivity)) (by simp)).roundsTo

theorem roundDyadic_zero (mode : Mode) {d : Dyadic} (zeroNeg : Bool) (hd : d.value = 0) : roundDyadic f mode d zeroNeg = (signed f zeroNeg 0, 0) :=
  if_pos (Dyadic.value_eq_zero.mp hd)

/-! ### Sum, difference, product and fused product (R80, R81) -/

section
variable (ha : Finite f a x m e) (hb : Finite f b y n g)
include ha hb

theorem fpAdd_finite : fpAdd f a b =
    roundDyadic f 0 ((unpack f a).dyadic.add (unpack f b).dyadic) (decide (x = 0) && decide (y = 0) && negBit f a && negBit f b) := by
  have isNum : firstNan f [a, b] = none := firstNan_none (by simp [ha.isNan, hb.isNan])
  rw [← ha.isZero, ← hb.isZero, fpAdd, isNum, ha.unpacks, hb.unpacks]
  rfl

theorem fpAdd_rounds (hf : f.Sane) : (x + y ≠ 0 → RoundsTo f 0 (x + y) (fpAdd f a b)) ∧
    (x + y = 0 → fpAdd f a b = (signed f (decide (x = 0) && negBit f a && negBit f b) 0, 0)) := by
  have value : ((unpack f a).dyadic.add (unpack f b).dyadic).value = x + y := by rw [Dyadic.value_add, ha.dyadic, hb.dyadic]
  rw [fpAdd_finite ha hb, ← value]
  refine ⟨roundDyadic_rounds hf 0 _ _, fun zero => ?_⟩
  rw [roundDyadic_zero 0 _ zero]
  rw [value] at zero
  have both : x = 0 → y = 0 := fun h => by linarith
  by_cases hx : x = 0 <;> simp [hx, both]

theorem fpMul_finite : fpMul f a b = roundDyadic f 0 ((unpack f a).dyadic.mul (unpack f b).dyadic) (negBit f a != negBit f b) := by
  have isNum : firstNan f [a, b] = none := firstNan_none (by simp [ha.isNan, hb.isNan])
  rw [fpMul, isNum, ha.unpacks, hb.unpacks]
  rfl

theorem fpMul_rounds (hf : f.Sane) : (x * y ≠ 0 → RoundsTo f 0 (x * y) (fpMul f a b)) ∧
    (x * y = 0 → fpMul f a b = (signed f (negBit f a != negBit f b) 0, 0)) := by
  have value : ((unpack f a).dyadic.mul (unpack f b).dyadic).value = x * y := by rw [Dyadic.value_mul, ha.dyadic, hb.dyadic]
  rw [fpMul_finite ha hb, ← value]
  exact ⟨roundDyadic_rounds hf 0 _ _, roundDyadic_zero 0 _⟩

theorem fpFma_finite (hc : Finite f c z k h) : fpFma f a b c =
    roundDyadic f 0 (((unpack f a).dyadic.mul (unpack f b).dyadic).add (unpack f c).dyadic)
      (decide (x * y = 0) && decide (z = 0) && (negBit f a != negBit f b) && negBit f c) := by
  have isNum : firstNan f [a, b, c] = none := firstNan_none (by simp [ha.isNan, hb.isNan, hc.isNan])
  have product : decide (x * y = 0) = decide (((unpack f a).dyadic.mul (unpack f b).dyadic).val = 0) := by
    simp only [← Dyadic.value_eq_zero, Dyadic.value_mul, ha.dyadic, hb.dyadic]
  rw [product, ← hc.isZero]
  simp only [fpFma, isNum, ha.unpacks, hb.unpacks, hc.unpacks]
  rfl

theorem fpFma_rounds (hf : f.Sane) (hc : Finite f c z k h) : (x * y + z ≠ 0 → RoundsTo f 0 (x * y + z) (fpFma f a b c)) ∧
    (x * y + z = 0 → fpFma f a b c = (signed f (decide (z = 0) && (negBit f a != negBit f b) && negBit f c) 0, 0)) := by
  have value : (((unpack f a).dyadic.mul (unpack f b).dyadic).add (unpack f c).dyadic).value = x * y + z := by
    rw [Dyadic.value_add, Dyadic.value_mul, ha.dyadic, hb.dyadic, hc.dyadic]
  rw [fpFma_finite ha hb hc, ← value]
  refine ⟨roundDyadic_rounds hf 0 _ _, fun zero => ?_⟩
  rw [roundDyadic_zero 0 _ zero]
  rw [value] at zero
  have both : z = 0 → x * y = 0 := fun h => by linarith
  by_cases hz : z = 0 <;> simp only [hz, both, decide_true, decide_false, Bool.true_and, Bool.false_and, Bool.and_false]

end

/-- The other sign gives the other number. -/
theorem flipSign_withSign {p : Nat} (lt : p < f.sign) (neg : Bool) : flipSign f (withSign f neg p) = withSign f (!neg) p := by
  rw [flipSign, natBits_sign lt]
  cases neg <;> simp [withSign]

theorem number_flipSign (pa : Pattern f a) (ha : numberOf f a = some x) :
    Pattern f (flipSign f a) ∧ numberOf f (flipSign f a) = some (-x) ∧ negBit f (flipSign f a) = !negBit f a := by
  obtain ⟨p, inside, split, value⟩ := number_split pa ha
  have lt := inside.trans f.inf_lt
  have flipped : flipSign f a = withSign f (!negBit f a) p := by
    conv_lhs => rw [split]
    exact flipSign_withSign lt _
  rw [flipped, numberOf_withSign lt, if_pos inside, value]
  refine ⟨pattern_withSign lt _, ?_, negBit_withSign lt _⟩
  cases negBit f a <;> simp

theorem fpSub_rounds (hf : f.Sane) (pa : Pattern f a) (pb : Pattern f b) (na : numberOf f a = some x) (nb : numberOf f b = some y) :
    (x - y ≠ 0 → RoundsTo f 0 (x - y) (fpSub f a b)) ∧
    (x - y = 0 → fpSub f a b = (signed f (decide (x = 0) && negBit f a && !negBit f b) 0, 0)) := by
  obtain ⟨m, e, ha⟩ := finite_of_number pa na
  obtain ⟨n, g, hb⟩ := finite_of_number pb nb
  obtain ⟨pc, nc, sign⟩ := number_flipSign pb nb
  obtain ⟨k, h, hc⟩ := finite_of_number pc nc
  have isNum : firstNan f [a, b] = none := firstNan_none (by simp [ha.isNan, hb.isNan])
  have sub : fpSub f a b = fpAdd f a (flipSign f b) := by rw [fpSub, isNum]
  rw [sub, sub_eq_add_neg, ← sign]
  exact fpAdd_rounds ha hc hf

end
end Sys2Proof.Machine

namespace Sys2Proof.Machine
open Sys2Proof.Slice0
set_option Elab.async false

section
variable {f : Fmt} {a b : Nat} {x y : Rat} {m n : Nat} {e g : Int}

/-! ### Quotient (R80) -/

/-- The quotient's bits stand for it, with enough of them to round. -/
theorem divBits_stands (w : Nat) {p q : Nat} (hq : q ≠ 0) :
    Stands (divBits w p q).1 (divBits w p q).2.2 ((p : Rat) / q / 2 ^ (divBits w p q).2.1) := by
  have q0 : (0 : Rat) < q := by positivity
  have value : (p : Rat) / q / 2 ^ (divBits w p q).2.1 = ((p * 2 ^ (w + 3 + bitLen q) : Nat) : Rat) / q := by
    rw [divBits, zpow_neg, zpow_natCast, div_inv_eq_mul, div_mul_eq_mul_div]
    push_cast
    rfl
  rw [value]
  simp only [divBits]
  generalize p * 2 ^ (w + 3 + bitLen q) = t
  have whole : ((t / q : Nat) : Rat) * q + ((t % q : Nat) : Rat) = t := by exact_mod_cast Nat.div_add_mod' t q
  have rest : ((t % q : Nat) : Rat) < q := by exact_mod_cast Nat.mod_lt t (Nat.pos_of_ne_zero hq)
  by_cases exact_ : t % q = 0
  · simp only [Stands, exact_, bne_self_eq_false, Bool.false_eq_true, if_false]
    rw [div_eq_iff q0.ne', ← whole, exact_, Nat.cast_zero, add_zero]
  · have pos : (0 : Rat) < ((t % q : Nat) : Rat) := by exact_mod_cast Nat.pos_of_ne_zero exact_
    rw [Stands, if_pos (by simpa using exact_), lt_div_iff₀ q0, div_lt_iff₀ q0]
    constructor <;> linarith

theorem le_divBits (w : Nat) {p q : Nat} (hp : p ≠ 0) (hq : q ≠ 0) : 2 ^ (w + 3) ≤ (divBits w p q).1 := by
  rw [divBits, Nat.le_div_iff_mul_le (Nat.pos_of_ne_zero hq)]
  calc 2 ^ (w + 3) * q ≤ 2 ^ (w + 3) * 2 ^ bitLen q := Nat.mul_le_mul_left _ (lt_bitLen q).le
    _ = 1 * 2 ^ (w + 3 + bitLen q) := by rw [← pow_add, one_mul]
    _ ≤ p * 2 ^ (w + 3 + bitLen q) := Nat.mul_le_mul_right _ (Nat.pos_of_ne_zero hp)

/-- A quotient of significands, rounded once. -/
theorem divBits_rounds (hf : f.Sane) (neg : Bool) {p q : Nat} (hp : p ≠ 0) (hq : q ≠ 0) (e : Int) :
    RoundsTo f 0 (signedBy neg ((p : Rat) / q * 2 ^ e))
      (roundPack f 0 neg (divBits f.m p q).1 ((divBits f.m p q).2.1 + e) (divBits f.m p q).2.2) := by
  have many := le_divBits f.m hp hq
  have stands : Stands (divBits f.m p q).1 (divBits f.m p q).2.2 ((p : Rat) / q * 2 ^ e / 2 ^ ((divBits f.m p q).2.1 + e)) := by
    rw [zpow_add₀ two_ne_zero, mul_div_mul_right _ _ (by positivity)]
    exact divBits_stands f.m hq
  refine (roundPack_rounds hf 0 neg ?_ stands fun _ => ?_).roundsTo
  · exact ((Nat.two_pow_pos _).trans_le many).ne'
  · exact lt_bitLen_iff.mpr ((Nat.pow_le_pow_right (by decide) (by omega)).trans many)

section
variable (ha : Finite f a x m e) (hb : Finite f b y n g)
include ha hb

theorem fpDiv_finite : fpDiv f a b =
    let neg := negBit f a != negBit f b
    if n = 0 then if m = 0 then (f.nan, flagNV) else (withSign f neg f.inf, flagDZ)
    else if m = 0 then (withSign f neg 0, 0)
    else roundPack f 0 neg (divBits f.m m n).1 ((divBits f.m m n).2.1 + e - g) (divBits f.m m n).2.2 := by
  have isNum : firstNan f [a, b] = none := firstNan_none (by simp [ha.isNan, hb.isNan])
  rw [fpDiv, isNum, ha.unpacks, hb.unpacks]
  rfl

theorem fpDiv_rounds (hf : f.Sane) :
    (x ≠ 0 → y ≠ 0 → RoundsTo f 0 (x / y) (fpDiv f a b)) ∧
    (x = 0 → y ≠ 0 → fpDiv f a b = (signed f (negBit f a != negBit f b) 0, 0)) ∧
    (x ≠ 0 → y = 0 → fpDiv f a b = (signed f (negBit f a != negBit f b) (infBits f), flagDZ)) ∧
    (x = 0 → y = 0 → fpDiv f a b = (f.nan, flagNV)) := by
  simp only [fpDiv_finite ha hb, Ne, ← ha.zero_iff, ← hb.zero_iff]
  refine ⟨fun hm hn => ?_, fun hm hn => ?_, fun hm hn => ?_, fun hm hn => ?_⟩
  · have value : x / y = signedBy (negBit f a != negBit f b) ((m : Rat) / n * 2 ^ (e - g)) := by
      rw [ha.value, hb.value, zpow_sub₀ two_ne_zero]
      cases negBit f a <;> cases negBit f b <;> simp <;> ring
    simp only [hm, hn, if_false, value]
    rw [add_sub_assoc]
    exact divBits_rounds hf _ hm hn (e - g)
  · simp only [hm, hn, if_true, if_false]
    rfl
  · simp only [hm, hn, if_true, if_false]
    rfl
  · simp only [hm, hn, if_true]

end

end
end Sys2Proof.Machine

namespace Sys2Proof.Machine
open Sys2Proof.Slice0
set_option Elab.async false

/-! ### Square root (R80) -/

theorem isqrtGo_spec (n fuel r : Nat) (low : r * r ≤ n) (high : n < (r + 2 ^ fuel) * (r + 2 ^ fuel)) :
    isqrtGo n fuel r * isqrtGo n fuel r ≤ n ∧ n < (isqrtGo n fuel r + 1) * (isqrtGo n fuel r + 1) := by
  induction fuel generalizing r with
  | zero => exact ⟨low, high⟩
  | succ fuel ih =>
    rw [isqrtGo]
    split
    case isTrue le =>
      refine ih _ le ?_
      rwa [add_assoc, ← two_mul, ← Nat.pow_succ']
    case isFalse gt => exact ih _ low (not_le.mp gt)

/-- `isqrt` is the root rounded down. -/
theorem isqrt_spec (n : Nat) : isqrt n * isqrt n ≤ n ∧ n < (isqrt n + 1) * (isqrt n + 1) := by
  refine isqrtGo_spec n _ 0 (Nat.zero_le _) ?_
  rw [zero_add, ← pow_add]
  exact (lt_bitLen n).trans_le (Nat.pow_le_pow_right (by decide) (by omega))

theorem le_of_between {lo hi b : Rat} (lt : lo < hi) (h : ∀ y, lo < y → y < hi → b ≤ y) : b ≤ lo := by
  by_contra above
  have below : lo < min b hi := lt_min (not_le.mp above) lt
  have := h ((lo + min b hi) / 2) (by linarith) (by linarith [min_le_right b hi])
  linarith [min_le_left b hi]
theorem ge_of_between {lo hi b : Rat} (lt : lo < hi) (h : ∀ y, lo < y → y < hi → y ≤ b) : hi ≤ b := by
  by_contra below
  have above : max b lo < hi := max_lt (not_le.mp below) lt
  have := h ((hi + max b lo) / 2) (by linarith [le_max_right b lo]) (by linarith)
  linarith [le_max_left b lo]

/-- The units nearest to every magnitude that r and its lost fraction stand for are nearest to all of them at once, the bounds included. -/
theorem units_nearest {r : Nat} {sticky : Bool} {h q : Int} (coarse : sticky = true → h < q) :
    (2 * ((roundAt 0 false r h sticky q).1 : Rat) - 1) * 2 ^ q ≤ 2 * (r * 2 ^ h) ∧
    (sticky = true → 2 * (((r : Rat) + 1) * 2 ^ h) ≤ (2 * (roundAt 0 false r h sticky q).1 + 1) * 2 ^ q) ∧
    (sticky = false → 2 * ((r : Rat) * 2 ^ h) ≤ (2 * (roundAt 0 false r h sticky q).1 + 1) * 2 ^ q ∧
      (2 * ((r : Rat) * 2 ^ h) = (2 * (roundAt 0 false r h sticky q).1 - 1) * 2 ^ q ∨
        2 * ((r : Rat) * 2 ^ h) = (2 * (roundAt 0 false r h sticky q).1 + 1) * 2 ^ q → (roundAt 0 false r h sticky q).1 % 2 = 0)) := by
  have h0 : (0 : Rat) < 2 ^ h := by positivity
  have q0 : (0 : Rat) < 2 ^ q := by positivity
  have rounds (y : Rat) (stands : Stands r sticky (y / 2 ^ h)) := (roundAt_rounds (mode := 0) (neg := false) stands coarse).1
  generalize (roundAt 0 false r h sticky q).1 = n at *
  replace rounds (y : Rat) (stands : Stands r sticky (y / 2 ^ h)) : (2 * (n : Rat) - 1) * 2 ^ q ≤ 2 * y ∧ 2 * y ≤ (2 * (n : Rat) + 1) * 2 ^ q ∧
      (2 * y = (2 * (n : Rat) - 1) * 2 ^ q ∨ 2 * y = (2 * n + 1) * 2 ^ q → n % 2 = 0) := by
    obtain ⟨low, high, tie⟩ := (show _ ∧ _ ∧ _ from rounds y stands)
    simp only [signedBy_false, ← mul_div_assoc, div_eq_iff q0.ne', le_div_iff₀ q0, div_le_iff₀ q0, Int.cast_natCast] at low high tie
    exact ⟨low, high, fun e => by exact_mod_cast tie e⟩
  cases sticky
  case false =>
    obtain ⟨low, high, tie⟩ := rounds (r * 2 ^ h) (mul_div_cancel_right₀ _ h0.ne')
    exact ⟨low, by simp, fun _ => ⟨high, tie⟩⟩
  case true =>
    have stands (y : Rat) (low : (r : Rat) * 2 ^ h < y) (high : y < (r + 1) * 2 ^ h) : Stands r true (y / 2 ^ h) :=
      ⟨(lt_div_iff₀ h0).mpr low, (div_lt_iff₀ h0).mpr high⟩
    have gap : (r : Rat) * 2 ^ h < (r + 1) * 2 ^ h := by nlinarith
    refine ⟨?_, fun _ => ?_, by simp⟩
    · have := le_of_between gap (b := (2 * (n : Rat) - 1) * 2 ^ q / 2) fun y low high => by
        have := (rounds y (stands y low high)).1
        linarith
      linarith
    · have := ge_of_between gap (b := (2 * (n : Rat) + 1) * 2 ^ q / 2) fun y low high => by
        have := (rounds y (stands y low high)).2.1
        linarith
      linarith

/-- r is the root of t rounded down, and `sticky` says whether the root lies above it. -/
structure RootOf (r : Nat) (sticky : Bool) (t : Rat) : Prop where
  low : (r : Rat) ^ 2 ≤ t
  high : t < ((r : Rat) + 1) ^ 2
  exact : sticky = false ↔ (r : Rat) ^ 2 = t

section
variable {f : Fmt} {r : Nat} {sticky : Bool} {t : Rat} {h : Int}

theorem exists_stands (r : Nat) (sticky : Bool) (h : Int) : ∃ y : Rat, Stands r sticky (y / 2 ^ h) := by
  have h0 : (2 : Rat) ^ h ≠ 0 := by positivity
  cases sticky
  · exact ⟨r * 2 ^ h, mul_div_cancel_right₀ _ h0⟩
  · exact ⟨(r + 1 / 2) * 2 ^ h, by rw [mul_div_cancel_right₀ _ h0]; constructor <;> linarith⟩

theorem sq_two_zpow (k : Int) : (2 : Rat) ^ (2 * k) = (2 ^ k) ^ 2 := by rw [mul_comm, zpow_mul]; rfl

section
variable (root : RootOf r sticky t)
include root

/-- The root's bits, and the next, bound the value. -/
theorem RootOf.bits_le (h : Int) : ((r : Rat) * 2 ^ h) ^ 2 ≤ t * 2 ^ (2 * h) := by
  rw [mul_pow, sq_two_zpow]
  gcongr
  exact root.low
theorem RootOf.lt_bits (h : Int) : t * 2 ^ (2 * h) < (((r : Rat) + 1) * 2 ^ h) ^ 2 := by
  rw [mul_pow, sq_two_zpow]
  gcongr
  exact root.high
theorem RootOf.exact_iff (h : Int) : sticky = false ↔ ((r : Rat) * 2 ^ h) ^ 2 = t * 2 ^ (2 * h) := by
  rw [root.exact, mul_pow, sq_two_zpow, mul_left_inj' (by positivity)]

/-- The root's binade is half the value's. -/
theorem RootOf.binade_le (hr : r ≠ 0) (h : Int) : (2 : Rat) ^ (2 * binade r h) ≤ t * 2 ^ (2 * h) := by
  rw [sq_two_zpow]
  exact (pow_le_pow_left₀ (by positivity) (binade_le_units hr) 2).trans (root.bits_le h)
theorem RootOf.lt_binade (h : Int) : t * 2 ^ (2 * h) < (2 : Rat) ^ (2 * binade r h + 2) := by
  rw [show 2 * binade r h + 2 = 2 * (binade r h + 1) by ring, sq_two_zpow (_ + 1)]
  exact (root.lt_bits h).trans_le (pow_le_pow_left₀ (by positivity) (units_le_binade r h) 2)

end

/-- A normal magnitude within the format is rounded to its units, and its flags are those of its exactness alone. -/
theorem roundPack_normal (hf : f.Sane) (hr : r ≠ 0) (hs : sticky = true → f.m + 3 ≤ bitLen r) (normal : 1 - (f.bias : Int) ≤ binade r h)
    (fits : binade r h < f.bias) {y : Rat} (stands : Stands r sticky (y / 2 ^ h)) :
    let v : Rat := (roundAt 0 false r h sticky (binade r h - f.m)).1 * (2 : Rat) ^ (binade r h - f.m)
    numberOf f (roundPack f 0 false r h sticky).1 = some v ∧ Pattern f (roundPack f 0 false r h sticky).1 ∧
      negBit f (roundPack f 0 false r h sticky).1 = false ∧ (roundPack f 0 false r h sticky).2 = if v = y then 0 else flagNX := by
  have unit : quantum f (binade r h) = binade r h - f.m := max_eq_left (by unfold Fmt.low; omega)
  have coarse := lt_binade_sub (f := f) (e := h) hs
  have y0 : 0 < y := lt_of_lt_of_le (by positivity) (binade_le hr stands)
  have least : 2 ^ f.m ≤ (roundAt 0 false r h sticky (binade r h - f.m)).1 := le_units hr stands coarse (by omega)
  have most : (roundAt 0 false r h sticky (binade r h - f.m)).1 ≤ 2 ^ (f.m + 1) := units_le stands coarse (by push_cast; omega)
  obtain ⟨-, -, -, -, pattern, sign, inside, -⟩ := roundPack_rounds hf 0 false hr stands hs
  simp only [show max (binade r h - f.m) (1 - (f.bias : Int) - f.m) = binade r h - f.m from unit, unit, signedBy_false, Int.cast_natCast,
    ratAbs_eq] at inside sign
  generalize (roundAt 0 false r h sticky (binade r h - f.m)).1 = n at *
  generalize binade r h = k at *
  have size : |(n : Rat) * 2 ^ (k - f.m)| = n * 2 ^ (k - f.m) := abs_of_nonneg (by positivity)
  have small : (n : Rat) * 2 ^ (k - f.m) < 2 ^ ((f.bias : Int) + 1) :=
    calc (n : Rat) * 2 ^ (k - f.m) ≤ ((2 ^ (f.m + 1) : Nat) : Rat) * 2 ^ (k - f.m) := by gcongr
      _ = 2 ^ (k + 1) := by rw [two_pow_mul_zpow]; congr 1; push_cast; ring
      _ < 2 ^ ((f.bias : Int) + 1) := zpow_lt_zpow_right₀ (by norm_num) (by omega)
  have notTiny : ¬ (n : Rat) * 2 ^ (k - f.m) < 2 ^ (1 - (f.bias : Int)) := not_lt.mpr <|
    calc (2 : Rat) ^ (1 - (f.bias : Int)) ≤ 2 ^ k := zpow_le_zpow_right₀ (by norm_num) (by omega)
      _ = ((2 ^ f.m : Nat) : Rat) * 2 ^ (k - f.m) := by rw [two_pow_mul_zpow]; congr 1; ring
      _ ≤ n * 2 ^ (k - f.m) := by gcongr
  rw [size, if_neg notTiny] at inside
  obtain ⟨number, flags⟩ := inside small
  exact ⟨number, pattern, sign.trans (decide_eq_false (not_lt.mpr y0.le)), flags⟩

/-- Where a fraction was cut off, two of the magnitudes that the bits stand for differ from any one value: the result is inexact. -/
theorem flags_of_cut {v : Rat} {fl : BitVec 5} (flags : ∀ y : Rat, Stands r true (y / 2 ^ h) → fl = if v = y then 0 else flagNX) : fl = flagNX := by
  have h0 : (0 : Rat) < 2 ^ h := by positivity
  have stands (d : Rat) (d0 : 0 < d) (d1 : d < 1) : Stands r true ((r + d) * 2 ^ h / 2 ^ h) := by
    rw [mul_div_cancel_right₀ _ h0.ne']
    constructor <;> linarith
  have third := flags _ (stands (1 / 3) (by norm_num) (by norm_num))
  have half := flags _ (stands (1 / 2) (by norm_num) (by norm_num))
  by_cases at_ : v = (r + 1 / 3) * 2 ^ h
  · rwa [if_neg] at half
    rw [at_, mul_left_inj' h0.ne']
    intro e
    linarith
  · rwa [if_neg at_] at third

/-- The root of an exact value, rounded once (R80, R110). -/
theorem RootOf.rounds (root : RootOf r sticky t) (hf : f.Sane) (hr : r ≠ 0) (hs : sticky = true → f.m + 3 ≤ bitLen r)
    (normal : 1 - (f.bias : Int) ≤ binade r h) (fits : binade r h < f.bias) :
    RootsTo f (t * (2 : Rat) ^ (2 * h)) (roundPack f 0 false r h sticky) := by
  obtain ⟨y, stands⟩ := exists_stands r sticky h
  have coarse := lt_binade_sub (f := f) (e := h) hs
  have h0 : (0 : Rat) < 2 ^ h := by positivity
  have q0 : (0 : Rat) < 2 ^ (binade r h - f.m) := by positivity
  obtain ⟨number, pattern, sign, -⟩ := roundPack_normal hf hr hs normal fits stands
  have flags (y : Rat) (stands : Stands r sticky (y / 2 ^ h)) := (roundPack_normal hf hr hs normal fits stands).2.2.2
  have least : 2 ^ f.m ≤ (roundAt 0 false r h sticky (binade r h - f.m)).1 := le_units hr stands coarse (by omega)
  obtain ⟨low, cut, whole⟩ := units_nearest (r := r) coarse
  generalize (roundAt 0 false r h sticky (binade r h - f.m)).1 = n at *
  have n1 : (1 : Rat) ≤ n := by exact_mod_cast (Nat.two_pow_pos _).trans_le least
  have r0 : (0 : Rat) ≤ r := Nat.cast_nonneg r
  have below := root.bits_le h
  have above := root.lt_bits h
  have exact_ := root.exact_iff h
  refine ⟨binade r h, n, root.binade_le hr h, root.lt_binade h, ?_, ?_⟩
  · exact_mod_cast (Nat.two_pow_pos _).trans_le least
  simp only [sq_two_zpow, ← mul_pow, Int.cast_natCast] at *
  generalize t * (2 ^ h) ^ 2 = x at *
  have lowest : ((2 * (n : Rat) - 1) * 2 ^ (binade r h - f.m)) ^ 2 ≤ (2 * (r * 2 ^ h)) ^ 2 :=
    pow_le_pow_left₀ (mul_nonneg (by linarith) q0.le) low 2
  have highest (b : Rat) (b0 : 0 ≤ b) (hb : 2 * b ≤ (2 * n + 1) * 2 ^ (binade r h - f.m)) :
      4 * b ^ 2 ≤ ((2 * (n : Rat) + 1) * 2 ^ (binade r h - f.m)) ^ 2 := by
    have := pow_le_pow_left₀ (by positivity) hb 2
    linarith
  have strict (cut : sticky = true) : ((r : Rat) * 2 ^ h) ^ 2 < x := below.lt_of_ne fun e => by simp [exact_.mpr e] at cut
  refine ⟨?_, ?_, ?_, number, pattern, sign, ?_⟩
  · linarith
  · cases sticky
    · rw [← exact_.mp rfl]
      exact highest _ (by positivity) (whole rfl).1
    · linarith [highest _ (by positivity) (cut rfl)]
  · intro tie
    cases sticky
    · rw [← exact_.mp rfl, show 4 * ((r : Rat) * 2 ^ h) ^ 2 = (2 * (r * 2 ^ h)) ^ 2 by ring,
        sq_eq_sq₀ (mul_nonneg (by linarith) q0.le) (by positivity), sq_eq_sq₀ (by positivity) (by positivity)] at tie
      have even := (whole rfl).2 (tie.imp_left Eq.symm)
      omega
    · have := strict rfl
      have := highest _ (by positivity) (cut rfl)
      rcases tie with e | e <;> linarith
  · cases sticky
    · rw [flags _ (mul_div_cancel_right₀ _ h0.ne'), ← exact_.mp rfl]
      simp only [sq_eq_sq₀ (mul_nonneg (zero_le_one.trans n1) q0.le) (mul_nonneg r0 h0.le)]
    · have inexact : (roundPack f 0 false r h true).2 = flagNX := flags_of_cut flags
      rw [inexact, if_neg]
      intro e
      have := flags (n * 2 ^ (binade r h - f.m)) ⟨(lt_div_iff₀ h0).mpr (lt_of_pow_lt_pow_left₀ 2 (by positivity) (e ▸ strict rfl)),
        (div_lt_iff₀ h0).mpr (lt_of_pow_lt_pow_left₀ 2 (by positivity) (e ▸ above))⟩
      rw [inexact, if_pos rfl] at this
      exact absurd this (by decide)
end
end Sys2Proof.Machine

namespace Sys2Proof.Machine
open Sys2Proof.Slice0
set_option Elab.async false

section
variable {f : Fmt} {a b : Nat} {x y : Rat} {m : Nat} {e : Int}

/-- The patterns of zero. -/
theorem pattern_of_zero (pa : Pattern f a) (na : numberOf f a = some 0) : a = withSign f (negBit f a) 0 := by
  obtain ⟨p, -, split, value⟩ := number_split pa na
  have zero : p = 0 := by
    rw [← magnitude_eq_zero (f := f)]
    revert value
    cases negBit f a <;> simp
    exact Eq.symm
  rwa [zero] at split

/-- Significand and even exponent under the root, with bits enough for the root to round. -/
def rootParts (f : Fmt) (m : Nat) (e : Int) : Nat × Int :=
  if (e - 2 * (f.m + 3 : Nat)) % 2 = 0 then (m * 2 ^ (2 * (f.m + 3)), e - 2 * (f.m + 3 : Nat))
  else (m * 2 ^ (2 * (f.m + 3) + 1), e - 2 * (f.m + 3 : Nat) - 1)

theorem fpSqrt_finite (ha : Finite f a x m e) : fpSqrt f a =
    if m = 0 then (withSign f (negBit f a) 0, 0)
    else if negBit f a then (f.nan, flagNV)
    else roundPack f 0 false (isqrt (rootParts f m e).1) ((rootParts f m e).2 / 2)
      (decide (isqrt (rootParts f m e).1 * isqrt (rootParts f m e).1 ≠ (rootParts f m e).1)) := by
  have isNum : firstNan f [a] = none := firstNan_none (by simp [ha.isNan])
  rw [fpSqrt, isNum, ha.unpacks]
  rfl

theorem rootParts_value (f : Fmt) (m : Nat) (e : Int) : ((rootParts f m e).1 : Rat) * 2 ^ (2 * ((rootParts f m e).2 / 2)) = m * 2 ^ e := by
  unfold rootParts
  split
  case isTrue even =>
    push_cast
    rw [mul_assoc, ← zpow_natCast, ← zpow_add₀ two_ne_zero]
    congr 2
    push_cast at even ⊢
    omega
  case isFalse odd =>
    push_cast
    rw [mul_assoc, ← zpow_natCast, ← zpow_add₀ two_ne_zero]
    congr 2
    push_cast at odd ⊢
    omega

theorem le_rootParts (f : Fmt) (hm : m ≠ 0) (e : Int) : 2 ^ (2 * (f.m + 3)) ≤ (rootParts f m e).1 := by
  have m1 := Nat.pos_of_ne_zero hm
  unfold rootParts
  split
  · exact Nat.le_mul_of_pos_left _ m1
  · exact (Nat.pow_le_pow_right (by decide) (by omega)).trans (Nat.le_mul_of_pos_left _ m1)

theorem rootOf_isqrt (n : Nat) : RootOf (isqrt n) (decide (isqrt n * isqrt n ≠ n)) (n : Rat) := by
  obtain ⟨low, high⟩ := isqrt_spec n
  refine ⟨?_, ?_, ?_⟩
  · rw [pow_two]
    exact_mod_cast low
  · rw [pow_two]
    exact_mod_cast high
  · rw [decide_eq_false_iff_not, not_not, pow_two]
    norm_cast

theorem fpSqrt_rounds (hf : f.Sane) (room : f.m + 2 ≤ f.bias) (ha : Finite f a x m e) (pos : 0 < x) : RootsTo f x (fpSqrt f a) := by
  have hm : m ≠ 0 := fun h => pos.ne' (ha.zero_iff.mp h)
  have plus : negBit f a = false := by
    have value := ha.value
    cases h : negBit f a
    · rfl
    · rw [h, signedBy_true] at value
      have : (0 : Rat) ≤ m * 2 ^ e := by positivity
      linarith
  have value : x = (rootParts f m e).1 * 2 ^ (2 * ((rootParts f m e).2 / 2)) := by
    rw [rootParts_value, ha.value, plus, signedBy_false]
  rw [fpSqrt_finite ha, if_neg hm, plus, if_neg Bool.false_ne_true]
  have root := rootOf_isqrt (rootParts f m e).1
  have many : 2 ^ (f.m + 3) ≤ isqrt (rootParts f m e).1 := by
    have le := le_rootParts f hm e
    have := (isqrt_spec (rootParts f m e).1).2
    rw [two_mul, pow_add] at le
    exact Nat.lt_succ_iff.mp (Nat.mul_self_lt_mul_self_iff.mp (le.trans_lt this))
  have hr : isqrt (rootParts f m e).1 ≠ 0 := ((Nat.two_pow_pos _).trans_le many).ne'
  have least : (2 : Rat) ^ f.low ≤ x := by
    have m1 : (1 : Rat) ≤ m := by exact_mod_cast Nat.pos_of_ne_zero hm
    have low : (2 : Rat) ^ f.low ≤ 2 ^ e := zpow_le_zpow_right₀ (by norm_num) ha.aboveLow
    rw [ha.value, plus, signedBy_false]
    exact low.trans (le_mul_of_one_le_left (by positivity) m1)
  have most : x < 2 ^ ((f.bias : Int) + 1) := by
    rw [ha.value, plus]
    exact ha.belowInf hf
  rw [value] at least most ⊢
  generalize (rootParts f m e).2 / 2 = h at *
  generalize (rootParts f m e).1 = t at *
  have two1 : (1 : Rat) < 2 := by norm_num
  have up := (zpow_lt_zpow_iff_right₀ two1).mp ((root.binade_le hr h).trans_lt most)
  have down := (zpow_lt_zpow_iff_right₀ two1).mp (least.trans_lt (root.lt_binade h))
  have := hf.bias_pos
  unfold Fmt.low at down
  exact root.rounds hf hr (fun _ => lt_bitLen_iff.mpr ((Nat.pow_le_pow_right (by decide) (by omega)).trans many)) (by omega) (by omega)
end
end Sys2Proof.Machine

namespace Sys2Proof.Machine
open Sys2Proof.Slice0
set_option Elab.async false

section
variable {f : Fmt} {a b : Nat} {x y : Rat} {m n : Nat} {e g : Int}

/-! ### Order (R80, R82) -/

theorem fpKey_withSign {p : Nat} (lt : p < f.sign) (neg : Bool) : fpKey f (withSign f neg p) = if neg then -(p : Int) - 1 else p := by
  rw [fpKey, natBits_sign lt]
  cases neg <;> simp [withSign]

section
variable (pa : Pattern f a) (pb : Pattern f b) (na : numberOf f a = some x) (nb : numberOf f b = some y)
include pa pb na nb

/-- The keys order the numbers, and −0 below +0. -/
theorem fpKey_lt_iff : fpKey f a < fpKey f b ↔ x < y ∨ x = y ∧ negBit f a = true ∧ negBit f b = false := by
  obtain ⟨p, pi, ps, rfl⟩ := number_split pa na
  obtain ⟨q, qi, qs, rfl⟩ := number_split pb nb
  have mono := (magnitude_strictMono f).lt_iff_lt (a := p) (b := q)
  have mono' := (magnitude_strictMono f).lt_iff_lt (a := q) (b := p)
  have p0 := magnitude_nonneg f p
  have q0 := magnitude_nonneg f q
  have keys : fpKey f a = (if negBit f a then -(p : Int) - 1 else p) ∧ fpKey f b = (if negBit f b then -(q : Int) - 1 else q) := by
    constructor
    · conv_lhs => rw [ps]
      exact fpKey_withSign (pi.trans f.inf_lt) _
    · conv_lhs => rw [qs]
      exact fpKey_withSign (qi.trans f.inf_lt) _
  rw [keys.1, keys.2]
  cases negBit f a <;> cases negBit f b
  · simp [mono]
  · simp
    exact ⟨by omega, fun h => by linarith⟩
  · simp
    exact lt_or_eq_of_le ((neg_nonpos.mpr p0).trans q0)
  · simp [mono']

/-- Numbers that are equal have one pattern, but for the zeros. -/
theorem pattern_eq_of_number (eq : x = y) (sign : negBit f a = negBit f b) : a = b := by
  obtain ⟨p, -, ps, vp⟩ := number_split pa na
  obtain ⟨q, -, qs, vq⟩ := number_split pb nb
  rw [vp, vq, sign, signedBy_inj, (magnitude_strictMono f).injective.eq_iff] at eq
  rw [ps, qs, sign, eq]
theorem sign_eq_of_number (eq : x = y) (nonzero : x ≠ 0) : negBit f a = negBit f b := by
  obtain ⟨p, -, -, vp⟩ := number_split pa na
  obtain ⟨q, -, -, vq⟩ := number_split pb nb
  have p0 := magnitude_nonneg f p
  have q0 := magnitude_nonneg f q
  rw [eq] at vp nonzero
  cases ha : negBit f a <;> cases hb : negBit f b <;> simp [ha, hb] at vp vq ⊢
  · exact nonzero (by linarith)
  · exact nonzero (by linarith)

theorem isNan_of_number : isNan f a = false ∧ isNan f b = false := by
  obtain ⟨_, _, ha⟩ := finite_of_number pa na
  obtain ⟨_, _, hb⟩ := finite_of_number pb nb
  exact ⟨ha.isNan, hb.isNan⟩
theorem isZero_of_number : (unpack f a).isZero = decide (x = 0) ∧ (unpack f b).isZero = decide (y = 0) := by
  obtain ⟨_, _, ha⟩ := finite_of_number pa na
  obtain ⟨_, _, hb⟩ := finite_of_number pb nb
  exact ⟨ha.isZero, hb.isZero⟩
theorem firstNan_of_number : firstNan f [a, b] = none := by
  obtain ⟨ha, hb⟩ := isNan_of_number pa pb na nb
  exact firstNan_none (by simp [ha, hb])

theorem fpMin_order : fpMin f a b = (if x < y ∨ x = y ∧ negBit f a = true then a else b, 0) := by
  rw [fpMin, firstNan_of_number pa pb na nb]
  simp only [fpKey_lt_iff pb pa nb na]
  rcases lt_trichotomy x y with lt | eq | gt
  · simp [lt, lt.not_gt, lt.ne']
  · have same := pattern_eq_of_number pa pb na nb eq
    cases ha : negBit f a <;> cases hb : negBit f b <;> simp [eq, ha, hb] at same ⊢
    exact same
  · simp [gt, gt.not_gt, gt.ne']

theorem fpMax_order : fpMax f a b = (if y < x ∨ x = y ∧ negBit f a = false then a else b, 0) := by
  rw [fpMax, firstNan_of_number pa pb na nb]
  simp only [fpKey_lt_iff pa pb na nb]
  rcases lt_trichotomy x y with lt | eq | gt
  · simp [lt, lt.not_gt, lt.ne]
  · have same := pattern_eq_of_number pa pb na nb eq
    cases ha : negBit f a <;> cases hb : negBit f b <;> simp [eq, ha, hb] at same ⊢
    exact same
  · simp [gt, gt.not_gt, gt.ne']

theorem fpSame_iff : fpSame f a b = true ↔ x = y := by
  obtain ⟨za, zb⟩ := isZero_of_number pa pb na nb
  simp only [fpSame, za, zb, Bool.or_eq_true, Bool.and_eq_true, decide_eq_true_eq, beq_iff_eq]
  constructor
  · rintro (⟨rfl, rfl⟩ | rfl)
    · rfl
    · exact Option.some.inj (na.symm.trans nb)
  · intro eq
    by_cases zero : x = 0
    · exact .inl ⟨zero, eq ▸ zero⟩
    · exact .inr (pattern_eq_of_number pa pb na nb eq (sign_eq_of_number pa pb na nb eq zero))

theorem fpLt_iff : fpLt f a b = true ↔ x < y := by
  obtain ⟨za, zb⟩ := isZero_of_number pa pb na nb
  simp only [fpLt, za, zb, Bool.and_eq_true, decide_eq_true_eq, fpKey_lt_iff pa pb na nb, Bool.not_eq_true', Bool.and_eq_false_iff, decide_eq_false_iff_not]
  constructor
  · rintro ⟨nonzero, lt | ⟨eq, sa, sb⟩⟩
    · exact lt
    · have zero : x ≠ 0 := nonzero.elim id fun h => eq ▸ h
      have := sign_eq_of_number pa pb na nb eq zero
      simp [sa, sb] at this
  · intro lt
    refine ⟨?_, .inl lt⟩
    by_contra both
    push Not at both
    linarith [both.1, both.2]

/-- The relations of numbers (R82). -/
theorem relations_of_numbers : fpEq f a b = (decide (x = y), 0) ∧ fpLess f a b = (decide (x < y), 0) ∧ fpLessEq f a b = (decide (x ≤ y), 0) ∧
    fpUnordered f a b = (false, 0) := by
  obtain ⟨ha, hb⟩ := isNan_of_number pa pb na nb
  have sa : isSnan f a = false := by
    obtain ⟨_, _, ha⟩ := finite_of_number pa na
    simp [isSnan, ha.unpacks]
  have sb : isSnan f b = false := by
    obtain ⟨_, _, hb⟩ := finite_of_number pb nb
    simp [isSnan, hb.unpacks]
  have same := Bool.eq_iff_iff.mpr ((fpSame_iff pa pb na nb).trans (decide_eq_true_iff (p := x = y)).symm)
  have less := Bool.eq_iff_iff.mpr ((fpLt_iff pa pb na nb).trans (decide_eq_true_iff (p := x < y)).symm)
  simp [fpEq, fpLess, fpLessEq, fpUnordered, ha, hb, sa, sb, same, less, le_iff_lt_or_eq]

end

/-! ### NaN (R68, R69) -/

theorem or_two_pow (n k : Nat) : n ||| 2 ^ k = if natBits n k 1 = 1 then n else n + 2 ^ k := by
  have bit : natBits n k 1 = (n.testBit k).toNat := by
    rw [Nat.testBit_eq_decide_div_mod_eq, natBits, pow_one]
    rcases Nat.mod_two_eq_zero_or_one (n / 2 ^ k) with h | h <;> simp [h]
  rw [bit]
  cases set : n.testBit k
  case true =>
    refine Nat.eq_of_testBit_eq fun i => ?_
    rw [Bool.toNat_true, if_pos rfl, Nat.testBit_or, Nat.testBit_two_pow]
    by_cases at_ : k = i
    · simp [← at_, set]
    · simp [at_]
  case false =>
    have low : n % 2 ^ (k + 1) < 2 ^ k := by
      rw [Nat.testBit_eq_decide_div_mod_eq, decide_eq_false_iff_not] at set
      rw [Nat.mod_pow_succ, (Nat.mod_two_eq_zero_or_one _).resolve_right set, mul_zero, add_zero]
      exact Nat.mod_lt _ (Nat.two_pow_pos k)
    have next : 2 ^ k + n % 2 ^ (k + 1) < 2 ^ (k + 1) := by
      have := pow_succ 2 k
      omega
    have joined : 2 ^ k + n % 2 ^ (k + 1) = 2 ^ k ||| n % 2 ^ (k + 1) := by
      have := Nat.two_pow_add_eq_or_of_lt low 1
      rwa [mul_one] at this
    rw [Bool.toNat_false, if_neg (by decide)]
    calc n ||| 2 ^ k = (2 ^ (k + 1) * (n / 2 ^ (k + 1)) + n % 2 ^ (k + 1)) ||| 2 ^ k := by rw [Nat.div_add_mod]
      _ = 2 ^ (k + 1) * (n / 2 ^ (k + 1)) ||| (2 ^ k + n % 2 ^ (k + 1)) := by
        rw [Nat.two_pow_add_eq_or_of_lt (low.trans (Nat.pow_lt_pow_right (by decide) (by omega))), joined, Nat.or_assoc, Nat.or_comm (2 ^ k)]
      _ = n + 2 ^ k := by
        rw [← Nat.two_pow_add_eq_or_of_lt next, add_left_comm, Nat.div_add_mod, add_comm]

theorem unpack_fields (f : Fmt) (a : Nat) : unpack f a =
    if a / 2 ^ f.m % 2 ^ f.e = f.ones then
      if a % 2 ^ f.m = 0 then .inf (negBit f a) else .nan (negBit f a) (a % 2 ^ f.m) (natBits (a % 2 ^ f.m) (f.m - 1) 1 == 1)
    else if a / 2 ^ f.m % 2 ^ f.e = 0 then .fin (negBit f a) (a % 2 ^ f.m) f.low
    else .fin (negBit f a) (a % 2 ^ f.m + 2 ^ f.m) (f.low + (natBits a f.m f.e : Int) - 1) := rfl

theorem isNan_iff : isNan f a = true ↔ nanBits f a := by
  unfold isNan nanBits
  rw [unpack_fields, show 2 ^ f.e - 1 = f.ones from rfl]
  by_cases top : a / 2 ^ f.m % 2 ^ f.e = f.ones
  · by_cases zero : a % 2 ^ f.m = 0 <;> simp [top, zero]
  · rw [if_neg top]
    by_cases sub : a / 2 ^ f.m % 2 ^ f.e = 0
    · simp only [if_pos sub, top, false_and, Bool.false_eq_true]
    · simp only [if_neg sub, top, false_and, Bool.false_eq_true]

theorem isSnan_iff (hf : f.Sane) : isSnan f a = true ↔ snanBits f a := by
  have half : 2 ^ f.m = 2 ^ (f.m - 1) * 2 := by
    rw [← pow_succ]
    congr
    have := hf.mantBits
    omega
  unfold isSnan snanBits nanBits
  rw [unpack_fields, show 2 ^ f.e - 1 = f.ones from rfl]
  by_cases top : a / 2 ^ f.m % 2 ^ f.e = f.ones
  · by_cases zero : a % 2 ^ f.m = 0
    · simp [top, zero]
    · have lt := Nat.mod_lt a (Nat.two_pow_pos f.m)
      have quiet : natBits (a % 2 ^ f.m) (f.m - 1) 1 = 1 ↔ ¬a % 2 ^ f.m < 2 ^ (f.m - 1) := by
        have lt2 : a % 2 ^ f.m / 2 ^ (f.m - 1) < 2 := Nat.div_lt_of_lt_mul (half ▸ lt)
        rw [natBits, pow_one, Nat.mod_eq_of_lt lt2, not_lt, ← Nat.one_le_div_iff (Nat.two_pow_pos _)]
        omega
      simp [top, zero, quiet]
  · rw [if_neg top]
    by_cases sub : a / 2 ^ f.m % 2 ^ f.e = 0
    · simp only [if_pos sub, top, false_and, Bool.false_eq_true]
    · simp only [if_neg sub, top, false_and, Bool.false_eq_true]

theorem firstNan_pair (f : Fmt) (a b : Nat) : firstNan f [a, b] =
    if isNan f a then some (quieted f a, if isSnan f a || isSnan f b then flagNV else 0)
    else if isNan f b then some (quieted f b, if isSnan f a || isSnan f b then flagNV else 0)
    else none := by
  unfold quieted
  rw [or_two_pow, or_two_pow]
  cases ha : isNan f a <;> cases hb : isNan f b <;> simp [firstNan, ha, hb]

/-- The first NaN operand comes out quiet, and a signalling one sets NV, in every operation that asks `firstNan` first. -/
theorem nan_first (hf : f.Sane) {op : Fmt → Nat → Nat → Nat × BitVec 5} (h : ∀ r, firstNan f [a, b] = some r → op f a b = r) :
    (nanBits f a → (op f a b).1 = quieted f a) ∧ (¬ nanBits f a → nanBits f b → (op f a b).1 = quieted f b) ∧
    (nanBits f a ∨ nanBits f b → (snanBits f a ∨ snanBits f b → (op f a b).2 = flagNV) ∧ (¬(snanBits f a ∨ snanBits f b) → (op f a b).2 = 0)) := by
  simp only [← isNan_iff, ← isSnan_iff hf]
  rw [firstNan_pair] at h
  cases ha : isNan f a
  case true =>
    rw [h _ (if_pos ha)]
    cases sa : isSnan f a <;> cases sb : isSnan f b <;> simp
  case false =>
    cases hb : isNan f b
    case true =>
      rw [h _ ((if_neg (by simp [ha])).trans (if_pos hb))]
      cases sa : isSnan f a <;> cases sb : isSnan f b <;> simp
    case false => simp

theorem operations_nan (hf : f.Sane) (a b : Nat) : ∀ op ∈ [fpAdd, fpSub, fpMul, fpDiv, fpMin, fpMax],
    (nanBits f a → (op f a b).1 = quieted f a) ∧ (¬ nanBits f a → nanBits f b → (op f a b).1 = quieted f b) ∧
    (nanBits f a ∨ nanBits f b → (snanBits f a ∨ snanBits f b → (op f a b).2 = flagNV) ∧ (¬(snanBits f a ∨ snanBits f b) → (op f a b).2 = 0)) := by
  intro op mem
  fin_cases mem
  · exact nan_first hf fun r h => by rw [fpAdd, h]
  · exact nan_first hf fun r h => by rw [fpSub, h]
  · exact nan_first hf fun r h => by rw [fpMul, h]
  · exact nan_first hf fun r h => by rw [fpDiv, h]
  · exact nan_first hf fun r h => by rw [fpMin, h]
  · exact nan_first hf fun r h => by rw [fpMax, h]

end
end Sys2Proof.Machine

namespace Sys2Proof.Machine
open Sys2Proof.Slice0
set_option Elab.async false

/-! ### Infinities (R68, R80) -/

section
variable {f : Fmt} {b n : Nat} {y : Rat} {g : Int}

theorem isNan_inf (s : Bool) : isNan f (withSign f s f.inf) = false := by simp [isNan, unpack_inf]
theorem negBit_inf (s : Bool) : negBit f (withSign f s f.inf) = s := negBit_withSign f.inf_lt s

theorem infinities (s t : Bool) :
    fpAdd f (withSign f s f.inf) (withSign f t f.inf) = (if s = t then (withSign f s f.inf, 0) else (f.nan, flagNV)) ∧
    fpSub f (withSign f s f.inf) (withSign f t f.inf) = (if s = t then (f.nan, flagNV) else (withSign f s f.inf, 0)) ∧
    fpMul f (withSign f s f.inf) (withSign f t f.inf) = (withSign f (s != t) f.inf, 0) ∧
    fpDiv f (withSign f s f.inf) (withSign f t f.inf) = (f.nan, flagNV) := by
  have isNum (u : Bool) : firstNan f [withSign f s f.inf, withSign f u f.inf] = none := firstNan_none (by simp [isNan_inf])
  have sum (u : Bool) : fpAdd f (withSign f s f.inf) (withSign f u f.inf) = if s = u then (withSign f s f.inf, 0) else (f.nan, flagNV) := by
    rw [fpAdd, isNum, unpack_inf, unpack_inf]
    rfl
  refine ⟨sum t, ?_, ?_, ?_⟩
  · rw [fpSub, isNum, flipSign_withSign f.inf_lt]
    refine (sum _).trans ?_
    cases s <;> cases t <;> rfl
  · rw [fpMul, isNum, unpack_inf, unpack_inf]
    rfl
  · rw [fpDiv, isNum, unpack_inf, unpack_inf]
    rfl

section
variable (hb : Finite f b y n g) (s : Bool)
include hb

theorem firstNan_inf_left : firstNan f [withSign f s f.inf, b] = none := firstNan_none (by simp [isNan_inf, hb.isNan])
theorem firstNan_inf_right : firstNan f [b, withSign f s f.inf] = none := firstNan_none (by simp [isNan_inf, hb.isNan])

theorem fpAdd_inf : fpAdd f (withSign f s f.inf) b = (withSign f s f.inf, 0) ∧ fpAdd f b (withSign f s f.inf) = (withSign f s f.inf, 0) := by
  constructor
  · rw [fpAdd, firstNan_inf_left hb, unpack_inf, hb.unpacks]
  · rw [fpAdd, firstNan_inf_right hb, unpack_inf, hb.unpacks]

theorem fpMul_inf : fpMul f (withSign f s f.inf) b = if y = 0 then (f.nan, flagNV) else (withSign f (s != negBit f b) f.inf, 0) := by
  have zero := hb.isZero
  rw [hb.unpacks] at zero
  rw [fpMul, firstNan_inf_left hb, unpack_inf, hb.unpacks]
  by_cases y0 : y = 0
  · simp only [zero, y0, decide_true, if_true]
    rfl
  · simp only [zero, y0, decide_false, if_false, Bool.false_eq_true]
    rfl

theorem fpDiv_inf : fpDiv f (withSign f s f.inf) b = (withSign f (s != negBit f b) f.inf, 0) ∧
    fpDiv f b (withSign f s f.inf) = (withSign f (negBit f b != s) 0, 0) := by
  constructor
  · rw [fpDiv, firstNan_inf_left hb, unpack_inf, hb.unpacks]
    rfl
  · rw [fpDiv, firstNan_inf_right hb, unpack_inf, hb.unpacks]
    rfl
end

theorem fpSub_inf (s : Bool) (pb : Pattern f b) (nb : numberOf f b = some y) :
    fpSub f (withSign f s f.inf) b = (withSign f s f.inf, 0) ∧ fpSub f b (withSign f s f.inf) = (withSign f (!s) f.inf, 0) := by
  obtain ⟨_, _, hb⟩ := finite_of_number pb nb
  obtain ⟨pc, nc, -⟩ := number_flipSign pb nb
  obtain ⟨_, _, hc⟩ := finite_of_number pc nc
  constructor
  · rw [fpSub, firstNan_inf_left hb]
    exact (fpAdd_inf hc s).1
  · rw [fpSub, firstNan_inf_right hb, flipSign_withSign f.inf_lt]
    exact (fpAdd_inf hb _).2

theorem fpSqrt_inf (s : Bool) : fpSqrt f (withSign f s f.inf) = if s then (f.nan, flagNV) else (withSign f s f.inf, 0) := by
  have isNum : firstNan f [withSign f s f.inf] = none := firstNan_none (by simp [isNan_inf])
  rw [fpSqrt, isNum, unpack_inf]
  cases s <;> rfl

theorem fpSqrt_zero {a : Nat} (pa : Pattern f a) (na : numberOf f a = some 0) : fpSqrt f a = (a, 0) := by
  obtain ⟨m, e, ha⟩ := finite_of_number pa na
  rw [fpSqrt_finite ha, if_pos (ha.zero_iff.mpr rfl), ← pattern_of_zero pa na]

theorem fpSqrt_negative {a m : Nat} {x : Rat} {e : Int} (ha : Finite f a x m e) (neg : x < 0) : fpSqrt f a = (f.nan, flagNV) := by
  have minus : negBit f a = true := by
    by_contra plus
    have value := ha.value
    rw [Bool.eq_false_of_not_eq_true plus, signedBy_false] at value
    have : (0 : Rat) ≤ m * 2 ^ e := by positivity
    linarith
  rw [fpSqrt_finite ha, if_neg fun zero => neg.ne (ha.zero_iff.mp zero), if_pos minus]
end

theorem arithmeticRounds : ArithmeticRounds := by
  intro f mem a b c pa pb pc
  have hf : f.Sane ∧ f.m + 2 ≤ f.bias := by
    fin_cases mem
    · exact ⟨⟨by decide, by decide⟩, by decide⟩
    · exact ⟨⟨by decide, by decide⟩, by decide⟩
  obtain ⟨hf, room⟩ := hf
  refine ⟨fun x y na nb => ?_, operations_nan hf a b, ?_, ?_⟩
  · obtain ⟨_, _, ha⟩ := finite_of_number pa na
    obtain ⟨_, _, hb⟩ := finite_of_number pb nb
    obtain ⟨add, add0⟩ := fpAdd_rounds ha hb hf
    obtain ⟨sub, sub0⟩ := fpSub_rounds hf pa pb na nb
    obtain ⟨mul, mul0⟩ := fpMul_rounds ha hb hf
    obtain ⟨div, div0, divZero, invalid⟩ := fpDiv_rounds ha hb hf
    exact ⟨add, add0, sub, sub0, mul, mul0, div, div0, divZero, invalid,
      fun z nc => (finite_of_number pc nc).elim fun _ hc => hc.elim fun _ hc => fpFma_rounds ha hb hf hc,
      fpSqrt_rounds hf room ha, fun zero => fpSqrt_zero pa (zero ▸ na), fpSqrt_negative ha,
      fpMin_order pa pb na nb, fpMax_order pa pb na nb, relations_of_numbers pa pb na nb⟩
  · rintro s t rfl rfl
    simp only [signed_eq_withSign, infBits_eq, negBit_inf]
    exact infinities s t
  · rintro s y rfl nb
    obtain ⟨_, _, hb⟩ := finite_of_number pb nb
    obtain ⟨addLeft, addRight⟩ := fpAdd_inf hb s
    obtain ⟨subLeft, subRight⟩ := fpSub_inf s pb nb
    obtain ⟨divLeft, divRight⟩ := fpDiv_inf hb s
    simp only [signed_eq_withSign, infBits_eq, negBit_inf]
    exact ⟨addLeft, addRight, subLeft, subRight, fpMul_inf hb s, divLeft, by rw [divRight, bne_comm], fpSqrt_inf s⟩
end Sys2Proof.Machine

namespace Sys2Proof.Machine
open Sys2Proof.Slice0
set_option Elab.async false

/-! ### Conversions (R83, R84) -/

section
variable {f : Fmt} {a m : Nat} {x : Rat} {e : Int}

theorem fpConvert_rounds {g : Fmt} (hg : g.Sane) (mode : Mode) (ha : Finite f a x m e) :
    (x ≠ 0 → RoundsTo g mode x (fpConvert f g mode a)) ∧ (x = 0 → fpConvert f g mode a = (signed g (negBit f a) 0, 0)) := by
  have value : fpConvert f g mode a = roundPack g mode (negBit f a) m e false := by rw [fpConvert, ha.unpacks]
  rw [value]
  constructor
  · intro nonzero
    rw [ha.value]
    exact (roundPack_rounds hg mode _ (sticky := false) (mt ha.zero_iff.mp nonzero) (mul_div_cancel_right₀ _ (by positivity)) (by simp)).roundsTo
  · intro zero
    rw [ha.zero_iff.mpr zero]
    rfl

theorem intToFp_rounds (hf : f.Sane) (mode : Mode) (n : Int) :
    (n ≠ 0 → RoundsTo f mode n (intToFp f mode n)) ∧ (n = 0 → intToFp f mode n = (0, 0)) := by
  have value : (⟨n, 0⟩ : Dyadic).value = n := by simp [Dyadic.value]
  refine ⟨fun nonzero => ?_, fun zero => if_pos zero⟩
  have rounded := roundDyadic_rounds hf mode ⟨n, 0⟩ false (by rwa [value, Int.cast_ne_zero])
  rwa [value] at rounded

/-- The magnitude that `fpToInt` rounds to, and whether it is exact. -/
def integerPart (mode : Mode) (neg : Bool) (m : Nat) (e : Int) : Nat × Bool :=
  if e ≥ 0 then (m * 2 ^ e.toNat, true) else roundShift mode neg m (-e).toNat false

theorem integerPart_rounds (mode : Mode) (neg : Bool) (m : Nat) (e : Int) :
    RoundedTo mode (signedBy neg ((m : Rat) * 2 ^ e)) (signedBy neg ((integerPart mode neg m e).1 : Int)) ∧
    ((integerPart mode neg m e).2 = true ↔ ((integerPart mode neg m e).1 : Rat) = m * 2 ^ e) := by
  obtain e0 | e0 := le_or_gt 0 e
  · have whole : (m : Rat) * 2 ^ e = ((m * 2 ^ e.toNat : Nat) : Rat) := by
      rw [Nat.cast_mul, Nat.cast_pow, Nat.cast_ofNat, ← zpow_natCast, Int.toNat_of_nonneg e0]
    rw [integerPart, if_pos e0, whole, ← Int.cast_natCast, ← signedBy_cast]
    exact ⟨roundedTo_self mode _, by simp⟩
  · have shifted : (m : Rat) * 2 ^ e = m / 2 ^ (-e).toNat := by
      rw [div_eq_mul_inv, ← zpow_natCast, Int.toNat_of_nonneg (by omega), zpow_neg, inv_inv]
    rw [integerPart, if_neg (by omega), shifted]
    exact Stands.roundShift (sticky := false) rfl mode neg (by simp)

theorem fpToInt_finite (ha : Finite f a x m e) (mode : Mode) (lo hi : Int) : fpToInt f mode a lo hi =
    let n := signedBy (negBit f a) ((integerPart mode (negBit f a) m e).1 : Int)
    if hi < n then (hi, flagNV) else if n < lo then (lo, flagNV) else (n, if (integerPart mode (negBit f a) m e).2 then 0 else flagNX) := by
  rw [fpToInt, ha.unpacks]
  rfl

theorem fpToInt_rounds (ha : Finite f a x m e) (mode : Mode) (lo hi : Int) : ∃ n, RoundedTo mode x n ∧
    fpToInt f mode a lo hi = if hi < n then (hi, flagNV) else if n < lo then (lo, flagNV) else (n, if (n : Rat) = x then 0 else flagNX) := by
  obtain ⟨rounds, exact_⟩ := integerPart_rounds mode (negBit f a) m e
  have same : ((signedBy (negBit f a) ((integerPart mode (negBit f a) m e).1 : Int) : Int) : Rat) = x ↔
      (integerPart mode (negBit f a) m e).2 = true := by rw [exact_, signedBy_cast, ha.value, signedBy_inj, Int.cast_natCast]
  exact ⟨_, ha.value ▸ rounds, by simp only [fpToInt_finite ha, same]⟩

theorem fpToInt_nan (nan : nanBits f a) (mode : Mode) (lo hi : Int) : fpToInt f mode a lo hi = (0, flagNV) := by
  obtain ⟨top, payload⟩ := nan
  rw [fpToInt, unpack_fields, if_pos (c := _ = f.ones) top, if_neg payload]

theorem fpToInt_inf (s : Bool) (mode : Mode) (lo hi : Int) : fpToInt f mode (withSign f s f.inf) lo hi = (if s then lo else hi, flagNV) := by
  rw [fpToInt, unpack_inf]

end

theorem conversionsRound : ConversionsRound := by
  have sane : f32.Sane ∧ f64.Sane ∧ bf16.Sane := ⟨⟨by decide, by decide⟩, ⟨by decide, by decide⟩, ⟨by decide, by decide⟩⟩
  obtain ⟨sane32, sane64, saneBf⟩ := sane
  refine ⟨?_, ?_, ?_⟩
  · intro p mem mode a x _ pa na
    obtain ⟨_, _, ha⟩ := finite_of_number pa na
    fin_cases mem
    · exact fpConvert_rounds sane64 mode ha
    · exact fpConvert_rounds sane32 mode ha
    · exact fpConvert_rounds saneBf mode ha
    · exact fpConvert_rounds sane32 mode ha
  · intro f mem mode n _
    fin_cases mem
    · exact intToFp_rounds sane32 mode n
    · exact intToFp_rounds sane64 mode n
  · intro f _ mode a lo hi _ pa _ _
    refine ⟨fun x na => ?_, fun nan => fpToInt_nan nan mode lo hi, ?_⟩
    · obtain ⟨_, _, ha⟩ := finite_of_number pa na
      exact fpToInt_rounds ha mode lo hi
    · rintro s rfl
      exact fpToInt_inf s mode lo hi
end Sys2Proof.Machine
end

/-! PROOFS. O4: scalar floating point issues (R80 to R85). -/
section
namespace Sys2Proof.Slice0
open Sys2Proof.Machine
set_option Elab.async false

/-- Settles O4: the operations round as `arithmeticRounds` and `conversionsRound` say, and each family issues by its format. -/
theorem floatIssues : Obligations.FloatIssues := by
  refine ⟨arithmeticRounds, conversionsRound, fun x hx s c sl t rd ra rb ta tb h a b d => ?_, fun x hx s c sl t rd ra rb rc h a b e d => ?_,
    fun x hx s c sl t rd ra ta h a d => ?_, fun x hx s c sl t rd ra ta h a d => ?_, fun x hx s c sl t rd ra mode ta h a d => ?_⟩
  · obtain ⟨major, fn, low, runs⟩ := floatBinary_issues x hx
    rw [runs]
    exact h.flags_rrr low a b d x.2.2
  · obtain ⟨major, low, runs⟩ := floatTernary_issues x hx
    rw [runs]
    exact h.flags_rrrr low a b e d x.2
  · obtain ⟨major, fn, low, runs⟩ := floatUnary_issues x hx
    rw [runs]
    exact h.flags_rr low a d x.2.2
  · obtain ⟨fn, runs⟩ := floatClass_issues x hx
    rw [runs]
    exact h.value_rr (by decide : 0x16 < 0x17) (lat := 12) a d fun y => BitVec.ofNat 512 (x.2 y)
  · rw [conversions_issues x hx]
    exact h.flags_rr (by decide : 0x15 < 0x17) (lat := 12) a d (x.2 mode.toNat)

end Sys2Proof.Slice0
end

/-! PROOFS. O3: LDPC (R77). -/
section
namespace Sys2Proof.Machine
open Sys2Proof.Slice0
set_option Elab.async false

/-! ### The constant at a signed word offset from PC (R77) -/

/-- The address as the statement gives it in integers. -/
theorem ldpcAddr_eq (pc : Addr) (imm : BitVec 19) : pc.setWidth 64 + imm.signExtend 64 * 4 = BitVec.ofInt 64 (pc.toNat + imm.toInt * 4) := by
  rw [BitVec.ofInt_add, BitVec.ofInt_mul, BitVec.ofInt_natCast, BitVec.ofNat_toNat]
  rfl

/-- LDPC's own part of its issue. -/
def State.constantAt (s : State) (o : Op) (rd : BitVec 7) (e : Word) : State :=
  if e.toNat % 8 ≠ 0 then s.trapOp o (trapAt o.pc 0x04 e 0)
  else match s.fetchBytes o.p e.toNat 8 with
    | .ok bs => s.fly o [.reg (o.entry rd) (BitVec.ofNat 512 (bytesNat bs))]
    | .fault => s.trapOp o (trapAt o.pc 0x06 e 3)
    | .lost => s.fly o [.token (o.entry rd)]

section
variable {s : State} {o : Op} {rd : BitVec 7} {e : Word} (aligned : e.toNat % 8 = 0)
include aligned

theorem State.constantAt_ok {bs : List Byte} (fetched : s.fetchBytes o.p e.toNat 8 = .ok bs) :
    s.constantAt o rd e = s.fly o [.reg (o.entry rd) (BitVec.ofNat 512 (bytesNat bs))] := by
  rw [State.constantAt, if_neg (not_not.mpr aligned), fetched]
theorem State.constantAt_lost (fetched : s.fetchBytes o.p e.toNat 8 = .lost) : s.constantAt o rd e = s.fly o [.token (o.entry rd)] := by
  rw [State.constantAt, if_neg (not_not.mpr aligned), fetched]
theorem State.constantAt_fault (fetched : s.fetchBytes o.p e.toNat 8 = .fault) : s.constantAt o rd e = s.trapOp o (trapAt o.pc 0x06 e 3) := by
  rw [State.constantAt, if_neg (not_not.mpr aligned), fetched]
end

theorem ldpc_issues {s : State} {c sl : Nat} {t : Thread} {rd : BitVec 7} (h : Issuing s c sl t) (d : Writable s c t rd.toNat) (imm : BitVec 19) :
    exec (.ldpc rd imm) s = .next (s.constantAt (opOf s { Form.plain 0x0D 0 with dsts := [(0, rd.toNat)] } c sl t) rd
      (BitVec.ofInt 64 (t.pc.toNat + imm.toInt * 4))) := by
  have ready : FormReady s c t { Form.plain 0x0D 0 with dsts := [(0, rd.toNat)] } := by
    constructor <;> simp [Form.plain, d]
  rw [← ldpcAddr_eq]
  exact h.issue ready (loopEnd_of_major (.inl (by decide : 0x0D < 0x17))) _

end Sys2Proof.Machine

namespace Sys2Proof.Slice0
open Sys2Proof.Machine
set_option Elab.async false

/-- Settles O3: E by its case, aligned or not, and the fetch by its outcome. -/
theorem ldpcIssues : Obligations.LdpcIssues := by
  intro s c sl t rd imm h d e o
  have runs : exec (.ldpc rd imm) s = .next (s.constantAt o rd e) := ldpc_issues h d imm
  have flies (fx : List Effect) : ∃ u, (.next (s.fly o fx) : Res) = .next u ∧ InFlight s u c sl t 12 fx (t.pc + 4) ∧ IssueFrame s u c sl [] := by
    obtain ⟨-, flight, frame⟩ := State.flyTo_spec s o h.slot rfl h.inCore fx o.next .none 0 [] (by simp)
    exact ⟨_, rfl, flight rfl, frame⟩
  refine ⟨fun misaligned => ?_, fun aligned => ?_⟩
  · rw [runs, State.constantAt, if_pos misaligned]
    rfl
  · rw [runs]
    cases fetched : s.fetchBytes (((s.core c).part).getD 0) e.toNat 8 with
    | ok bs =>
      rw [State.constantAt_ok aligned fetched]
      exact flies _
    | lost =>
      rw [State.constantAt_lost aligned fetched]
      exact flies _
    | fault =>
      rw [State.constantAt_fault aligned fetched]
      rfl

end Sys2Proof.Slice0
end

/-! PROOFS. O7 to O9: branches, jumps and loops (R87 to R90). -/
section
namespace Sys2Proof.Machine
open Sys2Proof.Slice0
set_option Elab.async false

/-! ### Targets and transfers (R49, R86 to R89) -/

theorem dispTarget_eq (pc : Addr) {w : Nat} (n : BitVec w) : dispTarget pc n = displaced pc n.toInt := by
  rw [displaced, BitVec.ofInt_add, BitVec.ofInt_mul, BitVec.ofInt_natCast, BitVec.ofNat_toNat, BitVec.setWidth_eq]
  rfl

/-- A control transfer away from the end of an active loop (R92). -/
theorem loopEnd_of_inside {s : State} {f : Form} {c sl : Nat} {t : Thread} (inside : t.loopEndsAt t.pc = false) :
    (opOf s f c sl t).loopEnd = false := by
  rw [Op.loopEnd, Bool.and_eq_false_iff]
  exact .inr inside

/-- A form that looks at a full/empty bit alone (R87). -/
def formLook (fn : Nat) (ra : BitVec 7) : Form :=
  { Form.plain 0x17 fn with srcs := [{ field := 1, reg := ra.toNat, trap := false, flag := true }] }

theorem FormReady.look {s : State} {c : Nat} {t : Thread} {fn : Nat} {ra : BitVec 7} (window : ra.toNat < t.size)
    (sound : (s.regAt c (t.base + ra.toNat)).poison = false) : FormReady s c t (formLook fn ra) := by
  constructor <;> simp [formLook, Form.plain, window, Reg.lost, sound]

theorem FormReady.plain {s : State} {c : Nat} {t : Thread} (major fn : Nat) : FormReady s c t (Form.plain major fn) := by
  constructor <;> simp [Form.plain]

section
variable {s : State} {c sl : Nat} {t : Thread} (h : Issuing s c sl t)
include h

/-- An issue whose gate traps takes that trap. -/
theorem Issuing.issue_gateTrap {f : Form} {x : TrapInfo} (gate : s.gate (opOf s f c sl t) = .trap x) (body : Op → State → State) :
    s.issue f body = .next (s.trapOp (opOf s f c sl t) x) := by
  have own : (opOf s f c sl t).follows = false := by simp [opOf, Op.follows]
  rw [State.issue, h.issuer f]
  simp [own, State.issueOwn, gate]

section
variable (inside : t.loopEndsAt t.pc = false)
include inside

/-- A transfer with its effects goes in flight to its target. -/
theorem Issuing.transfers {f : Form} (ready : FormReady s c t f) {body : Op → State → State} {fx : List Effect} {next : Addr} {x : Transfer}
    (flies : body (opOf s f c sl t) (s.correctReads (opOf s f c sl t)) = (s.correctReads (opOf s f c sl t)).flyTo (opOf s f c sl t) fx next x 0 []) :
    ∃ u, s.issue f body = .next u ∧ IssueFrame s u c sl [] ∧ InFlight s u c sl t f.lat fx next := by
  obtain ⟨u, run, -, flight, frame⟩ := h.flies ready (loopEnd_of_inside inside) body fx next x 0 [] (by simp) flies
  exact ⟨u, run, frame, flight rfl⟩

theorem Issuing.branch {f : Form} (ready : FormReady s c t f) (taken : Op → State → Bool) (n : BitVec 15) {b : Bool}
    (decides : taken (opOf s f c sl t) (s.correctReads (opOf s f c sl t)) = b) :
    ∃ u, s.issue f (fun o s => s.branch o (taken o s) n) = .next u ∧ IssueFrame s u c sl [] ∧
      InFlight s u c sl t f.lat [] (if b then displaced t.pc n.toInt else t.pc + 4) := by
  cases b
  · exact h.transfers inside ready (x := .none) (by
      rw [decides]
      rfl)
  · exact h.transfers inside ready (x := .jump) (by
      rw [decides, if_pos rfl, ← dispTarget_eq]
      rfl)
end

/-- A look at a poisoned entry traps DATA_LOST (R36). -/
theorem Issuing.look_traps (inside : t.loopEndsAt t.pc = false) {ra : BitVec 7} (window : ra.toNat < t.size) (fn : Nat)
    (lost : (s.regAt c (t.base + ra.toNat)).poison = true) (body : Op → State → State) :
    s.issue (formLook fn ra) body = .next (s.trapOp (opOf s (formLook fn ra) c sl t)
      (trapAt t.pc 0x0E (BitVec.ofNat 64 (ra.toNat + 256)) (lostCore (s.regAt c (t.base + ra.toNat)).token))) := by
  refine h.issue_gateTrap ?_ body
  have range : (opOf s (formLook fn ra) c sl t).form.outOfRange (opOf s (formLook fn ra) c sl t).t.size = none :=
    Form.outOfRange_none (f := formLook fn ra) (size := t.size) (by simpa [formLook] using window) (by simp [formLook, Form.plain])
  unfold State.gate
  simp only [range, loopEnd_of_inside inside]
  simp [opOf, formLook, Form.plain, Reg.lost, lost, Op.pc]

/-! ### Jumps and loops (R88 to R90) -/

/-- A transfer to an address that a register or lk holds (R89). -/
theorem Issuing.jumps (inside : t.loopEndsAt t.pc = false) {f : Form} (ready : FormReady s c t f) {body : Op → State → State} {fx : List Effect}
    {target : Addr} {x : Transfer} (jumps : body (opOf s f c sl t) (s.correctReads (opOf s f c sl t)) =
      (s.correctReads (opOf s f c sl t)).jumpTo (opOf s f c sl t) target fx x) :
    (target.toNat % 4 = 0 → ∃ u, s.issue f body = .next u ∧ IssueFrame s u c sl [] ∧ InFlight s u c sl t f.lat fx target) ∧
    (target.toNat % 4 ≠ 0 → ∃ v o, OnlyFlips s v ∧ o.c = c ∧ o.sl = sl ∧ o.t = t ∧ o.pair = none ∧
      s.issue f body = .next (v.trapOp o (trapAt t.pc 0x04 (target.setWidth 64) 0))) := by
  refine ⟨fun aligned => h.transfers inside ready (x := x) ?_,
    fun misaligned => ⟨_, opOf s f c sl t, s.correctReads_only (opOf s f c sl t), rfl, rfl, rfl, rfl, ?_⟩⟩
  · rw [jumps, State.jumpTo, if_neg (not_not.mpr aligned)]
  · rw [h.issue ready (loopEnd_of_inside inside), jumps, State.jumpTo, if_pos misaligned]
    rfl

/-- The form of a LOOP, whose count blocks (R33, R90). -/
def formLoop (level : Nat) (ra : BitVec 7) : Form := { Form.plain 0x1B level with srcs := [srcB 1 ra] }

omit h in
theorem FormReady.loop {level : Nat} {ra : BitVec 7} (a : Readable s c t ra.toNat) : FormReady s c t (formLoop level ra) := by
  constructor <;> simp [formLoop, Form.plain, srcB, a, a.inWindow]

end

/-- LOOP's own part of its issue (R90). -/
def State.loopAt (s : State) (o : Op) (a : Word) (stop : BitVec 12) (level : Nat) : State :=
  if a = 0 then s.flyTo o [.loop level { o.t.level level with active := false }] (o.pc + stop.setWidth 48 * 4 + 4) .call 0 []
  else s.fly o [.loop level { start := o.pc + 4, stop := o.pc + stop.setWidth 48 * 4, count := a, active := true }]

/-- Addresses of a LOOP as the statement gives them in naturals (R90). -/
theorem loopStop_eq (pc : Addr) (stop : BitVec 12) : pc + stop.setWidth 48 * 4 = BitVec.ofNat 48 (pc.toNat + stop.toNat * 4) := by
  rw [BitVec.ofNat_add, BitVec.ofNat_mul, BitVec.ofNat_toNat, BitVec.ofNat_toNat, BitVec.setWidth_eq]
  rfl
theorem loopSkip_eq (pc : Addr) (stop : BitVec 12) : pc + stop.setWidth 48 * 4 + 4 = BitVec.ofNat 48 (pc.toNat + (stop.toNat + 1) * 4) := by
  rw [loopStop_eq, Nat.add_mul, ← Nat.add_assoc, BitVec.ofNat_add (y := 1 * 4)]
  rfl

end Sys2Proof.Machine

namespace Sys2Proof.Slice0
open Sys2Proof.Machine
set_option Elab.async false

theorem branches_issue : ∀ x ∈ branches, ∃ (fn : Nat) (cond : Word → Bool), (∀ a : Word, cond a = true ↔ x.2 a.toInt) ∧
    ∀ (s : State) (ra : BitVec 7) (ta : BitVec 1) (n : BitVec 15), exec (x.1 ra ta n) s =
      s.issue (formRR 0x17 fn ra ta) fun o s => s.branch o (cond (s.rx o ra)) n := by
  simp only [branches, List.forall_mem_cons, List.not_mem_nil, false_implies, implies_true, and_true]
  and_intros
  all_goals exact ⟨_, _, fun _ => decide_eq_true_iff, fun _ _ _ _ => rfl⟩

/-- Settles O7: each condition on a register by its Boolean, and the looks by the full/empty bit that the reads leave alone. -/
theorem branchIssues : Obligations.BranchIssues := by
  refine ⟨fun x hx s c sl t ra ta n h a inside => ?_, ?_⟩
  · obtain ⟨fn, cond, means, runs⟩ := branches_issue x hx
    obtain ⟨u, run, frame, flight⟩ := h.branch inside (FormReady.source (major := 0x17) (fn := fn) (ta := ta) a) (fun o s => cond (s.rx o ra)) n
      (b := cond (regWord s c t ra)) (by simp only [State.rx_opOf, regWord_correctReads])
    refine ⟨u, (runs s ra ta n).trans run, frame, fun holds => ?_, fun fails => ?_⟩
    · rwa [(means _).mpr holds] at flight
    · rwa [Bool.eq_false_of_not_eq_true (mt (means _).mp fails)] at flight
  · intro s c sl t ra n h window inside r
    have looks (fn : Nat) (sound : r.poison = false) (g : Bool → Bool) {b : Bool} (full : r.full = b) :=
      h.branch inside (FormReady.look (fn := fn) window sound) (fun o s => g (s.regAt o.c (o.entry ra)).full) n (b := g b)
        (congrArg g ((s.correctReads_full _ c _).trans full))
    refine ⟨fun sound full => ⟨looks 6 sound id full, looks 7 sound not full⟩, fun sound empty => ⟨looks 6 sound id empty, looks 7 sound not empty⟩,
      fun lost i hi => ?_⟩
    obtain rfl | rfl := hi
    · exact ⟨_, rfl, rfl, rfl, rfl, h.look_traps inside window 6 lost _⟩
    · exact ⟨_, rfl, rfl, rfl, rfl, h.look_traps inside window 7 lost _⟩

/-- Settles O8: every target but a displaced one may be misaligned. -/
theorem jumpIssues : Obligations.JumpIssues := by
  intro s c sl t h inside
  refine ⟨fun n => ⟨?_, ?_⟩, ?_, ?_⟩
  · exact h.transfers inside (FormReady.plain 0x18 0) (x := .jump) (by
      rw [← dispTarget_eq]
      rfl)
  · exact h.transfers inside (FormReady.plain 0x19 0) (x := .call) (by
      rw [← dispTarget_eq]
      rfl)
  · intro ra ta a target
    have jr := h.jumps inside (FormReady.source (major := 0x1A) (fn := 0) (ta := ta) a) (target := target) (fx := []) (x := .jump)
      (body := fun o s => s.jumpTo o ((s.rx o ra).setWidth 48) [] .jump) (by simp only [State.rx_opOf, regWord_correctReads]; rfl)
    have callr := h.jumps inside (FormReady.source (major := 0x1A) (fn := 1) (ta := ta) a) (target := target) (fx := [.lk (t.pc + 4)]) (x := .call)
      (body := fun o s => s.jumpTo o ((s.rx o ra).setWidth 48) [.lk (o.pc + 4)] .call) (by simp only [State.rx_opOf, regWord_correctReads]; rfl)
    refine ⟨fun aligned => ⟨jr.1 aligned, callr.1 aligned⟩, fun misaligned i hi => ?_⟩
    obtain rfl | rfl := hi
    · exact jr.2 misaligned
    · exact callr.2 misaligned
  · exact (h.jumps inside (FormReady.plain 0x1A 2) (x := .jump) rfl).1

/-- Settles O9: the count, which the reads leave alone, decides between the two. -/
theorem loopIssues : Obligations.LoopIssues := by
  intro s c sl t ra stop level h a inside count old
  have level_eq : t.level level.toNat = old := by
    have zero_ : level.toNat = 0 ↔ level = 0 := by rw [← BitVec.toNat_inj]; rfl
    simp only [Thread.level, zero_, old]
  have runs : exec (.loop ra stop level) s = s.issue (formLoop level.toNat ra) fun o s => s.loopAt o (s.rx o ra) stop level.toNat := rfl
  rw [runs]
  by_cases zero : count = 0
  · obtain ⟨u, run, frame, flight⟩ := h.transfers inside (FormReady.loop (level := level.toNat) a) (x := .call)
      (body := fun o s => s.loopAt o (s.rx o ra) stop level.toNat) (by
        rw [State.rx_opOf, regWord_correctReads, State.loopAt, if_pos zero])
    refine ⟨u, run, frame, fun _ => ?_, absurd zero⟩
    rw [← loopSkip_eq, ← level_eq]
    exact flight
  · obtain ⟨u, run, frame, flight⟩ := h.transfers inside (FormReady.loop (level := level.toNat) a) (x := .none)
      (body := fun o s => s.loopAt o (s.rx o ra) stop level.toNat) (by
        rw [State.rx_opOf, regWord_correctReads, State.loopAt, if_neg zero]
        rfl)
    refine ⟨u, run, frame, fun h => absurd h zero, fun _ => ?_⟩
    rw [← loopStop_eq]
    exact flight

end Sys2Proof.Slice0
end

/-! PROOFS. O10 and O11: strands and gangs (R93 to R99). -/
section
namespace Sys2Proof
set_option Elab.async false

/-- A field is zero where both of its parts are. -/
theorem bits_eq_zero_split {n : Nat} (w : BitVec n) (lo a b : Nat) :
    bits w lo (a + b) = 0#(a + b) ↔ bits w (lo + a) b = 0#b ∧ bits w lo a = 0#a := by
  simp only [bits_eq_ofNat, Nat.zero_mod]
  rw [pow_add, Nat.mod_mul, Nat.div_div_eq_div_mul, ← pow_add, Nat.add_eq_zero_iff, and_comm, mul_eq_zero, or_iff_right (Nat.two_pow_pos a).ne']

theorem decodeWord_gangid (rd ra rb : BitVec 7) (ta tb : BitVec 1) : decodeWord (0x1E#6 ++ rd ++ ra ++ rb ++ 2#3 ++ ta ++ tb) =
    if ra = 0 ∧ rb = 0 ∧ ta = 0 ∧ tb = 0 then some (.gangid rd) else none := by
  obtain ⟨major, hrd, hra, hrb, fn, hta, htb⟩ := fields_of_rrr 0x1E#6 rd ra rb 2#3 ta tb
  have tested := layout1E major
  rw [decode1E, fn, hrd] at tested
  have tested := decodeWord_of_tested tested
  have low : bits (0x1E#6 ++ rd ++ ra ++ rb ++ 2#3 ++ ta ++ tb) 0 2 = 0#2 ↔ ta = 0 ∧ tb = 0 := by
    rw [bits_eq_zero_split _ 0 1 1, hta, htb]
    rfl
  have high : bits (0x1E#6 ++ rd ++ ra ++ rb ++ 2#3 ++ ta ++ tb) 5 14 = 0#14 ↔ ra = 0 ∧ rb = 0 := by
    rw [bits_eq_zero_split _ 5 7 7, hra, hrb]
    rfl
  refine tested.trans (if_congr ?_ rfl rfl)
  rw [low, high]
  simp only [wellFormed, and_true]
  tauto

end Sys2Proof

namespace Sys2Proof.Machine
open Sys2Proof.Slice0
set_option Elab.async false

/-! ### The gang fields of sr.thread (R99) -/

theorem gangId_eq (t : Thread) : gangId t = (BitVec.ofBool t.coupled ++ t.gangPos ++ t.gangMask).setWidth 64 := by
  apply BitVec.eq_of_toNat_eq
  have mask := t.gangMask.isLt
  have pos := t.gangPos.isLt
  simp only [gangId, BitVec.toNat_setWidth, BitVec.toNat_append, BitVec.toNat_ofNat]
  rw [← Nat.shiftLeft_add_eq_or_of_lt mask, ← Nat.shiftLeft_add_eq_or_of_lt pos]
  cases t.coupled
  · simp [Nat.shiftLeft_eq]
  · simp [Nat.shiftLeft_eq]
    omega

theorem gangId_bits (t : Thread) (i : Nat) : (widen (gangId t)).getLsbD i =
    if i < 4 then t.gangMask.getLsbD i else if i < 6 then t.gangPos.getLsbD (i - 4) else decide (i = 6) && t.coupled := by
  simp only [widen, gangId_eq, BitVec.getLsbD_setWidth, BitVec.getLsbD_append]
  by_cases mask : i < 4
  · simp [mask, show i < 64 by omega, show i < 512 by omega]
  by_cases pos : i < 6
  · simp [mask, pos, show i < 64 by omega, show i < 512 by omega, show i - 4 < 2 by omega]
  by_cases six : i = 6
  · simp [six]
  · simp [mask, pos, six, show ¬ i - 4 < 2 by omega, show i - 4 - 2 ≠ 0 by omega]

end Sys2Proof.Machine

namespace Sys2Proof.Slice0
open Sys2Proof.Machine
set_option Elab.async false

/-- Settles O10: each issues away from a loop's end, and JOIN may wait beyond its latency. -/
theorem strandAndGangIssues : Obligations.StrandAndGangIssues := by
  refine ⟨fun s c sl t ra ta n h a inside => ⟨?_, ?_⟩, fun s c sl t h => ⟨fun inside => ?_, ?_⟩⟩
  · exact h.transfers inside (FormReady.source (major := 0x1C) (fn := 0) (ta := ta) a) (x := .none)
      (body := fun o s => s.fly o [.fork (dispTarget o.pc n) (s.rx o ra)]) (by
        rw [State.rx_opOf, regWord_correctReads, ← dispTarget_eq]
        rfl)
  · have ready : FormReady s c t { formRR 0x1D 0 ra ta with store := true } := by
      constructor <;> simp [formRR, Form.plain, srcT, a, a.inWindow]
    obtain ⟨u, run, flight, -, frame⟩ := h.flies ready (loopEnd_of_inside inside)
      (fun o s => s.flyTo o [.join (s.rx o ra)] o.next .none 1 []) [.join (regWord s c t ra)] (t.pc + 4) .none 1 [] (by simp) (by
        rw [State.rx_opOf, regWord_correctReads]
        rfl)
    exact ⟨u, run, frame, flight⟩
  · exact h.transfers inside (FormReady.plain 0x1D 1) (x := .none) rfl
  · obtain ⟨u, run, -, flight, frame⟩ := h.flies (FormReady.plain 0x1E 1) (loopEnd_of_major (.inr (by decide : 0x1D < 0x1E)))
      (fun o s => s.fly o [.split]) [.split] (t.pc + 4) .none 0 [] (by simp) rfl
    exact ⟨u, run, frame, flight rfl⟩

/-- Settles O11: the word by its fields, which are zero but for rd, and D by its bits. -/
theorem gangidGivesItsGang : Obligations.GangidGivesItsGang := by
  refine ⟨decodeWord_gangid, rfl, fun s c sl t rd h d => ?_⟩
  have ready : FormReady s c t { Form.plain 0x1E 2 with dsts := [(0, rd.toNat)] } := by
    constructor <;> simp [Form.plain, d]
  obtain ⟨u, run, flight, frame⟩ := h.value ready (.inr (by decide : 0x1D < 0x1E)) fun o _ => widen (gangId o.t)
  refine ⟨u, widen (gangId t), run, frame, flight, gangId_bits t, fun coupled mask pos => ?_⟩
  have id : gangId t = 0x6F#64 := by
    rw [gangId, coupled, mask, pos]
    rfl
  simp [id, widen]

end Sys2Proof.Slice0
end

/-! PROOFS. O12: COUPLE (R97). -/
section
namespace Sys2Proof.Machine
open Sys2Proof.Slice0
set_option Elab.async false

/-! ### A rendezvous decided (R97) -/

theorem widen_zero : widen 0 = 0 := by simp [widen]

section
variable {s : State} {m c sl : Nat} (rd : Nat) (status : Word) (gang : List Effect)

/-- The decision leaves every other core's thread, and the clock. -/
theorem State.coupleDecided_other (inSlot : sl < 64) (other : m ≠ c) : (s.coupleDecided m sl rd status gang).thread? c sl = s.thread? c sl :=
  s.thread?_modThread_other _ inSlot inSlot fun same => other same.1.symm
theorem State.coupleDecided_cycle : (s.coupleDecided m sl rd status gang).cycle = s.cycle := s.modThread_cycle _ _ _

/-- The thread decided upon completes 12 cycles later with its status. -/
theorem State.coupleDecided_self {t : Thread} (slot : s.thread? c sl = some t) :
    ∃ f, (s.coupleDecided c sl rd status gang).thread? c sl = some { t with state := .inflight f } ∧ f.fx = .reg rd (widen status) :: gang ∧
      f.due = s.cycle + 12 := ⟨_, s.thread?_modThread slot _, rfl, rfl⟩
end

/-! ### Who waits in COUPLE (R97) -/

/-- The waiting cores of the issuer's cluster, each with its destination entry and its mask. -/
def State.coupleWaits (s : State) (o : Op) : List (Nat × Nat × BitVec 4) := [0, 1, 2, 3].filterMap fun n => (s.coupleWaiter o n).map fun w => (n, w)

section
variable {s : State} {o : Op} {n d : Nat} {k m : BitVec 4}

theorem State.mem_coupleWaits {w : Nat × BitVec 4} : (n, w) ∈ s.coupleWaits o ↔ n < 4 ∧ s.coupleWaiter o n = some w := by
  have four : n ∈ [0, 1, 2, 3] ↔ n < 4 := List.mem_range (n := 4)
  simp only [State.coupleWaits, List.mem_filterMap, Option.map_eq_some_iff, Prod.mk.injEq, ← four]
  constructor
  · rintro ⟨_, mem, _, waits, rfl, rfl⟩
    exact ⟨mem, waits⟩
  · rintro ⟨mem, waits⟩
    exact ⟨n, mem, w, waits, rfl, rfl⟩

/-- A waiter is another core, whose thread in the slot is blocked in COUPLE. -/
theorem State.coupleWaiter_some (waits : s.coupleWaiter o n = some (d, k)) : clusterOf o.c * 4 + n ≠ o.c ∧
    ∃ v since sig, s.thread? (clusterOf o.c * 4 + n) o.sl = some v ∧ v.state = .blocked (.couple d k since sig) := by
  unfold State.coupleWaiter at waits
  dsimp only at waits
  split at waits
  case isTrue => cases waits
  case isFalse eligible =>
    split at waits
    case h_2 => cases waits
    case h_1 v slot =>
      split at waits
      case h_2 => cases waits
      case h_1 since sig blocked =>
        cases waits
        exact ⟨fun self => eligible (.inl self), v, since, sig, slot, blocked⟩

theorem State.coupleWaiter_of_blocked {v : Thread} {since : Nat} {sig : List Byte} (other : clusterOf o.c * 4 + n ≠ o.c)
    (part : (s.core (clusterOf o.c * 4 + n)).part = some o.p) (slot : s.thread? (clusterOf o.c * 4 + n) o.sl = some v)
    (blocked : v.state = .blocked (.couple d k since sig)) : s.coupleWaiter o n = some (d, k) := by
  unfold State.coupleWaiter
  dsimp only
  rw [if_neg (by simp [other, part]), slot]
  simp only [blocked]

/-! ### A COUPLE that meets -/

/-- The issuer, waiting like the others. -/
def State.couples (s : State) (o : Op) (rd : Nat) (m : BitVec 4) : State := (s.tookTurn o.c o.sl).blockOn o (.couple rd m s.cycle o.sig)
/-- The members' threads go on with status 0. -/
def State.coupleMembers (s : State) (o : Op) (m : BitVec 4) (l : List (Nat × Nat × BitVec 4)) : State :=
  l.foldl (fun s w => if m.getLsbD w.1 then s.coupleDecided (clusterOf o.c * 4 + w.1) o.sl w.2.1 0 [.gang m] else s) s

/-- Where every waiter has the mask and every other member waits, all are decided, the issuer last. -/
theorem State.couple_meets {rd : Nat} (same : ∀ w ∈ (s.couples o rd m).coupleWaits o, w.2.2 = m)
    (all : ∀ n < 4, m.getLsbD n = true → n = o.c % 4 ∨ ∃ w ∈ (s.couples o rd m).coupleWaits o, w.1 = n) :
    s.couple o rd m =
      ((s.couples o rd m).coupleMembers o m ((s.couples o rd m).coupleWaits o)).coupleDecided o.c o.sl rd 0 [.gang m] := by
  have agree : ((s.couples o rd m).coupleWaits o).filter (fun w => w.2.2 != m && (m.getLsbD w.1 || w.2.2.getLsbD (o.c % 4))) = [] := by
    rw [List.filter_eq_nil_iff]
    intro w mem
    simp [same w mem]
  have meet : ((maskCores m).all fun n => n == o.c % 4 || ((s.couples o rd m).coupleWaits o).any fun w => w.1 == n && w.2.2 == m) = true := by
    rw [List.all_eq_true]
    intro n mem
    obtain ⟨four, named⟩ := List.mem_filter.mp mem
    obtain self | ⟨w, waits, rfl⟩ := all n ((List.mem_range (n := 4)).mp four) named
    · simp [self]
    · rw [Bool.or_eq_true, List.any_eq_true]
      exact .inr ⟨w, waits, by simp [same w waits]⟩
  have decides : s.couple o rd m =
      if !(((s.couples o rd m).coupleWaits o).filter (fun w => w.2.2 != m && (m.getLsbD w.1 || w.2.2.getLsbD (o.c % 4)))).isEmpty then _
      else if ((maskCores m).all fun n => n == o.c % 4 || ((s.couples o rd m).coupleWaits o).any fun w => w.1 == n && w.2.2 == m) then
        ((s.couples o rd m).coupleMembers o m ((s.couples o rd m).coupleWaits o)).coupleDecided o.c o.sl rd 0 [.gang m]
      else s.couples o rd m := rfl
  rw [decides, agree, meet]
  rfl

/-- The members' decisions leave the issuer's thread, and the clock. -/
theorem State.coupleMembers_issuer (inSlot : o.sl < 64) {l : List (Nat × Nat × BitVec 4)} (others : ∀ w ∈ l, clusterOf o.c * 4 + w.1 ≠ o.c) :
    (s.coupleMembers o m l).thread? o.c o.sl = s.thread? o.c o.sl ∧ (s.coupleMembers o m l).cycle = s.cycle := by
  induction l generalizing s with
  | nil => exact ⟨rfl, rfl⟩
  | cons w l ih =>
    obtain ⟨other, rest⟩ := List.forall_mem_cons.mp others
    obtain ⟨slot, clock⟩ := ih rest (s := if m.getLsbD w.1 then s.coupleDecided (clusterOf o.c * 4 + w.1) o.sl w.2.1 0 [.gang m] else s)
    refine ⟨slot.trans ?_, clock.trans ?_⟩
    · split
      · exact State.coupleDecided_other _ _ _ inSlot other
      · rfl
    · split
      · exact State.coupleDecided_cycle _ _ _
      · rfl

end

/-- The rendezvous of a COUPLE whose every other member waits with its mask, while no other core of the cluster waits. -/
theorem State.couple_completes {s : State} {o : Op} {rd : Nat} {m : BitVec 4} {t : Thread} (slot : s.thread? o.c o.sl = some t) (inSlot : o.sl < 64)
    (members : ∀ n < 4, n ≠ o.c % 4 → m.getLsbD n = true → (s.core (o.c / 4 * 4 + n)).part = some o.p ∧
      ∃ v d since sig, s.thread? (o.c / 4 * 4 + n) o.sl = some v ∧ v.state = .blocked (.couple d m since sig))
    (strangers : ∀ n < 4, n ≠ o.c % 4 → m.getLsbD n = false → ∀ v, s.thread? (o.c / 4 * 4 + n) o.sl = some v →
      ∀ d k since sig, v.state ≠ .blocked (.couple d k since sig)) :
    ∃ f, (s.couple o rd m).thread? o.c o.sl = some { t with state := .inflight f } ∧ f.fx = [.reg rd 0, .gang m] ∧ f.due = s.cycle + 12 := by
  have other {n : Nat} (four : n < 4) : clusterOf o.c * 4 + n ≠ o.c ↔ n ≠ o.c % 4 := by
    unfold clusterOf
    omega
  have threads {n : Nat} (ne : clusterOf o.c * 4 + n ≠ o.c) :
      (s.couples o rd m).thread? (clusterOf o.c * 4 + n) o.sl = s.thread? (clusterOf o.c * 4 + n) o.sl :=
    State.thread?_modThread_other _ _ inSlot inSlot fun same => ne same.1
  have parts (c : Nat) : ((s.couples o rd m).core c).part = (s.core c).part := by
    have cores : (s.couples o rd m).core c = (s.tookTurn o.c o.sl).core c := State.core_congr (State.modThread_cores _ _ _ _) c
    rw [cores]
    exact (congrArg Core.part (s.tookTurn_still o.c o.sl c) :)
  have waiting {w : Nat × Nat × BitVec 4} (mem : w ∈ (s.couples o rd m).coupleWaits o) : clusterOf o.c * 4 + w.1 ≠ o.c ∧ w.2.2 = m := by
    obtain ⟨n, d, k⟩ := w
    obtain ⟨four, waits⟩ := State.mem_coupleWaits.mp mem
    obtain ⟨ne, v, since, sig, at_, blocked⟩ := State.coupleWaiter_some waits
    refine ⟨ne, ?_⟩
    rw [threads ne] at at_
    cases named : m.getLsbD n
    · exact absurd blocked (strangers n four ((other four).mp ne) named v at_ d k since sig)
    · obtain ⟨-, v', d', since', sig', at', blocked'⟩ := members n four ((other four).mp ne) named
      obtain rfl := Option.some.inj (at_.symm.trans at')
      rw [blocked] at blocked'
      cases blocked'
      rfl
  rw [State.couple_meets (fun w mem => (waiting mem).2) fun n four named => ?all]
  case all =>
    refine or_iff_not_imp_left.mpr fun ne => ?_
    obtain ⟨part, v, d, since, sig, at_, blocked⟩ := members n four ne named
    have ne := (other four).mpr ne
    exact ⟨(n, d, m), State.mem_coupleWaits.mpr ⟨four, State.coupleWaiter_of_blocked ne ((parts _).trans part) ((threads ne).trans at_) blocked⟩, rfl⟩
  obtain ⟨issuer, clock⟩ := State.coupleMembers_issuer (s := s.couples o rd m) (m := m) inSlot fun w mem => (waiting mem).1
  have blocked : (s.couples o rd m).thread? o.c o.sl = some { t with state := .blocked (.couple rd m s.cycle o.sig) } :=
    State.thread?_modThread (s.tookTurn o.c o.sl) slot _
  obtain ⟨f, now, fx, due⟩ := State.coupleDecided_self rd 0 [.gang m] (issuer.trans blocked)
  refine ⟨f, now, fx.trans (by rw [widen_zero]), due.trans ?_⟩
  rw [clock]
  exact congrArg (· + 12) (State.modThread_cycle _ _ _ _)

/-- COUPLE's own part of its issue (R97). -/
def State.coupleAt (s : State) (o : Op) (rd : Nat) (a : Word) : State :=
  let m : BitVec 4 := a.setWidth 4
  if a.toNat ≥ 16 ∨ !m.getLsbD (o.c % 4) ∨ (maskCores m).length < 2 then s.fly o [.reg rd 1]
  else if o.t.coupled then s.fly o [.reg rd 3]
  else s.couple o rd m

section
variable {s : State} {o : Op} {rd : Nat} {a : Word}

theorem State.coupleAt_refused
    (bad : 16 ≤ a.toNat ∨ (a.setWidth 4).getLsbD (o.c % 4) = false ∨ (maskCores (a.setWidth 4)).length < 2) :
    s.coupleAt o rd a = s.fly o [.reg rd 1] := if_pos (by rwa [Bool.not_eq_true'])

variable (small : a.toNat < 16) (named : (a.setWidth 4).getLsbD (o.c % 4) = true) (two : 2 ≤ (maskCores (a.setWidth 4)).length)
include small named two

theorem State.coupleAt_coupled (coupled : o.t.coupled = true) : s.coupleAt o rd a = s.fly o [.reg rd 3] :=
  (if_neg (by simp [small, named, Nat.not_lt.mpr two])).trans (if_pos coupled)
theorem State.coupleAt_alone (alone : o.t.coupled = false) : s.coupleAt o rd a = s.couple o rd (a.setWidth 4) :=
  (if_neg (by simp [small, named, Nat.not_lt.mpr two])).trans (if_neg (by simp [alone]))
end

/-- Reads leave each core its partition, each slot its thread, and the clock. -/
theorem OnlyFlips.part {s u : State} (h : OnlyFlips s u) (c : Nat) : (u.core c).part = (s.core c).part := (congrArg Core.part (h.cores c) :)
theorem OnlyFlips.thread {s u : State} (h : OnlyFlips s u) (c sl : Nat) : u.thread? c sl = s.thread? c sl :=
  State.thread?_congr (by rw [h.rest]) c sl
theorem OnlyFlips.cycle {s u : State} (h : OnlyFlips s u) : u.cycle = s.cycle := by rw [h.rest]

/-- The form of a COUPLE. -/
def formCouple (rd ra : BitVec 7) (ta : BitVec 1) : Form := { formRR 0x1E 0 ra ta with dsts := [(0, rd.toNat)] }

end Sys2Proof.Machine

namespace Sys2Proof.Slice0
open Sys2Proof.Machine
set_option Elab.async false

/-- Settles O12: the mask's own checks first, then the thread, then the rendezvous. -/
theorem coupleMeets : Obligations.CoupleMeets := by
  intro s c sl t rd ra ta h a d mask m members
  have ready : FormReady s c t (formCouple rd ra ta) := FormReady.rr (lat := 12) a d
  have away : (opOf s (formCouple rd ra ta) c sl t).loopEnd = false := loopEnd_of_major (.inr (by decide : 0x1D < 0x1E))
  have status {v : Vec} (gives : ∀ u o, o.c = c → o.t = t → State.coupleAt u o (o.entry rd) mask = u.fly o [.reg (o.entry rd) v]) :
      ∃ u, exec (.couple rd ra ta) s = .next u ∧ IssueFrame s u c sl [] ∧ InFlight s u c sl t 12 [.reg (t.base + rd.toNat) v] (t.pc + 4) := by
    obtain ⟨u, run, -, flight, frame⟩ := h.flies ready away (fun o s => s.coupleAt o (o.entry rd) (s.rx o ra))
      [.reg (t.base + rd.toNat) v] (t.pc + 4) .none 0 [] (by simp) (by
        rw [State.rx_opOf, regWord_correctReads]
        exact gives _ _ rfl rfl)
    exact ⟨u, run, frame, flight rfl⟩
  refine ⟨fun bad => status fun u o hc _ => State.coupleAt_refused (hc ▸ bad),
    fun small named two coupled => status fun u o hc ht => State.coupleAt_coupled small (hc ▸ named) two (ht ▸ coupled),
    fun small named two alone waits strangers => ?_⟩
  have read := s.correctReads_only (opOf s (formCouple rd ra ta) c sl t)
  obtain ⟨f, flight, fx, due⟩ := State.couple_completes (s := s.correctReads (opOf s (formCouple rd ra ta) c sl t))
    (o := opOf s (formCouple rd ra ta) c sl t) (rd := t.base + rd.toNat) (m := m) ((read.thread c sl).trans h.slot) h.inCore
    (fun n four ne named => by
      rw [read.part, read.thread]
      exact waits n four ne named)
    (fun n four ne named v slot => strangers n four ne named v ((read.thread _ _).symm.trans slot))
  have run : exec (.couple rd ra ta) s = _ := h.issue ready away fun o s => s.coupleAt o (o.entry rd) (s.rx o ra)
  rw [State.rx_opOf, regWord_correctReads, State.coupleAt_alone small named two alone] at run
  exact ⟨_, f, run, flight, fx, due.trans (congrArg (· + 12) read.cycle)⟩

end Sys2Proof.Slice0
end

/-! PROOFS. O34: posts, notifies and wakes (R100, R141 to R143, R318). -/
section
namespace Sys2Proof.Machine
open Sys2Proof.Slice0
set_option Elab.async false

/-! ### What a landing finds and does (R100, R141, R142) -/

theorem State.landPost_value {s : State} {n : Nat} {q : Post} {v : Vec} (hq : s.posts[n]? = some q) (val : q.val = some v)
    (saved : s.savedOf (((s.core q.dest.core).part).getD 0) q.uid = none) :
    s.landPost n = { s with posts := s.posts.eraseIdx n }.setReg q.dest.core q.dest.entry (Reg.ofVec v) := by
  have land : State.savedOf { s with posts := s.posts.eraseIdx n } (((s.core q.dest.core).part).getD 0) q.uid = none := saved
  simp only [State.landPost, hq, val]
  exact State.land_file land _ _ _

section
variable {s : State} {d : Delivery} (live : (s.core d.core).fenced = false)
include live

theorem State.lostAt_live : s.lostAt d.core = s.modCore d.core fun k => { k with nlost := k.nlost + 1 } :=
  if_neg (by simp [live])

variable (resident : s.swappedAt d.core d.slot = none)
include resident

section
variable {t : Thread} (slot : s.thread? d.core d.slot = some t)
include slot

/-- An NWRITE to a live thread outside its window is lost; inside, the armed register takes it, or the landing queue (R141). -/
theorem State.landNwrite_outside (outside : t.size ≤ d.reg) : s.landNwrite d = s.lostAt d.core := by
  rw [State.landNwrite, if_neg (by simp [live]), resident, slot]
  exact if_pos outside
theorem State.landNwrite_armed (inside : d.reg < t.size) (armed : t.armNbr = some (t.base + d.reg)) :
    s.landNwrite d = (s.setReg d.core (t.base + d.reg) (deliveredReg d.val d.from_)).setThread d.core d.slot { t with armNbr := none } := by
  rw [State.landNwrite, if_neg (by simp [live]), resident, slot]
  exact ((if_neg (Nat.not_le.mpr inside)).trans (if_pos armed)).trans (State.modThread_some (s := s.setReg _ _ _) slot _)
theorem State.landNwrite_queued (inside : d.reg < t.size) (unarmed : t.armNbr ≠ some (t.base + d.reg)) : s.landNwrite d =
    s.modCore d.core fun k => { k with landing := k.landing ++ [{ slot := d.slot, reg := d.reg, from_ := d.from_, val := d.val }] } := by
  rw [State.landNwrite, if_neg (by simp [live]), resident, slot]
  exact (if_neg (Nat.not_le.mpr inside)).trans (if_neg unarmed)

/-- A WAKE of a live thread: the armed register takes it, or the latch (R142). -/
theorem State.landWake_armed {e : Nat} (armed : t.armNtf = some e) :
    s.landWake d = (s.setReg d.core e (Reg.ofVec (d.val.getD 0))).setThread d.core d.slot { t with armNtf := none } := by
  rw [State.landWake, if_neg (by simp [live])]
  simp only [resident, slot, armed]
  exact State.modThread_some (s := s.setReg _ _ _) slot _
theorem State.landWake_latched (unarmed : t.armNtf = none) : s.landWake d = s.setThread d.core d.slot (orNotify t (scalarOf (d.val.getD 0))) := by
  rw [State.landWake, if_neg (by simp [live])]
  simp only [resident, slot, unarmed]
  exact State.modThread_some slot _
end

theorem State.landNwrite_lost (gone : s.thread? d.core d.slot = none ∨ ∃ t, s.thread? d.core d.slot = some t ∧ t.size ≤ d.reg) :
    s.landNwrite d = s.modCore d.core fun k => { k with nlost := k.nlost + 1 } := by
  rw [← State.lostAt_live live]
  obtain free | ⟨t, slot, outside⟩ := gone
  · rw [State.landNwrite, if_neg (by simp [live]), resident, free]
  · exact State.landNwrite_outside live resident slot outside

end

theorem scalarOf_widen (v : Word) : scalarOf (widen v) = v := by
  rw [scalarOf, widen, BitVec.setWidth_setWidth_of_le _ (by decide), BitVec.setWidth_eq]

/-! ### The events of the landings -/

theorem exec_oncePostLanding {s : State} {n : Nat} {q : Post} (hn : s.arg.n = n) (hq : s.posts[n]? = some q) (ready : q.ready = true)
    (emptied : q.emptied = true) (due : q.due ≤ s.cycle) : exec .oncePostLanding s = .next (s.landPost n) := by
  have may : s.mayLand n = true := by simp [State.mayLand, hq, ready, emptied, due]
  have runs : exec .oncePostLanding s = .next (if s.mayLand s.arg.n then s.landPost s.arg.n else s) := rfl
  rw [runs, hn, may, if_pos rfl]

theorem exec_nwriteLanding {s : State} {n : Nat} {d : Delivery} (hn : s.arg.n = n) (hd : s.nwrites[n]? = some d) (may : s.mayLandNwrite n = true) :
    exec .nwriteLanding s = .next ({ s with nwrites := s.nwrites.eraseIdx n }.landNwrite d) := by
  have runs : exec .nwriteLanding s = execNwriteLanding s := rfl
  rw [runs, execNwriteLanding, hn, may, if_pos rfl, hd]
  rfl

theorem exec_wakeDelivery {s : State} {n : Nat} {d : Delivery} (hn : s.arg.n = n) (hd : s.wakes[n]? = some d) (due : d.due ≤ s.cycle) :
    exec .wakeDelivery s = .next ({ s with wakes := s.wakes.eraseIdx n }.landWake d) := by
  have may : s.mayWake n = true := by simp [State.mayWake, hd, due]
  have runs : exec .wakeDelivery s = execWakeDelivery s := rfl
  rw [runs, execWakeDelivery, hn, may, if_pos rfl, hd]
  rfl

end Sys2Proof.Machine

namespace Sys2Proof.Slice0
open Sys2Proof.Machine
set_option Elab.async false

/-- Settles O34: a post by its entry alone, an NWRITE and a WAKE by what the landing finds in the slot. -/
theorem postsAndNotifiesLand : Obligations.PostsAndNotifiesLand := by
  refine ⟨?_, ?_, ?_⟩
  · intro s n q v hn hq ready emptied due val entry saved
    refine ⟨_, exec_oncePostLanding hn hq ready emptied due, ?_⟩
    rw [State.landPost_value hq val saved]
    exact ⟨State.regAt_setReg_self _ _ _ _, rfl, fun c' m hm other => State.regAt_setReg_other _ _ (by omega), rfl⟩
  · intro s n d v hn hd may val live resident
    have run := exec_nwriteLanding hn hd may
    refine ⟨fun t slot inside _ => ⟨fun armed => ?_, fun unarmed => ?_⟩, fun gone => ?_⟩
    · rw [State.landNwrite_armed (s := { s with nwrites := s.nwrites.eraseIdx n }) live resident slot inside armed, val] at run
      exact ⟨_, run, State.regAt_setReg_self _ _ _ _, State.thread?_setThread_self _ _ _ _, rfl, rfl⟩
    · rw [State.landNwrite_queued (s := { s with nwrites := s.nwrites.eraseIdx n }) live resident slot inside unarmed, val] at run
      exact ⟨_, run, congrArg Core.landing (State.core_setCore_self _ _ _), rfl, rfl⟩
    · rw [State.landNwrite_lost (s := { s with nwrites := s.nwrites.eraseIdx n }) live resident gone] at run
      exact ⟨_, run, congrArg Core.nlost (State.core_setCore_self _ _ _), rfl, rfl⟩
  · intro s n d v t hn hd due val live resident slot
    have run := exec_wakeDelivery hn hd due
    refine ⟨fun e armed entry => ?_, fun unarmed => ?_⟩
    · rw [State.landWake_armed (s := { s with wakes := s.wakes.eraseIdx n }) live resident slot armed, val] at run
      exact ⟨_, run, State.regAt_setReg_self _ _ _ _, State.thread?_setThread_self _ _ _ _, rfl, rfl⟩
    · rw [State.landWake_latched (s := { s with wakes := s.wakes.eraseIdx n }) live resident slot unarmed, val] at run
      refine ⟨_, run, ?_, rfl, rfl⟩
      rw [State.thread?_setThread_self, orNotify, Option.getD_some, scalarOf_widen]

end Sys2Proof.Slice0
end

/-! PROOFS. O13 to O15: issues of loads, stores, prefetch, fences and atomics (R113, R116, R120 to R128). -/
section
namespace Sys2Proof.Machine
open Sys2Proof.Slice0
set_option Elab.async false

/-! ### Accesses go in flight with their destinations empty (R26, R32, R116) -/

section
variable {s : State} {c sl : Nat} {t : Thread} (h : Issuing s c sl t)
include h

/-- An access whose operands are ready goes in flight with its effects; its destinations are empty from then on (R116). -/
theorem Issuing.access {f : Form} (ready : FormReady s c t f) (major : 0x1D < f.major) (fx : Op → State → List Effect) {l : List (BitVec 7)}
    (window : ∀ r ∈ l, r.toNat < t.size) :
    ∃ u, s.issue f (fun o s => s.flyTo o (fx o s) o.next .none 1 (l.map o.entry)) = .next u ∧
      IssueFrame s u c sl (l.map fun r => t.base + r.toNat) ∧
      InFlightAtLeast s u c sl t f.lat (fx (opOf s f c sl t) (s.correctReads (opOf s f c sl t))) (t.pc + 4) := by
  have inFile : ∀ e ∈ l.map fun r => t.base + r.toNat, e < 2048 := by
    simp only [List.mem_map, forall_exists_index, and_imp, forall_apply_eq_imp_iff₂]
    exact fun r hr => h.entry_lt (window r hr)
  obtain ⟨u, run, flight, -, frame⟩ := h.flies ready (loopEnd_of_major (.inr major))
    (fun o s => s.flyTo o (fx o s) o.next .none 1 (l.map o.entry)) _ _ .none 1 _ inFile rfl
  exact ⟨u, run, frame, flight⟩

/-- A load goes in flight from the addresses that its operands give. -/
theorem Issuing.loads {f : Form} (ready : FormReady s c t f) (major : 0x1D < f.major) {rd : BitVec 7} (window : rd.toNat < t.size)
    (kind : LoadKind) (addrs : Op → State → List Word) (size : Nat) (acq : Option Nat) :
    ∃ u, s.issue f (fun o s => s.flyLoad o rd kind (addrs o s) size acq) = .next u ∧ IssueFrame s u c sl [t.base + rd.toNat] ∧
      InFlightAtLeast s u c sl t f.lat
        [.load (t.base + rd.toNat) kind (addrs (opOf s f c sl t) (s.correctReads (opOf s f c sl t))) size acq] (t.pc + 4) :=
  h.access ready major (fun o s => [.load (o.entry rd) kind (addrs o s) size acq]) (l := [rd]) (by simpa using window)

/-- A store goes in flight with the writes that its operands give. -/
theorem Issuing.stores {f : Form} (ready : FormReady s c t f) (major : 0x1D < f.major) (writes : Op → State → List (Word × List Byte)) (size : Nat)
    (rel : Option Nat) :
    ∃ u, s.issue f (fun o s => s.flyStore o (writes o s) size rel) = .next u ∧ IssueFrame s u c sl [] ∧
      InFlightAtLeast s u c sl t f.lat [.store (writes (opOf s f c sl t) (s.correctReads (opOf s f c sl t))) size rel] (t.pc + 4) :=
  h.access ready major (fun o s => [.store (writes o s) size rel]) (l := []) (by simp)

/-- An instruction of these majors that no condition holds goes in flight with its effects alone (R124, R125). -/
theorem Issuing.acts {f : Form} (ready : FormReady s c t f) (major : 0x1D < f.major) (fx : Op → State → List Effect) :
    ∃ u, s.issue f (fun o s => s.fly o (fx o s)) = .next u ∧ IssueFrame s u c sl [] ∧
      InFlight s u c sl t f.lat (fx (opOf s f c sl t) (s.correctReads (opOf s f c sl t))) (t.pc + 4) := by
  obtain ⟨u, run, -, flight, frame⟩ := h.flies ready (loopEnd_of_major (.inr major)) (fun o s => s.fly o (fx o s)) _ _ .none 0 [] (by simp) rfl
  exact ⟨u, run, frame, flight rfl⟩

end

section
variable {s : State} {c : Nat} {t : Thread} {major fn : Nat} {rs ra rb rd : BitVec 7} {ta tb : BitVec 1}

/-- The operands of a store are its address and its data (R121, R122). -/
theorem FormReady.store (a : Readable s c t ra.toNat) (d : Readable s c t rs.toNat) : FormReady s c t (formStore major fn rs ra ta) := by
  constructor <;> simp [formStore, Form.plain, srcT, a, d, a.inWindow, d.inWindow]

/-- Those of VSCAT are the base, the indices and the data (R123). -/
theorem FormReady.scatter (a : Readable s c t ra.toNat) (b : Readable s c t rb.toNat) (d : Readable s c t rs.toNat) :
    FormReady s c t { Form.plain major fn with srcs := [srcT 1 ra ta, srcT 2 rb tb, srcB 0 rs], store := true } := by
  constructor <;> simp [Form.plain, srcT, srcB, a, b, d, a.inWindow, b.inWindow, d.inWindow]

/-- Those of an AMO are the address and the operand (R127). -/
theorem FormReady.amo (a : Readable s c t ra.toNat) (b : Readable s c t rb.toNat) (d : Writable s c t rd.toNat) :
    FormReady s c t { Form.plain major fn with srcs := [srcB 1 ra, srcB 2 rb], dsts := [(0, rd.toNat)], store := true } := by
  constructor <;> simp [Form.plain, srcB, a, b, d, a.inWindow, b.inWindow]

/-- Those of CAS are the address, the new value and the compared one (R128). -/
theorem FormReady.cas {rc : BitVec 5} (a : Readable s c t ra.toNat) (b : Readable s c t rb.toNat) (e : Readable s c t rc.toNat)
    (d : Writable s c t rd.toNat) : FormReady s c t { formRRRR major ra rb rc with dsts := [(0, rd.toNat)], store := true } := by
  obtain ⟨window, reads, looks, writes, apart⟩ := FormReady.rrrr (major := major) a b e d
  exact ⟨window, reads, looks, writes, apart⟩

end

/-! ### Addresses of lanes (R123) -/

theorem laneList_eq_range : laneList = List.range 16 := rfl

/-- The elements of a VLDS lie B apart, as the statements give them in integers. -/
theorem strideAddrs_eq (a b : Word) : strideAddrs a b = (List.range 16).map fun (i : Nat) => BitVec.ofInt 64 (a.toInt + (i : Int) * b.toInt) := by
  rw [strideAddrs, laneList_eq_range]
  refine List.map_congr_left fun i _ => ?_
  rw [BitVec.ofInt_add, BitVec.ofInt_mul, BitVec.ofInt_toInt, BitVec.ofInt_toInt, BitVec.ofInt_natCast]

/-- Those of VGATH and VSCAT lie at the base and a scaled signed index. -/
theorem gatherAddrs_eq (a : Word) (b : Vec) (sh : Nat) : gatherAddrs a b sh =
    (List.range 16).map fun i => BitVec.ofInt 64 (a.toInt + (lane b i).toInt * 2 ^ sh) := by
  rw [gatherAddrs, laneList_eq_range]
  refine List.map_congr_left fun i _ => ?_
  have power : BitVec.ofInt 64 (2 ^ sh) = BitVec.twoPow 64 sh := by
    rw [show (2 : Int) ^ sh = ((2 ^ sh : Nat) : Int) by push_cast; rfl, BitVec.ofInt_natCast]
    exact BitVec.eq_of_toNat_eq (by simp)
  rw [BitVec.ofInt_add, BitVec.ofInt_mul, BitVec.ofInt_toInt, power, BitVec.shiftLeft_eq_mul_twoPow]
  rfl

end Sys2Proof.Machine

namespace Sys2Proof.Slice0
open Sys2Proof.Machine
set_option Elab.async false

/-! ### Scalar loads and stores (R116, R120, R121) -/

theorem scalarLoads_issue : ∀ x ∈ scalarLoads, ∃ major : Nat, 0x1D < major ∧
    ∀ (s : State) (rd ra : BitVec 7) (sz : BitVec 2) (p : BitVec 3) (ta : BitVec 1) (off : BitVec 6),
      exec (x.1 rd ra sz p ta off) s = s.issue (formLoad major (memFn sz p) rd ra ta)
        fun o s => s.flyLoad o rd (x.2.1 (2 ^ sz.toNat)) [memAddr (s.rx o ra) off (2 ^ sz.toNat)] (2 ^ sz.toNat) (x.2.2 p) := by
  simp only [scalarLoads, List.forall_mem_cons, List.not_mem_nil, false_implies, implies_true, and_true, ← scopeOf_eq_orderScope]
  refine ⟨⟨0x20, by decide, ?_⟩, ⟨0x21, by decide, ?_⟩, ⟨0x22, by decide, ?_⟩⟩
  all_goals exact fun _ _ _ _ _ _ _ => rfl

theorem scalarStores_issue : ∀ x ∈ scalarStores, ∃ major : Nat, 0x1D < major ∧
    ∀ (s : State) (rs ra : BitVec 7) (sz : BitVec 2) (p : BitVec 3) (ta : BitVec 1) (off : BitVec 6),
      exec (x.1 rs ra sz p ta off) s = s.issue (formStore major (memFn sz p) rs ra ta)
        fun o s => s.flyStore o [(memAddr (s.rx o ra) off (2 ^ sz.toNat), natBytes (2 ^ sz.toNat) (s.rx o rs).toNat)] (2 ^ sz.toNat) (x.2 p) := by
  simp only [scalarStores, List.forall_mem_cons, List.not_mem_nil, false_implies, implies_true, and_true, ← scopeOf_eq_orderScope]
  refine ⟨⟨0x23, by decide, ?_⟩, ⟨0x24, by decide, ?_⟩⟩
  all_goals exact fun _ _ _ _ _ _ _ => rfl

/-- Settles O13: each goes in flight with E, and a load with its destination empty. -/
theorem scalarMemoryIssues : Obligations.ScalarMemoryIssues := by
  refine ⟨fun x hx s c sl t rd ra sz p ta off h a d => ?_, fun x hx s c sl t rs ra sz p ta off h a d => ?_⟩
  · obtain ⟨major, high, runs⟩ := scalarLoads_issue x hx
    obtain ⟨u, run, frame, flight⟩ := h.loads (FormReady.load (major := major) (fn := memFn sz p) (ta := ta) a d) high d.inWindow
      (x.2.1 (2 ^ sz.toNat)) (fun o s => [memAddr (s.rx o ra) off (2 ^ sz.toNat)]) (2 ^ sz.toNat) (x.2.2 p)
    rw [State.rx_opOf, regWord_correctReads, memAddr_eq_effective] at flight
    exact ⟨u, (runs ..).trans run, frame, flight⟩
  · obtain ⟨major, high, runs⟩ := scalarStores_issue x hx
    obtain ⟨u, run, frame, flight⟩ := h.stores (FormReady.store (major := major) (fn := memFn sz p) (ta := ta) a d) high
      (fun o s => [(memAddr (s.rx o ra) off (2 ^ sz.toNat), natBytes (2 ^ sz.toNat) (s.rx o rs).toNat)]) (2 ^ sz.toNat) (x.2 p)
    rw [State.rx_opOf, State.rx_opOf, regWord_correctReads, regWord_correctReads, memAddr_eq_effective] at flight
    exact ⟨u, (runs ..).trans run, frame, flight⟩

/-! ### Vector loads and stores (R122, R123) -/

/-- Settles O14: the addresses of the lines and lanes, from the operands. -/
theorem vectorMemoryIssues : Obligations.VectorMemoryIssues := by
  refine ⟨fun s c sl t rd ra p ta off h a => ⟨fun d => ?_, fun d => ?_⟩, fun s c sl t rd ra rb sh ta tb h a b => ⟨fun d => ⟨?_, ?_⟩, fun d => ?_⟩⟩
  · obtain ⟨u, run, frame, flight⟩ := h.loads (FormReady.load (major := 0x25) (fn := p.toNat) (ta := ta) a d) (by decide : 0x1D < 0x25) d.inWindow
      .line (fun o s => [memAddr (s.rx o ra) off 64]) 64 none
    rw [State.rx_opOf, regWord_correctReads, memAddr_eq_effective] at flight
    exact ⟨u, run, frame, flight⟩
  · obtain ⟨u, run, frame, flight⟩ := h.stores (FormReady.store (major := 0x26) (fn := p.toNat) (ta := ta) a d) (by decide : 0x1D < 0x26)
      (fun o s => [(memAddr (s.rx o ra) off 64, vecBytes (s.rv o rd))]) 64 none
    rw [State.rx_opOf, State.rv_opOf, regWord_correctReads, regVec_correctReads, memAddr_eq_effective] at flight
    exact ⟨u, run, frame, flight⟩
  · obtain ⟨u, run, frame, flight⟩ := h.loads (FormReady.rrr (major := 0x27) (fn := 0) (lat := 12) (ta := ta) (tb := tb) a b d)
      (by decide : 0x1D < 0x27) d.inWindow .lanes (fun o s => strideAddrs (s.rx o ra) (s.rx o rb)) 4 none
    rw [State.rx_opOf, State.rx_opOf, regWord_correctReads, regWord_correctReads, strideAddrs_eq] at flight
    exact ⟨u, run, frame, flight⟩
  · obtain ⟨u, run, frame, flight⟩ := h.loads (FormReady.rrr (major := 0x28) (fn := sh.toNat) (lat := 12) (ta := ta) (tb := tb) a b d)
      (by decide : 0x1D < 0x28) d.inWindow .lanes (fun o s => gatherAddrs (s.rx o ra) (s.rv o rb) sh.toNat) 4 none
    rw [State.rx_opOf, State.rv_opOf, regWord_correctReads, regVec_correctReads, gatherAddrs_eq] at flight
    exact ⟨u, run, frame, flight⟩
  · obtain ⟨u, run, frame, flight⟩ := h.stores (FormReady.scatter (major := 0x29) (fn := sh.toNat) (ta := ta) (tb := tb) a b d)
      (by decide : 0x1D < 0x29)
      (fun o s => (gatherAddrs (s.rx o ra) (s.rv o rb) sh.toNat).zip (laneList.map fun i => natBytes 4 (lane (s.rv o rd) i).toNat)) 4 none
    rw [State.rx_opOf, State.rv_opOf, State.rv_opOf, regWord_correctReads, regVec_correctReads, regVec_correctReads, gatherAddrs_eq] at flight
    exact ⟨u, run, frame, flight⟩

/-! ### PREF, fences and atomics (R124 to R128) -/

theorem fences_issue : ∀ x ∈ fences, ∃ fn : Nat, ∀ (s : State) (p : BitVec 7),
    exec (x.1 p) s = s.issue (Form.plain 0x2B fn) fun o s => s.fly o [.fence x.2 (scopeOf p.toNat)] := by
  simp only [fences, List.forall_mem_cons, List.not_mem_nil, false_implies, implies_true, and_true]
  and_intros
  all_goals exact ⟨_, fun _ _ => rfl⟩

theorem atomics_issue : ∀ x ∈ atomics, ∃ fn : Nat, ∀ (s : State) (rd ra rb : BitVec 7) (acq rel : BitVec 1),
    exec (x.1 rd ra rb acq rel) s =
      s.issue { Form.plain 0x2C fn with srcs := [srcB 1 ra, srcB 2 rb], dsts := [(0, rd.toNat)], store := true } fun o s =>
        s.flyTo o [.atomic (o.entry rd) x.2 (s.rx o ra) (s.rx o rb) 0 (acq == 1#1) (rel == 1#1)] o.next .none 1 [o.entry rd] := by
  simp only [atomics, List.forall_mem_cons, List.not_mem_nil, false_implies, implies_true, and_true]
  and_intros
  all_goals exact ⟨_, fun _ _ _ _ _ _ => rfl⟩

/-- Settles O15: PREF and the fences go in flight with their effect, the atomics with their destination empty too. -/
theorem orderAndAtomicIssues : Obligations.OrderAndAtomicIssues := by
  refine ⟨fun s c sl t ra p ta off h a => ?_, fun x hx s c sl t p h => ?_, fun x hx s c sl t rd ra rb acq rel h a b d => ?_,
    fun s c sl t rd ra rb rc h a b e d => ?_⟩
  · obtain ⟨u, run, frame, flight⟩ := h.acts (FormReady.source (major := 0x2A) (fn := p.toNat) (ta := ta) a) (by decide : 0x1D < 0x2A)
      fun o s => [.pref (memAddr (s.rx o ra) off 64) p.toNat]
    rw [State.rx_opOf, regWord_correctReads, memAddr_eq_effective] at flight
    exact ⟨u, run, frame, flight⟩
  · obtain ⟨fn, runs⟩ := fences_issue x hx
    have scope : scopeOf p.toNat = if p = 0 then 5 else p.toNat := by simp only [scopeOf, ← BitVec.toNat_inj]; rfl
    rw [runs, scope]
    exact h.acts (.plain 0x2B fn) (by decide : 0x1D < 0x2B) fun _ _ => [.fence x.2 (if p = 0 then 5 else p.toNat)]
  · obtain ⟨fn, runs⟩ := atomics_issue x hx
    obtain ⟨u, run, frame, flight⟩ := h.access (FormReady.amo (major := 0x2C) (fn := fn) a b d) (by decide : 0x1D < 0x2C)
      (fun o s => [.atomic (o.entry rd) x.2 (s.rx o ra) (s.rx o rb) 0 (acq == 1#1) (rel == 1#1)]) (l := [rd]) (by simpa using d.inWindow)
    rw [State.rx_opOf, State.rx_opOf, regWord_correctReads, regWord_correctReads] at flight
    exact ⟨u, (runs ..).trans run, frame, flight⟩
  · obtain ⟨u, run, frame, flight⟩ := h.access (FormReady.cas (major := 0x2D) a b e d) (by decide : 0x1D < 0x2D)
      (fun o s => [.atomic (o.entry rd) .cas (s.rx o ra) (s.rx o rb) (s.rx o (rc.setWidth 7)) true true]) (l := [rd]) (by simpa using d.inWindow)
    rw [State.rx_opOf, State.rx_opOf, State.rx_opOf, regWord_correctReads, regWord_correctReads, regWord_correctReads] at flight
    exact ⟨u, run, frame, flight⟩

end Sys2Proof.Slice0
end

/-! PROOFS. O5 and O6: lanes, masks, reductions, reciprocals and permutations (R101 to R112). -/
section
namespace Sys2Proof.Machine
open Sys2Proof.Slice0
set_option Elab.async false

/-! ### Entries from lanes, masks and halfwords (R16, R106, R111) -/

/-- What a lane reads of an entry joined from lanes (R16). -/
@[simp] theorem lane_ofLanes (f : Nat → BitVec 32) {i : Nat} (h : i < 16) : lane (ofLanes f) i = f i := by
  change bits (ofLanes f) (32 * i) 32 = f i
  interval_cases i <;>
    simp (disch := decide) only [ofLanes, bits_append_low, bits_append_high, bits_self, Nat.reduceMul, Nat.reduceSub, Nat.sub_self]

/-- A mask holds its lanes' bits in its low sixteen, and zeros above (R106). -/
theorem maskOf_bit (p : Nat → Bool) {i : Nat} (h : i < 512) : (maskOf p).getLsbD i = (decide (i < 16) && p i) := by
  rw [maskOf, BitVec.getLsbD_setWidth, BitVec.getLsbD_ofBoolListLE, laneList_eq_range, decide_eq_true h, Bool.true_and]
  by_cases low : i < 16
  · simp [low, List.getD_eq_getElem?_getD]
  · simp [low, List.getD_eq_getElem?_getD]

/-- A BF16 halfword widened to its FP32 lane (R111). -/
theorem unpackBf16_lane (a : Vec) (h : Nat) {i : Nat} (hi : i < 16) :
    (lane (unpackBf16 a h) i).toNat = (halfword a (16 * h + i)).toNat * 2 ^ 16 := by
  have half := (halfword a (16 * h + i)).isLt
  rw [unpackBf16, lane_ofLanes _ hi, BitVec.toNat_shiftLeft, BitVec.toNat_setWidth, Nat.shiftLeft_eq]
  omega

/-! ### Lane-wise values (R103, R104) -/

section
variable (x y : BitVec 32)

theorem laneAdd_eq : x + y = BitVec.ofNat 32 (x.toNat + y.toNat) := BitVec.eq_of_toNat_eq (by simp)
theorem laneSub_eq : x - y = BitVec.ofInt 32 (x.toInt - y.toInt) := BitVec.eq_of_toInt_eq (by simp [BitVec.toInt_sub])
theorem laneMul_eq : x * y = BitVec.ofNat 32 (x.toNat * y.toNat) := BitVec.eq_of_toNat_eq (by simp)
theorem laneShl_eq : x <<< laneShift y = BitVec.ofNat 32 (x.toNat * 2 ^ (y.toNat % 32)) :=
  BitVec.eq_of_toNat_eq (by simp [laneShift, Nat.shiftLeft_eq])
theorem laneShr_eq : x >>> laneShift y = BitVec.ofNat 32 (x.toNat / 2 ^ (y.toNat % 32)) :=
  BitVec.eq_of_toNat_eq (by
    rw [BitVec.toNat_ofNat, Nat.mod_eq_of_lt (Nat.lt_of_le_of_lt (Nat.div_le_self _ _) x.isLt)]
    simp [laneShift, Nat.shiftRight_eq_div_pow])
theorem laneSra_eq : x.sshiftRight (laneShift y) = BitVec.ofInt 32 (x.toInt / 2 ^ (y.toNat % 32)) := by
  simp [laneShift, BitVec.sshiftRight, Int.shiftRight_eq_div_pow]
theorem laneMin_eq : laneMin x y = BitVec.ofInt 32 (min x.toInt y.toInt) := by
  rw [laneMin, min_def, apply_ite (BitVec.ofInt 32), BitVec.ofInt_toInt, BitVec.ofInt_toInt]
theorem laneMax_eq : laneMax x y = BitVec.ofInt 32 (max x.toInt y.toInt) := by
  rw [laneMax, max_def, apply_ite (BitVec.ofInt 32), BitVec.ofInt_toInt, BitVec.ofInt_toInt]

/-- As signed values they are the lesser and the greater. -/
theorem laneMin_toInt : (laneMin x y).toInt = min x.toInt y.toInt := by rw [laneMin, min_def, apply_ite BitVec.toInt]
theorem laneMax_toInt : (laneMax x y).toInt = max x.toInt y.toInt := by rw [laneMax, max_def, apply_ite BitVec.toInt]

end

/-! ### Reductions (R108) -/

theorem lanesOf_eq (a : Vec) : lanesOf a = laneList.map (lane a) := rfl
theorem lanesOf_length (a : Vec) : (lanesOf a).length = 16 := rfl

section
variable (f : BitVec 32 → BitVec 32 → BitVec 32)

/-- One level of the tree: neighbours are joined. -/
def halve : List (BitVec 32) → List (BitVec 32)
  | x :: y :: rest => f x y :: halve rest
  | l => l

/-- One pass over the lanes, the first of them to start with. -/
def onePass : List (BitVec 32) → BitVec 32
  | [] => 0
  | x :: rest => rest.foldl f x

theorem halve_short : ∀ {l : List (BitVec 32)}, (∀ x y rest, l = x :: y :: rest → False) → halve f l = l ∧ l.length ≤ 1
  | [], _ => ⟨rfl, Nat.zero_le 1⟩
  | [_], _ => ⟨rfl, Nat.le_refl 1⟩
  | x :: y :: rest, short => (short x y rest rfl).elim

theorem halve_length (l : List (BitVec 32)) : (halve f l).length = (l.length + 1) / 2 := by
  induction l using halve.induct with
  | case1 x y rest ih =>
    rw [halve, List.length_cons, ih, List.length_cons, List.length_cons]
    omega
  | case2 l short =>
    obtain ⟨same, few⟩ := halve_short f short
    rw [same]
    omega

/-- A level of the model's tree, on numbers, is one on lanes. -/
theorem treeStep_toNat (l : List (BitVec 32)) :
    (treeStep (fun x y => ((f (BitVec.ofNat 32 x) (BitVec.ofNat 32 y)).toNat, 0)) (l.map BitVec.toNat)).1 = (halve f l).map BitVec.toNat := by
  induction l using halve.induct with
  | case1 x y rest ih => simp only [List.map_cons, treeStep, halve, ih, BitVec.ofNat_toNat, BitVec.setWidth_eq]
  | case2 l short =>
    match l, short with
    | [], _ => rfl
    | [_], _ => rfl
    | x :: y :: rest, short => exact (short x y rest rfl).elim

variable {f} (assoc : ∀ x y z, f (f x y) z = f x (f y z))
include assoc

theorem foldl_halve (l : List (BitVec 32)) (x : BitVec 32) : (halve f l).foldl f x = l.foldl f x := by
  induction l using halve.induct generalizing x with
  | case1 y z rest ih => rw [halve, List.foldl_cons, List.foldl_cons, List.foldl_cons, ih, assoc]
  | case2 l short => rw [(halve_short f short).1]

/-- Joining neighbours first does not change what one pass gives. -/
theorem onePass_halve (l : List (BitVec 32)) : onePass f (halve f l) = onePass f l := by
  induction l using halve.induct with
  | case1 x y rest _ => exact foldl_halve assoc rest (f x y)
  | case2 l short => rw [(halve_short f short).1]

/-- The tree of an associative operation gives what one pass over the lanes gives. -/
theorem reduceLanes_eq (a : Vec) : reduceLanes f a = (onePass f (lanesOf a)).setWidth 512 := by
  have lanes : (laneList.map fun i => (lane a i).toNat) = (lanesOf a).map BitVec.toNat := by rw [lanesOf_eq, List.map_map]; rfl
  have tree : reduceLanes f a = BitVec.ofNat 512 (((halve f (halve f (halve f (halve f (lanesOf a))))).map BitVec.toNat).headD 0) := by
    rw [reduceLanes, reduceTree, lanes]
    simp only [treeStep_toNat]
  have pass : onePass f (halve f (halve f (halve f (halve f (lanesOf a))))) = onePass f (lanesOf a) := by simp only [onePass_halve assoc]
  have one : (halve f (halve f (halve f (halve f (lanesOf a))))).length = 1 := by simp only [halve_length, lanesOf_length]
  obtain ⟨v, only⟩ := List.length_eq_one_iff.mp one
  rw [only] at tree pass
  rw [tree, ← pass]
  exact BitVec.ofNat_toNat ..

end

theorem laneMin_assoc (x y z : BitVec 32) : laneMin (laneMin x y) z = laneMin x (laneMin y z) :=
  BitVec.eq_of_toInt_eq (by simp only [laneMin_toInt, min_assoc])
theorem laneMax_assoc (x y z : BitVec 32) : laneMax (laneMax x y) z = laneMax x (laneMax y z) :=
  BitVec.eq_of_toInt_eq (by simp only [laneMax_toInt, max_assoc])

theorem onePass_add (l : List (BitVec 32)) : onePass (fun x y => x + y) l = BitVec.ofNat 32 (l.map (·.toNat)).sum := by
  have pass (rest : List (BitVec 32)) (x : BitVec 32) : rest.foldl (fun x y => x + y) x = x + BitVec.ofNat 32 (rest.map (·.toNat)).sum := by
    induction rest generalizing x with
    | nil => simp
    | cons y rest ih => simp [ih, BitVec.ofNat_add, BitVec.add_assoc]
  cases l with
  | nil => rfl
  | cons x rest => simp [onePass, pass, BitVec.ofNat_add]

/-- One pass of the greater, or the lesser, is that of the signed values. -/
theorem onePass_signed {f : BitVec 32 → BitVec 32 → BitVec 32} {g : Int → Int → Int} (value : ∀ x y, (f x y).toInt = g x.toInt y.toInt)
    (self : ∀ n, g n n = n) (l : List (BitVec 32)) : onePass f l = BitVec.ofInt 32 ((l.map (·.toInt)).foldl g (l.headD 0).toInt) := by
  cases l with
  | nil => rfl
  | cons x rest =>
    have pass : (rest.map (·.toInt)).foldl g x.toInt = (rest.foldl f x).toInt := by
      rw [List.foldl_map]
      exact List.foldl_hom BitVec.toInt fun x y => (value x y).symm
    rw [List.map_cons, List.foldl_cons, List.headD_cons, self, pass, BitVec.ofInt_toInt]
    rfl

/-- One pass may start from a unit instead. -/
theorem onePass_unit {f : BitVec 32 → BitVec 32 → BitVec 32} {e : BitVec 32} (unit : ∀ x, f e x = x) {l : List (BitVec 32)} (some_ : l ≠ []) :
    onePass f l = l.foldl f e := by
  cases l with
  | nil => exact absurd rfl some_
  | cons x rest => rw [List.foldl_cons, unit, onePass]

theorem lanesOf_ne_nil (a : Vec) : lanesOf a ≠ [] := List.ne_nil_of_length_pos (by rw [lanesOf_length]; decide)

/-! ### Reciprocals (R110) -/

theorem f32_sane : f32.Sane := ⟨by decide, by decide⟩

/-- The sign of a finite number that is not zero. -/
theorem Finite.negBit_eq {f : Fmt} {a m : Nat} {x : Rat} {e : Int} (ha : Finite f a x m e) (nonzero : x ≠ 0) : negBit f a = decide (x < 0) := by
  have m0 : m ≠ 0 := mt ha.zero_iff.mp nonzero
  have below := signedBy_lt_zero (negBit f a) (y := m * 2 ^ e) (by positivity)
  rw [← ha.value] at below
  exact Bool.eq_iff_iff.mpr (below.symm.trans decide_eq_true_iff.symm)

/-- The root of a quotient of naturals, from that of its whole part. -/
theorem rootOf_isqrt_div (n : Nat) {q : Nat} (hq : q ≠ 0) :
    RootOf (isqrt (n / q)) (decide (isqrt (n / q) * isqrt (n / q) * q ≠ n)) ((n : Rat) / q) := by
  obtain ⟨low, high⟩ := isqrt_spec (n / q)
  have q0 : (0 : Rat) < q := by positivity
  refine ⟨?_, ?_, ?_⟩
  · rw [le_div_iff₀ q0, pow_two]
    exact_mod_cast (Nat.le_div_iff_mul_le (Nat.pos_of_ne_zero hq)).mp low
  · rw [div_lt_iff₀ q0, pow_two]
    exact_mod_cast (Nat.div_lt_iff_lt_mul (Nat.pos_of_ne_zero hq)).mp high
  · rw [decide_eq_false_iff_not, not_not, eq_div_iff q0.ne', pow_two]
    norm_cast

section
variable {a m : Nat} {x : Rat} {e : Int} (ha : Finite f32 a x m e)
include ha

theorem fpRcp_finite : fpRcp a = if m = 0 then (withSign f32 (negBit f32 a) f32.inf, flagDZ)
    else roundPack f32 0 (negBit f32 a) (divBits f32.m 1 m).1 ((divBits f32.m 1 m).2.1 - e) (divBits f32.m 1 m).2.2 := by
  have isNum : firstNan f32 [a] = none := firstNan_none (by simp [ha.isNan])
  rw [fpRcp, isNum, ha.unpacks]

/-- VRCP rounds 1/x once (R110). -/
theorem fpRcp_rounds (nonzero : x ≠ 0) : RoundsTo f32 0 (1 / x) (fpRcp a) := by
  have m0 : m ≠ 0 := mt ha.zero_iff.mp nonzero
  have value : 1 / x = signedBy (negBit f32 a) (((1 : Nat) : Rat) / m * 2 ^ (-e)) := by
    rw [ha.value, zpow_neg]
    cases negBit f32 a
    · simp [mul_comm]
    · simp [mul_comm, div_neg]
  rw [fpRcp_finite ha, if_neg m0, value, sub_eq_add_neg]
  exact divBits_rounds f32_sane _ one_ne_zero m0 (-e)

/-- Significand and even exponent of the number under VRSQ's root. -/
def evenParts (m : Nat) (e : Int) : Nat × Int := if e % 2 = 0 then (m, e) else (2 * m, e - 1)

theorem fpRsq_finite : fpRsq a = if m = 0 then (withSign f32 (negBit f32 a) f32.inf, flagDZ)
    else if negBit f32 a then (f32.nan, flagNV)
    else
      let t := (evenParts m e).1
      let r := isqrt (2 ^ 120 / t)
      roundPack f32 0 false r (-60 - (evenParts m e).2 / 2) (decide (r * r * t ≠ 2 ^ 120)) := by
  have isNum : firstNan f32 [a] = none := firstNan_none (by simp [ha.isNan])
  rw [fpRsq, isNum, ha.unpacks]
  rfl

end

theorem evenParts_value (m : Nat) (e : Int) : ((evenParts m e).1 : Rat) * 2 ^ (2 * ((evenParts m e).2 / 2)) = m * 2 ^ e := by
  unfold evenParts
  split
  case isTrue even =>
    rw [show 2 * (e / 2) = e by omega]
  case isFalse odd =>
    rw [show 2 * ((e - 1) / 2) = e - 1 by omega]
    push_cast
    rw [mul_comm 2, mul_assoc, ← zpow_one_add₀ two_ne_zero, show 1 + (e - 1) = e by ring]

theorem evenParts_bounds {m : Nat} (m0 : m ≠ 0) (small : m < 2 ^ 24) (e : Int) : (evenParts m e).1 ≠ 0 ∧ (evenParts m e).1 < 2 ^ 25 := by
  unfold evenParts
  split
  · exact ⟨m0, small.trans (by decide)⟩
  · exact ⟨by simpa using m0, by simp only; omega⟩

/-- VRSQ rounds the root of 1/x once (R110). -/
theorem fpRsq_rounds {a m : Nat} {x : Rat} {e : Int} (ha : Finite f32 a x m e) (pos : 0 < x) : RootsTo f32 (1 / x) (fpRsq a) := by
  have m0 : m ≠ 0 := mt ha.zero_iff.mp pos.ne'
  have plus : negBit f32 a = false := by rw [ha.negBit_eq pos.ne', decide_eq_false pos.le.not_gt]
  have magnitude : x = m * 2 ^ e := by rw [ha.value, plus, signedBy_false]
  have least : (2 : Rat) ^ (-149 : Int) ≤ x := by
    have m1 : (1 : Rat) ≤ m := by exact_mod_cast Nat.pos_of_ne_zero m0
    have low : (2 : Rat) ^ (-149 : Int) ≤ 2 ^ e := zpow_le_zpow_right₀ (by norm_num) ha.aboveLow
    rw [magnitude]
    exact low.trans (le_mul_of_one_le_left (by positivity) m1)
  have most : x < (2 : Rat) ^ (128 : Int) := magnitude ▸ ha.belowInf f32_sane
  obtain ⟨t0, small⟩ := evenParts_bounds m0 ha.bounded e
  have root := rootOf_isqrt_div (2 ^ 120) t0
  have many : 2 ^ 47 ≤ isqrt (2 ^ 120 / (evenParts m e).1) := by
    have large : 2 ^ 47 * 2 ^ 47 ≤ 2 ^ 120 / (evenParts m e).1 := (Nat.le_div_iff_mul_le (Nat.pos_of_ne_zero t0)).mpr (by omega)
    exact Nat.lt_succ_iff.mp (Nat.mul_self_lt_mul_self_iff.mp (large.trans_lt (isqrt_spec _).2))
  have value : 1 / x = ((2 ^ 120 : Nat) : Rat) / (evenParts m e).1 * 2 ^ (2 * (-60 - (evenParts m e).2 / 2)) := by
    rw [magnitude, ← evenParts_value, mul_sub, zpow_sub₀ two_ne_zero]
    have t1 : ((evenParts m e).1 : Rat) ≠ 0 := by exact_mod_cast t0
    have h0 : (2 : Rat) ^ (2 * ((evenParts m e).2 / 2)) ≠ 0 := by positivity
    field_simp
    norm_num
  rw [fpRsq_finite ha, if_neg m0, plus, if_neg Bool.false_ne_true]
  simp only
  have inverseLow : (2 : Rat) ^ (-128 : Int) < 1 / x := by
    rw [zpow_neg, ← one_div]
    exact one_div_lt_one_div_of_lt pos most
  have inverseHigh : 1 / x ≤ (2 : Rat) ^ (149 : Int) := by
    rw [show (149 : Int) = -(-149) by norm_num, zpow_neg, ← one_div]
    exact one_div_le_one_div_of_le (by positivity) least
  rw [value] at inverseLow inverseHigh ⊢
  generalize -60 - (evenParts m e).2 / 2 = h at *
  generalize isqrt (2 ^ 120 / (evenParts m e).1) = r at *
  have r0 : r ≠ 0 := by omega
  have up := (zpow_le_zpow_iff_right₀ (by norm_num : (1 : Rat) < 2)).mp ((root.binade_le r0 h).trans inverseHigh)
  have down := (zpow_lt_zpow_iff_right₀ (by norm_num : (1 : Rat) < 2)).mp (inverseLow.trans (root.lt_binade h))
  have bias : f32.bias = 127 := rfl
  exact root.rounds f32_sane r0 (fun _ => lt_bitLen_iff.mpr ((by decide : 2 ^ 25 ≤ 2 ^ 47).trans many)) (by rw [bias]; omega) (by rw [bias]; omega)

/-- VRCP and VRSQ of every finite FP32 number (R110). -/
theorem reciprocalsRound (a : Nat) (x : Rat) (pa : Pattern f32 a) (na : numberOf f32 a = some x) :
    (x ≠ 0 → RoundsTo f32 0 (1 / x) (fpRcp a)) ∧ (x = 0 → fpRcp a = (signed f32 (negBit f32 a) (infBits f32), flagDZ)) ∧
    (0 < x → RootsTo f32 (1 / x) (fpRsq a)) ∧ (x = 0 → fpRsq a = (signed f32 (negBit f32 a) (infBits f32), flagDZ)) ∧
    (x < 0 → fpRsq a = (f32.nan, flagNV)) := by
  obtain ⟨m, e, ha⟩ := finite_of_number pa na
  refine ⟨fpRcp_rounds ha, fun zero => ?_, fpRsq_rounds ha, fun zero => ?_, fun minus => ?_⟩
  · rw [fpRcp_finite ha, if_pos (ha.zero_iff.mpr zero), signed_eq_withSign, infBits_eq]
  · rw [fpRsq_finite ha, if_pos (ha.zero_iff.mpr zero), signed_eq_withSign, infBits_eq]
  · rw [fpRsq_finite ha, if_neg (mt ha.zero_iff.mp minus.ne), ha.negBit_eq minus.ne, decide_eq_true minus, if_pos rfl]

/-! ### Issues whose effect is an entry made of the operands' entries, format by format (R26, R101) -/

theorem formRRR_lat (major fn : Nat) (ra rb : BitVec 7) (ta tb : BitVec 1) : (formRRR major fn ra rb ta tb).lat = 12 := rfl
theorem formRR_lat (major fn : Nat) (ra : BitVec 7) (ta : BitVec 1) : (formRR major fn ra ta).lat = 12 := rfl

/-- VINS reads its destination too (R109). -/
theorem FormReady.insert {s : State} {c : Nat} {t : Thread} {rd ra rb : BitVec 7} {ta tb : BitVec 1} (a : Readable s c t ra.toNat)
    (b : Readable s c t rb.toNat) (old : Readable s c t rd.toNat) (d : Writable s c t rd.toNat) :
    FormReady s c t { Form.plain 0x36 2 with srcs := [srcT 1 ra ta, srcT 2 rb tb, srcB 0 rd], dsts := [(0, rd.toNat)] } := by
  constructor <;> simp [Form.plain, srcT, srcB, a, b, d, old, a.inWindow, b.inWindow, old.inWindow]

section
variable {s : State} {c sl : Nat} {t : Thread} (h : Issuing s c sl t) {major : Nat} (high : 0x1D < major)
include h high

section
variable {fn : Nat} {rd ra rb : BitVec 7} {ta tb : BitVec 1} (a : Readable s c t ra.toNat) (b : Readable s c t rb.toNat) (d : Writable s c t rd.toNat)
include a b d

theorem Issuing.entry_rrr (val : Vec → Vec → Vec) :
    ∃ u, s.issueValue (formRRR major fn ra rb ta tb) rd (fun o s => val (s.rv o ra) (s.rv o rb)) = .next u ∧
      InFlight s u c sl t 12 [.reg (t.base + rd.toNat) (val (regVec s c t ra) (regVec s c t rb))] (t.pc + 4) ∧ IssueFrame s u c sl [] := by
  simpa only [State.rv_opOf, regVec_correctReads, formRRR_lat] using
    h.value (f := formRRR major fn ra rb ta tb) (FormReady.rrr (lat := 12) a b d) (.inr high) fun o s => val (s.rv o ra) (s.rv o rb)

theorem Issuing.entryFlags_rrr (val : Vec → Vec → Vec × BitVec 5) :
    ∃ u, s.issueFlags (formRRR major fn ra rb ta tb) rd (fun o s => val (s.rv o ra) (s.rv o rb)) = .next u ∧
      InFlight s u c sl t 12 [.reg (t.base + rd.toNat) (val (regVec s c t ra) (regVec s c t rb)).1,
        .flags (val (regVec s c t ra) (regVec s c t rb)).2] (t.pc + 4) ∧ IssueFrame s u c sl [] := by
  simpa only [State.rv_opOf, regVec_correctReads, formRRR_lat] using
    h.flags (f := formRRR major fn ra rb ta tb) (FormReady.rrr (lat := 12) a b d) (.inr high) fun o s => val (s.rv o ra) (s.rv o rb)
end

section
variable {fn lat : Nat} {rd ra : BitVec 7} {ta : BitVec 1} (a : Readable s c t ra.toNat) (d : Writable s c t rd.toNat)
include a d

theorem Issuing.entry_rr (val : Vec → Vec) :
    ∃ u, s.issueValue (formRR major fn ra ta) rd (fun o s => val (s.rv o ra)) = .next u ∧
      InFlight s u c sl t 12 [.reg (t.base + rd.toNat) (val (regVec s c t ra))] (t.pc + 4) ∧ IssueFrame s u c sl [] := by
  simpa only [State.rv_opOf, regVec_correctReads, formRR_lat] using
    h.value (f := formRR major fn ra ta) (FormReady.rr (lat := 12) a d) (.inr high) fun o s => val (s.rv o ra)

theorem Issuing.entryFlags_rr (val : Vec → Vec × BitVec 5) :
    ∃ u, s.issueFlags { formRR major fn ra ta with lat := lat } rd (fun o s => val (s.rv o ra)) = .next u ∧
      InFlight s u c sl t lat [.reg (t.base + rd.toNat) (val (regVec s c t ra)).1, .flags (val (regVec s c t ra)).2] (t.pc + 4) ∧
      IssueFrame s u c sl [] := by
  simpa only [State.rv_opOf, regVec_correctReads] using
    h.flags (f := { formRR major fn ra ta with lat := lat }) (FormReady.rr a d) (.inr high) fun o s => val (s.rv o ra)
end

section
variable {rd ra rb : BitVec 7} {rc : BitVec 5} (a : Readable s c t ra.toNat) (b : Readable s c t rb.toNat) (e : Readable s c t rc.toNat)
  (d : Writable s c t rd.toNat)
include a b e d

theorem Issuing.entry_rrrr (val : Vec → Vec → Vec → Vec) :
    ∃ u, s.issueValue (formRRRR major ra rb rc) rd (fun o s => val (s.rv o ra) (s.rv o rb) (s.rv o (rc.setWidth 7))) = .next u ∧
      InFlight s u c sl t 12 [.reg (t.base + rd.toNat) (val (regVec s c t ra) (regVec s c t rb) (regVec s c t (rc.setWidth 7)))] (t.pc + 4) ∧
      IssueFrame s u c sl [] := by
  simpa only [State.rv_opOf, regVec_correctReads, formRRRR_lat] using
    h.value (f := formRRRR major ra rb rc) (FormReady.rrrr a b e d) (.inr high) fun o s => val (s.rv o ra) (s.rv o rb) (s.rv o (rc.setWidth 7))

theorem Issuing.entryFlags_rrrr (val : Vec → Vec → Vec → Vec × BitVec 5) :
    let v := val (regVec s c t ra) (regVec s c t rb) (regVec s c t (rc.setWidth 7))
    ∃ u, s.issueFlags (formRRRR major ra rb rc) rd (fun o s => val (s.rv o ra) (s.rv o rb) (s.rv o (rc.setWidth 7))) = .next u ∧
      InFlight s u c sl t 12 [.reg (t.base + rd.toNat) v.1, .flags v.2] (t.pc + 4) ∧ IssueFrame s u c sl [] := by
  simpa only [State.rv_opOf, regVec_correctReads, formRRRR_lat] using
    h.flags (f := formRRRR major ra rb rc) (FormReady.rrrr a b e d) (.inr high) fun o s => val (s.rv o ra) (s.rv o rb) (s.rv o (rc.setWidth 7))
end
end
end Sys2Proof.Machine

namespace Sys2Proof.Slice0
open Sys2Proof.Machine
set_option Elab.async false

/-! ### The families of vector instructions, by what they issue -/

theorem laneBinary_issues : ∀ x ∈ laneBinary, ∃ (major fn : Nat) (val : BitVec 32 → BitVec 32 → BitVec 32), 0x1D < major ∧
    (∀ a b, val a b = x.2 a b) ∧ ∀ (s : State) (rd ra rb : BitVec 7) (ta tb : BitVec 1), exec (x.1 rd ra rb ta tb) s =
      s.issueValue (formRRR major fn ra rb ta tb) rd fun o s => zipLanes val (s.rv o ra) (s.rv o rb) := by
  simp only [laneBinary, List.forall_mem_cons, List.not_mem_nil, false_implies, implies_true, and_true]
  and_intros
  all_goals refine ⟨_, _, _, by decide, ?_, fun _ _ _ _ _ _ => rfl⟩
  exacts [laneAdd_eq, laneSub_eq, fun _ _ => rfl, fun _ _ => rfl, fun _ _ => rfl, laneShl_eq, laneShr_eq, laneSra_eq, laneMul_eq, laneMin_eq,
    laneMax_eq]

theorem laneRelations_issues : ∀ x ∈ laneRelations, ∃ fn : Nat, ∀ (s : State) (rd ra rb : BitVec 7) (ta tb : BitVec 1),
    exec (x.1 rd ra rb ta tb) s = s.issueValue (formRRR 0x33 fn ra rb ta tb) rd fun o s => zipMask x.2 (s.rv o ra) (s.rv o rb) := by
  simp only [laneRelations, List.forall_mem_cons, List.not_mem_nil, false_implies, implies_true, and_true]
  and_intros
  all_goals exact ⟨_, fun _ _ _ _ _ _ => rfl⟩

theorem laneFloat_issues : ∀ x ∈ laneFloat, ∃ major fn : Nat, 0x1D < major ∧ ∀ (s : State) (rd ra rb : BitVec 7) (ta tb : BitVec 1),
    exec (x.1 rd ra rb ta tb) s = s.issueFlags (formRRR major fn ra rb ta tb) rd fun o s => x.2 (s.rv o ra) (s.rv o rb) := by
  simp only [laneFloat, List.forall_mem_cons, List.not_mem_nil, false_implies, implies_true, and_true]
  and_intros
  all_goals exact ⟨_, _, by decide, fun _ _ _ _ _ _ => rfl⟩

theorem vectorUnaryFloat_issues : ∀ x ∈ vectorUnaryFloat, ∃ major fn : Nat, 0x1D < major ∧ ∀ (s : State) (rd ra : BitVec 7) (ta : BitVec 1),
    exec (x.1 rd ra ta) s = s.issueFlags { formRR major fn ra ta with lat := x.2.1 } rd fun o s => x.2.2 (s.rv o ra) := by
  simp only [vectorUnaryFloat, List.forall_mem_cons, List.not_mem_nil, false_implies, implies_true, and_true]
  and_intros
  all_goals exact ⟨_, _, by decide, fun _ _ _ _ => rfl⟩

theorem laneReductions_issues : ∀ x ∈ laneReductions, ∃ (fn : Nat) (f : BitVec 32 → BitVec 32 → BitVec 32),
    (∀ a b e, f (f a b) e = f a (f b e)) ∧ (∀ l, l ≠ [] → onePass f l = x.2 l) ∧
    ∀ (s : State) (rd ra : BitVec 7) (ta : BitVec 1), exec (x.1 rd ra ta) s =
      s.issueValue (formRR 0x35 fn ra ta) rd fun o s => reduceLanes f (s.rv o ra) := by
  simp only [laneReductions, List.forall_mem_cons, List.not_mem_nil, false_implies, implies_true, and_true]
  and_intros
  all_goals refine ⟨_, _, ?_, ?_, fun _ _ _ _ => rfl⟩
  · exact BitVec.add_assoc
  · exact fun l _ => onePass_add l
  · exact laneMax_assoc
  · exact fun l _ => onePass_signed laneMax_toInt max_self l
  · exact laneMin_assoc
  · exact fun l _ => onePass_signed laneMin_toInt min_self l
  · exact BitVec.or_assoc
  · exact fun l some_ => onePass_unit (fun _ => BitVec.zero_or) some_
  · exact BitVec.and_assoc
  · exact fun l some_ => onePass_unit (fun _ => BitVec.allOnes_and) some_

/-- Settles O5: the reciprocals round once, and D is read lane by lane of what each family issues. -/
theorem vectorLaneIssues : Obligations.VectorLaneIssues := by
  refine ⟨reciprocalsRound, fun x hx s c sl t rd ra rb ta tb h a b d => ?_, fun x hx s c sl t rd ra rb ta tb h a b d => ?_,
    fun x hx s c sl t rd ra rb ta tb h a b d => ?_, fun x hx s c sl t rd ra ta h a d => ?_, fun x hx s c sl t rd ra ta h a d => ?_,
    fun s c sl t rd ra rb rc h a b e d => ⟨?_, ?_⟩⟩
  · obtain ⟨major, fn, val, high, eq, runs⟩ := laneBinary_issues x hx
    obtain ⟨u, run, flight, frame⟩ := h.entry_rrr high (fn := fn) (ta := ta) (tb := tb) a b d (zipLanes val)
    exact ⟨u, _, (runs ..).trans run, flight, frame, fun i hi => (lane_ofLanes _ hi).trans (eq _ _)⟩
  · obtain ⟨fn, runs⟩ := laneRelations_issues x hx
    obtain ⟨u, run, flight, frame⟩ := h.entry_rrr (by decide : 0x1D < 0x33) (fn := fn) (ta := ta) (tb := tb) a b d (zipMask x.2)
    exact ⟨u, _, (runs ..).trans run, flight, frame, fun i hi => maskOf_bit _ hi⟩
  · obtain ⟨major, fn, high, runs⟩ := laneFloat_issues x hx
    rw [runs]
    exact h.entryFlags_rrr high a b d x.2
  · obtain ⟨major, fn, high, runs⟩ := vectorUnaryFloat_issues x hx
    rw [runs]
    exact h.entryFlags_rr high a d x.2.2
  · obtain ⟨fn, f, assoc, pass, runs⟩ := laneReductions_issues x hx
    rw [runs, ← pass _ (lanesOf_ne_nil _), ← reduceLanes_eq assoc]
    exact h.entry_rr (by decide : 0x1D < 0x35) a d (reduceLanes f)
  · exact h.entryFlags_rrrr (by decide : 0x1D < 0x32) a b e d (lanes3 (fpFma f32))
  · obtain ⟨u, run, flight, frame⟩ := h.entry_rrrr (by decide : 0x1D < 0x34) a b e d selectLanes
    exact ⟨u, _, run, flight, frame, fun i hi => lane_ofLanes _ hi⟩

/-! ### Permutations, insertion and extraction (R109, R111, R112) -/

/-- Settles O6: each by its entry, of which a lane is read. -/
theorem vectorMoveIssues : Obligations.VectorMoveIssues := by
  refine ⟨fun s c sl t rd ra rb ta tb h a b d => ⟨?_, ?_, ?_, fun old => ?_⟩, fun s c sl t rd ra ta h a d => ⟨?_, ?_⟩⟩
  · obtain ⟨u, run, flight, frame⟩ := h.entry_rrr (by decide : 0x1D < 0x36) (fn := 0) (ta := ta) (tb := tb) a b d permLanes
    exact ⟨u, _, run, flight, frame, fun i hi => lane_ofLanes _ hi⟩
  · obtain ⟨u, run, flight, frame⟩ := h.entry_rrr (by decide : 0x1D < 0x36) (fn := 3) (ta := ta) (tb := tb) a b d
      fun x y => (lane x ((scalarOf y).toNat % 16)).setWidth 512
    exact ⟨u, run, frame, flight⟩
  · obtain ⟨u, run, flight, frame⟩ := h.entry_rrr (by decide : 0x1D < 0x37) (fn := 5) (ta := ta) (tb := tb) a b d
      fun x y => unpackBf16 x ((scalarOf y).toNat % 2)
    exact ⟨u, _, run, flight, frame, fun i hi => unpackBf16_lane _ _ hi⟩
  · obtain ⟨u, run, flight, frame⟩ := h.value (f := { Form.plain 0x36 2 with srcs := [srcT 1 ra ta, srcT 2 rb tb, srcB 0 rd] })
      (FormReady.insert a b old d) (.inr (by decide : 0x1D < 0x36)) fun o s => insertLane (s.rv o rd) ((s.rx o rb).toNat % 16) (lane (s.rv o ra) 0)
    simp only [State.rv_opOf, State.rx_opOf, regVec_correctReads, regWord_correctReads] at flight
    exact ⟨u, _, run, flight, frame, fun i hi => lane_ofLanes _ hi⟩
  · obtain ⟨u, run, flight, frame⟩ := h.entry_rr (by decide : 0x1D < 0x36) (fn := 1) (ta := ta) a d fun x => ofLanes fun _ => lane x 0
    exact ⟨u, _, run, flight, frame, fun i hi => lane_ofLanes _ hi⟩
  · obtain ⟨u, run, flight, frame⟩ := h.value (f := formRR 0x37 6 ra ta) (FormReady.rr (lat := 12) a d) (.inr (by decide : 0x1D < 0x37))
      fun o s => (s.regAt o.c (o.entry ra)).zf.setWidth 512
    rw [State.correctReads_zf] at flight
    exact ⟨u, run, frame, flight⟩

end Sys2Proof.Slice0
end

/-! PROOFS. O32: loads and stores at their completion, and the traps of their checks (R114 to R119). -/
section
namespace Sys2Proof.Machine
open Sys2Proof.Slice0
set_option Elab.async false

/-! ### The checks of one address (R114) -/

theorem State.checkAll_one (s : State) (c p va align : Nat) (k : Kind) (locks : Bool) : s.checkAll c p [va] align k locks =
    match s.check c p va align k locks with
    | .ok h => .ok [h]
    | .bad _ code second => .error (code, second, va) := by
  cases checked : s.check c p va align k locks with
  | ok h => simp [State.checkAll, checked]
  | bad rank code second => simp [State.checkAll, checked]

/-- The trap codes of memory accesses (R114). -/
def accessCodes : List Nat := [0x04, 0x05, 0x07, 0x08, 0x09, 0x12]

theorem State.check_code {s : State} {c p va align rank code second : Nat} {k : Kind} {locks : Bool}
    (bad : s.check c p va align k locks = .bad rank code second) : code ∈ accessCodes := by
  have locked {o : Option Nat} {h : Nat} (bad : (match o with | some i => Checked.bad 9 0x09 i | none => .ok h) = .bad rank code second) :
      code ∈ accessCodes := by
    cases o with
    | none => cases bad
    | some i => cases bad; decide
  simp only [State.check] at bad
  split at bad
  · cases bad; decide
  · split at bad
    · split at bad
      · split at bad
        · cases bad; decide
        · exact locked bad
      · cases bad; decide
    · split at bad
      · cases bad; decide
      · split at bad
        · cases bad; decide
        · split at bad
          · cases bad; decide
          · exact locked bad

theorem State.checkAll_code {s : State} {c p va align : Nat} {k : Kind} {locks : Bool} {x : Nat × Nat × Nat}
    (bad : s.checkAll c p [va] align k locks = .error x) : x.1 ∈ accessCodes := by
  rw [State.checkAll_one] at bad
  cases checked : s.check c p va align k locks with
  | ok h => simp [checked] at bad
  | bad rank code second =>
    simp only [checked, Except.error.injEq] at bad
    exact bad ▸ State.check_code checked

/-! ### The bytes of a store (R119, R121) -/

/-- The bytes of one write at a home, each under its own address. -/
def bytesAt (h : Nat) (bs : List Byte) : Tab Byte := ((List.range bs.length).zip bs).foldl (fun t b => tabSet t (h + b.1) b.2) []

theorem storeTab_one (h : Nat) (a : Word) (bs : List Byte) : storeTab [h] [(a, bs)] = bytesAt h bs := rfl

theorem bytesAt_append (h : Nat) (bs : List Byte) (b : Byte) : bytesAt h (bs ++ [b]) = tabSet (bytesAt h bs) (h + bs.length) b := by
  rw [bytesAt, List.length_append, List.length_singleton, List.range_succ, List.zip_append (List.length_range), List.foldl_append]
  rfl

theorem tabGet?_bytesAt (h : Nat) (bs : List Byte) (a : Nat) : tabGet? (bytesAt h bs) a = if h ≤ a then bs[a - h]? else none := by
  induction bs using List.reverseRecOn with
  | nil => simp [bytesAt, tabGet?]
  | append_singleton bs b ih =>
    rw [bytesAt_append]
    by_cases last : a = h + bs.length
    · simp [last]
    · rw [tabGet?_set_other _ _ last, ih]
      by_cases low : h ≤ a
      · rw [if_pos low, if_pos low, List.getElem?_append]
        split
        · rfl
        · rw [List.getElem?_eq_none (by omega), List.getElem?_eq_none (by simp only [List.length_singleton]; omega)]
      · rw [if_neg low, if_neg low]

/-! ### What a load and a store leave (R115, R118, R119) -/

theorem fxChecks_error {u : State} {d : Done} {vas : List Nat} {n : Nat} {k : Kind} {x : Nat × Nat × Nat}
    (bad : u.checkAll d.c d.p vas n k true = .error x) : u.fxChecks d vas n k = .error (memTrap d.t.pc x) := by simp [State.fxChecks, bad]

/-- The outstanding access of a load of one address, which may perform early as listed (R115, R117). -/
def loadArrival (s : State) (d : Done) (uid rd : Nat) (kind : LoadKind) (va size home : Nat) (acq : Option Nat) (early : List (Nat × Nat)) : Arrival :=
  { uid := uid, core := d.c, slot := d.sl, part := d.p, order := d.f.order, due := s.cycle + s.takeDelay.1, rd := rd, ws := none,
    prod := .load kind ((List.range size).map fun i => home + i) [], acq := acq, rel := none, posts := d.f.posts, vas := [va], bytes := size,
    takes := early }

/-- Delays alone are drawn for the moments at which a load of one address may perform early. -/
theorem earlyTakes_draws (s : State) (uid : Nat) {kind : LoadKind} (whole : kind ≠ .lanes) : DrawsOnly s (s.earlyTakes uid kind).1 := by
  unfold State.earlyTakes
  rw [if_neg whole]
  split <;> rfl

theorem State.fxLoad_eq {s : State} {d : Done} {t : Thread} {rd size home : Nat} {kind : LoadKind} {a : Word} (whole : kind ≠ .lanes)
    (checks : s.fxChecks d [a.toNat] size 0 = .ok [home]) (slot : s.thread? d.c d.sl = some t) (acq : Option Nat) :
    ∃ n early, s.fxLoad d rd kind [a] size acq =
      { s with draws := n, arrivals := s.arrivals ++ [loadArrival s d t.uid rd kind a.toNat size home acq early] } := by
  have draws := earlyTakes_draws s.takeDelay.2 t.uid whole
  have spread : spreadHomes size [home] = (List.range size).map fun i => home + i := by simp [spreadHomes]
  refine ⟨(s.takeDelay.2.earlyTakes t.uid kind).1.draws, (s.takeDelay.2.earlyTakes t.uid kind).2, ?_⟩
  unfold State.fxLoad
  simp only [List.map_cons, List.map_nil, checks, slot, spread]
  rw [draws]
  rfl

/-- The entry of a store of one address (R119). -/
def storeEntry (d : Done) (uid home : Nat) (bs : List Byte) : Store :=
  { writes := bytesAt home bs, parts := [], order := d.f.order, due := 0, rel := none, uid := uid, core := d.c, part := d.p }

/-- A store enters its thread's buffer; there is no commit before the eighth entry (R119). -/
theorem State.fxStore_eq {s : State} {d : Done} {t : Thread} {size home : Nat} {a : Word} {bs : List Byte}
    (checks : s.fxChecks d [a.toNat] size 1 = .ok [home]) (slot : s.thread? d.c d.sl = some t) (room : t.buffer.length < 7) :
    s.fxStore d [(a, bs)] size none = s.setThread d.c d.sl { t with buffer := t.buffer ++ [storeEntry d t.uid home bs] } := by
  unfold State.fxStore
  simp only [List.map_cons, List.map_nil, checks, slot]
  exact if_neg (by omega)

end Sys2Proof.Machine

namespace Sys2Proof.Slice0
open Sys2Proof.Machine
set_option Elab.async false

section
variable {s : State} {c sl : Nat} {t : Thread} {f : Flight} (h : Completing s c sl t f)
include h

/-! ### Completions of accesses, and their traps -/

/-- Nothing but a condition of its own holds an instruction of one effect beyond its latency (R26). -/
theorem Completing.mayFinish {e : Effect} (fx : f.fx = [e]) (free : s.holds (doneOf s c sl t f) e = false) : s.mayFinish c sl = true := by
  have turn : ((s.core c).issued != s.cycle + 1) = true := by simpa using h.turn
  have head : (doneOf s c sl t f).f.fx = [e] := fx
  simp only [State.mayFinish, h.doneAt, head, free]
  simp [doneOf, h.due, h.standing, turn]

/-- An access that fails its checks traps; where it had emptied no full entry, its registers are as they were (R116, R160). -/
theorem Completing.traps (straight : Straight t f) {e : Effect} (fx : f.fx = [e]) (free : s.holds (doneOf s c sl t f) e = false) {x : TrapInfo}
    (traps : s.fxTrap (doneOf s c sl t f) e = some (s, x)) (code : x.code ≠ 0x10) (wasFull : f.wasFull = [])
    (handler : s.hasHandler c sl (((s.core c).part).getD 0) = true) :
    ∃ u v, exec .instructionCompletion s = .next u ∧ u.thread? c sl = some v ∧ v.state = .trapped x ∧ v.pc = x.pc ∧
      (∀ c' n, u.regAt c' n = s.regAt c' n) ∧ OnlyThread s u c sl := by
  have same : { t with after := none } = t := by rw [← h.ordinary]
  have stands : (s.modThread c sl fun t => { t with after := none }) = s.setThread c sl t := by rw [State.modThread_some h.slot, same]
  have others : OtherThreads c sl s (s.setThread c sl t) := .setThread s t
  have run : exec .instructionCompletion s = .next ((s.setThread c sl t).trap c sl x none) := by
    have completes : s.complete (doneOf s c sl t f) = s.trapLate (doneOf s c sl t f) x := by
      simp [State.complete, show (doneOf s c sl t f).f.fx = [e] from fx, traps]
    have late : s.trapLate (doneOf s c sl t f) x = (s.setThread c sl t).trap c sl x none := by
      simp only [State.trapLate, doneOf, wasFull, List.foldl_nil, stands, straight.single, h.ordinary]
    rw [exec_instructionCompletion, execInstructionCompletion, h.subject.1, h.subject.2, h.mayFinish fx free, h.doneAt, if_pos rfl]
    exact congrArg Host.Outcome.next (completes.trans late)
  obtain ⟨⟨v, slot, state, pc, -⟩, -, regs, mem, rest⟩ := State.trap_trapped (s := s.setThread c sl t) (State.thread?_setThread_self _ _ _ _)
    h.inCore h.alone (others.hasHandler h.inCore rfl handler) code
  exact ⟨_, v, run, slot, state, pc, regs, fun c' sl' hne h' => (rest c' sl' hne h').trans (others.thread? h.inCore hne h'), mem⟩

/-- A load that passes its checks leaves an outstanding access (R115). -/
theorem Completing.loads (straight : Straight t f) {rd n home : Nat} {kind : LoadKind} {a : Word} {acq : Option Nat}
    (fx : f.fx = [.load rd kind [a] n acq]) (whole : kind ≠ .lanes) (free : s.rangeHeld (((s.core c).part).getD 0) [a.toNat] n = false)
    (checks : s.checkAll c (((s.core c).part).getD 0) [a.toNat] n 0 true = .ok [home]) :
    ∃ u early, exec .instructionCompletion s = .next u ∧ u.thread? c sl = some (goneOn s t f) ∧
      u.arrivals = s.arrivals ++ [loadArrival s (doneOf s c sl t f) t.uid rd kind a.toNat n home acq early] ∧
      (∀ c' n, u.regAt c' n = s.regAt c' n) ∧ OnlyThread s u c sl := by
  have ok : s.fxChecks (doneOf s c sl t f) [a.toNat] n 0 = .ok [home] := fxChecks_ok checks
  have untrapped : s.fxTrap (doneOf s c sl t f) (.load rd kind [a] n acq) = none := by simp [State.fxTrap, ok]
  obtain ⟨m, early, does⟩ := State.fxLoad_eq (rd := rd) whole (fxChecks_ok (u := untracked s c sl t) (d := doneOf s c sl t f) checks)
    h.stillThere.slot acq
  have there : StillThere ((untracked s c sl t).fxLoad (doneOf s c sl t f) rd kind [a] n acq) (doneOf s c sl t f) { t with check := none } := by
    rw [does]
    exact ⟨h.stillThere.slot, h.flying, rfl, h.alone, h.ordinary⟩
  have run := h.single fx free untrapped (untracked_rangeHeld h free) rfl there (.inr (straight.blockEnds (by rw [does]; exact h.plain)))
  rw [does] at run
  refine ⟨_, early, run, (State.thread?_setThread_self _ _ _ _).trans (congrArg some (onward_goneOn h straight.toSingle _ rfl)), rfl, fun _ _ => rfl,
    onlyThread_of h ?_ fun _ => rfl⟩
  have first : OtherThreads c sl s { untracked s c sl t with
      draws := m, arrivals := s.arrivals ++ [loadArrival s (doneOf s c sl t f) t.uid rd kind a.toNat n home acq early] } :=
    (OtherThreads.setThread s _).trans (.of_same rfl)
  exact first.trans (.setThread _ _)

/-- A store that passes its checks enters its thread's own buffer (R119). -/
theorem Completing.stores (straight : Straight t f) {n home : Nat} {a : Word} {bs : List Byte} (fx : f.fx = [.store [(a, bs)] n none])
    (room : t.buffer.length < 7) (free : s.rangeHeld (((s.core c).part).getD 0) [a.toNat] n = false)
    (checks : s.checkAll c (((s.core c).part).getD 0) [a.toNat] n 1 true = .ok [home]) :
    ∃ u, exec .instructionCompletion s = .next u ∧
      u.thread? c sl = some { goneOn s t f with buffer := t.buffer ++ [storeEntry (doneOf s c sl t f) t.uid home bs] } ∧
      u = { s with threads := u.threads } ∧ OnlyThread s u c sl := by
  have ok : s.fxChecks (doneOf s c sl t f) [a.toNat] n 1 = .ok [home] := fxChecks_ok checks
  have untrapped : s.fxTrap (doneOf s c sl t f) (.store [(a, bs)] n none) = none := by simp [State.fxTrap, ok]
  have does := congrArg Out.done (State.fxStore_eq (bs := bs) (fxChecks_ok (u := untracked s c sl t) (d := doneOf s c sl t f) checks)
    h.stillThere.slot room)
  have there (v : Thread) (flying : v.state = .inflight f) (uid : v.uid = t.uid) (alone : v.coupled = false) (ordinary : v.after = none) :
      StillThere ((untracked s c sl t).setThread c sl v) (doneOf s c sl t f) v :=
    ⟨State.thread?_setThread_self _ _ _ _, flying, uid, alone, ordinary⟩
  have run := h.single fx free untrapped (untracked_rangeHeld h free) does (there _ h.flying rfl h.alone h.ordinary)
    (.inr (straight.blockEnds h.plain))
  rw [untracked, doneOf, State.setThread_setThread, State.setThread_setThread] at run
  refine ⟨_, run, (State.thread?_setThread_self _ _ _ _).trans (congrArg some ?_), rfl, onlyThread_setThread h _⟩
  refine (onward_single straight.toSingle (v := { t with check := none, buffer := _ }) rfl rfl _ _).trans ?_
  simp [goneOn, h.ordinary]
  rfl

end

/-- Settles O32: a load and a store by their effect, and a failing check by its trap, whose code is none of a notice. -/
theorem memoryAccessCompletes : Obligations.MemoryAccessCompletes := by
  intro s c sl t f h straight p
  refine ⟨fun rd kind a n acq home fx whole free checks => ?_, fun a bs n home fx room free checks => ?_, fun a n x fails free handler wasFull _ => ?_⟩
  · obtain ⟨u, early, run, slot, arrivals, regs, others⟩ := h.loads straight fx whole free checks
    exact ⟨u, _, run, slot, arrivals, rfl, rfl, rfl, rfl, rfl, rfl, rfl, straight.owes, rfl, regs, others⟩
  · obtain ⟨u, run, slot, only, others⟩ := h.stores straight fx room free checks
    refine ⟨u, _, run, slot, fun i hi => ?_, fun b outside => ?_, rfl, rfl, by rw [only], fun _ _ => by rw [only]; rfl, others⟩
    · exact (tabGet?_bytesAt home bs (home + i)).trans (by simp)
    · refine (tabGet?_bytesAt home bs b).trans ?_
      split
      · exact List.getElem?_eq_none (by omega)
      · rfl
  · have code (k : Kind) (bad : s.checkAll c p [a.toNat] n k true = .error x) : (memTrap t.pc x).code ≠ 0x10 := by
      have := State.checkAll_code bad
      rintro (e : x.1 = 0x10)
      rw [e] at this
      exact absurd this (by decide)
    obtain ⟨rd, kind, acq, fx, bad⟩ | ⟨bs, rel, fx, bad⟩ := fails
    · exact h.traps straight fx free (by simp [State.fxTrap, fxChecks_error (d := doneOf s c sl t f) bad]; rfl) (code _ bad) wasFull handler
    · exact h.traps straight fx free (by simp [State.fxTrap, fxChecks_error (d := doneOf s c sl t f) bad]; rfl) (code _ bad) wasFull handler

end Sys2Proof.Slice0
end

/-! PROOFS. O19, O20, O22 and O24: issues of the event and SYS instructions, and what waits or acts at its issue (R133, R137 to R148). -/
section
namespace Sys2Proof.Machine
open Sys2Proof.Slice0
set_option Elab.async false

/-! ### Forms of the queue, event and SYS instructions -/

section
variable {s : State} {c : Nat} {t : Thread} {rd ra rb : BitVec 7}

/-- SYS with a source and a destination. -/
theorem FormReady.sysRA {sub : Nat} (a : Readable s c t ra.toNat) (d : Writable s c t rd.toNat) : FormReady s c t (formSysRA sub rd ra) := by
  constructor <;> simp [formSysRA, formSys, Form.plain, srcB, a, d, a.inWindow]

/-- SYS with a source alone. -/
theorem FormReady.sysA {sub : Nat} (a : Readable s c t ra.toNat) : FormReady s c t (formSys sub [srcB 1 ra] []) := by
  constructor <;> simp [formSys, Form.plain, srcB, a, a.inWindow]

/-- SYS with two sources, as NWRITE, WAKE and THR.START name them. -/
theorem FormReady.sysAD {sub : Nat} (a : Readable s c t ra.toNat) (d : Readable s c t rd.toNat) :
    FormReady s c t (formSys sub [srcB 1 ra, srcB 0 rd] []) := by
  constructor <;> simp [formSys, Form.plain, srcB, a, d, a.inWindow, d.inWindow]

/-- A form whose one register is the destination, in whichever field. -/
theorem FormReady.target {major fn field : Nat} (d : Writable s c t rd.toNat) :
    FormReady s c t { Form.plain major fn with dsts := [(field, rd.toNat)] } := by
  constructor <;> simp [Form.plain, d]

/-- Two sources and no destination (R137). -/
theorem FormReady.pair {major fn : Nat} {ta tb : BitVec 1} (a : Readable s c t ra.toNat) (b : Readable s c t rb.toNat) :
    FormReady s c t (formRRR major fn ra rb ta tb) := by
  constructor <;> simp [formRRR, Form.plain, srcT, a, b, a.inWindow, b.inWindow]

/-- A register that is read and then written (R138). -/
theorem FormReady.start {sub : Nat} (a : Readable s c t ra.toNat) (d : Readable s c t rd.toNat) :
    FormReady s c t (formSys sub [srcB 1 ra, srcB 0 rd] [(0, rd.toNat)]) := by
  have writable : Writable s c t rd.toNat := ⟨d.inWindow, .inl d.full⟩
  constructor <;> simp [formSys, Form.plain, srcB, a, d, writable, a.inWindow, d.inWindow]

end

/-! ### An issue that waits (R27) -/

/-- The issuer waits: nothing but its thread and whose turn it is has changed. -/
structure Waits (s u : State) (c sl : Nat) (t : Thread) (w : Wait) : Prop where
  thread : u.thread? c sl = some { t with state := .blocked w }
  regs : RegsKept s u c []
  mem : MemKept s u

theorem RegsKept.of_flips {s u : State} (h : OnlyFlips s u) (c : Nat) : RegsKept s u c [] := ⟨fun c' n _ _ => h.regs c' n, by simp⟩
theorem MemKept.of_flips {s u : State} (h : OnlyFlips s u) : MemKept s u := by
  intro a
  rw [h.rest]
  rfl

theorem State.blockOn_waits {s v : State} {o : Op} {t : Thread} (slot : v.thread? o.c o.sl = some t) (regs : RegsKept s v o.c [])
    (mem : MemKept s v) (w : Wait) : Waits s (v.blockOn o w) o.c o.sl t w := by
  refine ⟨v.thread?_modThread slot _, ⟨fun c' n inFile _ => ?_, by simp⟩, fun a => ?_⟩
  · rw [State.blockOn, State.regAt_congr (State.modThread_regs v _ _ _)]
    exact regs.1 c' n inFile (by simp)
  · rw [← mem a, State.blockOn, State.modThread_eq]
    rfl

section
variable {s : State} {c sl : Nat} {t : Thread} (h : Issuing s c sl t)
include h

/-- An instruction whose own part waits, its reads done. -/
theorem Issuing.waits {f : Form} (ready : FormReady s c t f) (major : 0x1D < f.major) {body : Op → State → State} {w : Wait}
    (waits : body (opOf s f c sl t) (s.correctReads (opOf s f c sl t)) = (s.correctReads (opOf s f c sl t)).blockOn (opOf s f c sl t) w) :
    ∃ u, s.issue f body = .next u ∧ Waits s u c sl t w := by
  have reads := s.correctReads_only (opOf s f c sl t)
  rw [h.issue ready (loopEnd_of_major (.inr major)), waits]
  exact ⟨_, rfl, State.blockOn_waits (o := opOf s f c sl t) ((reads.thread c sl).trans h.slot) (.of_flips reads c) (.of_flips reads) w⟩

omit h in
/-- What a long-latency producer sends on its way at its issue (R32). -/
theorem State.flyArrive_eq (v : State) (o : Op) (rd : Nat) (ws : Option Nat) (prod : Producer) (acq : Option Nat) :
    ∃ a : Arrival, v.flyArrive o rd ws prod acq [] = { v.flyTo o [] o.next .none 0 ([rd] ++ ws.toList) with
        arrivals := (v.flyTo o [] o.next .none 0 ([rd] ++ ws.toList)).arrivals ++ [a] } ∧
      a.core = o.c ∧ a.rd = rd ∧ a.ws = ws ∧ a.prod = prod ∧ a.due = v.cycle + 12 := ⟨_, rfl, rfl, rfl, rfl, rfl, rfl⟩

/-- An instruction that goes in flight after its own part has changed the state to v, its thread with it. -/
theorem Issuing.flies_from {f : Form} (ready : FormReady s c t f) (major : 0x1D < f.major) {body : Op → State → State} {v : State} {t' : Thread}
    {fx : List Effect} {emptied : List Nat} (slot : v.thread? c sl = some t') (clock : v.cycle = s.cycle) (order : v.order = s.order)
    (inFile : ∀ e ∈ emptied, e < 2048) (flies : body (opOf s f c sl t) (s.correctReads (opOf s f c sl t)) =
      v.flyTo (opOf s f c sl t) fx (t.pc + 4) .none 0 emptied) :
    let u := v.flyTo (opOf s f c sl t) fx (t.pc + 4) .none 0 emptied
    s.issue f body = .next u ∧ InFlight s u c sl t' f.lat fx (t.pc + 4) ∧ IssueFrame v u c sl emptied := by
  obtain ⟨-, flight, frame⟩ := State.flyTo_spec v (opOf s f c sl t) slot rfl h.inCore fx (t.pc + 4) .none 0 emptied inFile
  obtain ⟨fl, thread, effects, next, numbered, due⟩ := flight rfl
  exact ⟨by rw [h.issue ready (loopEnd_of_major (.inr major)), flies], ⟨fl, thread, effects, next, numbered.trans order, by rw [due, clock]; rfl⟩, frame⟩

/-- The same for a producer that has taken its value at its issue, its entries empty from now on (R32). -/
theorem Issuing.arrives_from {f : Form} (ready : FormReady s c t f) (major : 0x1D < f.major) {body : Op → State → State} {v : State} {t' : Thread}
    {rd : Nat} {ws : Option Nat} {prod : Producer} {acq : Option Nat} (slot : v.thread? c sl = some t') (clock : v.cycle = s.cycle)
    (order : v.order = s.order) (before : v.arrivals = s.arrivals) (inFile : ∀ e ∈ [rd] ++ ws.toList, e < 2048)
    (flies : body (opOf s f c sl t) (s.correctReads (opOf s f c sl t)) = v.flyArrive (opOf s f c sl t) rd ws prod acq []) :
    ∃ w a, s.issue f body = .next { w with arrivals := s.arrivals ++ [a] } ∧ InFlight s w c sl t' f.lat [] (t.pc + 4) ∧
      IssueFrame v w c sl ([rd] ++ ws.toList) ∧ a.core = c ∧ a.rd = rd ∧ a.ws = ws ∧ a.prod = prod ∧ a.due = s.cycle + 12 := by
  obtain ⟨-, flight, frame⟩ := h.flies_from ready major (body := fun o _ => v.flyTo o [] o.next .none 0 ([rd] ++ ws.toList)) slot clock order inFile rfl
  obtain ⟨a, sends, core, entry, status, producer, due⟩ := State.flyArrive_eq v (opOf s f c sl t) rd ws prod acq
  have same := congrArg State.arrivals frame.rest
  refine ⟨_, a, ?_, flight, frame, core, entry, status, producer, due.trans (congrArg (· + 12) clock)⟩
  rw [h.issue ready (loopEnd_of_major (.inr major)), flies, sends, ← before, ← same]
  rfl

/-- An instruction that goes in flight with its effects, once its operands are read. -/
theorem Issuing.acts_as {f : Form} (ready : FormReady s c t f) (major : 0x1D < f.major) {body : Op → State → State} {fx : List Effect}
    (acts : body (opOf s f c sl t) (s.correctReads (opOf s f c sl t)) = (s.correctReads (opOf s f c sl t)).fly (opOf s f c sl t) fx) :
    ∃ u, s.issue f body = .next u ∧ IssueFrame s u c sl [] ∧ InFlight s u c sl t f.lat fx (t.pc + 4) := by
  obtain ⟨u, run, -, flight, frame⟩ := h.flies ready (loopEnd_of_major (.inr major)) body fx (t.pc + 4) .none 0 [] (by simp) acts
  exact ⟨u, run, frame, flight rfl⟩

/-- An instruction without sources takes its trap in the state in which it issues. -/
theorem Issuing.traps_as {f : Form} (ready : FormReady s c t f) (major : 0x1D < f.major) (unread : f.srcs = []) {body : Op → State → State}
    {x : TrapInfo} (traps : body (opOf s f c sl t) s = s.trapOp (opOf s f c sl t) x) :
    s.issue f body = .next (s.trapOp (opOf s f c sl t) x) := by
  have reads : s.correctReads (opOf s f c sl t) = s := by
    rw [State.correctReads, opOf, unread]
    rfl
  rw [h.issue ready (loopEnd_of_major (.inr major)), reads, traps]

end

/-! ### WAIT's own part (R145) -/

/-- WAIT with the word a. -/
def State.waitAt (s : State) (o : Op) (a : Nat) : State :=
  let scope := natBits a 4 3
  if natBits a 63 1 = 1 ∨ scope < 3 ∨ scope > 5 then s.fly o []
  else
    let key := barrierKey o.p scope (barrierUnit scope o.c) (natBits a 0 4)
    if (s.barrier key).gen = natBits a 16 16 then s.blockOn o (.barrier key (natBits a 16 16)) else s.fly o [.acquire scope]

section
variable {s : State} {o : Op} {a : Word}

theorem natBits_top : natBits a.toNat 63 1 = a.toNat / 2 ^ 63 := Nat.mod_eq_of_lt (by have := a.isLt; omega)

theorem State.waitAt_free (free : a.toNat / 2 ^ 63 = 1 ∨ a.toNat / 16 % 8 < 3 ∨ 5 < a.toNat / 16 % 8) : s.waitAt o a.toNat = s.fly o [] := by
  rw [State.waitAt, natBits_top]
  exact if_pos free

theorem State.waitAt_scope (bit : a.toNat / 2 ^ 63 = 0) (low : 3 ≤ a.toNat / 16 % 8) (high : a.toNat / 16 % 8 ≤ 5) :
    let scope := a.toNat / 16 % 8
    let key := barrierKey o.p scope (barrierUnit scope o.c) (a.toNat % 16)
    s.waitAt o a.toNat = if (s.barrier key).gen = a.toNat / 2 ^ 16 % 2 ^ 16 then s.blockOn o (.barrier key (a.toNat / 2 ^ 16 % 2 ^ 16))
      else s.fly o [.acquire scope] := by
  have barred : ¬(natBits a.toNat 63 1 = 1 ∨ natBits a.toNat 4 3 < 3 ∨ natBits a.toNat 4 3 > 5) := by
    rw [natBits_top]
    have scope : natBits a.toNat 4 3 = a.toNat / 16 % 8 := rfl
    omega
  rw [State.waitAt, natBits_low]
  exact if_neg barred
end

/-! ### System registers (R39, R147) -/

theorem widen_eq_ofNat (w : Word) : widen w = BitVec.ofNat 512 w.toNat := by
  rw [widen, BitVec.ofNat_toNat]

theorem gangBits_lt (t : Thread) : srThread.gangBits t < 2 ^ 7 := by
  have mask := t.gangMask.isLt
  have position := t.gangPos.isLt
  rw [srThread.gangBits]
  split <;> omega

/-- The first of some packed fields is added, and the others follow. -/
theorem packed_cons (acc lo len v : Nat) (l : List (Nat × Nat × Nat)) :
    ((lo, len, v) :: l).foldl (fun acc f => acc + f.2.2 % 2 ^ f.2.1 * 2 ^ f.1) acc =
      l.foldl (fun acc f => acc + f.2.2 % 2 ^ f.2.1 * 2 ^ f.1) (acc + v % 2 ^ len * 2 ^ lo) := rfl

theorem srThread_toNat (c sl p : Nat) (t : Thread) (inCore : sl < 64) : (srThread c sl p t).toNat =
    sl + p % 32 * 2 ^ 8 + c % 1024 * 2 ^ 16 + t.gangMask.toNat * 2 ^ 32 + t.gangPos.toNat * 2 ^ 36 + (if t.coupled then 2 ^ 38 else 0) +
      if t.forkInline then 2 ^ 39 else 0 := by
  have bits : srThread.gangBits t * 2 ^ 32 = t.gangMask.toNat * 2 ^ 32 + t.gangPos.toNat * 2 ^ 36 + if t.coupled then 2 ^ 38 else 0 := by
    rw [srThread.gangBits]
    split <;> omega
  have gang := gangBits_lt t
  have fork : (if t.forkInline then 1 else 0) % 2 ^ 1 * 2 ^ 39 = if t.forkInline then 2 ^ 39 else 0 := by split <;> simp
  have small : (if t.forkInline then 2 ^ 39 else 0) ≤ 2 ^ 39 := by split <;> omega
  rw [srThread, packFields, BitVec.toNat_ofNat, packed_cons, packed_cons, packed_cons, packed_cons, packed_cons, List.foldl_nil, fork]
  omega

theorem srCore_toNat (c p : Nat) : (srCore c p).toNat = c % 1024 + p % 32 * 2 ^ 16 + Config.deviceId.toNat * 2 ^ 32 := by
  have device := Config.deviceId.isLt
  rw [srCore, packFields, BitVec.toNat_ofNat, packed_cons, packed_cons, packed_cons, List.foldl_nil]
  omega

/-- The model's packed fields of a register are those of the statement. -/
theorem sysReg_toNat {s : State} {c sl : Nat} {t : Thread} (f : Form) (inCore : sl < 64) (base : t.base < 2048) {x : Nat} (energy : x ≠ 8) (few : x < 10) :
    (s.sysReg (opOf s f c sl t) x).toNat = systemRegister s c sl t x := by
  have flags := t.fflags.isLt
  have link := t.lk.isLt
  have lost := (s.core c).nlost.isLt
  match x with
  | 0 => exact (BitVec.toNat_ofNat ..).trans (Nat.mod_mod ..)
  | 1 => exact srThread_toNat _ _ _ _ inCore
  | 2 => exact srCore_toNat _ _
  | 3 =>
    have window : (packFields 64 [(0, 11, t.base), (16, 8, t.size)]).toNat = t.base + t.size % 256 * 2 ^ 16 := by
      rw [packFields, BitVec.toNat_ofNat, packed_cons, packed_cons, List.foldl_nil]
      omega
    exact window
  | 4 => exact BitVec.toNat_ofNat ..
  | 5 => exact BitVec.toNat_setWidth_of_le (by decide)
  | 6 => exact BitVec.toNat_setWidth_of_le (by decide)
  | 7 => exact BitVec.toNat_ofNat ..
  | 9 => exact BitVec.toNat_setWidth_of_le (by decide)

/-! ### SAMPLE (R148, R396, R397, R399) -/

/-- A count of a partition, as it stands (R399). -/
def State.countAt (s : State) (p i : Nat) : Option Nat := (s.ctx? p).map fun x => tabGet x.counts i 0

theorem State.countAt_congr {s u : State} (h : u.ctxs = s.ctxs) (p i : Nat) : u.countAt p i = s.countAt p i := by
  rw [State.countAt, State.countAt, State.ctx?, State.ctx?, h]

theorem State.countAt_countCore_other (s : State) {i j : Nat} (h : j ≠ i) (c n p : Nat) : (s.countCore c i n).countAt p j = s.countAt p j := by
  unfold State.countCore
  split
  case h_2 => rfl
  case h_1 q part =>
    unfold State.count State.modCtx
    cases found : s.ctx? q with
    | none => rfl
    | some x =>
      by_cases same : p = q
      · subst same
        simp only [State.countAt, State.ctx?_setCtx_self, found, Option.map_some]
        exact congrArg some (congrArg (Option.getD · 0) (tabGet?_set_other _ _ h))
      · simp only [State.countAt, State.ctx?_setCtx_other _ _ same]

theorem State.countAt_countCore_self {s : State} {c p : Nat} (part : (s.core c).part = some p) (i n : Nat) :
    (s.countCore c i n).countAt p i = (s.countAt p i).map (· + n) := by
  simp only [State.countCore, part, State.count, State.modCtx, State.countAt]
  cases found : s.ctx? p with
  | none => simp [found]
  | some x =>
    simp only [State.ctx?_setCtx_self, Option.map_some]
    exact congrArg some (congrArg (Option.getD · 0) (tabGet?_set_self _ _ _))

/-- Reads count corrections alone. -/
theorem State.countAt_correctRegs (s : State) (c : Nat) (l : List Nat) {j : Nat} (h : j ≠ 11) (p : Nat) :
    (s.correctRegs c l).countAt p j = s.countAt p j := by
  unfold State.correctRegs
  induction l generalizing s with
  | nil => rfl
  | cons e l ih =>
    rw [List.foldl_cons, ih]
    dsimp only
    split
    · have noted : (State.noteCorrected (s.setReg c e { s.regAt c e with flips := 0 }) c 0 true).ctxs = (State.countCore ((s.setReg c e
          { s.regAt c e with flips := 0 }).modCore c fun k => { k with corrected := tabSet k.corrected 0 (tabGet k.corrected 0 0 + 1) }) c 11 1).ctxs := by
        unfold State.noteCorrected
        dsimp only
        split <;> rfl
      rw [State.countAt_congr noted, State.countAt_countCore_other _ h]
      rfl
    · rfl

/-- A flight counts an issue alone. -/
theorem State.countAt_fly (s : State) (o : Op) (fx : List Effect) {j : Nat} (h : j ≠ 2) (p : Nat) : (s.fly o fx).countAt p j = s.countAt p j := by
  have flown : (s.fly o fx).ctxs = ((s.tookTurn o.c o.sl).countCore o.c 2 1).ctxs := State.modThread_ctxs _ _ _ _
  rw [State.countAt_congr flown, State.countAt_countCore_other _ h]
  rfl

/-- Bytes behind a field's (R10). -/
theorem byteNat_behind (k x : Nat) (l : List Byte) {off : Nat} (h : k ≤ off) (n : Nat) :
    byteNat (natBytes k x ++ l) off n = byteNat l (off - k) n := by
  rw [byteNat, byteNat, List.drop_append, List.drop_eq_nil_of_le (by rwa [natBytes_length]), natBytes_length, List.nil_append]

theorem byteNat_first (n x : Nat) (l : List Byte) : byteNat (natBytes n x ++ l) 0 n = x % 2 ^ (8 * n) := by
  have own : (natBytes n x ++ l).take n = natBytes n x := List.take_left' (natBytes_length n x)
  have spells := bytesNat_natBytes_append n x []
  rw [List.append_nil] at spells
  rw [byteNat, List.drop_zero, own, spells]
  rfl

/-- The record of a sample (R397). -/
def State.sampleOf (s : State) (p c sl kind code : Nat) (pc : Addr) (tag : Word) : List Byte :=
  natBytes 8 s.time ++ (natBytes 6 pc.toNat ++ (natBytes 2 c ++ (natBytes 1 sl ++ (natBytes 1 kind ++ (natBytes 1 code ++ (natBytes 1 0 ++
    (natBytes 4 (s.wordAt p pc.toNat).toNat ++ (natBytes 8 tag.toNat ++ []))))))))

/-- Its fields. -/
theorem State.sampleOf_fields (s : State) (p c code : Nat) {sl kind : Nat} (inCore : sl < 64) (known : kind < 256) (pc : Addr) (tag : Word) :
    let r := s.sampleOf p c sl kind code pc tag
    r.length = 32 ∧ byteNat r 0 8 = s.timeQ / 4 % 2 ^ 64 ∧ byteNat r 8 6 = pc.toNat ∧ byteNat r 14 2 = c % 2 ^ 16 ∧ byteNat r 16 1 = sl ∧
      byteNat r 17 1 = kind ∧ byteNat r 24 8 = tag.toNat := by
  refine ⟨by simp [State.sampleOf], ?_, ?_, ?_, ?_, ?_, ?_⟩
  all_goals
    unfold State.sampleOf
    repeat rw [byteNat_behind _ _ _ (by decide)]
    rw [byteNat_first]
  · exact Nat.mod_mod ..
  · exact Nat.mod_eq_of_lt pc.isLt
  · omega
  · omega
  · exact Nat.mod_eq_of_lt tag.isLt

section
variable {s : State} {c p : Nat} (sl kind code : Nat) (pc : Addr) (tag : Word)

theorem State.placeSample_some (part : (s.core c).part = some p) : s.placeSample c sl kind code pc tag =
    { s with samples := s.samples ++ [(p, c, s.sampleOf p c sl kind code pc tag)] } := by
  simp only [State.placeSample, part, State.sampleOf, List.append_assoc, List.append_nil]

theorem State.placeSample_only : s.placeSample c sl kind code pc tag = { s with samples := (s.placeSample c sl kind code pc tag).samples } := by
  unfold State.placeSample
  split <;> rfl

theorem State.placeSample_cores : (s.placeSample c sl kind code pc tag).cores = s.cores := by
  rw [State.placeSample_only]

theorem State.softwareSample_dropped (recent : (s.core c).softSample ≠ 0 ∧ s.cycle < (s.core c).softSample - 1 + 64) :
    s.softwareSample c sl pc tag = s.countCore c 1 1 := if_pos ⟨recent.1, by omega⟩
theorem State.softwareSample_taken (due : ¬((s.core c).softSample ≠ 0 ∧ s.cycle < (s.core c).softSample - 1 + 64)) :
    s.softwareSample c sl pc tag = (s.modCore c fun k => { k with softSample := s.cycle + 1 }).placeSample c sl 1 1 pc tag :=
  if_neg fun recent => due ⟨recent.1, by omega⟩

/-- A software sample changes its core, a count and the samples. -/
theorem State.softwareSample_only : s.softwareSample c sl pc tag =
    { s with
      cores := (s.softwareSample c sl pc tag).cores
      ctxs := (s.softwareSample c sl pc tag).ctxs
      samples := (s.softwareSample c sl pc tag).samples } := by
  by_cases recent : (s.core c).softSample ≠ 0 ∧ s.cycle < (s.core c).softSample - 1 + 64
  · rw [State.softwareSample_dropped _ _ _ recent, State.countCore_eq]
  · rw [State.softwareSample_taken _ _ _ recent, State.placeSample_only]
    rfl
end

end Sys2Proof.Machine

namespace Sys2Proof.Slice0
open Sys2Proof.Machine
set_option Elab.async false

/-- Settles O19: each issues with its effect; QTEST by whether the thread has the queue. -/
theorem queueTestAndEventIssues : Obligations.QueueTestAndEventIssues := by
  intro s c sl t n ra rb rd ta tb h
  have major : 0x1D < 0x3C := by decide
  refine ⟨fun a => ⟨?_, ?_, fun b => ?_⟩, fun d => ⟨?_, fun named => ?_, fun unnamed => ?_⟩, ?_⟩
  · exact h.acts_as (FormReady.source (major := 0x3C) (fn := 0) (ta := ta) a) major (body := fun o s => s.fly o [.evtTerm n.toNat (s.rx o ra)])
      (by rw [State.rx_opOf, regWord_correctReads])
  · exact h.acts_as (FormReady.source (major := 0x3C) (fn := 2) (ta := ta) a) major (body := fun o s => s.fly o [.evtArm n.toNat (s.rx o ra)])
      (by rw [State.rx_opOf, regWord_correctReads])
  · exact h.acts_as (FormReady.pair (major := 0x3C) (fn := 1) (ta := ta) (tb := tb) a b) major
      (body := fun o s => s.fly o [.evtCnt n.toNat (s.rx o ra) (s.rx o rb)]) (by simp only [State.rx_opOf, regWord_correctReads])
  · exact h.acts_as (FormReady.target (major := 0x3C) (fn := 3) (field := 1) d) major rfl
  · exact h.acts_as (FormReady.target (major := 0x3A) (fn := 0) (field := 1) d) (by decide : 0x1D < 0x3A) (if_neg named)
  · exact ⟨_, rfl, rfl, rfl, rfl,
      h.traps_as (FormReady.target (major := 0x3A) (fn := 0) (field := 1) d) (by decide : 0x1D < 0x3A) rfl (if_pos unnamed)⟩
  · have turn : Waits s ((s.tookTurn c sl).blockOn (opOf s (Form.plain 0x3C 4) c sl t) (.term n.toNat)) c sl t (.term n.toNat) :=
      State.blockOn_waits (s := s) (v := s.tookTurn c sl) (o := opOf s (Form.plain 0x3C 4) c sl t) h.slot ⟨fun _ _ _ _ => .refl _, by simp⟩ (fun _ => rfl) _
    exact ⟨_, h.issue (FormReady.plain 0x3C 4) (loopEnd_of_major (.inr major)) _, turn.thread, turn.mem, turn.regs⟩

/-- Settles O24: the generation and the scope decide. -/
theorem waitIssues : Obligations.WaitIssues := by
  intro s c sl t ra h a A scope key
  have runs : exec (.wait ra) s = s.issue (formSys 0x0C [srcB 1 ra] []) fun o s => s.waitAt o (s.rx o ra).toNat := rfl
  have barrier : (s.correctReads (opOf s (formSys 0x0C [srcB 1 ra] []) c sl t)).barrier key = s.barrier key := by
    rw [State.barrier, (s.correctReads_only _).rest]
    rfl
  have goes {fx : List Effect} (own : (s.correctReads (opOf s (formSys 0x0C [srcB 1 ra] []) c sl t)).waitAt
      (opOf s (formSys 0x0C [srcB 1 ra] []) c sl t) A = (s.correctReads (opOf s (formSys 0x0C [srcB 1 ra] []) c sl t)).fly
        (opOf s (formSys 0x0C [srcB 1 ra] []) c sl t) fx) :
      ∃ u, exec (.wait ra) s = .next u ∧ IssueFrame s u c sl [] ∧ InFlight s u c sl t 12 fx (t.pc + 4) := by
    rw [runs]
    exact h.acts_as (.sysA a) (by decide : 0x1D < 0x3D) (by rw [State.rx_opOf, regWord_correctReads]; exact own)
  refine ⟨fun free => goes ?_, fun bit low high passed => goes ?_, fun bit low high now => ?_⟩
  · exact State.waitAt_free free
  · rw [State.waitAt_scope bit low high]
    exact if_neg fun same => passed (by rwa [← barrier])
  · obtain ⟨u, run, waits⟩ := h.waits (FormReady.sysA (sub := 0x0C) a) (by decide : 0x1D < 0x3D) (body := fun o s => s.waitAt o (s.rx o ra).toNat)
      (w := .barrier key (s.barrier key).gen) (by
        rw [State.rx_opOf, regWord_correctReads, State.waitAt_scope bit low high, now]
        exact if_pos ((congrArg Barrier.gen barrier).trans now))
    exact ⟨u, run, waits.thread, waits.regs, waits.mem⟩

/-- Settles O20: each register by its fields; of the energy counter a free value has been taken. -/
theorem systemRegisterIssues : Obligations.SystemRegisterIssues := by
  intro s c sl t rd ra aux h
  have major : 0x1D < 0x3D := by decide
  refine ⟨fun d few energy => ?_, fun d => ?_, fun a => ?_, fun d => ?_⟩
  · have energy' : aux.toNat ≠ 8 := fun e => energy (BitVec.eq_of_toNat_eq e)
    have base : t.base < 2048 := by have := h.inFile; have := d.inWindow; omega
    rw [← sysReg_toNat (formSys 0x01 [] [(0, rd.toNat)]) h.inCore base energy' few, ← widen_eq_ofNat]
    exact h.acts_as (FormReady.target (major := 0x3D) (fn := 1) (field := 0) d) major (by
      simp only [energy', if_false]
      rfl)
  · have value : widen (s.sysReg (opOf s (formSys 0x01 [] [(0, rd.toNat)]) c sl t) 8) = BitVec.ofNat 512 (Config.energy c s.estimates % 2 ^ 64) :=
      (widen_eq_ofNat _).trans (congrArg _ (BitVec.toNat_ofNat ..))
    rw [← value]
    obtain ⟨run, flight, frame⟩ := h.flies_from (FormReady.target (major := 0x3D) (fn := 1) (field := 0) d) major
      (body := fun o s => { s with estimates := s.estimates + 1 }.fly o [.reg (o.entry rd) (widen (s.sysReg o 8))])
      (v := { s with estimates := s.estimates + 1 }) (emptied := []) h.slot rfl rfl (by simp) rfl
    exact ⟨_, run, by rw [frame.rest], frame.regs, fun a => MemKept.of_issueFrame frame a, flight⟩
  · exact h.acts_as (FormReady.sysA (sub := 2) a) major (body := fun o s => s.fly o [.sysSet aux.toNat (s.rx o ra)])
      (by rw [State.rx_opOf, regWord_correctReads])
  · exact h.acts_as (FormReady.target (major := 0x3D) (fn := 3) (field := 0) d) major rfl

/-! ### Thread control and the plain SYS instructions (R138 to R140, R144, R148, R307, R308, R345, R348) -/

theorem sysEffects_issue : ∀ x ∈ sysEffects, ∃ sub : Nat, ∀ (s : State) (rd ra : BitVec 7),
    exec (x.1 rd ra) s = s.issue (formSysRA sub rd ra) fun o s => s.fly o [x.2 (o.entry rd) (s.rx o ra)] := by
  simp only [sysEffects, List.forall_mem_cons, List.not_mem_nil, false_implies, implies_true, and_true]
  and_intros
  all_goals exact ⟨_, fun _ _ _ => rfl⟩

/-- SAMPLE issues, and its sample is placed or dropped. -/
theorem sample_issues {s : State} {c sl : Nat} {t : Thread} {ra : BitVec 7} (h : Issuing s c sl t) (a : Readable s c t ra.toNat) :
    let last := (s.core c).softSample
    ∃ u, exec (.sample ra) s = .next u ∧ RegsKept s u c [] ∧ MemKept s u ∧ InFlight s u c sl t 12 [] (t.pc + 4) ∧
      (last ≠ 0 ∧ s.cycle < last - 1 + 64 → u.samples = s.samples ∧ (u.core c).softSample = last ∧
        ∀ p x, (s.core c).part = some p → s.ctx? p = some x → u.countAt p 1 = some (tabGet x.counts 1 0 + 1)) ∧
      (¬(last ≠ 0 ∧ s.cycle < last - 1 + 64) → (u.core c).softSample = s.cycle + 1 ∧ ∀ p, (s.core c).part = some p →
        ∃ r, u.samples = s.samples ++ [(p, c, r)] ∧ r.length = 32 ∧ byteNat r 0 8 = s.timeQ / 4 % 2 ^ 64 ∧ byteNat r 8 6 = t.pc.toNat ∧
          byteNat r 14 2 = c % 2 ^ 16 ∧ byteNat r 16 1 = sl ∧ byteNat r 17 1 = 1 ∧ byteNat r 24 8 = (regWord s c t ra).toNat) := by
  intro last
  have reads := s.correctReads_only (opOf s (formSys 0x0F [srcB 1 ra] []) c sl t)
  obtain ⟨r, hr⟩ : ∃ r, r = s.correctReads (opOf s (formSys 0x0F [srcB 1 ra] []) c sl t) := ⟨_, rfl⟩
  rw [← hr] at reads
  obtain ⟨v, hv⟩ : ∃ v, v = r.softwareSample c sl t.pc (regWord s c t ra) := ⟨_, rfl⟩
  have only := r.softwareSample_only (c := c) sl t.pc (regWord s c t ra)
  rw [← hv] at only
  obtain ⟨run, flight, frame⟩ := h.flies_from (FormReady.sysA (sub := 0x0F) a) (by decide : 0x1D < 0x3D) (v := v) (t' := t) (fx := []) (emptied := [])
    (body := fun o s => (s.softwareSample o.c o.sl o.pc (s.rx o ra)).fly o [])
    (by rw [only, reads.rest]; exact h.slot) (by rw [only, reads.rest]) (by rw [only, reads.rest]) (by simp)
    (by rw [State.rx_opOf, ← hr, hr, regWord_correctReads, ← hr, hv]; rfl)
  have regs : RegsKept s v c [] := ⟨fun c' n _ _ => by
    rw [State.regAt_congr (s := r) (u := v) (by rw [only])]
    exact reads.regs c' n, by simp⟩
  have mem : MemKept s v := fun b => Eq.trans (by rw [only]; rfl) (MemKept.of_flips reads b)
  have last_eq : (r.core c).softSample = last := (congrArg Core.softSample (reads.cores c) :)
  have stands (x : Nat) (own : (v.core c).softSample = x) : ((v.fly (opOf s (formSys 0x0F [srcB 1 ra] []) c sl t) []).core c).softSample = x :=
    (congrArg Core.softSample (frame.cores c) :).trans own
  have sampled : (v.fly (opOf s (formSys 0x0F [srcB 1 ra] []) c sl t) []).samples = v.samples := (congrArg State.samples frame.rest :)
  refine ⟨_, run, ⟨fun c' n inFile out => (regs.1 c' n inFile out).trans (frame.regs.1 c' n inFile out), by simp⟩,
    fun b => (MemKept.of_issueFrame frame b).trans (mem b), flight, fun recent => ?_, fun due => ?_⟩
  · have drops : v = r.countCore c 1 1 := hv.trans (State.softwareSample_dropped _ _ _ (by rwa [last_eq, reads.cycle]))
    refine ⟨sampled.trans ?_, stands _ ?_, fun p x part found => ?_⟩
    · rw [drops, State.countCore_samples, reads.rest]
    · rw [drops, State.core_countCore, last_eq]
    · have part : (r.core c).part = some p := (reads.part c).trans part
      have before : r.countAt p 1 = some (tabGet x.counts 1 0) := by
        rw [hr, State.correctReads, State.countAt_correctRegs _ _ _ (by decide), State.countAt, found]
        rfl
      refine (State.countAt_fly _ _ _ (by decide) p).trans ?_
      rw [drops, State.countAt_countCore_self part, before]
      rfl
  · have takes := hv.trans (State.softwareSample_taken (s := r) (c := c) sl t.pc (regWord s c t ra) (by rwa [last_eq, reads.cycle]))
    refine ⟨stands _ ?_, fun p part => ?_⟩
    · rw [takes, State.core_congr (State.placeSample_cores ..), State.core_modCore, if_pos rfl, reads.cycle]
    · have part' : ((r.modCore c fun k => { k with softSample := r.cycle + 1 }).core c).part = some p := by
        rw [State.core_modCore, if_pos rfl]
        exact (reads.part c).trans part
      rw [State.placeSample_some _ _ _ _ _ part'] at takes
      have fields := State.sampleOf_fields (r.modCore c fun k => { k with softSample := r.cycle + 1 }) p c 1 (kind := 1) h.inCore (by decide) t.pc
        (regWord s c t ra)
      rw [show (r.modCore c fun k => { k with softSample := r.cycle + 1 }).timeQ = s.timeQ by rw [reads.rest]; rfl] at fields
      have before : r.samples = s.samples := by rw [reads.rest]
      refine ⟨_, sampled.trans ?_, fields⟩
      rw [takes]
      exact congrArg (· ++ _) before

/-- Settles O22: each goes in flight with its effect; SAMPLE acts at its issue. -/
theorem sysIssues : Obligations.SysIssues := by
  refine ⟨fun x hx s c sl t rd ra h a d => ?_, fun s c sl t h => ⟨?_, ?_, ?_⟩, fun s c sl t rd ra h a d => ?_, fun s c sl t ra h a => ?_⟩
  · obtain ⟨sub, runs⟩ := sysEffects_issue x hx
    rw [runs]
    exact h.acts_as (FormReady.sysRA a d) (by decide : 0x1D < 0x3D) (by rw [State.rx_opOf, regWord_correctReads]; rfl)
  · exact h.acts_as (FormReady.plain 0x3D 0) (by decide : 0x1D < 0x3D) rfl
  · have ready : FormReady s c t { formSys 0x06 [] [] with ends := true } := by constructor <;> simp [formSys, Form.plain]
    exact h.acts_as ready (by decide : 0x1D < 0x3D) rfl
  · exact h.acts_as (FormReady.plain 0x3D 7) (by decide : 0x1D < 0x3D) rfl
  · exact h.acts_as (FormReady.start (sub := 5) a d) (by decide : 0x1D < 0x3D)
      (body := fun o s => s.fly o [.thrStart (o.entry rd) (s.rx o rd) (s.rx o ra)]) (by simp only [State.rx_opOf, regWord_correctReads]; rfl)
  · exact sample_issues h a

end Sys2Proof.Slice0
end

/-! PROOFS. O16 to O18, O21 and O23: queues, TRAP, and sends and waits between cores (R129 to R132, R141 to R143, R148, R160). -/
section
namespace Sys2Proof.Machine
open Sys2Proof.Slice0
set_option Elab.async false

/-! ### What reads leave of queues and channels (R130, R312) -/

section
variable {s u : State} (h : OnlyFlips s u)
include h

theorem OnlyFlips.cmdRoom (c q : Nat) : u.cmdRoom c q = s.cmdRoom c q := by
  have depends (v : State) : v.cmdRoom c q = Nat.min (16 - (v.core c).still.waitingOn q - v.pushesOf c q)
      (32 - ((v.core c).still.compsOf (q + 1)).length - (v.core c).still.reservedOf (q + 1)) := rfl
  have pushes : u.pushesOf c q = s.pushesOf c q := by
    rw [h.rest]
    rfl
  rw [depends, depends, h.cores, pushes]

theorem OnlyFlips.chanRoom (p key : Nat) : u.chanRoom p key = s.chanRoom p key := by
  have ctxs := h.ctxs p
  unfold State.chanRoom State.chan? State.chanOpen
  cases before : s.ctx? p with
  | none =>
    rw [before, Option.map_none, Option.map_eq_none_iff] at ctxs
    rw [ctxs]
  | some x =>
    rw [before, Option.map_some, Option.map_eq_some_iff] at ctxs
    obtain ⟨y, after, same⟩ := ctxs
    have chans : y.chans = x.chans := (congrArg Ctx.chans same :)
    have takes (k : Chan) : y.takesEntry k = x.takesEntry k := (congrArg (Ctx.takesEntry · k) same :)
    simp only [after, Option.bind_some, chans, takes]
end

/-- A change of a core that does not look at whose turn it is, or at the count of corrections, is the same after reads. -/
theorem OnlyFlips.modCore {s u : State} (h : OnlyFlips s u) (c : Nat) {g : Core → Core} (blind : ∀ k, (g k).still = (g k.still).still) :
    OnlyFlips (s.modCore c g) (u.modCore c g) where
  regs := h.regs
  cores c' := by
    rw [State.core_modCore, State.core_modCore]
    split
    · rw [blind, h.cores, ← blind]
    · exact h.cores c'
  ctxs := h.ctxs
  rest := (congrArg (fun v => { v with cores := (u.modCore c g).cores }) h.rest :)

/-! ### QPUSH (R131) -/

theorem Thread.queueOf_command {q : BitVec 5} (engine : q = 0 ∨ q = 2 ∨ q = 4) (t : Thread) : t.queueOf q.toNat = .command := by
  obtain rfl | rfl | rfl := engine <;> rfl

/-- Only a task channel is an output. -/
theorem Thread.queueOf_output {t : Thread} {q : BitVec 5} {key : Nat} (output : t.queueOf q.toNat = .output key) : engineQueue q = false := by
  have others : ¬(q = 0 ∨ q = 2 ∨ q = 4) := fun engine => by
    rw [Thread.queueOf_command engine] at output
    cases output
  simp only [engineQueue, Bool.or_eq_false_iff, beq_eq_false_iff_ne]
  tauto

/-- The command queue's place of the completion queue is taken (R130, R131). -/
def State.reserve (s : State) (c n : Nat) : State := s.modCore c fun k => k.setReserved (n + 1) (k.reservedOf (n + 1) + 1)

/-- QPUSH's own part. -/
def State.pushAt (s : State) (o : Op) (n : Nat) (rd wc : BitVec 7) (ws : BitVec 5) : State :=
  match o.t.queueOf n with
  | .command =>
    let cmd : BitVec 256 := (s.rv o wc).setWidth 256
    let v := (s.regAt o.c (o.entry wc + 1)).val
    let opr := if ws = 0 then v else withScales v (s.rx o (ws.setWidth 7))
    if natBits cmd.toNat 248 8 ≠ engineCode n then s.trapOp o { trapAt o.pc 0x0F 1 0 with detail := 1 }
    else if natBits cmd.toNat 224 4 ≠ 0 then s.trapOp o { trapAt o.pc 0x0F 2 0 with detail := 2 }
    else if s.cmdRoom o.c n = 0 then s.blockOn o (.room n)
    else (s.reserve o.c n).fly o [.qpush (o.entry rd) n cmd opr]
  | .output key =>
    if s.chanRoom o.p key = 0 then s.blockOn o (.room n) else s.fly o [.qpush (o.entry rd) n 0 (s.rv o wc)]
  | _ => s.trapCode o 0x0A (BitVec.ofNat 64 n) 0

section
variable {s : State} {o : Op} {n : Nat} {rd wc : BitVec 7} {ws : BitVec 5}

theorem State.pushAt_command (queue : o.t.queueOf n = .command) (code : ((s.rv o wc).setWidth 256 : BitVec 256).toNat / 2 ^ 248 = engineCode n)
    (version : ((s.rv o wc).setWidth 256 : BitVec 256).toNat / 2 ^ 224 % 16 = 0) (room : s.cmdRoom o.c n ≠ 0) :
    s.pushAt o n rd wc ws = (s.reserve o.c n).fly o [.qpush (o.entry rd) n ((s.rv o wc).setWidth 256)
      (if ws = 0 then (s.regAt o.c (o.entry wc + 1)).val else withScales (s.regAt o.c (o.entry wc + 1)).val (s.rx o (ws.setWidth 7)))] := by
  have top : natBits ((s.rv o wc).setWidth 256 : BitVec 256).toNat 248 8 = engineCode n :=
    (Nat.mod_eq_of_lt (by have := ((s.rv o wc).setWidth 256 : BitVec 256).isLt; omega)).trans code
  simp only [State.pushAt, queue]
  exact (if_neg (not_not.mpr top)).trans ((if_neg (not_not.mpr version)).trans (if_neg room))

theorem State.pushAt_output {key : Nat} (queue : o.t.queueOf n = .output key) (room : s.chanRoom o.p key ≠ 0) :
    s.pushAt o n rd wc ws = s.fly o [.qpush (o.entry rd) n 0 (s.rv o wc)] := by
  simp only [State.pushAt, queue]
  exact if_neg room
end

section
variable {s : State} {c : Nat} {t : Thread} {q : BitVec 5} {rd wc : BitVec 7} {ws : BitVec 5} {tb : BitVec 1}

theorem FormReady.pushCommand (engine : q = 0 ∨ q = 2 ∨ q = 4) (a : Readable s c t wc.toNat) (b : Readable s c t (wc.toNat + 1))
    (scales : ws ≠ 0 → Readable s c t ws.toNat) (d : Writable s c t rd.toNat) (apart : rd ≠ wc) (apart' : rd.toNat ≠ wc.toNat + 1) :
    FormReady s c t (formPush q rd wc ws tb) := by
  have eng : engineQueue q = true := by obtain rfl | rfl | rfl := engine <;> rfl
  have reg : (ws.setWidth 7 : BitVec 7).toNat = ws.toNat := BitVec.toNat_setWidth_of_le (by decide)
  by_cases unscaled : ws = 0
  · constructor <;> simp [formPush, Form.plain, eng, unscaled, srcT, a, b, d, a.inWindow, b.inWindow, apart, apart']
  · have e := scales unscaled
    constructor <;> simp [formPush, Form.plain, eng, srcT, srcB, reg, a, b, d, e, a.inWindow, b.inWindow, e.inWindow, apart, apart']

theorem FormReady.pushEntry (other : engineQueue q = false) (a : Readable s c t wc.toNat) (d : Writable s c t rd.toNat) (apart : rd ≠ wc) :
    FormReady s c t (formPush q rd wc ws tb) := by
  constructor <;> simp [formPush, Form.plain, other, srcT, a, d, a.inWindow, apart]
end

end Sys2Proof.Machine

namespace Sys2Proof.Slice0
open Sys2Proof.Machine
set_option Elab.async false

/-- Settles O16: to a command queue from the state in which its place is taken, to an output channel from that after the reads. -/
theorem qpushIssues : Obligations.QpushIssues := by
  intro s c sl t q rd wc ws tb h a d apart
  have runs : exec (.qpush q rd wc ws tb) s = s.issue (formPush q rd wc ws tb) fun o s => s.pushAt o q.toNat rd wc ws := rfl
  have reads := s.correctReads_only (opOf s (formPush q rd wc ws tb) c sl t)
  have same : (s.correctReads (opOf s (formPush q rd wc ws tb) c sl t)).rv (opOf s (formPush q rd wc ws tb) c sl t) wc = regVec s c t wc :=
    regVec_correctReads ..
  refine ⟨fun engine b scales apart' code version room => ?_, fun key output room => ?_⟩
  · obtain ⟨run, flight, frame⟩ := h.flies_from (FormReady.pushCommand (tb := tb) engine a b scales d apart apart') (by decide : 0x1D < 0x38)
      (body := fun o s => s.pushAt o q.toNat rd wc ws)
      (v := (s.correctReads (opOf s (formPush q rd wc ws tb) c sl t)).reserve c q.toNat) (t' := t) (emptied := [])
      ((reads.thread c sl).trans h.slot) reads.cycle (by rw [State.reserve, State.modCore_order, reads.rest])
      (by simp) (by
        rw [State.pushAt_command (t.queueOf_command engine) (by rw [same]; exact code) (by rw [same]; exact version)
          (by rw [reads.cmdRoom]; exact room), same, State.rx_opOf, regWord_correctReads, (reads.regs _ _).val]
        rfl)
    exact ⟨_, run, flight, .of_corrects (reads.modCore c fun _ => rfl) frame⟩
  · exact h.acts_as (FormReady.pushEntry (t.queueOf_output output) a d apart) (by decide : 0x1D < 0x38)
      (body := fun o s => s.pushAt o q.toNat rd wc ws) (by
        rw [State.pushAt_output output (by rw [reads.chanRoom]; exact room), same]
        rfl)

end Sys2Proof.Slice0

namespace Sys2Proof.Machine
open Sys2Proof.Slice0
set_option Elab.async false

/-! ### QPOP (R132) -/

theorem Thread.queueOf_completion {q : BitVec 5} (engine : q = 1 ∨ q = 3 ∨ q = 5) (t : Thread) : t.queueOf q.toNat = .completion := by
  obtain rfl | rfl | rfl := engine <;> rfl

/-- The records that a pop leaves in its queue. -/
def Core.left (k : Core) (q : Nat) (rest : List Vec) : Core :=
  if q = 6 then { k with q6 := rest } else if q = 7 then { k with q7 := rest } else k.setComps q rest

section
variable {s : State} {o : Op} {q : BitVec 5} {rd : BitVec 7} {ws : Option (BitVec 7)} {trap : Bool} {v : Vec} {rest : List Vec}

/-- A pop of a queue with a record at its head: the record goes on its way, where it is not one of a fault that the form traps. -/
theorem State.popBody_arrives (head : HeadOf s o.c q v rest) (sound : trap = true → q.toNat < 6 → fieldAt v 4 1 = 0) :
    ∃ acq, popBody q.toNat rd ws trap o s = (s.modCore o.c fun k => k.left q.toNat rest).flyArrive o (o.entry rd) (ws.map o.entry)
      (.value v (ws.map fun _ => popStatus 0 rest.length)) acq [] := by
  obtain ⟨engine, comps⟩ | ⟨rfl, traps⟩ | ⟨rfl, events⟩ := head
  · have queue := o.t.queueOf_completion engine
    have others : (fun k : Core => k.left q.toNat rest) = fun k => k.setComps q.toNat rest := by
      obtain rfl | rfl | rfl := engine <;> rfl
    have few : q.toNat < 6 := by obtain rfl | rfl | rfl := engine <;> decide
    have unfaulted : (if trap then if fieldAt v 4 1 = 0 then none else some (fieldAt v 4 1, v) else none) = none := by
      cases trap
      · rfl
      · simp [sound rfl few]
    exact ⟨some 5, by simp [popBody, queue, State.popReady, comps, State.pop, unfaulted, others]⟩
  · have queue : o.t.queueOf 6 = .traps := rfl
    exact ⟨some 2, by simp [popBody, queue, State.popReady, traps, State.pop, Core.left]⟩
  · have queue : o.t.queueOf 7 = .events := rfl
    exact ⟨some 5, by simp [popBody, queue, State.popReady, events, State.pop, Core.left]⟩

/-- The trap that a pop of a fault's record takes. -/
def popTrap (pc : Addr) (v : Vec) : TrapInfo :=
  { trapAt pc (fieldAt v 4 1) (BitVec.ofNat 64 (v.toNat % 2 ^ 64)) (BitVec.ofNat 64 (fieldAt v 0x10 8)) with
    detail := if fieldAt v 4 1 = 0x0F then fieldAt v 5 1 else 0, flags := 0x10 }

theorem scalarOf_eq (v : Vec) : scalarOf v = BitVec.ofNat 64 (v.toNat % 2 ^ 64) :=
  BitVec.eq_of_toNat_eq (by rw [BitVec.toNat_ofNat, Nat.mod_mod, scalarOf, BitVec.toNat_setWidth])

/-- A trapping pop of a completion record of a fault traps, and the record stays. -/
theorem State.popBody_traps (engine : q = 1 ∨ q = 3 ∨ q = 5) (comps : (s.core o.c).compsOf q.toNat = v :: rest) (fault : fieldAt v 4 1 ≠ 0) :
    popBody q.toNat rd ws true o s = s.trapOp o (popTrap o.pc v) := by
  simp [popBody, o.t.queueOf_completion engine, State.popReady, comps, State.pop, fault, popTrap, scalarOf_eq, trapAt]
end

theorem FormReady.pop {s : State} {c : Nat} {t : Thread} {fn : Nat} {rd : BitVec 7} (d : Writable s c t rd.toNat) :
    FormReady s c t (formPop fn rd none) := by
  constructor <;> simp [formPop, Form.plain, d]
theorem FormReady.popStatus {s : State} {c : Nat} {t : Thread} {fn : Nat} {rd ws : BitVec 7} (d : Writable s c t rd.toNat)
    (e : Writable s c t ws.toNat) (apart : ws ≠ rd) : FormReady s c t (formPop fn rd (some ws)) := by
  constructor <;> simp [formPop, Form.plain, d, e, apart]

/-- A pop's issue (R32, R132). -/
theorem Issuing.pops {s : State} {c sl : Nat} {t : Thread} (h : Issuing s c sl t) {fn : Nat} {q : BitVec 5} {rd : BitVec 7} {ws : Option (BitVec 7)}
    (ready : FormReady s c t (formPop fn rd ws)) {v : Vec} {rest : List Vec} (head : HeadOf s c q v rest) {trap : Bool}
    (sound : trap = true → q.toNat < 6 → fieldAt v 4 1 = 0) :
    ∃ w a, s.issue (formPop fn rd ws) (popBody q.toNat rd ws trap) = .next { w with arrivals := s.arrivals ++ [a] } ∧
      InFlight s w c sl t 12 [] (t.pc + 4) ∧
      IssueFrame (s.modCore c fun k => k.left q.toNat rest) w c sl ([t.base + rd.toNat] ++ (ws.map fun w => t.base + w.toNat).toList) ∧
      a.core = c ∧ a.rd = t.base + rd.toNat ∧ a.ws = (ws.map fun w => t.base + w.toNat) ∧
      a.prod = .value v (ws.map fun _ => popStatus 0 rest.length) ∧ a.due = s.cycle + 12 := by
  have window : rd.toNat < t.size ∧ ∀ w ∈ ws, w.toNat < t.size := by
    refine ⟨(ready.writes (1, rd.toNat) (by simp [formPop])).inWindow, fun w mem => (ready.writes (2, w.toNat) ?_).inWindow⟩
    cases mem
    simp [formPop]
  obtain ⟨acq, own⟩ := State.popBody_arrives (o := opOf s (formPop fn rd ws) c sl t) (rd := rd) (ws := ws) head sound
  refine h.arrives_from (v := s.modCore c fun k => k.left q.toNat rest) ready (by decide : 0x1D < 0x39) h.slot rfl rfl rfl ?_ own
  intro e mem
  obtain ⟨hrd, hws⟩ := window
  rw [List.mem_append, List.mem_singleton, Option.mem_toList, Option.map_eq_some_iff] at mem
  obtain rfl | ⟨w, mem, rfl⟩ := mem
  · exact h.entry_lt hrd
  · exact h.entry_lt (hws w mem)

/-- The queues of the core after a pop. -/
theorem Core.left_queues {k u : Core} {q : BitVec 5} {rest : List Vec} (few : q.toNat < 8) (same : u.still = (k.left q.toNat rest).still) :
    u.compsOf q.toNat = (if q.toNat < 6 then rest else k.compsOf q.toNat) ∧ u.q6 = (if q = 6 then rest else k.q6) ∧
      u.q7 = if q = 7 then rest else k.q7 := by
  have comps : u.compsOf q.toNat = (k.left q.toNat rest).compsOf q.toNat := (congrArg (Core.compsOf · q.toNat) same :)
  have traps : u.q6 = (k.left q.toNat rest).q6 := (congrArg Core.q6 same :)
  have events : u.q7 = (k.left q.toNat rest).q7 := (congrArg Core.q7 same :)
  rw [comps, traps, events]
  by_cases six : q = 6
  · subst six
    exact ⟨rfl, rfl, rfl⟩
  by_cases seven : q = 7
  · subst seven
    exact ⟨rfl, rfl, rfl⟩
  have six' : q.toNat ≠ 6 := fun e => six (BitVec.eq_of_toNat_eq e)
  have seven' : q.toNat ≠ 7 := fun e => seven (BitVec.eq_of_toNat_eq e)
  have engine : q.toNat < 6 := by omega
  simp only [Core.left, six, seven, six', seven', engine, if_true, if_false]
  exact ⟨tabGet_put_self _ _ _ _, rfl, rfl⟩

end Sys2Proof.Machine

namespace Sys2Proof.Slice0
open Sys2Proof.Machine
set_option Elab.async false

theorem HeadOf.few {s : State} {c : Nat} {q : BitVec 5} {v : Vec} {rest : List Vec} (head : HeadOf s c q v rest) : q.toNat < 8 := by
  obtain ⟨rfl | rfl | rfl, -⟩ | ⟨rfl, -⟩ | ⟨rfl, -⟩ := head <;> decide

/-- Settles O17: each form by what its pop sends on its way. -/
theorem qpopIssues : Obligations.QpopIssues := by
  intro s c sl t q rd v rest h d head
  refine ⟨fun i form => ?_, fun ws i e apart form => ?_⟩
  · obtain ⟨fn, trap, runs, sound⟩ : ∃ fn trap, exec i s = s.issue (formPop fn rd none) (popBody q.toNat rd none trap) ∧
        (trap = true → q.toNat < 6 → fieldAt v 4 1 = 0) := by
      obtain rfl | ⟨rfl, sound⟩ := form
      · exact ⟨0, false, rfl, by simp⟩
      · exact ⟨2, true, rfl, fun _ => sound⟩
    obtain ⟨w, a, run, flight, frame, core, entry, status, producer, due⟩ := h.pops (fn := fn) (.pop d) head sound
    have queues := Core.left_queues head.few ((frame.cores c).trans (by rw [State.core_modCore, if_pos rfl]))
    exact ⟨_, a, runs.trans run, flight, rfl, core, entry, status, producer, due, frame.regs.2 _ (by simp), queues⟩
  · obtain ⟨fn, trap, runs, sound⟩ : ∃ fn trap, exec i s = s.issue (formPop fn rd (some ws)) (popBody q.toNat rd (some ws) trap) ∧
        (trap = true → q.toNat < 6 → fieldAt v 4 1 = 0) := by
      obtain rfl | ⟨rfl, sound⟩ := form
      · exact ⟨1, false, rfl, by simp⟩
      · exact ⟨3, true, rfl, fun _ => sound⟩
    obtain ⟨w, a, run, flight, frame, core, entry, status, producer, due⟩ := h.pops (fn := fn) (.popStatus d e apart) head sound
    rw [popStatus, Nat.zero_add] at producer
    exact ⟨_, a, runs.trans run, flight, rfl, core, entry, status, producer, due, frame.regs.2 _ (by simp), frame.regs.2 _ (by simp)⟩

/-- Settles O18: the record's fields are the trap's, and the pop has taken nothing. -/
theorem qpopTrapTakesTheFault : Obligations.QpopTrapTakesTheFault := by
  intro s c sl t q rd ws v rest h d e apart engine comps fault i form
  obtain rfl | rfl := form
  · exact ⟨opOf s (formPop 2 rd none) c sl t, rfl, rfl, rfl, rfl,
      h.traps_as (.pop d) (by decide : 0x1D < 0x39) rfl (State.popBody_traps engine comps fault)⟩
  · exact ⟨opOf s (formPop 3 rd (some ws)) c sl t, rfl, rfl, rfl, rfl,
      h.traps_as (.popStatus d e apart) (by decide : 0x1D < 0x39) rfl (State.popBody_traps engine comps fault)⟩

end Sys2Proof.Slice0

namespace Sys2Proof.Machine
open Sys2Proof.Slice0
set_option Elab.async false

/-! ### TRAP (R148, R160) -/

/-- Who could handle a trap depends on the threads, and on the contexts apart from their counts. -/
theorem State.hasHandler_congr {s u : State} (threads : u.threads = s.threads) (ctxs : ∀ p, (u.ctx? p).map Ctx.still = (s.ctx? p).map Ctx.still)
    (c sl p : Nat) : u.hasHandler c sl p = s.hasHandler c sl p := by
  have depends (v : State) : v.hasHandler c sl p = ((v.threadsOf c).any (fun e => e.1 != sl &&
      (match e.2.state with | .trapped _ => false | .leaving _ _ => true | _ => true)) ||
      (match (v.ctx? p).map Ctx.still with
       | some x => x.saved.any fun v => v.core == c && (match v.thread.state with | .trapped _ => false | _ => true)
       | none => false)) := by
    unfold State.hasHandler
    cases v.ctx? p <;> rfl
  rw [depends, depends, ctxs, State.threadsOf, State.threadsOf, threads]

/-- What TRAP leaves before it traps: its reads, its count and its turn. -/
theorem OnlyFlips.countCore (s : State) (c i n : Nat) : OnlyFlips s (s.countCore c i n) := by
  refine ⟨fun c' n' => ?_, fun c' => ?_, fun p => s.ctx?_countCore_still c i n p, ?_⟩
  · rw [State.regAt_congr (State.countCore_regs s c i n)]
    exact .refl _
  · rw [State.core_countCore]
  · rw [State.countCore_eq]

/-- A trap that an instruction's own part takes, once its reads have been done. -/
theorem OnlyFlips.trapped {s v : State} (flips : OnlyFlips s v) {c sl : Nat} {t : Thread} (h : Issuing s c sl t) (alone : t.coupled = false)
    (handler : s.hasHandler c sl (((s.core c).part).getD 0) = true) {x : TrapInfo} (code : x.code ≠ 0x10) (f : Form) :
    Trapped v (v.trapOp (opOf s f c sl t) x) c sl t x := by
  have same : (v.core c).part = (s.core c).part := flips.part c
  have turned : ((v.tookTurn c sl).core c).part = (v.core c).part := by simp [State.tookTurn, State.core_modCore]
  refine trapped_of_tookTurn (State.trap_trapped (s := v.tookTurn c sl) ((flips.thread c sl).trans h.slot) h.inCore alone ?_ code)
  rw [turned, same]
  exact (State.hasHandler_congr (u := v.tookTurn c sl) (by rw [State.tookTurn_threads, flips.rest]) flips.ctxs c sl _).trans handler

/-- The first fields of a trap's record (R161). -/
theorem trapRecord_head (s : State) (c sl p : Nat) (t : Thread) (x : TrapInfo) (pair : Option (BitVec 32)) :
    fieldAt (trapRecord s c sl p t x pair) 0 1 = x.code % 256 ∧ fieldAt (trapRecord s c sl p t x pair) 1 1 = x.detail % 256 := by
  constructor
  all_goals
    unfold trapRecord
    exact fieldAt_packBytes (by simp [Rising]) (by simp) (by decide)

/-- TRAP's trap. -/
def trapInfo (pc : Addr) (aux : BitVec 6) (a : Word) : TrapInfo :=
  { code := 0x0D, detail := aux.toNat, pc := pc + 4, info := a, second := 0, flags := 0 }

/-! ### NWRITE and WAKE (R141, R142) -/

section
variable {s v : State} (flips : OnlyFlips s v) {o : Op} {target : Nat} (fx : Effect)
include flips

theorem State.sendTo_near (taken : (s.core target).part = some o.p ∨ (s.core target).fenced = true) : v.sendTo o target fx = v.fly o [fx] := by
  refine if_pos ?_
  rw [flips.part, show (v.core target).fenced = (s.core target).fenced from (congrArg Core.fenced (flips.cores target) :)]
  exact taken.symm
theorem State.sendTo_far (other : (s.core target).part ≠ some o.p) (live : (s.core target).fenced = false) :
    v.sendTo o target fx = v.trapOp o (trapAt o.pc 0x07 (BitVec.ofNat 64 target) 1) := by
  refine if_neg ?_
  rw [flips.part, show (v.core target).fenced = (s.core target).fenced from (congrArg Core.fenced (flips.cores target) :), live]
  simpa using other
end

/-- Their own parts, by the word that names the target. -/
def State.nwriteAt (s : State) (o : Op) (d : Nat) (v : Vec) : State :=
  let target := clusterOf o.c * 4 + natBits d 0 2
  s.sendTo o target (.nwrite target (natBits d 8 6) (natBits d 16 7) v)
def State.wakeAt (s : State) (o : Op) (d : Nat) (a : Word) : State :=
  s.sendTo o (natBits d 0 10) (.wake (natBits d 0 10) (natBits d 16 6) a)

theorem State.nwriteAt_eq (s : State) (o : Op) (d : Nat) (v : Vec) : s.nwriteAt o d v =
    s.sendTo o (o.c / 4 * 4 + d % 4) (.nwrite (o.c / 4 * 4 + d % 4) (d / 2 ^ 8 % 64) (d / 2 ^ 16 % 128) v) := by
  rw [State.nwriteAt, natBits_low]
  rfl
theorem State.wakeAt_eq (s : State) (o : Op) (d : Nat) (a : Word) : s.wakeAt o d a =
    s.sendTo o (d % 1024) (.wake (d % 1024) (d / 2 ^ 16 % 64) a) := by
  rw [State.wakeAt, natBits_low]
  rfl

/-! ### NWAIT (R143) -/

/-- The oldest value for a register, by its place in the landing queue. -/
theorem findIdx?_of_find? {α : Type} {p : α → Bool} {l : List α} {a : α} (found : l.find? p = some a) :
    ∃ i, l.findIdx? p = some i ∧ l[i]? = some a := by
  induction l with
  | nil => cases found
  | cons b l ih =>
    rw [List.find?_cons] at found
    rw [List.findIdx?_cons]
    cases holds : p b with
    | true =>
      rw [holds] at found
      exact ⟨0, rfl, found⟩
    | false =>
      rw [holds] at found
      obtain ⟨i, index, at_⟩ := ih found
      exact ⟨i + 1, by simp [index], at_⟩

/-- NWAIT's own parts, into the entry e. -/
def State.nwaitNbrAt (s : State) (o : Op) (e reg : Nat) : State :=
  if o.t.armNbr.isSome then s.blockOn o (.arming false)
  else
    let q := (s.core o.c).landing
    match q.findIdx? fun l => l.slot == o.sl && l.reg == reg with
    | some i =>
      let v := (q[i]?).bind (·.val)
      let from_ := ((q[i]?).map (·.from_)).getD 0
      let s := s.modCore o.c fun k => { k with landing := listDrop k.landing i }
      s.flyArrive o e none (match v with | some v => .value v none | none => .token (some from_) none) none []
    | none => (s.modThread o.c o.sl fun t => { t with armNbr := some e }).flyTo o [] o.next .none 0 [e]
def State.nwaitNtfAt (s : State) (o : Op) (e : Nat) : State :=
  if o.t.armNtf.isSome then s.blockOn o (.arming true)
  else match o.t.notify with
    | some v => (s.modThread o.c o.sl fun t => { t with notify := none }).flyArrive o e none (.value (widen v) none) none []
    | none => (s.modThread o.c o.sl fun t => { t with armNtf := some e }).flyTo o [] o.next .none 0 [e]

section
variable {s : State} {o : Op} {e reg : Nat}

theorem State.nwaitNbrAt_arms (unarmed : o.t.armNbr = none) (nothing : (s.core o.c).landing.find? (fun l => l.slot == o.sl && l.reg == reg) = none) :
    s.nwaitNbrAt o e reg = (s.modThread o.c o.sl fun t => { t with armNbr := some e }).flyTo o [] o.next .none 0 [e] := by
  have absent : (s.core o.c).landing.findIdx? (fun l => l.slot == o.sl && l.reg == reg) = none := by
    rw [List.findIdx?_eq_none_iff]
    rw [List.find?_eq_none] at nothing
    exact fun l mem => Bool.eq_false_of_not_eq_true (nothing l mem)
  simp only [State.nwaitNbrAt, unarmed, absent]
  rfl

theorem State.nwaitNbrAt_takes {i : Nat} {l : Landing} (unarmed : o.t.armNbr = none)
    (index : (s.core o.c).landing.findIdx? (fun l => l.slot == o.sl && l.reg == reg) = some i) (at_ : (s.core o.c).landing[i]? = some l) :
    s.nwaitNbrAt o e reg = (s.modCore o.c fun k => { k with landing := listDrop k.landing i }).flyArrive o e none
      (match l.val with | some v => .value v none | none => .token (some l.from_) none) none [] := by
  simp only [State.nwaitNbrAt, unarmed, index, at_]
  rfl

theorem State.nwaitNtfAt_arms (unarmed : o.t.armNtf = none) (nothing : o.t.notify = none) :
    s.nwaitNtfAt o e = (s.modThread o.c o.sl fun t => { t with armNtf := some e }).flyTo o [] o.next .none 0 [e] := by
  simp only [State.nwaitNtfAt, unarmed, nothing]
  rfl

theorem State.nwaitNtfAt_takes {v : Word} (unarmed : o.t.armNtf = none) (latched : o.t.notify = some v) :
    s.nwaitNtfAt o e = (s.modThread o.c o.sl fun t => { t with notify := none }).flyArrive o e none (.value (widen v) none) none [] := by
  simp only [State.nwaitNtfAt, unarmed, latched]
  rfl
end

section
variable {s : State} {c sl : Nat} {t : Thread} (h : Issuing s c sl t) {rd : BitVec 7} (d : Writable s c t rd.toNat)
include h d

theorem Issuing.destination : ∀ e ∈ [t.base + rd.toNat], e < 2048 := by
  simpa using h.entry_lt d.inWindow

/-- NWAIT arms: its thread is changed by g, and its destination is empty. -/
theorem Issuing.arms {body : Op → State → State} (g : Thread → Thread)
    (arms : body (opOf s (formSys 0x0E [] [(0, rd.toNat)]) c sl t) s =
      (s.modThread c sl g).flyTo (opOf s (formSys 0x0E [] [(0, rd.toNat)]) c sl t) []
        (opOf s (formSys 0x0E [] [(0, rd.toNat)]) c sl t).next .none 0 [t.base + rd.toNat]) :
    ∃ u f, s.issue (formSys 0x0E [] [(0, rd.toNat)]) body = .next u ∧ u.thread? c sl = some { g t with state := .inflight f } ∧ f.fx = [] ∧
      f.due = s.cycle + 12 ∧ RegsKept s u c [t.base + rd.toNat] ∧ MemKept s u := by
  have changed := s.modThread_eq c sl g
  obtain ⟨run, ⟨f, thread, effects, -, -, due⟩, frame⟩ := h.flies_from (FormReady.target (major := 0x3D) (fn := 0x0E) (field := 0) d)
    (by decide : 0x1D < 0x3D) (v := s.modThread c sl g) (s.thread?_modThread h.slot g) (by rw [changed]) (by rw [changed]) (h.destination d) arms
  refine ⟨_, f, run, thread, effects, due, ⟨fun c' n inFile out => ?_, frame.regs.2⟩, fun a => (MemKept.of_issueFrame frame a).trans ?_⟩
  · rw [← State.regAt_congr (State.modThread_regs s c sl g)]
    exact frame.regs.1 c' n inFile out
  · rw [changed]
    rfl
end

end Sys2Proof.Machine

namespace Sys2Proof.Slice0
open Sys2Proof.Machine
set_option Elab.async false

/-- Settles O21: the trap of an instruction whose reads and count are done. -/
theorem trapTakesItsTrap : Obligations.TrapTakesItsTrap := by
  intro s c sl t ra aux h a alone owes handler
  have ready : FormReady s c t (formSys 0x04 [srcB 1 ra] []) := .sysA a
  have flips := (s.correctReads_only (opOf s (formSys 0x04 [srcB 1 ra] []) c sl t)).trans
    (.countCore (s.correctReads (opOf s (formSys 0x04 [srcB 1 ra] []) c sl t)) c 2 1)
  have trapped := flips.trapped h alone handler (x := trapInfo t.pc aux (regWord s c t ra)) (by decide : 0x0D ≠ 0x10) (formSys 0x04 [srcB 1 ra] [])
  obtain ⟨v, slot, stands, pc, -⟩ := trapped.thread
  obtain ⟨r, traps, core, slot', -, cycle, body⟩ := trapped.record
  have fields := trapRecord_head ((s.correctReads (opOf s (formSys 0x04 [srcB 1 ra] []) c sl t)).countCore c 2 1) c sl
    (((((s.correctReads (opOf s (formSys 0x04 [srcB 1 ra] []) c sl t)).countCore c 2 1).core c).part).getD 0) t (trapInfo t.pc aux (regWord s c t ra)) none
  rw [← body] at fields
  refine ⟨_, v, _, r, ?_, slot, stands, pc, rfl, ?_, core, slot', cycle.trans flips.cycle, fields.1, fields.2.trans (Nat.mod_eq_of_lt ?_), ⟨fun c' n _ _ => ?_, by simp⟩,
    fun b => (trapped.mem b).trans (MemKept.of_flips flips b)⟩
  · refine (h.issue ready (loopEnd_of_major (.inr (by decide : 0x1D < 0x3D))) _).trans ?_
    rw [← regWord_correctReads s (opOf s (formSys 0x04 [srcB 1 ra] []) c sl t) c t ra]
    rfl
  · rw [traps, flips.rest]
  · exact aux.isLt.trans (by decide)
  · rw [trapped.regs]
    exact flips.regs c' n

/-- Settles O23: a send by the partition of its target, a wait by what has landed. -/
theorem neighbourIssues : Obligations.NeighbourIssues := by
  refine ⟨fun s c sl t rd ra h a e => ?_, fun s c sl t rd h d => ⟨fun unarmed nothing => ?_, fun l unarmed landed => ?_, fun unarmed nothing => ?_,
    fun v unarmed latched => ?_⟩⟩
  · have near := s.correctReads_only (opOf s (formSys 0x0A [srcB 1 ra, srcB 0 rd] []) c sl t)
    have far := s.correctReads_only (opOf s (formSys 0x0D [srcB 1 ra, srcB 0 rd] []) c sl t)
    have major : 0x1D < 0x3D := by decide
    intro n nearCore farCore
    have nwrite : exec (.nwrite rd ra) s = s.issue (formSys 0x0A [srcB 1 ra, srcB 0 rd] []) fun o s => s.nwriteAt o (s.rx o rd).toNat (s.rv o ra) := rfl
    have wake : exec (.wake rd ra) s = s.issue (formSys 0x0D [srcB 1 ra, srcB 0 rd] []) fun o s => s.wakeAt o (s.rx o rd).toNat (s.rx o ra) := rfl
    refine ⟨fun taken => ?_, fun taken => ?_, fun other live => ⟨_, opOf s (formSys 0x0A [srcB 1 ra, srcB 0 rd] []) c sl t, near, rfl, rfl, rfl, rfl, ?_⟩,
      fun other live => ⟨_, opOf s (formSys 0x0D [srcB 1 ra, srcB 0 rd] []) c sl t, far, rfl, rfl, rfl, rfl, ?_⟩⟩
    · rw [nwrite]
      exact h.acts_as (.sysAD a e) major (by
        rw [State.rx_opOf, State.rv_opOf, regWord_correctReads, regVec_correctReads, State.nwriteAt_eq]
        exact State.sendTo_near near _ taken)
    · rw [wake]
      exact h.acts_as (.sysAD a e) major (by
        rw [State.rx_opOf, State.rx_opOf, regWord_correctReads, regWord_correctReads, State.wakeAt_eq]
        exact State.sendTo_near far _ taken)
    · rw [nwrite, h.issue (.sysAD a e) (loopEnd_of_major (.inr major)), State.rx_opOf, regWord_correctReads, State.nwriteAt_eq]
      exact congrArg _ (State.sendTo_far near _ other live)
    · rw [wake, h.issue (.sysAD a e) (loopEnd_of_major (.inr major)), State.rx_opOf, regWord_correctReads, State.wakeAt_eq]
      exact congrArg _ (State.sendTo_far far _ other live)
  · obtain ⟨u, f, run, thread, arm⟩ := h.arms d (body := fun o s => s.nwaitNbrAt o (o.entry rd) rd.toNat) (fun v => { v with armNbr := some (t.base + rd.toNat) })
      (State.nwaitNbrAt_arms (s := s) (e := t.base + rd.toNat) (o := opOf s (formSys 0x0E [] [(0, rd.toNat)]) c sl t) unarmed nothing)
    exact ⟨u, f, run, thread, arm⟩
  · obtain ⟨i, index, at_⟩ := findIdx?_of_find? landed
    have dropped : (listDrop (s.core c).landing i).length + 1 = (s.core c).landing.length := by
      have inside : i < (s.core c).landing.length := (List.getElem?_eq_some_iff.mp at_).1
      rw [listDrop, List.length_eraseIdx_of_lt inside]
      omega
    obtain ⟨w, a, run, flight, frame, -, entry, -, producer, due⟩ := h.arrives_from (FormReady.target (major := 0x3D) (fn := 0x0E) (field := 0) d)
      (by decide : 0x1D < 0x3D) (body := fun o s => s.nwaitNbrAt o (o.entry rd) rd.toNat) (v := s.modCore c fun k => { k with landing := listDrop k.landing i })
      (ws := none) h.slot rfl rfl rfl (h.destination d)
      (State.nwaitNbrAt_takes (o := opOf s (formSys 0x0E [] [(0, rd.toNat)]) c sl t) unarmed index at_)
    have queue : (w.core c).landing = listDrop (s.core c).landing i := by
      refine (congrArg Core.landing (frame.cores c) :).trans ?_
      rw [State.core_modCore, if_pos rfl]
      rfl
    exact ⟨_, a, run, flight, rfl, entry, due, producer, (congrArg (List.length · + 1) queue).trans dropped⟩
  · obtain ⟨u, f, run, thread, arm⟩ := h.arms d (body := fun o s => s.nwaitNtfAt o (o.entry rd)) (fun v => { v with armNtf := some (t.base + rd.toNat) })
      (State.nwaitNtfAt_arms (s := s) (e := t.base + rd.toNat) (o := opOf s (formSys 0x0E [] [(0, rd.toNat)]) c sl t) unarmed nothing)
    exact ⟨u, f, run, thread, arm⟩
  · obtain ⟨w, a, run, ⟨f, thread, -⟩, -, -, entry, -, producer, due⟩ := h.arrives_from (FormReady.target (major := 0x3D) (fn := 0x0E) (field := 0) d)
      (by decide : 0x1D < 0x3D) (body := fun o s => s.nwaitNtfAt o (o.entry rd)) (v := s.modThread c sl fun t => { t with notify := none })
      (ws := none) (s.thread?_modThread h.slot _) (State.modThread_cycle ..) (State.modThread_order ..) (State.modThread_arrivals ..) (h.destination d)
      (State.nwaitNtfAt_takes (o := opOf s (formSys 0x0E [] [(0, rd.toNat)]) c sl t) unarmed latched)
    exact ⟨_, f, a, run, thread, rfl, entry, due, producer⟩

end Sys2Proof.Slice0
end

/-! PROOFS. O55 is refuted: the record of a notice shows the pair at its saved PC (R161, R164; log 87). -/
section
namespace Sys2Proof.Slice0
open Sys2Proof.Machine
set_option Elab.async false

/-- A thread that stands at a ONCE pair in its context's code, and another that could handle its trap. -/
def standingThread : Thread := { Thread.start 0 0x10000#48 0 128 1 0 with uid := 1 }
def atPair : State :=
  { State.reset.withFetchWord 64 0x00082064FC000000 with threads := [(0, standingThread), (1, { standingThread with uid := 2, base := 128 })] }
/-- A notice (R164), whose code is 0x10. -/
def noticeAtPair : TrapInfo := { code := 0x10, detail := 0, pc := 0x10000, info := 0, second := 0, flags := 0 }

/-- Byte 3 of the notice's record has bit 2 set, since a pair stands at its saved PC. -/
theorem noticeAtPair_flags : (atPair.trap 0 0 noticeAtPair none).traps.map (fun r => fieldAt r.body 3 1) = [4] := by decide +kernel
/-- That of a record without a pair has none. -/
theorem noticeWithoutPair_flags : fieldAt (trapRecord atPair 0 0 (((atPair.core 0).part).getD 0) standingThread noticeAtPair none) 3 1 = 0 := by
  decide +kernel

/-- Refutes O55: its first clause gives every trap, and so a notice (code 0x10, R164), the record of a trap without a pair; but the record of a
notice whose saved PC stands at a ONCE pair shows the pair in byte 3, bit 2. -/
theorem not_trapSavesAndResumeReturns : ¬ Obligations.TrapSavesAndResumeReturns := by
  rintro ⟨saves, -, -⟩
  obtain ⟨trapped, -⟩ := saves atPair 0 0 standingThread noticeAtPair rfl (by decide) (by decide) (by decide) (by decide) rfl (by decide +kernel)
    (by decide +kernel)
  obtain ⟨r, traps, -, -, -, -, body⟩ := trapped.record
  have flags := noticeAtPair_flags
  rw [traps, show atPair.traps = [] from rfl, List.nil_append, List.map_singleton, body, noticeWithoutPair_flags] at flags
  cases flags

end Sys2Proof.Slice0
end

/-! PROOFS. O37: q7, end-of-stream tokens and messages go on (R130, R173, R297, R345 to R347). -/
section
namespace Sys2Proof.Machine
open Sys2Proof.Slice0
set_option Elab.async false

/-! ### q7 and end-of-stream tokens (R130, R297) -/

/-- A change of one core changes the table of cores alone. -/
theorem State.modCore_only (s : State) (c : Nat) (g : Core → Core) :
    (s.modCore c g).core c = g (s.core c) ∧ s.modCore c g = { s with cores := (s.modCore c g).cores } :=
  ⟨by rw [State.core_modCore, if_pos rfl], rfl⟩

theorem State.chan?_setChan {s : State} {p key : Nat} {x : Ctx} (found : s.ctx? p = some x) (h : Chan) :
    (s.setChan p key h).chan? p key = some h ∧ s.setChan p key h = { s with ctxs := (s.setChan p key h).ctxs } := by
  unfold State.setChan State.modCtx
  rw [found]
  exact ⟨by simp only [State.chan?, State.ctx?_setCtx_self, Option.bind_some, tabGet?_set_self], rfl⟩

/-- A channel with a held token and a free place takes the token where its message buffer has room (R173, R297). -/
theorem State.mayAppend_of_room {s : State} {p : Nat} {x : Ctx} {h : Chan} (found : s.ctx? p = some x) (held : 0 < h.held)
    (room : h.entries.length < 2 ^ h.depth) (buffer : x.chanAway h = true → x.buffered < 512) : s.mayAppend p h = true := by
  have free : 0 < h.room := Nat.sub_pos_of_lt room
  have takes : x.takesEntry h = true := by
    cases away : x.chanAway h
    · simp [Ctx.takesEntry, away]
    · simp [Ctx.takesEntry, buffer away]
  simp [State.mayAppend, State.chanOpen, found, held, free, takes]

/-! ### Messages (R173, R345 to R347) -/

section
variable {s : State} {n p b z : Nat} {tab : List Word} {m : Message} {rest : List Message}

/-- A message enters its core's arrival queue, or is lost there (R345, R347). -/
def State.takeMessage (s : State) (m : Message) : State := s.modCore m.target fun k => { k with arrivals := k.arrivals ++ [m] }
def State.missMessage (s : State) (m : Message) : State := s.modCore m.target fun k => { k with nlost := k.nlost + 1 }

theorem State.takeMessage_arrivals (s : State) (m : Message) : ((s.takeMessage m).core m.target).arrivals = (s.core m.target).arrivals ++ [m] := by
  rw [State.takeMessage, State.core_modCore, if_pos rfl]
theorem State.missMessage_core (s : State) (m : Message) : ((s.missMessage m).core m.target).nlost = (s.core m.target).nlost + 1 ∧
    ((s.missMessage m).core m.target).arrivals = (s.core m.target).arrivals := by
  rw [State.missMessage, State.core_modCore, if_pos rfl]
  exact ⟨rfl, rfl⟩

section
variable (at_ : s.messages[n]? = some m) (live : (s.core m.target).fenced = false) (home : (s.core m.target).part = some m.part)
include at_ live home

theorem State.amArrive_taken (handlers : (s.core m.target).handlers = some (tab, b, z)) (handled : tab.getD m.handler 0 ≠ 0) :
    s.amArrive n = { s with messages := s.messages.eraseIdx n }.takeMessage m := by
  simp only [State.amArrive, at_, live, home, handlers]
  exact (if_neg Bool.false_ne_true).trans ((if_neg (not_not.mpr rfl)).trans (if_neg handled))

theorem State.amArrive_lost (handlers : (s.core m.target).handlers = none) :
    s.amArrive n = { s with messages := s.messages.eraseIdx n }.missMessage m := by
  simp only [State.amArrive, at_, live, home, handlers]
  exact (if_neg Bool.false_ne_true).trans (if_neg (not_not.mpr rfl))
end

theorem State.replayDiverted_taken {x : Ctx} (found : s.ctx? p = some x) (oldest : x.diverted = m :: rest) (home : (s.core m.target).part = some p)
    (room : (s.core m.target).arrivals.length < 64) (handlers : (s.core m.target).handlers = some (tab, b, z)) (handled : tab.getD m.handler 0 ≠ 0) :
    s.replayDiverted p = (s.setCtx p { x with diverted := rest }).takeMessage m := by
  have first : x.diverted.findIdx? (fun m => (s.core m.target).part == some p && decide ((s.core m.target).arrivals.length < 64)) = some 0 := by
    simp [oldest, List.findIdx?_cons, home, room]
  have handlers' : ((s.setCtx p { x with diverted := rest }).core m.target).handlers = some (tab, b, z) := handlers
  have head : x.diverted[0]? = some m := by rw [oldest]; rfl
  have tail : listDrop x.diverted 0 = rest := by rw [oldest]; rfl
  simp only [State.replayDiverted, found, first, head, tail, handlers']
  exact if_neg handled

/-- The message thread has its identity, and the oldest message has been taken (R347). -/
def State.identified (s : State) (c : Nat) (rest : List Message) : State :=
  let s := s.modCore c fun k => { k with arrivals := rest }
  if (s.core c).messageUid = 0 then { s.modCore c (fun k => { k with messageUid := s.uid }) with uid := s.uid + 1 } else s

theorem State.identified_spec (s : State) (c : Nat) (rest : List Message) :
    ((s.identified c rest).core c).arrivals = rest ∧
    ((s.identified c rest).core c).messageUid = (if (s.core c).messageUid = 0 then s.uid else (s.core c).messageUid) ∧
    s.identified c rest = { s with cores := (s.identified c rest).cores, uid := (s.identified c rest).uid } := by
  have taken : (s.modCore c fun k => { k with arrivals := rest }).core c = { s.core c with arrivals := rest } := by rw [State.core_modCore, if_pos rfl]
  by_cases unnamed : (s.core c).messageUid = 0
  · have names : s.identified c rest = { (s.modCore c fun k => { k with arrivals := rest }).modCore c (fun k => { k with messageUid := s.uid }) with
        uid := s.uid + 1 } := if_pos (by rw [taken]; exact unnamed)
    have core : (s.identified c rest).core c = { s.core c with arrivals := rest, messageUid := s.uid } := by
      rw [names]
      refine (State.core_modCore (s.modCore c fun k => { k with arrivals := rest }) c c fun k => { k with messageUid := s.uid }).trans ?_
      rw [if_pos rfl, taken]
    exact ⟨by rw [core], by rw [core, if_pos unnamed], by rw [names]; rfl⟩
  · have same : s.identified c rest = s.modCore c fun k => { k with arrivals := rest } := if_neg (by rw [taken]; exact unnamed)
    exact ⟨by rw [same, taken], by rw [same, taken, if_neg unnamed], by rw [same]; rfl⟩

/-- Two neighbouring entries are written. -/
theorem State.writeReg_pair (s : State) (c b : Nat) (x y : Vec) :
    ((s.writeReg c b x).writeReg c (b + 1) y).regAt c b = Reg.ofVec x ∧ ((s.writeReg c b x).writeReg c (b + 1) y).regAt c (b + 1) = Reg.ofVec y ∧
    (s.writeReg c b x).writeReg c (b + 1) y = { s with regs := ((s.writeReg c b x).writeReg c (b + 1) y).regs } :=
  ⟨(State.regAt_setReg_other _ _ (by omega)).trans (State.regAt_setReg_self ..), State.regAt_setReg_self .., rfl⟩

/-- A thread that starts in a free slot with two entries written (R346, R347). -/
def State.startWithPair (s : State) (c k : Nat) (t : Thread) (x y : Vec) : State :=
  (((s.freeSlot c k).setThread c k t).writeReg c t.base x).writeReg c (t.base + 1) y

theorem State.startWithPair_spec (s : State) (c k : Nat) (t : Thread) (x y : Vec) :
    (s.startWithPair c k t x y).thread? c k = some t ∧ (s.startWithPair c k t x y).core c = s.core c ∧
    (s.startWithPair c k t x y).regAt c t.base = Reg.ofVec x ∧ (s.startWithPair c k t x y).regAt c (t.base + 1) = Reg.ofVec y ∧
    s.startWithPair c k t x y = { s with threads := (s.startWithPair c k t x y).threads, regs := (s.startWithPair c k t x y).regs } := by
  obtain ⟨first, second, others⟩ := State.writeReg_pair ((s.freeSlot c k).setThread c k t) c t.base x y
  refine ⟨?_, ?_, first, second, rfl⟩
  · exact (State.thread?_congr (s := s.startWithPair c k t x y) (by rw [State.startWithPair, others]) _ _).trans (State.thread?_setThread_self ..)
  · rfl

/-- w1 of a handler. -/
theorem messageWord_widened (m : Message) : (Reg.ofVec (widen (messageWord m))).val =
    BitVec.ofNat 512 ((m.dev + m.core * 2 ^ 8 + m.slot * 2 ^ 24 + m.handler * 2 ^ 32) % 2 ^ 64) :=
  (widen_eq_ofNat _).trans (congrArg _ (BitVec.toNat_ofNat ..))

theorem State.amStart_handles {c : Nat} (oldest : (s.core c).arrivals = m :: rest) (idle : s.thread? c 63 = none) (stays : (s.core c).moving = false)
    (handlers : (s.core c).handlers = some (tab, b, z)) (handled : (tab.getD m.handler 0).setWidth 48 ≠ (0 : Addr)) :
    s.amStart c = (s.identified c rest).startWithPair c 63 { Thread.start ((s.identified c rest).core c).messageUid ((tab.getD m.handler 0).setWidth 48) b z 0
      ((s.identified c rest).cycle + 1) with handler := true } m.payload (widen (messageWord m)) := by
  have may : s.mayStartHandler c = true := by simp [State.mayStartHandler, State.slotIdle, oldest, idle, stays]
  have handlers' : ((s.modCore c fun k => { k with arrivals := rest }).core c).handlers = some (tab, b, z) := by
    rw [State.core_modCore, if_pos rfl]
    exact handlers
  simp only [State.amStart, oldest, may, handlers']
  exact (if_neg Bool.false_ne_true).trans (if_neg handled)
end

end Sys2Proof.Machine

namespace Sys2Proof.Slice0
open Sys2Proof.Machine
set_option Elab.async false

/-- A record leaves the backlog for q7 (R130). -/
theorem backlog_delivers {s : State} {c : Nat} {v : Vec} {rest : List Vec} (arg : s.arg.n = c) (backlog : (s.core c).backlog = v :: rest)
    (room : (s.core c).q7.length < 16) :
    ∃ u, exec .q7BacklogDelivery s = .next u ∧ u.core c = { s.core c with q7 := (s.core c).q7 ++ [v], backlog := rest } ∧
      u = { s with cores := u.cores } := by
  subst arg
  have delivers : exec .q7BacklogDelivery s = .next (s.modCore s.arg.n fun k => match k.backlog with
    | v :: rest => if k.mayDeliver then { k with q7 := k.q7 ++ [v], backlog := rest } else k
    | [] => k) := rfl
  have may : (s.core s.arg.n).mayDeliver = true := by simp [Core.mayDeliver, backlog, room]
  obtain ⟨core, only⟩ := s.modCore_only s.arg.n fun k => match k.backlog with
    | v :: rest => if k.mayDeliver then { k with q7 := k.q7 ++ [v], backlog := rest } else k
    | [] => k
  refine ⟨_, delivers, core.trans ?_, only⟩
  rw [backlog]
  exact if_pos may

/-- A held token enters its channel (R297). -/
theorem endOfStream_enters {s : State} {p key : Nat} {h : Chan} {x : Ctx} (arg : s.arg.n = p) (argKey : s.arg.m = key) (found : s.chan? p key = some h)
    (held : 0 < h.held) (room : h.entries.length < 2 ^ h.depth) (ctx : s.ctx? p = some x) (buffer : x.chanAway h = true → x.buffered < 512) :
    ∃ u, exec .endOfStreamAppend s = .next u ∧ u = { s with ctxs := u.ctxs } ∧ u.chan? p key = some { h with
      entries := h.entries ++ [.eos], held := h.held - 1, diverted := h.diverted + if x.chanAway h then 1 else 0 } := by
  subst arg argKey
  have sends : exec .endOfStreamAppend s = .next (s.setChan s.arg.n s.arg.m (x.append { h with held := h.held - 1 } .eos)) := by
    change execEndOfStreamAppend s = _
    simp [execEndOfStreamAppend, found, State.mayAppend_of_room ctx held room buffer, State.sendEntry, ctx]
  obtain ⟨chan, only⟩ := State.chan?_setChan (key := s.arg.m) ctx (x.append { h with held := h.held - 1 } .eos)
  have away : x.chanAway { h with held := h.held - 1 } = x.chanAway h := rfl
  refine ⟨_, sends, only, chan.trans ?_⟩
  rw [Ctx.append, away]
  cases x.chanAway h <;> rfl

/-- The message thread starts on the oldest message (R347). -/
theorem handler_starts {s : State} {c b z : Nat} {tab : List Word} {m : Message} {rest : List Message} (arg : s.arg.n = c)
    (oldest : (s.core c).arrivals = m :: rest) (idle : s.thread? c 63 = none) (stays : (s.core c).moving = false)
    (handlers : (s.core c).handlers = some (tab, b, z)) (handled : (tab.getD m.handler 0).setWidth 48 ≠ (0 : Addr)) :
    ∃ u t, exec .amHandlerStart s = .next u ∧ u.thread? c 63 = some t ∧ t.state = .ready ∧ t.readyAt = s.cycle + 1 ∧ t.handler = true ∧
      t.uid = (if (s.core c).messageUid = 0 then s.uid else (s.core c).messageUid) ∧ (u.core c).messageUid = t.uid ∧
      t.pc = (tab.getD m.handler 0).setWidth 48 ∧ t.base = b ∧ t.size = z ∧ u.regAt c b = Reg.ofVec m.payload ∧
      (u.regAt c (b + 1)).val = BitVec.ofNat 512 ((m.dev + m.core * 2 ^ 8 + m.slot * 2 ^ 24 + m.handler * 2 ^ 32) % 2 ^ 64) ∧
      (u.core c).arrivals = rest ∧ u = { s with threads := u.threads, cores := u.cores, regs := u.regs, uid := u.uid } := by
  subst arg
  have starts : exec .amHandlerStart s = .next (s.amStart s.arg.n) := rfl
  obtain ⟨arrivals, uid, only⟩ := s.identified_spec s.arg.n rest
  have clock : (s.identified s.arg.n rest).cycle = s.cycle := by rw [only]
  rw [starts, State.amStart_handles oldest idle stays handlers handled, clock]
  have word := messageWord_widened m
  generalize State.identified s s.arg.n rest = v, widen (messageWord m) = w, (tab.getD m.handler 0).setWidth 48 = pc at arrivals uid only word handled ⊢
  obtain ⟨thread, core, first, second, others⟩ := v.startWithPair_spec s.arg.n 63 { Thread.start (v.core s.arg.n).messageUid pc b z 0 (s.cycle + 1) with
    handler := true } m.payload w
  generalize v.startWithPair s.arg.n 63 _ _ _ = u at thread core first second others ⊢
  refine ⟨u, _, rfl, thread, rfl, rfl, rfl, uid, by rw [core]; rfl, rfl, rfl, rfl, first, ?_, core ▸ arrivals, ?_⟩
  · exact (congrArg Reg.val second).trans word
  · rw [others, only]

/-- Settles O37: each event by the operation that it is. -/
theorem queuesAndMessagesGoOn : Obligations.QueuesAndMessagesGoOn := by
  refine ⟨fun s c v rest arg backlog room => backlog_delivers arg backlog room,
    fun s p key h arg argKey found held room x ctx buffer => endOfStream_enters arg argKey found held room ctx buffer, ?_,
    fun s c b z tab m rest arg oldest idle stays handlers handled _ _ => handler_starts arg oldest idle stays handlers handled, ?_⟩
  · rintro s n m rfl at_ may live home
    have arrives : exec .amArrival s = .next (s.amArrive s.arg.n) := congrArg _ (if_pos may)
    refine ⟨fun tab b z handlers handled => ?_, fun handlers => ?_⟩
    · rw [arrives, State.amArrive_taken at_ live home handlers handled]
      exact ⟨_, rfl, State.takeMessage_arrivals .., rfl, rfl⟩
    · rw [arrives, State.amArrive_lost at_ live home handlers]
      exact ⟨_, rfl, (State.missMessage_core ..).1, (State.missMessage_core ..).2, rfl, rfl⟩
  · rintro s p b z x tab m rest rfl found oldest home room handlers handled
    have replays : exec .divertedMessageReplay s = .next (s.replayDiverted s.arg.n) := rfl
    rw [replays, State.replayDiverted_taken found oldest home room handlers handled]
    exact ⟨_, rfl, State.takeMessage_arrivals .., State.ctx?_setCtx_self .., rfl⟩

end Sys2Proof.Slice0
end

/-! PROOFS. O42: commands complete (R134, R135, R191, R239, R240, R343). -/
section
namespace Sys2Proof.Machine
open Sys2Proof.Slice0
set_option Elab.async false

/-! ### Tile words (R239) -/

theorem tabGet_tabPut {α : Type} [DecidableEq α] (t : Tab α) (k n : Nat) (v d : α) : tabGet (tabPut t k v d) n d = if n = k then v else tabGet t n d := by
  split
  next same => rw [same, tabGet_put_self]
  next other => exact tabGet_put_other t v d d other

/-- The words of a sorted list are written over a table, each one where it stands. -/
theorem tabGet_foldl_tabPut {α : Type} [DecidableEq α] {t : Tab α} (sorted : tabSorted t = true) (m : Tab α) (d : α) (n : Nat) :
    tabGet (t.foldl (fun m w => tabPut m w.1 w.2 d) m) n d = (tabGet? t n).getD (tabGet m n d) := by
  induction t generalizing m with
  | nil => rfl
  | cons w t ih =>
    obtain ⟨k, v⟩ := w
    obtain ⟨sorted, above⟩ := tabSorted_cons.mp sorted
    rw [List.foldl_cons, ih sorted, tabGet_tabPut]
    by_cases same : n = k
    · -- the later words have greater keys
      have later : tabGet? t n = none := tabGet?_eq_none fun e he => by have := above e he; omega
      rw [later]
      simp [tabGet?, same]
    · simp [tabGet?, same, Ne.symm same]

/-! ### Completion (R134, R135, R191) -/

theorem Core.pulse_eq (k : Core) (n : Nat) : k.pulse n = { k with counters := (k.pulse n).counters } := by
  unfold Core.pulse
  split
  · rfl
  · rfl

/-- A core whose tile words alone differ counts the same pulses. -/
theorem Core.pulse_withTiles (k : Core) (t : Tab (BitVec 32)) (n : Nat) : ({ k with tiles := t }.pulse n).counters = (k.pulse n).counters := by
  unfold Core.pulse
  split <;> rfl

/-- A record enters a core's completion queue, into its reserved place (R134). -/
def Core.recorded (k : Core) (q : Nat) (v : Vec) : Core := (k.setComps q (k.compsOf q ++ [v])).setReserved q (k.reservedOf q - 1)

theorem Core.recorded_compsOf (k : Core) (q : Nat) (v : Vec) : (k.recorded q v).compsOf q = k.compsOf q ++ [v] := tabGet_put_self ..

/-- A core takes records by whom it belongs to and by its partition's end. -/
theorem State.takesRecord_congr {s u : State} {e : CmdEntry} (fenced : (u.core e.core).fenced = (s.core e.core).fenced)
    (part : (u.core e.core).part = (s.core e.core).part) (ending : (u.ctx? e.part).map Ctx.ending = (s.ctx? e.part).map Ctx.ending) :
    u.takesRecord e = s.takesRecord e := by
  unfold State.takesRecord
  rw [fenced, part]
  cases hu : u.ctx? e.part <;> cases hs : s.ctx? e.part <;> simp_all

section
variable {s : State} {e : CmdEntry} (takes : s.takesRecord e = true)
include takes

theorem State.pulseFor_takes : (s.pulseFor e).core e.core = (s.core e.core).pulse e.cnt ∧ (s.pulseFor e).takesRecord e = true ∧
    s.pulseFor e = { s with cores := (s.pulseFor e).cores } := by
  have pulses : s.pulseFor e = s.modCore e.core fun k => k.pulse e.cnt := if_pos takes
  have core : (s.pulseFor e).core e.core = (s.core e.core).pulse e.cnt := by rw [pulses, State.core_modCore, if_pos rfl]
  refine ⟨core, (State.takesRecord_congr ?_ ?_ ?_).trans takes, by rw [pulses]; rfl⟩
  · rw [core, Core.pulse_eq]
  · rw [core, Core.pulse_eq]
  · rw [pulses]; rfl

theorem State.putRecord_takes (o : Outcome) :
    (s.putRecord e o).core e.core = (s.core e.core).recorded (e.queue + 1) (completionRecord e s.time o) ∧
    s.putRecord e o = { s with cores := (s.putRecord e o).cores, ctxs := (s.putRecord e o).ctxs } := by
  obtain ⟨v, puts, counted⟩ : ∃ v : State, s.putRecord e o = v.modCore e.core (fun k => k.recorded (e.queue + 1) (completionRecord e v.time o)) ∧
      v = { s with ctxs := v.ctxs } := by
    refine ⟨if e.queue = 0 then s.count e.part 6 1 else s, if_pos takes, ?_⟩
    split
    · exact State.modCtx_eq ..
    · rfl
  rw [puts]
  generalize v.ctxs = x at counted
  subst counted
  exact ⟨by rw [State.core_modCore, if_pos rfl]; rfl, rfl⟩
end

/-- What a completed command leaves behind, when its core takes its record. -/
theorem State.completeWith_takes {s : State} {a : Active} (takes : s.takesRecord a.entry = true) (extra : List (Nat × Nat × Nat)) :
    ∃ u o, s.completeWith a extra = u ∧
      (o.status = a.status ∧ o.detail = a.detail ∧ o.fault = a.fault.toNat ∧ o.sat = a.sat ∧ o.rewrite = a.rewrite) ∧
      u.core a.entry.core = ((s.core a.entry.core).pulse a.entry.cnt).recorded (a.entry.queue + 1) (completionRecord a.entry s.time o) ∧
      u.active = tabErase s.active a.entry.order ∧ u.locks = s.locks.filter (fun l => l.2.owner != a.entry.order) ∧ MemKept s u := by
  obtain ⟨pulsed, still, only⟩ := State.pulseFor_takes (s := s.dropActive a.entry.order) (e := a.entry) takes
  obtain ⟨o, fields, ends⟩ : ∃ o : Outcome,
      (o.status = a.status ∧ o.detail = a.detail ∧ o.fault = a.fault.toNat ∧ o.sat = a.sat ∧ o.rewrite = a.rewrite) ∧
      s.completeWith a extra = ((((s.dropActive a.entry.order).pulseFor a.entry).putRecord a.entry o).endStream a.entry o) :=
    ⟨_, ⟨rfl, rfl, rfl, rfl, rfl⟩, rfl⟩
  obtain ⟨recorded, puts⟩ := State.putRecord_takes still o
  have time : ((s.dropActive a.entry.order).pulseFor a.entry).time = s.time := by rw [only]; rfl
  refine ⟨_, o, ends, fields, ?_, ?_, ?_, fun b => ?_⟩
  · rw [time, pulsed] at recorded
    exact recorded
  · change (State.putRecord _ _ _).active = _
    rw [puts, only]
    rfl
  · change (State.putRecord _ _ _).locks = _
    rw [puts, only]
    rfl
  · change (State.putRecord _ _ _).homeByte b = _
    rw [puts, only]
    rfl

/-- A command completes from a state that differs from the one before in its contexts and in its core's tile words. -/
theorem State.completeWith_completes {s v : State} {a : Active} {t : Tab (BitVec 32)} (takes : v.takesRecord a.entry = true)
    (core : v.core a.entry.core = { s.core a.entry.core with tiles := t }) (only : v = { s with cores := v.cores, ctxs := v.ctxs })
    (extra : List (Nat × Nat × Nat)) :
    Completed s (v.completeWith a extra) a a.status a.detail ∧ ((v.completeWith a extra).core a.entry.core).tiles = t := by
  obtain ⟨u, o, ends, ⟨status, detail, fault, sat, rewrite⟩, after, active, locks, memory⟩ := State.completeWith_takes takes extra
  rw [ends]
  have pulsed : ((v.core a.entry.core).pulse a.entry.cnt).counters = ((s.core a.entry.core).pulse a.entry.cnt).counters := by
    rw [core, Core.pulse_withTiles]
  have time : v.time = s.time := by rw [only]; rfl
  refine ⟨⟨by rw [active, tabGet?_erase_self], fun l hl => ?_, ⟨o, ?_, status, detail, fault, sat, rewrite⟩, ?_, fun b => ?_⟩, ?_⟩
  · rw [locks] at hl
    simpa using (List.mem_filter.mp hl).2
  · rw [after, Core.recorded_compsOf, time, Core.pulse_eq, core]
    rfl
  · rw [after, ← pulsed]
    rfl
  · rw [memory b, only]
    rfl
  · rw [after, Core.pulse_eq, core]
    rfl

/-- A copy command's schedule is installed, or nothing is (R184). -/
def State.schedInstalled (s : State) (a : Active) : State :=
  match a.sched with
  | some (entries, rounds) => if a.status = 0 then s.installSched a.entry entries rounds else s
  | none => s

theorem State.installSched_spec (s : State) (e : CmdEntry) (entries : List (BitVec 128)) (rounds : Nat) :
    (∀ p, ((s.installSched e entries rounds).ctx? p).map Ctx.ending = (s.ctx? p).map Ctx.ending) ∧
    s.installSched e entries rounds = { s with ctxs := (s.installSched e entries rounds).ctxs } := by
  refine ⟨fun p => ?_, State.modCtx_eq ..⟩
  unfold State.installSched
  cases found : s.ctx? e.part with
  | none => simp only [State.modCtx, found]
  | some x =>
    rw [State.modCtx_some found]
    by_cases same : p = e.part
    · rw [same, State.ctx?_setCtx_self, found]
      rfl
    · exact congrArg (Option.map Ctx.ending) (tabGet?_set_other _ _ same)

theorem State.schedInstalled_spec (s : State) (a : Active) :
    (∀ p, ((s.schedInstalled a).ctx? p).map Ctx.ending = (s.ctx? p).map Ctx.ending) ∧ s.schedInstalled a = { s with ctxs := (s.schedInstalled a).ctxs } := by
  unfold State.schedInstalled
  split
  · split
    · exact s.installSched_spec ..
    · exact ⟨fun _ => rfl, rfl⟩
  · exact ⟨fun _ => rfl, rfl⟩

/-- A collective that waits ends with a status and a detail (R343). -/
theorem State.collFails_waiting {s : State} {k : Nat} {a : Active} (found : tabGet? s.active k = some a) {w : Nat × BitVec 128 × List Member × Nat}
    (waits : a.waiting = some w) (status detail : Nat) :
    tabGet? (s.collFails k status detail).active k = some { a with waiting := none, status := status, detail := detail, due := s.cycle } ∧
    s.collFails k status detail = { s with active := (s.collFails k status detail).active, collEnded := (s.collFails k status detail).collEnded } := by
  obtain ⟨tag, serial, members, since⟩ := w
  have fails : s.collFails k status detail = { s.endColl tag serial with
      active := tabSet s.active k { a with waiting := none, status := status, detail := detail, due := s.cycle } } := by
    simp only [State.collFails, found, waits]
    rfl
  rw [fails]
  exact ⟨tabGet?_set_self .., rfl⟩
end Sys2Proof.Machine

namespace Sys2Proof.Slice0
open Sys2Proof.Machine
set_option Elab.async false

section
variable {s : State} {a : Active}

theorem copy_completes (found : tabGet? s.active s.arg.n = some a) (may : s.mayComplete s.arg.n = true) (takes : s.takesRecord a.entry = true)
    (queue : a.entry.queue = 2) : ∃ u, exec .commandCompletionCopy s = .next u ∧ Completed s u a a.status a.detail := by
  have ends : exec .commandCompletionCopy s = .next (s.copyEnd a) := by
    change execCommandCompletionCopy s = _
    simp only [execCommandCompletionCopy, found]
    rw [if_pos ⟨queue, may⟩]
  obtain ⟨ending, only⟩ := s.schedInstalled_spec a
  have core (c : Nat) : (s.schedInstalled a).core c = s.core c := by rw [only]; rfl
  exact ⟨_, ends, (State.completeWith_completes (s := s) (v := s.schedInstalled a)
    ((State.takesRecord_congr (by rw [core]) (by rw [core]) (ending _)).trans takes) (core _) (by rw [only]) _).1⟩

theorem route_completes (found : tabGet? s.active s.arg.n = some a) (may : s.mayComplete s.arg.n = true) (takes : s.takesRecord a.entry = true)
    (queue : a.entry.queue = 4) : ∃ u, exec .commandCompletionRoute s = .next u ∧ Completed s u a a.status a.detail := by
  have alone : a.waiting.isNone = true := by
    simp only [State.mayComplete, found, Bool.and_eq_true] at may
    obtain ⟨⟨⟨⟨-, alone⟩, -⟩, -⟩, -⟩ := may
    exact alone
  have kept : a.abandoned = false := by simp [Active.abandoned, Option.isNone_iff_eq_none.mp alone]
  have mayEnd : s.routeMayEnd s.arg.n = true := by simp [State.routeMayEnd, found, queue, kept, may]
  have ends : exec .commandCompletionRoute s = .next (s.routeEnd a) := by
    change execCommandCompletionRoute s = _
    simp only [execCommandCompletionRoute, found]
    rw [if_pos mayEnd, if_neg (by rw [kept]; exact Bool.false_ne_true)]
  exact ⟨_, ends, (State.completeWith_completes takes rfl rfl _).1⟩

theorem tile_completes (found : tabGet? s.active s.arg.n = some a) (may : s.mayComplete s.arg.n = true) (takes : s.takesRecord a.entry = true)
    (queue : a.entry.queue = 0) :
    ∃ u, exec .commandCompletionTile s = .next u ∧ Completed s u a a.status a.detail ∧
      (tabSorted a.tiles = true → ∀ n, tabGet (u.core a.entry.core).tiles n 0 = (tabGet? a.tiles n).getD (tabGet (s.core a.entry.core).tiles n 0)) := by
  have ends : exec .commandCompletionTile s = .next (s.tileEnd a) := by
    change execCommandCompletionTile s = _
    simp only [execCommandCompletionTile, found]
    rw [if_pos ⟨queue, may⟩]
  have core : (s.writeTiles a.entry.core a.tiles).core a.entry.core =
      { s.core a.entry.core with tiles := a.tiles.foldl (fun m w => tabPut m w.1 w.2 0) (s.core a.entry.core).tiles } := by
    rw [State.writeTiles, State.core_modCore, if_pos rfl]
  have takes' : (s.writeTiles a.entry.core a.tiles).takesRecord a.entry = true :=
    (State.takesRecord_congr (s := s) (u := s.writeTiles a.entry.core a.tiles) (by rw [core]) (by rw [core]) rfl).trans takes
  obtain ⟨completed, tiles⟩ := State.completeWith_completes takes' core rfl [(0x1C, 4, fieldAt a.extra 4 4), (0x20, 8, s.cycle - a.start)]
  exact ⟨_, ends, completed, fun sorted n => (congrArg (tabGet · n 0) tiles).trans (tabGet_foldl_tabPut sorted ..)⟩

theorem collective_times_out (found : tabGet? s.active s.arg.n = some a) {w : Nat × BitVec 128 × List Member × Nat} (waits : a.waiting = some w)
    (late : w.2.2.2 + 40000000 ≤ s.timeQ) :
    ∃ u, exec .collectiveTimeout s = .next u ∧
      tabGet? u.active s.arg.n = some { a with waiting := none, status := 0x0F, detail := 6, due := s.cycle } ∧
      u = { s with active := u.active, collEnded := u.collEnded } := by
  have due : s.collLate s.arg.n = true := by
    simp only [State.collLate, found, waits]
    exact decide_eq_true late
  have fails : exec .collectiveTimeout s = .next (s.collFails s.arg.n 0x0F 6) := congrArg Host.Outcome.next (if_pos due)
  exact ⟨_, fails, State.collFails_waiting found waits ..⟩
end

/-- Settles O42: each completion is that of `completeWith`, from a state that differs in contexts and tile words alone. -/
theorem commandsComplete : Obligations.CommandsComplete := by
  rintro s k a rfl found -
  exact ⟨fun may takes => ⟨copy_completes found may takes, route_completes found may takes, tile_completes found may takes⟩,
    fun w waits late => collective_times_out found waits late⟩

end Sys2Proof.Slice0
end

/-! PROOFS. O60: memory and scratchpads stay canonical (log 3). Most operations leave them as they are, which one lemma each says of the
two and of the epochs that unwritten scratch bytes depend on. The others write through the operations of Laws/Memory, clear a device, or
change a core's split; one lemma each says that these keep the canonical form. A step is made of both kinds. -/
section
namespace Sys2Proof.Machine

/-- What memory and the scratchpads hold, and the epochs on which unwritten scratch bytes depend (R45, R47, R265). -/
def State.data (s : State) : Tab Byte × Tab Byte × Tab Nat := (s.mem, s.scratch, s.epochs)

@[simp] theorem State.fields_data (s : State) : (s.mem, s.scratch, s.epochs) = s.data := by rfl

/-- The data of a state that is written out: a change of other fields leaves it. -/
@[simp] theorem State.data_mk : ∀ cycle timeQ sag locked slew stretched order uid cur arg inputs draws estimates regs wrote threads cores mem
    scratch epochs badWords lost lines dirty l2 cleared ptes pages pend passed fences arrivals posts nwrites wakes traps active locks copyTurn
    routeTurn barriers ctxs nextAge keystone ports messages joins collEnded host samples outgoing log logSeq correctedNow correctedAt doomed
    dispatch fencedDecks,
    (State.mk cycle timeQ sag locked slew stretched order uid cur arg inputs draws estimates regs wrote threads cores mem
      scratch epochs badWords lost lines dirty l2 cleared ptes pages pend passed fences arrivals posts nwrites wakes traps active locks copyTurn
      routeTurn barriers ctxs nextAge keystone ports messages joins collEnded host samples outgoing log logSeq correctedNow correctedAt doomed
      dispatch fencedDecks).data = (mem, scratch, epochs) := by
  intros
  rfl

@[simp] theorem State.ite_data (p : Prop) [Decidable p] (s u : State) : (if p then s else u).data = if p then s.data else u.data := apply_ite ..

/-- A loop of steps that leave the data leaves it. -/
@[simp] theorem foldl_data {α : Type} {f : State → α → State} (h : ∀ s a, (f s a).data = s.data) (l : List α) (s : State) :
    (l.foldl f s).data = s.data := by
  induction l generalizing s with
  | nil => rfl
  | cons a l ih => exact (ih (f s a)).trans (h s a)

/-- The same for a loop that carries something beside the state. -/
@[simp] theorem foldl_fst_data {α β : Type} {f : State × β → α → State × β} (h : ∀ r a, (f r a).1.data = r.1.data) (l : List α)
    (r : State × β) : (l.foldl f r).1.data = r.1.data := by
  induction l generalizing r with
  | nil => rfl
  | cons a l ih => exact (ih (f r a)).trans (h r a)

/-! ### Operations that leave memory and scratchpads as they are -/

section
variable {c n sl p q id code uid source record key kind rd dev va size src attr base tag entry : Nat} {injected gone : Bool}
   {s : State} {r : Reg} {v : Vec} {t : Thread} {x : TrapInfo} {pc : Addr} {o : Op} {ids : List Nat} {fx : List Effect}
   {acq : Option Nat} {e : CmdEntry} {who : Option (Nat × Nat × Nat)} {d : Done} {a : Word} {serial : BitVec 128} {bs : List Byte}

/-! #### The accessors -/

@[simp] theorem State.setReg_data : (s.setReg c n r).data = s.data := by rfl
@[simp] theorem State.writeReg_data : (s.writeReg c n v).data = s.data := by rfl
@[simp] theorem State.setFull_data {b : Bool} : (s.setFull c n b).data = s.data := by rfl
@[simp] theorem State.setThread_data : (s.setThread c sl t).data = s.data := by rfl
@[simp] theorem State.freeSlot_data : (s.freeSlot c sl).data = s.data := by rfl
@[simp] theorem State.modThread_data {f : Thread → Thread} : (s.modThread c sl f).data = s.data := by
  unfold State.modThread
  split <;> simp
@[simp] theorem State.setCore_data {k : Core} : (s.setCore c k).data = s.data := by rfl
@[simp] theorem State.modCore_data {f : Core → Core} : (s.modCore c f).data = s.data := by rfl
@[simp] theorem State.setCtx_data {x : Ctx} : (s.setCtx p x).data = s.data := by rfl
@[simp] theorem State.modCtx_data {f : Ctx → Ctx} : (s.modCtx p f).data = s.data := by
  unfold State.modCtx
  split <;> simp
@[simp] theorem State.doomCore_data {k : Kill} : (s.doomCore c k).data = s.data := by simp [State.doomCore]
@[simp] theorem State.takeDelay_data : s.takeDelay.2.data = s.data := by rfl
@[simp] theorem State.count_data {idx : Nat} : (s.count p idx n).data = s.data := by simp [State.count]
@[simp] theorem State.countCore_data {idx : Nat} : (s.countCore c idx n).data = s.data := by
  unfold State.countCore
  split <;> simp

/-! #### The order of memory operations -/

@[simp] theorem State.commitAs_data {rel : Option (Nat × Nat)} : (s.commitAs c sl rel).data = s.data := by
  unfold State.commitAs
  split
  · rfl
  · split
    · rfl
    · simp only [State.data_mk, State.setThread_mem, State.setThread_scratch, State.setThread_epochs, State.fields_data]
      refine foldl_fst_data (fun r e => foldl_fst_data (fun r w => ?_) _ _) _ _
      simp
@[simp] theorem State.commit_data : (s.commit c sl).data = s.data := by simp [State.commit]
@[simp] theorem State.discardBuffer_data : (s.discardBuffer c sl).data = s.data := by simp [State.discardBuffer]
@[simp] theorem State.doom_data {l : List Nat} : (s.doom l).data = s.data := by
  unfold State.doom
  split <;> simp
@[simp] theorem State.notePass_data {q : Access} : (s.notePass q).data = s.data := by simp [State.notePass]
@[simp] theorem State.noteFence_data {f : Fence} : (s.noteFence f).data = s.data := by simp [State.noteFence]
@[simp] theorem State.forgetOrders_data : s.forgetOrders.data = s.data := by simp [State.forgetOrders]

/-! #### Traps and the end of threads -/

@[simp] theorem State.signal_data {v : Nat} : (s.signal v).data = s.data := by simp [State.signal]
@[simp] theorem State.signalAfter_data {v : Nat} : (s.signalAfter p v).data = s.data := by simp [State.signalAfter]
@[simp] theorem State.sendAwaited_data : s.sendAwaited.data = s.data := by simp [State.sendAwaited]
@[simp] theorem State.launchEnd_data {killed : Option Nat} : (s.launchEnd p id killed).data = s.data := by
  unfold State.launchEnd
  (repeat' split) <;> simp
@[simp] theorem State.unitEnd_data {killed : Option Nat} : (s.unitEnd p id code pc killed).data = s.data := by
  unfold State.unitEnd
  (repeat' split) <;> simp
@[simp] theorem State.dropPosts_data {f : Post → Bool} : (s.dropPosts f).data = s.data := by simp [State.dropPosts]
@[simp] theorem State.uncouple_data {again : Bool} : (s.uncouple c sl again).data = s.data := by
  unfold State.uncouple
  split <;> simp
@[simp] theorem State.owesAgain_data : (s.owesAgain t).data = s.data := by rfl
@[simp] theorem State.orphanPosts_data : (s.orphanPosts uid).data = s.data := by rfl
@[simp] theorem State.stopInGang_data {pair : Bool} : (s.stopInGang c sl pair).data = s.data := by
  unfold State.stopInGang
  split <;> simp
@[simp] theorem State.dropStream_data {b : Stream} : (s.dropStream b).data = s.data := by
  unfold State.dropStream
  split <;> simp
@[simp] theorem State.releaseStreams_data : (s.releaseStreams c sl).data = s.data := by
  unfold State.releaseStreams
  split <;> simp
@[simp] theorem State.flushThread_data : (s.flushThread c uid).data = s.data := by rfl
@[simp] theorem State.flushCore_data : (s.flushCore c).data = s.data := by rfl
@[simp] theorem State.markGone_data : (s.markGone uid).data = s.data := by rfl
@[simp] theorem State.endThread_data : (s.endThread c sl code pc).data = s.data := by
  simp only [State.endThread]
  (repeat' split) <;> simp
@[simp] theorem State.dropRecord_data : (s.dropRecord c sl).data = s.data := by rfl
@[simp] theorem State.endUnhandled_data : (s.endUnhandled c sl x).data = s.data := by
  unfold State.endUnhandled
  split <;> simp
@[simp] theorem State.trap_data {pair : Option (BitVec 32)} : (s.trap c sl x pair).data = s.data := by
  unfold State.trap
  split <;> simp
@[simp] theorem State.resume_data {next : Bool} : (s.resume c sl next).data = s.data := by
  unfold State.resume
  (repeat' split) <;> simp
@[simp] theorem State.toQ7_data : (s.toQ7 c v).data = s.data := by rfl
@[simp] theorem State.toCtx_data : (s.toCtx p v).data = s.data := by
  unfold State.toCtx
  split <;> simp
@[simp] theorem State.toSite_data {core : Nat} : (s.toSite p id core v).data = s.data := by simp [State.toSite]
@[simp] theorem State.sendRecord_data {o : Outgoing} : (s.sendRecord o).data = s.data := by rfl
@[simp] theorem State.logRecord_data {fields : List (Nat × Nat × Nat)} {outlet : Outlet} : (s.logRecord source fields outlet).data = s.data := by
  rfl
@[simp] theorem State.intoLog_data : (s.intoLog v).data = s.data := by simp [State.intoLog]
@[simp] theorem State.deliverRecord_data {outlet : Outlet} : (s.deliverRecord v outlet).data = s.data := by
  unfold State.deliverRecord
  split <;> simp
@[simp] theorem State.enterRecord_data {o : Outgoing} : (s.enterRecord o).data = s.data := by simp [State.enterRecord]
@[simp] theorem State.enterRecords_data : s.enterRecords.data = s.data := by simp [State.enterRecords]
@[simp] theorem State.noteCorrected_data : (s.noteCorrected c source injected).data = s.data := by simp [State.noteCorrected]
@[simp] theorem State.correctRegs_data {l : List Nat} : (s.correctRegs c l).data = s.data := by simp [State.correctRegs]

/-! #### Records and launches -/

@[simp] theorem State.queueRecord_data {x : Ctx} {r : Vec} {host : Bool} : (s.queueRecord p x r host).2.data = s.data := by rfl
@[simp] theorem State.haltThread_data : (s.haltThread c sl code gone).data = s.data := by
  unfold State.haltThread
  split <;> simp
@[simp] theorem State.noticeCore_data : (s.noticeCore p c).data = s.data := by
  unfold State.noticeCore
  (repeat' split) <;> simp
@[simp] theorem State.stopThread_data : (s.stopThread c sl code gone).data = s.data := by
  unfold State.stopThread
  (repeat' split) <;> simp
@[simp] theorem State.discardSaved_data : (s.discardSaved p record code gone).data = s.data := by
  unfold State.discardSaved
  (repeat' split) <;> simp
@[simp] theorem State.dropStrands_data : (s.dropStrands p ids code).data = s.data := by simp [State.dropStrands]
@[simp] theorem State.cancelCommands_data : (s.cancelCommands p ids).data = s.data := by rfl
@[simp] theorem State.stopUnits_data {self : Option Nat} : (s.stopUnits p ids code gone self).data = s.data := by simp [State.stopUnits]
@[simp] theorem State.endDying_data : s.endDying.data = s.data := by
  refine foldl_data (fun s e => foldl_data (fun s l => ?_) _ _) _ _
  dsimp only
  (repeat' split) <;> simp
@[simp] theorem State.endStranded_data : s.endStranded.data = s.data := by
  refine foldl_data (fun s e => ?_) _ _
  dsimp only
  (repeat' split) <;> simp
@[simp] theorem State.cancelLaunches_data {self : Option Nat} : (s.cancelLaunches p ids code self).data = s.data := by
  simp only [State.cancelLaunches, State.stopUnits_data, State.cancelCommands_data, State.dropStrands_data]
  refine foldl_data (fun s id => ?_) _ _
  (repeat' split) <;> simp
@[simp] theorem State.rewindHold_data : (s.rewindHold c sl uid).data = s.data := by simp [State.rewindHold]
@[simp] theorem State.rewindStop_data : (s.rewindStop p ids).data = s.data := by
  refine foldl_data (fun s e => ?_) _ _
  dsimp only
  (repeat' split) <;> simp
@[simp] theorem State.restoreImageScratch_data {k : Option Checkpoint} : (s.restoreImageScratch p record k).data = s.data := by
  unfold State.restoreImageScratch
  split <;> simp

/-! #### Containment -/

@[simp] theorem State.dropActive_data : (s.dropActive key).data = s.data := by rfl
@[simp] theorem State.severCore_data : (s.severCore c).data = s.data := by rfl
@[simp] theorem State.doomDeck_data {deck : Nat} : (s.doomDeck deck injected).data = s.data := by simp [State.doomDeck]

/-! #### Issue -/

@[simp] theorem State.tookTurn_data : (s.tookTurn c sl).data = s.data := by rfl
@[simp] theorem State.blockOn_data {w : Wait} : (s.blockOn o w).data = s.data := by simp [State.blockOn]
@[simp] theorem State.trapOp_data : (s.trapOp o x).data = s.data := by simp [State.trapOp]
@[simp] theorem State.trapCode_data {info second : Word} : (s.trapCode o code info second).data = s.data := by simp [State.trapCode]
@[simp] theorem State.flyTo_data {next : Addr} {xfer : Transfer} {emptied : List Nat} : (s.flyTo o fx next xfer kind emptied).data = s.data := by
  unfold State.flyTo
  split <;> simp
@[simp] theorem State.fly_data : (s.fly o fx).data = s.data := by simp [State.fly]
@[simp] theorem State.flyArrive_data {ws : Option Nat} {prod : Producer} : (s.flyArrive o rd ws prod acq fx).data = s.data := by
  simp [State.flyArrive]
@[simp] theorem State.correctReads_data : (s.correctReads o).data = s.data := by simp [State.correctReads]
@[simp] theorem State.memberPair_data : (s.memberPair o).data = s.data := by
  unfold State.memberPair
  split <;> simp
theorem State.issueOwn_data {body : Op → State → State} (h : ∀ s, (body o s).data = s.data) : (s.issueOwn o body).data = s.data := by
  unfold State.issueOwn
  (repeat' split) <;> simp [h]
@[simp] theorem State.illegal_data {w : BitVec 32} {pair : Option (BitVec 32)} : (s.illegal c sl w pair).data = s.data := by
  unfold State.illegal
  split <;> simp

/-! #### Control -/

@[simp] theorem State.branch_data {taken : Bool} {n : BitVec 15} : (s.branch o taken n).data = s.data := by simp [State.branch]
@[simp] theorem State.jumpTo_data {target : Addr} {x : Transfer} : (s.jumpTo o target fx x).data = s.data := by simp [State.jumpTo]
@[simp] theorem State.coupleDecided_data {m : Nat} {status : Word} {gang : List Effect} : (s.coupleDecided m sl rd status gang).data = s.data := by
  simp [State.coupleDecided]
@[simp] theorem State.couple_data {m : BitVec 4} : (s.couple o rd m).data = s.data := by simp [State.couple]

/-! #### Link ports -/

@[simp] theorem State.modPort_data {f : Port → Port} : (s.modPort n f).data = s.data := by rfl
@[simp] theorem State.sendLink_data {m : LinkMessage} : (s.sendLink dev m).data = s.data := by
  unfold State.sendLink
  split <;> simp

/-! #### Page tables -/

@[simp] theorem State.tableFor_data {target fuel level : Nat} : (s.tableFor p va target fuel size level).2.data = s.data := by
  induction fuel generalizing s size level with
  | zero => rfl
  | succ fuel ih =>
    simp only [State.tableFor]
    (repeat' split) <;> simp [ih]
@[simp] theorem State.writeLeaf_data {e : Word} : (s.writeLeaf p va size e).data = s.data := by
  unfold State.writeLeaf
  split <;> simp
@[simp] theorem State.writeBack_data {k : Nat} : (s.writeBack k).data = s.data := by rfl
@[simp] theorem State.applySchedules_data : s.applySchedules.data = s.data := by
  refine foldl_data (fun s e => ?_) _ _
  dsimp only
  (repeat' split) <;> simp
@[simp] theorem State.fillLine_data {line : Nat} : (s.fillLine line).data = s.data := by
  unfold State.fillLine
  split <;> simp
@[simp] theorem State.fillLines_data {read : List Nat} : (s.fillLines read).data = s.data := by simp [State.fillLines]
@[simp] theorem State.tellPeer_data {l : LeafAt} {m : Nat → BitVec 128 → Nat → Nat → LinkMessage} : (s.tellPeer p l m).data = s.data := by
  unfold State.tellPeer
  split <;> simp
@[simp] theorem State.mapAlias_data {prot : Nat} {l : List LeafAt} : (s.mapAlias p size prot va src l).data = s.data := by
  refine foldl_data (fun s e => ?_) _ _
  dsimp only
  (repeat' split) <;> simp
@[simp] theorem State.retagAt_data : (s.retagAt p attr key base).data = s.data := by
  unfold State.retagAt
  split <;> simp
@[simp] theorem State.retag_data {l : LeafAt} : (s.retag p attr key l).data = s.data := by simp [State.retag]
@[simp] theorem State.memAttr_data {prot len : Nat} : (s.memAttr p prot attr va len).data = s.data := by
  unfold State.memAttr
  split <;> simp

/-! #### Samples -/

@[simp] theorem State.placeSample_data {tag : Word} : (s.placeSample c sl kind code pc tag).data = s.data := by
  unfold State.placeSample
  split <;> simp
@[simp] theorem State.softwareSample_data {tag : Word} : (s.softwareSample c sl pc tag).data = s.data := by simp [State.softwareSample]

/-! #### Queues -/

@[simp] theorem State.setChan_data {h : Chan} : (s.setChan p key h).data = s.data := by simp [State.setChan]
@[simp] theorem State.sendEntry_data {h : Chan} {e : ChanEntry} : (s.sendEntry p key h e).data = s.data := by
  unfold State.sendEntry
  split <;> simp
@[simp] theorem State.pop_data : (s.pop o q).s.data = s.data := by
  unfold State.pop
  (repeat' split) <;> simp
@[simp] theorem popBody_data {rd : BitVec 7} {ws : Option (BitVec 7)} {trap : Bool} : (popBody q rd ws trap o s).data = s.data := by
  unfold popBody
  dsimp only
  (repeat' split) <;> simp

/-! #### Contexts -/

@[simp] theorem State.toPresenter_data : (s.toPresenter who v).data = s.data := by
  unfold State.toPresenter
  split <;> simp
@[simp] theorem State.signalPresenter_data : (s.signalPresenter who).data = s.data := by
  unfold State.signalPresenter
  split <;> simp
@[simp] theorem State.ownEvent_data {word : Nat} : (s.ownEvent p kind word).data = s.data := by
  unfold State.ownEvent
  split <;> simp
@[simp] theorem State.setTrust_data {b : Bool} : (s.setTrust b).data = s.data := by simp [State.setTrust]
@[simp] theorem State.raiseHigh_data : s.raiseHigh.data = s.data := by rfl
@[simp] theorem State.beacon_data {b : List Byte} : (s.beacon b).2.data = s.data := by
  simp only [State.beacon]
  (repeat' split) <;> simp
@[simp] theorem State.setHandle_data {h : Handle} : (s.setHandle n h).data = s.data := by rfl
@[simp] theorem State.endHandle_data : (s.endHandle n code).data = s.data := by
  unfold State.endHandle
  split <;> simp
@[simp] theorem State.installKeys_data {slot : Nat} {k : BitVec 512} : (s.installKeys slot k).data = s.data := by rfl

/-! #### Values on their way -/

@[simp] theorem State.land_data {e : Nat} : (s.land p c uid e r).data = s.data := by
  unfold State.land
  split <;> simp
@[simp] theorem State.releasePost_data {dest : PostTo} {v : Option Vec} : (s.releasePost src dest v).data = s.data := by
  unfold State.releasePost
  split <;> simp
@[simp] theorem State.releasePosts_data {l : List PostTo} {e : Nat} {v : Option Vec} : (s.releasePosts src l e v).data = s.data := by
  simp [State.releasePosts]
@[simp] theorem State.landPost_data : (s.landPost n).data = s.data := by
  unfold State.landPost
  split <;> simp
@[simp] theorem State.emptyPosts_data : s.emptyPosts.data = s.data := by
  refine foldl_data (fun s e => ?_) _ _
  dsimp only
  (repeat' split) <;> simp
@[simp] theorem State.replaceQ7_data {w : Vec} : (s.replaceQ7 v w).data = s.data := by rfl
@[simp] theorem State.countSealed_data : (s.countSealed c).data = s.data := by simp [State.countSealed]
@[simp] theorem State.lostAt_data : (s.lostAt c).data = s.data := by simp [State.lostAt]
@[simp] theorem State.landNwrite_data {d : Delivery} : (s.landNwrite d).data = s.data := by
  unfold State.landNwrite
  (repeat' split) <;> simp
@[simp] theorem State.landWake_data {d : Delivery} : (s.landWake d).data = s.data := by
  unfold State.landWake
  (repeat' split) <;> simp

/-! #### Commands -/

@[simp] theorem State.takeLocks_data {l : List Span} : (s.takeLocks e l).data = s.data := by simp [State.takeLocks]
@[simp] theorem State.countDropped_data {homes : List Nat} : (s.countDropped homes).data = s.data := by simp [State.countDropped]
@[simp] theorem State.putRecord_data {o : Outcome} : (s.putRecord e o).data = s.data := by simp [State.putRecord]
@[simp] theorem State.pulseFor_data : (s.pulseFor e).data = s.data := by simp [State.pulseFor]
@[simp] theorem State.modStream_data {f : Stream → Stream} : (s.modStream key f).data = s.data := by rfl
@[simp] theorem State.endStream_data {o : Outcome} : (s.endStream e o).data = s.data := by rfl
@[simp] theorem State.dequeue_data : (s.dequeue e).data = s.data := by rfl
@[simp] theorem State.refuseCommand_data {o : Outcome} : (s.refuseCommand e o).data = s.data := by simp [State.refuseCommand]
@[simp] theorem State.activate_data {a : Active} : (s.activate a).data = s.data := by rfl
@[simp] theorem State.completeWith_data {a : Active} {extra : List (Nat × Nat × Nat)} : (s.completeWith a extra).data = s.data := by
  simp [State.completeWith]

/-! #### The Keystone -/

@[simp] theorem State.arbiterDecide_data {index : Option Nat} {notAfter : Nat} {group : Bool}
    : (s.arbiterDecide serial index dev notAfter group).2.data = s.data := by
  simp only [State.arbiterDecide]
  (repeat' split) <;> simp
@[simp] theorem State.endContext_data : (s.endContext p code).data = s.data := by
  unfold State.endContext
  split <;> simp
@[simp] theorem State.sweepContext_data : (s.sweepContext p).data = s.data := by
  simp only [State.sweepContext]
  (repeat' split) <;> simp
@[simp] theorem State.lostCores_data : s.lostCores.data = s.data := by
  simp only [State.lostCores]
  (repeat' split) <;> simp
@[simp] theorem State.revoke_data {b : List Byte} : (s.revoke b).2.data = s.data := by
  simp only [State.revoke]
  (repeat' split) <;> simp
@[simp] theorem State.imageDoom_data {a : Nat} : (s.imageDoom who a n).data = s.data := by
  unfold State.imageDoom
  split <;> simp
@[simp] theorem State.answer_data {q : Pending} {status handle : Nat} : (s.answer q status handle).data = s.data := by
  unfold State.answer
  split <;> simp
@[simp] theorem State.redeem_data {t : Token} : (s.redeem t).data = s.data := by simp [State.redeem]
@[simp] theorem State.claimFrom_data {notAfter : Nat} {group : Bool} {mark : Nat} : (s.claimFrom dev serial notAfter group mark).data = s.data := by
  simp [State.claimFrom]
@[simp] theorem State.wrtSurrender_data : (s.wrtSurrender p a).2.data = s.data := by
  simp only [State.wrtSurrender]
  (repeat' split) <;> simp
@[simp] theorem State.lapse_data : (s.lapse n).data = s.data := by
  unfold State.lapse
  split <;> simp
@[simp] theorem State.notice_data : (s.notice p).data = s.data := by simp [State.notice]

/-! #### Memory instructions -/

@[simp] theorem State.flyLoad_data {rd : BitVec 7} {kind : LoadKind} {addrs : List Word} : (s.flyLoad o rd kind addrs size acq).data = s.data := by
  simp [State.flyLoad]
@[simp] theorem State.flyStore_data {writes : List (Word × List Byte)} {rel : Option Nat} : (s.flyStore o writes size rel).data = s.data := by
  simp [State.flyStore]

/-! #### Swapped threads -/

@[simp] theorem State.placeThread_data : (s.placeThread c sl t).data = s.data := by rfl
@[simp] theorem State.addUnit_data : (s.addUnit p id).data = s.data := by simp [State.addUnit]
@[simp] theorem State.saveThread_data {asked : Bool} {trap : Option Vec} : (s.saveThread c sl record asked trap).data = s.data := by
  simp only [State.saveThread]
  (repeat' split) <;> simp
@[simp] theorem State.reserveRecord_data : (s.reserveRecord p).2.data = s.data := by simp [State.reserveRecord]
@[simp] theorem State.freeLeft_data : s.freeLeft.data = s.data := by rfl
@[simp] theorem State.rehome_data : (s.rehome uid c).data = s.data := by rfl
@[simp] theorem State.dropSaved_data : (s.dropSaved p record).data = s.data := by simp [State.dropSaved]
@[simp] theorem State.loseSaved_data : (s.loseSaved p record).data = s.data := by
  unfold State.loseSaved
  split <;> simp
@[simp] theorem State.restoreThread_data {v : Saved} : (s.restoreThread p v c sl).data = s.data := by
  unfold State.restoreThread
  dsimp only
  split
  · simp
  · split <;> simp only [State.modCore_data, State.modCtx_data, State.setThread_data, State.rehome_data] <;>
      refine (foldl_data (fun s i => ?_) _ _).trans State.dropSaved_data <;> (repeat' split) <;> simp

/-! #### Messages -/

@[simp] theorem State.amHandler_data : (s.amHandler c p a).2.data = s.data := by
  simp only [State.amHandler]
  (repeat' split) <;> simp
@[simp] theorem State.amArrive_data : (s.amArrive n).data = s.data := by
  simp only [State.amArrive]
  (repeat' split) <;> simp
@[simp] theorem State.amStart_data : (s.amStart c).data = s.data := by
  simp only [State.amStart]
  (repeat' split) <;> simp
@[simp] theorem State.replayDiverted_data : (s.replayDiverted p).data = s.data := by
  simp only [State.replayDiverted]
  (repeat' split) <;> simp

/-! #### Rewrite rules -/

@[simp] theorem State.rwtLoad_data : (s.rwtLoad c p a).2.data = s.data := by
  unfold State.rwtLoad
  (repeat' split) <;> simp
@[simp] theorem State.rwtCtl_data : (s.rwtCtl p a).2.data = s.data := by
  unfold State.rwtCtl
  (repeat' split) <;> simp

/-! #### System calls -/

@[simp] theorem snextBody_data {rd : BitVec 7} {ws : Option (BitVec 7)} : (snextBody rd ws n o s).data = s.data := by
  unfold snextBody
  (repeat' split) <;> simp
@[simp] theorem State.keystoneCall_data {len : Nat} {out : Bool} {fx : Effect} : (s.keystoneCall o a len out fx).data = s.data := by
  unfold State.keystoneCall
  (repeat' split) <;> simp

/-! #### Threads -/

@[simp] theorem State.sendTo_data {target : Nat} {fx : Effect} : (s.sendTo o target fx).data = s.data := by simp [State.sendTo]

/-! #### Work -/

@[simp] theorem State.parkTake_data : (s.parkTake o q).data = s.data := by
  simp only [State.parkTake]
  (repeat' split) <;> simp

/-! #### Effects of completions -/

@[simp] theorem Out.done_data : (Out.done s).s.data = s.data := by rfl
@[simp] theorem State.putReg_data : (s.putReg d entry r).data = s.data := by simp [State.putReg]
@[simp] theorem State.put_data : (s.put d entry v).data = s.data := by simp [State.put]
@[simp] theorem State.putNat_data : (s.putNat d entry n).data = s.data := by simp [State.putNat]
@[simp] theorem State.elementDelays_data : (s.elementDelays).1.data = s.data := by
  unfold State.elementDelays
  exact foldl_fst_data (fun r i => by simp) _ _
@[simp] theorem State.earlyTakes_data {kind : LoadKind} : (s.earlyTakes uid kind).1.data = s.data := by
  unfold State.earlyTakes
  (repeat' split) <;> simp
@[simp] theorem State.fxLoad_data {kind : LoadKind} {addrs : List Word} : (s.fxLoad d rd kind addrs size acq).data = s.data := by
  unfold State.fxLoad
  split <;> simp
@[simp] theorem State.fxStore_data {writes : List (Word × List Byte)} {rel : Option Nat} : (s.fxStore d writes size rel).data = s.data := by
  unfold State.fxStore
  (repeat' split) <;> simp
@[simp] theorem State.fxAtomic_data {op : AmoOp} {b c : Word} {acq rel : Bool} : (s.fxAtomic d rd op a b c acq rel).data = s.data := by
  unfold State.fxAtomic
  split <;> simp
@[simp] theorem State.fxEnds_data : (s.fxEnds d).data = s.data := by simp [State.fxEnds]
@[simp] theorem State.fxFence_data {k sc : Nat} : (s.fxFence d k sc).data = s.data := by simp [State.fxFence]
@[simp] theorem State.fxFork_data {arm : Addr} : (s.fxFork d arm a).s.data = s.data := by
  unfold State.fxFork
  split <;> simp
@[simp] theorem State.fxGang_data {m : BitVec 4} : (s.fxGang d m).s.data = s.data := by
  simp only [State.fxGang]
  (repeat' split) <;> simp
@[simp] theorem State.fxStop_data : (s.fxStop d rd a).data = s.data := by
  simp only [State.fxStop]
  (repeat' split) <;> simp
@[simp] theorem State.fxResume_data {next : Bool} : (s.fxResume d rd a next).data = s.data := by
  simp only [State.fxResume]
  (repeat' split) <;> simp
@[simp] theorem State.fxSwap_data : (s.fxSwap d rd a).data = s.data := by
  simp only [State.fxSwap]
  (repeat' split) <;> simp
@[simp] theorem State.fxSwapIn_data : (s.fxSwapIn d rd a).data = s.data := by
  unfold State.fxSwapIn
  (repeat' split) <;> simp
@[simp] theorem State.fxYield_data : (s.fxYield d).data = s.data := by simp [State.fxYield]
@[simp] theorem State.fxWorkQuery_data : (s.fxWorkQuery d rd a).data = s.data := by
  unfold State.fxWorkQuery
  split <;> simp
@[simp] theorem State.fxAge_data : (s.fxAge d rd a).data = s.data := by
  unfold State.fxAge
  split <;> simp
@[simp] theorem State.fxCancel_data {level : Nat} {rewind : Bool} : (s.fxCancel d rd level rewind a).s.data = s.data := by
  simp only [State.fxCancel]
  (repeat' split) <;> simp
@[simp] theorem State.roundTriggers_data : (s.roundTriggers c sl n).data = s.data := by rfl
@[simp] theorem State.markBound_data : (s.markBound p e).data = s.data := by simp [State.markBound]
@[simp] theorem State.fxSbind_data : (s.fxSbind d rd n a).data = s.data := by
  simp only [State.fxSbind]
  (repeat' split) <;> simp
@[simp] theorem State.fxSdone_data : (s.fxSdone d rd n).data = s.data := by
  unfold State.fxSdone
  split <;> simp

/-! #### The copy engine -/

@[simp] theorem State.doomAt_data : (s.doomAt e va n).data = s.data := by
  unfold State.doomAt
  split <;> simp
@[simp] theorem State.installSched_data {entries : List (BitVec 128)} {rounds : Nat} : (s.installSched e entries rounds).data = s.data := by
  simp [State.installSched]
@[simp] theorem State.copyBegin_data : (s.copyBegin e).data = s.data := by
  simp only [State.copyBegin]
  (repeat' split) <;> simp
@[simp] theorem State.copyStep_data : (s.copyStep e).data = s.data := by
  unfold State.copyStep
  split <;> simp
@[simp] theorem State.copyEnd_data {a : Active} : (s.copyEnd a).data = s.data := by
  unfold State.copyEnd
  split <;> simp

/-! #### The routing engine -/

@[simp] theorem State.endColl_data : (s.endColl tag serial).data = s.data := by rfl
@[simp] theorem State.collFails_data {status detail : Nat} : (s.collFails key status detail).data = s.data := by
  unfold State.collFails
  (repeat' split) <;> simp
@[simp] theorem State.collCheck_data : (s.collCheck key).data = s.data := by
  unfold State.collCheck
  (repeat' split) <;> simp
@[simp] theorem State.memberJoins_data {m : Member} {at_ : Nat} : (s.memberJoins tag serial m at_).data = s.data := by
  unfold State.memberJoins
  (repeat' split) <;> simp
@[simp] theorem State.memberLeaves_data : (s.memberLeaves tag serial dev).data = s.data := by rfl
@[simp] theorem State.collBegin_data : (s.collBegin e).data = s.data := by
  simp only [State.collBegin]
  (repeat' split) <;> simp
@[simp] theorem State.tokensBegin_data : (s.tokensBegin e).data = s.data := by
  simp only [State.tokensBegin]
  (repeat' split) <;> simp
@[simp] theorem State.routeBegin_data : (s.routeBegin e).data = s.data := by
  simp only [State.routeBegin]
  (repeat' split) <;> simp
@[simp] theorem State.routeHead_data : (s.routeHead e).data = s.data := by
  unfold State.routeHead
  split <;> simp
@[simp] theorem State.routeEnd_data {a : Active} : (s.routeEnd a).data = s.data := by simp [State.routeEnd]
@[simp] theorem State.withdraw_data {a : Active} : (s.withdraw a).data = s.data := by
  unfold State.withdraw
  split <;> simp

/-! #### Completion -/

@[simp] theorem State.keepFlying_data : (s.keepFlying d fx).data = s.data := by simp [State.keepFlying]
@[simp] theorem State.runAfter_data {next : Addr} {a : Option After} : (s.runAfter d next a).data = s.data := by
  simp only [State.runAfter]
  (repeat' split) <;> simp
@[simp] theorem State.gangResolve_data : (s.gangResolve c sl).data = s.data := by
  simp only [State.gangResolve]
  (repeat' split) <;> simp
@[simp] theorem State.goOn_data {jump : Option Addr} : (s.goOn d jump).data = s.data := by
  unfold State.goOn
  split <;> simp
@[simp] theorem State.trapLate_data : (s.trapLate d x).data = s.data := by
  unfold State.trapLate
  split <;> simp

/-! #### What waits -/

@[simp] theorem State.sendMarkers_data {served : List Nat} : (s.sendMarkers p n t served).1.data = s.data := by
  unfold State.sendMarkers
  refine foldl_fst_data (fun r i => ?_) _ _
  dsimp only
  (repeat' split) <;> simp
@[simp] theorem State.takeMarkers_data {served : List Nat} : (s.takeMarkers p n t served).1.data = s.data := by
  unfold State.takeMarkers
  refine foldl_fst_data (fun r i => ?_) _ _
  dsimp only
  (repeat' split) <;> simp
@[simp] theorem State.fireWait_data : (s.fireWait c sl n).data = s.data := by
  unfold State.fireWait
  split <;> simp
@[simp] theorem State.fireTerms_data : (s.fireTerms c).data = s.data := by simp [State.fireTerms]
@[simp] theorem State.passBacklogs_data : s.passBacklogs.data = s.data := by
  refine foldl_data (fun s e => ?_) _ _
  dsimp only
  (repeat' split) <;> simp

/-! #### Arrivals -/

@[simp] theorem State.enqueueTrap_data : (s.enqueueTrap n).data = s.data := by
  unfold State.enqueueTrap
  split <;> simp
@[simp] theorem State.steal_data : (s.steal c sl).data = s.data := by
  unfold State.steal
  split <;> simp

/-! #### Faults -/

@[simp] theorem State.loseLine_data {addr : Nat} : (s.loseLine addr source injected).data = s.data := by rfl
@[simp] theorem State.inject_data {i : Injection} : (s.inject i).data = s.data := by
  simp only [State.inject]
  (repeat' split) <;> simp
@[simp] theorem State.loseElement_data : (s.loseElement key).data = s.data := by
  unfold State.loseElement
  split <;> simp
@[simp] theorem State.loseLaunch_data : (s.loseLaunch p id).data = s.data := by
  unfold State.loseLaunch
  split <;> simp
@[simp] theorem State.loseEntry_data : (s.loseEntry p key).data = s.data := by
  unfold State.loseEntry
  (repeat' split) <;> simp
@[simp] theorem State.loseRoot_data {slot : Nat} : (s.loseRoot slot).data = s.data := by simp [State.loseRoot]
@[simp] theorem State.softError_data {what m : Nat} : (s.softError what n m).data = s.data := by
  unfold State.softError
  (repeat' split) <;> simp

/-! #### Links -/

@[simp] theorem State.peerAlias_data {length : Nat} : (s.peerAlias dev serial base length).data = s.data := by
  unfold State.peerAlias
  split <;> simp
@[simp] theorem State.peerRetag_data {length : Nat} : (s.peerRetag dev serial base length attr).data = s.data := by
  unfold State.peerRetag
  split <;> simp
@[simp] theorem State.peerLoad_data {addr : Nat} : (s.peerLoad dev addr attr n).data = s.data := by simp [State.peerLoad]
@[simp] theorem State.discipline_data {master : Nat} : (s.discipline master).data = s.data := by simp [State.discipline]
@[simp] theorem State.loseMessage_data {m : LinkMessage} : (s.loseMessage m).data = s.data := by
  unfold State.loseMessage
  split <;> simp
@[simp] theorem State.fencePort_data {q : Port} : (s.fencePort n q).data = s.data := by simp [State.fencePort]

/-! #### Timers -/

@[simp] theorem State.dropHeld_data : (s.dropHeld p).data = s.data := by rfl
@[simp] theorem State.takeSample_data : (s.takeSample c).data = s.data := by simp [State.takeSample]

/-! #### The host -/

@[simp] theorem State.modHost_data {f : HostPort → HostPort} : (s.modHost f).data = s.data := by rfl
@[simp] theorem State.pageDropped_data : (s.pageDropped p).data = s.data := by rfl
@[simp] theorem State.windowDropped_data : (s.windowDropped p).data = s.data := by rfl
@[simp] theorem State.discardLaunch_data : (s.discardLaunch p).data = s.data := by rfl
@[simp] theorem State.hostLaunch_data : (s.hostLaunch p q bs).data = s.data := by
  unfold State.hostLaunch
  split <;> simp
@[simp] theorem State.queuePage_data {off : Nat} : (s.queuePage p off bs).data = s.data := by simp [State.queuePage]
@[simp] theorem State.bar0Write_data {off : Nat} : (s.bar0Write off bs).data = s.data := by simp [State.bar0Write]
@[simp] theorem State.convertSaved_data {layout : Nat} : (s.convertSaved layout).data = s.data := by rfl
@[simp] theorem State.tryPatch_data {serving : List Byte} : (s.tryPatch serving).data = s.data := by simp [State.tryPatch]

/-! #### The tile engine -/

@[simp] theorem State.readRegs_data : (s.readRegs e).data = s.data := by simp [State.readRegs]
@[simp] theorem State.doomRun_data {r : TileRun} : (s.doomRun e r).data = s.data := by
  unfold State.doomRun
  split <;> simp
@[simp] theorem State.tileCompute_data : (s.tileCompute key).data = s.data := by
  unfold State.tileCompute
  split <;> simp
@[simp] theorem State.tileBegin_data : (s.tileBegin e).data = s.data := by simp [State.tileBegin]
@[simp] theorem State.tileStep_data : (s.tileStep e).data = s.data := by
  unfold State.tileStep
  split <;> simp
@[simp] theorem State.writeTiles_data {t : Tab (BitVec 32)} : (s.writeTiles c t).data = s.data := by rfl
@[simp] theorem State.tileEnd_data {a : Active} : (s.tileEnd a).data = s.data := by simp [State.tileEnd]

/-! #### Rewrite groups -/

@[simp] theorem State.decideHead_data {verdict : HeadVerdict} : (s.decideHead c verdict).data = s.data := by
  unfold State.decideHead
  split <;> simp
@[simp] theorem State.decideHeads_data : s.decideHeads.data = s.data := by simp [State.decideHeads]
@[simp] theorem State.enterWindow_data : (s.enterWindow c).data = s.data := by rfl
@[simp] theorem State.groupBegin_data {g : Group} : (s.groupBegin c g e).data = s.data := by simp [State.groupBegin]
@[simp] theorem State.startGroup_data : (s.startGroup c).data = s.data := by
  unfold State.startGroup
  (repeat' split) <;> simp
@[simp] theorem State.groupCompute_data : (s.groupCompute c).data = s.data := by
  simp only [State.groupCompute]
  (repeat' split) <;> simp
@[simp] theorem State.groupReplay_data {g : Group} {a : Active} {fault : Bool} : (s.groupReplay c g a fault).data = s.data := by rfl
@[simp] theorem State.settleTiles_data : s.settleTiles.data = s.data := by simp [State.settleTiles]

/-! #### The dispatcher -/

@[simp] theorem State.startUnit_data {r : Vec} {k : Option Checkpoint} {plan : Plan} {index : Nat} {seat : Seat}
    : (s.startUnit id r k plan c index seat).data = s.data := by simp [State.startUnit]
@[simp] theorem State.failPlace_data : (s.failPlace p id code).data = s.data := by simp [State.failPlace]
@[simp] theorem State.swapOut_data : (s.swapOut p c sl).data = s.data := by
  unfold State.swapOut
  (repeat' split) <;> simp
@[simp] theorem State.saveCore_data : (s.saveCore p c).data = s.data := by
  refine foldl_data (fun s e => ?_) _ _
  dsimp only
  (repeat' split) <;> simp
@[simp] theorem State.dropImage_data {m : Image} : (s.dropImage p m).data = s.data := by simp [State.dropImage]

/-! #### Fetches -/

@[simp] theorem State.fetchTrap_data {addr : Addr} {lost : Bool} : (s.fetchTrap c sl addr lost).data = s.data := by
  unfold State.fetchTrap
  split <;> simp
@[simp] theorem State.gangFetch_data : (s.gangFetch c sl).data = s.data := by
  unfold State.gangFetch
  (repeat' split) <;> simp
@[simp] theorem State.gangFetches_data : s.gangFetches.data = s.data := by simp [State.gangFetches]

/-! #### Turns -/

@[simp] theorem State.crossbar_data : (s.crossbar c).data = s.data := by
  simp only [State.crossbar, State.fireTerms_data]
  refine foldl_data (fun s q => ?_) _ _
  (repeat' split) <;> simp
@[simp] theorem State.countCycle_data : (s.countCycle c).data = s.data := by simp [State.countCycle]
@[simp] theorem State.tickTime_data : s.tickTime.data = s.data := by simp [State.tickTime]
@[simp] theorem State.taken_data : s.taken.data = s.data := by simp [State.taken]

end

/-- The canonical form of what memory and the scratchpads hold (log 3). -/
def Canonical (d : Tab Byte × Tab Byte × Tab Nat) : Prop :=
  Memory.wf d.1 = true ∧ ({ State.reset with scratch := d.2.1, epochs := d.2.2 } : State).scratchWf = true

/-- A state's data are canonical when its memory and its scratchpads are. -/
theorem canonical_data_iff {s : State} : Canonical s.data ↔ Memory.wf s.mem = true ∧ s.scratchWf = true := Iff.rfl

@[simp] theorem canonical_ite {p : Prop} [Decidable p] {d e : Tab Byte × Tab Byte × Tab Nat} :
    Canonical (if p then d else e) ↔ if p then Canonical d else Canonical e := by
  split <;> rfl

/-- A choice between two answers, each a number and a state. -/
theorem canonical_snd_ite {p : Prop} [Decidable p] {x y : Nat × State} (hx : Canonical x.2.data) (hy : Canonical y.2.data) :
    Canonical (if p then x else y).2.data := by
  split
  · exact hx
  · exact hy

/-- A loop of steps that keep the canonical form keeps it. -/
theorem foldl_canonical {α : Type} {f : State → α → State} (hf : ∀ s a, Canonical s.data → Canonical (f s a).data) (l : List α)
    {s : State} (h : Canonical s.data) : Canonical (l.foldl f s).data := by
  induction l generalizing s with
  | nil => exact h
  | cons a l ih => exact ih (hf s a h)

/-! ### The operations that write (R45, R150, R197, R265, R403) -/

/-- Removing keys from memory keeps it canonical. -/
theorem Memory.wf_filter {m : Tab Byte} (f : Nat × Byte → Bool) (h : Memory.wf m = true) : Memory.wf (m.filter f) = true :=
  tabFilter_canon f h

@[simp] theorem State.setHomeByte_canonical {s : State} (a : Nat) (b : Byte) (h : Canonical s.data) : Canonical (s.setHomeByte a b).data :=
  ⟨s.setHomeByte_wf a b h.1, s.setHomeByte_scratchWf a b h.2⟩

@[simp] theorem State.applyWrites_canonical {s : State} (w : Tab Byte) (h : Canonical s.data) : Canonical (s.applyWrites w).data := by
  have all : Canonical (s.writeAll w).data := foldl_canonical (fun _ e hs => by exact State.setHomeByte_canonical e.1 e.2 hs) w h
  exact all

@[simp] theorem State.zeroFrames_canonical {s : State} (home bytes : Nat) (h : Canonical s.data) : Canonical (s.zeroFrames home bytes).data :=
  ⟨Memory.wf_filter _ h.1, h.2⟩

/-- What an unwritten scratch byte reads as depends on its core's epoch alone (R47). -/
theorem State.scratchDefault_congr {s u : State} {k : Nat} (h : tabGet u.epochs (k / 2 ^ 20) 0 = tabGet s.epochs (k / 2 ^ 20) 0) :
    u.scratchDefault k = s.scratchDefault k := by
  simp only [State.scratchDefault, h]

/-- The bytes of a core whose split changes are unlisted from now on, and no other core's have a new default (R47). -/
@[simp] theorem State.setSteps_canonical {s : State} (c n : Nat) (h : Canonical s.data) : Canonical (s.setSteps c n).data := by
  unfold State.setSteps
  split
  · exact h
  · obtain ⟨hm, hs⟩ := canonical_data_iff.mp h
    obtain ⟨sorted, listed⟩ := tabCanon_iff.mp hs
    refine canonical_data_iff.mpr ⟨hm, tabCanon_iff.mpr ⟨tabFilter_sorted _ sorted, fun e he => ?_⟩⟩
    obtain ⟨he, hc⟩ := List.mem_filter.mp he
    have other : e.1 / 2 ^ 20 ≠ c := by
      simp only [Bool.not_eq_true', Bool.and_eq_false_iff, decide_eq_false_iff_not] at hc
      omega
    rw [State.scratchDefault_congr (s := s) (congrArg (Option.getD · 0) (tabGet?_set_other _ _ other))]
    exact listed e he

/-- A reset keeps the bytes of other devices and the host's, and clears the scratchpads (R403). -/
@[simp] theorem State.restart_canonical {s : State} (h : Canonical s.data) : Canonical s.restart.data :=
  ⟨Memory.wf_filter _ h.1, rfl⟩

/-! ### Operations that keep the canonical form -/

section
variable {p n i uid fuel scope c sl id core va size attr prot dev key rd slot expert : Nat} {s u : State} {a : Word} {k : Kill}
   {d : Done} {bs : List Byte} {q : Pending} {serial : BitVec 128}

/-! #### The order of memory operations -/

@[simp] theorem State.perform_canonical {own : Nat → Option Byte} {p : Producer} (h : Canonical s.data) : Canonical (s.perform own p).1.data := by
  simp only [State.perform]
  (repeat' split) <;> simp [h]
@[simp] theorem State.performArrival_canonical {a : Arrival} (h : Canonical s.data) : Canonical (s.performArrival a).1.data := by
  simp [State.performArrival, h]
@[simp] theorem State.showStore_canonical (h : Canonical s.data) : Canonical (s.showStore n).data := by
  unfold State.showStore
  split <;> simp [h]
@[simp] theorem State.showNext_canonical (h : Canonical s.data) : Canonical (s.showNext n).data := by
  unfold State.showNext
  split <;> simp [h]
@[simp] theorem State.takeElement_canonical (h : Canonical s.data) : Canonical (s.takeElement n i).data := by
  unfold State.takeElement
  split <;> simp [h]
@[simp] theorem State.performWhere_canonical {f : Arrival → Bool} (h : Canonical s.data) : Canonical (s.performWhere f).data := by
  refine foldl_canonical (fun s e h => ?_) _ h
  dsimp only
  (repeat' split) <;> simp [h]
@[simp] theorem State.drainGo_canonical {upto : Nat} {f : List Nat → Bool} (h : Canonical s.data) : Canonical (s.drainGo uid upto f fuel).data := by
  induction fuel generalizing s with
  | zero => exact h
  | succ fuel ih =>
    simp only [State.drainGo]
    split
    · exact h
    · exact ih (by simp [h])
@[simp] theorem State.drainTo_canonical {upto : Nat} {f : List Nat → Bool} (h : Canonical s.data) : Canonical (s.drainTo uid upto f).data := by
  simp [State.drainTo, h]
@[simp] theorem State.settlePassed_canonical (h : Canonical s.data) : Canonical s.settlePassed.data := by
  unfold State.settlePassed
  split
  · exact h
  · simp only [State.data_mk, State.fields_data]
    exact foldl_canonical (fun s i h => by simp [h]) _ h
@[simp] theorem State.drain_canonical (h : Canonical s.data) : Canonical (s.drain uid scope).data := by simp [State.drain, h]
@[simp] theorem State.releaseAt_canonical (h : Canonical s.data) : Canonical (s.releaseAt c sl scope).data := by
  unfold State.releaseAt
  split <;> simp [h]
@[simp] theorem State.release_canonical (h : Canonical s.data) : Canonical (s.release c sl).data := by simp [State.release, h]

/-! #### Records and launches -/

@[simp] theorem State.drainPart_canonical (h : Canonical s.data) : Canonical (s.drainPart p).data := by
  refine foldl_canonical (fun s e h => ?_) _ h
  simp [h]
@[simp] theorem State.restoreScratch_canonical {k : Option Checkpoint} (h : Canonical s.data) : Canonical (s.restoreScratch c k).data := by
  unfold State.restoreScratch
  split <;> simp [h]
@[simp] theorem State.rewindTask_canonical {g : Nat} (h : Canonical s.data) : Canonical (s.rewindTask p id g).data := by
  unfold State.rewindTask
  (repeat' split) <;> simp [h]
@[simp] theorem State.rewindRestart_canonical {g : Nat} {ids : List Nat} (h : Canonical s.data) : Canonical (s.rewindRestart p g ids).data := by
  simp only [State.rewindRestart, State.modCtx_data]
  exact foldl_canonical (fun s id h => by simp [h]) ids (by simp [h])

/-! #### Containment -/

@[simp] theorem State.showCore_canonical (h : Canonical s.data) : Canonical (s.showCore c).data := by
  refine foldl_canonical (fun s e h => ?_) _ h
  (repeat' split) <;> simp [h]
@[simp] theorem State.fenceCore_canonical (h : Canonical s.data) : Canonical (s.fenceCore c).data := by
  simp only [State.fenceCore]
  (repeat' split) <;> simp [h]
@[simp] theorem State.killOne_canonical {source : Nat} (h : Canonical s.data) : Canonical (s.killOne source c k).data := by
  unfold State.killOne
  dsimp only
  split
  · exact h
  · split
    · rw [foldl_data (fun s g => by split <;> simp), foldl_data (fun s t => by simp)]
      exact State.fenceCore_canonical h
    · simp [h]
@[simp] theorem State.fenceDeck_canonical {deck : Nat} {doomed : Tab Kill} (h : Canonical s.data)
    : Canonical (s.fenceDeck deck core k doomed).data := by
  unfold State.fenceDeck
  split
  · exact h
  · simp only [State.data_mk, State.fields_data]
    rw [foldl_data (fun s e => by simp)]
    exact foldl_canonical (fun s i h => by simp [h]) _ (by simp [h])
@[simp] theorem State.killCore_canonical {doomed : Tab Kill} (h : Canonical s.data) : Canonical (s.killCore c k doomed).data := by
  simp [State.killCore, h]
@[simp] theorem State.killDoomed_canonical (h : Canonical s.data) : Canonical s.killDoomed.data := by
  refine foldl_canonical (fun s d h => foldl_canonical (fun s e h => by simp [h]) _ ?_) _ (by simp [h])
  split <;> simp [h]

/-! #### Page tables -/

/-- Mapping a page keeps the canonical form, where there is a frame for it. -/
theorem State.mapPage_canonical {code charged : Bool} (h : Canonical s.data) (hu : s.mapPage p va size attr prot code charged = some u)
    : Canonical u.data := by
  unfold State.mapPage at hu
  (repeat' split at hu) <;> cases hu <;> simp [h]
theorem State.mapPages_canonical {code charged : Bool} (h : Canonical s.data) (hu : s.mapPages p size attr prot code charged n va = some u)
    : Canonical u.data := by
  induction n generalizing s va with
  | zero => exact Option.some.inj hu ▸ h
  | succ n ih =>
    simp only [State.mapPages] at hu
    split at hu
    · cases hu
    · exact ih (State.mapPage_canonical h ‹_›) hu
theorem State.mapRemote_canonical {ask : Nat} (h : Canonical s.data) (hu : s.mapRemote p size attr prot dev ask n va = some u)
    : Canonical u.data := by
  induction n generalizing s va with
  | zero => exact Option.some.inj hu ▸ h
  | succ n ih =>
    simp only [State.mapRemote] at hu
    split at hu
    · exact ih (by simp [h]) hu
    · cases hu
@[simp] theorem State.memMap_canonical {form order : Nat} {d : Word} (h : Canonical s.data)
    : Canonical (s.memMap p form prot attr order d a).2.data := by
  unfold State.memMap
  split
  · exact h
  · refine canonical_snd_ite h (canonical_snd_ite h (canonical_snd_ite h (canonical_snd_ite h (canonical_snd_ite h (canonical_snd_ite h
      (canonical_snd_ite (canonical_snd_ite h ?_) (canonical_snd_ite (canonical_snd_ite h (canonical_snd_ite h ?_)) ?_)))))))
    · split
      next t ht => exact State.mapRemote_canonical (by simp [h]) ht
      · exact h
    · simp [h]
    · split
      · exact State.mapPages_canonical h ‹_›
      · exact h
@[simp] theorem State.settleRange_canonical {len : Nat} (h : Canonical s.data) : Canonical (s.settleRange p va len).data := by
  unfold State.settleRange
  refine State.drainPart_canonical ?_
  rw [foldl_data (fun s t => by split <;> simp)]
  exact h
@[simp] theorem State.dropLeaf_canonical {l : LeafAt} (h : Canonical s.data) : Canonical (s.dropLeaf p l).data := by
  simp only [State.dropLeaf]
  (repeat' split) <;> simp [h]
@[simp] theorem State.memUnmap_canonical {len : Nat} (h : Canonical s.data) : Canonical (s.memUnmap p va len).data := by
  unfold State.memUnmap
  split
  · exact h
  · exact foldl_canonical (fun s k h => by simp [h]) _ (by simp [h])
@[simp] theorem State.freeSpace_canonical (h : Canonical s.data) : Canonical (s.freeSpace p).data := by
  unfold State.freeSpace
  split
  · exact h
  · rw [State.modCtx_data, foldl_data (fun s a => by simp)]
    exact foldl_canonical (fun s e h => by simp [h]) _ (foldl_canonical (fun s k h => by simp [h]) _ h)

/-! #### Samples -/

@[simp] theorem State.pokeBytes_canonical {a : Nat} (h : Canonical s.data) : Canonical (s.pokeBytes a bs).data := by simp [State.pokeBytes, h]
@[simp] theorem State.enterSample_canonical {r : List Byte} (h : Canonical s.data) : Canonical (s.enterSample p r).data := by
  unfold State.enterSample
  split <;> simp [h]
@[simp] theorem State.enterSamples_canonical (h : Canonical s.data) : Canonical s.enterSamples.data := by
  refine foldl_canonical (fun s e h => ?_) _ h
  simp [h]
@[simp] theorem State.updateCounters_canonical (h : Canonical s.data) : Canonical (s.updateCounters p).data := by
  unfold State.updateCounters
  split
  · exact h
  · exact foldl_canonical (fun s i h => by simp [h]) _ (by simp [h])

/-! #### Contexts -/

@[simp] theorem State.passCore_canonical {part : Option Nat} (h : Canonical s.data) : Canonical (s.passCore c part).data := by
  simp [State.passCore, h]
@[simp] theorem State.mapSection_canonical {mode : Nat} {k : Section} (h : Canonical s.data) : Canonical (s.mapSection p mode k).data := by
  unfold State.mapSection
  refine foldl_canonical (fun s e h => ?_) _ h
  dsimp only
  split
  next ht _ => simp [State.mapPage_canonical h ht]
  · exact h
@[simp] theorem State.mapFixed_canonical (h : Canonical s.data) : Canonical (s.mapFixed p va size).2.data := by
  unfold State.mapFixed
  split
  · exact State.mapPage_canonical h ‹_›
  · exact h
@[simp] theorem State.buildContext_canonical {w : Warrant} {block : List Byte} {secs : List Section} {who : Option (Nat × Nat × Nat)}
    (h : Canonical s.data) : Canonical (s.buildContext w block secs who).2.data := by
  -- That mapping a page keeps the form is all that counts; a name for it keeps the kernel from computing what it maps.
  obtain ⟨mapFixed, keeps, same⟩ : ∃ f : State → Nat → Nat → Nat → Nat × State,
      (∀ {t} p va size, Canonical t.data → Canonical (f t p va size).2.data) ∧ State.mapFixed = f :=
    ⟨_, fun _ _ _ => State.mapFixed_canonical, rfl⟩
  unfold State.buildContext
  rw [same]
  split
  · exact h
  next p _ =>
    extract_lets key n age own root was k s1 s2 s3 s4 s5 s6 s7 page ring s8 r r'
    have h2 : Canonical s2.data := by
      cases hk : key <;> simp [s2, hk, s1, h]
    have h5 : Canonical s5.data := by exact foldl_canonical (fun s c hs => by simp [hs]) own (by simp [s4, s3, h2])
    have h6 : Canonical s6.data := by exact foldl_canonical (fun s k hs => by simp [hs]) secs h5
    have h7 : Canonical s7.data := by simp [s7, h6]
    have h8 : Canonical s8.data := by
      rw [State.modCtx_data]
      exact keeps _ _ _ (keeps _ _ _ h7)
    split
    · rw [State.queueRecord_data]
      exact h8
    · exact h8

/-! #### Values on their way -/

@[simp] theorem State.arrive_canonical (h : Canonical s.data) : Canonical (s.arrive n).data := by
  simp only [State.arrive]
  (repeat' split) <;> simp [h]

/-! #### Commands -/

@[simp] theorem State.divert_canonical {d : Nat × List Byte} (h : Canonical s.data) : Canonical (s.divert p d).data := by
  unfold State.divert
  split <;> simp [h]
@[simp] theorem State.routeWrite_canonical {w : List (Nat × Byte)} (h : Canonical s.data) : Canonical (s.routeWrite p w).data := by
  simp only [State.routeWrite]
  split
  · simp [h]
  · exact foldl_canonical (fun s d h => by simp [h]) _ (by simp [h])
@[simp] theorem State.showElement_canonical (h : Canonical s.data) : Canonical (s.showElement key).data := by
  unfold State.showElement
  (repeat' split) <;> simp [h]

/-! #### The Keystone -/

@[simp] theorem State.writeVirt_canonical (h : Canonical s.data) : Canonical (s.writeVirt c p va bs).data := by simp [State.writeVirt, h]
@[simp] theorem State.handover_canonical {x : Ctx} (h : Canonical s.data) : Canonical (s.handover p x).2.data := by
  unfold State.handover
  (repeat' split) <;> simp [h]
@[simp] theorem State.finishContext_canonical (h : Canonical s.data) : Canonical (s.finishContext p).data := by
  unfold State.finishContext
  split
  · exact h
  · have cores (l : List Nat) {t : State} (ht : Canonical t.data) : Canonical (l.foldl (fun s c => s.passCore c none) t).data :=
      foldl_canonical (fun s c hs => by simp [hs]) _ ht
    dsimp only
    split <;> simp only [State.signal_data, State.signalPresenter_data, State.toPresenter_data, State.installKeys_data, State.data_mk,
      State.fields_data] <;>
      exact cores _ (State.freeSpace_canonical (State.handover_canonical (State.drainPart_canonical h)))
@[simp] theorem State.admitContext_canonical (h : Canonical s.data) : Canonical (s.admitContext q).data := by
  unfold State.admitContext
  split <;> simp [h]
@[simp] theorem State.decide_canonical (h : Canonical s.data) : Canonical (s.decide_ q).data := by
  simp only [State.decide_]
  (repeat' split) <;> simp [h]
@[simp] theorem decideGo_canonical (h : Canonical s.data) : Canonical (decideGo fuel s).data := by
  induction fuel generalizing s with
  | zero => exact h
  | succ fuel ih =>
    simp only [decideGo]
    split
    · exact ih (by simp [h])
    · exact h
@[simp] theorem State.decideWaiting_canonical (h : Canonical s.data) : Canonical s.decideWaiting.data := by simp [State.decideWaiting, h]
@[simp] theorem State.present_canonical (h : Canonical s.data) : Canonical (s.present q).data := by simp [State.present, h]
@[simp] theorem State.claimAnswered_canonical {status : Nat} (h : Canonical s.data) : Canonical (s.claimAnswered status).data := by
  unfold State.claimAnswered
  split <;> simp [h]
@[simp] theorem State.verdictFrom_canonical {mark status : Nat} (h : Canonical s.data) : Canonical (s.verdictFrom dev serial mark status).data := by
  unfold State.verdictFrom
  split <;> simp [h]
@[simp] theorem State.resumeAdmission_canonical (h : Canonical s.data) : Canonical s.resumeAdmission.data := by
  unfold State.resumeAdmission
  split <;> simp [h]
@[simp] theorem State.shrink_canonical {cores memory l2 link : Nat} (h : Canonical s.data) : Canonical (s.shrink p cores memory l2 link).data := by
  unfold State.shrink
  split
  · exact h
  · dsimp only
    split
    · rw [State.setHandle_data]
      exact foldl_canonical (fun s c h => by simp [h]) _ (by simp [h])
    · exact foldl_canonical (fun s c h => by simp [h]) _ (by simp [h])
@[simp] theorem State.wrtSplit_canonical {d : Word} (h : Canonical s.data) : Canonical (s.wrtSplit p d a).2.data := by
  simp only [State.wrtSplit]
  (repeat' split) <;> simp [h]
@[simp] theorem State.wrtDelegate_canonical {d : Word} (h : Canonical s.data) : Canonical (s.wrtDelegate p c d a).2.data := by
  simp only [State.wrtDelegate]
  (repeat' split) <;> simp [h]
@[simp] theorem State.codeAdmit_canonical {d : Word} (h : Canonical s.data) : Canonical (s.codeAdmit p c d a).2.data := by
  simp only [State.codeAdmit]
  split
  · exact h
  split
  · exact h
  split
  · split <;> simp [h]
  split
  · exact h
  split
  · exact h
  split
  · exact h
  · rw [State.modCtx_data]
    exact foldl_canonical (fun s k h => by simp [h]) _ h
@[simp] theorem State.attest_canonical (h : Canonical s.data) : Canonical (s.attest p c a).2.data := by
  simp only [State.attest]
  (repeat' split) <;> simp [h]

/-! #### Swapped threads -/

@[simp] theorem State.writeSpilled_canonical (h : Canonical s.data) : Canonical s.writeSpilled.data := by
  refine foldl_canonical (fun s e h => foldl_canonical (fun s v h => ?_) _ h) _ h
  dsimp only
  split <;> simp [h]

/-! #### Messages -/

@[simp] theorem State.amSend_canonical {order : Nat} {d : Word} {v : Vec} (h : Canonical s.data) : Canonical (s.amSend c sl p order d v).data := by
  simp only [State.amSend]
  (repeat' split) <;> simp [h]

/-! #### Effects of completions -/

theorem State.fxTrap_canonical {e : Effect} {x : TrapInfo} (h : Canonical s.data) (hu : s.fxTrap d e = some (u, x)) : Canonical u.data := by
  unfold State.fxTrap at hu
  split at hu
  · split at hu <;> cases hu
    exact h
  · split at hu <;> cases hu
    exact h
  · split at hu <;> cases hu
    exact h
  · split at hu
    · cases hu
      exact h
    · dsimp only at hu
      split at hu <;> cases hu
      simp [h]
  · obtain ⟨y, -, hy⟩ := Option.map_eq_some_iff.mp hu
    cases hy
    exact h
  · obtain ⟨y, -, hy⟩ := Option.map_eq_some_iff.mp hu
    cases hy
    simp [h]
  · cases hu
@[simp] theorem State.fxJoin_canonical (h : Canonical s.data) : Canonical (s.fxJoin d a).data := by
  simp only [State.fxJoin]
  (repeat' split) <;> simp [h]
@[simp] theorem State.fxPush_canonical {wd q : Nat} {cmd : BitVec 256} {opr : Vec} (h : Canonical s.data)
    : Canonical (s.fxPush d wd q cmd opr).data := by
  simp only [State.fxPush]
  (repeat' split) <;> simp [h]
@[simp] theorem State.fxStart_canonical {req : Word} (h : Canonical s.data) : Canonical (s.fxStart d rd req a).data := by simp [State.fxStart, h]
@[simp] theorem State.fxNwrite_canonical {reg : Nat} {v : Vec} (h : Canonical s.data) : Canonical (s.fxNwrite d core slot reg v).data := by
  simp [State.fxNwrite, h]
@[simp] theorem State.fxWake_canonical {v : Word} (h : Canonical s.data) : Canonical (s.fxWake d core slot v).data := by simp [State.fxWake, h]
@[simp] theorem State.fxArrive_canonical (h : Canonical s.data) : Canonical (s.fxArrive d rd scope a).data := by simp [State.fxArrive, h]
@[simp] theorem State.fxLaunch_canonical {record : Vec} (h : Canonical s.data) : Canonical (s.fxLaunch d rd record).data := by
  simp only [State.fxLaunch]
  (repeat' split) <;> simp [h]
@[simp] theorem State.fxWorkWait_canonical (h : Canonical s.data) : Canonical (s.fxWorkWait d rd a).data := by
  simp only [State.fxWorkWait]
  (repeat' split) <;> simp [h]
@[simp] theorem State.fxCancelEnd_canonical {result : Word} {ids : List Nat} {rewind : Bool} {graph : Nat} {self : Bool} (h : Canonical s.data)
    : Canonical (s.fxCancelEnd d rd result ids rewind graph self).data := by simp [State.fxCancelEnd, h]
@[simp] theorem State.fxRound_canonical {images : List Vec} {pc : Addr} (h : Canonical s.data) : Canonical (s.fxRound d rd a images pc).data := by
  unfold State.fxRound
  (repeat' split) <;> simp [h]
@[simp] theorem State.fxPresent_canonical {form : Nat} (h : Canonical s.data) : Canonical (s.fxPresent d rd form a).s.data := by
  simp only [State.fxPresent]
  (repeat' split) <;> simp [h]
@[simp] theorem State.changeRange_canonical {v : Word} {status : State → Ctx → Nat} {go : Effect} (h : Canonical s.data)
    : Canonical (s.changeRange d rd v a status go).s.data := by
  simp only [State.changeRange]
  (repeat' split) <;> simp [h]
@[simp] theorem State.effect_canonical {e : Effect} (h : Canonical s.data) : Canonical (s.effect d e).s.data := by
  simp only [State.effect]
  (repeat' split) <;> simp [h]

/-! #### The routing engine -/

@[simp] theorem State.writeHomes_canonical {homes : List Nat} (h : Canonical s.data) : Canonical (s.writeHomes p homes bs).data := by
  simp [State.writeHomes, h]
theorem State.placeRecord_canonical {e : CmdEntry} {outcome : Nat} (h : Canonical s.data) (hu : s.placeRecord e i expert slot outcome = .ok u)
    : Canonical u.data := by
  unfold State.placeRecord at hu
  split at hu <;> cases hu
  simp [h]
@[simp] theorem State.claimToken_canonical {e : CmdEntry} {rank weight choiceAt : Nat} (h : Canonical s.data)
    : Canonical (s.claimToken e i expert rank weight choiceAt).1.data := by
  have two (a b : List Nat) (x y : List Byte) {t : State} (ht : Canonical t.data) :
      Canonical ((t.writeHomes e.part a x).writeHomes e.part b y).data := by simp [ht]
  unfold State.claimToken
  dsimp only
  (repeat' split) <;> simp [h, two]
@[simp] theorem State.tokenStep_canonical {a : Active} (h : Canonical s.data) : Canonical (s.tokenStep a i).1.data := by
  unfold State.tokenStep
  extract_lets e at_ drop won
  have dropped {t : State} (b : Active) (ht : Canonical t.data) : Canonical (drop t b).1.data := by
    simp only [drop]
    split
    · exact ht
    next u hu => exact State.placeRecord_canonical ht hu
  split
  · exact h
  next b _ =>
    extract_lets e0 e1
    have claimed {t : State} (expert : Nat) {rank weight : Nat} (ht : Canonical t.data) :
        Canonical (t.claimToken e i expert rank weight at_).1.data := State.claimToken_canonical ht
    have first := claimed (rank := 0) (weight := byteNat b 8 4) e0 h
    split
    next hc => rw [hc] at first; exact first
    next hc => rw [hc] at first; exact first
    next hc =>
      rw [hc] at first
      split
      · have second := claimed (rank := 1) (weight := byteNat b 0xC 4) e1 first
        split
        next hc => rw [hc] at second; exact second
        next hc => rw [hc] at second; exact second
        next hc => rw [hc] at second; exact dropped _ second
      · exact dropped _ first
@[simp] theorem State.fillStep_canonical {a : Active} {rank line : Nat} (h : Canonical s.data)
    : Canonical (s.fillStep a i expert slot rank dev line).1.data := by
  unfold State.fillStep
  split
  · exact h
  split
  · exact h
  split
  · exact h
  dsimp only
  split
  · simp [h]
  next t ht => exact State.placeRecord_canonical (by simp [h]) ht
@[simp] theorem State.routeStep_canonical (h : Canonical s.data) : Canonical (s.routeStep key).data := by
  unfold State.routeStep
  split
  · exact h
  · dsimp only
    split <;> split <;> simp [h]

/-! #### Completion -/

@[simp] theorem runEffects_canonical {fx : List Effect} {jump : Option Addr} (h : Canonical s.data)
    : Canonical (runEffects d fuel fx s jump).s.data := by
  induction fuel generalizing fx s jump with
  | zero => cases fx <;> simp [runEffects, h]
  | succ fuel ih =>
    cases fx with
    | nil => simp [runEffects, h]
    | cons e rest =>
      simp only [runEffects]
      split
      · simp [h]
      split
      · simp [h]
      split
      · simp [h]
      · exact ih (by simp [h])
@[simp] theorem State.complete_canonical (h : Canonical s.data) : Canonical (s.complete d).data := by
  unfold State.complete
  split
  next t x ht =>
    obtain ⟨e, -, he⟩ := List.exists_of_findSome?_eq_some ht
    simp [State.fxTrap_canonical h he]
  · split
    · simp [h]
    next k _ =>
      dsimp only
      have ran := runEffects_canonical (s := s.modThread d.c d.sl fun t => { t with check := k }) (d := d) (fuel := 8) (fx := d.f.fx)
        (jump := none) (by simpa using h)
      (repeat' split) <;> simpa using ran

/-! #### What waits -/

@[simp] theorem State.roundGo_canonical {f : Flight} (h : Canonical s.data) : Canonical (s.roundGo c sl p n f).data := by
  simp only [State.roundGo]
  (repeat' split) <;> simp [h]
@[simp] theorem State.settleThread_canonical (h : Canonical s.data) : Canonical (s.settleThread c sl).data := by
  simp only [State.settleThread]
  (repeat' split) <;> simp [h]
@[simp] theorem State.settleContexts_canonical (h : Canonical s.data) : Canonical s.settleContexts.data := by
  refine foldl_canonical (fun s e h => ?_) _ h
  dsimp only
  (repeat' split) <;> simp [h]
@[simp] theorem State.settle_canonical (h : Canonical s.data) : Canonical s.settle.data := by
  unfold State.settle
  dsimp only
  refine State.writeSpilled_canonical ?_
  simp only [State.passBacklogs_data, State.sendAwaited_data, State.applySchedules_data, State.endDying_data, State.endStranded_data,
    State.freeLeft_data]
  split <;> simp [h]
@[simp] theorem State.wakeAll_canonical (h : Canonical s.data) : Canonical s.wakeAll.data := by
  refine foldl_canonical (fun s e h => ?_) _ h
  simp [h]

/-! #### Arrivals -/

@[simp] theorem State.nextElement_canonical (h : Canonical s.data) : Canonical (s.nextElement key).data := by
  unfold State.nextElement
  split <;> simp [h]

/-! #### Links -/

theorem State.givePages_canonical (h : Canonical s.data) (hu : s.givePages p dev size attr n = some u) : Canonical u.data := by
  induction n generalizing s with
  | zero => exact Option.some.inj hu ▸ h
  | succ n ih =>
    simp only [State.givePages] at hu
    split at hu
    · exact ih (by simp [h]) hu
    · cases hu
@[simp] theorem State.peerMap_canonical {count : Nat} (h : Canonical s.data) : Canonical (s.peerMap dev serial size count attr).data := by
  unfold State.peerMap
  split
  · exact h
  split
  · exact h
  next p x _ _ =>
    cases e : s.givePages p dev size attr count with
    | none => exact h
    | some u => exact State.givePages_canonical h e
@[simp] theorem State.peerInvalidate_canonical {base length : Nat} {release : Bool} (h : Canonical s.data)
    : Canonical (s.peerInvalidate dev serial base length release).data := by
  unfold State.peerInvalidate
  split
  · exact h
  split
  · exact h
  refine foldl_canonical (fun s e h => ?_) _ h
  split <;> simp [h]
@[simp] theorem State.peerToken_canonical {line : Nat} {bytes header : List Byte} (h : Canonical s.data)
    : Canonical (s.peerToken serial line bytes header).data := by
  have two (c p a b : Nat) (x y : List Byte) {t : State} (ht : Canonical t.data) :
      Canonical ((t.writeVirt c p a x).writeVirt c p b y).data := by simp [ht]
  unfold State.peerToken
  split
  · exact h
  dsimp only
  (repeat' split) <;> simp [h, two]
@[simp] theorem State.peerAtomic_canonical {addr op : Nat} {b c : Word} (h : Canonical s.data)
    : Canonical (s.peerAtomic dev addr attr op b c).data := by simp [State.peerAtomic, h]
@[simp] theorem State.linkDelivers_canonical {m : LinkMessage} (h : Canonical s.data) : Canonical (s.linkDelivers m).data := by
  unfold State.linkDelivers
  (repeat' split) <;> simp [h]

/-! #### The host -/

@[simp] theorem State.doorbell_canonical {kind : Nat} (h : Canonical s.data) : Canonical (s.doorbell kind).data := by simp [State.doorbell, h]

/-! #### The tile engine -/

@[simp] theorem State.withElem_canonical {w : ElemWrite} (h : Canonical s.data) : Canonical (s.withElem w).data := by simp [State.withElem, h]

/-! #### Rewrite groups -/

@[simp] theorem State.groupCommit_canonical {g : Group} {a : Active} (h : Canonical s.data) : Canonical (s.groupCommit c g a).data := by
  simp only [State.groupCommit, State.count_data]
  rw [foldl_data (fun s m => by simp), foldl_data (fun s m => by simp)]
  simp only [State.modCore_data, State.dropActive_data, State.writeTiles_data]
  exact foldl_canonical (fun s w h => by simp [h]) _ h

/-! #### The dispatcher -/

@[simp] theorem State.startUnits_canonical {r : Vec} {k : Option Checkpoint} {plan : Plan} (h : Canonical s.data)
    : Canonical (s.startUnits id r k plan).data := by
  refine foldl_canonical (fun s e h => ?_) _ h
  dsimp only
  simp [h]
@[simp] theorem State.placeLaunch_canonical {x : Ctx} {l : Launch} {plan : Plan} (h : Canonical s.data)
    : Canonical (s.placeLaunch p x id l plan).data := by simp [State.placeLaunch, h]
@[simp] theorem State.decision_canonical (h : Canonical s.data) : Canonical s.decision.data := by
  unfold State.decision
  split <;> simp [h]
@[simp] theorem State.leaveCore_canonical (h : Canonical s.data) : Canonical (s.leaveCore p c).data := by
  simp only [State.leaveCore]
  (repeat' split) <;> simp [h]
@[simp] theorem State.moveCore_canonical (h : Canonical s.data) : Canonical (s.moveCore p c).data := by simp [State.moveCore, h]
@[simp] theorem State.replayDeliveries_canonical {old : Nat} (h : Canonical s.data) : Canonical (s.replayDeliveries p old c).data := by
  unfold State.replayDeliveries
  split
  · exact h
  · exact foldl_canonical (fun s d h => by simp [h]) _ (by simp [h])
@[simp] theorem State.restoreImage_canonical {m : Image} (h : Canonical s.data) : Canonical (s.restoreImage p c m).data := by
  unfold State.restoreImage
  extract_lets here s1 s2 s3 s4 mine
  have h4 : Canonical s4.data := by
    refine State.replayDeliveries_canonical ?_
    simp [s3, s2, s1, h]
  rw [foldl_data (fun s v => by split <;> simp)]
  exact h4
@[simp] theorem State.lendCore_canonical (h : Canonical s.data) : Canonical (s.lendCore c p).data := by
  simp only [State.lendCore]
  (repeat' split) <;> simp [h]

/-! #### Turns -/

@[simp] theorem State.enterTimed_canonical (h : Canonical s.data) : Canonical s.enterTimed.data := by simp [State.enterTimed, h]
@[simp] theorem State.tick_canonical (h : Canonical s.data) : Canonical s.tick.data := by
  unfold State.tick
  extract_lets s1 held s2 s3 s4
  have h1 : Canonical s1.data := by
    refine State.enterTimed_canonical ?_
    split <;> simp [h]
  refine State.wakeAll_canonical ?_
  have h3 : s3.data = s1.data := by simp [s3, s2]
  simp [s4, h3, h1]
@[simp] theorem State.finish_canonical (h : Canonical s.data) : Canonical s.finish.data := by simp [State.finish, h]

end

/-! ### What an instruction does at once -/

/-- The next state, where there is one, has these data. -/
def Leaves (r : Res) (d : Tab Byte × Tab Byte × Tab Nat) : Prop := ∀ u, r = .next u → u.data = d

/-- An issue leaves the data when the instruction's own part does. -/
theorem State.issue_leaves {s : State} {f : Form} {body : Op → State → State} (h : ∀ o t, (body o t).data = t.data) :
    Leaves (s.issue f body) s.data := by
  intro u hu
  unfold State.issue at hu
  split at hu
  · cases hu
  · cases hu
    rw [State.ite_data, State.memberPair_data, State.issueOwn_data (h _), ite_self]

theorem State.startWith_leaves {s : State} {f : CmdEntry → State} (h : ∀ e, (f e).data = s.data) : Leaves (s.startWith f) s.data := by
  intro u hu
  unfold State.startWith at hu
  split at hu <;> cases hu
  exact h _

/-- An instruction alone writes nothing at its issue: a store goes to its thread's buffer, and what else it does at its completion
(R26, R114). -/
theorem exec_single_leaves {i : Instr} (h : (encode i).isEmpty = false) (single : ∀ w, i ≠ .once w) (s : State) :
    Leaves (exec i s) s.data := by
  cases i
  case once w => exact absurd rfl (single w)
  all_goals cases h
  all_goals refine State.issue_leaves fun o t => ?_
  case ldpc | qpush | nwaitNbr | round | park =>
    dsimp only
    (repeat' split) <;> simp
  all_goals (repeat' split) <;> simp

/-- An instruction that follows ONCE means there what it means alone (R57, R100). -/
theorem issuePair_eq_exec {i : Instr} {s : State} {r : Res} (h : issuePair i s = some r) :
    r = exec i s ∧ (encode i).isEmpty = false ∧ ∀ w, i ≠ .once w := by
  cases i <;> cases h <;> exact ⟨rfl, rfl, fun _ e => nomatch e⟩

theorem execOnce_leaves (w : BitVec 32) (s : State) : Leaves (execOnce w s) s.data := by
  intro u hu
  unfold execOnce at hu
  split at hu
  · split at hu
    next r hr =>
      obtain ⟨i, _, hi⟩ := Option.bind_eq_some_iff.mp hr
      obtain ⟨rfl, words, single⟩ := issuePair_eq_exec hi
      exact (exec_single_leaves words single _ u hu :)
    · cases hu
      exact State.illegal_data
  · cases hu

theorem exec_core_leaves {i : Instr} (h : (encode i).isEmpty = false) (s : State) : Leaves (exec i s) s.data := by
  by_cases once : ∃ w, i = .once w
  · obtain ⟨w, rfl⟩ := once
    exact execOnce_leaves w s
  · exact exec_single_leaves h (fun w e => once ⟨w, e⟩) s

/-- A command that starts writes nothing yet: its elements become visible one by one (R197). -/
theorem exec_command_leaves {i : Instr} (h : (commandCode i).isSome = true) (s : State) : Leaves (exec i s) s.data := by
  cases i <;> cases h
  all_goals exact State.startWith_leaves fun e => by simp

/-- Events write, and keep the canonical form. -/
theorem exec_event_canonical {i : Instr} (h : isEvent i = true) {s u : State} (hs : Canonical s.data) (hu : exec i s = .next u) :
    Canonical u.data := by
  cases i <;> cases h <;> cases hu
  case dataFlitReceive =>
    split
    · exact foldl_canonical (fun s m h => by simp [h]) _ hs
    · simp [hs]
  case counterPageUpdate => exact foldl_canonical (fun s e h => by simp [h]) _ hs
  all_goals (repeat' split) <;> simp [hs]

/-! ### One step -/

/-- What a move that fits does keeps the canonical form. -/
theorem Move.Fits.canonical {s u : State} {m : Move} (h : m.Fits s) (hs : Canonical s.data) (hu : s.doMove m = .next u) :
    Canonical u.data := by
  cases m with
  | event i a => exact exec_event_canonical h (s := { s with cur := .none, arg := a }) hs hu
  | issue c sl i =>
    have kept : u.data = s.data := exec_core_leaves h.1 { s with cur := .thread c sl, arg := Arg.none } u hu
    exact kept ▸ hs
  | command e i =>
    have kept : u.data = s.data := exec_command_leaves h { s with cur := .command e, arg := Arg.none } u hu
    exact kept ▸ hs
  | tick =>
    cases hu
    exact State.tick_canonical hs
  | skip =>
    cases hu
    exact hs
  | illegal | badFetch | refuse | group =>
    cases hu
    simp [hs]

/-- What follows a move keeps the canonical form. -/
theorem finishRes_canonical {r : Res} {read : List Nat} {u : State} (h : ∀ t, r = .next t → Canonical t.data)
    (hu : finishRes read r = .next u) : Canonical u.data := by
  cases r with
  | next t =>
    have filled : Canonical (t.fillLines read).data := by
      rw [State.fillLines_data]
      exact h t rfl
    exact Host.Outcome.next.inj hu ▸ State.finish_canonical filled
  | _ => cases hu

/-- A step does a move that fits, and then waits, gangs and engines go on (R26). -/
theorem step_canonical {s u : State} (h : Canonical s.data) (hu : step s = .next u) : Canonical u.data := by
  have taken : Canonical s.taken.data := by
    rw [State.taken_data]
    exact h
  exact finishRes_canonical (fun _ e => (move_fits s).taken.canonical taken e) hu

end Sys2Proof.Machine

namespace Sys2Proof.Slice0
open Sys2Proof.Machine

/-- Settles O60: a step is made of operations that leave memory and scratchpads alone and of ones that keep their canonical form. -/
theorem stepKeepsMemoryCanonical : Obligations.StepKeepsMemoryCanonical := by
  unfold Obligations.StepKeepsMemoryCanonical
  exact fun _ _ next mem scratch => canonical_data_iff.mp (step_canonical (canonical_data_iff.mpr ⟨mem, scratch⟩) next)

end Sys2Proof.Slice0
end

/-! PROOFS. O35: a committed entry, and the next element of a started command, become visible whole (R150, R197, R276). Both write their
bytes at home addresses that take them, so what is read there afterwards is what was written, and everything else is as it was. -/
section
namespace Sys2Proof.Machine

/-! ### Bytes that take their place at their homes (R45, R150, R318) -/

/-- A home takes a byte: memory does, and so does the scratchpad of a core that was not killed (R318). -/
def State.TakesAt (s : State) (a : Nat) : Prop := a < scratchHome ∨ (s.core ((a - scratchHome) / 2 ^ 20)).fenced = false

theorem State.takesAt_iff {s : State} {a : Nat} :
    s.TakesAt a ↔ (scratchHome ≤ a → (s.core ((a - scratchHome) / 2 ^ 20)).fenced = false) := by
  rw [State.TakesAt, or_iff_not_imp_left, Nat.not_lt]

theorem State.takesAt_congr {s u : State} (h : u.cores = s.cores) {a : Nat} : u.TakesAt a ↔ s.TakesAt a := by
  simp only [State.TakesAt, State.core_congr h]

/-- What is read after an access whose homes take its bytes: those bytes, and elsewhere what stood there. -/
theorem State.homeByte_applyWrites {s : State} {w : Tab Byte} (sorted : tabSorted w = true) (takes : ∀ e ∈ w, s.TakesAt e.1) (a : Nat) :
    (s.applyWrites w).homeByte a = (tabGet? w a).getD (s.homeByte a) := by
  rw [State.applyWrites_homeByte]
  induction w generalizing s with
  | nil => rfl
  | cons e w ih =>
    obtain ⟨k, b⟩ := e
    obtain ⟨sorted', above⟩ := tabSorted_cons.mp sorted
    have cores : (s.setHomeByte k b).cores = s.cores := by rw [State.setHomeByte_eq]
    have rest : ((s.setHomeByte k b).writeAll w).homeByte a = (tabGet? w a).getD ((s.setHomeByte k b).homeByte a) :=
      ih sorted' fun e he => (State.takesAt_congr cores).mpr (takes e (List.mem_cons_of_mem _ he))
    refine rest.trans ?_
    by_cases here : k = a
    · subst here
      rw [tabGet?_eq_none fun e he => Nat.ne_of_gt (above e he), Option.getD_none,
        State.homeByte_setHomeByte_self _ _ _ (takes (k, b) List.mem_cons_self)]
      simp [tabGet?]
    · rw [State.homeByte_setHomeByte_other _ _ (Ne.symm here), tabGet?, if_neg here]

/-- Bytes in a row stand at their homes once these take them. -/
theorem State.homeByte_pokeBytes {s : State} {a : Nat} {bs : List Byte} (takes : ∀ i, i < bs.length → s.TakesAt (a + i)) {i : Nat}
    (h : i < bs.length) : (s.pokeBytes a bs).homeByte (a + i) = bs.getD i 0 := by
  have keys : ((((List.range bs.length).map fun i => a + i).zip bs).map Prod.fst) = (List.range bs.length).map fun i => a + i :=
    List.map_fst_zip (by simp)
  refine s.applyWrites_takes _ (fun e he => ?_) ?_ ?_
  · obtain ⟨i, hi, e⟩ := List.mem_map.mp (List.of_mem_zip he).1
    exact e ▸ takes i (List.mem_range.mp hi)
  · rw [keys]
    exact List.nodup_range.map fun _ _ => Nat.add_left_cancel
  · rw [List.mem_iff_getElem]
    exact ⟨i, by simpa using h, by simp [h]⟩

/-! ### A committed entry (R150) -/

/-- What becomes visible before others is noted, and nothing else changes. -/
theorem State.notePass_eq (s : State) (q : Access) : s.notePass q = { s with passed := (s.notePass q).passed } := by
  unfold State.notePass
  dsimp only
  split <;> rfl

/-- An entry whose homes can be reached leaves the list and writes its bytes. -/
theorem State.showStore_eq {s : State} {n : Nat} {e : Store} (found : s.pend[n]? = some e)
    (reached : ∀ w ∈ e.writes, ∀ d, homeDevice w.1 = some d → s.reachable d = true) :
    s.showStore n = ({ s with pend := s.pend.eraseIdx n } : State).applyWrites e.writes := by
  unfold State.showStore
  rw [found]
  refine if_neg fun gone => ?_
  obtain ⟨w, hw, gone⟩ := List.any_eq_true.mp gone
  cases hd : homeDevice w.1 with
  | none => simp [hd] at gone
  | some d => simp [hd, reached w hw d hd] at gone

theorem State.showNext_eq {s : State} {n : Nat} {e : Store} (found : s.pend[n]? = some e)
    (reached : ∀ w ∈ e.writes, ∀ d, homeDevice w.1 = some d → s.reachable d = true) :
    s.showNext n = ({ s with pend := s.pend.eraseIdx n, passed := (s.notePass e.access).passed } : State).applyWrites e.writes := by
  unfold State.showNext
  rw [found]
  dsimp only
  rw [State.notePass_eq]
  exact State.showStore_eq (s := { s with passed := (s.notePass e.access).passed }) found reached

/-- The n-th committed entry becomes visible: its bytes are at their homes, and nothing but that has changed. -/
theorem State.showNext_spec {s : State} {n : Nat} {e : Store} (found : s.pend[n]? = some e) (sorted : tabSorted e.writes = true)
    (reached : ∀ w ∈ e.writes, ∀ d, homeDevice w.1 = some d → s.reachable d = true) (takes : ∀ w ∈ e.writes, s.TakesAt w.1) :
    (∀ a, (s.showNext n).homeByte a = (tabGet? e.writes a).getD (s.homeByte a)) ∧ (s.showNext n).pend = s.pend.eraseIdx n ∧
      s.showNext n = { s with
        pend := (s.showNext n).pend, mem := (s.showNext n).mem, scratch := (s.showNext n).scratch, lost := (s.showNext n).lost
        badWords := (s.showNext n).badWords, dirty := (s.showNext n).dirty, passed := (s.showNext n).passed } := by
  rw [State.showNext_eq found reached]
  refine ⟨State.homeByte_applyWrites sorted takes, ?_, ?_⟩
  · rw [State.applyWrites_eq]
  · rw [State.applyWrites_eq]

/-! ### The next element of a started command (R197) -/

/-- A command's write to homes of which none is away becomes visible there. -/
theorem State.routeWrite_pokes {s : State} {p a : Nat} {bs : List Byte} (here : ∀ i, i < bs.length → a + i < divertHome) :
    s.routeWrite p (((List.range bs.length).map fun i => a + i).zip bs) = s.pokeBytes a bs := by
  refine if_pos (List.isEmpty_iff.mpr (List.filter_eq_nil_iff.mpr fun e he => ?_))
  obtain ⟨i, hi, e⟩ := List.mem_map.mp (List.of_mem_zip he).1
  have := here i (List.mem_range.mp hi)
  simp only [decide_eq_true_eq]
  omega

/-- A delivery that its home takes is not one that a killed core discards. -/
theorem State.countDropped_taken {s : State} {a : Nat} (takes : s.TakesAt a) : s.countDropped [a] = s := by
  have one (c : Nat) : [c].eraseDups = [c] := rfl
  obtain below | live := takes
  · simp [State.countDropped, Nat.not_le.mpr below]
  · by_cases pad : a ≥ scratchHome
    · simp [State.countDropped, pad, one, -Nat.reducePow, live]
    · simp [State.countDropped, pad]

theorem State.count_eq (s : State) (p i n : Nat) : s.count p i n = { s with ctxs := (s.count p i n).ctxs } := State.modCtx_eq ..

/-- The next element of a command that streams nothing, to homes that take it: its bytes are there, and nothing but that has changed. -/
theorem State.showElement_eq {s : State} {k : Nat} {a : Active} {w : ElemWrite} {rest : List ElemWrite} (found : tabGet? s.active k = some a)
    (next : a.writes = w :: rest) (single : s.streamOf k = none) (unbound : a.entry.bound = false) (bytes : w.bytes ≠ [])
    (here : ∀ i, i < w.bytes.length → w.addr + i < divertHome) (takes : ∀ i, i < w.bytes.length → s.TakesAt (w.addr + i)) :
    ∃ ctxs, s.showElement k =
      { s.pokeBytes w.addr w.bytes with active := tabSet s.active k { a with writes := rest, done := a.done + 1 }, ctxs := ctxs } := by
  obtain ⟨m, sc, di, lo, ba, poked⟩ := s.pokeBytes_eq w.addr w.bytes
  unfold State.showElement
  rw [found]
  dsimp only
  rw [next]
  dsimp only
  rw [State.routeWrite_pokes here, poked]
  have stream : ({ s with mem := m, scratch := sc, dirty := di, lost := lo, badWords := ba } : State).streamOf k = none := single
  simp only [stream, unbound, Option.isSome_none, Bool.false_and, Bool.false_eq_true, if_false]
  split
  · exact ⟨_, State.count_eq ..⟩
  split
  · have head : s.TakesAt w.addr := takes 0 (List.length_pos_iff.mpr bytes)
    exact ⟨s.ctxs, State.countDropped_taken head⟩
  · exact ⟨s.ctxs, rfl⟩

end Sys2Proof.Machine

namespace Sys2Proof.Slice0
open Sys2Proof.Machine

/-- Settles O35: both write at homes that take their bytes, the entry as its table lists them, the element in a row. -/
theorem storeBecomesVisible : Obligations.StoreBecomesVisible := by
  unfold Obligations.StoreBecomesVisible
  constructor
  · rintro s n e flag rfl found may sorted homes
    obtain ⟨bytes, pend, only⟩ := State.showNext_spec found sorted (fun w hw => (homes w hw).1) fun w hw => State.takesAt_iff.mpr (homes w hw).2
    refine ⟨_, ?_, bytes, pend, only⟩
    change execStoreVisible s = _
    simp [execStoreVisible, flag, may]
  · rintro s k a w rest flag rfl found steps next may single unbound bytes here live
    have takes : ∀ i, i < w.bytes.length → s.TakesAt (w.addr + i) := fun i hi => State.takesAt_iff.mpr (live i hi)
    obtain ⟨ctxs, shown⟩ := State.showElement_eq found next single unbound bytes here takes
    have fits : s.stepFits s.arg.n = true := by simp [State.stepFits, found, steps]
    have goes : s.nextElement s.arg.n = s.showElement s.arg.n := by simp [State.nextElement, found, steps]
    refine ⟨s.showElement s.arg.n, ?_, ?_, ?_, ?_, ?_⟩
    · change execStoreVisible s = _
      simp [execStoreVisible, flag, may, fits, goes]
    · rw [shown]
      exact fun i hi => State.homeByte_pokeBytes takes hi
    · rw [shown]
      exact fun b hb => State.pokeBytes_frame s hb
    · rw [shown]
      exact tabGet?_set_self ..
    · obtain ⟨m, sc, di, lo, ba, poked⟩ := s.pokeBytes_eq w.addr w.bytes
      rw [shown, poked]

end Sys2Proof.Slice0
end
